-- ==== Sys2Proof/Word.lean ====
section
/-! DEFINITION. The words the model moves about: bytes, 4 KiB blocks, and 64-bit words for the
arithmetic that the spec writes modulo 2^64. Counts, indexes and addresses are natural numbers. -/

namespace Sys2Proof

abbrev Byte := BitVec 8

abbrev U64 := BitVec 64

/-- A 4 KiB block, or a longer run of bytes. Bytes past the end of the list are zero, so the block of
zeros is the empty list. -/
abbrev Block := List Byte

/-- A map with natural-number keys: pairs sorted by key, no key twice. -/
abbrev SMap (α : Type) := List (Nat × α)

end Sys2Proof
end

