-- ==== Sys2Proof/Types.lean ====
section
/-! DEFINITION. The operand types of the commands: what the surroundings of the device hand it with a
command (who sends, what a host read returns, what a drive answers). -/

namespace Sys2Proof

/-- The window an access comes through (R415, R445): a PF's CSR window, a VF's window, a management core. -/
inductive Win where
  | pf (port : Nat)
  | vf (port func : Nat)
  | core (n : Nat)
  deriving DecidableEq, Repr

/-- What comes back for a device read of host memory (R267): data, or one of the completion errors. -/
inductive HostRd where
  | data (bytes : List Byte)
  | unsupported
  | abort
  | poisoned
  | ecrc
  | timedOut
  deriving DecidableEq, Repr

/-- The errors of Table HOST-7. -/
inductive Aer where
  | receiverError | badTlp | badDllp | replayTimer | replayRollover | correctedInternal | completionTimeout
  | unexpectedCompletion | completerAbortReceived | unsupportedReceived | poisoned | completerAbortSent | unsupportedSent
  | ecrc | dataLinkProtocol | flowControlProtocol | receiverOverflow | malformed | uncorrectableInternal
  deriving DecidableEq, Repr

/-- The settings of a function's configuration space that decide what it sends (Table HOST-1, R261 to R266, R276 to R280): MSI-X Enable
and Function Mask, the vectors allocated where MSI is enabled and its mask bits, Enable Relaxed Ordering, Max_Payload_Size and
Max_Read_Request_Size in bytes, 10-bit Tag Requester Enable, Completion Timeout Value, PME_En, LTR Mechanism Enable and
ASPM L1 enable; whether host software has cleared PME_Status; Memory Space Enable and, in a PF, VF MSE (R259); the enables of L1.1 and L1.2; the
address and data of MSI; and of AER the masked errors, whether advisory non-fatal errors are masked, the errors whose severity is fatal, the enables of
correctable, non-fatal and fatal error messages, and whether host software has cleared the status bits (R281). What stands masked at reset is as the
PCI Express standard has it (PRESUMED, notes/assumptions/144.md). -/
structure FnCfg where
  msix    : Bool
  fmask   : Bool
  msi     : Option Nat
  msiMask : List Nat
  relaxed : Bool
  mps     : Nat
  mrrs    : Nat
  tag10   : Bool
  cto     : Nat
  pmeEn   : Bool
  ltrEn   : Bool
  aspmL1  : Bool
  pmeClr  : Bool := false
  mse     : Bool := false
  vfMse   : Bool := false
  l11     : Bool := false
  l12     : Bool := false
  msiAddr : Nat := 0
  msiData : Nat := 0
  aerMask : List Aer := [.correctedInternal, .uncorrectableInternal]
  advMask : Bool := true
  aerFatal : List Aer := [.dataLinkProtocol, .flowControlProtocol, .receiverOverflow, .malformed, .uncorrectableInternal]
  errCor  : Bool := false
  errNonfatal : Bool := false
  errFatal : Bool := false
  aerClr  : Bool := false
  deriving DecidableEq, Repr

/-- A substate that a link enters with L1 (R279). -/
inductive L1Sub where
  | plain | l11 | l12
  deriving DecidableEq, Repr

/-- SR-IOV Control as VF Enable is set: ARI Capable Hierarchy and VF MSE. -/
structure VfCtl where
  ari : Bool
  mse : Bool
  deriving DecidableEq, Repr

/-- Messages of the PCI Express standard that a host port sends (R278 to R281), and the completion of a configuration write that R271 places
in time. -/
inductive PcieMsg where
  | pmPme | pmeToAck | ltr | l1Request | wake | cfgDone | errCor | errNonfatal | errFatal
  deriving DecidableEq, Repr

/-- How a drive ends an NVMe command (R292, Table DRIVE-3). -/
inductive Nvme where
  | ok
  | unrecovered
  | endToEnd
  | reservationConflict
  | other
  deriving DecidableEq, Repr

/-- What a drive answers to the bring-up steps (R287 to R290): whether the controller becomes ready, its class code, version and whether
CAP.CSS has the NVM command set; ONCS and VWC bits; MDTS, controller ID and the 20 bytes of its serial number; and its active namespaces as (NSID, bytes, whether
the LBA format is 4,096 bytes without metadata). -/
structure DriveId where
  ready   : Bool
  cls     : Nat
  version : Nat
  nvm     : Bool
  wz      : Bool
  resv    : Bool
  dsm     : Bool
  vwc     : Bool
  mdts    : Nat
  cntlid  : Nat
  serial  : List Byte
  nss     : List (Nat × Nat × Bool)
  queues  : Nat := 65535
  aspm    : Bool := true
  deriving DecidableEq, Repr

/-- The status codes of an Unmal completion entry (Table RING-6). -/
inductive Status where
  | ok | invalidOpcode | invalidField | lbaRange | mediaUnrecovered | abortedReset | compareMismatch
  | noSpace | roleDenied | busyRetry | lostWrite | tagMismatch | stateConflict | fenced | internal
  deriving DecidableEq, Repr

/-- The messages controllers exchange over the Tashaop links (Tables LINK-8 to LINK-10). -/
inductive MsgKind where
  | journalEntry | fenceNotice | mirrorWrite | mirrorRelease | mirrorAck | mirrorLost | memberRead
  | memberWrite | completion | renew | renewAck | claim | attachOffer | attachAccept | attachRefuse
  | progress | proof | suspect | sync | ping | pong
  deriving DecidableEq, Repr

/-- The fields of a message beside its class and operation (Table LINK-2). -/
structure Msg where
  hops : Nat
  dst  : Nat
  src  : Nat
  tag  : Nat
  arg  : Nat
  arg2 : Nat
  body : List Byte
  deriving DecidableEq, Repr

/-- A DIMM as its SPD describes it (Table DRAM-1, R302): whether the SPD can be read, whether type and ECC are those required, capacity in
GiB, ranks, x8 devices, row field width and highest speed as DMC_SPEED.RUN codes it. -/
structure Dimm where
  spd   : Bool
  kind  : Bool
  gib   : Nat
  ranks : Nat
  x8    : Bool
  rows  : Nat
  speed : Nat
  deriving DecidableEq, Repr

/-- What a device of a DIMM returns wrong in a burst: the symbols in error, a mask of eight, of its low and of its high four data lines. An x4
device has the low four alone (R308). -/
structure DevErr where
  dev : Nat
  lo  : Nat
  hi  : Nat
  deriving DecidableEq, Repr

/-- A request that reads a burst of a DRAM channel: its channel address, and the page of the unit that asked (Table PAGE-3). -/
structure DramReq where
  addr   : Nat
  master : Nat
  deriving DecidableEq, Repr

/-- An error of SRAM or DRAM in a burst of the Graver: whether the destination side meets it, the offset of its byte in the burst, and what the DIMM's
devices return wrong (R308, R355). -/
structure MoveErr where
  dst  : Bool
  off  : Nat
  errs : List DevErr
  deriving DecidableEq, Repr

/-- The devices that err in a burst, from their numbers and their masks of symbols of the low and the high data lines. -/
def devErrs (devs : List Nat) (syms : List (Nat × Nat)) : List DevErr := (devs.zip syms).map (fun q => ⟨q.1, q.2.1, q.2.2⟩)

/-- How a DRAM burst checks (R308): the device or half-device and its symbols in error as DMC_ERR_SYN shows them. -/
inductive Ecc where
  | clean
  | corrected (unit syms : Nat)
  | uncorrected (unit syms : Nat)
  deriving DecidableEq, Repr

/-- The three rights levels, lowest first (Table ROLE-1). -/
inductive Role where
  | operator | installer | maker
  deriving DecidableEq, Repr

/-- One member block as a drive returns it: its bytes and its protection tag (Table STRIPE-6). -/
structure TBlk where
  data : Block
  tag  : Nat
  deriving DecidableEq, Repr

/-- A namespace found on a drive port at assembly, with its two label copies as read (R36, R110) and its drive's serial number. -/
structure FoundNs where
  port  : Nat
  nsid  : Nat
  copyA : List Byte
  copyB : List Byte
  serial : List Byte
  deriving DecidableEq, Repr

/-- What one member of a plate holds, as the device reads it at assembly, import or takeover: its two label copies (R36); catalogue pages by
number (R40); the lost-block table's 16-byte header and its entries by number (R42); the journal header, records and atomic-log blocks by
number (Table WRITE-8); and the blocks, by row and block within the strip, that are read to check lost-block entries (R92). -/
structure MemberMedia where
  mem     : Nat
  copyA   : List Byte
  copyB   : List Byte
  cat     : List (Nat × List Byte)
  lbtHead : List Byte
  lbtEnts : List (Nat × List Byte)
  jHdr    : List Byte
  jRecs   : List (Nat × List Byte)
  jLog    : List (Nat × Block)
  blks    : List (Nat × Nat × TBlk)
  deriving DecidableEq, Repr

/-- What the members of one plate hold, and the progress records that a former owner within reach gives (R111). -/
structure PlateMedia where
  plateId  : Nat
  mems     : List MemberMedia
  progress : List (List Byte)
  deriving DecidableEq, Repr

/-- What the vault targets answer at start-up (R151, R159): whether the write and read-back of the test region came back on the first and
on the second target, the rate measured in MB/s for the slower target, and the chunks as read from each target, by number. -/
structure VaultRead where
  ok1    : Bool
  ok2    : Bool
  rate   : Nat
  copies : List (List (Nat × List Byte))
  deriving DecidableEq, Repr

/-- What another node says of a namespace that a CREATE_PLATE names there (R221): its READY port and DRIVE_KEY, its size, whether its LBA
format is 4,096 bytes without metadata, and whether it is unassigned (R110). -/
structure FarNs where
  node  : Nat
  port  : Nat
  nsid  : Nat
  key   : Nat
  bytes : Nat
  lbaOk : Bool
  free  : Bool
  deriving DecidableEq, Repr

/-- What the device finds as a start-up phase ends (Table POWER-5, R391, R458): the INSTALL and FTEST straps and the node strap; which host
clocks are present; the crystal running; how long CCLK took to come up, in ns; the ports and links whose SerDes group failed its
calibration; that the sensors calibrated; that the SRAM checked; and what the random source gives for the challenge of the start-up
authentication (R189). -/
structure PhaseFacts where
  inst    : Bool
  ft      : Bool
  node    : Nat
  hclk0   : Bool
  hclk1   : Bool
  xtal    : Bool
  wakeNs  : Nat
  serdes  : List Nat
  sensors : Bool
  sram    : Bool
  nonce   : Nat := 0
  deriving DecidableEq, Repr

/-- What else a CREATE_PLATE draws on (R221): the random seed and the PLATE_ID to be assigned where the page asks for them, whether a
PLATE_ID named is known to another node, and what other nodes say of the namespaces named there. -/
structure PlateFacts where
  seed  : Nat
  id    : Nat
  known : Bool
  far   : List FarNs
  deriving DecidableEq, Repr

end Sys2Proof
end

