-- ==== Sys2Proof/Syntax.lean ====
section
/-! DEFINITION. The commands of the block: one constructor for each row of the spec's operation table,
with the data its surroundings supply. Numbers name contexts, plates, ports, links, channels, cores,
journal entries or outstanding requests, as the operand's name says. -/

namespace Sys2Proof

inductive Instr where
  | sqTailDoorbell (w : Win) (c size v : Nat)
  | cqHeadDoorbell (w : Win) (c size v : Nat)
  | submissionFetch (c : Nat)
  | submissionEntryReceived (port tag : Nat) (r : HostRd)
  | read (cmd : Nat)
  | write (cmd : Nat)
  | flush (cmd : Nat)
  | writeZeroes (cmd : Nat)
  | deallocate (cmd : Nat)
  | compare (cmd : Nat)
  | verify (cmd : Nat)
  | fill (cmd : Nat)
  | copy (cmd : Nat)
  | volumeInfo (cmd : Nat)
  | createVolume (cmd : Nat)
  | deleteVolume (cmd : Nat)
  | resizeVolume (cmd : Nat)
  | attach (cmd : Nat)
  | detach (cmd : Nat)
  | createPlate (cmd : Nat) (page : HostRd) (facts : PlateFacts)
  | deletePlate (cmd : Nat)
  | blockCmd (cmd : Nat) (media : PlateMedia) (ok1 ok2 : Bool) (rate nonce : Nat)
  | getLostWrites (cmd : Nat)
  | resync (cmd : Nat)
  | chipResync (w : Win) (v : Nat)
  | snapshotPublish
  | tenantInfo (cmd : Nat)
  | setSched (cmd : Nat)
  | setClass (cmd : Nat)
  | timeAdj (cmd : Nat)
  | roleChallenge (cmd nonce : Nat)
  | roleResponse (cmd : Nat) (page : HostRd)
  | roleDrop (cmd : Nat)
  | firmwareStage (cmd : Nat) (page : HostRd)
  | firmwareCommit (cmd : Nat)
  | admissionDecision (ue : Bool)
  | grantQueuedSegment
  | hostReadCompletion (port tag : Nat) (r : HostRd)
  | dataStaged (j : Nat)
  | groupCommitPoint (j : Nat)
  | burinJobEnd (sop : Bool) (id : Nat)
  | burinBeatMismatch (b : Nat) (again : Bool)
  | burinPipeAwake (b : Nat)
  | katStart (w : Win) (b : Nat)
  | katDone (b : Nat) (lanes : List (Byte × Byte))
  | memberWriteComplete (id : Nat) (st : Nvme)
  | tagPageReadComplete (id : Nat) (st : Nvme) (tags : List Nat)
  | tagWriteComplete (id : Nat) (st : Nvme)
  | committed (j : Nat)
  | journalEntryFreed (j : Nat)
  | writeSeqLabelRewrite (p : Nat)
  | labelUpdateComplete (p : Nat)
  | journalHeaderWriteDone (p : Nat)
  | atomicLogWriteDone (j : Nat)
  | journalRecordWriteDone (p blk : Nat)
  | remirrorCopyDone (p : Nat)
  | admProbe (w : Win) (v : Nat)
  | admClrHwm (w : Win) (v : Nat)
  | jnlClrHwm (w : Win) (v : Nat)
  | memberReadComplete (id : Nat) (st : Nvme) (blks : List TBlk)
  | lbtWriteDone (sop : Nat)
  | lbtRemovalWrite (p : Nat)
  | failMember (w : Win) (p slot : Nat)
  | replace (w : Win) (p slot : Nat)
  | startPass (w : Win) (p : Nat)
  | pausePass (w : Win) (p : Nat)
  | importPlate (w : Win) (p : Nat) (m : PlateMedia)
  | recover (w : Win) (p : Nat)
  | release (w : Win) (p : Nat)
  | rbdPauseAll (w : Win) (v : Nat)
  | passStart (p : Nat)
  | rebuildStepStart (p : Nat)
  | rebuildStepDone (sop : Nat)
  | progressRecord (p : Nat) (ok : Bool)
  | rebuildSliceEnd (p lenUs : Nat)
  | assembly (found : List FoundNs) (media : List PlateMedia) (vault : VaultRead)
  | proofCycleStart (p : Nat)
  | proofUnitStart (p : Nat)
  | proofUnitDone (sop : Nat)
  | suspectListWrite
  | proofProgressRecord (p : Nat)
  | proofSliceEnd (p lenUs : Nat)
  | proofDeadlinePassed (p : Nat)
  | startCycle (w : Win) (p : Nat)
  | proofPause (w : Win) (p : Nat)
  | proofResume (w : Win) (p : Nat)
  | clearSuspect (w : Win)
  | prfPauseAll (w : Win) (v : Nat)
  | destageStart
  | pmirTimeout (m : Nat)
  | pmirResume (node : Nat)
  | dirtyCeilRecompute
  | backedModeReturn
  | writeThroughEnd
  | check (w : Win) (ok1 ok2 : Bool) (rate : Nat)
  | brace (mv : Nat)
  | braceEnd (mv : Nat)
  | backupEntry (pf good : Bool)
  | vaultChunkDone (id : Nat) (good : Bool)
  | replayAsmWaitExpiry
  | lostWriteListWrite
  | cacheFlush (w : Win)
  | clearLost (w : Win) (vol : Nat)
  | bemSample (us cur : Nat) (v t : Option Nat)
  | bemHibernateWake (us cur v t : Nat)
  | restReading
  | bemDayBoundary
  | restWindowTimeout
  | learnCycleStart
  | rintMeasure
  | estimatorStoreWrite (ok : Bool)
  | batPresChange (present : Bool)
  | packInserted (ident : Option (List Byte)) (nonce : Nat)
  | authResponseRead (resp : Option (List Byte))
  | authRetry (ident : Option (List Byte)) (nonce : Nat)
  | authPeriodic (nonce : Nat)
  | learn (w : Win)
  | abortLearn (w : Win)
  | auth (w : Win) (nonce : Nat)
  | forget (w : Win)
  | ctxBindWrite (w : Win) (c v : Nat)
  | runSet (w : Win) (c : Nat)
  | runClear (w : Win) (c : Nat)
  | errClear (w : Win) (c : Nat)
  | retire (w : Win) (c : Nat)
  | irqAggTimer (c : Nat)
  | roundEnd (late : Nat)
  | slotSecondsTick
  | epochEnd
  | meteringRecordsWrite
  | mtrStep (w : Win)
  | mtrSlew (w : Win)
  | slewDone
  | mtrEnable (w : Win) (v : Nat)
  | mtrHeadWrite (w : Win) (v : Nat)
  | tscClrMax (w : Win) (v : Nat)
  | hostLinkUp (port speed width : Nat) (reversed : Bool)
  | hostLinkDown (port : Nat)
  | perstAssert (port : Nat)
  | perstDeassert (port : Nat)
  | hotReset (port : Nat)
  | functionLevelReset (port func : Nat)
  | flrEnd (port func : Nat)
  | busMasterEnableClear (port func : Nat)
  | busMasterEnableSet (port func : Nat) (cfg : FnCfg)
  | vfEnableSet (port numVfs : Nat) (ctl : VfCtl)
  | vfEnableClear (port : Nat)
  | d3hotEntry (port : Nat)
  | d0Return (port : Nat)
  | pmeTurnOff (port : Nat)
  | hostL1Entry (port : Nat) (sub : L1Sub)
  | msixUnmask (port func : Nat) (entry : Option Nat)
  | completionTimeout (tag : Nat)
  | slotPresenceDetected (p : Nat)
  | pwrGoodTimeout (p : Nat)
  | perstReleaseTimer (p : Nat)
  | driveLinkUp (p speed width : Nat)
  | driveLinkTimeout (p : Nat)
  | nvmeBringUpDone (p : Nat) (id : DriveId) (found : List FoundNs) (media : List PlateMedia)
  | attentionButton (p : Nat)
  | attentionWindowEnd (p : Nat)
  | presenceLost (p : Nat)
  | powerFault (p : Nat)
  | driveLinkDown (p : Nat)
  | nvmeCommandTimeout (p : Nat)
  | controllerResetDone (p : Nat)
  | smartPoll (p warn tempK : Nat) (changed : Option DriveId)
  | ssbFrame (chain : Nat) (ins : List Nat)
  | indicatorBlinkToggle
  | powerOff (w : Win) (p : Nat)
  | powerOn (w : Win) (p : Nat)
  | rescan (w : Win) (p : Nat) (id : DriveId) (found : List FoundNs)
  | driveL1Entry (p : Nat)
  | dramTrainingDone (c : Nat) (d : Option Dimm) (lanes : List (Nat × Nat))
  | dramInitDone (c : Nat)
  | scrubRead (c : Nat) (errs : List DevErr)
  | dramCorrectedBurst (c : Nat) (req : DramReq) (devs lo hi : List Nat)
  | dramUncorrectedBurst (c : Nat) (req : DramReq) (devs lo hi : List Nat)
  | freqChangeDone
  | dramRefresh (c : Nat) (waiting : Bool)
  | requestUrgent (c port : Nat)
  | rowIdleClose (c sub rank group bank : Nat)
  | diagRead (w : Win) (c hi data : Nat) (devs : List Nat) (syms : List (Nat × Nat))
  | dramRelease (w : Win) (c : Nat)
  | tlkTrainingDone (x speed width : Nat) (rev : Bool) (node link : Nat)
  | retrainTimeout (x : Nat)
  | flitReceived (x : Nat) (raw : List Byte)
  | nakReceived (x seq : Nat)
  | replayTimer (x : Nat)
  | ackTimer (x : Nat)
  | messageForward (x : Nat) (k : MsgKind) (m : Msg)
  | leaseRenewTimer
  | renew (m : Msg)
  | renewAck (m : Msg)
  | leaseExpired (owner : Nat)
  | leaseDrop (node : Nat)
  | reservationReportComplete (p : Nat) (holder : Bool)
  | preemptComplete (id : Nat) (md : PlateMedia)
  | preemptTimeout (id : Nat)
  | takeoverDone (id : Nat)
  | journalEntryMessage (m : Msg)
  | fenceNotice (m : Msg)
  | progress (m : Msg)
  | proof (m : Msg)
  | suspect (m : Msg)
  | attachOffer (m : Msg) (reach resvOk : Bool) (found : List FoundNs) (media : List PlateMedia)
  | attachAccept (m : Msg) (pool : Nat)
  | attachRefuse (m : Msg)
  | claim (m : Msg)
  | memberIoRead (m : Msg)
  | memberIoWrite (m : Msg)
  | memberIoCompletion (m : Msg) (tag : Nat)
  | memberIoTimeout (id : Nat)
  | remoteRouteTimeout (node : Nat)
  | mirrorWrite (m : Msg)
  | mirrorAck (m : Msg)
  | mirrorRelease (m : Msg)
  | mirrorLost (m : Msg)
  | timeSyncTimer (followers : List Nat)
  | sync (m : Msg)
  | latencyPingTimer (x : Nat)
  | ping (x : Nat) (m : Msg)
  | pong (x : Nat) (m : Msg)
  | trtAttach (w : Win) (p node : Nat)
  | trtDetach (w : Win) (p : Nat)
  | tlkL1Entry (x : Nat)
  | graverGo (w : Win) (c : Nat) (chain : Bool)
  | graverStop (w : Win) (c : Nat)
  | descriptorFetch (c : Nat) (ue : Option MoveErr)
  | graverBurst (h1 h2 : HostRd) (ue : Option MoveErr)
  | graverRequestPulse (src : Nat)
  | graverUnitEnd
  | graverHoldTimeout
  | interruptSourceEdge (src : Nat) (level : Bool)
  | interruptClaim (n : Nat) (gone : Bool)
  | eoi (w : Win) (n src : Nat)
  | softwareInterrupt (w : Win) (v : Nat)
  | icuPendClear (w : Win) (v : Nat)
  | moderationExpiry (src : Nat)
  | fallbackTimeout (src : Nat)
  | faultMessage
  | fenceReq (w : Win) (p : Nat)
  | faultInject (w : Win)
  | pgEvtSet (w : Win) (p v : Nat)
  | faultRearm (w : Win)
  | unfence (w : Win) (p : Nat) (found : List FoundNs) (media : List PlateMedia)
  | watchdogKick (w : Win)
  | watchdogTimeout
  | mainPowerGood
  | railSequenceStep
  | railRetry
  | startupPhaseEnd (f : PhaseFacts)
  | startupPhaseTimeout
  | coldReset
  | supplyReset (io : Bool)
  | pinReset
  | softwareReset (w : Win)
  | supplyWarning (io : Bool) (mv : Nat)
  | supplyWarningClear (io : Bool) (mv : Nat)
  | tempWarning (t : Int)
  | tempCritical (t : Int)
  | hclkLost (n : Nat) (common : Bool)
  | xtalStop
  | xtalResume
  | alarmFire (n : Nat)
  | opMinuteTick
  | idleEntry
  | nightEntry (quiet : Bool)
  | nightExit (busy : Bool)
  | nightReqWrite (w : Win) (v : Nat)
  | standbyEntry
  | standbyExit
  | pwrClrMin (w : Win) (v : Nat)
  | sessionIdleTimeout (port : Nat)
  | nonceLapse (port : Nat)
  | lockoutEnd (port : Nat)
  | keyProgram (w : Win) (key : Nat) (ok : Bool)
  | sketchbookWindowEnd (code : Nat)
  | sketchbookToken
  | sketchbookRecordWrite (ok : Bool)
  | sketchbookSnapshotTimer
  | snapshot (w : Win)
  | eraseAll (w : Win)
  | pgEnableWrite (w : Win) (p v : Nat)
  | blockReset (w : Win) (p : Nat)
  | clkReq (w : Win) (p v : Nat)
  | registerWrite (w : Win) (p off len v : Nat) (poisoned : Bool) (vr : VaultRead)
  | registerRead (w : Win) (p off len : Nat)
  | settingsRecordWrite
  | configRetryEnd (port : Nat)
  | linkLayerError (port func : Nat) (e : Aer)
  | waitForInterrupt (n : Nat)
  | shutdownComplete (p : Nat)
  | controllerFatalStatus (p : Nat)
  deriving DecidableEq, Repr

end Sys2Proof
end

