-- ==== Sys2Proof/Decode.lean ====
section
/-! DEFINITION. Reading a command from a word. The operation table gives its rows no bit fields: every command of this
block is an event at its boundary or a register access, not an encoded word. -/

namespace Sys2Proof

/-- The command that a word spells: none, because no row of the operation table has an encoding. -/
def decodeTableWord (_nbits _w : Nat) : Option Instr := none

end Sys2Proof
end

