-- ==== Sys2Proof/Machine/Maps.lean ====
section
/-! DEFINITION. Reading and writing sorted maps, and the byte-order helpers of R3 (little-endian). -/

namespace Sys2Proof.Machine

/-- The value at a key. -/
def smGet {α : Type} : SMap α → Nat → Option α
  | [], _ => none
  | (k, v) :: m, a => if a = k then some v else smGet m a

/-- Put a value at a key, keeping the keys rising. -/
def smSet {α : Type} : SMap α → Nat → α → SMap α
  | [], a, x => [(a, x)]
  | (k, v) :: m, a, x =>
    if a < k then (a, x) :: (k, v) :: m
    else if a = k then (a, x) :: m
    else (k, v) :: smSet m a x

/-- Remove a key. -/
def smDel {α : Type} : SMap α → Nat → SMap α
  | [], _ => []
  | (k, v) :: m, a => if a = k then smDel m a else (k, v) :: smDel m a

/-- The value at a key, or a default. -/
def smGetD {α : Type} (m : SMap α) (a : Nat) (d : α) : α := (smGet m a).getD d

/-- Change the value at a key, starting from a default. -/
def smUpd {α : Type} (m : SMap α) (a : Nat) (d : α) (f : α → α) : SMap α := smSet m a (f (smGetD m a d))

/-- The keys rise strictly. -/
def smSorted {α : Type} : SMap α → Bool
  | [] => true
  | (k, _) :: m => m.all (fun p => decide (k < p.1)) && smSorted m

/-- The smallest natural number, below a bound, that is no key of the map. -/
def smFree {α : Type} (m : SMap α) (bound : Nat) : Option Nat :=
  (List.range bound).find? (fun n => (smGet m n).isNone)

/-- Byte n of a run of bytes; zero past its end. -/
def byteAt (d : List Byte) (n : Nat) : Nat := ((d[n]?).getD 0).toNat

/-- The little-endian value of w bytes starting at offset o (R3). -/
def leAt (d : List Byte) (o w : Nat) : Nat :=
  (List.range w).foldr (fun i acc => byteAt d (o + i) + 256 * acc) 0

/-- The w little-endian bytes of a value (R3). -/
def leBytes (v w : Nat) : List Byte :=
  (List.range w).map (fun i => BitVec.ofNat 8 (v / 256 ^ i))

/-- A run of n zero bytes. -/
def zeros (n : Nat) : List Byte := List.replicate n 0

/-- Bytes o to o+n-1 of a run, filled with zeros past its end. -/
def slice (d : List Byte) (o n : Nat) : List Byte :=
  let x := (d.drop o).take n
  x ++ zeros (n - x.length)

/-- The bits [lo, lo+w-1] of a number. -/
def bitsOf (v lo w : Nat) : Nat := v / 2 ^ lo % 2 ^ w

/-- Strip trailing zero bytes: the canonical form of a block. -/
def trimBlock (b : Block) : Block :=
  (b.reverse.dropWhile (fun x => x = 0)).reverse

/-- Remove the first element that meets a condition, and say which it was. -/
def popFirst {α : Type} (p : α → Bool) : List α → Option (α × List α)
  | [] => none
  | x :: xs => if p x then some (x, xs) else (popFirst p xs).map (fun r => (r.1, x :: r.2))

/-- The mask of a list of bits. -/
def maskOf (l : List Nat) : Nat := l.foldl (fun a m => a ||| 2 ^ m) 0

end Sys2Proof.Machine
end

