-- ==== Sys2Proof/Machine/Galois.lean ====
section
/-! DEFINITION. Arithmetic in GF(2^8) with the reducing polynomial 0x11D (R16), the syndromes P and Q
(R17, R18), reconstruction (R19, Table STRIPE-2), the locator (R20, Table STRIPE-3), and the two cyclic
redundancy codes: CRC-32C (R30) and the flit CRC (R322). -/

namespace Sys2Proof.Machine

/-- a times the generator g = 0x02 (R16). -/
def xtime (a : Byte) : Byte := if a.msb then (a <<< 1) ^^^ 0x1D else a <<< 1

/-- a times g^n. -/
def gpow : Nat → Byte → Byte
  | 0, a => a
  | n + 1, a => gpow n (xtime a)

/-- exp_t[n] = g^n (R16). -/
def expT (n : Nat) : Byte := gpow (n % 255) 1

/-- The first n from a start, within a number of tries, whose power of g (given as the running
element) is a. -/
def logFrom : Nat → Nat → Byte → Byte → Nat
  | 0, n, _, _ => n
  | k + 1, n, x, a => if x = a then n else logFrom k (n + 1) (xtime x) a

/-- log_t[a], the n below 255 with g^n = a, for a non-zero element (R16). -/
def logT (a : Byte) : Nat := logFrom 255 0 1 a

/-- The product in the field (R16). -/
def gfMul (a b : Byte) : Byte :=
  if a = 0 ∨ b = 0 then 0 else gpow ((logT a + logT b) % 255) 1

/-- The inverse of a non-zero element (R16). -/
def gfInv (a : Byte) : Byte := gpow ((255 - logT a) % 255) 1

/-- a times g^(−x) (R19). -/
def gdiv (x : Nat) (a : Byte) : Byte := gpow ((255 - x % 255) % 255) a

/-- Byte-by-byte combination of two runs, a missing byte counting as zero. -/
def zipBytes (f : Byte → Byte → Byte) : Block → Block → Block
  | [], bs => bs.map (f 0)
  | a :: as, bs => f a (bs.headD 0) :: zipBytes f as bs.tail

/-- Exclusive or of two blocks. -/
def xorBlk (a b : Block) : Block := zipBytes (· ^^^ ·) a b

/-- A block times g^n. -/
def mulBlk (n : Nat) (a : Block) : Block := a.map (gpow n)

/-- P of a list of data blocks, in data index order (R17). -/
def parityP (ds : List Block) : Block := ds.foldr xorBlk []

/-- Q of a list of data blocks from a data index on (R17). -/
def parityQFrom : Nat → List Block → Block
  | _, [] => []
  | i, d :: ds => xorBlk (mulBlk i d) (parityQFrom (i + 1) ds)

/-- Q of a list of data blocks, in data index order (R17). -/
def parityQ (ds : List Block) : Block := parityQFrom 0 ds

/-- The new P of read-modify-write at one written position (R64). -/
def deltaP (p old new : Block) : Block := xorBlk p (xorBlk old new)

/-- The new Q of read-modify-write at written position i (R64). -/
def deltaQ (i : Nat) (q old new : Block) : Block := xorBlk q (mulBlk i (xorBlk old new))

/-- Two missing data strips x < y from a = P ⊕ P_x and b = Q ⊕ Q_x, byte by byte (Table STRIPE-2). -/
def solveTwo (x y : Nat) (a b : Byte) : Byte × Byte :=
  let inv := gfInv (gpow (y - x) 1 ^^^ 1)
  let cA := gfMul (gpow (y - x) 1) inv
  let cB := gfMul (gdiv x 1) inv
  let dx := gfMul cA a ^^^ gfMul cB b
  (dx, a ^^^ dx)

/-- The blocks of one block offset of a stripe: position p of 0 to k+1, `none` where erased. -/
abbrev Column := List (Option Block)

/-- The data blocks of a column with the missing ones as zero (R19). -/
def colData (k : Nat) (cl : Column) : List Block :=
  (List.range k).map (fun p => ((cl[p]?).join).getD [])

/-- The erased positions of a column. -/
def colErased (k : Nat) (cl : Column) : List Nat :=
  (List.range (k + 2)).filter (fun p => ((cl[p]?).join).isNone)

/-- Rebuild the data of a column with at most two erased positions (Table STRIPE-2): the k data blocks.
More than two erasures, or a case that needs a missing syndrome, has no result. -/
def recoverData (k : Nat) (cl : Column) : Option (List Block) :=
  let ds := colData k cl
  let er := colErased k cl
  let ed := er.filter (· < k)
  let p := (cl[k]?).join
  let q := (cl[k + 1]?).join
  if er.length > 2 then none
  else match ed, p, q with
    | [], _, _ => some ds
    | [x], some pb, _ => some (ds.set x (xorBlk pb (parityP ds)))
    | [x], none, some qb => some (ds.set x ((xorBlk qb (parityQ ds)).map (gdiv x)))
    | [x, y], some pb, some qb =>
      let a := xorBlk pb (parityP ds)
      let b := xorBlk qb (parityQ ds)
      let n := max a.length b.length
      let r := (List.range n).map (fun o => solveTwo x y ((a[o]?).getD 0) ((b[o]?).getD 0))
      some ((ds.set x (r.map Prod.fst)).set y (r.map Prod.snd))
    | _, _, _ => none

/-- Rebuild a whole column: data, then P and Q recomputed (Table STRIPE-2). -/
def recoverCol (k : Nat) (cl : Column) : Option (List Block) :=
  (recoverData k cl).map (fun ds => ds ++ [parityP ds, parityQ ds])

/-- The per-byte locator verdicts (Table STRIPE-3). -/
inductive LocVerdict where
  | consistent | qMember | pMember | dataMember (z : Nat) | noSingle
  deriving DecidableEq, Repr

/-- The verdict of the locator for one byte offset from ΔP and ΔQ (R20, Table STRIPE-3). -/
def locate (k : Nat) (dp dq : Byte) : LocVerdict :=
  if dp = 0 ∧ dq = 0 then .consistent
  else if dp = 0 then .qMember
  else if dq = 0 then .pMember
  else
    let z := (logT dq + 255 - logT dp) % 255
    if z < k then .dataMember z else .noSingle

/-- One bit step of a reflected CRC. -/
def crcBit (poly c : BitVec 32) : BitVec 32 := if c.getLsbD 0 then (c >>> 1) ^^^ poly else c >>> 1

/-- One byte of a reflected CRC. -/
def crcByte (poly c : BitVec 32) (b : Byte) : BitVec 32 :=
  let x := c ^^^ b.setWidth 32
  (List.range 8).foldl (fun r _ => crcBit poly r) x

/-- A reflected CRC with initial value and final XOR 0xFFFFFFFF. -/
def crcRef (poly : BitVec 32) (d : List Byte) : Nat :=
  (d.foldl (crcByte poly) 0xFFFFFFFF ^^^ 0xFFFFFFFF).toNat

/-- CRC-32C: polynomial 0x1EDC6F41 processed bit-reflected (R30). -/
def crc32c (d : List Byte) : Nat := crcRef 0x82F63B78 d

/-- DRIVE_KEY: the CRC-32C of all 20 bytes of the serial number field, as the drive gives them (Table STRIPE-11). -/
def driveKey (serial : List Byte) : Nat := crc32c (slice serial 0 20)

/-- The flit CRC: polynomial 0x04C11DB7 processed bit-reflected (R322). -/
def crc32 (d : List Byte) : Nat := crcRef 0xEDB88320 d

/-- Append the CRC-32C of a structure's bytes in the four bytes after them. -/
def withCrc (d : List Byte) : List Byte := d ++ leBytes (crc32c d) 4

/-- The CRC-32C at offset o of a record covers the bytes before it. -/
def crcOk (b : List Byte) (o : Nat) : Bool := decide (leAt b o 4 = crc32c (slice b 0 o))

end Sys2Proof.Machine
end

