-- ==== Sys2Proof/Config.lean ====
section
/-! DEFINITION. What the spec leaves open: free values. Each is an opaque constant, so no proof can see what it is, and a claim
holds whatever it is. -/

namespace Sys2Proof.Config

/-- The CLASS that a fault message of a kind carries where the spec names none for the kind (notes/assumptions/50.md). -/
opaque faultClass : Nat → BitVec 4

/-- DECI_C of a thermistor code where the temperature of R171 does not fit the signed 16 bits, by code, NOM_OHM and BETA. -/
opaque decicOut : Nat → Nat → Nat → BitVec 16

/-- The NVMe status code of a drive's error that Table DRIVE-3 does not name, at its n-th use. -/
opaque nvmeStatus : Nat → BitVec 16

/-- A byte of SRAM or DRAM whose place in the device's own structures the spec does not lay out, at its n-th use. -/
opaque workByte : Nat → BitVec 8

/-- The training-state code that a host or drive port's LTSSM field shows, at its n-th read. -/
opaque ltssm : Nat → BitVec 6

/-- The program counter of a management core, at its n-th read. -/
opaque corePc : Nat → BitVec 64

/-- The reset code LAST_RESET shows after an exit from OFF_AON, to which Table POWER-4 gives none, at its n-th use (notes/assumptions/109.md). -/
opaque offAonReset : Nat → BitVec 3

/-- The volume and LBA of a block of a plate whose catalogue no node here can read, by PLATE_ID, stripe and linear data block: R160 lists such
blocks, and R163 derives their place through the catalogue (notes/assumptions/136.md). -/
opaque lostPlace : Nat → Nat → Nat → BitVec 14 × BitVec 48

/-- The bits of a word of a function's configuration space that the spec does not fix, by port, function and offset, at its n-th read
(notes/assumptions/144.md). -/
opaque cfgBits : Nat → Nat → Nat → Nat → BitVec 32

/-- What a burst does in which more than two devices or half-devices err, by the symbols in error of each: nothing found, or corrected, or
not, with the place and the symbols shown (R308 says nothing of it; notes/assumptions/145.md). -/
opaque eccBeyond : List (Nat × Nat) → Fin 3 × BitVec 4 × BitVec 8

/-- Whether the first label update of a member on another node whose label copies could not be read overwrites copy B rather than A, by PLATE_ID and
member: R37 chooses by what they hold (notes/assumptions/155.md). -/
opaque unseenCopyB : Nat → Nat → Bool

/-- The page of device memory that the PRP entry of a command's block names: the spec says staging SRAM or DRAM and no more (R289). -/
opaque prpPage : Nat → Nat → BitVec 52

end Sys2Proof.Config
end

