-- ==== Sys2Proof/Machine/RegMap.lean ====
section
/-! DEFINITION. The register map: every field of every register table of the spec, under the name the
spec gives it (page, register, field), with its page, offset, lowest bit, width and reset value, and for
each kind of page the list of its fields with their access codes and the range of legal values (R443).
Registers shown through a selector have one bank per selector value. -/

namespace Sys2Proof.Machine

/-- Access codes of Table PAGE-2. -/
inductive Acc where
  | ro | rw | rw1c | w1s | wo | rwl | rwi
  deriving DecidableEq, Repr

/-- One field: its page, register offset, lowest bit, width, reset value and bank (0 where the
register is not shown through a selector). -/
structure FRef where
  page  : Nat
  off   : Nat
  lo    : Nat
  width : Nat
  reset : Nat
  bank  : Nat
  deriving DecidableEq, Repr

/-- A field of a page with its access code and the range of values a write may place in it. -/
structure RegRow where
  f   : FRef
  acc : Acc
  min : Nat
  max : Nat
  deriving DecidableEq, Repr

/-- Where the field's value is kept. -/
def FRef.key (f : FRef) : Nat := f.bank * 2 ^ 31 + f.page * 2 ^ 17 + f.off * 32 + f.lo

/-- The reset OCV table, cell mV at each 10 % (Table ENERGY-4). -/
def ocvReset (i : Nat) : Nat :=
  ([3000, 3450, 3550, 3620, 3680, 3740, 3800, 3870, 3950, 4040, 4150][i]?).getD 0

/-- Reset SENSE of an interrupt source: 2 for sources 1 to 31 and 240 to 255, else 0 (Table IRQ-3). -/
def senseReset (n : Nat) : Nat := if (1 ≤ n ∧ n ≤ 31) ∨ (240 ≤ n ∧ n ≤ 255) then 2 else 0

/-- The default reaction of a fault kind (Table FAULT-3). Kind 0x11 has the watchdog takeover of R385
in place of a numbered reaction; its field reads 0 (assumption 7). A kind not in the table has reaction 3 (R377). -/
def kindReact (k : Nat) : Nat :=
  if k ∈ [0x02, 0x03, 0x04, 0x05, 0x06, 0x09, 0x0C, 0x12, 0x13, 0x16, 0x17, 0x18] then 3
  else if k = 0x15 then 2
  else if k ∈ [0x08, 0x0B, 0x0D, 0x0E, 0x0F, 0x10, 0x14, 0x19] then 1
  else if k ∈ [0x01, 0x07, 0x0A, 0x11] then 0
  else 3

/-- The least reaction an installer may choose for a fault kind: its default (Table FAULT-3). -/
def kindMin (k : Nat) : Nat := kindReact k

/-- INSTANCE of a page's PG_ID (Table PAGE-5, R446). VF status pages are numbered from 0x2000 here. -/
def pageInstance (p : Nat) : Nat :=
  if 0x1000 ≤ p ∧ p < 0x2000 then p % 256
  else if 0x10 ≤ p ∧ p < 0x12 then p - 0x10
  else if 0x20 ≤ p ∧ p < 0x24 then p - 0x20
  else if 0x30 ≤ p ∧ p < 0x38 then p - 0x30
  else if 0x40 ≤ p ∧ p < 0x80 then p - 0x40
  else if 0x80 ≤ p ∧ p < 0xC0 then p - 0x80
  else if 0xC0 ≤ p ∧ p < 0xC4 then p - 0xC0
  else if 0xC8 ≤ p ∧ p < 0xD0 then p - 0xC8
  else if 0xE0 ≤ p ∧ p < 0xF0 then p - 0xE0
  else if 0x110 ≤ p ∧ p < 0x114 then p - 0x110
  else 0

/-- TYPE of a page's PG_ID: the index of the block's first page (Table PAGE-5, R446). -/
def pageType (p : Nat) : Nat :=
  if 0x2000 ≤ p then 0x2000
  else if 0x1000 ≤ p then 0x1000 + (p - 0x1000) / 256
  else p - pageInstance p

/-- The reset value of bit n of PG_RIGHTS (Table PAGE-4). -/
def rightsReset (p n : Nat) : Nat :=
  let v := if p ∈ [2, 3, 5, 0xEE, 0xEF] then 0x3D
    else if (0xE0 ≤ p ∧ p < 0xEE) ∨ (0x110 ≤ p ∧ p < 0x114) then 0x35
    else 0x3F
  v / 2 ^ n % 2


namespace Reg

/-- Word w of a channel's descriptor image CH_DESC (Table MOVER-7). -/
def CH_DESC (i w : Nat) : FRef := ⟨0xE0 + i, 0x80 + 4 * w, 0, 32, 0, 0⟩
/-- Word w of ROLE_KEY_DATA (Table ROLE-9). -/
def ROLE_KEY_DATA (w : Nat) : FRef := ⟨3, 0x80 + 4 * w, 0, 32, 0, 0⟩

/-! Table WRITE-9. -/
def ADM_CFG_STREAM_EN : FRef := ⟨0x2b, 0x40, 0, 1, 1, 0⟩
def ADM_CFG_STAGE_READ_EN : FRef := ⟨0x2b, 0x40, 1, 1, 1, 0⟩
def ADM_STAT_FROZEN : FRef := ⟨0x2b, 0x44, 0, 1, 0, 0⟩
def ADM_STAT_WAIT_FULL : FRef := ⟨0x2b, 0x44, 1, 1, 0, 0⟩
def ADM_LOCKS_HELD : FRef := ⟨0x2b, 0x48, 0, 19, 0, 0⟩
def ADM_LOCK_HWM_HWM : FRef := ⟨0x2b, 0x4c, 0, 19, 0, 0⟩
def ADM_WAIT_ITEMS : FRef := ⟨0x2b, 0x50, 0, 15, 0, 0⟩
def ADM_WAIT_HWM : FRef := ⟨0x2b, 0x50, 16, 15, 0, 0⟩
def ADM_CLR_CLR_HWM : FRef := ⟨0x2b, 0x54, 0, 1, 0, 0⟩
def ADM_DECIDED_LO_COUNT : FRef := ⟨0x2b, 0x58, 0, 32, 0, 0⟩
def ADM_DECIDED_HI_COUNT : FRef := ⟨0x2b, 0x5c, 0, 32, 0, 0⟩
def ADM_QUEUED_COUNT : FRef := ⟨0x2b, 0x60, 0, 32, 0, 0⟩
def ADM_REFUSED_COUNT : FRef := ⟨0x2b, 0x64, 0, 32, 0, 0⟩
def ADM_BUSY_COUNT : FRef := ⟨0x2b, 0x68, 0, 32, 0, 0⟩
def ADM_PROBE_LO_SN_LO : FRef := ⟨0x2b, 0x6c, 0, 32, 0, 0⟩
def ADM_PROBE_HI_SN_HI : FRef := ⟨0x2b, 0x70, 0, 5, 0, 0⟩
def ADM_PROBE_HI_PLATE : FRef := ⟨0x2b, 0x70, 8, 6, 0, 0⟩
def ADM_PROBE_RES_LO_ENTRY_LO : FRef := ⟨0x2b, 0x74, 0, 32, 0, 0⟩
def ADM_PROBE_RES_HI_ENTRY_HI : FRef := ⟨0x2b, 0x78, 0, 32, 0, 0⟩

/-! Table WRITE-10. -/
def JNL_STAT_UNBACKED : FRef := ⟨0x2a, 0x40, 0, 1, 0, 0⟩
def JNL_STAT_STALL : FRef := ⟨0x2a, 0x40, 1, 1, 0, 0⟩
def JNL_STAT_REMIRROR : FRef := ⟨0x2a, 0x40, 2, 1, 0, 0⟩
def JNL_OCC_USED : FRef := ⟨0x2a, 0x44, 0, 16, 0, 0⟩
def JNL_OCC_HWM : FRef := ⟨0x2a, 0x44, 16, 16, 0, 0⟩
def JNL_CNT_A_OPEN : FRef := ⟨0x2a, 0x48, 0, 16, 0, 0⟩
def JNL_CNT_A_STAGED : FRef := ⟨0x2a, 0x48, 16, 16, 0, 0⟩
def JNL_CNT_B_PARITY : FRef := ⟨0x2a, 0x4c, 0, 16, 0, 0⟩
def JNL_CNT_B_COMMITTED : FRef := ⟨0x2a, 0x4c, 16, 16, 0, 0⟩
def JNL_PLATE_SEL_PLATE : FRef := ⟨0x2a, 0x50, 0, 6, 0, 0⟩
def JNL_MEMBERS_MEMBER_A (b : Nat) : FRef := ⟨0x2a, 0x54, 0, 7, 0, b⟩
def JNL_MEMBERS_A_VALID (b : Nat) : FRef := ⟨0x2a, 0x54, 7, 1, 0, b⟩
def JNL_MEMBERS_MEMBER_B (b : Nat) : FRef := ⟨0x2a, 0x54, 8, 7, 0, b⟩
def JNL_MEMBERS_B_VALID (b : Nat) : FRef := ⟨0x2a, 0x54, 15, 1, 0, b⟩
def JNL_MEMBERS_COPY_PCT (b : Nat) : FRef := ⟨0x2a, 0x54, 16, 7, 0, b⟩
def JNL_LOG_USED_BLOCKS (b : Nat) : FRef := ⟨0x2a, 0x58, 0, 9, 0, b⟩
def JNL_OLDEST_AGE_US : FRef := ⟨0x2a, 0x5c, 0, 32, 0, 0⟩
def JNL_CLR_CLR_HWM : FRef := ⟨0x2a, 0x60, 0, 1, 0, 0⟩

/-! Table WRITE-11. -/
def BUR_CFG_IDLE_OFF (i : Nat) : FRef := ⟨(0x30 + i), 0x40, 0, 1, 1, 0⟩
def BUR_CFG_MAINT_MIN (i : Nat) : FRef := ⟨(0x30 + i), 0x40, 8, 8, 32, 0⟩
def BUR_STAT_JOBS (i : Nat) : FRef := ⟨(0x30 + i), 0x44, 0, 5, 0, 0⟩
def BUR_STAT_POWERED (i : Nat) : FRef := ⟨(0x30 + i), 0x44, 8, 1, 1, 0⟩
def BUR_STAT_KAT (i : Nat) : FRef := ⟨(0x30 + i), 0x44, 9, 2, 0, 0⟩
def BUR_KAT_START (i : Nat) : FRef := ⟨(0x30 + i), 0x48, 0, 1, 0, 0⟩
def BUR_BYTES_LO_COUNT (i : Nat) : FRef := ⟨(0x30 + i), 0x4c, 0, 32, 0, 0⟩
def BUR_BYTES_HI_COUNT (i : Nat) : FRef := ⟨(0x30 + i), 0x50, 0, 32, 0, 0⟩
def BUR_MAINT_LO_COUNT (i : Nat) : FRef := ⟨(0x30 + i), 0x54, 0, 32, 0, 0⟩
def BUR_MAINT_HI_COUNT (i : Nat) : FRef := ⟨(0x30 + i), 0x58, 0, 32, 0, 0⟩
def BUR_SELFCHK_COUNT (i : Nat) : FRef := ⟨(0x30 + i), 0x5c, 0, 32, 0, 0⟩

/-! Table REBUILD-8. -/
def PLT_CFG_AUTO_REBUILD (i : Nat) : FRef := ⟨(0x40 + i), 0x40, 0, 1, 1, 0⟩
def PLT_CFG_AUTO_RETURN (i : Nat) : FRef := ⟨(0x40 + i), 0x40, 1, 1, 1, 0⟩
def PLT_CFG_READ_REPAIR (i : Nat) : FRef := ⟨(0x40 + i), 0x40, 2, 1, 1, 0⟩
def PLT_CFG_AUTO_COPYBACK (i : Nat) : FRef := ⟨(0x40 + i), 0x40, 3, 1, 1, 0⟩
def PLT_CFG_READ_ERR_LIMIT (i : Nat) : FRef := ⟨(0x40 + i), 0x40, 8, 8, 64, 0⟩
def PLT_CFG_FLOOR_PCT (i : Nat) : FRef := ⟨(0x40 + i), 0x40, 16, 7, 5, 0⟩
def PLT_CFG_CEIL_PCT (i : Nat) : FRef := ⟨(0x40 + i), 0x40, 24, 7, 90, 0⟩
def PLT_BW_MEMBER_BW (i : Nat) : FRef := ⟨(0x40 + i), 0x44, 0, 16, 300, 0⟩
def PLT_STAT_STATE (i : Nat) : FRef := ⟨(0x40 + i), 0x48, 0, 4, 0, 0⟩
def PLT_STAT_DEFINED (i : Nat) : FRef := ⟨(0x40 + i), 0x48, 4, 1, 0, 0⟩
def PLT_STAT_U (i : Nat) : FRef := ⟨(0x40 + i), 0x48, 5, 3, 0, 0⟩
def PLT_STAT_PASS (i : Nat) : FRef := ⟨(0x40 + i), 0x48, 8, 1, 0, 0⟩
def PLT_STAT_FAILED_LATCH (i : Nat) : FRef := ⟨(0x40 + i), 0x48, 9, 1, 0, 0⟩
def PLT_STAT_RANGES (i : Nat) : FRef := ⟨(0x40 + i), 0x48, 10, 2, 0, 0⟩
def PLT_STAT_ONLINE (i : Nat) : FRef := ⟨(0x40 + i), 0x48, 16, 8, 0, 0⟩
def PLT_GEOM_N (i : Nat) : FRef := ⟨(0x40 + i), 0x4c, 0, 8, 0, 0⟩
def PLT_GEOM_W (i : Nat) : FRef := ⟨(0x40 + i), 0x4c, 8, 8, 0, 0⟩
def PLT_GEOM_L (i : Nat) : FRef := ⟨(0x40 + i), 0x4c, 16, 8, 0, 0⟩
def PLT_GEOM_STRIP_SHIFT (i : Nat) : FRef := ⟨(0x40 + i), 0x4c, 24, 5, 0, 0⟩
def PLT_ROWS_ROWS (i : Nat) : FRef := ⟨(0x40 + i), 0x50, 0, 32, 0, 0⟩
def PLT_CURSOR_LO_SN_LO (i : Nat) : FRef := ⟨(0x40 + i), 0x54, 0, 32, 0, 0⟩
def PLT_CURSOR_HI_SN_HI (i : Nat) : FRef := ⟨(0x40 + i), 0x58, 0, 5, 0, 0⟩
def PLT_CURSOR_HI_PCT (i : Nat) : FRef := ⟨(0x40 + i), 0x58, 16, 7, 0, 0⟩
def PLT_CKPT_LO_SN_LO (i : Nat) : FRef := ⟨(0x40 + i), 0x5c, 0, 32, 0, 0⟩
def PLT_CKPT_HI_SN_HI (i : Nat) : FRef := ⟨(0x40 + i), 0x60, 0, 5, 0, 0⟩
def PLT_LBT_COUNT (i : Nat) : FRef := ⟨(0x40 + i), 0x64, 0, 17, 0, 0⟩
def PLT_LBT_FULL (i : Nat) : FRef := ⟨(0x40 + i), 0x64, 31, 1, 0, 0⟩
def PLT_REPAIRED_COUNT (i : Nat) : FRef := ⟨(0x40 + i), 0x68, 0, 32, 0, 0⟩
def PLT_RECON_COUNT (i : Nat) : FRef := ⟨(0x40 + i), 0x6c, 0, 32, 0, 0⟩
def PLT_TAGERR_COUNT (i : Nat) : FRef := ⟨(0x40 + i), 0x70, 0, 32, 0, 0⟩
def PLT_BUDGET_BYTES (i : Nat) : FRef := ⟨(0x40 + i), 0x74, 0, 32, 0, 0⟩
def PLT_MSEL_MEMBER (i : Nat) : FRef := ⟨(0x40 + i), 0x78, 0, 7, 0, 0⟩
def PLT_MINFO_STATE (i : Nat) (b : Nat) : FRef := ⟨(0x40 + i), 0x7c, 0, 4, 0, b⟩
def PLT_MINFO_HOSTING (i : Nat) (b : Nat) : FRef := ⟨(0x40 + i), 0x7c, 4, 1, 0, b⟩
def PLT_MINFO_PORT (i : Nat) (b : Nat) : FRef := ⟨(0x40 + i), 0x7c, 8, 6, 0, b⟩
def PLT_MINFO_FAIL_SEQ (i : Nat) (b : Nat) : FRef := ⟨(0x40 + i), 0x7c, 16, 16, 0, b⟩
def PLT_MERR_COUNT (i : Nat) (b : Nat) : FRef := ⟨(0x40 + i), 0x80, 0, 16, 0, b⟩
def PLT_CMD_OP (i : Nat) : FRef := ⟨(0x40 + i), 0x84, 0, 4, 0, 0⟩
def PLT_CMD_MEMBER (i : Nat) : FRef := ⟨(0x40 + i), 0x84, 4, 7, 0, 0⟩
def PLT_CMD_GO (i : Nat) : FRef := ⟨(0x40 + i), 0x84, 31, 1, 0, 0⟩
def PLT_CMD_PORT_PORT (i : Nat) : FRef := ⟨(0x40 + i), 0x88, 0, 6, 0, 0⟩
def PLT_CMD_NSID_NSID (i : Nat) : FRef := ⟨(0x40 + i), 0x8c, 0, 32, 0, 0⟩
def PLT_CMD_RES_STATUS (i : Nat) : FRef := ⟨(0x40 + i), 0x90, 0, 8, 0, 0⟩
def PLT_CMD_RES_DONE (i : Nat) : FRef := ⟨(0x40 + i), 0x90, 8, 1, 0, 0⟩

/-! Table REBUILD-9. -/
def RBD_CFG_SLICE_US : FRef := ⟨0x39, 0x40, 0, 16, 1000, 0⟩
def RBD_CFG_STEPS_MAX : FRef := ⟨0x39, 0x40, 16, 8, 64, 0⟩
def RBD_CKPT_CKPT_STRIPES : FRef := ⟨0x39, 0x44, 0, 24, 65536, 0⟩
def RBD_CKPT_CKPT_S : FRef := ⟨0x39, 0x44, 24, 8, 10, 0⟩
def RBD_CTL_PAUSE_ALL : FRef := ⟨0x39, 0x48, 0, 1, 0, 0⟩
def RBD_ACTIVE_LO_PLATES : FRef := ⟨0x39, 0x4c, 0, 32, 0, 0⟩
def RBD_ACTIVE_HI_PLATES : FRef := ⟨0x39, 0x50, 0, 32, 0, 0⟩
def RBD_STEPS_COUNT : FRef := ⟨0x39, 0x54, 0, 8, 0, 0⟩
def RBD_LATE_COUNT : FRef := ⟨0x39, 0x58, 0, 32, 0, 0⟩
def RBD_BYTES_LO_COUNT : FRef := ⟨0x39, 0x5c, 0, 32, 0, 0⟩
def RBD_BYTES_HI_COUNT : FRef := ⟨0x39, 0x60, 0, 32, 0, 0⟩

/-! Table PROOF-5. -/
def PRF_CFG_AUTO : FRef := ⟨0x38, 0x40, 0, 1, 1, 0⟩
def PRF_CFG_REPAIR : FRef := ⟨0x38, 0x40, 1, 1, 1, 0⟩
def PRF_CFG_PERIOD_DAYS : FRef := ⟨0x38, 0x40, 8, 8, 14, 0⟩
def PRF_CFG_IDLE_PCT : FRef := ⟨0x38, 0x40, 16, 7, 20, 0⟩
def PRF_SLICE_SLICE_US : FRef := ⟨0x38, 0x44, 0, 16, 1000, 0⟩
def PRF_SLICE_UNITS_MAX : FRef := ⟨0x38, 0x44, 16, 8, 16, 0⟩
def PRF_CTL_PAUSE_ALL : FRef := ⟨0x38, 0x48, 0, 1, 0, 0⟩
def PRF_ACTIVE_LO_PLATES : FRef := ⟨0x38, 0x4c, 0, 32, 0, 0⟩
def PRF_ACTIVE_HI_PLATES : FRef := ⟨0x38, 0x50, 0, 32, 0, 0⟩
def PRF_UNITS_COUNT : FRef := ⟨0x38, 0x54, 0, 8, 0, 0⟩
def PRF_PSEL_PLATE : FRef := ⟨0x38, 0x58, 0, 6, 0, 0⟩
def PRF_PCUR_LO_SN_LO (b : Nat) : FRef := ⟨0x38, 0x5c, 0, 32, 0, b⟩
def PRF_PCUR_HI_SN_HI (b : Nat) : FRef := ⟨0x38, 0x60, 0, 5, 0, b⟩
def PRF_PCUR_HI_PCT (b : Nat) : FRef := ⟨0x38, 0x60, 16, 7, 0, b⟩
def PRF_PSTAT_RUNNING (b : Nat) : FRef := ⟨0x38, 0x64, 0, 1, 0, b⟩
def PRF_PSTAT_SUSPENDED (b : Nat) : FRef := ⟨0x38, 0x64, 1, 1, 0, b⟩
def PRF_PSTAT_OVERDUE (b : Nat) : FRef := ⟨0x38, 0x64, 2, 1, 0, b⟩
def PRF_PSTAT_AGE_H (b : Nat) : FRef := ⟨0x38, 0x64, 16, 16, 0, b⟩
def PRF_PLAST_OP_MIN (b : Nat) : FRef := ⟨0x38, 0x68, 0, 32, 0, b⟩
def PRF_CHECKED_LO_COUNT : FRef := ⟨0x38, 0x6c, 0, 32, 0, 0⟩
def PRF_CHECKED_HI_COUNT : FRef := ⟨0x38, 0x70, 0, 32, 0, 0⟩
def PRF_REPAIRS_COUNT : FRef := ⟨0x38, 0x74, 0, 32, 0, 0⟩
def PRF_SUSP_COUNT : FRef := ⟨0x38, 0x78, 0, 13, 0, 0⟩
def PRF_SUSP_FULL : FRef := ⟨0x38, 0x78, 31, 1, 0, 0⟩
def PRF_LATE_COUNT : FRef := ⟨0x38, 0x7c, 0, 32, 0, 0⟩
def PRF_SSEL_INDEX : FRef := ⟨0x38, 0x80, 0, 12, 0, 0⟩
def PRF_SENT_SN_LO_SN_LO (b : Nat) : FRef := ⟨0x38, 0x84, 0, 32, 0, b⟩
def PRF_SENT_SN_HI_SN_HI (b : Nat) : FRef := ⟨0x38, 0x88, 0, 5, 0, b⟩
def PRF_SENT_SN_HI_PLATE (b : Nat) : FRef := ⟨0x38, 0x88, 8, 6, 0, b⟩
def PRF_SENT_SN_HI_CAUSE (b : Nat) : FRef := ⟨0x38, 0x88, 16, 3, 0, b⟩
def PRF_SENT_SN_HI_VALID (b : Nat) : FRef := ⟨0x38, 0x88, 31, 1, 0, b⟩
def PRF_SENT_BLK_BLK_FIRST (b : Nat) : FRef := ⟨0x38, 0x8c, 0, 8, 0, b⟩
def PRF_SENT_BLK_BLK_LAST (b : Nat) : FRef := ⟨0x38, 0x8c, 8, 8, 0, b⟩
def PRF_SENT_TIME_OP_MIN (b : Nat) : FRef := ⟨0x38, 0x90, 0, 32, 0, b⟩
def PRF_CMD_OP : FRef := ⟨0x38, 0x94, 0, 4, 0, 0⟩
def PRF_CMD_PLATE : FRef := ⟨0x38, 0x94, 4, 6, 0, 0⟩
def PRF_CMD_GO : FRef := ⟨0x38, 0x94, 31, 1, 0, 0⟩
def PRF_CMD_RES_STATUS : FRef := ⟨0x38, 0x98, 0, 8, 0, 0⟩
def PRF_CMD_RES_DONE : FRef := ⟨0x38, 0x98, 8, 1, 0, 0⟩

/-! Table CACHE-10. -/
def CCH_CFG_CACHE_EN : FRef := ⟨0x28, 0x40, 0, 1, 1, 0⟩
def CCH_CFG_PARTNER_EN : FRef := ⟨0x28, 0x40, 1, 1, 1, 0⟩
def CCH_CFG_FORCE_UNBACKED : FRef := ⟨0x28, 0x40, 2, 1, 0, 0⟩
def CCH_CFG_HIGH_PCT : FRef := ⟨0x28, 0x40, 8, 8, 80, 0⟩
def CCH_CFG_AGE_S : FRef := ⟨0x28, 0x40, 16, 8, 30, 0⟩
def CCH_CFG_DESTAGE_MAX : FRef := ⟨0x28, 0x40, 24, 8, 64, 0⟩
def CCH_GEOM_CACHE_GIB : FRef := ⟨0x28, 0x44, 0, 8, 0, 0⟩
def CCH_GEOM_PPOOL_GIB : FRef := ⟨0x28, 0x44, 8, 8, 0, 0⟩
def CCH_TIME_TIME_MS : FRef := ⟨0x28, 0x48, 0, 16, 10000, 0⟩
def CCH_HYST_MIB : FRef := ⟨0x28, 0x4c, 0, 16, 256, 0⟩
def CCH_HYST_HOLD_S : FRef := ⟨0x28, 0x4c, 16, 8, 10, 0⟩
def CCH_DIRTY_CEIL_SLOTS : FRef := ⟨0x28, 0x50, 0, 25, 0, 0⟩
def CCH_EBOUND_SLOTS : FRef := ⟨0x28, 0x54, 0, 25, 0, 0⟩
def CCH_TBOUND_SLOTS : FRef := ⟨0x28, 0x58, 0, 25, 0, 0⟩
def CCH_DIRTY_SLOTS : FRef := ⟨0x28, 0x5c, 0, 25, 0, 0⟩
def CCH_MODE_UNBACKED : FRef := ⟨0x28, 0x60, 0, 1, 1, 0⟩
def CCH_MODE_BRACED : FRef := ⟨0x28, 0x60, 1, 1, 0, 0⟩
def CCH_MODE_WRITE_THROUGH : FRef := ⟨0x28, 0x60, 2, 1, 0, 0⟩
def CCH_MODE_PARTNER_ACTIVE : FRef := ⟨0x28, 0x60, 3, 1, 0, 0⟩
def CCH_MODE_CAUSE : FRef := ⟨0x28, 0x60, 8, 4, 5, 0⟩
def CCH_PMIR_TMO_US : FRef := ⟨0x28, 0x64, 0, 16, 200, 0⟩
def CCH_OLDEST_AGE_MS : FRef := ⟨0x28, 0x68, 0, 32, 0, 0⟩
def CCH_DESTAGED_COUNT : FRef := ⟨0x28, 0x6c, 0, 32, 0, 0⟩
def CCH_MODE_CNT_COUNT : FRef := ⟨0x28, 0x70, 0, 32, 0, 0⟩
def CCH_LOSTW_ENTRIES : FRef := ⟨0x28, 0x74, 0, 15, 0, 0⟩
def CCH_LOSTW_MERGED : FRef := ⟨0x28, 0x74, 31, 1, 0, 0⟩
def CCH_CMD_OP : FRef := ⟨0x28, 0x78, 0, 4, 0, 0⟩
def CCH_CMD_VOLUME : FRef := ⟨0x28, 0x78, 4, 14, 0, 0⟩
def CCH_CMD_GO : FRef := ⟨0x28, 0x78, 31, 1, 0, 0⟩
def CCH_CMD_RES_STATUS : FRef := ⟨0x28, 0x7c, 0, 8, 0, 0⟩
def CCH_CMD_RES_DONE : FRef := ⟨0x28, 0x7c, 8, 1, 0, 0⟩

/-! Table CACHE-11. -/
def VLT_CFG_PORT : FRef := ⟨0x29, 0x40, 0, 6, 0, 0⟩
def VLT_CFG_EN : FRef := ⟨0x29, 0x40, 6, 1, 0, 0⟩
def VLT_CFG_MIRROR : FRef := ⟨0x29, 0x40, 7, 1, 0, 0⟩
def VLT_CFG_MPORT : FRef := ⟨0x29, 0x40, 8, 6, 0, 0⟩
def VLT_NSID_NSID : FRef := ⟨0x29, 0x44, 0, 32, 0, 0⟩
def VLT_MNSID_NSID : FRef := ⟨0x29, 0x48, 0, 32, 0, 0⟩
def VLT_RATE_RATE_MBS : FRef := ⟨0x29, 0x4c, 0, 16, 3000, 0⟩
def VLT_RATE_MEAS_MBS : FRef := ⟨0x29, 0x4c, 16, 16, 0, 0⟩
def VLT_TIMING_SETUP_US : FRef := ⟨0x29, 0x50, 0, 16, 2000, 0⟩
def VLT_TIMING_ASM_WAIT_S : FRef := ⟨0x29, 0x50, 16, 8, 30, 0⟩
def VLT_FIXED_US_US : FRef := ⟨0x29, 0x54, 0, 32, 0, 0⟩
def VLT_STAT_READY : FRef := ⟨0x29, 0x58, 0, 1, 0, 0⟩
def VLT_STAT_MIRROR_OK : FRef := ⟨0x29, 0x58, 1, 1, 0, 0⟩
def VLT_STAT_REPLAYING : FRef := ⟨0x29, 0x58, 2, 1, 0, 0⟩
def VLT_STAT_FOUND : FRef := ⟨0x29, 0x58, 3, 1, 0, 0⟩
def VLT_STAT_PARTIAL : FRef := ⟨0x29, 0x58, 4, 1, 0, 0⟩
def VLT_STAT_UNLISTED : FRef := ⟨0x29, 0x58, 5, 1, 0, 0⟩
def VLT_STAT_IMAGE_LOST : FRef := ⟨0x29, 0x58, 6, 1, 0, 0⟩
def VLT_STAT_DIRTY_LATCH : FRef := ⟨0x29, 0x58, 7, 1, 0, 0⟩
def VLT_STAT_WHY : FRef := ⟨0x29, 0x58, 8, 4, 1, 0⟩
def VLT_STAT_SKIPPED : FRef := ⟨0x29, 0x58, 12, 1, 0, 0⟩
def VLT_REQ_MIB_MIB : FRef := ⟨0x29, 0x5c, 0, 32, 0, 0⟩
def VLT_LAST_SEQ_SEQ : FRef := ⟨0x29, 0x60, 0, 32, 0, 0⟩
def VLT_LAST_CHUNKS_COUNT : FRef := ⟨0x29, 0x64, 0, 32, 0, 0⟩
def VLT_LAST_VALID_COUNT : FRef := ⟨0x29, 0x68, 0, 32, 0, 0⟩
def VLT_LAST_LOST_COUNT : FRef := ⟨0x29, 0x6c, 0, 32, 0, 0⟩
def VLT_CMD_OP : FRef := ⟨0x29, 0x70, 0, 4, 0, 0⟩
def VLT_CMD_GO : FRef := ⟨0x29, 0x70, 31, 1, 0, 0⟩
def VLT_CMD_RES_STATUS : FRef := ⟨0x29, 0x74, 0, 8, 0, 0⟩
def VLT_CMD_RES_DONE : FRef := ⟨0x29, 0x74, 8, 1, 0, 0⟩

/-! Table ENERGY-9. -/
def BEM_CFG_AUTH_EN : FRef := ⟨0x7, 0x40, 0, 1, 1, 0⟩
def BEM_CFG_LEARN_EN : FRef := ⟨0x7, 0x40, 1, 1, 1, 0⟩
def BEM_CFG_SMB_400K : FRef := ⟨0x7, 0x40, 2, 1, 0, 0⟩
def BEM_CFG_CELLS : FRef := ⟨0x7, 0x40, 4, 4, 4, 0⟩
def BEM_CFG_SMB_ADDR : FRef := ⟨0x7, 0x40, 8, 7, 11, 0⟩
def BEM_CFG_EFF_PCT : FRef := ⟨0x7, 0x40, 16, 7, 90, 0⟩
def BEM_CFG_LEARN_DAYS : FRef := ⟨0x7, 0x40, 24, 8, 90, 0⟩
def BEM_SHUNT_UOHM : FRef := ⟨0x7, 0x44, 0, 24, 2000, 0⟩
def BEM_NTC_NOM_OHM : FRef := ⟨0x7, 0x48, 0, 16, 10000, 0⟩
def BEM_NTC_BETA : FRef := ⟨0x7, 0x48, 16, 16, 3435, 0⟩
def BEM_DUMP_P_10MW : FRef := ⟨0x7, 0x4c, 0, 16, 6000, 0⟩
def BEM_DUMP_MEAS_10MW : FRef := ⟨0x7, 0x4c, 16, 16, 0, 0⟩
def BEM_REST_REST_MA : FRef := ⟨0x7, 0x50, 0, 12, 50, 0⟩
def BEM_REST_SOC_MIN : FRef := ⟨0x7, 0x50, 16, 7, 50, 0⟩
def BEM_REST_HIB_S : FRef := ⟨0x7, 0x50, 24, 8, 10, 0⟩
def BEM_OCV_SEL_INDEX : FRef := ⟨0x7, 0x54, 0, 4, 0, 0⟩
def BEM_OCV_VAL_MV (b : Nat) : FRef := ⟨0x7, 0x58, 0, 16, (ocvReset b), b⟩
def BEM_Q_LEARN_MAH : FRef := ⟨0x7, 0x5c, 0, 16, 0, 0⟩
def BEM_Q_DESIGN_MAH : FRef := ⟨0x7, 0x5c, 16, 16, 0, 0⟩
def BEM_SOC_PPM : FRef := ⟨0x7, 0x60, 0, 20, 0, 0⟩
def BEM_SOC_SRC : FRef := ⟨0x7, 0x60, 24, 2, 0, 0⟩
def BEM_SOC_VALID : FRef := ⟨0x7, 0x60, 31, 1, 0, 0⟩
def BEM_CONF_CONF_PCT : FRef := ⟨0x7, 0x64, 0, 7, 100, 0⟩
def BEM_CONF_TEMP_PCT : FRef := ⟨0x7, 0x64, 8, 7, 0, 0⟩
def BEM_CONF_DAYS_NO_REST : FRef := ⟨0x7, 0x64, 16, 8, 0, 0⟩
def BEM_MEAS_V_CODE : FRef := ⟨0x7, 0x68, 0, 16, 0, 0⟩
def BEM_MEAS_V_PACK_MV : FRef := ⟨0x7, 0x68, 16, 16, 0, 0⟩
def BEM_MEAS_I_CODE : FRef := ⟨0x7, 0x6c, 0, 16, 0, 0⟩
def BEM_MEAS_I_MA : FRef := ⟨0x7, 0x6c, 16, 16, 0, 0⟩
def BEM_MEAS_T_CODE : FRef := ⟨0x7, 0x70, 0, 16, 0, 0⟩
def BEM_MEAS_T_DECI_C : FRef := ⟨0x7, 0x70, 16, 16, 0, 0⟩
def BEM_STAT_STATE : FRef := ⟨0x7, 0x74, 0, 2, 0, 0⟩
def BEM_STAT_PRESENT : FRef := ⟨0x7, 0x74, 2, 1, 0, 0⟩
def BEM_STAT_AUTH : FRef := ⟨0x7, 0x74, 3, 2, 0, 0⟩
def BEM_STAT_REST : FRef := ⟨0x7, 0x74, 5, 1, 0, 0⟩
def BEM_STAT_RESTWIN : FRef := ⟨0x7, 0x74, 6, 1, 0, 0⟩
def BEM_STAT_CHG_INHIBIT : FRef := ⟨0x7, 0x74, 7, 1, 0, 0⟩
def BEM_STAT_BAT_LOAD : FRef := ⟨0x7, 0x74, 8, 1, 0, 0⟩
def BEM_STAT_TABLE_BAD : FRef := ⟨0x7, 0x74, 9, 1, 0, 0⟩
def BEM_STAT_COLD : FRef := ⟨0x7, 0x74, 10, 1, 0, 0⟩
def BEM_STAT_ISAT : FRef := ⟨0x7, 0x74, 11, 1, 0, 0⟩
def BEM_STAT_NTC_FAULT : FRef := ⟨0x7, 0x74, 12, 1, 0, 0⟩
def BEM_LEARN_LAST_CAUSE : FRef := ⟨0x7, 0x78, 0, 4, 0, 0⟩
def BEM_LEARN_PHASE : FRef := ⟨0x7, 0x78, 4, 2, 0, 0⟩
def BEM_LEARN_CYCLES : FRef := ⟨0x7, 0x78, 16, 16, 0, 0⟩
def BEM_RINT_SEL_BAND : FRef := ⟨0x7, 0x7c, 0, 2, 0, 0⟩
def BEM_RINT_MOHM (b : Nat) : FRef := ⟨0x7, 0x80, 0, 16, 100, b⟩
def BEM_TDUMP_US : FRef := ⟨0x7, 0x84, 0, 32, 0, 0⟩
def BEM_EBYTES_LO_BYTES : FRef := ⟨0x7, 0x88, 0, 32, 0, 0⟩
def BEM_EBYTES_HI_BYTES : FRef := ⟨0x7, 0x8c, 0, 32, 0, 0⟩
def BEM_STORE_SEQ : FRef := ⟨0x7, 0x90, 0, 32, 0, 0⟩
def BEM_CMD_OP : FRef := ⟨0x7, 0x94, 0, 4, 0, 0⟩
def BEM_CMD_GO : FRef := ⟨0x7, 0x94, 31, 1, 0, 0⟩
def BEM_CMD_RES_STATUS : FRef := ⟨0x7, 0x98, 0, 8, 0, 0⟩
def BEM_CMD_RES_DONE : FRef := ⟨0x7, 0x98, 8, 1, 0, 0⟩

/-! Table RING-18. -/
def CTX_BIND_VALID (i : Nat) : FRef := ⟨(0x1000 + i), 0x40, 0, 1, 0, 0⟩
def CTX_BIND_PORT (i : Nat) : FRef := ⟨(0x1000 + i), 0x40, 1, 1, 0, 0⟩
def CTX_BIND_FUNC (i : Nat) : FRef := ⟨(0x1000 + i), 0x40, 2, 10, 0, 0⟩
def CTX_BIND_KIND (i : Nat) : FRef := ⟨(0x1000 + i), 0x40, 12, 1, 0, 0⟩
def CTX_CTL_RUN (i : Nat) : FRef := ⟨(0x1000 + i), 0x44, 0, 1, 0, 0⟩
def CTX_CTL_ERR_CLEAR (i : Nat) : FRef := ⟨(0x1000 + i), 0x44, 1, 1, 0, 0⟩
def CTX_CTL_RETIRE (i : Nat) : FRef := ⟨(0x1000 + i), 0x44, 2, 1, 0, 0⟩
def CTX_STAT_STATE (i : Nat) : FRef := ⟨(0x1000 + i), 0x48, 0, 3, 0, 0⟩
def CTX_STAT_PAUSE_HOST (i : Nat) : FRef := ⟨(0x1000 + i), 0x48, 3, 1, 0, 0⟩
def CTX_STAT_PAUSE_BME (i : Nat) : FRef := ⟨(0x1000 + i), 0x48, 4, 1, 0, 0⟩
def CTX_STAT_CFG_BAD (i : Nat) : FRef := ⟨(0x1000 + i), 0x48, 5, 1, 0, 0⟩
def CTX_STAT_PHASE (i : Nat) : FRef := ⟨(0x1000 + i), 0x48, 6, 1, 1, 0⟩
def CTX_ERR_VALUE (i : Nat) : FRef := ⟨(0x1000 + i), 0x4c, 0, 16, 0, 0⟩
def CTX_ERR_CAUSE (i : Nat) : FRef := ⟨(0x1000 + i), 0x4c, 16, 4, 0, 0⟩
def CTX_SQ_BASE_LO_ADDR (i : Nat) : FRef := ⟨(0x1000 + i), 0x50, 12, 20, 0, 0⟩
def CTX_SQ_BASE_HI_ADDR (i : Nat) : FRef := ⟨(0x1000 + i), 0x54, 0, 32, 0, 0⟩
def CTX_CQ_BASE_LO_ADDR (i : Nat) : FRef := ⟨(0x1000 + i), 0x58, 12, 20, 0, 0⟩
def CTX_CQ_BASE_HI_ADDR (i : Nat) : FRef := ⟨(0x1000 + i), 0x5c, 0, 32, 0, 0⟩
def CTX_RING_SIZE_SQ_M1 (i : Nat) : FRef := ⟨(0x1000 + i), 0x60, 0, 14, 0, 0⟩
def CTX_RING_SIZE_CQ_M1 (i : Nat) : FRef := ⟨(0x1000 + i), 0x60, 16, 14, 0, 0⟩
def CTX_IRQ_VECTOR (i : Nat) : FRef := ⟨(0x1000 + i), 0x64, 0, 11, 0, 0⟩
def CTX_IRQ_IEN (i : Nat) : FRef := ⟨(0x1000 + i), 0x64, 11, 1, 0, 0⟩
def CTX_IRQ_AGG_COUNT (i : Nat) : FRef := ⟨(0x1000 + i), 0x64, 16, 8, 0, 0⟩
def CTX_SQ_IDX_HEAD (i : Nat) : FRef := ⟨(0x1000 + i), 0x68, 0, 14, 0, 0⟩
def CTX_SQ_IDX_TAIL (i : Nat) : FRef := ⟨(0x1000 + i), 0x68, 16, 14, 0, 0⟩
def CTX_CQ_IDX_TAIL (i : Nat) : FRef := ⟨(0x1000 + i), 0x6c, 0, 14, 0, 0⟩
def CTX_CQ_IDX_HEAD (i : Nat) : FRef := ⟨(0x1000 + i), 0x6c, 16, 14, 0, 0⟩
def CTX_OUT_OUTSTANDING (i : Nat) : FRef := ⟨(0x1000 + i), 0x70, 0, 14, 0, 0⟩
def CTX_DISCARD_DB (i : Nat) : FRef := ⟨(0x1000 + i), 0x74, 0, 16, 0, 0⟩
def CTX_DISCARD_ABORTS (i : Nat) : FRef := ⟨(0x1000 + i), 0x74, 16, 16, 0, 0⟩
def CTX_CONFLICT_COUNT (i : Nat) : FRef := ⟨(0x1000 + i), 0x78, 0, 32, 0, 0⟩
def CTX_AGG_TIME (i : Nat) : FRef := ⟨(0x1000 + i), 0x7c, 0, 16, 0, 0⟩

/-! Table TENANT-7. -/
def CTX_SCHED_CLASS (i : Nat) : FRef := ⟨(0x1000 + i), 0x80, 0, 2, 1, 0⟩
def CTX_SCHED_WEIGHT (i : Nat) : FRef := ⟨(0x1000 + i), 0x80, 8, 8, 16, 0⟩
def CTX_SCHED_MIN_UNITS (i : Nat) : FRef := ⟨(0x1000 + i), 0x80, 16, 16, 0, 0⟩
def CTX_LIMIT_MAX_UNITS (i : Nat) : FRef := ⟨(0x1000 + i), 0x84, 0, 16, 0, 0⟩
def CTX_LIMIT_BURST_UNITS (i : Nat) : FRef := ⟨(0x1000 + i), 0x84, 16, 16, 256, 0⟩
def CTX_BULK_RATE (i : Nat) : FRef := ⟨(0x1000 + i), 0x88, 0, 8, 32, 0⟩
def CTX_CREDIT_CREDIT (i : Nat) : FRef := ⟨(0x1000 + i), 0x8c, 0, 24, 0, 0⟩
def CTX_LATE_COUNT (i : Nat) : FRef := ⟨(0x1000 + i), 0x90, 0, 32, 0, 0⟩
def CTX_BIND_ID_ID (i : Nat) : FRef := ⟨(0x1000 + i), 0x94, 0, 32, 0, 0⟩
def CTX_RD_LO_COUNT (i : Nat) : FRef := ⟨(0x1000 + i), 0x98, 0, 32, 0, 0⟩
def CTX_RD_HI_COUNT (i : Nat) : FRef := ⟨(0x1000 + i), 0x9c, 0, 32, 0, 0⟩
def CTX_WR_LO_COUNT (i : Nat) : FRef := ⟨(0x1000 + i), 0xa0, 0, 32, 0, 0⟩
def CTX_WR_HI_COUNT (i : Nat) : FRef := ⟨(0x1000 + i), 0xa4, 0, 32, 0, 0⟩
def CTX_CMD_LO_COUNT (i : Nat) : FRef := ⟨(0x1000 + i), 0xa8, 0, 32, 0, 0⟩
def CTX_CMD_HI_COUNT (i : Nat) : FRef := ⟨(0x1000 + i), 0xac, 0, 32, 0, 0⟩
def CTX_PAR_LO_COUNT (i : Nat) : FRef := ⟨(0x1000 + i), 0xb0, 0, 32, 0, 0⟩
def CTX_PAR_HI_COUNT (i : Nat) : FRef := ⟨(0x1000 + i), 0xb4, 0, 32, 0, 0⟩
def CTX_SLOT_LO_COUNT (i : Nat) : FRef := ⟨(0x1000 + i), 0xb8, 0, 32, 0, 0⟩
def CTX_SLOT_HI_COUNT (i : Nat) : FRef := ⟨(0x1000 + i), 0xbc, 0, 32, 0, 0⟩
def CTX_THROTTLED_COUNT (i : Nat) : FRef := ⟨(0x1000 + i), 0xc0, 0, 32, 0, 0⟩
def CTX_MTR_STAT_GAP (i : Nat) : FRef := ⟨(0x1000 + i), 0xc4, 0, 1, 0, 0⟩
def CTX_MTR_STAT_FINAL_PENDING (i : Nat) : FRef := ⟨(0x1000 + i), 0xc4, 1, 1, 0, 0⟩

/-! Table TENANT-8. -/
def TSC_CFG_CAP_UNITS : FRef := ⟨0x100, 0x40, 0, 16, 1344, 0⟩
def TSC_CLASS0_LAT_US : FRef := ⟨0x100, 0x44, 0, 16, 100, 0⟩
def TSC_CLASS1_LAT_US : FRef := ⟨0x100, 0x48, 0, 16, 1000, 0⟩
def TSC_CLASS2_LAT_US : FRef := ⟨0x100, 0x4c, 0, 16, 10000, 0⟩
def TSC_CLASS3_LAT_US : FRef := ⟨0x100, 0x50, 0, 16, 0, 0⟩
def TSC_STAT_ACTIVE : FRef := ⟨0x100, 0x54, 0, 13, 0, 0⟩
def TSC_STAT_OFF_GRID : FRef := ⟨0x100, 0x54, 13, 1, 0, 0⟩
def TSC_MIN_SUM_UNITS : FRef := ⟨0x100, 0x58, 0, 16, 0, 0⟩
def TSC_ROUNDS_LO_COUNT : FRef := ⟨0x100, 0x5c, 0, 32, 0, 0⟩
def TSC_ROUNDS_HI_COUNT : FRef := ⟨0x100, 0x60, 0, 32, 0, 0⟩
def TSC_LATE_COUNT : FRef := ⟨0x100, 0x64, 0, 32, 0, 0⟩
def TSC_SHORT_COUNT : FRef := ⟨0x100, 0x68, 0, 32, 0, 0⟩
def TSC_OVER_MAX_NS : FRef := ⟨0x100, 0x6c, 0, 32, 0, 0⟩
def TSC_CLR_CLR_MAX : FRef := ⟨0x100, 0x70, 0, 1, 0, 0⟩

/-! Table TENANT-9. -/
def MTR_CFG_EN : FRef := ⟨0x101, 0x40, 0, 1, 0, 0⟩
def MTR_CFG_TSRC : FRef := ⟨0x101, 0x40, 1, 1, 0, 0⟩
def MTR_BASE_LO_ADDR : FRef := ⟨0x101, 0x44, 12, 20, 0, 0⟩
def MTR_BASE_HI_ADDR : FRef := ⟨0x101, 0x48, 0, 32, 0, 0⟩
def MTR_SIZE_M1 : FRef := ⟨0x101, 0x4c, 0, 16, 0, 0⟩
def MTR_TAIL_TAIL : FRef := ⟨0x101, 0x50, 0, 16, 0, 0⟩
def MTR_TAIL_PHASE : FRef := ⟨0x101, 0x50, 16, 1, 1, 0⟩
def MTR_HEAD_HEAD : FRef := ⟨0x101, 0x54, 0, 16, 0, 0⟩
def MTR_TOFF_LO_NS : FRef := ⟨0x101, 0x58, 0, 32, 0, 0⟩
def MTR_TOFF_HI_NS : FRef := ⟨0x101, 0x5c, 0, 32, 0, 0⟩
def MTR_TIME_LO_NS : FRef := ⟨0x101, 0x60, 0, 32, 0, 0⟩
def MTR_TIME_HI_NS : FRef := ⟨0x101, 0x64, 0, 32, 0, 0⟩
def MTR_TADJ_LO_NS : FRef := ⟨0x101, 0x68, 0, 32, 0, 0⟩
def MTR_TADJ_HI_NS : FRef := ⟨0x101, 0x6c, 0, 32, 0, 0⟩
def MTR_TCTL_STEP : FRef := ⟨0x101, 0x70, 0, 1, 0, 0⟩
def MTR_TCTL_SLEW : FRef := ⟨0x101, 0x70, 1, 1, 0, 0⟩
def MTR_SLEW_LEFT_NS : FRef := ⟨0x101, 0x74, 0, 32, 0, 0⟩
def MTR_EPOCH_EPOCH : FRef := ⟨0x101, 0x78, 0, 32, 0, 0⟩
def MTR_RECORDS_COUNT : FRef := ⟨0x101, 0x7c, 0, 32, 0, 0⟩
def MTR_DROPPED_COUNT : FRef := ⟨0x101, 0x80, 0, 32, 0, 0⟩
def MTR_MAINT_LO_COUNT : FRef := ⟨0x101, 0x84, 0, 32, 0, 0⟩
def MTR_MAINT_HI_COUNT : FRef := ⟨0x101, 0x88, 0, 32, 0, 0⟩

/-! Table HOST-8. -/
def HEP_CFG_RO_DATA (i : Nat) : FRef := ⟨(0x10 + i), 0x40, 0, 1, 1, 0⟩
def HEP_CFG_L1_IDLE_US (i : Nat) : FRef := ⟨(0x10 + i), 0x40, 8, 8, 20, 0⟩
def HEP_LINK_SPEED (i : Nat) : FRef := ⟨(0x10 + i), 0x44, 0, 3, 0, 0⟩
def HEP_LINK_WIDTH (i : Nat) : FRef := ⟨(0x10 + i), 0x44, 8, 5, 0, 0⟩
def HEP_LINK_LTSSM (i : Nat) : FRef := ⟨(0x10 + i), 0x44, 16, 6, 0, 0⟩
def HEP_LINK_IN_L1 (i : Nat) : FRef := ⟨(0x10 + i), 0x44, 22, 1, 0, 0⟩
def HEP_LINK_IN_L12 (i : Nat) : FRef := ⟨(0x10 + i), 0x44, 23, 1, 0, 0⟩
def HEP_LINK_REVERSED (i : Nat) : FRef := ⟨(0x10 + i), 0x44, 24, 1, 0, 0⟩
def HEP_FUNCS_NUMVFS (i : Nat) : FRef := ⟨(0x10 + i), 0x48, 0, 11, 0, 0⟩
def HEP_FUNCS_VF_EN (i : Nat) : FRef := ⟨(0x10 + i), 0x48, 11, 1, 0, 0⟩
def HEP_FUNCS_ARI (i : Nat) : FRef := ⟨(0x10 + i), 0x48, 12, 1, 0, 0⟩
def HEP_FUNCS_PF_DSTATE (i : Nat) : FRef := ⟨(0x10 + i), 0x48, 13, 2, 0, 0⟩
def HEP_FUNCS_PF_BME (i : Nat) : FRef := ⟨(0x10 + i), 0x48, 15, 1, 0, 0⟩
def HEP_OUT_READS (i : Nat) : FRef := ⟨(0x10 + i), 0x4c, 0, 10, 0, 0⟩
def HEP_OUT_HELD (i : Nat) : FRef := ⟨(0x10 + i), 0x4c, 16, 11, 0, 0⟩
def HEP_LTR_ACT_VAL (i : Nat) : FRef := ⟨(0x10 + i), 0x50, 0, 10, 10, 0⟩
def HEP_LTR_ACT_SCALE (i : Nat) : FRef := ⟨(0x10 + i), 0x50, 10, 3, 2, 0⟩
def HEP_LTR_IDLE_VAL (i : Nat) : FRef := ⟨(0x10 + i), 0x50, 16, 10, 1, 0⟩
def HEP_LTR_IDLE_SCALE (i : Nat) : FRef := ⟨(0x10 + i), 0x50, 26, 3, 4, 0⟩
def HEP_CTO_COUNT (i : Nat) : FRef := ⟨(0x10 + i), 0x54, 0, 32, 0, 0⟩
def HEP_LATE_COUNT (i : Nat) : FRef := ⟨(0x10 + i), 0x58, 0, 32, 0, 0⟩
def HEP_DISCARD_COUNT (i : Nat) : FRef := ⟨(0x10 + i), 0x5c, 0, 32, 0, 0⟩
def HEP_FLR_VF (i : Nat) : FRef := ⟨(0x10 + i), 0x60, 0, 16, 0, 0⟩
def HEP_FLR_PF (i : Nat) : FRef := ⟨(0x10 + i), 0x60, 16, 16, 0, 0⟩
def HEP_IRQ_NONE_COUNT (i : Nat) : FRef := ⟨(0x10 + i), 0x64, 0, 32, 0, 0⟩
def HEP_INBOUND_ERR_COUNT (i : Nat) : FRef := ⟨(0x10 + i), 0x68, 0, 32, 0, 0⟩
def HEP_DOWN_COUNT (i : Nat) : FRef := ⟨(0x10 + i), 0x6c, 0, 32, 0, 0⟩
def HEP_RD_LO_COUNT (i : Nat) : FRef := ⟨(0x10 + i), 0x70, 0, 32, 0, 0⟩
def HEP_RD_HI_COUNT (i : Nat) : FRef := ⟨(0x10 + i), 0x74, 0, 32, 0, 0⟩
def HEP_WR_LO_COUNT (i : Nat) : FRef := ⟨(0x10 + i), 0x78, 0, 32, 0, 0⟩
def HEP_WR_HI_COUNT (i : Nat) : FRef := ⟨(0x10 + i), 0x7c, 0, 32, 0, 0⟩
def HEP_SUBSYS_SVID (i : Nat) : FRef := ⟨(0x10 + i), 0x80, 0, 16, 8045, 0⟩
def HEP_SUBSYS_SSID (i : Nat) : FRef := ⟨(0x10 + i), 0x80, 16, 16, 0, 0⟩

/-! Table DRIVE-4. -/
def DPT_CFG_AUTO_ON (i : Nat) : FRef := ⟨(0x80 + i), 0x40, 0, 1, 1, 0⟩
def DPT_CFG_X4 (i : Nat) : FRef := ⟨(0x80 + i), 0x40, 1, 1, 0, 0⟩
def DPT_CFG_SRIS (i : Nat) : FRef := ⟨(0x80 + i), 0x40, 2, 1, 0, 0⟩
def DPT_CFG_ASPM_L1 (i : Nat) : FRef := ⟨(0x80 + i), 0x40, 3, 1, 1, 0⟩
def DPT_CFG_QPAIRS (i : Nat) : FRef := ⟨(0x80 + i), 0x40, 4, 4, 4, 0⟩
def DPT_CFG_MAX_SPEED (i : Nat) : FRef := ⟨(0x80 + i), 0x40, 8, 3, 5, 0⟩
def DPT_CFG_L1_IDLE_US (i : Nat) : FRef := ⟨(0x80 + i), 0x40, 16, 8, 50, 0⟩
def DPT_CFG_SMART_S (i : Nat) : FRef := ⟨(0x80 + i), 0x40, 24, 8, 60, 0⟩
def DPT_TMO_IO_MS (i : Nat) : FRef := ⟨(0x80 + i), 0x44, 0, 16, 2000, 0⟩
def DPT_TMO_RETRIES (i : Nat) : FRef := ⟨(0x80 + i), 0x44, 16, 4, 2, 0⟩
def DPT_TMO_LINK_MS (i : Nat) : FRef := ⟨(0x80 + i), 0x44, 20, 12, 1000, 0⟩
def DPT_LINK_SPEED (i : Nat) : FRef := ⟨(0x80 + i), 0x48, 0, 3, 0, 0⟩
def DPT_LINK_WIDTH (i : Nat) : FRef := ⟨(0x80 + i), 0x48, 8, 3, 0, 0⟩
def DPT_LINK_LTSSM (i : Nat) : FRef := ⟨(0x80 + i), 0x48, 16, 6, 0, 0⟩
def DPT_LINK_IN_L1 (i : Nat) : FRef := ⟨(0x80 + i), 0x48, 22, 1, 0, 0⟩
def DPT_SLOT_CAP_ABP (i : Nat) : FRef := ⟨(0x80 + i), 0x4c, 0, 1, 1, 0⟩
def DPT_SLOT_CAP_PCP (i : Nat) : FRef := ⟨(0x80 + i), 0x4c, 1, 1, 1, 0⟩
def DPT_SLOT_CAP_MRLSP (i : Nat) : FRef := ⟨(0x80 + i), 0x4c, 2, 1, 0, 0⟩
def DPT_SLOT_CAP_AIP (i : Nat) : FRef := ⟨(0x80 + i), 0x4c, 3, 1, 1, 0⟩
def DPT_SLOT_CAP_PIP (i : Nat) : FRef := ⟨(0x80 + i), 0x4c, 4, 1, 1, 0⟩
def DPT_SLOT_CAP_HPS (i : Nat) : FRef := ⟨(0x80 + i), 0x4c, 5, 1, 1, 0⟩
def DPT_SLOT_CAP_HPC (i : Nat) : FRef := ⟨(0x80 + i), 0x4c, 6, 1, 1, 0⟩
def DPT_SLOT_CTL_AIC (i : Nat) : FRef := ⟨(0x80 + i), 0x50, 6, 2, 3, 0⟩
def DPT_SLOT_CTL_PIC (i : Nat) : FRef := ⟨(0x80 + i), 0x50, 8, 2, 3, 0⟩
def DPT_SLOT_CTL_PCC (i : Nat) : FRef := ⟨(0x80 + i), 0x50, 10, 1, 1, 0⟩
def DPT_SLOT_CTL_LOCATE (i : Nat) : FRef := ⟨(0x80 + i), 0x50, 11, 1, 0, 0⟩
def DPT_SLOT_STS_EVENTS (i : Nat) : FRef := ⟨(0x80 + i), 0x54, 0, 9, 0, 0⟩
def DPT_SLOT_STS_PDS (i : Nat) : FRef := ⟨(0x80 + i), 0x54, 16, 1, 0, 0⟩
def DPT_SLOT_STS_DUAL (i : Nat) : FRef := ⟨(0x80 + i), 0x54, 17, 1, 0, 0⟩
def DPT_SLOT_STS_PWR_GOOD (i : Nat) : FRef := ⟨(0x80 + i), 0x54, 18, 1, 0, 0⟩
def DPT_SLOT_STS_IFDET (i : Nat) : FRef := ⟨(0x80 + i), 0x54, 19, 1, 0, 0⟩
def DPT_DRIVE_RESV (i : Nat) : FRef := ⟨(0x80 + i), 0x58, 0, 1, 0, 0⟩
def DPT_DRIVE_DSM (i : Nat) : FRef := ⟨(0x80 + i), 0x58, 1, 1, 0, 0⟩
def DPT_DRIVE_VWC (i : Nat) : FRef := ⟨(0x80 + i), 0x58, 2, 1, 0, 0⟩
def DPT_DRIVE_WHY (i : Nat) : FRef := ⟨(0x80 + i), 0x58, 4, 4, 0, 0⟩
def DPT_DRIVE_MDTS (i : Nat) : FRef := ⟨(0x80 + i), 0x58, 8, 8, 0, 0⟩
def DPT_DRIVE_CNTLID (i : Nat) : FRef := ⟨(0x80 + i), 0x58, 16, 16, 0, 0⟩
def DPT_NSID0_NSID (i : Nat) : FRef := ⟨(0x80 + i), 0x5c, 0, 32, 0, 0⟩
def DPT_NSID1_NSID (i : Nat) : FRef := ⟨(0x80 + i), 0x60, 0, 32, 0, 0⟩
def DPT_NS_STAT_FMT_OK0 (i : Nat) : FRef := ⟨(0x80 + i), 0x64, 0, 1, 0, 0⟩
def DPT_NS_STAT_FMT_OK1 (i : Nat) : FRef := ⟨(0x80 + i), 0x64, 1, 1, 0, 0⟩
def DPT_NS_STAT_IGNORED (i : Nat) : FRef := ⟨(0x80 + i), 0x64, 8, 8, 0, 0⟩
def DPT_KEY_DRIVE_KEY (i : Nat) : FRef := ⟨(0x80 + i), 0x68, 0, 32, 0, 0⟩
def DPT_OUT_COUNT (i : Nat) : FRef := ⟨(0x80 + i), 0x6c, 0, 9, 0, 0⟩
def DPT_TMO_CNT_COUNT (i : Nat) : FRef := ⟨(0x80 + i), 0x70, 0, 32, 0, 0⟩
def DPT_RESETS_COUNT (i : Nat) : FRef := ⟨(0x80 + i), 0x74, 0, 32, 0, 0⟩
def DPT_SMART_WARN (i : Nat) : FRef := ⟨(0x80 + i), 0x78, 0, 8, 0, 0⟩
def DPT_SMART_TEMP_K (i : Nat) : FRef := ⟨(0x80 + i), 0x78, 16, 16, 0, 0⟩
def DPT_RESV_ROLE (i : Nat) : FRef := ⟨(0x80 + i), 0x7c, 0, 2, 0, 0⟩
def DPT_CMD_OP (i : Nat) : FRef := ⟨(0x80 + i), 0x80, 0, 4, 0, 0⟩
def DPT_CMD_GO (i : Nat) : FRef := ⟨(0x80 + i), 0x80, 31, 1, 0, 0⟩
def DPT_CMD_RES_STATUS (i : Nat) : FRef := ⟨(0x80 + i), 0x84, 0, 8, 0, 0⟩
def DPT_CMD_RES_DONE (i : Nat) : FRef := ⟨(0x80 + i), 0x84, 8, 1, 0, 0⟩

/-! Table DRIVE-5. -/
def SSB_CFG_EN (i : Nat) : FRef := ⟨(0xC0 + i), 0x40, 0, 1, 1, 0⟩
def SSB_CFG_SLOTS (i : Nat) : FRef := ⟨(0xC0 + i), 0x40, 4, 5, 16, 0⟩
def SSB_STAT_FAULT (i : Nat) : FRef := ⟨(0xC0 + i), 0x44, 0, 1, 0, 0⟩
def SSB_FRAMES_COUNT (i : Nat) : FRef := ⟨(0xC0 + i), 0x48, 0, 32, 0, 0⟩
def SSB_BAD_COUNT (i : Nat) : FRef := ⟨(0xC0 + i), 0x4c, 0, 32, 0, 0⟩
def SSB_SEL_SLOT (i : Nat) : FRef := ⟨(0xC0 + i), 0x50, 0, 4, 0, 0⟩
def SSB_RAW_IN (i : Nat) (b : Nat) : FRef := ⟨(0xC0 + i), 0x54, 0, 8, 0, b⟩
def SSB_RAW_OUT (i : Nat) (b : Nat) : FRef := ⟨(0xC0 + i), 0x54, 8, 8, 0, b⟩

/-! Table DRAM-7. -/
def DMC_CFG_PAGE (i : Nat) : FRef := ⟨(0x20 + i), 0x40, 0, 2, 2, 0⟩
def DMC_CFG_ORDER (i : Nat) : FRef := ⟨(0x20 + i), 0x40, 2, 2, 0, 0⟩
def DMC_CFG_HASH (i : Nat) : FRef := ⟨(0x20 + i), 0x40, 4, 1, 1, 0⟩
def DMC_CFG_CORR_WB (i : Nat) : FRef := ⟨(0x20 + i), 0x40, 5, 1, 1, 0⟩
def DMC_CFG_PAGE_IDLE (i : Nat) : FRef := ⟨(0x20 + i), 0x40, 8, 8, 32, 0⟩
def DMC_CFG_CE_THR (i : Nat) : FRef := ⟨(0x20 + i), 0x40, 16, 8, 16, 0⟩
def DMC_CFG_SCRUB_H (i : Nat) : FRef := ⟨(0x20 + i), 0x40, 24, 8, 24, 0⟩
def DMC_SPEED_RUN (i : Nat) : FRef := ⟨(0x20 + i), 0x44, 0, 2, 2, 0⟩
def DMC_SPEED_CUR (i : Nat) : FRef := ⟨(0x20 + i), 0x44, 2, 2, 0, 0⟩
def DMC_SPEED_SET (i : Nat) : FRef := ⟨(0x20 + i), 0x44, 4, 1, 0, 0⟩
def DMC_STAT_WHY (i : Nat) : FRef := ⟨(0x20 + i), 0x48, 0, 4, 1, 0⟩
def DMC_DIMM_SIZE_GIB (i : Nat) : FRef := ⟨(0x20 + i), 0x4c, 0, 8, 0, 0⟩
def DMC_DIMM_RANKS (i : Nat) : FRef := ⟨(0x20 + i), 0x4c, 8, 2, 0, 0⟩
def DMC_DIMM_X8 (i : Nat) : FRef := ⟨(0x20 + i), 0x4c, 10, 1, 0, 0⟩
def DMC_DIMM_ROW_BITS (i : Nat) : FRef := ⟨(0x20 + i), 0x4c, 11, 5, 0, 0⟩
def DMC_INIT_WM_MIB (i : Nat) : FRef := ⟨(0x20 + i), 0x50, 0, 17, 0, 0⟩
def DMC_INIT_WM_DONE (i : Nat) : FRef := ⟨(0x20 + i), 0x50, 31, 1, 0, 0⟩
def DMC_SCRUB_POS_MIB (i : Nat) : FRef := ⟨(0x20 + i), 0x54, 0, 17, 0, 0⟩
def DMC_LAT01_PORT0_NS (i : Nat) : FRef := ⟨(0x20 + i), 0x58, 0, 16, 200, 0⟩
def DMC_LAT01_PORT1_NS (i : Nat) : FRef := ⟨(0x20 + i), 0x58, 16, 16, 300, 0⟩
def DMC_LAT23_PORT2_NS (i : Nat) : FRef := ⟨(0x20 + i), 0x5c, 0, 16, 2000, 0⟩
def DMC_LAT23_PORT3_NS (i : Nat) : FRef := ⟨(0x20 + i), 0x5c, 16, 16, 5000, 0⟩
def DMC_LAT45_PORT4_NS (i : Nat) : FRef := ⟨(0x20 + i), 0x60, 0, 16, 500, 0⟩
def DMC_LAT45_PORT5_NS (i : Nat) : FRef := ⟨(0x20 + i), 0x60, 16, 16, 400, 0⟩
def DMC_DLY_SEL_LANE (i : Nat) : FRef := ⟨(0x20 + i), 0x64, 0, 5, 0, 0⟩
def DMC_DLY_WL_SEED (i : Nat) (b : Nat) : FRef := ⟨(0x20 + i), 0x68, 0, 12, 0, b⟩
def DMC_DLY_RG_SEED (i : Nat) (b : Nat) : FRef := ⟨(0x20 + i), 0x68, 12, 12, 0, b⟩
def DMC_DLY_CA_CA (i : Nat) : FRef := ⟨(0x20 + i), 0x6c, 0, 12, 0, 0⟩
def DMC_DLY_CA_TOL (i : Nat) : FRef := ⟨(0x20 + i), 0x6c, 12, 8, 100, 0⟩
def DMC_CE_COUNT (i : Nat) : FRef := ⟨(0x20 + i), 0x70, 0, 32, 0, 0⟩
def DMC_UE_COUNT (i : Nat) : FRef := ⟨(0x20 + i), 0x74, 0, 16, 0, 0⟩
def DMC_ERR_SYN_SUB (i : Nat) : FRef := ⟨(0x20 + i), 0x78, 0, 1, 0, 0⟩
def DMC_ERR_SYN_DEVICE (i : Nat) : FRef := ⟨(0x20 + i), 0x78, 1, 4, 0, 0⟩
def DMC_ERR_SYN_UE (i : Nat) : FRef := ⟨(0x20 + i), 0x78, 5, 1, 0, 0⟩
def DMC_ERR_SYN_SYMBOLS (i : Nat) : FRef := ⟨(0x20 + i), 0x78, 8, 8, 0, 0⟩
def DMC_URGENT_COUNT (i : Nat) : FRef := ⟨(0x20 + i), 0x7c, 0, 32, 0, 0⟩
def DMC_BYTES_LO_COUNT (i : Nat) : FRef := ⟨(0x20 + i), 0x80, 0, 32, 0, 0⟩
def DMC_BYTES_HI_COUNT (i : Nat) : FRef := ⟨(0x20 + i), 0x84, 0, 32, 0, 0⟩
def DMC_DIAG_ADDR_LO_ADDR (i : Nat) : FRef := ⟨(0x20 + i), 0x88, 2, 30, 0, 0⟩
def DMC_DIAG_ADDR_HI_ADDR (i : Nat) : FRef := ⟨(0x20 + i), 0x8c, 0, 4, 0, 0⟩
def DMC_DIAG_DATA_DATA (i : Nat) : FRef := ⟨(0x20 + i), 0x90, 0, 32, 0, 0⟩
def DMC_DIAG_STAT_VALID (i : Nat) : FRef := ⟨(0x20 + i), 0x94, 0, 1, 0, 0⟩
def DMC_DIAG_STAT_CE (i : Nat) : FRef := ⟨(0x20 + i), 0x94, 1, 1, 0, 0⟩
def DMC_DIAG_STAT_UE (i : Nat) : FRef := ⟨(0x20 + i), 0x94, 2, 1, 0, 0⟩
def DMC_CMD_OP (i : Nat) : FRef := ⟨(0x20 + i), 0x98, 0, 4, 0, 0⟩
def DMC_CMD_GO (i : Nat) : FRef := ⟨(0x20 + i), 0x98, 31, 1, 0, 0⟩
def DMC_CMD_RES_STATUS (i : Nat) : FRef := ⟨(0x20 + i), 0x9c, 0, 8, 0, 0⟩
def DMC_CMD_RES_DONE (i : Nat) : FRef := ⟨(0x20 + i), 0x9c, 8, 1, 0, 0⟩

/-! Table LINK-5. -/
def TLK_CFG_MAX_32 (i : Nat) : FRef := ⟨(0xC8 + i), 0x40, 0, 1, 1, 0⟩
def TLK_CFG_ALLOW_NARROW (i : Nat) : FRef := ⟨(0xC8 + i), 0x40, 1, 1, 1, 0⟩
def TLK_CFG_ACK_NS (i : Nat) : FRef := ⟨(0xC8 + i), 0x40, 8, 8, 100, 0⟩
def TLK_CFG_REPLAY_NS (i : Nat) : FRef := ⟨(0xC8 + i), 0x40, 16, 12, 1000, 0⟩
def TLK_STAT_SPEED (i : Nat) : FRef := ⟨(0xC8 + i), 0x44, 0, 2, 0, 0⟩
def TLK_STAT_WIDTH (i : Nat) : FRef := ⟨(0xC8 + i), 0x44, 2, 3, 0, 0⟩
def TLK_STAT_REVERSED (i : Nat) : FRef := ⟨(0xC8 + i), 0x44, 5, 1, 0, 0⟩
def TLK_STAT_NEIGH_NODE (i : Nat) : FRef := ⟨(0xC8 + i), 0x44, 8, 9, 0, 0⟩
def TLK_STAT_NEIGH_LINK (i : Nat) : FRef := ⟨(0xC8 + i), 0x44, 17, 3, 0, 0⟩
def TLK_LAT_NS (i : Nat) : FRef := ⟨(0xC8 + i), 0x48, 0, 16, 0, 0⟩
def TLK_CRC_COUNT (i : Nat) : FRef := ⟨(0xC8 + i), 0x4c, 0, 32, 0, 0⟩
def TLK_REPLAY_COUNT (i : Nat) : FRef := ⟨(0xC8 + i), 0x50, 0, 32, 0, 0⟩
def TLK_RETRAIN_COUNT (i : Nat) : FRef := ⟨(0xC8 + i), 0x54, 0, 32, 0, 0⟩
def TLK_DROP_COUNT (i : Nat) : FRef := ⟨(0xC8 + i), 0x58, 0, 32, 0, 0⟩
def TLK_CRD_SEL_CLASS (i : Nat) : FRef := ⟨(0xC8 + i), 0x5c, 0, 3, 0, 0⟩
def TLK_CRD_TX (i : Nat) (b : Nat) : FRef := ⟨(0xC8 + i), 0x60, 0, 12, 0, b⟩
def TLK_CRD_ADV (i : Nat) (b : Nat) : FRef := ⟨(0xC8 + i), 0x60, 16, 12, 0, b⟩
def TLK_TX_LO_COUNT (i : Nat) : FRef := ⟨(0xC8 + i), 0x64, 0, 32, 0, 0⟩
def TLK_TX_HI_COUNT (i : Nat) : FRef := ⟨(0xC8 + i), 0x68, 0, 32, 0, 0⟩
def TLK_RX_LO_COUNT (i : Nat) : FRef := ⟨(0xC8 + i), 0x6c, 0, 32, 0, 0⟩
def TLK_RX_HI_COUNT (i : Nat) : FRef := ⟨(0xC8 + i), 0x70, 0, 32, 0, 0⟩

/-! Table LINK-6. -/
def TRT_CFG_NODE_OFF : FRef := ⟨0xd0, 0x40, 0, 9, 0, 0⟩
def TRT_CFG_AUTO_NEIGH : FRef := ⟨0xd0, 0x40, 9, 1, 1, 0⟩
def TRT_SEL_NODE : FRef := ⟨0xd0, 0x44, 0, 9, 0, 0⟩
def TRT_ENTRY_LINK (b : Nat) : FRef := ⟨0xd0, 0x48, 0, 3, 0, b⟩
def TRT_ENTRY_VALID (b : Nat) : FRef := ⟨0xd0, 0x48, 3, 1, 0, b⟩
def TRT_ENTRY_LEARNED (b : Nat) : FRef := ⟨0xd0, 0x48, 4, 1, 0, b⟩
def TRT_ENTRY_UP (b : Nat) : FRef := ⟨0xd0, 0x48, 5, 1, 0, b⟩
def TRT_LEASE_PERIOD_US : FRef := ⟨0xd0, 0x4c, 0, 12, 1000, 0⟩
def TRT_LEASE_TMO_MS : FRef := ⟨0xd0, 0x4c, 12, 8, 20, 0⟩
def TRT_LEASE_DROP_MS : FRef := ⟨0xd0, 0x4c, 20, 8, 60, 0⟩
def TRT_LEASE2_PREEMPT_MS : FRef := ⟨0xd0, 0x50, 0, 8, 30, 0⟩
def TRT_LEASE2_MIO_TMO_MS : FRef := ⟨0xd0, 0x50, 8, 16, 3000, 0⟩
def TRT_PEER_OWNER (b : Nat) : FRef := ⟨0xd0, 0x54, 0, 1, 0, b⟩
def TRT_PEER_STANDBY (b : Nat) : FRef := ⟨0xd0, 0x54, 1, 1, 0, b⟩
def TRT_PEER_LEASE_OK (b : Nat) : FRef := ⟨0xd0, 0x54, 2, 1, 0, b⟩
def TRT_PEER_AGE_MS (b : Nat) : FRef := ⟨0xd0, 0x54, 8, 8, 0, b⟩
def TRT_PEER_PLATES (b : Nat) : FRef := ⟨0xd0, 0x54, 16, 7, 0, b⟩
def TRT_TIME_MASTER : FRef := ⟨0xd0, 0x58, 0, 9, 0, 0⟩
def TRT_TIME_SYNC_MS : FRef := ⟨0xd0, 0x58, 16, 8, 10, 0⟩
def TRT_TERR_NS : FRef := ⟨0xd0, 0x5c, 0, 32, 0, 0⟩
def TRT_TAKEOVERS_COUNT : FRef := ⟨0xd0, 0x60, 0, 32, 0, 0⟩
def TRT_DROPS_COUNT : FRef := ⟨0xd0, 0x64, 0, 32, 0, 0⟩
def TRT_UNROUTED_COUNT : FRef := ⟨0xd0, 0x68, 0, 32, 0, 0⟩
def TRT_CMD_OP : FRef := ⟨0xd0, 0x6c, 0, 4, 0, 0⟩
def TRT_CMD_PLATE : FRef := ⟨0xd0, 0x6c, 4, 6, 0, 0⟩
def TRT_CMD_NODE : FRef := ⟨0xd0, 0x6c, 10, 9, 0, 0⟩
def TRT_CMD_GO : FRef := ⟨0xd0, 0x6c, 31, 1, 0, 0⟩
def TRT_CMD_RES_STATUS : FRef := ⟨0xd0, 0x70, 0, 8, 0, 0⟩
def TRT_CMD_RES_DONE : FRef := ⟨0xd0, 0x70, 8, 1, 0, 0⟩

/-! Table MOVER-6. -/
def MOV_CFG_HOLD_US : FRef := ⟨0xdf, 0x40, 0, 16, 100, 0⟩
def MOV_STAT_CHANNEL : FRef := ⟨0xdf, 0x44, 0, 4, 0, 0⟩
def MOV_STAT_BUSY : FRef := ⟨0xdf, 0x44, 4, 1, 0, 0⟩
def MOV_PEND_MASK : FRef := ⟨0xdf, 0x48, 0, 16, 0, 0⟩
def MOV_BYTES_LO_COUNT : FRef := ⟨0xdf, 0x4c, 0, 32, 0, 0⟩
def MOV_BYTES_HI_COUNT : FRef := ⟨0xdf, 0x50, 0, 32, 0, 0⟩

/-! Table MOVER-7. -/
def MCH_CH_CTL_GO (i : Nat) : FRef := ⟨(0xE0 + i), 0x40, 0, 1, 0, 0⟩
def MCH_CH_CTL_STOP (i : Nat) : FRef := ⟨(0xE0 + i), 0x40, 1, 1, 0, 0⟩
def MCH_CH_CTL_CHAIN (i : Nat) : FRef := ⟨(0xE0 + i), 0x40, 2, 1, 0, 0⟩
def MCH_CH_STAT_STATE (i : Nat) : FRef := ⟨(0xE0 + i), 0x44, 0, 2, 0, 0⟩
def MCH_CH_HEAD_LO_SPACE (i : Nat) : FRef := ⟨(0xE0 + i), 0x48, 0, 1, 0, 0⟩
def MCH_CH_HEAD_LO_ADDR (i : Nat) : FRef := ⟨(0xE0 + i), 0x48, 7, 25, 0, 0⟩
def MCH_CH_HEAD_HI_ADDR (i : Nat) : FRef := ⟨(0xE0 + i), 0x4c, 0, 32, 0, 0⟩
def MCH_CH_CUR_LO_ADDR (i : Nat) : FRef := ⟨(0xE0 + i), 0x50, 0, 32, 0, 0⟩
def MCH_CH_CUR_HI_ADDR (i : Nat) : FRef := ⟨(0xE0 + i), 0x54, 0, 32, 0, 0⟩
def MCH_CH_DONE_COUNT (i : Nat) : FRef := ⟨(0xE0 + i), 0x58, 0, 32, 0, 0⟩
def MCH_CH_BADS_COUNT (i : Nat) : FRef := ⟨(0xE0 + i), 0x5c, 0, 32, 0, 0⟩
def MCH_CH_BYTES_LO_COUNT (i : Nat) : FRef := ⟨(0xE0 + i), 0x60, 0, 32, 0, 0⟩
def MCH_CH_BYTES_HI_COUNT (i : Nat) : FRef := ⟨(0xE0 + i), 0x64, 0, 32, 0, 0⟩
def MCH_CH_REQ_HELD (i : Nat) : FRef := ⟨(0xE0 + i), 0x68, 0, 4, 0, 0⟩
def MCH_CH_REQ_CH_REQ_LOST (i : Nat) : FRef := ⟨(0xE0 + i), 0x68, 16, 16, 0, 0⟩

/-! Table IRQ-3. -/
def ICU_CFG_FALLBACK : FRef := ⟨0x5, 0x40, 0, 2, 0, 0⟩
def ICU_VEC_BASE_LO_ADDR : FRef := ⟨0x5, 0x44, 12, 20, 0, 0⟩
def ICU_VEC_BASE_HI_ADDR : FRef := ⟨0x5, 0x48, 0, 32, 0, 0⟩
def ICU_SRC_SEL_SOURCE : FRef := ⟨0x5, 0x4c, 0, 8, 0, 0⟩
def ICU_SRC_CFG_SENSE (b : Nat) : FRef := ⟨0x5, 0x50, 0, 3, (senseReset b), b⟩
def ICU_SRC_CFG_EN (b : Nat) : FRef := ⟨0x5, 0x50, 3, 1, 0, b⟩
def ICU_SRC_CFG_PRIO (b : Nat) : FRef := ⟨0x5, 0x50, 4, 4, 0, b⟩
def ICU_SRC_CFG_CORE (b : Nat) : FRef := ⟨0x5, 0x50, 8, 2, 0, b⟩
def ICU_SRC_CFG_HOST (b : Nat) : FRef := ⟨0x5, 0x50, 10, 1, 0, b⟩
def ICU_SRC_CFG_AON_WAKE (b : Nat) : FRef := ⟨0x5, 0x50, 11, 1, 0, b⟩
def ICU_SRC_CFG_MOD (b : Nat) : FRef := ⟨0x5, 0x50, 16, 16, 0, b⟩
def ICU_SRC_HOST_PORT (b : Nat) : FRef := ⟨0x5, 0x54, 0, 1, 0, b⟩
def ICU_SRC_HOST_FUNC (b : Nat) : FRef := ⟨0x5, 0x54, 1, 10, 0, b⟩
def ICU_SRC_HOST_MSI (b : Nat) : FRef := ⟨0x5, 0x54, 11, 1, 0, b⟩
def ICU_SRC_HOST_ENTRY (b : Nat) : FRef := ⟨0x5, 0x54, 12, 11, 0, b⟩
def ICU_SRC_STAT_LINE (b : Nat) : FRef := ⟨0x5, 0x58, 0, 1, 0, b⟩
def ICU_SRC_STAT_PENDING (b : Nat) : FRef := ⟨0x5, 0x58, 1, 1, 0, b⟩
def ICU_SRC_STAT_CLAIMED (b : Nat) : FRef := ⟨0x5, 0x58, 2, 1, 0, b⟩
def ICU_SRC_STAT_CLAIM_CORE (b : Nat) : FRef := ⟨0x5, 0x58, 3, 2, 0, b⟩
def ICU_SRC_STAT_MOD_WAIT (b : Nat) : FRef := ⟨0x5, 0x58, 5, 1, 0, b⟩
def ICU_SRC_STAT_OFF_WAIT (b : Nat) : FRef := ⟨0x5, 0x58, 6, 1, 0, b⟩
def ICU_PEND_SEL_WORD : FRef := ⟨0x5, 0x5c, 0, 3, 0, 0⟩
def ICU_PEND_PEND (b : Nat) : FRef := ⟨0x5, 0x60, 0, 32, 0, b⟩
def ICU_SWI_SET : FRef := ⟨0x5, 0x64, 0, 16, 0, 0⟩
def ICU_AON_LATCH_LATCH : FRef := ⟨0x5, 0x68, 1, 31, 0, 0⟩
def ICU_CTX_FIRST_PORT0 : FRef := ⟨0x5, 0x6c, 0, 12, 0, 0⟩
def ICU_CTX_FIRST_VALID0 : FRef := ⟨0x5, 0x6c, 12, 1, 0, 0⟩
def ICU_CTX_FIRST_PORT1 : FRef := ⟨0x5, 0x6c, 16, 12, 0, 0⟩
def ICU_CTX_FIRST_VALID1 : FRef := ⟨0x5, 0x6c, 28, 1, 0, 0⟩
def ICU_THR_THR : FRef := ⟨0x5, 0x70, 0, 16, 0, 0⟩
def ICU_EOI_SOURCE (n : Nat) : FRef := ⟨0x5, 0x74 + 4 * n, 0, 8, 0, 0⟩
def ICU_CORE_LAST (n : Nat) : FRef := ⟨0x5, 0x84 + 4 * n, 0, 8, 0, 0⟩
def ICU_CORE_RUN_PRIO (n : Nat) : FRef := ⟨0x5, 0x84 + 4 * n, 8, 4, 0, 0⟩
def ICU_CORE_WFI (n : Nat) : FRef := ⟨0x5, 0x84 + 4 * n, 12, 1, 0, 0⟩
def ICU_CORE_POWERED (n : Nat) : FRef := ⟨0x5, 0x84 + 4 * n, 13, 1, 0, 0⟩
def ICU_DELIVERED_COUNT : FRef := ⟨0x5, 0x94, 0, 32, 0, 0⟩
def ICU_SPURIOUS_COUNT : FRef := ⟨0x5, 0x98, 0, 32, 0, 0⟩
def ICU_FALLBACKS_COUNT : FRef := ⟨0x5, 0x9c, 0, 32, 0, 0⟩

/-! Table FAULT-5. -/
def FLT_FIRST_LO_MSG : FRef := ⟨0x4, 0x40, 0, 32, 0, 0⟩
def FLT_FIRST_HI_MSG : FRef := ⟨0x4, 0x44, 0, 32, 0, 0⟩
def FLT_FIRST_TIME_LO_NS : FRef := ⟨0x4, 0x48, 0, 32, 0, 0⟩
def FLT_FIRST_TIME_HI_NS : FRef := ⟨0x4, 0x4c, 0, 32, 0, 0⟩
def FLT_FIRST_INFO_ACCESS : FRef := ⟨0x4, 0x50, 0, 2, 0, 0⟩
def FLT_FIRST_INFO_MASTER : FRef := ⟨0x4, 0x50, 8, 10, 0, 0⟩
def FLT_FIRST_CLR_REARM : FRef := ⟨0x4, 0x54, 0, 1, 0, 0⟩
def FLT_STAT_CAPTURED : FRef := ⟨0x4, 0x58, 0, 1, 0, 0⟩
def FLT_STAT_DEV_FENCED : FRef := ⟨0x4, 0x58, 1, 1, 0, 0⟩
def FLT_STAT_FTEST : FRef := ⟨0x4, 0x58, 2, 1, 0, 0⟩
def FLT_STAT_QUEUE : FRef := ⟨0x4, 0x58, 8, 7, 0, 0⟩
def FLT_CNT_CORR_COUNT : FRef := ⟨0x4, 0x5c, 0, 32, 0, 0⟩
def FLT_CNT_DEF_COUNT : FRef := ⟨0x4, 0x60, 0, 32, 0, 0⟩
def FLT_CNT_CONT_COUNT : FRef := ⟨0x4, 0x64, 0, 32, 0, 0⟩
def FLT_CNT_FATAL_COUNT : FRef := ⟨0x4, 0x68, 0, 32, 0, 0⟩
def FLT_DROPPED_COUNT : FRef := ⟨0x4, 0x6c, 0, 32, 0, 0⟩
def FLT_KIND_SEL_KIND : FRef := ⟨0x4, 0x70, 0, 8, 0, 0⟩
def FLT_KIND_CFG_REACT (b : Nat) : FRef := ⟨0x4, 0x74, 0, 2, (kindReact b), b⟩
def FLT_KIND_CFG_MIN (b : Nat) : FRef := ⟨0x4, 0x74, 2, 2, (kindMin b), b⟩
def FLT_KIND_CFG_COUNT (b : Nat) : FRef := ⟨0x4, 0x74, 16, 16, 0, b⟩
def FLT_LOG_SEL_INDEX : FRef := ⟨0x4, 0x78, 0, 4, 0, 0⟩
def FLT_LOG_LO_MSG : FRef := ⟨0x4, 0x7c, 0, 32, 0, 0⟩
def FLT_LOG_HI_MSG : FRef := ⟨0x4, 0x80, 0, 32, 0, 0⟩
def FLT_LOG_TIME_US : FRef := ⟨0x4, 0x84, 0, 32, 0, 0⟩
def FLT_FENCE_SEL_PAGE : FRef := ⟨0x4, 0x88, 0, 13, 0, 0⟩
def FLT_FENCE_STAT_FENCED (b : Nat) : FRef := ⟨0x4, 0x8c, 0, 1, 0, b⟩
def FLT_FENCE_STAT_UNFENCE_OK (b : Nat) : FRef := ⟨0x4, 0x8c, 1, 1, 0, b⟩
def FLT_FENCE_STAT_KIND (b : Nat) : FRef := ⟨0x4, 0x8c, 2, 8, 0, b⟩
def FLT_FENCE_STAT_SEVERITY (b : Nat) : FRef := ⟨0x4, 0x8c, 10, 2, 0, b⟩
def FLT_WDOG_TIMEOUT_MS : FRef := ⟨0x4, 0x90, 0, 3, 5, 0⟩
def FLT_WDOG_ADMIN_CORE : FRef := ⟨0x4, 0x90, 4, 2, 0, 0⟩
def FLT_WDOG_HALTED : FRef := ⟨0x4, 0x90, 8, 4, 0, 0⟩
def FLT_INJ_LO_MSG : FRef := ⟨0x4, 0x98, 0, 32, 0, 0⟩
def FLT_INJ_HI_MSG : FRef := ⟨0x4, 0x9c, 0, 32, 0, 0⟩
def FLT_INJ_CTL_GO : FRef := ⟨0x4, 0xa0, 0, 1, 0, 0⟩
def FLT_CMD_OP : FRef := ⟨0x4, 0xa4, 0, 4, 0, 0⟩
def FLT_CMD_PAGE : FRef := ⟨0x4, 0xa4, 4, 10, 0, 0⟩
def FLT_CMD_GO : FRef := ⟨0x4, 0xa4, 31, 1, 0, 0⟩
def FLT_CMD_RES_STATUS : FRef := ⟨0x4, 0xa8, 0, 8, 0, 0⟩
def FLT_CMD_RES_DONE : FRef := ⟨0x4, 0xa8, 8, 1, 0, 0⟩

/-! Table POWER-6. -/
def CHIP_DEV_ID_ID : FRef := ⟨0x0, 0x40, 0, 16, 38464, 0⟩
def CHIP_STEPPING_STEP : FRef := ⟨0x0, 0x44, 0, 8, 177, 0⟩
def CHIP_DEV_STAT_READY : FRef := ⟨0x0, 0x48, 0, 1, 0, 0⟩
def CHIP_DEV_STAT_STOPPED : FRef := ⟨0x0, 0x48, 1, 1, 0, 0⟩
def CHIP_DEV_STAT_PHASE : FRef := ⟨0x0, 0x48, 4, 4, 0, 0⟩
def CHIP_DEV_STAT_WHY : FRef := ⟨0x0, 0x48, 8, 2, 0, 0⟩
def CHIP_DEV_STAT_COLD : FRef := ⟨0x0, 0x48, 10, 1, 0, 0⟩
def CHIP_NODE_ID_NODE : FRef := ⟨0x0, 0x4c, 0, 9, 0, 0⟩
def CHIP_DEV_TIME_LO_NS : FRef := ⟨0x0, 0x50, 0, 32, 0, 0⟩
def CHIP_DEV_TIME_HI_NS : FRef := ⟨0x0, 0x54, 0, 32, 0, 0⟩
def CHIP_OP_MINUTES_COUNT : FRef := ⟨0x0, 0x58, 0, 32, 0, 0⟩
def CHIP_PWR_CYCLES_COUNT : FRef := ⟨0x0, 0x5c, 0, 32, 0, 0⟩
def CHIP_MODE_UNBACKED : FRef := ⟨0x0, 0x60, 0, 1, 1, 0⟩
def CHIP_RESYNC_GO : FRef := ⟨0x0, 0x64, 0, 1, 0, 0⟩

/-! Table POWER-7. -/
def PWR_CFG_NIGHT_MODE : FRef := ⟨0x1, 0x40, 0, 2, 0, 0⟩
def PWR_CFG_STBY_EN : FRef := ⟨0x1, 0x40, 2, 1, 0, 0⟩
def PWR_CFG_NIGHT_S : FRef := ⟨0x1, 0x40, 8, 8, 60, 0⟩
def PWR_CFG_NIGHT_LOAD : FRef := ⟨0x1, 0x40, 16, 8, 20, 0⟩
def PWR_CFG_IDLE_US : FRef := ⟨0x1, 0x40, 24, 8, 10, 0⟩
def PWR_CTL_NIGHT_REQ : FRef := ⟨0x1, 0x44, 0, 1, 0, 0⟩
def PWR_CTL_DEV_RESET : FRef := ⟨0x1, 0x44, 1, 1, 0, 0⟩
def PWR_STAT_STATE : FRef := ⟨0x1, 0x48, 0, 3, 0, 0⟩
def PWR_STAT_BRACED : FRef := ⟨0x1, 0x48, 3, 1, 0, 0⟩
def PWR_STAT_VDD_WARN : FRef := ⟨0x1, 0x48, 4, 1, 0, 0⟩
def PWR_STAT_VDDIO_WARN : FRef := ⟨0x1, 0x48, 5, 1, 0, 0⟩
def PWR_STAT_VIN_WARN : FRef := ⟨0x1, 0x48, 6, 1, 0, 0⟩
def PWR_STAT_PWRFAIL : FRef := ⟨0x1, 0x48, 7, 1, 0, 0⟩
def PWR_STAT_LAST_RESET : FRef := ⟨0x1, 0x48, 8, 3, 0, 0⟩
def PWR_STAT_STBY_BLOCKED : FRef := ⟨0x1, 0x48, 11, 1, 0, 0⟩
def PWR_VDD_MV : FRef := ⟨0x1, 0x4c, 0, 16, 0, 0⟩
def PWR_VDD_MIN_MV : FRef := ⟨0x1, 0x4c, 16, 16, 65535, 0⟩
def PWR_VDDIO_MV : FRef := ⟨0x1, 0x50, 0, 16, 0, 0⟩
def PWR_VDDIO_MIN_MV : FRef := ⟨0x1, 0x50, 16, 16, 65535, 0⟩
def PWR_VIN_MV : FRef := ⟨0x1, 0x54, 0, 16, 0, 0⟩
def PWR_VIN_MIN_MV : FRef := ⟨0x1, 0x54, 16, 16, 65535, 0⟩
def PWR_TEMP_DECI_C : FRef := ⟨0x1, 0x58, 0, 16, 0, 0⟩
def PWR_TEMP_THR_WARN_C : FRef := ⟨0x1, 0x5c, 0, 8, 100, 0⟩
def PWR_TEMP_THR_CRIT_C : FRef := ⟨0x1, 0x5c, 8, 8, 115, 0⟩
def PWR_RAIL_SEQ : FRef := ⟨0x1, 0x60, 0, 3, 0, 0⟩
def PWR_RAIL_RAIL_OK : FRef := ⟨0x1, 0x60, 3, 1, 0, 0⟩
def PWR_RAIL_ATTEMPTS : FRef := ⟨0x1, 0x60, 4, 2, 0, 0⟩
def PWR_CLR_CLR_MIN : FRef := ⟨0x1, 0x64, 0, 1, 0, 0⟩

/-! Table POWER-8. -/
def CLK_STAT_XTAL_OK : FRef := ⟨0x2, 0x40, 0, 1, 0, 0⟩
def CLK_STAT_HCLK0_OK : FRef := ⟨0x2, 0x40, 1, 1, 0, 0⟩
def CLK_STAT_HCLK1_OK : FRef := ⟨0x2, 0x40, 2, 1, 0, 0⟩
def CLK_STAT_PLL_SRC : FRef := ⟨0x2, 0x40, 3, 1, 0, 0⟩
def CLK_STAT_PLL_LOCK : FRef := ⟨0x2, 0x40, 4, 1, 0, 0⟩
def CLK_STAT_TIME_GAP : FRef := ⟨0x2, 0x40, 5, 1, 0, 0⟩
def CLK_DREF_EN : FRef := ⟨0x2, 0x44, 0, 4, 15, 0⟩
def CLK_ALARM0_LO_NS : FRef := ⟨0x2, 0x48, 0, 32, 0, 0⟩
def CLK_ALARM0_HI_NS : FRef := ⟨0x2, 0x4c, 0, 32, 0, 0⟩
def CLK_ALARM1_LO_NS : FRef := ⟨0x2, 0x50, 0, 32, 0, 0⟩
def CLK_ALARM1_HI_NS : FRef := ⟨0x2, 0x54, 0, 32, 0, 0⟩
def CLK_ALARM_CTL_EN0 : FRef := ⟨0x2, 0x58, 0, 1, 0, 0⟩
def CLK_ALARM_CTL_EN1 : FRef := ⟨0x2, 0x58, 1, 1, 0, 0⟩
def CLK_ALARM_CTL_FIRED0 : FRef := ⟨0x2, 0x58, 8, 1, 0, 0⟩
def CLK_ALARM_CTL_FIRED1 : FRef := ⟨0x2, 0x58, 9, 1, 0, 0⟩
def CLK_WAKE_LAST_NS : FRef := ⟨0x2, 0x5c, 0, 16, 0, 0⟩

/-! Table ROLE-9. -/
def ROLE_STAT_INSTALL_STRAP : FRef := ⟨0x3, 0x40, 0, 1, 0, 0⟩
def ROLE_STAT_FTEST_STRAP : FRef := ⟨0x3, 0x40, 1, 1, 0, 0⟩
def ROLE_STAT_FACTORY : FRef := ⟨0x3, 0x40, 2, 1, 0, 0⟩
def ROLE_STAT_KEYS : FRef := ⟨0x3, 0x40, 4, 4, 0, 0⟩
def ROLE_STAT_SVN_FLOOR : FRef := ⟨0x3, 0x40, 8, 7, 0, 0⟩
def ROLE_SESS0_ROLE : FRef := ⟨0x3, 0x44, 0, 2, 0, 0⟩
def ROLE_SESS0_STRAP : FRef := ⟨0x3, 0x44, 2, 1, 0, 0⟩
def ROLE_SESS0_NONCE : FRef := ⟨0x3, 0x44, 3, 1, 0, 0⟩
def ROLE_SESS0_IDLE_S : FRef := ⟨0x3, 0x44, 4, 11, 0, 0⟩
def ROLE_SESS0_FAILS : FRef := ⟨0x3, 0x44, 16, 2, 0, 0⟩
def ROLE_SESS0_LOCKED : FRef := ⟨0x3, 0x44, 18, 1, 0, 0⟩
def ROLE_DENY_COUNT : FRef := ⟨0x3, 0x4c, 0, 32, 0, 0⟩
def ROLE_FW_RUNNING : FRef := ⟨0x3, 0x50, 0, 1, 0, 0⟩
def ROLE_FW_PREFERRED : FRef := ⟨0x3, 0x50, 1, 1, 0, 0⟩
def ROLE_FW_VALID0 : FRef := ⟨0x3, 0x50, 2, 1, 0, 0⟩
def ROLE_FW_VALID1 : FRef := ⟨0x3, 0x50, 3, 1, 0, 0⟩
def ROLE_FW_VERSION : FRef := ⟨0x3, 0x50, 16, 16, 0, 0⟩
def ROLE_KEY_CTL_KEY : FRef := ⟨0x3, 0x54, 0, 2, 0, 0⟩
def ROLE_KEY_CTL_GO : FRef := ⟨0x3, 0x54, 31, 1, 0, 0⟩
def ROLE_KEY_RES_STATUS : FRef := ⟨0x3, 0x58, 0, 8, 0, 0⟩
def ROLE_KEY_RES_DONE : FRef := ⟨0x3, 0x58, 8, 1, 0, 0⟩

/-! Table ROLE-10. -/
def EVR_CFG_SNAP_H : FRef := ⟨0x6, 0x40, 0, 8, 24, 0⟩
def EVR_STAT_USED : FRef := ⟨0x6, 0x44, 0, 16, 0, 0⟩
def EVR_STAT_RETIRED : FRef := ⟨0x6, 0x44, 16, 16, 0, 0⟩
def EVR_NEXT_SEQ_SEQ : FRef := ⟨0x6, 0x48, 0, 32, 0, 0⟩
def EVR_ENDS_OLDEST : FRef := ⟨0x6, 0x4c, 0, 15, 0, 0⟩
def EVR_ENDS_NEWEST : FRef := ⟨0x6, 0x4c, 16, 15, 0, 0⟩
def EVR_BUDGET_TOKENS : FRef := ⟨0x6, 0x50, 0, 12, 3600, 0⟩
def EVR_BUDGET_HELD : FRef := ⟨0x6, 0x50, 16, 12, 0, 0⟩
def EVR_LOST_COUNT : FRef := ⟨0x6, 0x54, 0, 32, 0, 0⟩
def EVR_OVERWR_COUNT : FRef := ⟨0x6, 0x58, 0, 32, 0, 0⟩
def EVR_MSEL_CODE : FRef := ⟨0x6, 0x5c, 0, 16, 0, 0⟩
def EVR_MVAL_LO_VALUE (b : Nat) : FRef := ⟨0x6, 0x60, 0, 32, 0, b⟩
def EVR_MVAL_HI_VALUE : FRef := ⟨0x6, 0x64, 0, 32, 0, 0⟩
def EVR_RD_SEL_PAGE : FRef := ⟨0x6, 0x68, 0, 15, 0, 0⟩
def EVR_CMD_OP : FRef := ⟨0x6, 0x6c, 0, 4, 0, 0⟩
def EVR_CMD_GO : FRef := ⟨0x6, 0x6c, 31, 1, 0, 0⟩
def EVR_CMD_RES_STATUS : FRef := ⟨0x6, 0x70, 0, 8, 0, 0⟩
def EVR_CMD_RES_DONE : FRef := ⟨0x6, 0x70, 8, 1, 0, 0⟩

/-! Table PAGE-1. -/
def PG_ID_VERSION (p : Nat) : FRef := ⟨p, 0x0, 0, 8, 1, 0⟩
def PG_ID_INSTANCE (p : Nat) : FRef := ⟨p, 0x0, 8, 8, (pageInstance p), 0⟩
def PG_ID_TYPE (p : Nat) : FRef := ⟨p, 0x0, 16, 16, (pageType p), 0⟩
def PG_REV_REV (p : Nat) : FRef := ⟨p, 0x4, 0, 16, 1, 0⟩
def PG_CTL_ENABLE (p : Nat) : FRef := ⟨p, 0x8, 0, 1, 0, 0⟩
def PG_CTL_BLOCK_RESET (p : Nat) : FRef := ⟨p, 0x8, 1, 1, 0, 0⟩
def PG_CTL_CLK_REQ (p : Nat) : FRef := ⟨p, 0x8, 2, 1, 0, 0⟩
def PG_CTL_FENCE_REQ (p : Nat) : FRef := ⟨p, 0x8, 3, 1, 0, 0⟩
def PG_STAT_READY (p : Nat) : FRef := ⟨p, 0xc, 0, 1, 0, 0⟩
def PG_STAT_BUSY (p : Nat) : FRef := ⟨p, 0xc, 1, 1, 0, 0⟩
def PG_STAT_FENCED (p : Nat) : FRef := ⟨p, 0xc, 2, 1, 0, 0⟩
def PG_STAT_ASLEEP (p : Nat) : FRef := ⟨p, 0xc, 3, 1, 0, 0⟩
def PG_STAT_FROZEN (p : Nat) : FRef := ⟨p, 0xc, 4, 1, 0, 0⟩
def PG_STAT_STATE (p : Nat) : FRef := ⟨p, 0xc, 8, 8, 0, 0⟩
def PG_EVT_EVT (p : Nat) : FRef := ⟨p, 0x10, 0, 32, 0, 0⟩
def PG_EVT_EN_EN (p : Nat) : FRef := ⟨p, 0x14, 0, 32, 0, 0⟩
def PG_EVT_SET_SET (p : Nat) : FRef := ⟨p, 0x18, 0, 32, 0, 0⟩
def PG_EVT_FIRST_BIT (p : Nat) : FRef := ⟨p, 0x1c, 0, 5, 0, 0⟩
def PG_EVT_FIRST_VALID (p : Nat) : FRef := ⟨p, 0x1c, 7, 1, 0, 0⟩
def PG_ECAP_ADDR_LO_ADDR (p : Nat) : FRef := ⟨p, 0x20, 0, 32, 0, 0⟩
def PG_ECAP_ADDR_HI_ADDR (p : Nat) : FRef := ⟨p, 0x24, 0, 8, 0, 0⟩
def PG_ECAP_INFO_ACCESS (p : Nat) : FRef := ⟨p, 0x28, 0, 2, 0, 0⟩
def PG_ECAP_INFO_MASTER (p : Nat) : FRef := ⟨p, 0x28, 8, 10, 0, 0⟩
def PG_ECAP_INFO_KIND (p : Nat) : FRef := ⟨p, 0x28, 24, 8, 0, 0⟩
def PG_ECAP_TIME_US (p : Nat) : FRef := ⟨p, 0x2c, 0, 32, 0, 0⟩
def PG_RIGHTS_OP_R (p : Nat) : FRef := ⟨p, 0x30, 0, 1, (rightsReset p 0), 0⟩
def PG_RIGHTS_OP_W (p : Nat) : FRef := ⟨p, 0x30, 1, 1, (rightsReset p 1), 0⟩
def PG_RIGHTS_INST_R (p : Nat) : FRef := ⟨p, 0x30, 2, 1, (rightsReset p 2), 0⟩
def PG_RIGHTS_INST_W (p : Nat) : FRef := ⟨p, 0x30, 3, 1, (rightsReset p 3), 0⟩
def PG_RIGHTS_MAKER_R (p : Nat) : FRef := ⟨p, 0x30, 4, 1, 1, 0⟩
def PG_RIGHTS_MAKER_W (p : Nat) : FRef := ⟨p, 0x30, 5, 1, 1, 0⟩
def PG_SEQ_COUNT (p : Nat) : FRef := ⟨p, 0x34, 0, 32, 0, 0⟩

/-! Table PAGE-6. -/
def SUM_STAT_VALID : FRef := ⟨0x8, 0x40, 0, 1, 0, 0⟩
def SUM_STAT_PENDING : FRef := ⟨0x8, 0x40, 1, 1, 0, 0⟩
def SUM_SEQ_SNAP_SEQ : FRef := ⟨0x8, 0x44, 0, 32, 0, 0⟩
def SUM_WIN_SEL_WIN : FRef := ⟨0x8, 0x48, 0, 5, 0, 0⟩

/-! Table PAGE-7. -/
def MGC_STAT_POWERED (i : Nat) : FRef := ⟨(0x110 + i), 0x40, 0, 1, (if i = 0 then 1 else 0), 0⟩
def MGC_STAT_WFI (i : Nat) : FRef := ⟨(0x110 + i), 0x40, 1, 1, 0, 0⟩
def MGC_STAT_HALTED (i : Nat) : FRef := ⟨(0x110 + i), 0x40, 2, 1, 0, 0⟩
def MGC_STAT_ADMIN (i : Nat) : FRef := ⟨(0x110 + i), 0x40, 3, 1, (if i = 0 then 1 else 0), 0⟩
def MGC_PC_LO_PC (i : Nat) : FRef := ⟨(0x110 + i), 0x44, 0, 32, 0, 0⟩
def MGC_PC_HI_PC (i : Nat) : FRef := ⟨(0x110 + i), 0x48, 0, 32, 0, 0⟩

/-! PG_EVT bit numbers, from the PG_EVT rows of the page tables. -/
def ADM_EVT_WAIT_FULL : Nat := 0
def ADM_EVT_SET_FULL : Nat := 1
def ADM_EVT_FREEZE_DONE : Nat := 2
def JNL_EVT_JM_LOST : Nat := 0
def JNL_EVT_REMIRROR_DONE : Nat := 1
def JNL_EVT_STALL50 : Nat := 2
def JNL_EVT_ECC_CORR : Nat := 3
def BUR_EVT_KAT_DONE : Nat := 0
def BUR_EVT_SELFCHK : Nat := 1
def BUR_EVT_WOKE : Nat := 2
def PLT_EVT_STATE_CHG : Nat := 0
def PLT_EVT_MEMBER_FAIL : Nat := 1
def PLT_EVT_LOST_ADD : Nat := 2
def PLT_EVT_REPAIR : Nat := 3
def PLT_EVT_PASS_DONE : Nat := 4
def PLT_EVT_LBT_FULL : Nat := 5
def RBD_EVT_SLICE_LATE : Nat := 0
def RBD_EVT_CKPT_ERR : Nat := 1
def RBD_EVT_PASS_START : Nat := 2
def PRF_EVT_REPAIR : Nat := 0
def PRF_EVT_SUSPECT_ADD : Nat := 1
def PRF_EVT_CYCLE_DONE : Nat := 2
def PRF_EVT_OVERDUE : Nat := 3
def PRF_EVT_SLICE_LATE : Nat := 4
def PRF_EVT_SUSPECT_FULL : Nat := 5
def PRF_EVT_SUSPECT_CLR : Nat := 6
def CCH_EVT_MODE_CHG : Nat := 0
def CCH_EVT_PMIR_LOST : Nat := 1
def CCH_EVT_PMIR_BACK : Nat := 2
def CCH_EVT_WT_ON : Nat := 3
def CCH_EVT_WT_OFF : Nat := 4
def CCH_EVT_LOSTW_ADD : Nat := 5
def CCH_EVT_BRACE : Nat := 6
def VLT_EVT_READY_CHG : Nat := 0
def VLT_EVT_RATE_LOW : Nat := 1
def VLT_EVT_REPLAY_DONE : Nat := 2
def VLT_EVT_PARTIAL : Nat := 3
def VLT_EVT_UNLISTED : Nat := 4
def VLT_EVT_IMAGE_LOST : Nat := 5
def BEM_EVT_PRES_CHG : Nat := 0
def BEM_EVT_AUTH_FAIL : Nat := 1
def BEM_EVT_REST_READ : Nat := 2
def BEM_EVT_JUMP : Nat := 3
def BEM_EVT_LEARN_DONE : Nat := 4
def BEM_EVT_LEARN_DQ : Nat := 5
def BEM_EVT_RESTWIN_FAIL : Nat := 6
def BEM_EVT_CONF_DROP : Nat := 7
def BEM_EVT_STORE_ERR : Nat := 8
def BEM_EVT_NTC_FAULT : Nat := 9
def BEM_EVT_ISAT : Nat := 10
def CTX_EVT_ERROR : Nat := 0
def CTX_EVT_PAUSED : Nat := 1
def CTX_EVT_RESET_DONE : Nat := 2
def CTX_EVT_DB_DISCARD : Nat := 3
def CTX_EVT_CFG_BAD : Nat := 4
def TSC_EVT_ROUND_LATE : Nat := 0
def TSC_EVT_TIMELINE_BACK : Nat := 1
def TSC_EVT_CAP_REFUSED : Nat := 2
def MTR_EVT_EPOCH_DONE : Nat := 0
def MTR_EVT_DROP : Nat := 1
def MTR_EVT_TIME_STEP : Nat := 2
def MTR_EVT_SLEW_DONE : Nat := 3
def HEP_EVT_LINK_UP : Nat := 0
def HEP_EVT_LINK_DOWN : Nat := 1
def HEP_EVT_RATE_CHG : Nat := 2
def HEP_EVT_FLR : Nat := 3
def HEP_EVT_BME_OFF : Nat := 4
def HEP_EVT_CPL_TMO : Nat := 5
def HEP_EVT_LATE_CPL : Nat := 6
def HEP_EVT_D_STATE : Nat := 7
def HEP_EVT_AER_UNCORR : Nat := 8
def DPT_EVT_ABP : Nat := 0
def DPT_EVT_PFD : Nat := 1
def DPT_EVT_PDC : Nat := 3
def DPT_EVT_DLLSC : Nat := 8
def DPT_EVT_READY : Nat := 9
def DPT_EVT_TIMEOUT : Nat := 10
def DPT_EVT_SMART_WARN : Nat := 11
def DPT_EVT_RESV_LOST : Nat := 12
def DPT_EVT_REMOVE_REFUSED : Nat := 13
def DPT_EVT_CANCEL : Nat := 14
def DPT_EVT_INIT_FAIL : Nat := 15
def SSB_EVT_CHAIN_FAULT : Nat := 0
def SSB_EVT_CHAIN_OK : Nat := 1
def DMC_EVT_CE : Nat := 0
def DMC_EVT_UE : Nat := 1
def DMC_EVT_CE_STORM : Nat := 2
def DMC_EVT_RELEASED : Nat := 3
def DMC_EVT_TRAIN_FAIL : Nat := 4
def DMC_EVT_FREQ_DONE : Nat := 5
def DMC_EVT_INIT_DONE : Nat := 6
def DMC_EVT_SCRUB_DONE : Nat := 7
def TLK_EVT_UP : Nat := 0
def TLK_EVT_DOWN : Nat := 1
def TLK_EVT_DEGRADED : Nat := 2
def TLK_EVT_RETRAIN : Nat := 3
def TLK_EVT_REPLAY_LIMIT : Nat := 4
def TLK_EVT_ID_CONFLICT : Nat := 5
def TLK_EVT_HOP_DROP : Nat := 6
def TRT_EVT_LEASE_EXPIRED : Nat := 0
def TRT_EVT_TAKEOVER_DONE : Nat := 1
def TRT_EVT_TAKEOVER_FAIL : Nat := 2
def TRT_EVT_STANDBY_LOST : Nat := 3
def TRT_EVT_FENCE_RCVD : Nat := 4
def TRT_EVT_ATTACHED : Nat := 5
def TRT_EVT_UNROUTABLE : Nat := 6
def MCH_EVT_END : Nat := 0
def MCH_EVT_BAD : Nat := 1
def MCH_EVT_MISMATCH : Nat := 2
def MCH_EVT_FETCH_ERR : Nat := 3
def ICU_EVT_EOI_BAD : Nat := 0
def ICU_EVT_FALLBACK : Nat := 1
def ICU_EVT_SPURIOUS : Nat := 2
def FLT_EVT_CORRECTED : Nat := 0
def FLT_EVT_DEFERRED : Nat := 1
def FLT_EVT_CONTAINED : Nat := 2
def FLT_EVT_FATAL : Nat := 3
def FLT_EVT_FIRST : Nat := 4
def FLT_EVT_UNIT_FENCED : Nat := 5
def FLT_EVT_DEV_FENCED : Nat := 6
def FLT_EVT_WDOG : Nat := 7
def FLT_EVT_DROPPED : Nat := 8
def CHIP_EVT_READY : Nat := 0
def CHIP_EVT_STOPPED : Nat := 1
def PWR_EVT_VDD_WARN : Nat := 0
def PWR_EVT_VDDIO_WARN : Nat := 1
def PWR_EVT_VIN_WARN : Nat := 2
def PWR_EVT_TEMP_WARN : Nat := 3
def PWR_EVT_STATE_CHG : Nat := 4
def PWR_EVT_RAIL_RETRY : Nat := 5
def CLK_EVT_XTAL_STOP : Nat := 0
def CLK_EVT_HCLK_LOST : Nat := 1
def ROLE_EVT_ELEVATED : Nat := 0
def ROLE_EVT_REFUSED : Nat := 1
def ROLE_EVT_SESSION_END : Nat := 2
def ROLE_EVT_DENIED : Nat := 3
def ROLE_EVT_KEY_PROG : Nat := 4
def ROLE_EVT_LOCKOUT : Nat := 5
def EVR_EVT_OVERWRITE : Nat := 0
def EVR_EVT_DROP : Nat := 1
def EVR_EVT_RETIRE : Nat := 2
def EVR_EVT_BUDGET_EMPTY : Nat := 3
def EVR_EVT_STORE_ERR : Nat := 4
def MGC_EVT_HALTED : Nat := 0

end Reg

open Reg

/-- The fields of a ADM page with access code and range (R443). -/
def rowsADM : List RegRow :=
  [⟨ADM_CFG_STREAM_EN, .rw, 0, 1⟩,
   ⟨ADM_CFG_STAGE_READ_EN, .rw, 0, 1⟩,
   ⟨ADM_STAT_FROZEN, .ro, 0, 1⟩,
   ⟨ADM_STAT_WAIT_FULL, .ro, 0, 1⟩,
   ⟨ADM_LOCKS_HELD, .ro, 0, 524287⟩,
   ⟨ADM_LOCK_HWM_HWM, .ro, 0, 524287⟩,
   ⟨ADM_WAIT_ITEMS, .ro, 0, 32767⟩,
   ⟨ADM_WAIT_HWM, .ro, 0, 32767⟩,
   ⟨ADM_CLR_CLR_HWM, .wo, 0, 1⟩,
   ⟨ADM_DECIDED_LO_COUNT, .ro, 0, 4294967295⟩,
   ⟨ADM_DECIDED_HI_COUNT, .ro, 0, 4294967295⟩,
   ⟨ADM_QUEUED_COUNT, .ro, 0, 4294967295⟩] ++
  [⟨ADM_REFUSED_COUNT, .ro, 0, 4294967295⟩,
   ⟨ADM_BUSY_COUNT, .ro, 0, 4294967295⟩,
   ⟨ADM_PROBE_LO_SN_LO, .rw, 0, 4294967295⟩,
   ⟨ADM_PROBE_HI_SN_HI, .rw, 0, 31⟩,
   ⟨ADM_PROBE_HI_PLATE, .rw, 0, 63⟩,
   ⟨ADM_PROBE_RES_LO_ENTRY_LO, .ro, 0, 4294967295⟩,
   ⟨ADM_PROBE_RES_HI_ENTRY_HI, .ro, 0, 4294967295⟩]

/-- The fields of a JNL page with access code and range (R443). -/
def rowsJNL (sel : FRef → Nat) : List RegRow :=
  [⟨JNL_STAT_UNBACKED, .ro, 0, 1⟩,
   ⟨JNL_STAT_STALL, .ro, 0, 1⟩,
   ⟨JNL_STAT_REMIRROR, .ro, 0, 1⟩,
   ⟨JNL_OCC_USED, .ro, 0, 65535⟩,
   ⟨JNL_OCC_HWM, .ro, 0, 65535⟩,
   ⟨JNL_CNT_A_OPEN, .ro, 0, 65535⟩,
   ⟨JNL_CNT_A_STAGED, .ro, 0, 65535⟩,
   ⟨JNL_CNT_B_PARITY, .ro, 0, 65535⟩,
   ⟨JNL_CNT_B_COMMITTED, .ro, 0, 65535⟩,
   ⟨JNL_PLATE_SEL_PLATE, .rw, 0, 63⟩,
   ⟨JNL_MEMBERS_MEMBER_A (sel (JNL_PLATE_SEL_PLATE)), .ro, 0, 127⟩,
   ⟨JNL_MEMBERS_A_VALID (sel (JNL_PLATE_SEL_PLATE)), .ro, 0, 1⟩] ++
  [⟨JNL_MEMBERS_MEMBER_B (sel (JNL_PLATE_SEL_PLATE)), .ro, 0, 127⟩,
   ⟨JNL_MEMBERS_B_VALID (sel (JNL_PLATE_SEL_PLATE)), .ro, 0, 1⟩,
   ⟨JNL_MEMBERS_COPY_PCT (sel (JNL_PLATE_SEL_PLATE)), .ro, 0, 127⟩,
   ⟨JNL_LOG_USED_BLOCKS (sel (JNL_PLATE_SEL_PLATE)), .ro, 0, 511⟩,
   ⟨JNL_OLDEST_AGE_US, .ro, 0, 4294967295⟩,
   ⟨JNL_CLR_CLR_HWM, .wo, 0, 1⟩]

/-- The fields of a BUR page with access code and range (R443). -/
def rowsBUR (i : Nat) : List RegRow :=
  [⟨BUR_CFG_IDLE_OFF i, .rw, 0, 1⟩,
   ⟨BUR_CFG_MAINT_MIN i, .rw, 0, 255⟩,
   ⟨BUR_STAT_JOBS i, .ro, 0, 31⟩,
   ⟨BUR_STAT_POWERED i, .ro, 0, 1⟩,
   ⟨BUR_STAT_KAT i, .ro, 0, 3⟩,
   ⟨BUR_KAT_START i, .w1s, 0, 1⟩,
   ⟨BUR_BYTES_LO_COUNT i, .ro, 0, 4294967295⟩,
   ⟨BUR_BYTES_HI_COUNT i, .ro, 0, 4294967295⟩,
   ⟨BUR_MAINT_LO_COUNT i, .ro, 0, 4294967295⟩,
   ⟨BUR_MAINT_HI_COUNT i, .ro, 0, 4294967295⟩,
   ⟨BUR_SELFCHK_COUNT i, .ro, 0, 4294967295⟩]

/-- The fields of a PLT page with access code and range (R443). -/
def rowsPLT (sel : FRef → Nat) (i : Nat) : List RegRow :=
  [⟨PLT_CFG_AUTO_REBUILD i, .rwi, 0, 1⟩,
   ⟨PLT_CFG_AUTO_RETURN i, .rwi, 0, 1⟩,
   ⟨PLT_CFG_READ_REPAIR i, .rwi, 0, 1⟩,
   ⟨PLT_CFG_AUTO_COPYBACK i, .rwi, 0, 1⟩,
   ⟨PLT_CFG_READ_ERR_LIMIT i, .rwi, 0, 255⟩,
   ⟨PLT_CFG_FLOOR_PCT i, .rwi, 1, 100⟩,
   ⟨PLT_CFG_CEIL_PCT i, .rwi, 0, 127⟩,
   ⟨PLT_BW_MEMBER_BW i, .rwi, 1, 65535⟩,
   ⟨PLT_STAT_STATE i, .ro, 0, 15⟩,
   ⟨PLT_STAT_DEFINED i, .ro, 0, 1⟩,
   ⟨PLT_STAT_U i, .ro, 0, 7⟩,
   ⟨PLT_STAT_PASS i, .ro, 0, 1⟩] ++
  [⟨PLT_STAT_FAILED_LATCH i, .ro, 0, 1⟩,
   ⟨PLT_STAT_RANGES i, .ro, 0, 3⟩,
   ⟨PLT_STAT_ONLINE i, .ro, 0, 255⟩,
   ⟨PLT_GEOM_N i, .ro, 0, 255⟩,
   ⟨PLT_GEOM_W i, .ro, 0, 255⟩,
   ⟨PLT_GEOM_L i, .ro, 0, 255⟩,
   ⟨PLT_GEOM_STRIP_SHIFT i, .ro, 0, 31⟩,
   ⟨PLT_ROWS_ROWS i, .ro, 0, 4294967295⟩,
   ⟨PLT_CURSOR_LO_SN_LO i, .ro, 0, 4294967295⟩,
   ⟨PLT_CURSOR_HI_SN_HI i, .ro, 0, 31⟩,
   ⟨PLT_CURSOR_HI_PCT i, .ro, 0, 127⟩,
   ⟨PLT_CKPT_LO_SN_LO i, .ro, 0, 4294967295⟩] ++
  [⟨PLT_CKPT_HI_SN_HI i, .ro, 0, 31⟩,
   ⟨PLT_LBT_COUNT i, .ro, 0, 131071⟩,
   ⟨PLT_LBT_FULL i, .ro, 0, 1⟩,
   ⟨PLT_REPAIRED_COUNT i, .ro, 0, 4294967295⟩,
   ⟨PLT_RECON_COUNT i, .ro, 0, 4294967295⟩,
   ⟨PLT_TAGERR_COUNT i, .ro, 0, 4294967295⟩,
   ⟨PLT_BUDGET_BYTES i, .ro, 0, 4294967295⟩,
   ⟨PLT_MSEL_MEMBER i, .rw, 0, 127⟩,
   ⟨PLT_MINFO_STATE i (sel (PLT_MSEL_MEMBER i)), .ro, 0, 15⟩,
   ⟨PLT_MINFO_HOSTING i (sel (PLT_MSEL_MEMBER i)), .ro, 0, 1⟩,
   ⟨PLT_MINFO_PORT i (sel (PLT_MSEL_MEMBER i)), .ro, 0, 63⟩,
   ⟨PLT_MINFO_FAIL_SEQ i (sel (PLT_MSEL_MEMBER i)), .ro, 0, 65535⟩] ++
  [⟨PLT_MERR_COUNT i (sel (PLT_MSEL_MEMBER i)), .ro, 0, 65535⟩,
   ⟨PLT_CMD_OP i, .rwi, 0, 7⟩,
   ⟨PLT_CMD_MEMBER i, .rwi, 0, 127⟩,
   ⟨PLT_CMD_GO i, .w1s, 0, 1⟩,
   ⟨PLT_CMD_PORT_PORT i, .rwi, 0, 63⟩,
   ⟨PLT_CMD_NSID_NSID i, .rwi, 0, 4294967295⟩,
   ⟨PLT_CMD_RES_STATUS i, .ro, 0, 255⟩,
   ⟨PLT_CMD_RES_DONE i, .ro, 0, 1⟩]

/-- The fields of a RBD page with access code and range (R443). -/
def rowsRBD : List RegRow :=
  [⟨RBD_CFG_SLICE_US, .rwi, 100, 10000⟩,
   ⟨RBD_CFG_STEPS_MAX, .rwi, 1, 255⟩,
   ⟨RBD_CKPT_CKPT_STRIPES, .rwi, 1, 16777215⟩,
   ⟨RBD_CKPT_CKPT_S, .rwi, 1, 255⟩,
   ⟨RBD_CTL_PAUSE_ALL, .rwi, 0, 1⟩,
   ⟨RBD_ACTIVE_LO_PLATES, .ro, 0, 4294967295⟩,
   ⟨RBD_ACTIVE_HI_PLATES, .ro, 0, 4294967295⟩,
   ⟨RBD_STEPS_COUNT, .ro, 0, 255⟩,
   ⟨RBD_LATE_COUNT, .ro, 0, 4294967295⟩,
   ⟨RBD_BYTES_LO_COUNT, .ro, 0, 4294967295⟩,
   ⟨RBD_BYTES_HI_COUNT, .ro, 0, 4294967295⟩]

/-- The fields of a PRF page with access code and range (R443). -/
def rowsPRF (sel : FRef → Nat) : List RegRow :=
  [⟨PRF_CFG_AUTO, .rwi, 0, 1⟩,
   ⟨PRF_CFG_REPAIR, .rwi, 0, 1⟩,
   ⟨PRF_CFG_PERIOD_DAYS, .rwi, 1, 255⟩,
   ⟨PRF_CFG_IDLE_PCT, .rwi, 0, 100⟩,
   ⟨PRF_SLICE_SLICE_US, .rwi, 100, 10000⟩,
   ⟨PRF_SLICE_UNITS_MAX, .rwi, 1, 255⟩,
   ⟨PRF_CTL_PAUSE_ALL, .rwi, 0, 1⟩,
   ⟨PRF_ACTIVE_LO_PLATES, .ro, 0, 4294967295⟩,
   ⟨PRF_ACTIVE_HI_PLATES, .ro, 0, 4294967295⟩,
   ⟨PRF_UNITS_COUNT, .ro, 0, 255⟩,
   ⟨PRF_PSEL_PLATE, .rw, 0, 63⟩,
   ⟨PRF_PCUR_LO_SN_LO (sel (PRF_PSEL_PLATE)), .ro, 0, 4294967295⟩] ++
  [⟨PRF_PCUR_HI_SN_HI (sel (PRF_PSEL_PLATE)), .ro, 0, 31⟩,
   ⟨PRF_PCUR_HI_PCT (sel (PRF_PSEL_PLATE)), .ro, 0, 127⟩,
   ⟨PRF_PSTAT_RUNNING (sel (PRF_PSEL_PLATE)), .ro, 0, 1⟩,
   ⟨PRF_PSTAT_SUSPENDED (sel (PRF_PSEL_PLATE)), .ro, 0, 1⟩,
   ⟨PRF_PSTAT_OVERDUE (sel (PRF_PSEL_PLATE)), .ro, 0, 1⟩,
   ⟨PRF_PSTAT_AGE_H (sel (PRF_PSEL_PLATE)), .ro, 0, 65535⟩,
   ⟨PRF_PLAST_OP_MIN (sel (PRF_PSEL_PLATE)), .ro, 0, 4294967295⟩,
   ⟨PRF_CHECKED_LO_COUNT, .ro, 0, 4294967295⟩,
   ⟨PRF_CHECKED_HI_COUNT, .ro, 0, 4294967295⟩,
   ⟨PRF_REPAIRS_COUNT, .ro, 0, 4294967295⟩,
   ⟨PRF_SUSP_COUNT, .ro, 0, 8191⟩,
   ⟨PRF_SUSP_FULL, .ro, 0, 1⟩] ++
  [⟨PRF_LATE_COUNT, .ro, 0, 4294967295⟩,
   ⟨PRF_SSEL_INDEX, .rw, 0, 4095⟩,
   ⟨PRF_SENT_SN_LO_SN_LO (sel (PRF_SSEL_INDEX)), .ro, 0, 4294967295⟩,
   ⟨PRF_SENT_SN_HI_SN_HI (sel (PRF_SSEL_INDEX)), .ro, 0, 31⟩,
   ⟨PRF_SENT_SN_HI_PLATE (sel (PRF_SSEL_INDEX)), .ro, 0, 63⟩,
   ⟨PRF_SENT_SN_HI_CAUSE (sel (PRF_SSEL_INDEX)), .ro, 0, 7⟩,
   ⟨PRF_SENT_SN_HI_VALID (sel (PRF_SSEL_INDEX)), .ro, 0, 1⟩,
   ⟨PRF_SENT_BLK_BLK_FIRST (sel (PRF_SSEL_INDEX)), .ro, 0, 255⟩,
   ⟨PRF_SENT_BLK_BLK_LAST (sel (PRF_SSEL_INDEX)), .ro, 0, 255⟩,
   ⟨PRF_SENT_TIME_OP_MIN (sel (PRF_SSEL_INDEX)), .ro, 0, 4294967295⟩,
   ⟨PRF_CMD_OP, .rwi, 0, 4⟩,
   ⟨PRF_CMD_PLATE, .rwi, 0, 63⟩] ++
  [⟨PRF_CMD_GO, .w1s, 0, 1⟩,
   ⟨PRF_CMD_RES_STATUS, .ro, 0, 255⟩,
   ⟨PRF_CMD_RES_DONE, .ro, 0, 1⟩]

/-- The fields of a CCH page with access code and range (R443). -/
def rowsCCH : List RegRow :=
  [⟨CCH_CFG_CACHE_EN, .rwi, 0, 1⟩,
   ⟨CCH_CFG_PARTNER_EN, .rwi, 0, 1⟩,
   ⟨CCH_CFG_FORCE_UNBACKED, .rwi, 0, 1⟩,
   ⟨CCH_CFG_HIGH_PCT, .rwi, 1, 100⟩,
   ⟨CCH_CFG_AGE_S, .rwi, 1, 255⟩,
   ⟨CCH_CFG_DESTAGE_MAX, .rwi, 1, 255⟩,
   ⟨CCH_GEOM_CACHE_GIB, .rwl, 0, 255⟩,
   ⟨CCH_GEOM_PPOOL_GIB, .rwl, 0, 255⟩,
   ⟨CCH_TIME_TIME_MS, .rwi, 1, 65535⟩,
   ⟨CCH_HYST_MIB, .rwi, 1, 65535⟩,
   ⟨CCH_HYST_HOLD_S, .rwi, 1, 255⟩,
   ⟨CCH_DIRTY_CEIL_SLOTS, .ro, 0, 33554431⟩] ++
  [⟨CCH_EBOUND_SLOTS, .ro, 0, 33554431⟩,
   ⟨CCH_TBOUND_SLOTS, .ro, 0, 33554431⟩,
   ⟨CCH_DIRTY_SLOTS, .ro, 0, 33554431⟩,
   ⟨CCH_MODE_UNBACKED, .ro, 0, 1⟩,
   ⟨CCH_MODE_BRACED, .ro, 0, 1⟩,
   ⟨CCH_MODE_WRITE_THROUGH, .ro, 0, 1⟩,
   ⟨CCH_MODE_PARTNER_ACTIVE, .ro, 0, 1⟩,
   ⟨CCH_MODE_CAUSE, .ro, 0, 15⟩,
   ⟨CCH_PMIR_TMO_US, .rwi, 1, 65535⟩,
   ⟨CCH_OLDEST_AGE_MS, .ro, 0, 4294967295⟩,
   ⟨CCH_DESTAGED_COUNT, .ro, 0, 4294967295⟩,
   ⟨CCH_MODE_CNT_COUNT, .ro, 0, 4294967295⟩] ++
  [⟨CCH_LOSTW_ENTRIES, .ro, 0, 32767⟩,
   ⟨CCH_LOSTW_MERGED, .ro, 0, 1⟩,
   ⟨CCH_CMD_OP, .rwi, 0, 2⟩,
   ⟨CCH_CMD_VOLUME, .rwi, 0, 16383⟩,
   ⟨CCH_CMD_GO, .w1s, 0, 1⟩,
   ⟨CCH_CMD_RES_STATUS, .ro, 0, 255⟩,
   ⟨CCH_CMD_RES_DONE, .ro, 0, 1⟩]

/-- The fields of a VLT page with access code and range (R443). -/
def rowsVLT : List RegRow :=
  [⟨VLT_CFG_PORT, .rwi, 0, 63⟩,
   ⟨VLT_CFG_EN, .rwi, 0, 1⟩,
   ⟨VLT_CFG_MIRROR, .rwi, 0, 1⟩,
   ⟨VLT_CFG_MPORT, .rwi, 0, 63⟩,
   ⟨VLT_NSID_NSID, .rwi, 0, 4294967295⟩,
   ⟨VLT_MNSID_NSID, .rwi, 0, 4294967295⟩,
   ⟨VLT_RATE_RATE_MBS, .rwi, 1, 65535⟩,
   ⟨VLT_RATE_MEAS_MBS, .ro, 0, 65535⟩,
   ⟨VLT_TIMING_SETUP_US, .rwi, 100, 65535⟩,
   ⟨VLT_TIMING_ASM_WAIT_S, .rwi, 0, 255⟩,
   ⟨VLT_FIXED_US_US, .ro, 0, 4294967295⟩,
   ⟨VLT_STAT_READY, .ro, 0, 1⟩] ++
  [⟨VLT_STAT_MIRROR_OK, .ro, 0, 1⟩,
   ⟨VLT_STAT_REPLAYING, .ro, 0, 1⟩,
   ⟨VLT_STAT_FOUND, .ro, 0, 1⟩,
   ⟨VLT_STAT_PARTIAL, .ro, 0, 1⟩,
   ⟨VLT_STAT_UNLISTED, .ro, 0, 1⟩,
   ⟨VLT_STAT_IMAGE_LOST, .ro, 0, 1⟩,
   ⟨VLT_STAT_DIRTY_LATCH, .ro, 0, 1⟩,
   ⟨VLT_STAT_WHY, .ro, 0, 15⟩,
   ⟨VLT_STAT_SKIPPED, .ro, 0, 1⟩,
   ⟨VLT_REQ_MIB_MIB, .ro, 0, 4294967295⟩,
   ⟨VLT_LAST_SEQ_SEQ, .ro, 0, 4294967295⟩,
   ⟨VLT_LAST_CHUNKS_COUNT, .ro, 0, 4294967295⟩] ++
  [⟨VLT_LAST_VALID_COUNT, .ro, 0, 4294967295⟩,
   ⟨VLT_LAST_LOST_COUNT, .ro, 0, 4294967295⟩,
   ⟨VLT_CMD_OP, .rwi, 0, 1⟩,
   ⟨VLT_CMD_GO, .w1s, 0, 1⟩,
   ⟨VLT_CMD_RES_STATUS, .ro, 0, 255⟩,
   ⟨VLT_CMD_RES_DONE, .ro, 0, 1⟩]

/-- The fields of a BEM page with access code and range (R443). -/
def rowsBEM (sel : FRef → Nat) : List RegRow :=
  [⟨BEM_CFG_AUTH_EN, .rwi, 0, 1⟩,
   ⟨BEM_CFG_LEARN_EN, .rwi, 0, 1⟩,
   ⟨BEM_CFG_SMB_400K, .rwi, 0, 1⟩,
   ⟨BEM_CFG_CELLS, .rwi, 1, 8⟩,
   ⟨BEM_CFG_SMB_ADDR, .rwi, 0, 127⟩,
   ⟨BEM_CFG_EFF_PCT, .rwi, 50, 100⟩,
   ⟨BEM_CFG_LEARN_DAYS, .rwi, 0, 255⟩,
   ⟨BEM_SHUNT_UOHM, .rwi, 100, 16777215⟩,
   ⟨BEM_NTC_NOM_OHM, .rwi, 1, 65535⟩,
   ⟨BEM_NTC_BETA, .rwi, 1, 65535⟩,
   ⟨BEM_DUMP_P_10MW, .rwi, 1, 65535⟩,
   ⟨BEM_DUMP_MEAS_10MW, .ro, 0, 65535⟩] ++
  [⟨BEM_REST_REST_MA, .rwi, 1, 4095⟩,
   ⟨BEM_REST_SOC_MIN, .rwi, 0, 100⟩,
   ⟨BEM_REST_HIB_S, .rwi, 1, 255⟩,
   ⟨BEM_OCV_SEL_INDEX, .rw, 0, 10⟩,
   ⟨BEM_OCV_VAL_MV (sel (BEM_OCV_SEL_INDEX)), .rwi, 0, 65535⟩,
   ⟨BEM_Q_LEARN_MAH, .ro, 0, 65535⟩,
   ⟨BEM_Q_DESIGN_MAH, .ro, 0, 65535⟩,
   ⟨BEM_SOC_PPM, .ro, 0, 1048575⟩,
   ⟨BEM_SOC_SRC, .ro, 0, 3⟩,
   ⟨BEM_SOC_VALID, .ro, 0, 1⟩,
   ⟨BEM_CONF_CONF_PCT, .ro, 0, 127⟩,
   ⟨BEM_CONF_TEMP_PCT, .ro, 0, 127⟩] ++
  [⟨BEM_CONF_DAYS_NO_REST, .ro, 0, 255⟩,
   ⟨BEM_MEAS_V_CODE, .ro, 0, 65535⟩,
   ⟨BEM_MEAS_V_PACK_MV, .ro, 0, 65535⟩,
   ⟨BEM_MEAS_I_CODE, .ro, 0, 65535⟩,
   ⟨BEM_MEAS_I_MA, .ro, 0, 65535⟩,
   ⟨BEM_MEAS_T_CODE, .ro, 0, 65535⟩,
   ⟨BEM_MEAS_T_DECI_C, .ro, 0, 65535⟩,
   ⟨BEM_STAT_STATE, .ro, 0, 3⟩,
   ⟨BEM_STAT_PRESENT, .ro, 0, 1⟩,
   ⟨BEM_STAT_AUTH, .ro, 0, 3⟩,
   ⟨BEM_STAT_REST, .ro, 0, 1⟩,
   ⟨BEM_STAT_RESTWIN, .ro, 0, 1⟩] ++
  [⟨BEM_STAT_CHG_INHIBIT, .ro, 0, 1⟩,
   ⟨BEM_STAT_BAT_LOAD, .ro, 0, 1⟩,
   ⟨BEM_STAT_TABLE_BAD, .ro, 0, 1⟩,
   ⟨BEM_STAT_COLD, .ro, 0, 1⟩,
   ⟨BEM_STAT_ISAT, .ro, 0, 1⟩,
   ⟨BEM_STAT_NTC_FAULT, .ro, 0, 1⟩,
   ⟨BEM_LEARN_LAST_CAUSE, .ro, 0, 15⟩,
   ⟨BEM_LEARN_PHASE, .ro, 0, 3⟩,
   ⟨BEM_LEARN_CYCLES, .ro, 0, 65535⟩,
   ⟨BEM_RINT_SEL_BAND, .rw, 0, 3⟩,
   ⟨BEM_RINT_MOHM (sel (BEM_RINT_SEL_BAND)), .rwi, 1, 65535⟩,
   ⟨BEM_TDUMP_US, .ro, 0, 4294967295⟩] ++
  [⟨BEM_EBYTES_LO_BYTES, .ro, 0, 4294967295⟩,
   ⟨BEM_EBYTES_HI_BYTES, .ro, 0, 4294967295⟩,
   ⟨BEM_STORE_SEQ, .ro, 0, 4294967295⟩,
   ⟨BEM_CMD_OP, .rwi, 0, 4⟩,
   ⟨BEM_CMD_GO, .w1s, 0, 1⟩,
   ⟨BEM_CMD_RES_STATUS, .ro, 0, 255⟩,
   ⟨BEM_CMD_RES_DONE, .ro, 0, 1⟩]

/-- The fields of a CTX page with access code and range (R443). -/
def rowsCTX (i : Nat) : List RegRow :=
  [⟨CTX_BIND_VALID i, .rw, 0, 1⟩,
   ⟨CTX_BIND_PORT i, .rw, 0, 1⟩,
   ⟨CTX_BIND_FUNC i, .rw, 0, 1023⟩,
   ⟨CTX_BIND_KIND i, .rw, 0, 1⟩,
   ⟨CTX_CTL_RUN i, .rw, 0, 1⟩,
   ⟨CTX_CTL_ERR_CLEAR i, .w1s, 0, 1⟩,
   ⟨CTX_CTL_RETIRE i, .w1s, 0, 1⟩,
   ⟨CTX_STAT_STATE i, .ro, 0, 7⟩,
   ⟨CTX_STAT_PAUSE_HOST i, .ro, 0, 1⟩,
   ⟨CTX_STAT_PAUSE_BME i, .ro, 0, 1⟩,
   ⟨CTX_STAT_CFG_BAD i, .ro, 0, 1⟩,
   ⟨CTX_STAT_PHASE i, .ro, 0, 1⟩] ++
  [⟨CTX_ERR_VALUE i, .ro, 0, 65535⟩,
   ⟨CTX_ERR_CAUSE i, .ro, 0, 15⟩,
   ⟨CTX_SQ_BASE_LO_ADDR i, .rw, 0, 1048575⟩,
   ⟨CTX_SQ_BASE_HI_ADDR i, .rw, 0, 4294967295⟩,
   ⟨CTX_CQ_BASE_LO_ADDR i, .rw, 0, 1048575⟩,
   ⟨CTX_CQ_BASE_HI_ADDR i, .rw, 0, 4294967295⟩,
   ⟨CTX_RING_SIZE_SQ_M1 i, .rw, 0, 16383⟩,
   ⟨CTX_RING_SIZE_CQ_M1 i, .rw, 0, 16383⟩,
   ⟨CTX_IRQ_VECTOR i, .rw, 0, 2047⟩,
   ⟨CTX_IRQ_IEN i, .rw, 0, 1⟩,
   ⟨CTX_IRQ_AGG_COUNT i, .rw, 0, 255⟩,
   ⟨CTX_SQ_IDX_HEAD i, .ro, 0, 16383⟩] ++
  [⟨CTX_SQ_IDX_TAIL i, .ro, 0, 16383⟩,
   ⟨CTX_CQ_IDX_TAIL i, .ro, 0, 16383⟩,
   ⟨CTX_CQ_IDX_HEAD i, .ro, 0, 16383⟩,
   ⟨CTX_OUT_OUTSTANDING i, .ro, 0, 16383⟩,
   ⟨CTX_DISCARD_DB i, .ro, 0, 65535⟩,
   ⟨CTX_DISCARD_ABORTS i, .ro, 0, 65535⟩,
   ⟨CTX_CONFLICT_COUNT i, .ro, 0, 4294967295⟩,
   ⟨CTX_AGG_TIME i, .rw, 0, 65535⟩,
   ⟨CTX_SCHED_CLASS i, .rw, 0, 3⟩,
   ⟨CTX_SCHED_WEIGHT i, .rw, 0, 255⟩,
   ⟨CTX_SCHED_MIN_UNITS i, .rw, 0, 65535⟩,
   ⟨CTX_LIMIT_MAX_UNITS i, .rw, 0, 65535⟩] ++
  [⟨CTX_LIMIT_BURST_UNITS i, .rw, 0, 65535⟩,
   ⟨CTX_BULK_RATE i, .rw, 1, 255⟩,
   ⟨CTX_CREDIT_CREDIT i, .ro, 0, 16777215⟩,
   ⟨CTX_LATE_COUNT i, .ro, 0, 4294967295⟩,
   ⟨CTX_BIND_ID_ID i, .ro, 0, 4294967295⟩,
   ⟨CTX_RD_LO_COUNT i, .ro, 0, 4294967295⟩,
   ⟨CTX_RD_HI_COUNT i, .ro, 0, 4294967295⟩,
   ⟨CTX_WR_LO_COUNT i, .ro, 0, 4294967295⟩,
   ⟨CTX_WR_HI_COUNT i, .ro, 0, 4294967295⟩,
   ⟨CTX_CMD_LO_COUNT i, .ro, 0, 4294967295⟩,
   ⟨CTX_CMD_HI_COUNT i, .ro, 0, 4294967295⟩,
   ⟨CTX_PAR_LO_COUNT i, .ro, 0, 4294967295⟩] ++
  [⟨CTX_PAR_HI_COUNT i, .ro, 0, 4294967295⟩,
   ⟨CTX_SLOT_LO_COUNT i, .ro, 0, 4294967295⟩,
   ⟨CTX_SLOT_HI_COUNT i, .ro, 0, 4294967295⟩,
   ⟨CTX_THROTTLED_COUNT i, .ro, 0, 4294967295⟩,
   ⟨CTX_MTR_STAT_GAP i, .ro, 0, 1⟩,
   ⟨CTX_MTR_STAT_FINAL_PENDING i, .ro, 0, 1⟩]

/-- The fields of a TSC page with access code and range (R443). -/
def rowsTSC : List RegRow :=
  [⟨TSC_CFG_CAP_UNITS, .rwi, 64, 65535⟩,
   ⟨TSC_CLASS0_LAT_US, .rwi, 0, 65535⟩,
   ⟨TSC_CLASS1_LAT_US, .rwi, 0, 65535⟩,
   ⟨TSC_CLASS2_LAT_US, .rwi, 0, 65535⟩,
   ⟨TSC_CLASS3_LAT_US, .rwi, 0, 65535⟩,
   ⟨TSC_STAT_ACTIVE, .ro, 0, 8191⟩,
   ⟨TSC_STAT_OFF_GRID, .ro, 0, 1⟩,
   ⟨TSC_MIN_SUM_UNITS, .ro, 0, 65535⟩,
   ⟨TSC_ROUNDS_LO_COUNT, .ro, 0, 4294967295⟩,
   ⟨TSC_ROUNDS_HI_COUNT, .ro, 0, 4294967295⟩,
   ⟨TSC_LATE_COUNT, .ro, 0, 4294967295⟩,
   ⟨TSC_SHORT_COUNT, .ro, 0, 4294967295⟩] ++
  [⟨TSC_OVER_MAX_NS, .ro, 0, 4294967295⟩,
   ⟨TSC_CLR_CLR_MAX, .wo, 0, 1⟩]

/-- The fields of a MTR page with access code and range (R443). -/
def rowsMTR : List RegRow :=
  [⟨MTR_CFG_EN, .rw, 0, 1⟩,
   ⟨MTR_CFG_TSRC, .rwi, 0, 1⟩,
   ⟨MTR_BASE_LO_ADDR, .rw, 0, 1048575⟩,
   ⟨MTR_BASE_HI_ADDR, .rw, 0, 4294967295⟩,
   ⟨MTR_SIZE_M1, .rw, 0, 65535⟩,
   ⟨MTR_TAIL_TAIL, .ro, 0, 65535⟩,
   ⟨MTR_TAIL_PHASE, .ro, 0, 1⟩,
   ⟨MTR_HEAD_HEAD, .rw, 0, 65535⟩,
   ⟨MTR_TOFF_LO_NS, .ro, 0, 4294967295⟩,
   ⟨MTR_TOFF_HI_NS, .ro, 0, 4294967295⟩,
   ⟨MTR_TIME_LO_NS, .ro, 0, 4294967295⟩,
   ⟨MTR_TIME_HI_NS, .ro, 0, 4294967295⟩] ++
  [⟨MTR_TADJ_LO_NS, .rw, 0, 4294967295⟩,
   ⟨MTR_TADJ_HI_NS, .rw, 0, 4294967295⟩,
   ⟨MTR_TCTL_STEP, .w1s, 0, 1⟩,
   ⟨MTR_TCTL_SLEW, .w1s, 0, 1⟩,
   ⟨MTR_SLEW_LEFT_NS, .ro, 0, 4294967295⟩,
   ⟨MTR_EPOCH_EPOCH, .ro, 0, 4294967295⟩,
   ⟨MTR_RECORDS_COUNT, .ro, 0, 4294967295⟩,
   ⟨MTR_DROPPED_COUNT, .ro, 0, 4294967295⟩,
   ⟨MTR_MAINT_LO_COUNT, .ro, 0, 4294967295⟩,
   ⟨MTR_MAINT_HI_COUNT, .ro, 0, 4294967295⟩]

/-- The fields of a HEP page with access code and range (R443). -/
def rowsHEP (i : Nat) : List RegRow :=
  [⟨HEP_CFG_RO_DATA i, .rwi, 0, 1⟩,
   ⟨HEP_CFG_L1_IDLE_US i, .rwi, 1, 255⟩,
   ⟨HEP_LINK_SPEED i, .ro, 0, 7⟩,
   ⟨HEP_LINK_WIDTH i, .ro, 0, 31⟩,
   ⟨HEP_LINK_LTSSM i, .ro, 0, 63⟩,
   ⟨HEP_LINK_IN_L1 i, .ro, 0, 1⟩,
   ⟨HEP_LINK_IN_L12 i, .ro, 0, 1⟩,
   ⟨HEP_LINK_REVERSED i, .ro, 0, 1⟩,
   ⟨HEP_FUNCS_NUMVFS i, .ro, 0, 2047⟩,
   ⟨HEP_FUNCS_VF_EN i, .ro, 0, 1⟩,
   ⟨HEP_FUNCS_ARI i, .ro, 0, 1⟩,
   ⟨HEP_FUNCS_PF_DSTATE i, .ro, 0, 3⟩] ++
  [⟨HEP_FUNCS_PF_BME i, .ro, 0, 1⟩,
   ⟨HEP_OUT_READS i, .ro, 0, 1023⟩,
   ⟨HEP_OUT_HELD i, .ro, 0, 2047⟩,
   ⟨HEP_LTR_ACT_VAL i, .rwi, 0, 1023⟩,
   ⟨HEP_LTR_ACT_SCALE i, .rwi, 0, 7⟩,
   ⟨HEP_LTR_IDLE_VAL i, .rwi, 0, 1023⟩,
   ⟨HEP_LTR_IDLE_SCALE i, .rwi, 0, 7⟩,
   ⟨HEP_CTO_COUNT i, .ro, 0, 4294967295⟩,
   ⟨HEP_LATE_COUNT i, .ro, 0, 4294967295⟩,
   ⟨HEP_DISCARD_COUNT i, .ro, 0, 4294967295⟩,
   ⟨HEP_FLR_VF i, .ro, 0, 65535⟩,
   ⟨HEP_FLR_PF i, .ro, 0, 65535⟩] ++
  [⟨HEP_IRQ_NONE_COUNT i, .ro, 0, 4294967295⟩,
   ⟨HEP_INBOUND_ERR_COUNT i, .ro, 0, 4294967295⟩,
   ⟨HEP_DOWN_COUNT i, .ro, 0, 4294967295⟩,
   ⟨HEP_RD_LO_COUNT i, .ro, 0, 4294967295⟩,
   ⟨HEP_RD_HI_COUNT i, .ro, 0, 4294967295⟩,
   ⟨HEP_WR_LO_COUNT i, .ro, 0, 4294967295⟩,
   ⟨HEP_WR_HI_COUNT i, .ro, 0, 4294967295⟩,
   ⟨HEP_SUBSYS_SVID i, .rwi, 0, 65535⟩,
   ⟨HEP_SUBSYS_SSID i, .rwi, 0, 65535⟩]

/-- The fields of a DPT page with access code and range (R443). -/
def rowsDPT (i : Nat) : List RegRow :=
  [⟨DPT_CFG_AUTO_ON i, .rwi, 0, 1⟩,
   ⟨DPT_CFG_X4 i, .rwl, 0, 1⟩,
   ⟨DPT_CFG_SRIS i, .rwl, 0, 1⟩,
   ⟨DPT_CFG_ASPM_L1 i, .rwi, 0, 1⟩,
   ⟨DPT_CFG_QPAIRS i, .rwi, 0, 15⟩,
   ⟨DPT_CFG_MAX_SPEED i, .rwi, 1, 5⟩,
   ⟨DPT_CFG_L1_IDLE_US i, .rwi, 1, 255⟩,
   ⟨DPT_CFG_SMART_S i, .rwi, 1, 255⟩,
   ⟨DPT_TMO_IO_MS i, .rwi, 10, 65535⟩,
   ⟨DPT_TMO_RETRIES i, .rwi, 1, 15⟩,
   ⟨DPT_TMO_LINK_MS i, .rwi, 100, 4095⟩,
   ⟨DPT_LINK_SPEED i, .ro, 0, 7⟩] ++
  [⟨DPT_LINK_WIDTH i, .ro, 0, 7⟩,
   ⟨DPT_LINK_LTSSM i, .ro, 0, 63⟩,
   ⟨DPT_LINK_IN_L1 i, .ro, 0, 1⟩,
   ⟨DPT_SLOT_CAP_ABP i, .ro, 0, 1⟩,
   ⟨DPT_SLOT_CAP_PCP i, .ro, 0, 1⟩,
   ⟨DPT_SLOT_CAP_MRLSP i, .ro, 0, 1⟩,
   ⟨DPT_SLOT_CAP_AIP i, .ro, 0, 1⟩,
   ⟨DPT_SLOT_CAP_PIP i, .ro, 0, 1⟩,
   ⟨DPT_SLOT_CAP_HPS i, .ro, 0, 1⟩,
   ⟨DPT_SLOT_CAP_HPC i, .ro, 0, 1⟩,
   ⟨DPT_SLOT_CTL_AIC i, .rw, 1, 3⟩,
   ⟨DPT_SLOT_CTL_PIC i, .ro, 0, 3⟩] ++
  [⟨DPT_SLOT_CTL_PCC i, .ro, 0, 1⟩,
   ⟨DPT_SLOT_CTL_LOCATE i, .rw, 0, 1⟩,
   ⟨DPT_SLOT_STS_EVENTS i, .rw1c, 0, 511⟩,
   ⟨DPT_SLOT_STS_PDS i, .ro, 0, 1⟩,
   ⟨DPT_SLOT_STS_DUAL i, .ro, 0, 1⟩,
   ⟨DPT_SLOT_STS_PWR_GOOD i, .ro, 0, 1⟩,
   ⟨DPT_SLOT_STS_IFDET i, .ro, 0, 1⟩,
   ⟨DPT_DRIVE_RESV i, .ro, 0, 1⟩,
   ⟨DPT_DRIVE_DSM i, .ro, 0, 1⟩,
   ⟨DPT_DRIVE_VWC i, .ro, 0, 1⟩,
   ⟨DPT_DRIVE_WHY i, .ro, 0, 15⟩,
   ⟨DPT_DRIVE_MDTS i, .ro, 0, 255⟩] ++
  [⟨DPT_DRIVE_CNTLID i, .ro, 0, 65535⟩,
   ⟨DPT_NSID0_NSID i, .ro, 0, 4294967295⟩,
   ⟨DPT_NSID1_NSID i, .ro, 0, 4294967295⟩,
   ⟨DPT_NS_STAT_FMT_OK0 i, .ro, 0, 1⟩,
   ⟨DPT_NS_STAT_FMT_OK1 i, .ro, 0, 1⟩,
   ⟨DPT_NS_STAT_IGNORED i, .ro, 0, 255⟩,
   ⟨DPT_KEY_DRIVE_KEY i, .ro, 0, 4294967295⟩,
   ⟨DPT_OUT_COUNT i, .ro, 0, 511⟩,
   ⟨DPT_TMO_CNT_COUNT i, .ro, 0, 4294967295⟩,
   ⟨DPT_RESETS_COUNT i, .ro, 0, 4294967295⟩,
   ⟨DPT_SMART_WARN i, .ro, 0, 255⟩,
   ⟨DPT_SMART_TEMP_K i, .ro, 0, 65535⟩] ++
  [⟨DPT_RESV_ROLE i, .ro, 0, 3⟩,
   ⟨DPT_CMD_OP i, .rwi, 0, 3⟩,
   ⟨DPT_CMD_GO i, .w1s, 0, 1⟩,
   ⟨DPT_CMD_RES_STATUS i, .ro, 0, 255⟩,
   ⟨DPT_CMD_RES_DONE i, .ro, 0, 1⟩]

/-- The fields of a SSB page with access code and range (R443). -/
def rowsSSB (sel : FRef → Nat) (i : Nat) : List RegRow :=
  [⟨SSB_CFG_EN i, .rwl, 0, 1⟩,
   ⟨SSB_CFG_SLOTS i, .rwl, 1, 16⟩,
   ⟨SSB_STAT_FAULT i, .ro, 0, 1⟩,
   ⟨SSB_FRAMES_COUNT i, .ro, 0, 4294967295⟩,
   ⟨SSB_BAD_COUNT i, .ro, 0, 4294967295⟩,
   ⟨SSB_SEL_SLOT i, .rw, 0, 15⟩,
   ⟨SSB_RAW_IN i (sel (SSB_SEL_SLOT i)), .ro, 0, 255⟩,
   ⟨SSB_RAW_OUT i (sel (SSB_SEL_SLOT i)), .ro, 0, 255⟩]

/-- The fields of a DMC page with access code and range (R443). -/
def rowsDMC (sel : FRef → Nat) (i : Nat) : List RegRow :=
  [⟨DMC_CFG_PAGE i, .rwi, 0, 2⟩,
   ⟨DMC_CFG_ORDER i, .rwl, 0, 2⟩,
   ⟨DMC_CFG_HASH i, .rwl, 0, 1⟩,
   ⟨DMC_CFG_CORR_WB i, .rwi, 0, 1⟩,
   ⟨DMC_CFG_PAGE_IDLE i, .rwi, 1, 255⟩,
   ⟨DMC_CFG_CE_THR i, .rwi, 1, 255⟩,
   ⟨DMC_CFG_SCRUB_H i, .rwi, 1, 255⟩,
   ⟨DMC_SPEED_RUN i, .rwl, 0, 2⟩,
   ⟨DMC_SPEED_CUR i, .ro, 0, 3⟩,
   ⟨DMC_SPEED_SET i, .ro, 0, 1⟩,
   ⟨DMC_STAT_WHY i, .ro, 0, 15⟩,
   ⟨DMC_DIMM_SIZE_GIB i, .ro, 0, 255⟩] ++
  [⟨DMC_DIMM_RANKS i, .ro, 0, 3⟩,
   ⟨DMC_DIMM_X8 i, .ro, 0, 1⟩,
   ⟨DMC_DIMM_ROW_BITS i, .ro, 0, 31⟩,
   ⟨DMC_INIT_WM_MIB i, .ro, 0, 131071⟩,
   ⟨DMC_INIT_WM_DONE i, .ro, 0, 1⟩,
   ⟨DMC_SCRUB_POS_MIB i, .ro, 0, 131071⟩,
   ⟨DMC_LAT01_PORT0_NS i, .rwi, 1, 65535⟩,
   ⟨DMC_LAT01_PORT1_NS i, .rwi, 1, 65535⟩,
   ⟨DMC_LAT23_PORT2_NS i, .rwi, 1, 65535⟩,
   ⟨DMC_LAT23_PORT3_NS i, .rwi, 1, 65535⟩,
   ⟨DMC_LAT45_PORT4_NS i, .rwi, 1, 65535⟩,
   ⟨DMC_LAT45_PORT5_NS i, .rwi, 1, 65535⟩] ++
  [⟨DMC_DLY_SEL_LANE i, .rw, 0, 19⟩,
   ⟨DMC_DLY_WL_SEED i (sel (DMC_DLY_SEL_LANE i)), .rwl, 0, 4095⟩,
   ⟨DMC_DLY_RG_SEED i (sel (DMC_DLY_SEL_LANE i)), .rwl, 0, 4095⟩,
   ⟨DMC_DLY_CA_CA i, .rwl, 0, 4095⟩,
   ⟨DMC_DLY_CA_TOL i, .rwl, 1, 255⟩,
   ⟨DMC_CE_COUNT i, .ro, 0, 4294967295⟩,
   ⟨DMC_UE_COUNT i, .ro, 0, 65535⟩,
   ⟨DMC_ERR_SYN_SUB i, .ro, 0, 1⟩,
   ⟨DMC_ERR_SYN_DEVICE i, .ro, 0, 15⟩,
   ⟨DMC_ERR_SYN_UE i, .ro, 0, 1⟩,
   ⟨DMC_ERR_SYN_SYMBOLS i, .ro, 0, 255⟩,
   ⟨DMC_URGENT_COUNT i, .ro, 0, 4294967295⟩] ++
  [⟨DMC_BYTES_LO_COUNT i, .ro, 0, 4294967295⟩,
   ⟨DMC_BYTES_HI_COUNT i, .ro, 0, 4294967295⟩,
   ⟨DMC_DIAG_ADDR_LO_ADDR i, .rwi, 0, 1073741823⟩,
   ⟨DMC_DIAG_ADDR_HI_ADDR i, .rwi, 0, 15⟩,
   ⟨DMC_DIAG_DATA_DATA i, .ro, 0, 4294967295⟩,
   ⟨DMC_DIAG_STAT_VALID i, .ro, 0, 1⟩,
   ⟨DMC_DIAG_STAT_CE i, .ro, 0, 1⟩,
   ⟨DMC_DIAG_STAT_UE i, .ro, 0, 1⟩,
   ⟨DMC_CMD_OP i, .rwi, 0, 1⟩,
   ⟨DMC_CMD_GO i, .w1s, 0, 1⟩,
   ⟨DMC_CMD_RES_STATUS i, .ro, 0, 255⟩,
   ⟨DMC_CMD_RES_DONE i, .ro, 0, 1⟩]

/-- The fields of a TLK page with access code and range (R443). -/
def rowsTLK (sel : FRef → Nat) (i : Nat) : List RegRow :=
  [⟨TLK_CFG_MAX_32 i, .rwi, 0, 1⟩,
   ⟨TLK_CFG_ALLOW_NARROW i, .rwi, 0, 1⟩,
   ⟨TLK_CFG_ACK_NS i, .rwi, 10, 255⟩,
   ⟨TLK_CFG_REPLAY_NS i, .rwi, 100, 4095⟩,
   ⟨TLK_STAT_SPEED i, .ro, 0, 3⟩,
   ⟨TLK_STAT_WIDTH i, .ro, 0, 7⟩,
   ⟨TLK_STAT_REVERSED i, .ro, 0, 1⟩,
   ⟨TLK_STAT_NEIGH_NODE i, .ro, 0, 511⟩,
   ⟨TLK_STAT_NEIGH_LINK i, .ro, 0, 7⟩,
   ⟨TLK_LAT_NS i, .ro, 0, 65535⟩,
   ⟨TLK_CRC_COUNT i, .ro, 0, 4294967295⟩,
   ⟨TLK_REPLAY_COUNT i, .ro, 0, 4294967295⟩] ++
  [⟨TLK_RETRAIN_COUNT i, .ro, 0, 4294967295⟩,
   ⟨TLK_DROP_COUNT i, .ro, 0, 4294967295⟩,
   ⟨TLK_CRD_SEL_CLASS i, .rw, 0, 7⟩,
   ⟨TLK_CRD_TX i (sel (TLK_CRD_SEL_CLASS i)), .ro, 0, 4095⟩,
   ⟨TLK_CRD_ADV i (sel (TLK_CRD_SEL_CLASS i)), .ro, 0, 4095⟩,
   ⟨TLK_TX_LO_COUNT i, .ro, 0, 4294967295⟩,
   ⟨TLK_TX_HI_COUNT i, .ro, 0, 4294967295⟩,
   ⟨TLK_RX_LO_COUNT i, .ro, 0, 4294967295⟩,
   ⟨TLK_RX_HI_COUNT i, .ro, 0, 4294967295⟩]

/-- The fields of a TRT page with access code and range (R443). -/
def rowsTRT (sel : FRef → Nat) : List RegRow :=
  [⟨TRT_CFG_NODE_OFF, .rwl, 0, 511⟩,
   ⟨TRT_CFG_AUTO_NEIGH, .rwi, 0, 1⟩,
   ⟨TRT_SEL_NODE, .rw, 0, 511⟩,
   ⟨TRT_ENTRY_LINK (sel (TRT_SEL_NODE)), .rwi, 0, 7⟩,
   ⟨TRT_ENTRY_VALID (sel (TRT_SEL_NODE)), .rwi, 0, 1⟩,
   ⟨TRT_ENTRY_LEARNED (sel (TRT_SEL_NODE)), .ro, 0, 1⟩,
   ⟨TRT_ENTRY_UP (sel (TRT_SEL_NODE)), .ro, 0, 1⟩,
   ⟨TRT_LEASE_PERIOD_US, .rwi, 100, 4095⟩,
   ⟨TRT_LEASE_TMO_MS, .rwi, 5, 255⟩,
   ⟨TRT_LEASE_DROP_MS, .rwi, 16, 255⟩,
   ⟨TRT_LEASE2_PREEMPT_MS, .rwi, 1, 255⟩,
   ⟨TRT_LEASE2_MIO_TMO_MS, .rwi, 100, 65535⟩] ++
  [⟨TRT_PEER_OWNER (sel (TRT_SEL_NODE)), .ro, 0, 1⟩,
   ⟨TRT_PEER_STANDBY (sel (TRT_SEL_NODE)), .ro, 0, 1⟩,
   ⟨TRT_PEER_LEASE_OK (sel (TRT_SEL_NODE)), .ro, 0, 1⟩,
   ⟨TRT_PEER_AGE_MS (sel (TRT_SEL_NODE)), .ro, 0, 255⟩,
   ⟨TRT_PEER_PLATES (sel (TRT_SEL_NODE)), .ro, 0, 127⟩,
   ⟨TRT_TIME_MASTER, .rwi, 0, 511⟩,
   ⟨TRT_TIME_SYNC_MS, .rwi, 1, 255⟩,
   ⟨TRT_TERR_NS, .ro, 0, 4294967295⟩,
   ⟨TRT_TAKEOVERS_COUNT, .ro, 0, 4294967295⟩,
   ⟨TRT_DROPS_COUNT, .ro, 0, 4294967295⟩,
   ⟨TRT_UNROUTED_COUNT, .ro, 0, 4294967295⟩,
   ⟨TRT_CMD_OP, .rwi, 0, 2⟩] ++
  [⟨TRT_CMD_PLATE, .rwi, 0, 63⟩,
   ⟨TRT_CMD_NODE, .rwi, 0, 511⟩,
   ⟨TRT_CMD_GO, .w1s, 0, 1⟩,
   ⟨TRT_CMD_RES_STATUS, .ro, 0, 255⟩,
   ⟨TRT_CMD_RES_DONE, .ro, 0, 1⟩]

/-- The fields of a MOV page with access code and range (R443). -/
def rowsMOV : List RegRow :=
  [⟨MOV_CFG_HOLD_US, .rwi, 1, 65535⟩,
   ⟨MOV_STAT_CHANNEL, .ro, 0, 15⟩,
   ⟨MOV_STAT_BUSY, .ro, 0, 1⟩,
   ⟨MOV_PEND_MASK, .ro, 0, 65535⟩,
   ⟨MOV_BYTES_LO_COUNT, .ro, 0, 4294967295⟩,
   ⟨MOV_BYTES_HI_COUNT, .ro, 0, 4294967295⟩]

/-- The fields of a MCH page with access code and range (R443). -/
def rowsMCH (i : Nat) : List RegRow :=
  [⟨MCH_CH_CTL_GO i, .w1s, 0, 1⟩,
   ⟨MCH_CH_CTL_STOP i, .w1s, 0, 1⟩,
   ⟨MCH_CH_CTL_CHAIN i, .rw, 0, 1⟩,
   ⟨MCH_CH_STAT_STATE i, .ro, 0, 3⟩,
   ⟨MCH_CH_HEAD_LO_SPACE i, .rw, 0, 1⟩,
   ⟨MCH_CH_HEAD_LO_ADDR i, .rw, 0, 33554431⟩,
   ⟨MCH_CH_HEAD_HI_ADDR i, .rw, 0, 4294967295⟩,
   ⟨MCH_CH_CUR_LO_ADDR i, .ro, 0, 4294967295⟩,
   ⟨MCH_CH_CUR_HI_ADDR i, .ro, 0, 4294967295⟩,
   ⟨MCH_CH_DONE_COUNT i, .ro, 0, 4294967295⟩,
   ⟨MCH_CH_BADS_COUNT i, .ro, 0, 4294967295⟩,
   ⟨MCH_CH_BYTES_LO_COUNT i, .ro, 0, 4294967295⟩] ++
  [⟨MCH_CH_BYTES_HI_COUNT i, .ro, 0, 4294967295⟩,
   ⟨MCH_CH_REQ_HELD i, .ro, 0, 15⟩,
   ⟨MCH_CH_REQ_CH_REQ_LOST i, .ro, 0, 65535⟩]

/-- The fields of a ICU page with access code and range (R443). -/
def rowsICU (sel : FRef → Nat) : List RegRow :=
  [⟨ICU_CFG_FALLBACK, .rw, 0, 3⟩,
   ⟨ICU_VEC_BASE_LO_ADDR, .rw, 0, 1048575⟩,
   ⟨ICU_VEC_BASE_HI_ADDR, .rw, 0, 4294967295⟩,
   ⟨ICU_SRC_SEL_SOURCE, .rw, 0, 255⟩,
   ⟨ICU_SRC_CFG_SENSE (sel (ICU_SRC_SEL_SOURCE)), .rw, 0, 4⟩,
   ⟨ICU_SRC_CFG_EN (sel (ICU_SRC_SEL_SOURCE)), .rw, 0, 1⟩,
   ⟨ICU_SRC_CFG_PRIO (sel (ICU_SRC_SEL_SOURCE)), .rw, 0, 15⟩,
   ⟨ICU_SRC_CFG_CORE (sel (ICU_SRC_SEL_SOURCE)), .rw, 0, 3⟩,
   ⟨ICU_SRC_CFG_HOST (sel (ICU_SRC_SEL_SOURCE)), .rw, 0, 1⟩,
   ⟨ICU_SRC_CFG_AON_WAKE (sel (ICU_SRC_SEL_SOURCE)), .rw, 0, 1⟩,
   ⟨ICU_SRC_CFG_MOD (sel (ICU_SRC_SEL_SOURCE)), .rw, 0, 65535⟩,
   ⟨ICU_SRC_HOST_PORT (sel (ICU_SRC_SEL_SOURCE)), .rw, 0, 1⟩] ++
  [⟨ICU_SRC_HOST_FUNC (sel (ICU_SRC_SEL_SOURCE)), .rw, 0, 1023⟩,
   ⟨ICU_SRC_HOST_MSI (sel (ICU_SRC_SEL_SOURCE)), .rw, 0, 1⟩,
   ⟨ICU_SRC_HOST_ENTRY (sel (ICU_SRC_SEL_SOURCE)), .rw, 0, 2047⟩,
   ⟨ICU_SRC_STAT_LINE (sel (ICU_SRC_SEL_SOURCE)), .ro, 0, 1⟩,
   ⟨ICU_SRC_STAT_PENDING (sel (ICU_SRC_SEL_SOURCE)), .ro, 0, 1⟩,
   ⟨ICU_SRC_STAT_CLAIMED (sel (ICU_SRC_SEL_SOURCE)), .ro, 0, 1⟩,
   ⟨ICU_SRC_STAT_CLAIM_CORE (sel (ICU_SRC_SEL_SOURCE)), .ro, 0, 3⟩,
   ⟨ICU_SRC_STAT_MOD_WAIT (sel (ICU_SRC_SEL_SOURCE)), .ro, 0, 1⟩,
   ⟨ICU_SRC_STAT_OFF_WAIT (sel (ICU_SRC_SEL_SOURCE)), .ro, 0, 1⟩,
   ⟨ICU_PEND_SEL_WORD, .rw, 0, 7⟩,
   ⟨ICU_PEND_PEND (sel (ICU_PEND_SEL_WORD)), .rw1c, 0, 4294967295⟩,
   ⟨ICU_SWI_SET, .w1s, 0, 65535⟩] ++
  [⟨ICU_AON_LATCH_LATCH, .rw1c, 0, 2147483647⟩,
   ⟨ICU_CTX_FIRST_PORT0, .ro, 0, 4095⟩,
   ⟨ICU_CTX_FIRST_VALID0, .ro, 0, 1⟩,
   ⟨ICU_CTX_FIRST_PORT1, .ro, 0, 4095⟩,
   ⟨ICU_CTX_FIRST_VALID1, .ro, 0, 1⟩,
   ⟨ICU_THR_THR, .rw, 0, 65535⟩,
   ⟨ICU_EOI_SOURCE 0, .wo, 0, 255⟩,
   ⟨ICU_EOI_SOURCE 1, .wo, 0, 255⟩,
   ⟨ICU_EOI_SOURCE 2, .wo, 0, 255⟩,
   ⟨ICU_EOI_SOURCE 3, .wo, 0, 255⟩,
   ⟨ICU_CORE_LAST 0, .ro, 0, 255⟩,
   ⟨ICU_CORE_LAST 1, .ro, 0, 255⟩] ++
  [⟨ICU_CORE_LAST 2, .ro, 0, 255⟩,
   ⟨ICU_CORE_LAST 3, .ro, 0, 255⟩,
   ⟨ICU_CORE_RUN_PRIO 0, .ro, 0, 15⟩,
   ⟨ICU_CORE_RUN_PRIO 1, .ro, 0, 15⟩,
   ⟨ICU_CORE_RUN_PRIO 2, .ro, 0, 15⟩,
   ⟨ICU_CORE_RUN_PRIO 3, .ro, 0, 15⟩,
   ⟨ICU_CORE_WFI 0, .ro, 0, 1⟩,
   ⟨ICU_CORE_WFI 1, .ro, 0, 1⟩,
   ⟨ICU_CORE_WFI 2, .ro, 0, 1⟩,
   ⟨ICU_CORE_WFI 3, .ro, 0, 1⟩,
   ⟨ICU_CORE_POWERED 0, .ro, 0, 1⟩,
   ⟨ICU_CORE_POWERED 1, .ro, 0, 1⟩] ++
  [⟨ICU_CORE_POWERED 2, .ro, 0, 1⟩,
   ⟨ICU_CORE_POWERED 3, .ro, 0, 1⟩,
   ⟨ICU_DELIVERED_COUNT, .ro, 0, 4294967295⟩,
   ⟨ICU_SPURIOUS_COUNT, .ro, 0, 4294967295⟩,
   ⟨ICU_FALLBACKS_COUNT, .ro, 0, 4294967295⟩]

/-- The fields of a FLT page with access code and range (R443). -/
def rowsFLT (sel : FRef → Nat) : List RegRow :=
  [⟨FLT_FIRST_LO_MSG, .ro, 0, 4294967295⟩,
   ⟨FLT_FIRST_HI_MSG, .ro, 0, 4294967295⟩,
   ⟨FLT_FIRST_TIME_LO_NS, .ro, 0, 4294967295⟩,
   ⟨FLT_FIRST_TIME_HI_NS, .ro, 0, 4294967295⟩,
   ⟨FLT_FIRST_INFO_ACCESS, .ro, 0, 3⟩,
   ⟨FLT_FIRST_INFO_MASTER, .ro, 0, 1023⟩,
   ⟨FLT_FIRST_CLR_REARM, .wo, 0, 1⟩,
   ⟨FLT_STAT_CAPTURED, .ro, 0, 1⟩,
   ⟨FLT_STAT_DEV_FENCED, .ro, 0, 1⟩,
   ⟨FLT_STAT_FTEST, .ro, 0, 1⟩,
   ⟨FLT_STAT_QUEUE, .ro, 0, 127⟩,
   ⟨FLT_CNT_CORR_COUNT, .ro, 0, 4294967295⟩] ++
  [⟨FLT_CNT_DEF_COUNT, .ro, 0, 4294967295⟩,
   ⟨FLT_CNT_CONT_COUNT, .ro, 0, 4294967295⟩,
   ⟨FLT_CNT_FATAL_COUNT, .ro, 0, 4294967295⟩,
   ⟨FLT_DROPPED_COUNT, .ro, 0, 4294967295⟩,
   ⟨FLT_KIND_SEL_KIND, .rw, 0, 255⟩,
   ⟨FLT_KIND_CFG_REACT (sel (FLT_KIND_SEL_KIND)), .rwi, 0, 3⟩,
   ⟨FLT_KIND_CFG_MIN (sel (FLT_KIND_SEL_KIND)), .ro, 0, 3⟩,
   ⟨FLT_KIND_CFG_COUNT (sel (FLT_KIND_SEL_KIND)), .ro, 0, 65535⟩,
   ⟨FLT_LOG_SEL_INDEX, .rw, 0, 15⟩,
   ⟨FLT_LOG_LO_MSG, .ro, 0, 4294967295⟩,
   ⟨FLT_LOG_HI_MSG, .ro, 0, 4294967295⟩,
   ⟨FLT_LOG_TIME_US, .ro, 0, 4294967295⟩] ++
  [⟨FLT_FENCE_SEL_PAGE, .rw, 0, 8191⟩,
   ⟨FLT_FENCE_STAT_FENCED (sel (FLT_FENCE_SEL_PAGE)), .ro, 0, 1⟩,
   ⟨FLT_FENCE_STAT_UNFENCE_OK (sel (FLT_FENCE_SEL_PAGE)), .ro, 0, 1⟩,
   ⟨FLT_FENCE_STAT_KIND (sel (FLT_FENCE_SEL_PAGE)), .ro, 0, 255⟩,
   ⟨FLT_FENCE_STAT_SEVERITY (sel (FLT_FENCE_SEL_PAGE)), .ro, 0, 3⟩,
   ⟨FLT_WDOG_TIMEOUT_MS, .rwi, 1, 5⟩,
   ⟨FLT_WDOG_ADMIN_CORE, .ro, 0, 3⟩,
   ⟨FLT_WDOG_HALTED, .ro, 0, 15⟩,
   ⟨FLT_INJ_LO_MSG, .rw, 0, 4294967295⟩,
   ⟨FLT_INJ_HI_MSG, .rw, 0, 4294967295⟩,
   ⟨FLT_INJ_CTL_GO, .w1s, 0, 1⟩,
   ⟨FLT_CMD_OP, .rwi, 0, 1⟩] ++
  [⟨FLT_CMD_PAGE, .rwi, 0, 1023⟩,
   ⟨FLT_CMD_GO, .w1s, 0, 1⟩,
   ⟨FLT_CMD_RES_STATUS, .ro, 0, 255⟩,
   ⟨FLT_CMD_RES_DONE, .ro, 0, 1⟩]

/-- The fields of a CHIP page with access code and range (R443). -/
def rowsCHIP : List RegRow :=
  [⟨CHIP_DEV_ID_ID, .ro, 0, 65535⟩,
   ⟨CHIP_STEPPING_STEP, .ro, 0, 255⟩,
   ⟨CHIP_DEV_STAT_READY, .ro, 0, 1⟩,
   ⟨CHIP_DEV_STAT_STOPPED, .ro, 0, 1⟩,
   ⟨CHIP_DEV_STAT_PHASE, .ro, 0, 15⟩,
   ⟨CHIP_DEV_STAT_WHY, .ro, 0, 3⟩,
   ⟨CHIP_DEV_STAT_COLD, .ro, 0, 1⟩,
   ⟨CHIP_NODE_ID_NODE, .ro, 0, 511⟩,
   ⟨CHIP_DEV_TIME_LO_NS, .ro, 0, 4294967295⟩,
   ⟨CHIP_DEV_TIME_HI_NS, .ro, 0, 4294967295⟩,
   ⟨CHIP_OP_MINUTES_COUNT, .ro, 0, 4294967295⟩,
   ⟨CHIP_PWR_CYCLES_COUNT, .ro, 0, 4294967295⟩] ++
  [⟨CHIP_MODE_UNBACKED, .ro, 0, 1⟩,
   ⟨CHIP_RESYNC_GO, .w1s, 0, 1⟩]

/-- The fields of a PWR page with access code and range (R443). -/
def rowsPWR : List RegRow :=
  [⟨PWR_CFG_NIGHT_MODE, .rwi, 0, 2⟩,
   ⟨PWR_CFG_STBY_EN, .rwi, 0, 1⟩,
   ⟨PWR_CFG_NIGHT_S, .rwi, 1, 255⟩,
   ⟨PWR_CFG_NIGHT_LOAD, .rwi, 1, 255⟩,
   ⟨PWR_CFG_IDLE_US, .rwi, 1, 255⟩,
   ⟨PWR_CTL_NIGHT_REQ, .rw, 0, 1⟩,
   ⟨PWR_CTL_DEV_RESET, .w1s, 0, 1⟩,
   ⟨PWR_STAT_STATE, .ro, 0, 7⟩,
   ⟨PWR_STAT_BRACED, .ro, 0, 1⟩,
   ⟨PWR_STAT_VDD_WARN, .ro, 0, 1⟩,
   ⟨PWR_STAT_VDDIO_WARN, .ro, 0, 1⟩,
   ⟨PWR_STAT_VIN_WARN, .ro, 0, 1⟩] ++
  [⟨PWR_STAT_PWRFAIL, .ro, 0, 1⟩,
   ⟨PWR_STAT_LAST_RESET, .ro, 0, 7⟩,
   ⟨PWR_STAT_STBY_BLOCKED, .ro, 0, 1⟩,
   ⟨PWR_VDD_MV, .ro, 0, 65535⟩,
   ⟨PWR_VDD_MIN_MV, .ro, 0, 65535⟩,
   ⟨PWR_VDDIO_MV, .ro, 0, 65535⟩,
   ⟨PWR_VDDIO_MIN_MV, .ro, 0, 65535⟩,
   ⟨PWR_VIN_MV, .ro, 0, 65535⟩,
   ⟨PWR_VIN_MIN_MV, .ro, 0, 65535⟩,
   ⟨PWR_TEMP_DECI_C, .ro, 0, 65535⟩,
   ⟨PWR_TEMP_THR_WARN_C, .rwi, 80, 110⟩,
   ⟨PWR_TEMP_THR_CRIT_C, .rwi, 0, 120⟩] ++
  [⟨PWR_RAIL_SEQ, .ro, 0, 7⟩,
   ⟨PWR_RAIL_RAIL_OK, .ro, 0, 1⟩,
   ⟨PWR_RAIL_ATTEMPTS, .ro, 0, 3⟩,
   ⟨PWR_CLR_CLR_MIN, .wo, 0, 1⟩]

/-- The fields of a CLK page with access code and range (R443). -/
def rowsCLK : List RegRow :=
  [⟨CLK_STAT_XTAL_OK, .ro, 0, 1⟩,
   ⟨CLK_STAT_HCLK0_OK, .ro, 0, 1⟩,
   ⟨CLK_STAT_HCLK1_OK, .ro, 0, 1⟩,
   ⟨CLK_STAT_PLL_SRC, .ro, 0, 1⟩,
   ⟨CLK_STAT_PLL_LOCK, .ro, 0, 1⟩,
   ⟨CLK_STAT_TIME_GAP, .ro, 0, 1⟩,
   ⟨CLK_DREF_EN, .rwl, 0, 15⟩,
   ⟨CLK_ALARM0_LO_NS, .rw, 0, 4294967295⟩,
   ⟨CLK_ALARM0_HI_NS, .rw, 0, 4294967295⟩,
   ⟨CLK_ALARM1_LO_NS, .rw, 0, 4294967295⟩,
   ⟨CLK_ALARM1_HI_NS, .rw, 0, 4294967295⟩,
   ⟨CLK_ALARM_CTL_EN0, .rw, 0, 1⟩] ++
  [⟨CLK_ALARM_CTL_EN1, .rw, 0, 1⟩,
   ⟨CLK_ALARM_CTL_FIRED0, .rw1c, 0, 1⟩,
   ⟨CLK_ALARM_CTL_FIRED1, .rw1c, 0, 1⟩,
   ⟨CLK_WAKE_LAST_NS, .ro, 0, 65535⟩]

/-- The fields of a ROLE page with access code and range (R443). -/
def rowsROLE : List RegRow :=
  [⟨ROLE_STAT_INSTALL_STRAP, .ro, 0, 1⟩,
   ⟨ROLE_STAT_FTEST_STRAP, .ro, 0, 1⟩,
   ⟨ROLE_STAT_FACTORY, .ro, 0, 1⟩,
   ⟨ROLE_STAT_KEYS, .ro, 0, 15⟩,
   ⟨ROLE_STAT_SVN_FLOOR, .ro, 0, 127⟩,
   ⟨ROLE_SESS0_ROLE, .ro, 0, 3⟩,
   ⟨ROLE_SESS0_STRAP, .ro, 0, 1⟩,
   ⟨ROLE_SESS0_NONCE, .ro, 0, 1⟩,
   ⟨ROLE_SESS0_IDLE_S, .ro, 0, 2047⟩,
   ⟨ROLE_SESS0_FAILS, .ro, 0, 3⟩,
   ⟨ROLE_SESS0_LOCKED, .ro, 0, 1⟩,
   ⟨ROLE_DENY_COUNT, .ro, 0, 4294967295⟩] ++
  [⟨ROLE_FW_RUNNING, .ro, 0, 1⟩,
   ⟨ROLE_FW_PREFERRED, .ro, 0, 1⟩,
   ⟨ROLE_FW_VALID0, .ro, 0, 1⟩,
   ⟨ROLE_FW_VALID1, .ro, 0, 1⟩,
   ⟨ROLE_FW_VERSION, .ro, 0, 65535⟩,
   ⟨ROLE_KEY_CTL_KEY, .rwi, 0, 3⟩,
   ⟨ROLE_KEY_CTL_GO, .w1s, 0, 1⟩,
   ⟨ROLE_KEY_RES_STATUS, .ro, 0, 255⟩,
   ⟨ROLE_KEY_RES_DONE, .ro, 0, 1⟩]

/-- The fields of a EVR page with access code and range (R443). -/
def rowsEVR (sel : FRef → Nat) : List RegRow :=
  [⟨EVR_CFG_SNAP_H, .rwi, 1, 255⟩,
   ⟨EVR_STAT_USED, .ro, 0, 65535⟩,
   ⟨EVR_STAT_RETIRED, .ro, 0, 65535⟩,
   ⟨EVR_NEXT_SEQ_SEQ, .ro, 0, 4294967295⟩,
   ⟨EVR_ENDS_OLDEST, .ro, 0, 32767⟩,
   ⟨EVR_ENDS_NEWEST, .ro, 0, 32767⟩,
   ⟨EVR_BUDGET_TOKENS, .ro, 0, 4095⟩,
   ⟨EVR_BUDGET_HELD, .ro, 0, 4095⟩,
   ⟨EVR_LOST_COUNT, .ro, 0, 4294967295⟩,
   ⟨EVR_OVERWR_COUNT, .ro, 0, 4294967295⟩,
   ⟨EVR_MSEL_CODE, .rw, 0, 65535⟩,
   ⟨EVR_MVAL_LO_VALUE (sel (EVR_MSEL_CODE)), .ro, 0, 4294967295⟩] ++
  [⟨EVR_MVAL_HI_VALUE, .ro, 0, 4294967295⟩,
   ⟨EVR_RD_SEL_PAGE, .rw, 0, 32767⟩,
   ⟨EVR_CMD_OP, .rwi, 0, 2⟩,
   ⟨EVR_CMD_GO, .w1s, 0, 1⟩,
   ⟨EVR_CMD_RES_STATUS, .ro, 0, 255⟩,
   ⟨EVR_CMD_RES_DONE, .ro, 0, 1⟩]

/-- The fields of a PG page with access code and range (R443). -/
def rowsPG (p : Nat) : List RegRow :=
  [⟨PG_ID_VERSION p, .ro, 0, 255⟩,
   ⟨PG_ID_INSTANCE p, .ro, 0, 255⟩,
   ⟨PG_ID_TYPE p, .ro, 0, 65535⟩,
   ⟨PG_REV_REV p, .ro, 0, 65535⟩,
   ⟨PG_CTL_ENABLE p, .rw, 0, 1⟩,
   ⟨PG_CTL_BLOCK_RESET p, .w1s, 0, 1⟩,
   ⟨PG_CTL_CLK_REQ p, .rwi, 0, 1⟩,
   ⟨PG_CTL_FENCE_REQ p, .w1s, 0, 1⟩,
   ⟨PG_STAT_READY p, .ro, 0, 1⟩,
   ⟨PG_STAT_BUSY p, .ro, 0, 1⟩,
   ⟨PG_STAT_FENCED p, .ro, 0, 1⟩,
   ⟨PG_STAT_ASLEEP p, .ro, 0, 1⟩] ++
  [⟨PG_STAT_FROZEN p, .ro, 0, 1⟩,
   ⟨PG_STAT_STATE p, .ro, 0, 255⟩,
   ⟨PG_EVT_EVT p, .rw1c, 0, 4294967295⟩,
   ⟨PG_EVT_EN_EN p, .rw, 0, 4294967295⟩,
   ⟨PG_EVT_SET_SET p, .w1s, 0, 4294967295⟩,
   ⟨PG_EVT_FIRST_BIT p, .ro, 0, 31⟩,
   ⟨PG_EVT_FIRST_VALID p, .ro, 0, 1⟩,
   ⟨PG_ECAP_ADDR_LO_ADDR p, .ro, 0, 4294967295⟩,
   ⟨PG_ECAP_ADDR_HI_ADDR p, .ro, 0, 255⟩,
   ⟨PG_ECAP_INFO_ACCESS p, .ro, 0, 3⟩,
   ⟨PG_ECAP_INFO_MASTER p, .ro, 0, 1023⟩,
   ⟨PG_ECAP_INFO_KIND p, .ro, 0, 255⟩] ++
  [⟨PG_ECAP_TIME_US p, .ro, 0, 4294967295⟩,
   ⟨PG_RIGHTS_OP_R p, .rw, 0, 1⟩,
   ⟨PG_RIGHTS_OP_W p, .rw, 0, 1⟩,
   ⟨PG_RIGHTS_INST_R p, .rw, 0, 1⟩,
   ⟨PG_RIGHTS_INST_W p, .rw, 0, 1⟩,
   ⟨PG_RIGHTS_MAKER_R p, .ro, 0, 1⟩,
   ⟨PG_RIGHTS_MAKER_W p, .ro, 0, 1⟩,
   ⟨PG_SEQ_COUNT p, .ro, 0, 4294967295⟩]

/-- The fields of a SUM page with access code and range (R443). -/
def rowsSUM : List RegRow :=
  [⟨SUM_STAT_VALID, .ro, 0, 1⟩,
   ⟨SUM_STAT_PENDING, .ro, 0, 1⟩,
   ⟨SUM_SEQ_SNAP_SEQ, .ro, 0, 4294967295⟩,
   ⟨SUM_WIN_SEL_WIN, .rw, 0, 31⟩]

/-- The fields of a MGC page with access code and range (R443). -/
def rowsMGC (i : Nat) : List RegRow :=
  [⟨MGC_STAT_POWERED i, .ro, 0, 1⟩,
   ⟨MGC_STAT_WFI i, .ro, 0, 1⟩,
   ⟨MGC_STAT_HALTED i, .ro, 0, 1⟩,
   ⟨MGC_STAT_ADMIN i, .ro, 0, 1⟩,
   ⟨MGC_PC_LO_PC i, .ro, 0, 4294967295⟩,
   ⟨MGC_PC_HI_PC i, .ro, 0, 4294967295⟩]

/-- The PG_EVT bits each block defines (the PG_EVT rows of its table); the others read 0. -/
def evtMask (p : Nat) : Nat :=
  if p = 0x2b then 0x7
  else if p = 0x2a then 0xf
  else if 0x30 ≤ p ∧ p < 0x38 then 0x7
  else if 0x40 ≤ p ∧ p < 0x80 then 0x3f
  else if p = 0x39 then 0x7
  else if p = 0x38 then 0x7f
  else if p = 0x28 then 0x7f
  else if p = 0x29 then 0x3f
  else if p = 0x7 then 0x7ff
  else if 0x1000 ≤ p ∧ p < 0x2000 then 0x1f
  else if p = 0x100 then 0x7
  else if p = 0x101 then 0xf
  else if 0x10 ≤ p ∧ p < 0x12 then 0x1ff
  else if 0x80 ≤ p ∧ p < 0xc0 then 0xff0b
  else if 0xc0 ≤ p ∧ p < 0xc4 then 0x3
  else if 0x20 ≤ p ∧ p < 0x24 then 0xff
  else if 0xc8 ≤ p ∧ p < 0xd0 then 0x7f
  else if p = 0xd0 then 0x7f
  else if 0xe0 ≤ p ∧ p < 0xf0 then 0xf
  else if p = 0x5 then 0x7
  else if p = 0x4 then 0x1ff
  else if p = 0x0 then 0x3
  else if p = 0x1 then 0x3f
  else if p = 0x2 then 0x3
  else if p = 0x3 then 0x3f
  else if p = 0x6 then 0x1f
  else if 0x110 ≤ p ∧ p < 0x114 then 0x1
  else 0

end Sys2Proof.Machine
end

