-- ==== Sys2Proof/Machine/Layout.lean ====
section
/-! DEFINITION. The Stipple layout, the geometry of a plate and the way from a volume block to a member
block (R13, R15, R21 to R29, R33, R34), and the stripe-lock set of R46. -/

namespace Sys2Proof.Machine

/-- Round up to a multiple. -/
def roundUp (x m : Nat) : Nat := (x + m - 1) / m * m

/-- DATA_OFFSET (Table STRIPE-8). -/
def dataOffset : Nat := 0x02B00000

/-- The fixed geometry of a plate (R13): it never changes while the plate exists. The offsets of its members' regions are those that its
label records (R33, Table STRIPE-9); a plate made here takes those of Table STRIPE-8. -/
structure Geom where
  n      : Nat
  w      : Nat
  shift  : Nat
  seed   : Nat
  rows   : Nat
  jOff   : Nat := 0x100000
  lbtOff : Nat := 0x900000
  catOff : Nat := 0xB00000
  datOff : Nat := dataOffset
  tagOff : Nat := roundUp (dataOffset + rows * 2 ^ shift) (2 ^ 20)
  deriving DecidableEq, Repr

/-- Data strips per stripe (Table STRIPE-1). -/
def Geom.k (g : Geom) : Nat := g.w - 2

/-- Stripes per row, G = ⌊N ÷ W⌋ (Table STRIPE-1). -/
def Geom.g (g : Geom) : Nat := g.n / g.w

/-- Spare depth, L = N − G × W (Table STRIPE-1). -/
def Geom.l (g : Geom) : Nat := g.n - g.g * g.w

/-- Strip size in bytes. -/
def Geom.s (g : Geom) : Nat := 2 ^ g.shift

/-- 4 KiB blocks per strip. -/
def Geom.bps (g : Geom) : Nat := 2 ^ (g.shift - 12)

/-- E, the whole stripes of one extent slot: ⌈2^30 ÷ (k × S)⌉ (R26). -/
def Geom.e (g : Geom) : Nat := (2 ^ 30 + g.k * g.s - 1) / (g.k * g.s)

/-- The extent slots of the plate (R26). -/
def Geom.slots (g : Geom) : Nat := min (g.rows * g.g / g.e) 4186112

/-- The limits of Table STRIPE-1 on k, W, N and S (R13). -/
def Geom.ok (g : Geom) : Bool :=
  decide (4 ≤ g.w ∧ g.w ≤ 32 ∧ g.w ≤ g.n ∧ g.n ≤ 128 ∧ 14 ≤ g.shift ∧ g.shift ≤ 20)

/-- The bytes a plate with this many rows uses on each member: 43 MiB + D + T (R34). -/
def usedBytes (shift rows : Nat) : Nat :=
  dataOffset + roundUp (rows * 2 ^ shift) (2 ^ 20) + roundUp (rows * 2 ^ shift / 512) (2 ^ 20)

/-- The largest rows that fits a capacity, by bisection of 33 steps (R34). -/
def fitRows (shift cap : Nat) : Nat → Nat → Nat
  | 0, lo => lo
  | b + 1, lo =>
    let m := lo + 2 ^ b
    if usedBytes shift m ≤ cap then fitRows shift cap b m else fitRows shift cap b lo

/-- rows of a plate whose smallest member has this capacity in bytes, capped at 2^32 − 1 (R34). -/
def rowsFor (shift cap : Nat) : Nat := min (fitRows shift cap 40 0) 4294967295

/-- One step of splitmix64: the new state and the output (R21). -/
def splitmix64 (s : U64) : U64 × U64 :=
  let s' := s + 0x9E3779B97F4A7C15#64
  let z1 := (s' ^^^ (s' >>> 30)) * 0xBF58476D1CE4E5B9#64
  let z2 := (z1 ^^^ (z1 >>> 27)) * 0x94D049BB133111EB#64
  (s', z2 ^^^ (z2 >>> 31))

/-- Swap two elements of a list. -/
def swapAt (l : List Nat) (i j : Nat) : List Nat :=
  let a := (l[i]?).getD 0
  let b := (l[j]?).getD 0
  (l.set i b).set j a

/-- The shuffle steps i, i−1, …, 1 of stipple_row() (R21). -/
def shuffle : Nat → U64 → List Nat → List Nat
  | 0, _, l => l
  | i + 1, s, l =>
    let (s', x) := splitmix64 s
    let j := x.toNat * (i + 2) / 2 ^ 64
    shuffle i s' (swapAt l (i + 1) j)

/-- The row permutation σ_r (R21). -/
def stippleRow (seed r n : Nat) : List Nat :=
  shuffle (n - 1) (BitVec.ofNat 64 seed ^^^ BitVec.ofNat 64 r) (List.range n)

/-- Where each absolute position of a row has its home (R24, spare_map): the member, or none where the
position is unrelocated. `seq m` is the FAIL_SEQ of member m, 0 where it has not failed. -/
def spareMap (sigma : List Nat) (gw : Nat) (seq : Nat → Nat) : List (Option Nat) :=
  let pos := sigma.take gw
  let avail := (sigma.drop gw).filter (fun m => seq m = 0)
  let failedPos := ((List.range gw).filter (fun p => seq ((pos[p]?).getD 0) ≠ 0)).mergeSort
    (fun a b => decide (seq ((pos[a]?).getD 0) ≤ seq ((pos[b]?).getD 0)))
  (List.range gw).map (fun p =>
    let m := (pos[p]?).getD 0
    if seq m = 0 then some m else avail[failedPos.idxOf p]?)

/-- Row of a stripe sequence number (R23). -/
def Geom.rowOf (g : Geom) (sn : Nat) : Nat := sn / g.g

/-- The member at stripe position p of a stripe before any failure (R22). -/
def Geom.memberAt (g : Geom) (sn p : Nat) : Nat :=
  ((stippleRow g.seed (g.rowOf sn) g.n)[sn % g.g * g.w + p]?).getD 0

/-- The home of each of the W positions of a stripe under a failed set (R22, R24). -/
def Geom.homes (g : Geom) (seq : Nat → Nat) (sn : Nat) : List (Option Nat) :=
  ((spareMap (stippleRow g.seed (g.rowOf sn) g.n) (g.g * g.w) seq).drop (sn % g.g * g.w)).take g.w

/-- The member block address, in 4 KiB blocks, of a block of a row's strip slot (R22). -/
def Geom.mlba (g : Geom) (row blk : Nat) : Nat := g.datOff / 4096 + row * g.bps + blk

/-- The tag page of a block of a row's strip slot, and the tag's place in it (R29). -/
def Geom.tagPage (g : Geom) (row blk : Nat) : Nat × Nat :=
  ((row * g.bps + blk) / 512, (row * g.bps + blk) % 512)

/-- An extent-map entry (Table STRIPE-5): plate and slot of a placed extent. -/
structure Ext where
  plate : Nat
  slot  : Nat
  deriving DecidableEq, Repr

/-- Where a block lies within its plate: stripe, data position, block within the strip (R27). -/
structure Loc where
  sn  : Nat
  pos : Nat
  blk : Nat
  deriving DecidableEq, Repr

/-- The plate location of block `within` of the extent in slot `slot` (R27, resolve). -/
def Geom.resolve (g : Geom) (slot within : Nat) : Loc :=
  let a := slot * g.e * g.k * g.s + within * 4096
  let ks := g.k * g.s
  { sn := a / ks, pos := a % ks / g.s, blk := a % g.s / 4096 }

/-- The volume block within its extent that a data block of a slot's stripe holds: the reverse of
`resolve`, for the stripes of the slot. -/
def Geom.withinOf (g : Geom) (l : Loc) : Nat :=
  (l.sn % g.e) * g.k * g.bps + l.pos * g.bps + l.blk

/-- The extent slot a stripe belongs to (R26). -/
def Geom.slotOf (g : Geom) (sn : Nat) : Nat := sn / g.e

/-- lock_set() (R46). -/
def lockSet (plate sn : Nat) : Nat :=
  let h := sn ^^^ (sn / 2 ^ 15) ^^^ (sn / 2 ^ 30) ^^^ (plate * 2 ^ 9)
  h % 2 ^ 15

/-- A protection tag (Table STRIPE-6). -/
def mkTag (crc gen type : Nat) : Nat := crc % 2 ^ 32 * 2 ^ 32 + gen % 2 ^ 24 * 2 ^ 8 + type % 2 ^ 8

def tagCrc (t : Nat) : Nat := bitsOf t 32 32
def tagGen (t : Nat) : Nat := bitsOf t 8 24
def tagType (t : Nat) : Nat := bitsOf t 0 8

/-! Block types (Table STRIPE-7). -/
def tyUnwritten : Nat := 0
def tyData : Nat := 1
def tyP : Nat := 2
def tyQ : Nat := 3
def tyZero : Nat := 4

/-- Types that count as zero in P and Q and whose member content is ignored (Table STRIPE-7). -/
def tyIsZero (t : Nat) : Bool := t = tyUnwritten || t = tyZero

/-- The tag of a block as written: CRC-32C of its 4,096 bytes, 0 for types UNWRITTEN and ZERO (R29, R32). -/
def tagFor (d : Block) (gen type : Nat) : Nat :=
  mkTag (if tyIsZero type then 0 else crc32c (slice d 0 4096)) gen type

/-- GEN a is newer than GEN b: their difference modulo 2^24 is below 2^23 (R87). -/
def genNewer (a b : Nat) : Bool := decide (a ≠ b) && decide ((a + 2 ^ 24 - b) % 2 ^ 24 < 2 ^ 23)

end Sys2Proof.Machine
end

