-- ==== Sys2Proof/Machine/StateIo.lean ====
section
/-! DEFINITION. The data path's part of the state: commands, segments, journal entries, stripe locks,
member requests, stripe operations, plates, volumes, the cache and the vault. Plain data only. -/

namespace Sys2Proof.Machine

/-! ### Commands (chapters 8 and 3) -/

/-- Where a consumed command stands. -/
inductive CPhase where
  | sgl        -- its scatter list is being read (R199)
  | presented  -- checked, not started
  | running    -- its opcode's row has started it
  | held       -- ended, its completion entry held while bus mastering is off (R225)
  deriving DecidableEq, Repr

/-- A command consumed and not completed. -/
structure Cmd where
  ctx    : Nat
  role   : Nat                  -- the session's role when it was consumed (R415)
  raw    : List Byte            -- the 64-byte submission entry (Table RING-1)
  since  : Nat                  -- device time its tail doorbell was accepted (R235)
  phase  : CPhase
  bufs   : List (Nat × Nat)     -- data buffer as (address, bytes) runs (R199)
  fail   : Option (Nat × Status) -- lowest failed block and its status (R208)
  detail : Nat
  result : Nat
  todo   : Nat                  -- blocks of the command not yet cut into pieces or presented
  waits  : Nat                  -- segments, member runs and stripe operations it waits for
  rdBlks : Nat                  -- blocks that count in BYTES_READ
  wrBlks : Nat                  -- blocks that count in BYTES_WRITTEN
  got    : SMap Block           -- blocks read, by block offset in the command
  host   : List Byte            -- host data fetched for COMPARE or an admin page
  fixed  : Nat                  -- blocks rebuilt after a tag failure (R214)
  keys   : List (Nat × Nat × Nat × Nat) -- FLUSH: blocks not yet on the members, as (plate, stripe, linear block, admission number)
  wrote  : List (Nat × Nat × Nat × Nat) := [] -- blocks its segments have written that are not yet on the members (R212)
  srcBad : Option (Status × Nat) := none -- COPY: what its source's check gave when it was consumed (R215, R220)
  defer  : List Nat             -- block offsets that wait for a staging entry to be freed (R51)
  tries  : Nat                  -- admin work still to do, by opcode
  deriving DecidableEq, Repr

/-- Which party a segment writes for (R43, R143, R468). -/
inductive SegSrc where
  | host | destage | lossFill | replay
  deriving DecidableEq, Repr

/-- What staging held of an entry that replay writes again (R161, Table CACHE-7). -/
structure Redo where
  recon  : Bool
  forced : Bool
  old    : SMap TBlk            -- old contents read, by position × 256 + block
  erased : List Nat
  zeros  : List Nat             -- linear blocks written as ZERO
  skip   : List Nat             -- its SKIP_MASK
  deriving DecidableEq, Repr

/-- A write segment: the part of a write that lies in one stripe (R43). -/
structure Seg where
  src    : SegSrc
  cmd    : Nat                  -- command number; 0 for the device's own work
  group  : Nat                  -- atomic group (R44); 0 for none
  head   : Bool
  gBlks  : Nat                  -- blocks of the whole group
  pBlks  : Nat                  -- blocks of the group on this plate (R77)
  gWhole : Bool                 -- every segment of the group covers its stripe
  vol    : Nat
  lba    : Nat                  -- first volume block of the segment
  plate  : Nat
  sn     : Nat
  wset   : List Nat             -- data blocks written, as position × blocks-per-strip + block, rising
  zero   : Bool                 -- Write Zeroes or deallocate (R67)
  dealloc : Bool
  refuse : Option Status        -- rows 2 and 3 of Table WRITE-4, from the extent map
  data   : SMap Block           -- data the device already holds (FILL, COPY, destage, replay)
  maint  : Bool                 -- granted under a MAINT lock already held (R468)
  adm    : Nat                  -- admission number (R138); 0 before the decision
  pOff   : Nat := 0             -- blocks of its group on this plate that lie before it (R77)
  redo   : Option Redo := none  -- staging of the entry that replay writes again
  pq     : Option (Nat × Nat) := none -- replay: P and Q alone are written, over these blocks (Tables CACHE-8, LINK-4, R162)
  deriving DecidableEq, Repr

/-- The write paths (Table WRITE-1). -/
inductive WPath where
  | stream | cache | direct | destage
  deriving DecidableEq, Repr

/-- Journal states (Table WRITE-5). -/
inductive JState where
  | opened | dataStaged | parityDone | committed
  deriving DecidableEq, Repr

/-- A journal entry in use: Table WRITE-5, with what staging holds for it. -/
structure JEntry where
  seg       : Seg
  state     : JState
  staged    : Bool
  path      : WPath
  unbacked  : Bool
  logged    : Bool
  recon     : Bool
  forced    : Bool              -- the reconstruct-write of R65
  degraded  : Bool
  headIdx   : Nat
  nextIdx   : Nat
  writeSeq  : Nat
  dataMask  : List Nat          -- stripe positions written, P and Q included
  doneMask  : List Nat
  skipMask  : List Nat
  tagMask   : List Nat
  blkFirst  : Nat
  blkLast   : Nat
  stage     : Nat × Nat         -- first staging page, page count
  log       : Nat × Nat         -- first atomic-log block (0xFFFF none), count
  pipe      : Nat
  openUs    : Nat               -- device time in µs at OPEN; the record holds its low 32 bits
  recSeq    : Nat
  newData   : SMap Block        -- by linear data block
  old       : SMap TBlk         -- old contents read, by position × 256 + block
  erased    : List Nat          -- positions × 256 + block that could not be read or fail their tag
  zeros     : List Nat          -- linear blocks written as ZERO
  parity    : SMap Block        -- new P and Q, by position × 256 + block
  recStep   : Nat               -- record step of Sequence WRITE-2: 0 none, 1 due, 2 in a Write, 3 done
  logDone   : Bool              -- atomic-log step done, or not needed
  posted    : Bool              -- completion point reported to the command
  slots     : List (Nat × Nat)  -- CACHE, DESTAGE: (linear data block, cache slot)
  mirWait   : Nat               -- partner acknowledgements awaited (R141)
  linkAck   : List Nat          -- states whose record's flits have been acknowledged (R333)
  wrHeld    : Bool              -- its member writes wait for that of PARITY_DONE
  wrOut     : Bool := false     -- its member writes have been started (R68)
  tenant    : Nat := 0          -- TENANT and CID of the command, 0 for the device's own work
  cid       : Nat := 0
  owed      : Bool := false     -- its command was ended by reset: BYTES_WRITTEN is added when it is COMMITTED (R241)
  burBytes  : Nat := 0          -- DESTAGE: bytes the Burin pipes processed for it (R241)
  deriving DecidableEq, Repr

/-- What waits for a stripe lock or another resource (R47, R53). -/
inductive WaitItem where
  | seg (g : Seg)
  | sop (id : Nat)
  deriving DecidableEq, Repr

/-- A stripe-lock entry (Table WRITE-2). WAIT is read from the wait list. -/
structure Lock where
  plate   : Nat
  sn      : Nat
  stream  : Bool
  rmw     : Bool
  maint   : Bool
  staged  : Bool
  cache   : Nat
  readers : Nat
  deriving DecidableEq, Repr

/-- What an atomic group took at its head's grant (R45, R146). -/
structure Group where
  headIdx  : Nat
  unbacked : Bool
  path     : WPath
  slotsDue : Nat                -- slots its later segments will take
  passed   : Bool               -- the commit point is passed (R57)
  streamEn : Bool := true       -- STREAM_EN in the cycle of the head's grant (R45)
  logs     : List (Nat × Nat × Nat) := [] -- its atomic-log run on each plate: (plate, first block, count) (R77)
  deriving DecidableEq, Repr

/-! ### Member requests -/

/-- What a member request is for. -/
inductive Purpose where
  | strip (j pos : Nat)                 -- a strip of a journal entry (R68)
  | dual (j pos : Nat)                  -- the same at the old home of a window stripe (R102)
  | old (j pos : Nat)                   -- old contents for a journal entry (R64, R65)
  | tagRd (key : Nat)                   -- tag page read for read-merge-write (R69)
  | tagPage (key : Nat)                 -- tag page read in the batch of a data read (R85)
  | tagWr (key : Nat)
  | record (plate mem blk : Nat)        -- journal records (R78)
  | log (j mem : Nat)                   -- atomic log (R77)
  | header (plate mem : Nat)            -- journal header (R76)
  | joinHdr (plate mem : Nat)           -- read of the journal header of a namespace that joins a plate (R76)
  | remir (plate mem : Nat)             -- copy of R79
  | lbt (plate mem : Nat)
  | cmdRd (cmd off : Nat)               -- blocks of a command from a block offset on
  | sopRd (sop pos : Nat)
  | sopWr (sop pos : Nat)
  | label (plate mem : Nat)
  | catalogue (plate mem : Nat)
  | tagInit (plate mem : Nat)           -- Write Zeroes of the tag area (R221)
  | dealloc
  | vault (chunk : Nat)
  | remote (src tag arg : Nat)          -- a MEMBER_IO request of another node (R335)
  | resv (action : Nat)                 -- reservation: 0 register, 1 acquire, 2 release, 3 report, 4 preempt (R294, R340)
  | other
  deriving DecidableEq, Repr

/-- The NVMe commands the device issues (Table DRIVE-1). -/
inductive NvOp where
  | read | write | flush | writeZeroes | deallocate | identify | smart | reservation
  deriving DecidableEq, Repr

/-- An NVMe command outstanding at a member. -/
structure NvCmd where
  plate : Nat                   -- 64 where no plate is concerned
  mem   : Nat
  node  : Nat                   -- node whose drive port holds it
  port  : Nat
  nsid  : Nat
  sn    : Nat                   -- stripe and position concerned, where there is one
  pos   : Nat
  op    : NvOp
  lba   : Nat                   -- first 4 KiB block
  n     : Nat                   -- blocks
  data  : List Byte
  why   : Purpose
  tries : Nat
  since : Nat := 0              -- device time when it was given to its port (Table ROLE-6, member read latency)
  fua   : Bool := decide (op = .write) -- every Write carries FUA (Table DRIVE-1, R35, R68, R76, R152)
  pair  : Option Nat := none     -- I/O queue pair of its port that holds it; none while it waits for one, or is another node's to issue (R290)
  deriving DecidableEq, Repr

/-- The buffer of one tag page at one member (R69). -/
structure TagBuf where
  plate   : Nat
  mem     : Nat
  page    : Nat
  loaded  : Bool
  reading : Bool
  writing : Bool
  tags    : SMap Nat                         -- tags of the page, by index
  due     : List (Nat × Nat)                 -- (index, tag) merged into the next Write
  dueFor  : List (Bool × Nat × Nat)          -- whose tags those are: (entry?, entry or stripe operation, position)
  inWrite : List (Bool × Nat × Nat)          -- whose tags the outstanding Write carries
  deriving DecidableEq, Repr

/-- The device's work on one stripe under a MAINT lock. -/
inductive SopKind where
  | recon (cmd off : Nat)       -- degraded read for a command's blocks from an offset on (R88)
  | rebuild                     -- a rebuild step (Sequence REBUILD-2)
  | proof                       -- a Proof pass unit
  | loss                        -- Sequence REBUILD-1
  deriving DecidableEq, Repr

inductive SopPhase where
  | lock | pipe | reading | burin | writing | listing | done
  deriving DecidableEq, Repr

/-- One stripe operation. -/
structure Sop where
  kind   : SopKind
  plate  : Nat
  sn     : Nat
  first  : Nat                  -- blocks within the strip
  last   : Nat
  phase  : SopPhase
  grid   : SMap TBlk            -- by position × 256 + block
  erased : List Nat             -- position × 256 + block
  tagBad : List Nat             -- of those, erased by a read error or tag failure (R89)
  lost   : List Nat             -- blocks with more than two erasures
  waits  : Nat
  pipe   : Nat
  tagWaits : Nat
  charge : Nat                  -- member bytes charged (R104)
  mark   : Bool                 -- its lost blocks' entries have been presented (Sequence REBUILD-1 step 3)
  fix    : List Nat             -- grid keys being rewritten (R89, R122)
  located : List Nat            -- of those, located repairs (R123)
  full   : Bool                 -- a rebuild step reads every survivor (Sequence REBUILD-2 step 2)
  want   : List Nat := []       -- the positions it reads
  ctx    : Option Nat := none   -- context of the read it reconstructs for (R241)
  deriving DecidableEq, Repr

/-- A job on a Burin pipe (R71). -/
inductive JobRef where
  | entry (j : Nat)
  | sop (id : Nat)
  deriving DecidableEq, Repr

structure Job where
  pipe  : Nat
  ref   : JobRef
  maint : Bool                  -- maintenance class (R72)
  avoid : Nat := 8              -- the pipe whose BLOCK_RESET it left: it restarts elsewhere (R83); 8 for none
  deriving DecidableEq, Repr

/-! ### Host requests -/

/-- What a device read of host memory is for. -/
inductive HPurpose where
  | entry (ctx idx : Nat)
  | sgl (cmd : Nat)
  | wdata (j : Nat)
  | cmp (cmd : Nat)
  deriving DecidableEq, Repr

structure HRead where
  port : Nat
  func : Nat
  runs : List (Nat × Nat)       -- (address, bytes)
  why  : HPurpose
  sent : Bool                   -- its requests have been issued and not answered
  late : Bool                   -- its completion is to be dropped
  rest : List (Nat × Nat) := [] -- requests not issued yet for want of room, once its first have been (R264)
  since : Nat := 0              -- device time at which its first request was issued (R266)
  deriving DecidableEq, Repr

/-- A context's working data beside its registers. -/
structure Ctx where
  vis      : List Nat           -- times the unfetched visible entries became visible, oldest first
  fetching : Nat                -- fetches in flight
  unsig    : Nat                -- entries posted since the last message (R203)
  copy     : List Nat           -- counters copied at the last epoch's end (R242)
  prev     : List Nat           -- their copy at the epoch before
  cfgSched : List Nat           -- scheduling values in force since the last round start (R238)
  bulkAt   : Nat := 0           -- device time from which the rate of its FILL and COPY pieces covers the next one (R354)
  got      : SMap (Option (List Byte)) := [] -- entries that have arrived and are not consumed, by index; none where the fetch failed (R204)
  deriving DecidableEq, Repr

/-- The data path. -/
structure Io where
  cmds     : SMap Cmd
  nextCmd  : Nat
  ctxs     : SMap Ctx
  queue    : List Seg           -- presented, waiting for their admission decision
  waitl    : List WaitItem      -- the wait list (R53)
  locks    : List Lock
  journal  : SMap JEntry
  groups   : SMap Group
  nextGrp  : Nat
  admCount : Nat                -- admission numbers given (R138)
  jobs     : List Job
  waking   : List Nat           -- pipes woken and not yet accepting (R71)
  nvme     : SMap NvCmd
  nextNv   : Nat
  tagBufs  : SMap TagBuf
  sops     : SMap Sop
  nextSop  : Nat
  hreads   : SMap HRead
  nextTag  : Nat
  expired  : SMap Nat := []     -- functions of reads whose time-out has been reported, by tag, until a completion for it arrives (R268)
  tagCache : SMap (SMap Nat) := [] -- DRAM tag cache: of the pages it holds, the tags known here, by index in the page (R85)
  pins     : List (Nat × Nat × Nat × Nat × Nat) := [] -- staging pins whose bytes are not sent: (command, port, function, plate, stripe) (R51)
  told     : List (Nat × Nat × Nat × Nat × Nat) := [] -- blocks of writes whose completion is posted that are not yet on the members: volume and (plate, stripe, linear block, admission number) (R212)
  deriving DecidableEq, Repr

/-! ### Plates and volumes -/

/-- Member states (Table STRIPE-10). -/
inductive MState where
  | online | fresh | missing | failed | rebuilding | spareHeld | foreign
  deriving DecidableEq, Repr

/-- Plate states (Table STRIPE-10). -/
inductive PState where
  | building | optimal | degraded1 | degraded2 | rebuilding | copyback | failed | foreign | importing
  deriving DecidableEq, Repr

structure Member where
  node     : Nat
  port     : Nat
  nsid     : Nat
  state    : MState
  failSeq  : Nat
  driveKey : Nat
  errs     : List Nat           -- operating minutes of its unrecovered read errors (R93)
  genA     : Option Nat         -- LABEL_GEN of its label copy A, none where invalid (R37)
  genB     : Option Nat
  seen     : Bool := true       -- its label copies have been read, or one has been written
  deriving DecidableEq, Repr

/-- A range of stripes in walk order with its realised set (R99). In `set`, m stands for member m, and 128 + m says that the replacement in
slot m has not been written there, since no pass has walked these stripes after its REPLACE (R86, R96). -/
structure Range where
  start : Nat
  set   : List Nat
  deriving DecidableEq, Repr

/-- A lost-block table entry (Table STRIPE-13). -/
structure Lost where
  row   : Nat
  pos   : Nat                   -- absolute position in the row, as j × W + p
  blk   : Nat
  mem   : Nat
  opMin : Nat
  deriving DecidableEq, Repr

/-- A rebuild pass. -/
structure Pass where
  running : Bool
  paused  : Bool                -- PAUSE_PASS
  tgt     : List Nat            -- the target set the walk realises (R106)
  cursor  : Nat
  walked  : Nat                 -- stripes since the last record
  pos     : Nat                 -- µs from the pass start to the present slice's start (R105)
  len     : Nat                 -- nominal length of the present slice, µs
  budget  : Nat
  hostBw  : Nat                 -- member bytes host work used in the present slice (H of R104)
  recSeq  : Nat
  ckpt    : Nat                 -- cursor of the last durable record
  window  : List (Nat × List Nat) -- walked stripes not covered by a durable record, with the old realised set
  recAt   : Nat := 0            -- device time of the last record, s (R102)
  deriving DecidableEq, Repr

/-- The Proof pass cycle of a plate. -/
structure Cycle where
  running   : Bool
  suspended : Bool              -- held by R117 since suspAt
  cursor    : Nat
  started   : Bool              -- some cycle has started on this plate
  startAt   : Int               -- device time of the last start, s; below 0 where it lies before power-up
  deadline  : Nat               -- device time of the deadline, s
  overdue   : Bool
  recSeq    : Nat
  pos       : Nat               -- µs from the cycle start to the present slice's start (R130)
  len       : Nat
  budget    : Nat
  hostBw    : Nat               -- member bytes host work used in the present slice
  pausedBy  : Bool              -- PAUSE of PRF_CMD (R117)
  suspAt    : Nat               -- device time at which it was suspended, s
  units     : SMap Nat          -- units already checked, by stripe, of stripes from the cursor on
  lastEnd   : Nat               -- operating minutes at the last cycle end
  recAt     : Option Nat := none -- device time of the last record since start-up, s (R118)
  endDue    : Bool := false     -- the cycle has ended and its record is due (R118)
  deriving DecidableEq, Repr

/-- The journal members of a plate in unbacked mode (R75 to R79). -/
structure JPair where
  a       : Option (Nat × Nat)  -- member index and its header's PAIR_GEN
  b       : Option (Nat × Nat)
  hdrWait : Nat                 -- header writes outstanding on entry to unbacked mode
  copying : Bool                -- a copy of R79 runs
  copyTo  : Nat
  copyGen : Nat
  copyWait : Nat
  mark    : Nat                 -- the plate's PAIR_GEN mark
  dirty   : List Nat            -- record blocks changed and not yet written
  writing : List (Nat × Nat)    -- (member, record block) with a Write outstanding
  refill  : Bool := false       -- a new pair has no complete copy of the plate's records yet (R79)
  copyAll : Nat := 0            -- Writes that the running copy takes
  lostAt  : Nat := 0            -- index of the journal member that failed last (R79)
  deriving DecidableEq, Repr

/-- A replacement on its way into a slot (R107). -/
structure Repl where
  stage : Nat                   -- 0 label and journal header, 1 catalogue and lost-block table
  cmd   : Bool                  -- a REPLACE command ends with it; false for an automatic return (R109)
  deriving DecidableEq, Repr

structure Plate where
  id        : Nat
  geom      : Geom
  building  : Bool
  importing : Bool
  impPage   : Option Nat        -- page of the IMPORT command that waits
  gone      : Bool              -- not owned by this node any more
  owner     : Nat
  standby   : Nat               -- node ID; 0xFFFF when none
  attached  : Bool              -- the standby is attached (R332)
  members   : List Member
  labelGen  : Nat
  labelBusy : Bool
  labelWait : List Nat          -- members whose label write is outstanding
  labelMore : Bool              -- a further label update is due
  labelSeq  : Nat               -- WRITE_SEQ_BASE of the label being written
  pendFail  : List (Nat × MState) -- failures to declare in the next label update (R95)
  failNext  : Nat               -- FAIL_SEQ_NEXT
  createdOp : Nat
  catGen    : Nat
  cat       : SMap (Nat × Nat)  -- catalogue: slot to (volume, extent)
  catBad    : List Nat          -- catalogue pages with no valid copy (R41)
  latch     : Bool              -- FAILED_LATCH
  ranges    : List Range
  pass      : Pass
  cycle     : Cycle
  seqNo     : Nat               -- plate write sequence number (R59)
  seqBase   : Nat               -- durable WRITE_SEQ_BASE
  lastRow   : Nat               -- row of the last grant since start-up
  lbt       : List Lost
  lbtGen    : Nat
  lbtFull   : Bool
  lbtDirty  : Bool
  jp        : JPair
  state     : PState            -- the state last written to the label (R97)
  repl      : SMap Repl         -- slots being filled, by member index (R107, R109)
  mirrorOn  : Bool              -- the standby has accepted the mirror (R141)
  resvGen   : Nat := 0          -- LABEL_GEN when its reservations were acquired (R294)
  deriving DecidableEq, Repr

/-- A volume descriptor (Table RING-10). -/
structure Vol where
  extents  : Nat
  plates   : List Nat           -- PLATE_IDs
  attach   : List (Option (Nat × Nat × Bool)) -- four slots: port, function, read-only
  deleting : Bool
  seq      : Nat
  deriving DecidableEq, Repr

/-- A lost-write entry (Table CACHE-9). -/
structure LostW where
  vol   : Nat
  lba   : Nat
  count : Nat
  opMin : Nat
  deriving DecidableEq, Repr

/-- A suspect-list entry (Table PROOF-2). -/
structure Suspect where
  plateId : Nat
  sn      : Nat
  first   : Nat
  last    : Nat
  why     : Nat
  opMin   : Nat
  deriving DecidableEq, Repr

/-- A FOREIGN plate: its governing label, and where its namespaces were found, as (port, NSID, DRIVE_KEY). -/
structure Foreign where
  id    : Nat
  label : List Byte
  spots : List (Nat × Nat × Nat)
  deriving DecidableEq, Repr

structure Store where
  plates   : SMap Plate
  vols     : SMap Vol
  lostw    : List LostW
  lostwDirty : Bool
  suspects : List Suspect
  suspDirty : Bool
  foreigns : List Foreign       -- FOREIGN plates found at assembly (R110)
  purge    : SMap Nat           -- volumes whose deletion was resumed at start-up, with the extent being zeroed (R220)
  deriving DecidableEq, Repr

/-! ### Cache and vault -/

/-- Slot states (Table CACHE-1); FREE slots are not listed. -/
inductive SlotState where
  | filling | dirty | destaging | retired
  deriving DecidableEq, Repr

structure Slot where
  state : SlotState
  plate : Nat
  sn    : Nat
  lin   : Nat                   -- linear data block
  vol   : Nat
  zero  : Bool
  seq   : Nat                   -- admission number of the writing segment
  since : Nat                   -- time it became DIRTY
  ctx   : Nat                   -- the writer's context
  data  : Block
  dealloc : Bool := false       -- written by DEALLOCATE (R211)
  entered : Nat := 0            -- admission decisions made when it became current (R138)
  high : Option Block := none   -- the copy on its pair's higher channel, where it differs from 'data', that on the lower one (R135)
  deriving DecidableEq, Repr

/-- A vault image as it stands on the targets. -/
structure Image where
  seq      : Nat
  flags    : Nat                -- REPLAYED, MIRRORED, FENCE_DUMP (Table CACHE-4)
  cause    : Nat
  chunks   : Nat
  time     : Nat                -- DUMP_TIME, ns
  opMin    : Nat
  cycles   : Nat                -- PWR_CYCLES
  node     : Nat
  unbacked : Bool
  plateIds : List (Nat × Nat)   -- plate index and PLATE_ID
  entries  : SMap JEntry         -- entries not free, each in its effective state
  records  : SMap (List Byte)   -- the same as journal records (Table WRITE-5)
  dir      : List (Nat × Slot)  -- dumped slots by slot number
  deriving DecidableEq, Repr

structure Cache where
  slots    : SMap Slot
  pmirOff  : List Nat           -- standby nodes mirroring is suspended to (R142)
  pmirWait : SMap (Nat × Nat)   -- outstanding MIRROR_WRITEs: message number to (node, entry)
  nextMir  : Nat
  pmirCopy : SMap (Nat × Nat × Nat) := []     -- outstanding copies before mirroring begins or resumes: message number to (node, slot, SEQ) (R142)
  pmirDone : List (Nat × Nat × Nat) := []     -- those acknowledged
  flush    : Option (List (Nat × Nat × Nat × Nat)) -- CCH FLUSH running: blocks still to reach the members
  above    : Bool               -- DIRTY_CEIL is at or above the return threshold (R147)
  ceil     : Nat                -- DIRTY_CEIL, uncapped
  copying  : List Nat           -- released channels not yet written from their pair's other channel (R149)
  image    : Option Image       -- the image written last
  dumping  : Bool
  dumpLeft : Nat                -- chunks still to complete
  dumpNext : Nat                -- next chunk to issue
  dumpThen : Nat                -- reset code that follows a dump on main power (Table POWER-4); 16 for BACKUP, 17 for a fence
  testOk   : Bool × Bool        -- whether the test regions of the targets came back (R151)
  replay   : Nat                -- 0 not begun, 1 waiting for members, 2 running, 3 done (Sequence CACHE-2)
  badChunks : List Nat          -- chunks of the image with no valid copy
  jrec     : SMap (List (Nat × List Byte) × List (Nat × Block)) -- governing member journals as found, by plate: records and log blocks by number (R75, R162)
  latch    : Bool               -- VLT_STAT.DIRTY_LATCH as kept in the always-on domain
  deriving DecidableEq, Repr

def Io.reset : Io :=
  { cmds := [], nextCmd := 1, ctxs := [], queue := [], waitl := [], locks := [], journal := [], groups := [],
    nextGrp := 1, admCount := 0, jobs := [], waking := [], nvme := [], nextNv := 1, tagBufs := [], sops := [],
    nextSop := 1, hreads := [], nextTag := 1 }

def Store.reset : Store :=
  { plates := [], vols := [], lostw := [], lostwDirty := false, suspects := [], suspDirty := false, foreigns := [], purge := [] }

def Cache.reset : Cache :=
  { slots := [], pmirOff := [], pmirWait := [], nextMir := 1, flush := none, above := false, ceil := 0,
    copying := [], image := none, dumping := false, dumpLeft := 0, dumpNext := 0, dumpThen := 0, testOk := (false, false), replay := 0,
    badChunks := [], jrec := [], latch := false }

end Sys2Proof.Machine
end

