-- ==== Sys2Proof/Machine/StateHw.lean ====
section
/-! DEFINITION. The rest of the device's state: outputs, host ports, drive ports, DRAM channels, links, the
block mover, interrupts, faults, power, roles, the event recorder, the scheduler and the flash. -/

namespace Sys2Proof.Machine

/-- What a port does to a controller beside its I/O commands (R289 to R291, Tables DRIVE-1, DRIVE-3). -/
inductive NvAdmin where
  | identifyController
  | activeNamespaces
  | identifyNamespaces
  | createQueues (pairs : Nat)
  | deleteQueues
  | clearEnable
  | smartLog
  | shutdownNotice
  deriving DecidableEq, Repr

/-- What the device sends out. -/
inductive Out where
  | hostRead (tag port func addr len : Nat) (relaxed : Bool)
  | hostWrite (port func addr : Nat) (bytes : List Byte) (relaxed : Bool)
  | msi (port func vector addr data : Nat)         -- with the address and data of its entry as it is sent (R261, R262)
  | entryDue (cmd : Nat)                           -- never sent: the place of a command's completion entry among the held writes (R225, R269)
  | pcie (port : Nat) (kind : PcieMsg) (val : Nat)
  | nvme (id : Nat) (c : NvCmd) (prps : List Nat)  -- issued on its queue pair, with its PRP entries, one for each block (R289, R290)
  | nvmeAdmin (port : Nat) (cmds : List NvAdmin)   -- on the port's admin pair, whose 16 entries every such list fits (Table DRIVE-1, R290)
  | msg (link : Nat) (kind : MsgKind) (m : Msg)   -- a message started on a link; its flits follow
  | flit (link : Nat) (bytes : List Byte)
  | smbus (addr code : Nat) (bytes : List Byte)    -- a transaction with the pack (Table ENERGY-2): a Block Write's bytes with their PEC, none for a Block Read
  | pin (name val : Nat)
  | core (n entry : Nat)                           -- a core enters at an address (R368)
  | read (w : Win) (page off val : Nat)            -- what a read of a register returns
  | cfgRetry (w : Win) (off : Nat)                 -- a configuration request answered with Configuration Request Retry Status
  | badRead (w : Win) (page off : Nat) (ur : Bool) -- a read that completes with Unsupported Request or Completer Abort
  deriving DecidableEq, Repr

/-- The backup energy monitor beside its page (chapter 7). It lives in the always-on domain. -/
structure Bem where
  eBytes  : Nat                 -- the energy bound last delivered (R191), in bytes
  serial  : List Byte           -- pack serial from IDENT; empty before it is read
  cells   : Nat                 -- series cells from IDENT
  packId  : Option Nat          -- PACK_ID of the pack the model is kept for
  nonce   : Option (List Byte)  -- the challenge sent and not answered (R189)
  fails   : Nat                 -- failed attempts of the running authentication
  ma      : Int                 -- pack current of the last sample, mA
  charge  : Nat                 -- state of charge in ppm × learned mAh, so one unit is 1 nAh (R175)
  part    : Int                 -- charge counted below 1 nAh, in mA·µs × 1 %
  disch   : Nat                 -- discharge since the last whole cycle, nAh (R184)
  dischUs : Nat                 -- discharge counted below 1 nAh, mA·µs
  cap80   : Bool                -- CONF_PCT is held to 80 (R177, R190)
  estDue  : Bool                -- the loaded estimate of R177 is due
  soc1    : Option Nat          -- SoC1 of the running learning cycle, ppm
  dq      : Nat                 -- ΔQ, mA·µs
  secUs   : Nat                 -- the running second of PHASE 2: its time and its discharge in mA·µs
  secQ    : Int
  badUs   : Nat                 -- stretch of cause 3 (Table ENERGY-5), µs
  step    : Option (Nat × Int × Nat) -- sample before a load step: mV, mA, band (R183)
  dumpUs  : Nat                 -- time and energy of the dump so far (R173): µs and mV·mA·µs
  dumpE   : Int
  learnOp : Nat                 -- OP_MINUTES at the last qualified cycle
  restOp  : Nat                 -- OP_MINUTES at the last rest reading
  due     : Bool                -- a store write is due (R187)
  learnAuto : Bool := false     -- the running learning cycle began by itself (R180)
  learnRetry : Nat := 0         -- OP_MINUTES before which a disqualified automatic cycle is not tried again (R181)
  deriving DecidableEq, Repr

def Bem.reset : Bem :=
  { eBytes := 0, serial := [], cells := 0, packId := none, nonce := none, fails := 0, ma := 0, charge := 0, part := 0,
    disch := 0, dischUs := 0, cap80 := true, estDue := false, soc1 := none, dq := 0, secUs := 0, secQ := 0, badUs := 0,
    step := none, dumpUs := 0, dumpE := 0, learnOp := 0, restOp := 0, due := false }

/-- A host function: the PF (function 0) or a VF of a port. -/
structure HFn where
  bme     : Bool
  cfg     : FnCfg
  flr     : Bool                -- a reset of it is in progress
  held    : List Out            -- posted writes and messages held while bus mastering is off (R269), oldest first
  table   : SMap Nat            -- MSI-X table, by 4 × entry + word; an entry's mask bit is set at reset
  pba     : List Nat            -- vectors with a pending bit
  aer     : List Aer            -- errors logged
  first   : Option Aer          -- the error the header log holds
  pme     : Bool                -- PME_Status
  deriving DecidableEq, Repr

/-- The configuration registers at their reset values (R266; the PCI Express defaults for the rest). -/
def FnCfg.reset : FnCfg :=
  { msix := false, fmask := false, msi := none, msiMask := [], relaxed := true, mps := 128, mrrs := 512, tag10 := false, cto := 0,
    pmeEn := false, ltrEn := false, aspmL1 := false }

def HFn.reset : HFn :=
  { bme := false, cfg := FnCfg.reset, flr := false, held := [], table := [], pba := [], aer := [], first := none, pme := false }

structure HostSt where
  ids   : List Nat := [0x1F6D, 0x1F6D] -- HEP_SUBSYS of each port as configuration space was set up with it (Table HOST-2)
  fns   : SMap HFn              -- by port × 1,024 + function
  up    : List Nat              -- ports whose link is in L0 or L1
  l2    : List Nat              -- ports whose link is in L2 or L3 (R279)
  l11   : List Nat := []        -- ports whose link is in L1.1 (R279)
  perst : List Nat              -- ports whose PERST# is asserted
  crs   : List Nat              -- ports that answer configuration requests with Configuration Request Retry Status (R274, R403)
  deriving DecidableEq, Repr

def HostSt.reset : HostSt := { fns := [], up := [], l2 := [], perst := [0, 1], crs := [0, 1] }

/-- A namespace of a drive. -/
structure Ns where
  nsid  : Nat
  bytes : Nat
  lbaOk : Bool                  -- 4,096-byte LBAs without metadata (R288)
  genA  : Option Nat            -- LABEL_GEN of label copy A, none where invalid
  genB  : Option Nat
  plateId : Nat                 -- PLATE_ID of its best label; 0 for none
  foreign : Bool := false       -- device-view member state FOREIGN (Table REBUILD-7)
  deriving DecidableEq, Repr

structure DPort where
  key       : Nat               -- DRIVE_KEY
  mdts      : Nat               -- blocks per command (R289)
  nss       : List Ns           -- tracked namespaces, lowest NSID first (R288)
  resets    : Nat               -- resets in a row without a successful completion (R291)
  resetting : Bool
  queues    : Nat := 65535      -- I/O queue pairs the drive allows (R290)
  turn      : Nat := 0          -- queue pair the next command takes (R290)
  aspm      : Bool := true      -- the drive advertises ASPM L1 (R286)
  deriving DecidableEq, Repr

/-- A slot of the sideband bus (R297, R298), by drive port. -/
structure Bay where
  good    : Nat                 -- debounced inputs, Table DRIVE-2
  cand    : SMap Nat            -- inputs that differ from them, with the time of the first frame that showed it
  perstN  : Bool                -- PERST_N output
  refclk  : Bool                -- REFCLK_EN output
  pressed : Bool                -- an accepted press not yet acted on
  window  : Bool                -- the 5 s window is open (Table DRIVE-3)
  refused : Nat                 -- ATTN_IND blinks for 5 s from this time; 0 when it does not, else the time + 1
  pfault  : Bool                -- ATTN_IND lit since a power fault
  hold    : Bool                -- out of service until presence is regained or POWER_ON (R293)
  deriving DecidableEq, Repr

def Bay.reset : Bay :=
  { good := 0, cand := [], perstN := false, refclk := false, pressed := false, window := false, refused := 0, pfault := false, hold := false }

/-- Bad and good frames in a row of a sideband chain (R297). -/
structure Chain where
  bad  : Nat
  good : Nat
  deriving DecidableEq, Repr

structure DriveSt where
  ports  : SMap DPort
  bays   : SMap Bay             -- by drive port
  chains : SMap Chain
  blink  : Bool                 -- phase of the blinking indicators
  deriving DecidableEq, Repr

def DriveSt.reset : DriveSt := { ports := [], bays := [], chains := [], blink := false }

/-- A bank of a DRAM channel (R305): its open row, whether each of its last 16 accesses was a row hit, newest first, and the row of the latest
access. -/
structure Bank where
  row  : Option Nat
  hits : List Bool
  last : Option Nat := none
  deriving DecidableEq, Repr

structure DramSt where
  dimms : SMap Dimm             -- by channel, where the slot has one
  banks : SMap Bank             -- by channel and bank (R304)
  post  : SMap Nat              -- by channel, times its next refresh has been postponed (R311)
  scrub : SMap Nat              -- by channel, address of the next line to scrub
  ces   : SMap (List Nat)       -- by channel, subchannel and device: operating minutes of corrected bursts (R309)
  lanes : SMap (List (Nat × Nat)) := [] -- by channel, the trained write-levelling and read-gate delay of each lane (R306)
  seeded : List Nat := []       -- channels whose seeds came from a valid board record (R306)
  back  : List Nat := []        -- channels that were in INIT when the speed change under way began (R307)
  deriving DecidableEq, Repr

def DramSt.reset : DramSt := { dimms := [], banks := [], post := [], scrub := [], ces := [] }

/-- A sequenced flit that waits to be sent, or was sent and is not acknowledged (R323). `note` stands on the last flit of an ENTRY message:
the journal entry, the state its record shows and its plate write sequence number (R333). -/
structure TxFlit where
  seq     : Nat
  kind    : Nat
  crd     : Nat × Nat           -- class and credits it returns
  payload : List Byte
  note    : Option (Nat × Nat × Nat)
  cls     : Nat := 0            -- class of its message
  deriving DecidableEq, Repr

/-- A message waiting to be started on a link. -/
structure QMsg where
  kind : MsgKind
  m    : Msg
  note : Option (Nat × Nat × Nat)
  via  : Nat := 8               -- link a forwarded message came in on; 8 for this node's own
  deriving DecidableEq, Repr

/-- A Tashaop link beside its page (R323 to R326). -/
structure Tlk where
  nb      : Option Nat          -- neighbour last trained with
  seq     : Nat                 -- FSEQ of the next sequenced flit
  retry   : List TxFlit         -- sent and not acknowledged, oldest first
  cur     : List TxFlit         -- flits of the message being sent, still to be sent
  queue   : List QMsg
  turn    : Bool                -- class 5 is before class 4
  expect  : Nat                 -- FSEQ expected
  got     : Option Nat          -- FSEQ of the last flit received in order
  nak     : Bool                -- a NAK has been sent since a flit was accepted
  due     : Nat                 -- flits accepted and not yet acknowledged
  replays : Nat                 -- replays in a row by the timer
  owed    : SMap Nat            -- credits to be returned, by class
  rxClass : Nat                 -- class of the message being received
  resend  : List TxFlit := []   -- flits of a link that went DOWN, sent before any new message (R324)
  deriving DecidableEq, Repr

def Tlk.reset : Tlk :=
  { nb := none, seq := 0, retry := [], cur := [], queue := [], turn := false, expect := 0, got := none, nak := false, due := 0, replays := 0,
    owed := [], rxClass := 0 }

/-- A plate held as standby (Table REBUILD-7, R332). -/
structure HeldPlate where
  index    : Nat                -- the owner's plate index
  plate    : Plate
  attached : Bool
  taking   : Nat                -- Sequence LINK-1: 0 not begun, 1 preempting, 2 label update, 3 replay
  here     : Nat                -- plate index here from step 4 on
  deriving DecidableEq, Repr

/-- A slot of the partner pool (R141, R334). -/
structure Copy where
  owner   : Nat
  num     : Nat                 -- the owner's slot number
  plateId : Nat
  slot    : Slot
  deriving DecidableEq, Repr

structure LinkSt where
  tlk    : SMap Tlk
  alt    : SMap Nat             -- MEMBER_IO messages sent, by neighbour, for their alternation (R331)
  pools  : SMap Nat             -- partner-pool slots of a standby node
  leased : SMap Nat             -- owner nodes whose lease runs, with the last mask (R336, R337)
  acked  : List Nat             -- standbys whose RENEW_ACK has not stopped for DROP_MS
  seen   : SMap Nat             -- by node, device time of its last RENEW or RENEW_ACK
  renews : Nat                  -- renewal count
  held   : SMap HeldPlate       -- by PLATE_ID
  mirror : SMap (SMap (List Byte)) -- mirrored entries by PLATE_ID and entry index (R58)
  pool   : SMap Copy            -- this node's partner pool, by slot
  offers : SMap (Nat × Bool)    -- offers not answered, by plate index: node, and whether TRT_CMD waits
  claims : SMap (Nat × Nat)     -- by PLATE_ID, the node with the highest claim and its LABEL_GEN (R335)
  deriving DecidableEq, Repr

def LinkSt.reset : LinkSt :=
  { tlk := [], alt := [], pools := [], leased := [], acked := [], seen := [], renews := 0, held := [], mirror := [], pool := [], offers := [], claims := [] }

/-- A channel of the Graver beside its page (R347, R355). -/
structure MCh where
  loaded : Bool                 -- its descriptor image holds the unit to run
  off    : Nat                  -- offset of the next byte of its unit (R350)
  ended  : Option (Nat × Nat × Bool) -- why its unit ends before its last byte: ERR_KIND, RESULT and MISMATCH
  deriving DecidableEq, Repr

def MCh.reset : MCh := { loaded := false, off := 0, ended := none }

/-- The Graver, and the bytes of the SRAM and DRAM spaces of Table MOVER-3 that no structure of the device holds: those of the SRAM and of the
working region under their address, where the Graver wrote them, and the pages of the channels' other regions under channel × 2^24 + page. -/
structure MoverSt where
  ch   : SMap MCh
  run  : Option Nat             -- channel whose unit runs
  sram : SMap Nat
  dram : SMap Nat
  pages : SMap Block := []
  allow : SMap (Nat × Nat) := []  -- by channel, what its rate limiter allows and the CCLK cycle it stands for (R354)
  deriving DecidableEq, Repr

def MoverSt.reset : MoverSt := { ch := [], run := none, sram := [], dram := [] }

/-- The interrupt controller beside its page (chapter 15). The latches of sources 1 to 31 are ICU_AON_LATCH. -/
structure IcuSt where
  lines   : List Nat            -- sources whose line was 1 when last seen
  latches : List Nat            -- edge latches of sources from 32 on that are set (R364)
  claims  : SMap (Nat × Nat)    -- claimed sources: core and the PRIO taken at the claim (R368, Table IRQ-2)
  held    : List Nat            -- sources moderated since their last claim (R369)
  moved   : SMap Nat            -- sources gone to another core by the fallback of Table IRQ-2
  begun   : List Nat            -- level sources for the host whose level has begun and is not sent (R371)
  deriving DecidableEq, Repr

def IcuSt.reset : IcuSt := { lines := [], latches := [], claims := [], held := [], moved := [], begun := [] }

/-- A fault message (Table FAULT-1), with the access and master that first-error capture keeps. -/
structure FMsg where
  unit   : Nat                  -- page index, or 0x3FF for a context
  kind   : Nat
  sev    : Nat
  cls    : Nat
  addr   : Nat
  access : Nat
  master : Nat
  deriving DecidableEq, Repr

structure FltSt where
  queue   : List FMsg           -- at most 64, next to be handled first (R375)
  waiting : List FMsg           -- at their sources until the queue has room
  log     : List (Nat × Nat)    -- message and device time in µs, newest first, at most 16 (R376)
  kick    : Nat                 -- device time from which the watchdog counts (R384)
  deriving DecidableEq, Repr

def FltSt.reset : FltSt := { queue := [], waiting := [], log := [], kick := 0 }

/-- The power supervisor's part outside the registers. -/
structure PwrSt where
  due     : Option Nat          -- device reset of Table POWER-4 whose P1 waits for main power
  counted : Nat                 -- OP_MINUTES in the newest counter record (R395)
  stby    : Nat                 -- step of Sequence POWER-1 that runs; 0 where the entry has not begun
  exit    : Bool                -- a wake came from step 4 on; P1 follows the entry (R400)
  gap     : Bool                -- DEV_TIME has stood still since the last start-up (R393)
  p0      : Bool                -- P0 has ended
  good    : Bool                -- main power came while P0 ran
  node    : Nat                 -- NODE_ID strap as sampled (R328, R458)
  dead    : List Nat            -- pages whose port or link is held down: its SerDes group failed in P3
  deriving DecidableEq, Repr

/-- After a cold reset P1 waits for main power (R396). -/
def PwrSt.reset : PwrSt := 
  { due := some 0, counted := 0, stby := 0, exit := false, gap := false, p0 := false, good := false, node := 0, dead := [] }

/-- A session's live nonce (R420). -/
structure Nonce where
  bytes : List Byte
  role  : Nat
  deriving DecidableEq, Repr

/-- Sessions, nonces and the one-time-programmable key region (Table ROLE-3). -/
structure RoleSt where
  need   : SMap Nat             -- by port, device time of the last access that needed the session's role (R417)
  nonces : SMap Nonce           -- by port
  dsn    : List Byte            -- device serial number, 8 bytes
  keys   : SMap (List Byte)     -- keys in use: 0 installer, 1 pack, 2 maker, 3 firmware
  fuses  : Nat                  -- SVN_FUSES: bits set
  deriving DecidableEq, Repr

/-- The region's content is written when the part is made; the spec gives none, so it stands blank here. -/
def RoleSt.reset : RoleSt := { need := [], nonces := [], dsn := zeros 8, keys := [], fuses := 0 }

/-- A value of an EXTREME measure with its stamps (R427). -/
structure Stamped where
  val   : Int
  opMin : Nat
  pwr   : Nat
  deriving DecidableEq, Repr

structure Extreme where
  min  : Stamped
  max  : Stamped
  last : Stamped
  deriving DecidableEq, Repr

structure Hist where
  bins : SMap Nat
  sum  : Nat
  deriving DecidableEq, Repr

/-- An occurrence with its stamps, and the body its record carries (Tables ROLE-7, ROLE-8). -/
structure Occ where
  code  : Nat
  sev   : Nat
  opMin : Nat
  pwr   : Nat
  time  : Nat
  held  : Nat
  body  : List Byte
  deriving DecidableEq, Repr

/-- The Sketchbook's live part; its records stand in the flash. -/
structure EvrSt where
  events  : SMap Nat            -- occurrences of EVENT codes since start-up
  counts  : SMap Nat            -- COUNT measures
  hists   : SMap Hist
  exts    : SMap Extreme
  changed : List Nat            -- measures changed since their last record (R433)
  prev    : SMap Nat            -- VALUE of a COUNT measure in its last record
  window  : List Nat            -- codes within 10 minutes of their last record (R430)
  held    : List Occ            -- at most one for each code, oldest first
  due     : List Occ            -- records to be written, in order (R431)
  deriving DecidableEq, Repr

def EvrSt.reset : EvrSt :=
  { events := [], counts := [], hists := [], exts := [], changed := [], prev := [], window := [], held := [], due := [] }

/-- The tenant scheduler's rounds (R240) and the metering clock (R242 to R244). -/
structure SchedSt where
  active    : List Nat          -- contexts active in this round
  pos       : Nat               -- ns from the last grid point to this round's start
  len       : Nat               -- nominal length of this round, ns
  bindCount : Nat               -- bindings made since the last power cycle (R232)
  epoch     : Nat               -- current epoch (R242)
  recEpoch  : Nat               -- epoch whose records are due
  recDue    : Bool
  recStep   : Bool              -- those records carry TIME_STEP
  stepped   : Bool              -- a step was applied in the current epoch
  slew      : Int               -- the slew being absorbed, ns (R243)
  slewAt    : Nat               -- device time at which it began
  seq       : Nat               -- records written since the ring was enabled
  recs      : List (Nat × Bool) := [] -- the records due: each context non-idle at the epoch's end; true for its final record (R233, R244)
  deriving DecidableEq, Repr

/-- The records of the first epoch after a cold reset carry TIME_STEP (R242). -/
def SchedSt.reset : SchedSt :=
  { active := [], pos := 0, len := 50000, bindCount := 0, epoch := 0, recEpoch := 0, recDue := false, recStep := false,
    stepped := true, slew := 0, slewAt := 0, seq := 0 }

/-- Resynchronisation snapshots (R228, R448): the number of the last one taken; the one being written with the RESYNC commands it is for; a
further one requested, with its commands; and the 65,536 bytes published. -/
structure SumSt where
  seq    : Nat
  cur    : Option (List Byte)
  curFor : List Nat
  again  : Bool
  nextFor : List Nat
  pub    : List Byte
  deriving DecidableEq, Repr

def SumSt.reset : SumSt := { seq := 0, cur := none, curFor := [], again := false, nextFor := [], pub := [] }

/-- The configuration flash (R409, R410): what each record slot, page or copy was last written with, by flash offset; an
offset not listed is erased. -/
structure FlashSt where
  slots    : SMap (List Byte)
  progHead : Nat                -- progress-log slot the next record goes to (R413)
  retired  : List Nat           -- Sketchbook pages that are skipped (R432)
  deriving DecidableEq, Repr

def FlashSt.reset : FlashSt := { slots := [], progHead := 0, retired := [] }

end Sys2Proof.Machine
end

