-- ==== Sys2Proof/Machine/State.lean ====
section
/-! DEFINITION. The state of the device, the reasons a command can stop, and the state after a cold reset. -/

namespace Sys2Proof.Machine

/-- Why a command stops.
`noSuchUnit`: raised by every command whose operands name a context, plate, port, link, channel, core or
other unit beyond those the spec gives the device; no such command can reach the hardware, so stopping is
safe. -/
inductive Fault where
  | noSuchUnit
  deriving DecidableEq, Repr

/-- Why a command has no meaning here.
`notModelled`: answered only by an arm of `exec` whose command has no meaning yet; safe. -/
inductive Refusal where
  | notModelled (mnemonic : String)
  deriving DecidableEq, Repr

/-- The device. `regs` is the one home of every register field that no other part holds; `out` is what the
device has sent out, newest first; `fresh` numbers the free values it has used. -/
structure State where
  regs    : SMap Nat
  timeQ   : Nat          -- time since VDD_AON came up, in units of 1/320 ns
  fresh   : Nat
  out     : List Out
  hiLatch : SMap Nat     -- _HI halves latched by a read of their _LO (R442), by page × 4,096 + offset
  io      : Io
  store   : Store
  cache   : Cache
  bem     : Bem
  host    : HostSt
  drive   : DriveSt
  dram    : DramSt
  link    : LinkSt
  mover   : MoverSt
  icu     : IcuSt
  flt     : FltSt
  pwr     : PwrSt
  role    : RoleSt
  evr     : EvrSt
  sched   : SchedSt
  sum     : SumSt
  flash   : FlashSt
  pending : List Instr
  deriving DecidableEq, Repr

/-- The state right after a cold reset (R401), nothing placed and no command waiting. CONF_PCT stands at the reset value of Table ENERGY-9, 100, until
the pack's identity is read, though COLD is 1 (R177; DESIGN CHOICE, notes/assumptions/128.md). -/
def State.reset : State where
  regs := [(Reg.CHIP_DEV_STAT_COLD.key, 1), (Reg.BEM_STAT_COLD.key, 1)]
  timeQ := 0
  fresh := 0
  out := []
  hiLatch := []
  io := Io.reset
  store := Store.reset
  cache := Cache.reset
  bem := Bem.reset
  host := HostSt.reset
  drive := DriveSt.reset
  dram := DramSt.reset
  link := LinkSt.reset
  mover := MoverSt.reset
  icu := IcuSt.reset
  flt := FltSt.reset
  pwr := PwrSt.reset
  role := RoleSt.reset
  evr := EvrSt.reset
  sched := SchedSt.reset
  sum := SumSt.reset
  flash := FlashSt.reset
  pending := []

end Sys2Proof.Machine
end

