-- ==== Sys2Proof/Machine/Regs.lean ====
section
/-! DEFINITION. Register fields: the one place that reads and writes them, event bits (R440, R443), 64-bit
counters (R442), device time and the outputs. -/

namespace Sys2Proof.Machine

/-- The value of a field: what is kept for it, else its reset value. -/
def getFld (s : State) (f : FRef) : Nat := smGetD s.regs f.key f.reset

/-- Put a value, cut to the field's width, into a field. A field at its reset value is not listed. -/
def setFld (f : FRef) (v : Nat) (s : State) : State :=
  let x := v % 2 ^ f.width
  { s with regs := if x = f.reset then smDel s.regs f.key else smSet s.regs f.key x }

/-- Add to a counter that wraps at its width. -/
def incFld (f : FRef) (n : Nat) (s : State) : State := setFld f (getFld s f + n) s

/-- Add to a counter that saturates at its width. -/
def satFld (f : FRef) (n : Nat) (s : State) : State :=
  setFld f (min (getFld s f + n) (2 ^ f.width - 1)) s

/-- Take a number from a counter, stopping at 0. -/
def decFld (f : FRef) (n : Nat) (s : State) : State := setFld f (getFld s f - n) s

/-- Raise a high-water mark. -/
def hwmFld (f : FRef) (v : Nat) (s : State) : State :=
  if getFld s f < v then setFld f v s else s

/-- A flag field is 1. -/
def isSet (s : State) (f : FRef) : Bool := decide (getFld s f = 1)

/-- Write a flag field. -/
def setFlag (f : FRef) (b : Bool) (s : State) : State := setFld f (if b then 1 else 0) s

/-- A 64-bit value kept in a _LO and a _HI field. -/
def get64 (s : State) (lo hi : FRef) : Nat := getFld s lo + 2 ^ 32 * getFld s hi

def set64 (lo hi : FRef) (v : Nat) (s : State) : State :=
  setFld hi (v / 2 ^ 32) (setFld lo v s)

/-- Add to a 64-bit counter that wraps. -/
def add64 (lo hi : FRef) (n : Nat) (s : State) : State := set64 lo hi (get64 s lo hi + n) s

/-- Set bits of a page's PG_EVT. PG_EVT_FIRST takes the lowest of them when no bit was set (R440). -/
def setEvtBits (p bits : Nat) (s : State) : State :=
  let old := getFld s (Reg.PG_EVT_EVT p)
  let s1 := setFld (Reg.PG_EVT_EVT p) (old ||| bits) s
  if old = 0 ∧ bits ≠ 0 then
    let low := ((List.range 32).find? (fun b => bits.testBit b)).getD 0
    setFld (Reg.PG_EVT_FIRST_VALID p) 1 (setFld (Reg.PG_EVT_FIRST_BIT p) low s1)
  else s1

/-- Set one event bit of a page. -/
def setEvt (p bit : Nat) (s : State) : State := setEvtBits p (2 ^ bit) s

/-- Clear PG_EVT bits written 1; PG_EVT_FIRST empties when none is left (R440, R443). -/
def clearEvt (p bits : Nat) (s : State) : State :=
  let old := getFld s (Reg.PG_EVT_EVT p)
  let new := (List.range 32).foldl (fun a b => if old.testBit b && !bits.testBit b then a + 2 ^ b else a) 0
  let s1 := setFld (Reg.PG_EVT_EVT p) new s
  if new = 0 then setFld (Reg.PG_EVT_FIRST_VALID p) 0 (setFld (Reg.PG_EVT_FIRST_BIT p) 0 s1) else s1

/-- Work for a unit takes the device from IDLE to ACTIVE (Table POWER-3). -/
def leaveIdle (s : State) : State :=
  if getFld s Reg.PWR_STAT_STATE = 1 then setEvt 1 Reg.PWR_EVT_STATE_CHG (setFld Reg.PWR_STAT_STATE 0 s) else s

/-- What counts as work of a host link or a drive port: requests and messages to the host, and commands to drives. -/
def Out.isWork : Out → Bool
  | .hostRead .. => true
  | .hostWrite .. => true
  | .msi .. => true
  | .pcie .. => true
  | .nvme .. => true
  | _ => false

/-- Send something out. -/
def emit (o : Out) (s : State) : State :=
  let t := if o.isWork then leaveIdle s else s
  { t with out := o :: t.out }

/-- Device time in ns (CHIP.DEV_TIME). -/
def devTime (s : State) : Nat := s.timeQ / 320

/-- The next number of the free values used so far. -/
def bumpFresh (s : State) : State := { s with fresh := s.fresh + 1 }

/-- As many free values are used up. -/
def useFresh (n : Nat) (s : State) : State := { s with fresh := s.fresh + n }

/-- CHIP.OP_MINUTES. -/
def opMin (s : State) : Nat := getFld s Reg.CHIP_OP_MINUTES_COUNT

/-- CHIP.DEV_STAT.READY. -/
def devReady (s : State) : Bool := isSet s Reg.CHIP_DEV_STAT_READY

/-- FLT_STAT.DEV_FENCED. -/
def devFenced (s : State) : Bool := isSet s Reg.FLT_STAT_DEV_FENCED

/-- PG_STAT.FENCED of a page. -/
def fenced (s : State) (p : Nat) : Bool := isSet s (Reg.PG_STAT_FENCED p)

/-- PG_CTL.ENABLE of a page. -/
def enabled (s : State) (p : Nat) : Bool := isSet s (Reg.PG_CTL_ENABLE p)

/-! ### The Sketchbook's measures (R426 to R433) -/

def updEvr (f : EvrSt → EvrSt) (s : State) : State := { s with evr := f s.evr }

/-- Records may be written: EVR enabled and not fenced, and neither BACKUP nor OFF_AON (R431, Table ROLE-11). -/
def evrWrites (s : State) : Bool :=
  enabled s 6 && !fenced s 6 && decide (getFld s Reg.PWR_STAT_STATE ≠ 4) && decide (getFld s Reg.PWR_STAT_STATE ≠ 5)

/-- EVR_BUDGET.HELD follows the held records. -/
def showHeld (s : State) : State := setFld Reg.EVR_BUDGET_HELD (min s.evr.held.length 4095) s

/-- The occurrence joins what its code holds: the latest stamps and body, the highest severity, one more counted (R430). -/
def holdOcc (o : Occ) (s : State) : State :=
  let old := s.evr.held.find? (fun h => decide (h.code = o.code))
  let n := (old.map Occ.held).getD 0
  let sev := max o.sev ((old.map Occ.sev).getD 0)
  let x : Occ := { o with sev := sev, held := n + 1 }
  showHeld (updEvr (fun e => { e with held :=
    if old.isNone then e.held ++ [x] else e.held.map (fun h => if h.code = o.code then x else h) }) s)

/-- A record is to be written: its code's window begins and its measure counts as recorded. -/
def dueOcc (o : Occ) (s : State) : State :=
  updEvr (fun e => { e with
    due := e.due ++ [o]
    window := if o.code ∈ e.window then e.window else e.window ++ [o.code]
    changed := e.changed.filter (· ≠ o.code)
    prev := if o.code / 2 ^ 14 = 1 then smSet e.prev o.code (smGetD e.counts o.code 0) else e.prev }) s

/-- A token is left for one more record (R431). -/
def tokenLeft (s : State) : Bool := decide (s.evr.due.length < getFld s Reg.EVR_BUDGET_TOKENS)

/-- An occurrence of a code: recorded at once, or held in the code's window or for want of a token (R430, R431). -/
def occur (o : Occ) (s : State) : State :=
  if !evrWrites s ∨ o.code ∈ s.evr.window then holdOcc o s
  else if tokenLeft s then dueOcc o s
  else setEvt 6 Reg.EVR_EVT_BUDGET_EMPTY (holdOcc o s)

def le64 (v : Nat) : List Byte := leBytes v 8

/-- The body of an EVENT record (Table ROLE-8). -/
def eventBody (page : Nat) (s : State) : List Byte :=
  le64 (getFld s (Reg.PG_EVT_EVT page)) ++
  le64 (getFld s (Reg.PG_ECAP_ADDR_LO_ADDR page) + 2 ^ 32 * getFld s (Reg.PG_ECAP_ADDR_HI_ADDR page)) ++
  le64 (getFld s (Reg.PG_ECAP_INFO_ACCESS page) + 2 ^ 8 * getFld s (Reg.PG_ECAP_INFO_MASTER page) + 2 ^ 24 * getFld s (Reg.PG_ECAP_INFO_KIND page) +
    2 ^ 32 * getFld s (Reg.PG_ECAP_TIME_US page)) ++
  le64 (getFld s (Reg.PG_SEQ_COUNT page))

/-- An occurrence that a rule's Sketchbook record concerns: code 32 × page + bit (Table ROLE-6). -/
def sketchEvt (page bit sev : Nat) (s : State) : State :=
  let code := 32 * page + bit
  occur { code := code, sev := sev, opMin := opMin s, pwr := getFld s Reg.CHIP_PWR_CYCLES_COUNT, time := devTime s, held := 0,
          body := eventBody page s }
    (updEvr (fun e => { e with events := smUpd e.events code 0 (· + 1) }) s)

/-- The measure's value has changed since its last record (R433). -/
def touch (code : Nat) (e : EvrSt) : EvrSt := { e with changed := if code ∈ e.changed then e.changed else e.changed ++ [code] }

/-- Add to a COUNT measure (R427). -/
def sketchCount (code n : Nat) (s : State) : State :=
  updEvr (fun e => touch code { e with counts := smUpd e.counts code 0 (· + n) }) s

/-- The histogram bin of a sample (R427). -/
def histBin (unit v : Nat) : Nat :=
  ((List.range 15).find? (fun i => decide (v < unit * 2 ^ i))).getD 15

/-- Add a sample to a HIST measure (R427). -/
def sketchHist (code unit v : Nat) (s : State) : State :=
  updEvr (fun e =>
    let h := smGetD e.hists code { bins := [], sum := 0 }
    let x : Hist := { bins := smUpd h.bins (histBin unit v) 0 (· + 1), sum := h.sum + v }
    touch code { e with hists := smSet e.hists code x }) s

/-- Give an EXTREME measure a value: the minimum, the maximum and the last value, each stamped when set (R427). -/
def sketchExtreme (code : Nat) (v : Int) (s : State) : State :=
  let x : Stamped := { val := v, opMin := opMin s, pwr := getFld s Reg.CHIP_PWR_CYCLES_COUNT }
  updEvr (fun e =>
    let old := smGetD e.exts code { min := x, max := x, last := x }
    let y : Extreme := { min := if v < old.min.val then x else old.min, max := if old.max.val < v then x else old.max, last := x }
    touch code { e with exts := smSet e.exts code y }) s

/-! ### Fault messages (R374, R375) -/

/-- The severity of a kind (Table FAULT-3); a kind not in the table is taken as contained. -/
def kindSev (k : Nat) : Nat :=
  if k ∈ [0x01, 0x07, 0x0A] then 0
  else if k ∈ [0x02, 0x03, 0x04, 0x05, 0x06, 0x09, 0x0C, 0x12, 0x13, 0x16, 0x17, 0x18] then 3 else 2

/-- The CLASS a kind reports (Table FAULT-1): memory errors, Burin's self-check, the watchdog, plate metadata and the software request
have a class of their meaning; what the others report is left open. -/
def kindClass (k : Nat) : Nat :=
  if k ∈ [0x01, 0x02, 0x03, 0x04, 0x05, 0x0A, 0x0B, 0x13] then 0
  else if k ∈ [0x07, 0x08] then 1
  else if k = 0x11 then 4
  else if k = 0x15 then 5
  else if k = 0x19 then 6
  else (Config.faultClass k).toNat

/-- The message as 64 bits (Table FAULT-1). -/
def FMsg.word (m : FMsg) : Nat :=
  m.unit % 2 ^ 10 * 2 ^ 54 + m.kind % 2 ^ 8 * 2 ^ 46 + m.sev % 4 * 2 ^ 44 + m.cls % 16 * 2 ^ 40 + m.addr % 2 ^ 40

def updFlt (f : FltSt → FltSt) (s : State) : State := { s with flt := f s.flt }

def showQueue (s : State) : State := setFld Reg.FLT_STAT_QUEUE s.flt.queue.length s

/-- A message reaches the collector: a corrected one is dropped at 48 entries, another waits at its source at 64 (R375). -/
def enqueue (m : FMsg) (s : State) : State :=
  if m.sev = 0 ∧ 48 ≤ s.flt.queue.length then setEvt 4 Reg.FLT_EVT_DROPPED (incFld Reg.FLT_DROPPED_COUNT 1 s)
  else if 64 ≤ s.flt.queue.length then updFlt (fun f => { f with waiting := f.waiting ++ [m] }) s
  else showQueue (updFlt (fun f => { f with queue := f.queue ++ [m] }) s)

/-- A block reports a fault of a kind at an address of its own memory. -/
def report (kind page addr : Nat) (s : State) : State :=
  enqueue { unit := page, kind := kind, sev := kindSev kind, cls := kindClass kind, addr := addr, access := 0, master := page } s

/-- The Unmal status codes (Table RING-6). -/
def statusCode : Status → Nat
  | .ok => 0 | .invalidOpcode => 1 | .invalidField => 2 | .lbaRange => 3 | .mediaUnrecovered => 4
  | .abortedReset => 5 | .compareMismatch => 6 | .noSpace => 7 | .roleDenied => 8 | .busyRetry => 9
  | .lostWrite => 10 | .tagMismatch => 11 | .stateConflict => 12 | .fenced => 13 | .internal => 14

end Sys2Proof.Machine
end

