-- ==== Sys2Proof/Machine/Wire.lean ====
section
/-! DEFINITION. Tashaop links as senders: flits (R322, R323), messages and their order (R325 to R327, R345), and the choice of a link
(R330, R331). -/

namespace Sys2Proof.Machine
open Reg

def updLink (f : LinkSt → LinkSt) (s : State) : State := { s with link := f s.link }

def tlkOf (s : State) (x : Nat) : Tlk := smGetD s.link.tlk x Tlk.reset

def updTlk (x : Nat) (f : Tlk → Tlk) (s : State) : State := updLink (fun l => { l with tlk := smSet l.tlk x (f (tlkOf s x)) }) s

/-- PG_STAT.STATE of a link (R342). -/
def tlkState (s : State) (x : Nat) : Nat := getFld s (PG_STAT_STATE (0xC8 + x))

/-- The class of a message (Tables LINK-3 and LINK-8). -/
def msgClass : MsgKind → Nat
  | .renew | .renewAck => 0
  | .sync | .ping | .pong => 1
  | .journalEntry | .fenceNotice => 2
  | .progress | .proof | .suspect | .attachOffer | .attachAccept | .attachRefuse | .claim => 3
  | .memberRead | .memberWrite | .completion => 4
  | .mirrorWrite | .mirrorAck | .mirrorRelease | .mirrorLost => 5

/-- The OP code of a message (Table LINK-8). -/
def msgOp : MsgKind → Nat
  | .renew | .sync | .journalEntry | .progress | .memberRead | .mirrorWrite => 1
  | .renewAck | .ping | .fenceNotice | .proof | .memberWrite | .mirrorAck => 2
  | .pong | .suspect | .completion | .mirrorRelease => 3
  | .attachOffer | .mirrorLost => 4
  | .attachAccept => 5
  | .attachRefuse => 6
  | .claim => 7

/-- The operations a class defines are 1 to this (Table LINK-8). -/
def opLimit (cls : Nat) : Nat :=
  match cls with
  | 0 | 2 => 2
  | 1 | 4 => 3
  | 3 => 7
  | 5 => 4
  | _ => 0

/-- Flit credits a class advertises at UP (Table LINK-3). -/
def classCredits (cls : Nat) : Nat :=
  match cls with
  | 0 | 1 => 8
  | 2 => 256
  | 3 => 64
  | 4 => 512
  | 5 => 1024
  | _ => 0

/-- BODY flits of a message: 24 bytes each (R345). -/
def bodyFlits (m : Msg) : Nat := (m.body.length + 23) / 24

/-- The payload of a message's HEAD flit (Table LINK-2). -/
def headPayload (k : MsgKind) (m : Msg) : List Byte :=
  leBytes (msgClass k) 1 ++ leBytes m.hops 1 ++ leBytes (m.dst % 512) 2 ++ leBytes (m.src % 512) 2 ++ leBytes (bodyFlits m) 1 ++ leBytes (msgOp k) 1 ++
  leBytes m.tag 4 ++ leBytes m.arg 8 ++ leBytes m.arg2 4

/-- The 32 bytes of a flit (R322, Table LINK-1). -/
def flitBytes (seq kind : Nat) (ack : Option Nat) (crd : Nat × Nat) (payload : List Byte) : List Byte :=
  let a := match ack with
    | some v => v % 1024 * 2 ^ 14 + 2 ^ 24
    | none => 0
  let x := leBytes (seq % 1024 + kind * 2 ^ 10 + a + crd.1 * 2 ^ 25 + crd.2 * 2 ^ 28) 4 ++ slice payload 0 24
  x ++ leBytes (crc32 x) 4

/-- A flit goes out: the link leaves L1, the flit carries the acknowledgement and is counted. -/
def sendFlit (x seq kind : Nat) (crd : Nat × Nat) (payload : List Byte) (s : State) : State :=
  let s1 := if isSet s (PG_STAT_ASLEEP (0xC8 + x)) then setFld (PG_STAT_ASLEEP (0xC8 + x)) 0 s else s
  emit (.flit x (flitBytes seq kind (tlkOf s x).got crd payload)) (add64 (TLK_TX_LO_COUNT x) (TLK_TX_HI_COUNT x) 1 (updTlk x (fun t => { t with due := 0 }) s1))

/-- The credits the next sequenced flit returns: those of the lowest class with any owed, at most 15 (R325). -/
def crdNext (t : Tlk) : Nat × Nat :=
  match t.owed.find? (fun q => decide (q.2 ≠ 0)) with
  | some q => (q.1, min q.2 15)
  | none => (0, 0)

/-- Send a sequenced flit with the next FSEQ, and hold it for retry (R323). -/
def sendSeq (x : Nat) (f : TxFlit) (s : State) : State :=
  let t := tlkOf s x
  let c := crdNext t
  let g : TxFlit := { f with seq := t.seq, crd := c }
  sendFlit x g.seq g.kind g.crd g.payload (updTlk x (fun y =>
    { y with seq := (y.seq + 1) % 1024, retry := y.retry ++ [g], owed := if c.2 = 0 then y.owed else smUpd y.owed c.1 0 (· - c.2) }) s)

/-- The flits of a message: HEAD, then BODY (R326); the note goes with the last. -/
def msgFlits (q : QMsg) : List TxFlit :=
  let mk := fun (kind : Nat) (p : List Byte) => ({ seq := 0, kind := kind, crd := (0, 0), payload := p, note := none, cls := msgClass q.kind } : TxFlit)
  let l := mk 3 (headPayload q.kind q.m) :: (List.range (bodyFlits q.m)).map (fun i => mk 4 (slice q.m.body (24 * i) 24))
  l.dropLast ++ (l.getLast?.map (fun f => { f with note := q.note })).toList

/-- Send what waits of the message being sent, while the retry buffer has room (R323). -/
def drainCur (x : Nat) (s : State) : State :=
  let t := tlkOf s x
  let n := min t.cur.length (512 - t.retry.length)
  (t.cur.take n).foldl (fun u f => sendSeq x f u) (updTlk x (fun y => { y with cur := y.cur.drop n }) s)

/-- The transmitter holds credits for all the flits of a message (R325). -/
def startable (s : State) (x : Nat) (q : QMsg) : Bool := decide (1 + bodyFlits q.m ≤ getFld s (TLK_CRD_TX x (msgClass q.kind)))

/-- The class whose oldest message is started next (Table LINK-3). -/
def nextClass (s : State) (x : Nat) : Option Nat :=
  let t := tlkOf s x
  ([0, 1, 2, 3] ++ (if t.turn then [5, 4] else [4, 5])).find? (fun c =>
    ((t.queue.find? (fun (q : QMsg) => decide (msgClass q.kind = c))).map (startable s x)).getD false)

/-- A message as it is started on a link: a SYNC takes the link's delay with it (R341). -/
def asStarted (s : State) (x : Nat) (q : QMsg) : QMsg :=
  if q.kind = .sync then { q with m := { q.m with arg2 := (q.m.arg2 + getFld s (TLK_LAT_NS x)) % 2 ^ 32 } } else q

/-- What a link that went DOWN had sent of a message, and what was left of it, is resent as a whole: to the next HEAD (R324). -/
def resendRun (fs : List TxFlit) : List TxFlit := fs.take 1 ++ (fs.drop 1).takeWhile (fun f => decide (f.kind ≠ 3))

/-- The next run of resent flits, with its class and the credits it takes (R325). -/
def nextResend (t : Tlk) : List TxFlit × Nat × Nat :=
  let body := (resendRun t.resend).filter (fun f => decide (f.kind ≠ 2))
  (resendRun t.resend, ((body.head?).map TxFlit.cls).getD 0, body.length)

/-- Start the next run of resent flits, on this link's credits (R325). -/
def startResend (x : Nat) (s : State) : State :=
  let r := nextResend (tlkOf s x)
  decFld (TLK_CRD_TX x r.2.1) r.2.2 (updTlk x (fun y => { y with cur := r.1, resend := y.resend.drop r.1.length }) s)

/-- Send what a link that is UP may send: flits resent first, then whole messages. -/
def pumpLink : Nat → Nat → State → State
  | 0, _, s => s
  | fuel + 1, x, s =>
    if tlkState s x ≠ 2 then s
    else
      let s1 := drainCur x s
      if (tlkOf s1 x).cur ≠ [] then s1
      else if (tlkOf s1 x).resend ≠ [] then
        (let r := nextResend (tlkOf s1 x); if getFld s1 (TLK_CRD_TX x r.2.1) < r.2.2 then s1 else pumpLink fuel x (startResend x s1))
      else match nextClass s1 x with
        | none => s1
        | some c => match popFirst (fun (q : QMsg) => decide (msgClass q.kind = c)) (tlkOf s1 x).queue with
          | none => s1
          | some ((q : QMsg), (rest : List QMsg)) =>
            let turn := fun (y : Tlk) => if c = 4 then true else if c = 5 then false else y.turn
            let q1 := asStarted s1 x q
            pumpLink fuel x (emit (.msg x q1.kind q1.m) (decFld (TLK_CRD_TX x c) (1 + bodyFlits q1.m)
              (updTlk x (fun y => { y with queue := rest, cur := msgFlits q1, turn := turn y }) s1)))

def pump (x : Nat) (s : State) : State := pumpLink ((tlkOf s x).queue.length + (tlkOf s x).resend.length + 2) x s

/-- A message waits for its link. -/
def sendOn (x : Nat) (q : QMsg) (s : State) : State := pump x (updTlk x (fun t => { t with queue := t.queue ++ [q] }) s)

/-! ### Routes -/

def linkNums : List Nat := [0, 1, 2, 3, 4, 5, 6, 7]

/-- The links to a neighbour that are UP, ascending. -/
def linksTo (s : State) (nb : Nat) : List Nat := linkNums.filter (fun x => decide ((tlkOf s x).nb = some nb ∧ tlkState s x = 2))

/-- This node's number. -/
def nodeId (s : State) : Nat := getFld s Reg.CHIP_NODE_ID_NODE

/-- The neighbour that the route of a node names; the entry of this node's own number is ignored (R329). -/
def routeNb (s : State) (node : Nat) : Option Nat :=
  if node = nodeId s ∨ !isSet s (TRT_ENTRY_VALID node) then none else (tlkOf s (getFld s (TRT_ENTRY_LINK node))).nb

/-- The links to a neighbour that retrain, ascending. -/
def retraining (s : State) (nb : Nat) : List Nat := linkNums.filter (fun x => decide ((tlkOf s x).nb = some nb ∧ tlkState s x = 4))

/-- The links a message to a node may use: the UP links to the neighbour its route names (R331); while none of them is UP, those that
retrain. -/
def routeLinks (s : State) (node : Nat) : List Nat :=
  match routeNb s node with
  | none => []
  | some nb => if linksTo s nb = [] then retraining s nb else linksTo s nb

/-- A link still has messages of a class to deliver. -/
def holdsClass (t : Tlk) (c : Nat) : Bool :=
  t.queue.any (fun q => decide (msgClass q.kind = c)) || (t.retry ++ t.cur ++ t.resend).any (fun f => decide (f.kind ≠ 2 ∧ f.cls = c))

/-- The link a message takes (R331). Behind earlier messages of its class on a link that retrains it waits there, so that they stay in order
(R327). -/
def pickLink (s : State) (k : MsgKind) (m : Msg) : Option Nat :=
  let l := routeLinks s m.dst
  let nb := (routeNb s m.dst).getD 512
  let i := match msgClass k with
    | 5 => m.arg % 2 ^ 32 % max l.length 1
    | 4 => smGetD s.link.alt nb 0 % max l.length 1
    | _ => 0
  ((retraining s nb).find? (fun x => holdsClass (tlkOf s x) (msgClass k))).or l[i]?

/-- Put a message on its link; MEMBER_IO messages to a neighbour alternate (R331). -/
def routeMsg (q : QMsg) (lost : State → State) (s : State) : State :=
  match pickLink s q.kind q.m with
  | some x => sendOn x q (if msgClass q.kind = 4 then updLink (fun l => { l with alt := smUpd l.alt ((routeNb s q.m.dst).getD 512) 0 (· + 1) }) s else s)
  | none => lost s

/-- A message its source cannot route is not sent (R330). -/
def unroutable (s : State) : State := setEvt 0xD0 TRT_EVT_UNROUTABLE (incFld TRT_UNROUTED_COUNT 1 s)

/-- Send a message of this node with a note for its acknowledgement. -/
def sendNoted (node : Nat) (k : MsgKind) (tag arg arg2 : Nat) (body : List Byte) (note : Option (Nat × Nat × Nat)) (s : State) : State :=
  routeMsg { kind := k, m := { hops := 3, dst := node, src := nodeId s, tag := tag, arg := arg, arg2 := arg2, body := body }, note := note } unroutable s

/-- Send a message of this node (R345). -/
def sendMsg (node : Nat) (k : MsgKind) (tag arg arg2 : Nat) (body : List Byte) (s : State) : State := sendNoted node k tag arg arg2 body none s

end Sys2Proof.Machine
end

