-- ==== Sys2Proof/Machine/Ops.lean ====
section
/-! DEFINITION. Operations shared by the commands: how a command ends, the part-wise updates of the state,
host requests (R264, R269), member requests and messages. -/

namespace Sys2Proof.Machine
open Reg

/-- How a command of the block ends: with its effect where its operands name units that exist, else with
the fault for a unit that does not. -/
def run (ok : Bool) (t : State) : Host.Outcome State Fault Refusal :=
  if ok then .next t else .fault .noSuchUnit

/-- CCLK runs: from P2 on, while the main domain is powered (R391, Table POWER-3). -/
def cclkOn (s : State) : Bool :=
  decide (2 ≤ getFld s CHIP_DEV_STAT_PHASE) && decide (getFld s PWR_STAT_STATE ≠ 3) && decide (getFld s PWR_STAT_STATE ≠ 5)

/-- What passes while no command waits: 0.8 ns of device time, which stands still without CCLK while the crystal does not run
(R392, R393). -/
def idleTick (s : State) : State :=
  if !isSet s CLK_STAT_XTAL_OK && !cclkOn s then s else { s with timeQ := s.timeQ + 256 }

/-- Apply an effect where a condition of the state holds; else leave the state. -/
def onlyIf (b : Bool) (f : State → State) (s : State) : State := if b then f s else s

def updIo (f : Io → Io) (s : State) : State := { s with io := f s.io }
def updStore (f : Store → Store) (s : State) : State := { s with store := f s.store }
def updCache (f : Cache → Cache) (s : State) : State := { s with cache := f s.cache }
def updHost (f : HostSt → HostSt) (s : State) : State := { s with host := f s.host }
def updDrive (f : DriveSt → DriveSt) (s : State) : State := { s with drive := f s.drive }

/-- A page's fence is released: it leaves the fence list (R379). -/
def clearFence (p : Nat) (s : State) : State :=
  setFld (PG_STAT_FENCED p) 0 (setFld (FLT_FENCE_STAT_FENCED p) 0 (setFld (FLT_FENCE_STAT_KIND p) 0 (setFld (FLT_FENCE_STAT_SEVERITY p) 0 s)))

/-- A DRAM channel is OFF or FROZEN: it serves no access (R306, R312). -/
def dmcDown (s : State) (c : Nat) : Bool := decide (getFld s (PG_STAT_STATE (0x20 + c)) ∈ [0, 5])

/-! ### Plates and members -/

def plateOf (s : State) (p : Nat) : Option Plate := smGet s.store.plates p

/-- Change a plate that exists. -/
def updPlate (p : Nat) (f : Plate → Plate) (s : State) : State :=
  match plateOf s p with
  | some x => updStore (fun t => { t with plates := smSet t.plates p (f x) }) s
  | none => s

def Plate.mem (x : Plate) (m : Nat) : Option Member := x.members[m]?

/-- Change one member of a plate. -/
def Plate.updMem (x : Plate) (m : Nat) (f : Member → Member) : Plate :=
  { x with members := x.members.modify m f }

/-- FAIL_SEQ of a member, 0 where it has not failed. -/
def Plate.failSeqOf (x : Plate) (m : Nat) : Nat := ((x.mem m).map Member.failSeq).getD 0

def Plate.isOnline (x : Plate) (m : Nat) : Bool := decide ((x.mem m).map Member.state = some .online)

/-- The members that hold the given states, by index. -/
def Plate.membersIn (x : Plate) (st : List MState) : List Nat :=
  (List.range x.members.length).filter (fun m => ((x.mem m).map (fun y => decide (y.state ∈ st))).getD false)

/-- The writable members: ONLINE, NEW, REBUILDING and SPARE_HELD (R35). -/
def Plate.writable (x : Plate) : List Nat := x.membersIn [.online, .fresh, .rebuilding, .spareHeld]

/-- FAIL_SEQ restricted to a realised set: spare_map() sees only those failures (R24, R99). -/
def Plate.seqIn (x : Plate) (set : List Nat) (m : Nat) : Nat := if m ∈ set then x.failSeqOf m else 0

/-- The target set T: failed members less a REBUILDING replacement (R100). -/
def Plate.target (x : Plate) : List Nat :=
  (List.range x.members.length).filter (fun m =>
    ((x.mem m).map (fun y => decide (y.failSeq ≠ 0) && decide (y.state ≠ .rebuilding))).getD false)

/-- The realised set of a stripe: that of its range (R99). Ranges are kept by rising start; the last runs on past the last stripe to the start
of the first, as the walk does (R115). -/
def Plate.realised (x : Plate) (sn : Nat) : List Nat :=
  (((x.ranges.filter (fun r => decide (r.start ≤ sn))).getLast?.or x.ranges.getLast?).map Range.set).getD []

/-- The stripes of the plate. -/
def Plate.stripes (x : Plate) : Nat := x.geom.rows * x.geom.g

/-- The homes of a stripe's positions under its realised set (R24, R99). -/
def Plate.homesOf (x : Plate) (sn : Nat) : List (Option Nat) := x.geom.homes (x.seqIn (x.realised sn)) sn

/-- The home of one position. -/
def Plate.homeOf (x : Plate) (sn pos : Nat) : Option Nat := ((x.homesOf sn)[pos]?).join

/-- The pass has not yet written a slot's replacement in a stripe (R86): the slot is no home there. -/
def Plate.unwritten (x : Plate) (sn m : Nat) : Bool := decide (128 + m ∈ x.realised sn)

/-- Row 1 of Table REBUILD-2: the position is unrelocated, or its home is a member with non-zero FAIL_SEQ
other than a slot whose replacement is REBUILDING, in the stripes that the pass has written to it (R86). -/
def Plate.erasedPos (x : Plate) (sn pos : Nat) : Bool :=
  match x.homeOf sn pos with
  | none => true
  | some m => decide (x.failSeqOf m ≠ 0) && (!decide ((x.mem m).map Member.state = some .rebuilding) || x.unwritten sn m)

/-- The plate is owned and served by this node, as far as its state goes. -/
def Plate.served (x : Plate) : Bool := !x.building && !x.importing && !x.gone

/-- The plate is fenced (R295, R335, R379). -/
def plateFenced (s : State) (p : Nat) : Bool := fenced s (0x40 + p)

/-! ### Host memory (R264, R269) -/

def fnKey (port func : Nat) : Nat := port * 1024 + func

def fnOf (s : State) (port func : Nat) : HFn := smGetD s.host.fns (fnKey port func) HFn.reset

def updFn (port func : Nat) (f : HFn → HFn) (s : State) : State :=
  updHost (fun h => { h with fns := smSet h.fns (fnKey port func) (f (fnOf s port func)) }) s

/-- The functions of a port that exist: the PF, and the VFs that VF Enable creates (R254). -/
def functions (s : State) (port : Nat) : List Nat :=
  if isSet s (HEP_FUNCS_VF_EN port) then List.range (getFld s (HEP_FUNCS_NUMVFS port) + 1) else [0]

def isFunction (s : State) (port func : Nat) : Bool :=
  decide (func = 0) || (isSet s (HEP_FUNCS_VF_EN port) && decide (func ≤ getFld s (HEP_FUNCS_NUMVFS port)))

/-- The port's link takes traffic. -/
def linkUp (s : State) (port : Nat) : Bool := decide (port ∈ s.host.up)

/-- The PF is not in D0 (R277). -/
def inD3 (s : State) (port : Nat) : Bool := decide (getFld s (HEP_FUNCS_PF_DSTATE port) ≠ 0)

/-- What stops a function as a cleared Bus Master Enable does: the enable itself, a PF outside D0, a fenced endpoint (R269, R277,
Table HOST-9). -/
def fnOff (s : State) (port func : Nat) : Bool := !(fnOf s port func).bme || inD3 s port || fenced s (0x10 + port)

/-- The function may issue requests: not stopped, no reset running, link up. -/
def fnLive (s : State) (port func : Nat) : Bool := !fnOff s port func && !(fnOf s port func).flr && linkUp s port

/-- Cut a run of host memory into requests that neither exceed a size nor cross a 4 KiB boundary (R264). -/
def cutReq (mx : Nat) : Nat → Nat → Nat → List (Nat × Nat)
  | 0, _, _ => []
  | fuel + 1, a, n =>
    if n = 0 then []
    else
      let k := min n (min (max mx 1) (4096 - a % 4096))
      (a, k) :: cutReq mx fuel (a + k) (n - k)

/-- What is to be sent finds the link in L0: it leaves L1 (R279). -/
def leaveL1 (port : Nat) (s : State) : State :=
  if isSet s (HEP_LINK_IN_L1 port) then setFld (HEP_LINK_IN_L1 port) 0 (setFld (HEP_LINK_IN_L12 port) 0
    (updHost (fun h => { h with l11 := h.l11.filter (· ≠ port) }) s)) else s

/-- Address and data of a function's message as they stand when it is sent: those of its MSI-X entry (R261), or those of MSI with VECTOR mod m in the
low bits (R262). -/
def msiPair (s : State) (port func v : Nat) : Nat × Nat :=
  let x := fnOf s port func
  if x.cfg.msix then (smGetD x.table (4 * v) 0 + 2 ^ 32 * smGetD x.table (4 * v + 1) 0, smGetD x.table (4 * v + 2) 0)
  else let m := max 1 (x.cfg.msi.getD 1); (x.cfg.msiAddr, x.cfg.msiData / m * m + v % m)

/-- Send one held or new posted write or message; bytes written are counted (Table HOST-8). -/
def sendPosted (port : Nat) (o : Out) (s : State) : State :=
  let n := match o with
    | .hostWrite _ _ _ b _ => b.length
    | _ => 0
  let o1 := match o with
    | .msi p f v _ _ => let m := msiPair s p f v; .msi p f v m.1 m.2
    | _ => o
  emit o1 (leaveL1 port (if n = 0 then s else add64 (HEP_WR_LO_COUNT port) (HEP_WR_HI_COUNT port) n s))

/-- A PF outside D0 whose PME_En is 1 wakes the host for a held message (R278). -/
def wakeHost (port : Nat) (s : State) : State :=
  let pf := fnOf s port 0
  if inD3 s port && pf.cfg.pmeEn && !pf.pme then
    emit (.pcie port (if getFld s (HEP_FUNCS_PF_DSTATE port) = 3 then .pmPme else .wake) 0) (updFn port 0 (fun y => { y with pme := true }) s)
  else s

/-- A posted write or message of a function: sent, held while the function is stopped (R269), or dropped under reset or without a
link. A port holds 1,024; the producers of further ones wait, and theirs stand behind those held, in order (R270, notes/assumptions/55.md). -/
def posted (port func : Nat) (o : Out) (s : State) : State :=
  if (fnOf s port func).flr || (!linkUp s port && decide (port ∉ s.host.l2)) then s
  else if fnLive s port func then sendPosted port o s
  else updFn port func (fun y => { y with held := y.held ++ [o] }) s

/-- A write to host memory, in requests of at most Max_Payload_Size (R264). Relaxed Ordering is set where Table HOST-5 allows it. -/
def hostWrite (port func addr : Nat) (bytes : List Byte) (relaxed : Bool) (s : State) : State :=
  let c := (fnOf s port func).cfg
  let ro := relaxed && c.relaxed && isSet s (HEP_CFG_RO_DATA port)
  ((cutReq c.mps (bytes.length + 1) addr bytes.length).foldl (fun (acc : State × List Byte) r =>
    (posted port func (.hostWrite port func r.1 (acc.2.take r.2) ro) acc.1, acc.2.drop r.2)) (s, bytes)).1

/-- The requests of a read of host memory (R264). -/
def readReqs (s : State) (h : HRead) : List (Nat × Nat) :=
  h.runs.flatMap (fun r => cutReq (fnOf s h.port h.func).cfg.mrrs (r.2 + 1) r.1 r.2)

/-- Non-posted requests outstanding at a port (HEP_OUT.READS). -/
def readsOut (s : State) (port : Nat) : Nat :=
  s.io.hreads.foldl (fun n q => if q.2.port = port ∧ q.2.sent then n + ((readReqs s q.2).length - q.2.rest.length) else n) 0

/-- The non-posted requests a port may have outstanding (R264). -/
def readLimit (s : State) (port : Nat) : Nat := if (fnOf s port 0).cfg.tag10 then 768 else 256

/-- Send the requests of a read. -/
def sendReqs (tag : Nat) (h : HRead) (reqs : List (Nat × Nat)) (s : State) : State :=
  reqs.foldl (fun t r => emit (.hostRead tag h.port h.func r.1 r.2 (fnOf s h.port h.func).cfg.relaxed) t) s

/-- Issue the requests of one read that wait, where its function may and as far as the port has room (R264). -/
def issueRead (tag : Nat) (h : HRead) (s : State) : State :=
  let reqs := if h.sent then h.rest else readReqs s h
  let room := readLimit s h.port - readsOut s h.port
  if h.late || !fnLive s h.port h.func || (h.sent && h.rest.isEmpty) || decide (room = 0) then s
  else
    let h1 := { h with sent := true, rest := reqs.drop room, since := if h.sent then h.since else devTime s }
    sendReqs tag h (reqs.take room) (updIo (fun i => { i with hreads := smSet i.hreads tag h1 }) (leaveL1 h.port s))

/-- Issue the reads that wait, in order. -/
def pumpReads (s : State) : State := s.io.hreads.foldl (fun t q => issueRead q.1 q.2 t) s

/-- The time of a Completion Timeout Value, in ns; an encoding that is not listed acts as 0b0000 (R266). -/
def ctoNs (enc : Nat) : Nat :=
  match enc % 16 with
  | 1 => 100000
  | 2 => 10000000
  | 5 => 50000000
  | 6 => 200000000
  | 9 => 900000000
  | 10 => 3500000000
  | _ => 32000000

/-- The completion timer of a read has run out (R266). -/
def timerOut (s : State) (h : HRead) : Bool := decide (h.since + ctoNs (fnOf s h.port h.func).cfg.cto ≤ devTime s)

/-- A read of host memory, numbered by a tag until its completion (R267). -/
def hostReadRuns (port func : Nat) (runs : List (Nat × Nat)) (why : HPurpose) (s : State) : State :=
  let t := s.io.nextTag
  let h : HRead := { port := port, func := func, runs := runs, why := why, sent := false, late := false }
  issueRead t h (updIo (fun i => { i with hreads := smSet i.hreads t h, nextTag := t + 1 }) s)

def hostRead (port func addr len : Nat) (why : HPurpose) (s : State) : State := hostReadRuns port func [(addr, len)] why s

/-- Entries of a function's message table: 2,048 MSI-X entries for a PF and 4 for a VF (R261); 32 where a PF uses MSI (R262). -/
def vectorLimit (s : State) (port func : Nat) : Nat :=
  let c := (fnOf s port func).cfg
  if func = 0 then (if c.msi.isSome && !c.msix then 32 else 2048) else 4

/-- The entry's mask bit, or the Function Mask, is set (R261, R262). -/
def HFn.masked (x : HFn) (v : Nat) : Bool :=
  if x.cfg.msix then x.cfg.fmask || decide (smGetD x.table (4 * v + 3) 1 % 2 = 1) else decide (v ∈ x.cfg.msiMask)

/-- A function's interrupt message: MSI-X with its mask and pending bits, or MSI (R203, R261 to R263). -/
def hostMsg (port func vector : Nat) (s : State) : State :=
  let x := fnOf s port func
  let msi := if func = 0 ∧ !x.cfg.msix then x.cfg.msi else none
  if x.flr || (!linkUp s port && decide (port ∉ s.host.l2)) then s
  else if (!x.cfg.msix && msi.isNone) || decide (vectorLimit s port func ≤ vector) then incFld (HEP_IRQ_NONE_COUNT port) 1 s
  else
    let v := match msi with
      | some m => vector % max m 1
      | none => vector
    if x.masked v then updFn port func (fun y => { y with pba := if v ∈ y.pba then y.pba else y.pba ++ [v] }) s
    else
      let s1 := posted port func (.msi port func v 0 0) s
      if fnLive s port func then s1 else wakeHost port s1

/-- The class of an error (Table HOST-7). -/
def aerAdvisory (e : Aer) : Bool := decide (e ∈ [.unexpectedCompletion, .poisoned, .completerAbortSent, .unsupportedSent])

def aerCorrectable (e : Aer) : Bool := decide (e ∈ [.receiverError, .badTlp, .badDllp, .replayTimer, .replayRollover, .correctedInternal])

/-- The message that reports an error: none where it is masked or its reporting is off; that of an advisory one is a correctable error's. The masks and
severities of a PF govern its VFs (PRESUMED, notes/assumptions/144.md). -/
def errMsg (c : FnCfg) (e : Aer) : Option PcieMsg :=
  if e ∈ c.aerMask ∨ (aerAdvisory e ∧ c.advMask) then none
  else if aerCorrectable e ∨ aerAdvisory e then (if c.errCor then some .errCor else none)
  else if e ∈ c.aerFatal then (if c.errFatal then some .errFatal else none)
  else if c.errNonfatal then some .errNonfatal else none

/-- Log an error for a function (R281): the header log keeps the first; an uncorrectable one that is not advisory raises AER_UNCORR. -/
def aerLog (port func : Nat) (e : Aer) (s : State) : State :=
  let s1 := updFn port func (fun y => { y with aer := if e ∈ y.aer then y.aer else y.aer ++ [e], first := some (y.first.getD e) }) s
  let s2 := match errMsg (fnOf s port 0).cfg e with
    | some m => onlyIf (linkUp s port) (emit (.pcie port m func)) s1
    | none => s1
  if !aerCorrectable e && !aerAdvisory e then setEvt (0x10 + port) HEP_EVT_AER_UNCORR s2 else s2

/-- The error of a failed read (R267). -/
def rdError : HostRd → Option Aer
  | .data _ => none
  | .unsupported => some .unsupportedReceived
  | .abort => some .completerAbortReceived
  | .poisoned => some .poisoned
  | .ecrc => some .ecrc
  | .timedOut => some .completionTimeout

/-- A time-out is reported (R266, R267): a completion for it that arrives later is an unexpected one of that function (R268). -/
def reportTimeout (port func tag : Nat) (s : State) : State :=
  setEvt (0x10 + port) HEP_EVT_CPL_TMO (incFld (HEP_CTO_COUNT port) 1 (aerLog port func .completionTimeout
    (updIo (fun i => { i with expired := smSet i.expired tag func }) s)))

/-- A read of n bytes of host memory has ended: its bytes are counted, or its error is logged and counted (R267). -/
def readEnded (port func tag n : Nat) (r : HostRd) (s : State) : State :=
  match rdError r with
  | none => add64 (HEP_RD_LO_COUNT port) (HEP_RD_HI_COUNT port) n s
  | some .completionTimeout => reportTimeout port func tag s
  | some e => aerLog port func e s

/-- A read of `n` bytes may be sent now: its function runs and the port has room for its requests (R264, R269). -/
def readReady (s : State) (port func addr n : Nat) : Bool :=
  fnLive s port func && decide (readsOut s port + (cutReq (fnOf s port func).cfg.mrrs (n + 1) addr n).length ≤ readLimit s port)

/-- A read's requests go out and its answer `r` ends it. -/
def readDone (port func addr n : Nat) (r : HostRd) (s : State) : State :=
  let t := s.io.nextTag
  let h : HRead := { port := port, func := func, runs := [(addr, n)], why := .sgl 0, sent := true, late := false }
  readEnded port func t n r (sendReqs t h (cutReq (fnOf s port func).cfg.mrrs (n + 1) addr n)
    (updIo (fun i => { i with nextTag := t + 1 }) (leaveL1 port s)))

/-- A read of host memory whose answer its row carries: its requests and its end. While it may not be sent, `f` does not act. -/
def readNow (port func addr n : Nat) (r : HostRd) (f : State → State) (s : State) : State :=
  if readReady s port func addr n then f (readDone port func addr n r s) else s

/-- A function answers configuration requests with Configuration Request Retry Status (R271, R274, R403). -/
def cfgRetry (s : State) (port func : Nat) : Bool := decide (port ∈ s.host.crs) || (fnOf s port func).flr

/-- A configuration write reaches its function, unless it is answered with Configuration Request Retry Status. -/
def cfgWrite (port func off : Nat) (f : State → State) (s : State) : State :=
  if cfgRetry s port func then emit (.cfgRetry (if func = 0 then .pf port else .vf port func) off) s else f s

/-! ### Member requests -/

/-- A drive port. -/
def dport (s : State) (p : Nat) : Option DPort := smGet s.drive.ports p

/-- Blocks one NVMe command to a drive port may carry (R289); 128 where the port is not known here. -/
def mdtsOf (s : State) (port : Nat) : Nat := max 1 (((dport s port).map DPort.mdts).getD 128)

/-- Work for a drive takes its link out of L1 (R286). -/
def leaveDriveL1 (p : Nat) (s : State) : State :=
  if isSet s (DPT_LINK_IN_L1 p) then setFld (DPT_LINK_IN_L1 p) 0 (setFld (PG_STAT_ASLEEP (0x80 + p)) 0 s) else s

/-- The I/O queue pairs of a port: DPT_CFG.QPAIRS, as far as the drive allows them (R290). -/
def queuePairs (s : State) (p : Nat) : Nat := max 1 (min (getFld s (DPT_CFG_QPAIRS p)) (((dport s p).map DPort.queues).getD 65535))

def updDport (p : Nat) (f : DPort → DPort) (s : State) : State :=
  match dport s p with
  | some d => updDrive (fun t => { t with ports := smSet t.ports p (f d) }) s
  | none => s

/-- A command is outstanding at its drive: its port has issued it on a queue pair (R290). One for another node's port is that node's to issue. -/
def nvIssued (s : State) (id : Nat) : Bool :=
  match smGet s.io.nvme id with
  | none => false
  | some c => decide (c.node ≠ nodeId s) || c.pair.isSome

/-- Commands outstanding on a queue pair of a port. -/
def pairLoad (s : State) (p k : Nat) : Nat := (s.io.nvme.filter (fun q => decide (q.2.node = nodeId s ∧ q.2.port = p ∧ q.2.pair = some k))).length

/-- The queue pair the next command of a port takes: the next in turn that holds fewer than 32 (R290). None while the controller is reset (R291). -/
def nvPair (s : State) (p : Nat) : Option Nat :=
  let n := queuePairs s p
  if ((dport s p).map DPort.resetting).getD false then none
  else ((List.range n).map (fun i => (((dport s p).map DPort.turn).getD 0 + i) % n)).find? (fun k => decide (pairLoad s p k < 32))

/-- The PRP entries of a command, one for each block of a Read or Write (R289, notes/assumptions/166.md). -/
def nvPrps (id : Nat) (c : NvCmd) : List Nat :=
  if c.op = .read ∨ c.op = .write then (List.range c.n).map (fun i => 4096 * (Config.prpPage id i).toNat) else []

/-- Issue a waiting command where a queue pair has room; it takes the link out of L1 (R286, R290). -/
def issueNv (id : Nat) (c : NvCmd) (s : State) : State :=
  match nvPair s c.port with
  | none => s
  | some k =>
    let c1 : NvCmd := { c with pair := some k }
    emit (.nvme id c1 (nvPrps id c1)) (leaveDriveL1 c.port (updDport c.port (fun d => { d with turn := k + 1 })
      (updIo (fun i => { i with nvme := smSet i.nvme id c1 }) s)))

/-- Issue what waits at a port, in the order given (R290). -/
def pumpNv (p : Nat) (s : State) : State :=
  (s.io.nvme.filter (fun q => decide (q.2.node = nodeId s ∧ q.2.port = p ∧ q.2.pair = none))).foldl (fun t q => issueNv q.1 q.2 t) s

/-- Commands end: their queue pairs have room for those that wait. -/
def endNvs (f : Nat × NvCmd → Bool) (s : State) : State :=
  (((s.io.nvme.filter (fun q => f q && decide (q.2.node = nodeId s))).map (fun q => q.2.port)).eraseDups).foldl (fun t p => pumpNv p t)
    (updIo (fun i => { i with nvme := i.nvme.filter (fun q => !f q) }) s)

/-- One command ends. -/
def endNv (id : Nat) (s : State) : State := endNvs (fun q => decide (q.1 = id)) s

/-- Put an NVMe command among the outstanding ones, stamped with the time, and send it: to the local drive, or to the node whose
port holds the member as a MEMBER_IO message, Write Zeroes as a WRITE of zeros (R335); deallocate has no message. Under a freeze only vault
targets and reservations take commands (Sequence CACHE-1, Sequence FAULT-1). -/
def sendNv (cmd : NvCmd) (s : State) : State :=
  let c : NvCmd := { cmd with since := devTime s, pair := none }
  let through := match c.why with
    | .vault _ => true
    | .resv _ => true
    | _ => false
  if isSet s ADM_STAT_FROZEN && !through then s else
  let id := s.io.nextNv
  let s1 := updIo (fun i => { i with nvme := smSet i.nvme id c, nextNv := id + 1 }) s
  if c.node = nodeId s then pumpNv c.port s1
  else if c.op = .deallocate then s
  else sendMsg c.node (if c.op = .read then .memberRead else .memberWrite) (id % 2 ^ 32) (c.lba % 2 ^ 48 + c.port % 64 * 2 ^ 48) c.nsid
    (if c.op = .read then [] else slice c.data 0 4096) s1

/-- The pieces of a block range at a drive's MDTS: (first offset, blocks) (R289). -/
def pieces : Nat → Nat → Nat → Nat → List (Nat × Nat)
  | 0, _, _, _ => []
  | fuel + 1, off, n, m => if n = 0 then [] else (off, min n m) :: pieces fuel (off + min n m) (n - min n m) m

/-- Blocks one request to a member may carry: the drive's MDTS here, one block in a message (R289, Table LINK-8). -/
def reqLimit (s : State) (node port : Nat) : Nat := if node = nodeId s then mdtsOf s port else 1

/-- Requests to one member over a block range, split at the drive's MDTS in ascending order (R68, R289).
`data` holds 4,096 bytes per block for a write. -/
def memberReq (p m sn pos : Nat) (op : NvOp) (lba n : Nat) (data : List Byte) (why : Nat → Purpose) (s : State) : State :=
  match (plateOf s p).bind (fun x => x.mem m) with
  | none => s
  | some y =>
    (pieces n 0 n (reqLimit s y.node y.port)).foldl (fun t q =>
      sendNv { plate := p, mem := m, node := y.node, port := y.port, nsid := y.nsid, sn := sn, pos := pos, op := op, lba := lba + q.1, n := q.2,
               data := if data.isEmpty then [] else slice data (4096 * q.1) (4096 * q.2), why := why q.1, tries := 0 } t) s

/-- How many requests `memberReq` makes. -/
def reqCount (s : State) (p m n : Nat) : Nat :=
  match (plateOf s p).bind (fun x => x.mem m) with
  | none => 0
  | some y => (pieces n 0 n (reqLimit s y.node y.port)).length

/-- The bytes of a list of blocks, 4,096 each. -/
def blockBytes (bs : List Block) : List Byte := bs.flatMap (fun b => slice b 0 4096)

end Sys2Proof.Machine
end

