-- ==== Sys2Proof/Machine/RingOps.lean ====
section
/-! DEFINITION. Operations on Unmal rings shared by many commands: the fields of a submission entry, the
checks of Table RING-5, completion entries (R200 to R203, R208, R235, R241) and how a command's parts end. -/

namespace Sys2Proof.Machine
open Reg

/-! ### Submission entry fields (Table RING-1) -/

def enOp (r : List Byte) : Nat := leAt r 0x00 1
def enFlags (r : List Byte) : Nat := leAt r 0x01 1
def enCid (r : List Byte) : Nat := leAt r 0x02 2
def enVol (r : List Byte) : Nat := leAt r 0x04 2
def enLba (r : List Byte) : Nat := leAt r 0x08 8
def enBlocks (r : List Byte) : Nat := leAt r 0x10 4
def enCdw (r : List Byte) : Nat := leAt r 0x14 4
def enDptr (r : List Byte) : Nat := leAt r 0x18 8
def enDlen (r : List Byte) : Nat := leAt r 0x20 4
def enAux (r : List Byte) : Nat := leAt r 0x28 8
def enAux2 (r : List Byte) : Nat := leAt r 0x30 8

/-- The bytes of data a command moves between host memory and the device (Table RING-7). -/
def ioDataLen (r : List Byte) : Nat := if enOp r ∈ [1, 2, 6] then enBlocks r * 4096 else 0

/-- Write-class I/O opcodes (Table RING-7). -/
def isWriteOp (op : Nat) : Bool := op ∈ [2, 4, 5, 8, 9]

/-- Row 3 of Table RING-5: the byte offset of the first reserved field or bit that is not zero (R198). -/
def reservedBad (r : List Byte) : Option Nat :=
  if enFlags r / 2 ≠ 0 then some 0x01
  else if enVol r / 2 ^ 14 ≠ 0 then some 0x04
  else if leAt r 0x06 2 ≠ 0 then some 0x06
  else if enLba r / 2 ^ 48 ≠ 0 then some 0x08
  else if leAt r 0x24 4 ≠ 0 then some 0x24
  else if leAt r 0x38 8 ≠ 0 then some 0x38
  else none

/-- The first of a list of (byte offset, allowed) that is not allowed. -/
def firstBad (l : List (Nat × Bool)) : Option Nat := (l.find? (fun p => !p.2)).map Prod.fst

/-- The least and greatest block count of an I/O opcode (Table RING-7). -/
def ioBlocks (op : Nat) : Nat × Nat :=
  if op = 3 then (0, 0) else if op ∈ [1, 2, 6] then (1, 2048) else (1, 65536)

/-- Row 4 of Table RING-5 for an I/O opcode (R199, R211, Table RING-7). -/
def ioFieldBad (r : List Byte) : Option Nat :=
  let op := enOp r
  let data := decide (op ∈ [1, 2, 6])
  let sgl := decide (enFlags r % 2 = 1)
  firstBad [
    (0x01, data || !sgl),
    (0x08, !decide (op = 3) || decide (enLba r = 0)),
    (0x10, decide ((ioBlocks op).1 ≤ enBlocks r) && decide (enBlocks r ≤ (ioBlocks op).2)),
    (0x14, decide (enCdw r = 0)),
    (0x18, if data then (if sgl then decide (enDptr r % 16 = 0) else decide (enDptr r % 4 = 0)) else decide (enDptr r = 0)),
    (0x20, if sgl then decide (1 ≤ enDlen r) && decide (enDlen r ≤ 2048) else decide (enDlen r = 0)),
    (0x28, if op = 8 then true else if op = 9 then decide (enAux r < 2 ^ 48) else decide (enAux r = 0)),
    (0x30, if op = 9 then decide (enAux2 r < 2 ^ 14) else decide (enAux2 r = 0))]

/-- Admin opcodes the device defines (Tables RING-8, TENANT-6, ROLE-2). -/
def isAdminOp (op : Nat) : Bool := (decide (0x80 ≤ op) && decide (op ≤ 0x8E)) || (decide (0x90 ≤ op) && decide (op ≤ 0x93))

/-- Admin opcodes with a data buffer at DPTR. -/
def adminHasData (r : List Byte) : Bool :=
  decide (enOp r ∈ [0x80, 0x86, 0x89, 0x8A, 0x8B, 0x90, 0x91]) || (decide (enOp r = 0x93) && decide (enCdw r % 4 = 0))

/-- The role an admin opcode needs (Table RING-8); BLOCK_CMD's is that of its page. -/
def adminRole (op : Nat) : Nat := if op ∈ [0x86, 0x87, 0x8D, 0x93] then 1 else 0

/-- The pages whose CMD register BLOCK_CMD writes (R222); their fields take the installer's role. -/
def cmdPage (p : Nat) : Bool := (decide (0x40 ≤ p) && decide (p ≤ 0x7F)) || decide (p ∈ [0x38, 0x28, 0x29, 7])

/-- The role that an admin entry needs (Table RING-8). -/
def entryRole (r : List Byte) : Nat := if enOp r = 0x88 then (if cmdPage (enCdw r) then 1 else 0) else adminRole (enOp r)

/-- A 64-bit value read as signed. -/
def signed64 (v : Nat) : Int := if v < 2 ^ 63 then (v : Int) else (v : Int) - 2 ^ 64

/-- Two's complement of an integer in 64 bits. -/
def toU64 (v : Int) : Nat := (v % (2 ^ 64 : Int)).toNat

/-- The CDW values an admin opcode allows (Tables RING-8, TENANT-6, ROLE-2). -/
def adminCdwOk (r : List Byte) : Bool :=
  let v := enCdw r
  match enOp r with
  | 0x81 => decide (1 ≤ v ∧ v ≤ 1048576)
  | 0x83 => decide (1 ≤ v ∧ v ≤ 1048576)
  | 0x84 => decide (v < 2 ^ 12)
  | 0x85 => decide (v < 2 ^ 11)
  | 0x87 => decide (v < 64)
  | 0x88 => decide (v < 4096)
  | 0x89 => decide (v ≤ 16383)
  | 0x8B => decide (v < 4096)
  | 0x8C => decide (v < 4096)
  | 0x8D => decide (v < 4)
  | 0x8E => decide (v < 2)
  | 0x90 => decide (v = 1 ∨ v = 2)
  | 0x91 => decide (v = 1 ∨ v = 2)
  | 0x93 => decide (v < 2 ^ 16 ∧ v % 256 ≤ 1 ∧ (v % 256 = 0 ∨ v / 256 = 0))
  | _ => decide (v = 0)

def adminAuxOk (r : List Byte) : Bool :=
  let v := enAux r
  match enOp r with
  | 0x81 => decide (v ≠ 0)
  | 0x83 => true
  | 0x88 => decide (v < 2 ^ 32)
  | 0x89 => decide (1 ≤ v ∧ v ≤ 16384)
  | 0x8C => decide (v < 2 ^ 32 ∧ bitsOf v 2 6 = 0 ∧ bitsOf v 8 8 ≠ 0)
  | 0x8D => decide (v < 2 ^ 16)
  | 0x8E => decide (enCdw r = 1 ∨ ((signed64 v) ≤ 1000000000 ∧ -1000000000 ≤ (signed64 v)))
  | _ => decide (v = 0)

def adminAux2Ok (r : List Byte) : Bool :=
  let v := enAux2 r
  match enOp r with
  | 0x81 => decide (v ≤ 1)
  | 0x88 => true
  | 0x8C => decide (v < 2 ^ 40 ∧ bitsOf v 32 8 ≠ 0)
  | _ => decide (v = 0)

/-- Row 4 of Table RING-5 for an admin opcode (R216). -/
def adminFieldBad (r : List Byte) : Option Nat :=
  firstBad [
    (0x01, decide (enFlags r % 2 = 0)),
    (0x04, decide (enOp r ∈ [0x80, 0x81, 0x82, 0x83, 0x84, 0x85]) || decide (enVol r = 0)),
    (0x08, decide (enLba r = 0)),
    (0x10, decide (enBlocks r = 0)),
    (0x14, adminCdwOk r),
    (0x18, if adminHasData r then decide (enDptr r % 4096 = 0) else decide (enDptr r = 0)),
    (0x20, decide (enDlen r = 0)),
    (0x28, adminAuxOk r),
    (0x30, adminAux2Ok r)]

/-! ### Contexts -/

def ctxOf (s : State) (c : Nat) : Ctx :=
  smGetD s.io.ctxs c { vis := [], fetching := 0, unsig := 0, copy := [], prev := [], cfgSched := [] }

def updCtx (c : Nat) (f : Ctx → Ctx) (s : State) : State :=
  updIo (fun i => { i with ctxs := smSet i.ctxs c (f (ctxOf s c)) }) s

/-- CTX_STAT.STATE (Table RING-13). -/
def ctxState (s : State) (c : Nat) : Nat := getFld s (CTX_STAT_STATE c)

def ctxPort (s : State) (c : Nat) : Nat := getFld s (CTX_BIND_PORT c)
def ctxFunc (s : State) (c : Nat) : Nat := getFld s (CTX_BIND_FUNC c)
def ctxAdmin (s : State) (c : Nat) : Bool := isSet s (CTX_BIND_KIND c)
def sqSize (s : State) (c : Nat) : Nat := getFld s (CTX_RING_SIZE_SQ_M1 c) + 1
def cqSize (s : State) (c : Nat) : Nat := getFld s (CTX_RING_SIZE_CQ_M1 c) + 1
def sqBase (s : State) (c : Nat) : Nat := getFld s (CTX_SQ_BASE_LO_ADDR c) * 4096 + 2 ^ 32 * getFld s (CTX_SQ_BASE_HI_ADDR c)
def cqBase (s : State) (c : Nat) : Nat := getFld s (CTX_CQ_BASE_LO_ADDR c) * 4096 + 2 ^ 32 * getFld s (CTX_CQ_BASE_HI_ADDR c)

/-- The contexts bound to a function. -/
def ctxsOf (s : State) (port func : Nat) : List Nat :=
  (List.range 4096).filter (fun c => isSet s (CTX_BIND_VALID c) && decide (ctxPort s c = port) && decide (ctxFunc s c = func))

/-- A write that is discarded (R195, R205): CTX_DISCARD.DB counts it. -/
def discardDb (c : Nat) (s : State) : State :=
  setEvt (0x1000 + c) CTX_EVT_DB_DISCARD (satFld (CTX_DISCARD_DB c) 1 s)

/-- A configuration write that is refused (R194, R227, R238). -/
def cfgBad (c : Nat) (s : State) : State :=
  setEvt (0x1000 + c) CTX_EVT_CFG_BAD (setFld (CTX_STAT_CFG_BAD c) 1 s)

/-- The ring enters ERROR and latches CTX_ERR (R205, Table RING-4); an ERROR already latched stays. -/
def ringError (c cause value : Nat) (s : State) : State :=
  if ctxState s c = 4 then s
  else setEvt (0x1000 + c) CTX_EVT_ERROR
    (setFld (CTX_ERR_VALUE c) value (setFld (CTX_ERR_CAUSE c) cause (setFld (CTX_STAT_STATE c) 4 s)))

/-- Send the ring's interrupt message (R203). -/
def ringMsg (c : Nat) (s : State) : State :=
  hostMsg (ctxPort s c) (ctxFunc s c) (getFld s (CTX_IRQ_VECTOR c)) (updCtx c (fun x => { x with unsig := 0 }) s)

/-- After an entry is posted: the message is due once max(AGG_COUNT, 1) entries are unsignalled (R203). -/
def ringNotify (c : Nat) (s : State) : State :=
  let s1 := updCtx c (fun x => { x with unsig := x.unsig + 1 }) s
  if isSet s (CTX_IRQ_IEN c) && decide (max (getFld s (CTX_IRQ_AGG_COUNT c)) 1 ≤ (ctxOf s1 c).unsig) then ringMsg c s1 else s1

def cmdOf (s : State) (n : Nat) : Option Cmd := smGet s.io.cmds n

def updCmd (n : Nat) (f : Cmd → Cmd) (s : State) : State :=
  match cmdOf s n with
  | some x => updIo (fun i => { i with cmds := smSet i.cmds n (f x) }) s
  | none => s

/-! ### Completions of host reads (R267 to R269) -/

/-- An unexpected completion is dropped and counted, and logged for the function that made the request; for the PF where there was none
(R268, Table HOST-7). -/
def unexpected (port tag : Nat) (s : State) : State :=
  setEvt (0x10 + port) HEP_EVT_LATE_CPL (incFld (HEP_LATE_COUNT port) 1 (aerLog port ((smGet s.io.expired tag).getD 0) .unexpectedCompletion
    (updIo (fun i => { i with expired := smDel i.expired tag }) s)))

/-- A read of a stopped function is discarded, to be issued again; each of its requests counts (R269, Sequence HOST-1). -/
def discardRead (tag : Nat) (h : HRead) (s : State) : State :=
  incFld (HEP_DISCARD_COUNT h.port) ((readReqs s h).length - h.rest.length)
    (updIo (fun i => { i with hreads := smSet i.hreads tag { h with sent := false, rest := [] } }) s)

/-- A completion arrives at a port for a tag: with no request it is unexpected; that of a request whose command or function is gone
is dropped; that of a stopped function is discarded; another is counted or reported, and what was read decides. -/
def completion (port tag : Nat) (r : HostRd) (act : State → State) (s : State) : State :=
  match smGet s.io.hreads tag with
  | none => unexpected port tag s
  | some h =>
    if h.port ≠ port ∨ !h.sent then unexpected port tag s
    else if h.late then pumpReads (updIo (fun i => { i with hreads := smDel i.hreads tag }) s)
    else if !fnLive s h.port h.func then discardRead tag h s
    else
      pumpReads (act (readEnded port h.func tag ((h.runs.map Prod.snd).sum) r (sendReqs tag h h.rest s)))

/-- A read's completion timer expires (R266, R267, R269). -/
def timeout (tag : Nat) (act : State → State) (s : State) : State :=
  match smGet s.io.hreads tag with
  | none => s
  | some h =>
    if !h.sent ∨ !timerOut s h then s
    else if h.late then pumpReads (updIo (fun i => { i with hreads := smDel i.hreads tag }) s)
    else if !fnLive s h.port h.func then discardRead tag h s
    else pumpReads (act (reportTimeout h.port h.func tag s))

/-! ### Latency tolerance messages (R280) -/

/-- The contexts of a port whose rings run. -/
def running (s : State) (port : Nat) : List Nat :=
  (s.io.ctxs.map Prod.fst).filter (fun c => isSet s (CTX_BIND_VALID c) && decide (ctxPort s c = port ∧ ctxState s c = 2))

/-- The value of an LTR message: the active or the idle latency. -/
def ltrValue (s : State) (port : Nat) (active : Bool) : Nat :=
  if active then getFld s (HEP_LTR_ACT_VAL port) + 1024 * getFld s (HEP_LTR_ACT_SCALE port)
  else getFld s (HEP_LTR_IDLE_VAL port) + 1024 * getFld s (HEP_LTR_IDLE_SCALE port)

/-- A write of HEP_LTR is announced, with the values for the port as it stands. -/
def ltrSend (port : Nat) (s : State) : State :=
  if (fnOf s port 0).cfg.ltrEn ∧ linkUp s port then emit (.pcie port .ltr (ltrValue s port (decide (running s port ≠ [])))) s else s

/-- What a change of the running contexts makes a port send. -/
def ltrPort (before : State) (port : Nat) (s : State) : State :=
  if (fnOf s port 0).cfg.ltrEn ∧ linkUp s port then
    let old := running before port
    let new := running s port
    if new.any (fun c => decide (c ∉ old)) then emit (.pcie port .ltr (ltrValue s port true)) s
    else if old ≠ [] ∧ new = [] then emit (.pcie port .ltr (ltrValue s port false)) s
    else s
  else s

def ltrSync (f : State → State) (s : State) : State := ltrPort s 1 (ltrPort s 0 (f s))

/-- The service class in force (R238: since the last round start). -/
def classOf (s : State) (c : Nat) : Nat := ((ctxOf s c).cfgSched[0]?).getD (getFld s (CTX_SCHED_CLASS c))

/-- The latency target of a context's class, in µs (Table TENANT-1). -/
def classTarget (s : State) (c : Nat) : Nat :=
  match classOf s c with
  | 0 => getFld s TSC_CLASS0_LAT_US
  | 1 => getFld s TSC_CLASS1_LAT_US
  | 2 => getFld s TSC_CLASS2_LAT_US
  | _ => getFld s TSC_CLASS3_LAT_US

/-- MTR is counting: not fenced (Table TENANT-10), and the context is bound (R233). -/
def metering (s : State) (c : Nat) : Bool := !fenced s 0x101 && isSet s (CTX_BIND_VALID c)

/-- The metering counters a completed command adds (R241, Table TENANT-4). -/
def meterCmd (c : Nat) (x : Cmd) (s : State) : State :=
  onlyIf (metering s c) (fun t =>
    add64 (CTX_CMD_LO_COUNT c) (CTX_CMD_HI_COUNT c) 1
      (add64 (CTX_RD_LO_COUNT c) (CTX_RD_HI_COUNT c) (4096 * x.rdBlks)
        (add64 (CTX_WR_LO_COUNT c) (CTX_WR_HI_COUNT c) (4096 * x.wrBlks) t))) s

/-- The 16 bytes of a completion entry (Table RING-3). -/
def cqBytes (cid st phase head detail result : Nat) : List Byte :=
  leBytes cid 2 ++ leBytes st 1 ++ leBytes phase 1 ++ leBytes head 2 ++ leBytes detail 2 ++ leBytes result 8

/-- Write a command's completion entry and release the command (COMPLETION_ENTRY_WRITE: R200 to R203, R208,
R210, R235, R241). -/
def postEntry (n : Nat) (st : Status) (detail result : Nat) (s : State) : State :=
  match cmdOf s n with
  | none => s
  | some x =>
    let c := x.ctx
    let tail := getFld s (CTX_CQ_IDX_TAIL c)
    let ph := getFld s (CTX_STAT_PHASE c)
    let bytes := cqBytes (enCid x.raw) (statusCode st) ph (getFld s (CTX_SQ_IDX_HEAD c)) detail result
    let s1 := hostWrite (ctxPort s c) (ctxFunc s c) (cqBase s c + 16 * tail) bytes false s
    let wrap := decide (tail + 1 = cqSize s c)
    let s2 := setFld (CTX_CQ_IDX_TAIL c) (if wrap then 0 else tail + 1)
      (setFld (CTX_STAT_PHASE c) (if wrap then 1 - ph else ph) (decFld (CTX_OUT_OUTSTANDING c) 1 s1))
    let s3 := meterCmd c x s2
    let lat := classTarget s c
    let late := metering s c && !ctxAdmin s c && decide (lat ≠ 0) && decide (lat * 1000 < devTime s - x.since)
    let s4 := onlyIf late (incFld (CTX_LATE_COUNT c) 1) s3
    let s5 := onlyIf (decide (st = .stateConflict))
      (fun t => sketchCount (0x4000 + enOp x.raw) 1 (incFld (CTX_CONFLICT_COUNT c) 1 t)) s4
    let s6 := onlyIf (!ctxAdmin s c) (sketchHist (0x8000 + classOf s c) 10000 (devTime s - x.since)) s5
    ringNotify c (updIo (fun i => { i with cmds := smDel i.cmds n, told := i.told ++ x.wrote.map (fun k => (enVol x.raw, k)) }) s6)

/-- A command ends with a status, DETAIL and RESULT: its entry is written, or held while its ring carries
PAUSE_BME (R225). -/
def endCmd (n : Nat) (st : Status) (detail result : Nat) (s : State) : State :=
  match cmdOf s n with
  | none => s
  | some x =>
    if isSet s (CTX_STAT_PAUSE_BME x.ctx) then
      let s0 := if x.phase = .held then s else updFn (ctxPort s x.ctx) (ctxFunc s x.ctx) (fun y => { y with held := y.held ++ [.entryDue n] }) s
      updCmd n (fun y => { y with phase := .held, fail := if st = .ok then none else some (result, st), detail := detail, result := result }) s0
    else postEntry n st detail result s

/-- Note a failed block of a command; the lowest-addressed one gives the status (R54, R208). -/
def failAt (n lba : Nat) (st : Status) (s : State) : State :=
  updCmd n (fun y => match y.fail with
    | some (l, _) => if l ≤ lba then y else { y with fail := some (lba, st) }
    | none => { y with fail := some (lba, st) }) s

/-- A failed write or COMPARE fetch of host data: INVALID_FIELD with DETAIL 0xFFF2 (R209). -/
def failHost (n lba : Nat) (s : State) : State :=
  let s1 := failAt n lba .invalidField s
  updCmd n (fun y => match y.fail with
    | some (_, .invalidField) => { y with detail := 0xFFF2 }
    | _ => y) s1

/-- The first byte at which the blocks a COMPARE read differ from the host data (R213). -/
def compareDiff (x : Cmd) : Option Nat :=
  (List.range (enBlocks x.raw)).findSome? (fun o => (smGet x.got o).bind (fun b =>
    ((List.range 4096).find? (fun i => decide (byteAt b i ≠ byteAt x.host (4096 * o + i)))).map (fun i => 4096 * o + i)))

/-- End an I/O command whose every part has ended, with the status and RESULT its opcode gives (R60, R208,
R213, R214). A COMPARE whose host data failed ends without a comparison (Table HOST-6). -/
def finishIo (n : Nat) (s : State) : State :=
  match cmdOf s n with
  | none => s
  | some x =>
    let diff := if enOp x.raw = 6 ∧ x.detail ≠ 0xFFF2 then compareDiff x else none
    match x.fail, diff with
    | some (l, st), none => endCmd n st (if st = .invalidField then x.detail else 0) l s
    | some (l, st), some d =>
      if l ≤ enLba x.raw + d / 4096 then endCmd n st (if st = .invalidField then x.detail else 0) l s
      else endCmd n .compareMismatch 0 d s
    | none, some d => endCmd n .compareMismatch 0 d s
    | none, none =>
      if enOp x.raw = 7 ∧ x.fixed ≠ 0 then endCmd n .tagMismatch 0 x.fixed s
      else endCmd n .ok 0 (if enOp x.raw = 7 then x.fixed else 0) s

/-- One part of a command (a segment, a member run, a stripe operation) has ended; the command ends with its
last part, once nothing of it is left to present (R60). -/
def partDone (n : Nat) (s : State) : State :=
  let s1 := updCmd n (fun y => { y with waits := y.waits - 1 }) s
  match cmdOf s1 n with
  | none => s1
  | some x => if x.waits = 0 ∧ x.todo = 0 ∧ x.phase = .running then finishIo n s1 else s1

/-- Add parts a command waits for. -/
def addParts (n k : Nat) (s : State) : State := updCmd n (fun y => { y with waits := y.waits + k }) s

/-- The host address and length of the runs that hold data bytes off to off+len-1 of a command (R199). -/
def bufRuns : List (Nat × Nat) → Nat → Nat → List (Nat × Nat)
  | [], _, _ => []
  | (a, n) :: rest, off, len =>
    if len = 0 then []
    else if n ≤ off then bufRuns rest (off - n) len
    else (a + off, min (n - off) len) :: bufRuns rest 0 (len - min (n - off) len)

/-- Write data bytes of a command to its host buffer (R199, R202). -/
def toHost (n off : Nat) (bytes : List Byte) (s : State) : State :=
  match cmdOf s n with
  | none => s
  | some x =>
    ((bufRuns x.bufs off bytes.length).foldl (fun (acc : State × List Byte) r =>
      (hostWrite (ctxPort s x.ctx) (ctxFunc s x.ctx) r.1 (acc.2.take r.2) true acc.1, acc.2.drop r.2)) (s, bytes)).1

/-- Ask host memory for data bytes off to off+len-1 of a command. -/
def fromHost (n off len : Nat) (why : HPurpose) (s : State) : State :=
  match cmdOf s n with
  | none => s
  | some x => hostReadRuns (ctxPort s x.ctx) (ctxFunc s x.ctx) (bufRuns x.bufs off len) why s

end Sys2Proof.Machine
end

