-- ==== Sys2Proof/Machine/Locks.lean ====
section
/-! DEFINITION. The stripe-lock table (R46 to R48), staging space (R63), journal occupancy (R55, R81) and
the assignment of Burin pipes (R71). -/

namespace Sys2Proof.Machine
open Reg

/-! ### Locks -/

/-- Lock modes a request may ask for (Table WRITE-3). -/
inductive LMode where
  | stream | rmw | cache | maint
  deriving DecidableEq, Repr

def lockOf (s : State) (p sn : Nat) : Option Lock :=
  s.io.locks.find? (fun l => decide (l.plate = p) && decide (l.sn = sn))

/-- A request is compatible with a stripe's holders (Table WRITE-3, R47). -/
def compatible (l : Lock) : LMode → Bool
  | .stream => !l.stream && !l.rmw && !l.maint && decide (l.cache = 0)
  | .rmw => !l.stream && !l.rmw && !l.maint
  | .cache => (!l.stream || l.staged) && decide (l.cache < 63)
  | .maint => !l.stream && !l.rmw && !l.maint

/-- The stripe a waiting item waits on; a stripe operation that waits for a pipe holds its lock already. -/
def itemStripe (s : State) : WaitItem → Nat × Nat
  | .seg g => (g.plate, g.sn)
  | .sop id => (((smGet s.io.sops id).filter (fun x => decide (x.phase = .lock))).map (fun x => (x.plate, x.sn))).getD (64, 0)

/-- Some item of a list waits on a stripe. -/
def waitsOn (s : State) (l : List WaitItem) (p sn : Nat) : Bool :=
  l.any (fun i => decide (itemStripe s i = (p, sn)))

/-- The lock set of a stripe has a way for it (R46). -/
def setHasWay (s : State) (p sn : Nat) : Bool :=
  (lockOf s p sn).isSome ||
    decide ((s.io.locks.filter (fun l => decide (lockSet l.plate l.sn = lockSet p sn))).length < 8)

/-- A lock request would be granted now, given the items that wait before it (R47). -/
def lockFree (s : State) (before : List WaitItem) (p sn : Nat) (m : LMode) : Bool :=
  !waitsOn s before p sn && setHasWay s p sn &&
    ((lockOf s p sn).map (fun l => compatible l m)).getD true

/-- Add a holder to a lock entry. -/
def holdLock (l : Lock) : LMode → Lock
  | .stream => { l with stream := true, staged := false }
  | .rmw => { l with rmw := true }
  | .cache => { l with cache := l.cache + 1 }
  | .maint => { l with maint := true }

def dropHold (l : Lock) : LMode → Lock
  | .stream => { l with stream := false, staged := false }
  | .rmw => { l with rmw := false }
  | .cache => { l with cache := l.cache - 1 }
  | .maint => { l with maint := false }

/-- A lock entry with no holder and no reader (R48). -/
def lockIdle (l : Lock) : Bool := !l.stream && !l.rmw && !l.maint && decide (l.cache = 0) && decide (l.readers = 0)

/-- Put a stripe's lock entry, or free it when idle and nothing waits on the stripe (R48). -/
def putLock (l : Lock) (s : State) : State :=
  let rest := s.io.locks.filter (fun x => !(decide (x.plate = l.plate) && decide (x.sn = l.sn)))
  updIo (fun i => { i with locks := if lockIdle l && !waitsOn s s.io.waitl l.plate l.sn then rest else l :: rest }) s

/-- Free the lock entries that no holder, reader or waiter needs any more (R48). -/
def tidyLocks (s : State) : State :=
  updIo (fun i => { i with locks := i.locks.filter (fun l => !lockIdle l || waitsOn s i.waitl l.plate l.sn) }) s

/-- Keep only some items of the wait list; a stripe that nothing waits on any more may lose its lock entry (R48). -/
def keepWaits (f : WaitItem → Bool) (s : State) : State := tidyLocks (updIo (fun i => { i with waitl := i.waitl.filter f }) s)

def emptyLock (p sn : Nat) : Lock :=
  { plate := p, sn := sn, stream := false, rmw := false, maint := false, staged := false, cache := 0, readers := 0 }

/-- Take a lock in a mode; the high-water mark of ADM_LOCKS follows (R80). -/
def takeLock (p sn : Nat) (m : LMode) (s : State) : State :=
  let s1 := putLock (holdLock ((lockOf s p sn).getD (emptyLock p sn)) m) s
  hwmFld ADM_LOCK_HWM_HWM s1.io.locks.length s1

/-- Release a lock held in a mode. -/
def freeLock (p sn : Nat) (m : LMode) (s : State) : State :=
  match lockOf s p sn with
  | some l => putLock (dropHold l m) s
  | none => s

/-- A read pin is granted while READERS is below 255 (R47). -/
def pinFree (s : State) (p sn : Nat) : Bool := ((lockOf s p sn).map (fun l => decide (l.readers < 255))).getD true

/-- Pin or unpin staging data of a stripe (READERS, R51). -/
def pinStripe (p sn : Nat) (up : Bool) (s : State) : State :=
  let l := (lockOf s p sn).getD (emptyLock p sn)
  putLock { l with readers := if up then l.readers + 1 else l.readers - 1 } s

/-- The wait list holds 16,384 items (R53); what stands behind them in `waitl` waits for a free item (R54, R468). -/
def waitItems (s : State) : List WaitItem := s.io.waitl.take 16384

/-- Put an item at the tail of those that wait (R53). -/
def enqueueWait (i : WaitItem) (s : State) : State :=
  let s1 := updIo (fun x => { x with waitl := x.waitl ++ [i] }) s
  hwmFld ADM_WAIT_HWM (waitItems s1).length s1

/-! ### Journal and staging -/

/-- A journal entry that may change: under a freeze no entry changes state (Sequence CACHE-1, Sequence FAULT-1). -/
def entryOf (s : State) (j : Nat) : Option JEntry := if isSet s ADM_STAT_FROZEN then none else smGet s.io.journal j

/-- What Table WRITE-5 holds of an entry: the rest is staging's and the device's own note of its progress. -/
def JEntry.record (e : JEntry) : JEntry :=
  { e with newData := [], old := [], erased := [], zeros := [], parity := [], recStep := 0, logDone := false, posted := false, forced := false,
           slots := [], mirWait := 0, linkAck := [], wrHeld := false, wrOut := false, recSeq := 0, owed := false, burBytes := 0 }

/-- Rewrite an entry: REC_SEQ counts every change of the 128 bytes (R55). -/
def updEntry (j : Nat) (f : JEntry → JEntry) (s : State) : State :=
  match entryOf s j with
  | some e =>
    let y := f e
    let n := if y.record = e.record then e.recSeq else e.recSeq + 1
    updIo (fun i => { i with journal := smSet i.journal j { y with recSeq := n } }) s
  | none => s

/-- The lowest free journal index, below 49,152 (R55; which free entry is the list's head is assumption 8). -/
def freeEntry (s : State) : Option Nat :=
  let n := s.io.journal.length
  if 49152 ≤ n then none else smFree s.io.journal (n + 1)

/-- The staging runs in use. -/
def stageRuns (s : State) : List (Nat × Nat) :=
  s.io.journal.filterMap (fun q => if q.2.stage.2 = 0 then none else some q.2.stage)

/-- The lowest start of a free contiguous run of n of the 8,192 staging pages (R63). -/
def stageAlloc (runs : List (Nat × Nat)) (n : Nat) : Option Nat :=
  let cand := 0 :: runs.map (fun r => r.1 + r.2)
  let ok := cand.filter (fun a => decide (a + n ≤ 8192) &&
    runs.all (fun r => decide (a + n ≤ r.1) || decide (r.1 + r.2 ≤ a)))
  ok.foldl (fun a x => match a with | none => some x | some y => some (min x y)) none

/-- Entries of a plate. -/
def plateEntries (s : State) (p : Nat) : List (Nat × JEntry) :=
  s.io.journal.filter (fun q => decide (q.2.seg.plate = p))

/-- The atomic-log run of a group on a plate (R77). -/
def Group.logOn (g : Group) (p : Nat) : Option (Nat × Nat) := (g.logs.find? (fun r => decide (r.1 = p))).map Prod.snd

/-- The atomic-log runs of a plate in use: those of every group whose head is not freed (R77). -/
def logRuns (s : State) (p : Nat) : List (Nat × Nat) := s.io.groups.filterMap (fun q => q.2.logOn p)

/-- The lowest start of n free consecutive atomic-log blocks, of 496 (R77). -/
def logAlloc (runs : List (Nat × Nat)) (n : Nat) : Option Nat :=
  let cand := 0 :: runs.map (fun r => r.1 + r.2)
  let ok := cand.filter (fun a => decide (a + n ≤ 496) &&
    runs.all (fun r => decide (a + n ≤ r.1) || decide (r.1 + r.2 ≤ a)))
  ok.foldl (fun a x => match a with | none => some x | some y => some (min x y)) none

/-! ### Burin pipes (R71) -/

def pipeJobs (s : State) (b : Nat) : Nat := (s.io.jobs.filter (fun j => decide (j.pipe = b))).length

def pipeAwake (s : State) (b : Nat) : Bool := isSet s (BUR_STAT_POWERED b)

/-- A pipe may take a job (R71). -/
def pipeMay (s : State) (b : Nat) : Bool :=
  pipeAwake s b && !fenced s (0x30 + b) && enabled s (0x30 + b) && decide (getFld s (BUR_STAT_KAT b) ≠ 3) &&
    !isSet s (BUR_KAT_START b) && decide (pipeJobs s b < 16)

/-- The pipe a job goes to among those other than one: the fewest jobs, then the lowest number (R71). -/
def pipeBut (s : State) (b : Nat) : Option Nat :=
  ((List.range 8).filter (fun c => decide (c ≠ b) && pipeMay s c)).foldl (fun a c => match a with
    | none => some c
    | some x => if pipeJobs s c < pipeJobs s x then some c else some x) none

/-- The pipe a job goes to (R71). -/
def pipeFor (s : State) : Option Nat := pipeBut s 8

/-- Some pipe other than one is enabled and unfenced. -/
def otherPipe (s : State) (b : Nat) : Bool := (List.range 8).any (fun c => decide (c ≠ b) && !fenced s (0x30 + c) && enabled s (0x30 + c))

/-- The pipe for a job that left pipe `avoid` by BLOCK_RESET (R83): another one, as long as another could take it at all; where none other is
enabled and unfenced, the reset pipe itself (DESIGN CHOICE, notes/assumptions/150.md). -/
def pipeAfter (s : State) (avoid : Nat) : Option Nat := if otherPipe s avoid then pipeBut s avoid else pipeFor s

/-- Wake the lowest-numbered sleeping pipe, for a job that may not go to pipe `avoid`, when every awake pipe holds 8 or more jobs, or none may take
it (R71). -/
def wakeFor (avoid : Nat) (s : State) : State :=
  let awake := (List.range 8).filter (fun b => pipeAwake s b && decide (b ≠ avoid))
  let need := awake.all (fun b => decide (8 ≤ pipeJobs s b)) || (pipeAfter s avoid).isNone
  match (List.range 8).find? (fun b => !pipeAwake s b && !decide (b ∈ s.io.waking) && !fenced s (0x30 + b) && decide (b ≠ avoid)) with
  | some b => if need then updIo (fun i => { i with waking := b :: i.waking }) s else s
  | none => s

def wakePipes (s : State) : State := wakeFor 8 s

/-- Assign a job to a pipe. -/
def assignJob (b : Nat) (r : JobRef) (maint : Bool) (s : State) : State :=
  wakePipes (updIo (fun i => { i with jobs := i.jobs ++ [{ pipe := b, ref := r, maint := maint }] }) (leaveIdle s))

/-- In NIGHT a pipe without jobs sleeps (Table WRITE-12), unless CLK_REQ keeps it awake (R439). -/
def pipeSleep (b : Nat) (s : State) : State :=
  if decide (getFld s PWR_STAT_STATE = 2) && isSet s (BUR_CFG_IDLE_OFF b) && decide (pipeJobs s b = 0) && pipeAwake s b &&
      !isSet s (PG_CTL_CLK_REQ (0x30 + b)) && decide (getFld s (BUR_STAT_KAT b) ≠ 3) then
    setFld (BUR_STAT_POWERED b) 0 (setFld (PG_STAT_ASLEEP (0x30 + b)) 1 s)
  else s

def pipesSleep (s : State) : State := (List.range 8).foldl (fun t b => pipeSleep b t) s

/-- Start a known-answer test that waits on a pipe, once the pipe holds no job (R74). A test requested on a sleeping pipe starts at once and does
not wake it: the spec says nothing of one (DESIGN CHOICE, notes/assumptions/151.md). -/
def katKick (b : Nat) (s : State) : State :=
  if isSet s (BUR_KAT_START b) ∧ pipeJobs s b = 0 ∧ getFld s (BUR_STAT_KAT b) ≠ 3 then setFld (BUR_STAT_KAT b) 3 s else s

/-- A job goes to a pipe; PIPE of its entry records it (R71). Pipe 8 stands for none: PIPE keeps what it shows while the job waits. -/
def setJobPipe (r : JobRef) (b avoid : Nat) (s : State) : State :=
  let s1 := updIo (fun i => { i with
    jobs := i.jobs.map (fun j => if j.ref = r then { j with pipe := b, avoid := avoid } else j)
    sops := i.sops.map (fun q => if r = .sop q.1 then (q.1, { q.2 with pipe := b }) else q) }) s
  match r with
  | .entry j => if b < 8 then updEntry j (fun e => { e with pipe := b }) s1 else s1
  | .sop _ => s1

/-- A job that waits for a pipe of R71 stands on pipe 8; such jobs go to a pipe in their order, as soon as one may take them (R71, R73). -/
def placeJobs (s : State) : State :=
  s.io.jobs.foldl (fun t j => if j.pipe < 8 then t else match pipeAfter t j.avoid with
    | some b => setJobPipe j.ref b 8 t
    | none => t) s

/-- A job is on a pipe. -/
def onPipe (s : State) (r : JobRef) : Bool := s.io.jobs.any (fun j => decide (j.ref = r) && decide (j.pipe < 8))

/-- What follows where a pipe has lost jobs, or may take jobs again: waiting tests start, waiting jobs go to a pipe, pipes sleep. -/
def pipesSettle (s : State) : State := pipesSleep (placeJobs ((List.range 8).foldl (fun t b => katKick b t) s))

/-- A job ends or is withdrawn. -/
def dropJob (r : JobRef) (s : State) : State :=
  pipesSettle (updIo (fun i => { i with jobs := i.jobs.filter (fun j => decide (j.ref ≠ r)) }) s)

end Sys2Proof.Machine
end

