-- ==== Sys2Proof/Machine/StripeOps.lean ====
section
/-! DEFINITION. The device's work on one stripe under a MAINT lock, shared by degraded reads (R88), rebuild
steps (Sequence REBUILD-2), Proof pass units and Sequence REBUILD-1: request, lock, reads, erasures (R85 to
R87) and columns. -/

namespace Sys2Proof.Machine
open Reg

/-- Key of a stripe block: position × 256 + block within the strip. -/
def gkey (pos blk : Nat) : Nat := pos * 256 + blk

/-- A member block passes its tag check at a stripe position (R85; P and Q positions take their own types,
R31). -/
def tagOk (k pos : Nat) (b : TBlk) : Bool :=
  let t := tagType b.tag
  let crc := decide (tagCrc b.tag = crc32c (slice b.data 0 4096))
  if t = tyUnwritten ∨ t = tyZero then true
  else if pos < k then decide (t = tyData) && crc
  else if pos = k then decide (t = tyP) && crc
  else decide (t = tyQ) && crc

/-- What a block counts as: zeros for types UNWRITTEN and ZERO (R17, R85). -/
def effective (b : TBlk) : Block := if tyIsZero (tagType b.tag) then [] else b.data

/-- The GENs of the data blocks that count at a block offset (R87). -/
def countedGens (k : Nat) (tagAt : Nat → Option Nat) : List Nat :=
  (List.range k).filterMap (fun p => (tagAt p).bind (fun t =>
    if tagType t = tyData ∨ tagType t = tyZero then some (tagGen t) else none))

/-- The GEN rows of Table REBUILD-2 at one block offset: whether P and whether Q is erased (R87). -/
def genRows (k : Nat) (tagAt : Nat → Option Nat) : Bool × Bool :=
  let gs := countedGens k tagAt
  let keep := fun (a b : Nat) => genNewer a b && decide (a ∈ gs)
  let stale := fun (g : Nat) => gs.any (fun d => genNewer d g)
  match (tagAt k).map tagGen, (tagAt (k + 1)).map tagGen with
  | some p, some q =>
    if p = q then (stale p, stale q)
    else (!keep p q || stale p, !keep q p || stale q)
  | some p, none => (stale p, false)
  | none, some q => (false, stale q)
  | none, none => (false, false)

/-! ### Requests -/

/-- Runs of consecutive numbers in a rising list: (first, length). -/
def runsOf : List Nat → List (Nat × Nat)
  | [] => []
  | x :: xs => match runsOf xs with
    | (a, n) :: rest => if a = x + 1 then (x, n + 1) :: rest else (x, 1) :: (a, n) :: rest
    | [] => [(x, 1)]

/-- Key of a member's tag page. -/
def tbKey (p m page : Nat) : Nat := (p * 128 + m) * 2 ^ 40 + page

/-- First block of a tag page at a member. -/
def tagLba (x : Plate) (page : Nat) : Nat := x.geom.tagOff / 4096 + page

/-- The tag page of a strip is read in the batch of its data, where the tag cache does not hold it and no read of it is under way (R85). -/
def tagBatch (p m sn pos : Nat) (s : State) : State :=
  match plateOf s p with
  | none => s
  | some x =>
    let page := (x.geom.tagPage (x.geom.rowOf sn) 0).1
    let key := tbKey p m page
    if (smGet s.io.tagCache key).isSome || s.io.nvme.any (fun q => decide (q.2.why = .tagPage key)) then s
    else memberReq p m sn pos .read (tagLba x page) 1 [] (fun _ => .tagPage key) s

/-- Read blocks of a stripe position at a member, with their tag page. -/
def readPos (p sn pos mem : Nat) (blks : List Nat) (why : Nat → Purpose) (s : State) : State :=
  match plateOf s p with
  | none => s
  | some x => (runsOf blks).foldl (fun t r =>
      tagBatch p mem sn pos (memberReq p mem sn pos .read (x.geom.mlba (x.geom.rowOf sn) r.1) r.2 [] why t)) s

/-- Forget the cached tag pages of members of a plate. -/
def dropTagCache (p : Nat) (f : Nat → Bool) (s : State) : State :=
  updIo (fun i => { i with tagCache := i.tagCache.filter (fun q => !(decide (q.1 / 2 ^ 40 / 128 = p) && f (q.1 / 2 ^ 40 % 128))) }) s

/-- The tag page and the first index in it of a data read. -/
def NvCmd.tagAt (c : NvCmd) (x : Plate) : Nat × Nat :=
  let b := c.lba - x.geom.datOff / 4096
  (tbKey c.plate c.mem (b / 512), b % 512)

/-- A data read and its tag page are complete: tags that the cache holds are those the blocks are checked with, and the others enter it
(R85). -/
def checkTags (c : NvCmd) (blks : List TBlk) (s : State) : State × List TBlk :=
  match plateOf s c.plate with
  | none => (s, blks)
  | some x =>
    let (key, ix) := c.tagAt x
    let have_ := smGetD s.io.tagCache key []
    let bs := (List.range blks.length).zip blks |>.map (fun q => { q.2 with tag := smGetD have_ (ix + q.1) q.2.tag })
    let tags := ((List.range bs.length).zip bs).foldl (fun m q => smSet m (ix + q.1) q.2.tag) have_
    (endNvs (fun q => decide (q.2.why = .tagPage key)) (updIo (fun i => { i with tagCache := smSet i.tagCache key tags }) s), bs)

/-- The first and last block of a range. -/
def blkRange (first last : Nat) : List Nat := (List.range (last + 1 - first)).map (· + first)

def sopOf (s : State) (id : Nat) : Option Sop := smGet s.io.sops id

def updSop (id : Nat) (f : Sop → Sop) (s : State) : State :=
  match sopOf s id with
  | some x => updIo (fun i => { i with sops := smSet i.sops id (f x) }) s
  | none => s

/-- The positions of a stripe that row 1 of Table REBUILD-2 does not erase. -/
def livePositions (x : Plate) (sn : Nat) : List Nat :=
  (List.range x.geom.w).filter (fun pos => !x.erasedPos sn pos)

/-- Member requests outstanding for a purpose. -/
def outstanding (s : State) (w : Purpose) : Nat := (s.io.nvme.filter (fun q => decide (q.2.why = w))).length

/-- Reads a stripe operation still waits for. -/
def sopReads (s : State) (id : Nat) : Nat :=
  (s.io.nvme.filter (fun q => match q.2.why with | .sopRd i _ => decide (i = id) | _ => false)).length

def sopWrites (s : State) (id : Nat) : Nat :=
  (s.io.nvme.filter (fun q => match q.2.why with | .sopWr i _ => decide (i = id) | _ => false)).length

/-- The positions of a stripe whose home differs between its realised set and the set walked to (R101), or whose home's replacement is yet
to be written (R108), as (position, new home). -/
def moving (x : Plate) (sn : Nat) : List (Nat × Nat) :=
  let new := x.geom.homes (x.seqIn x.pass.tgt) sn
  (List.range x.geom.w).filterMap (fun pos => match (new[pos]?).join with
    | some m => if x.homeOf sn pos = some m ∧ x.erasedPos sn pos = false then none else some (pos, m)
    | none => none)

/-- The positions a stripe operation reads: a rebuild step reads the old homes of its moving positions where all of them
are ONLINE; otherwise every survivor is read (R88 step 2, Sequence REBUILD-2 step 2, Sequence PROOF-1 step 2). -/
def sopPositions (x : Plate) (o : Sop) : List Nat :=
  let mv := moving x o.sn
  if o.kind = .rebuild ∧ !o.full ∧ mv.all (fun q => ((x.homeOf o.sn q.1).map x.isOnline).getD false) then mv.map Prod.fst
  else livePositions x o.sn

/-- Start the reads of a stripe operation over its blocks, with tags. A position that row 1 of Table REBUILD-2 erases is
erased whole. -/
def sopRead (id : Nat) (s : State) : State :=
  match sopOf s id with
  | none => s
  | some o => match plateOf s o.plate with
    | none => s
    | some x =>
      let dead := (List.range x.geom.w).filter (fun pos => x.erasedPos o.sn pos)
      let er := dead.flatMap (fun pos => (blkRange o.first o.last).map (gkey pos))
      let s1 := updSop id (fun y => { y with phase := .reading, want := sopPositions x o, erased := er, tagBad := [], grid := [], lost := [], fix := [], located := [] }) s
      (sopPositions x o).foldl (fun t pos => match x.homeOf o.sn pos with
        | some m => readPos o.plate o.sn pos m (blkRange o.first o.last) (fun _ => .sopRd id pos) t
        | none => t) s1

/-- The MAINT lock is held: the operation takes a pipe where one may take its job, then reads; else its job waits as for any other
resource under R53 (R71). -/
def sopLocked (id : Nat) (s : State) : State :=
  match sopOf s id, pipeFor s with
  | some o, some b =>
    let maint := match o.kind with | .recon _ _ => false | _ => true
    sopRead id (assignJob b (.sop id) maint (updSop id (fun y => { y with pipe := b }) s))
  | some _, none => enqueueWait (.sop id) (updSop id (fun y => { y with phase := .pipe }) (wakePipes s))
  | none, _ => s

/-- Start a stripe operation: it requests the stripe's MAINT lock (R47, R88 step 1). -/
def newSop (kind : SopKind) (p sn first last chg : Nat) (s : State) : State :=
  let id := s.io.nextSop
  let o : Sop :=
    { kind := kind, plate := p, sn := sn, first := first, last := last, phase := .lock, grid := [], erased := [], tagBad := [],
      lost := [], waits := 0, pipe := 8, tagWaits := 0, charge := chg, mark := false, fix := [], located := [], full := false,
      ctx := match kind with
        | .recon c _ => (cmdOf s c).map Cmd.ctx
        | _ => none }
  let s1 := updIo (fun i => { i with sops := smSet i.sops id o, nextSop := id + 1 }) s
  if lockFree s s.io.waitl p sn .maint then sopLocked id (takeLock p sn .maint s1)
  else enqueueWait (.sop id) s1

/-- Put the answer of a member read into a stripe operation: each block is checked against its tag; a read
error erases the blocks of the request (Table REBUILD-2). A block whose tag fails stays in the grid, erased, for
the candidates of R127. -/
def sopBlocks (k : Nat) (o : Sop) (pos blk0 : Nat) (st : Nvme) (n : Nat) (blks : List TBlk) : Sop :=
  let f := fun (y : Sop) (i : Nat) =>
    let key := gkey pos (blk0 + i)
    match st, blks[i]? with
    | .ok, some b =>
      if tagOk k pos b then { y with grid := smSet y.grid key b }
      else { y with grid := smSet y.grid key b, erased := key :: y.erased, tagBad := key :: y.tagBad }
    | _, _ => { y with erased := key :: y.erased, tagBad := key :: y.tagBad }
  (List.range n).foldl f o

/-- The tag of a stripe block in a grid, where it survives. -/
def gridTag (grid : SMap TBlk) (erased : List Nat) (blk pos : Nat) : Option Nat :=
  if gkey pos blk ∈ erased then none else (smGet grid (gkey pos blk)).map TBlk.tag

/-- The GEN rows applied to every block offset of a range: the erased list with the syndromes they erase. -/
def applyGen (k : Nat) (grid : SMap TBlk) (blks : List Nat) (erased : List Nat) : List Nat :=
  blks.foldl (fun er b =>
    let g := genRows k (gridTag grid er b)
    let er1 := if g.1 then gkey k b :: er else er
    if g.2 then gkey (k + 1) b :: er1 else er1) erased

/-- The column of a block offset: what survives there, as it counts (R17, R86). -/
def column (k : Nat) (grid : SMap TBlk) (erased : List Nat) (blk : Nat) : Column :=
  (List.range (k + 2)).map (fun pos =>
    if gkey pos blk ∈ erased then none else (smGet grid (gkey pos blk)).map effective)

/-- Type and GEN of a block that is written again from a reconstruction (R32). A data block whose tag is gone is ZERO where every syndrome
left says so, and such a block counts as ZERO for a lost syndrome (R31). A syndrome takes the GEN of the other one, else the newest GEN of the
data that count there, else, where none counts, GEN 0: the spec gives none (DESIGN CHOICE, notes/assumptions/124.md). -/
def rewriteTag (k : Nat) (grid : SMap TBlk) (erased : List Nat) (blk pos : Nat) (d : Block) : Nat :=
  let tg := gridTag grid erased blk
  match tg pos with
  | some t => tagFor d (tagGen t) (tagType t)
  | none =>
    if pos < k then
      let syn := [tg k, tg (k + 1)].filterMap id
      let ty := if syn ≠ [] ∧ syn.all (fun t => decide (tagType t = tyZero)) then tyZero else tyData
      tagFor d (((syn.head?).map tagGen).getD 0) ty
    else
      let other := if pos = k then tg (k + 1) else tg k
      let all0 := (List.range k).all (fun q => match tg q with
        | some t => tyIsZero (tagType t)
        | none => (other.map (fun t => decide (tagType t = tyZero))).getD false)
      let gen := match other with
        | some t => tagGen t
        | none => (countedGens k tg).foldl (fun a b => if genNewer b a then b else a) (((countedGens k tg).head?).getD 0)
      tagFor d gen (if all0 then tyZero else if pos = k then tyP else tyQ)

end Sys2Proof.Machine
end

