-- ==== Sys2Proof/Machine/Journal.lean ====
section
/-! DEFINITION. Journal entries as bytes (Table WRITE-5), messages to the standby (R58), and the journal
members of unbacked mode (R75 to R79). -/

namespace Sys2Proof.Machine
open Reg

def jstateCode : JState → Nat
  | .opened => 1 | .dataStaged => 2 | .parityDone => 3 | .committed => 4

def pathCode : WPath → Nat
  | .stream => 0 | .cache => 1 | .direct => 2 | .destage => 3

def b2n (b : Bool) : Nat := if b then 1 else 0

/-- A position mask: data positions at their own bits, P at 30, Q at 31 (Table WRITE-5). -/
def maskBits (k : Nat) (ps : List Nat) : Nat :=
  ps.foldl (fun a p => a ||| (if p < k then 2 ^ p else if p = k then 2 ^ 30 else 2 ^ 31)) 0

/-- The 128 bytes of an entry, with the EPOCH of the copy they go to (Table WRITE-5, R55, R75). -/
def entryBytesAs (s : State) (j : Nat) (e : JEntry) (code epoch : Nat) : List Byte :=
  let k := ((plateOf s e.seg.plate).map (fun x => x.geom.k)).getD 2
  let flags := b2n e.unbacked + 2 * b2n (decide (e.seg.group ≠ 0)) + 4 * b2n e.seg.head + 8 * b2n e.logged + 16 * b2n e.recon +
    32 * b2n e.degraded + 64 * b2n e.seg.zero
  withCrc (
    leBytes (code + 8 * b2n e.staged) 1 ++ leBytes (pathCode e.path) 1 ++ leBytes e.seg.plate 1 ++ leBytes flags 1 ++
    leBytes e.headIdx 2 ++ leBytes e.nextIdx 2 ++ leBytes e.seg.sn 8 ++ leBytes e.writeSeq 8 ++ leBytes (maskBits k e.dataMask) 4 ++
    leBytes (maskBits k e.doneMask) 4 ++ leBytes e.blkFirst 2 ++ leBytes e.blkLast 2 ++
    leBytes (e.stage.1 + 65536 * e.stage.2) 4 ++ leBytes e.tenant 2 ++ leBytes e.seg.vol 2 ++ leBytes e.cid 2 ++ leBytes e.log.1 2 ++ leBytes e.seg.lba 8 ++ leBytes e.seg.wset.length 4 ++
    leBytes e.log.2 1 ++ leBytes e.pipe 1 ++ leBytes 0 2 ++ leBytes (maskBits k e.skipMask) 4 ++ leBytes (maskBits k e.tagMask) 4 ++
    leBytes e.openUs 4 ++ leBytes epoch 4 ++ zeros 40 ++ leBytes e.recSeq 4 ++ leBytes j 0)

def entryBytes (s : State) (j : Nat) (e : JEntry) (epoch : Nat) : List Byte := entryBytesAs s j e (jstateCode e.state) epoch

/-- An entry goes to its plate's attached standby as a JOURNAL ENTRY message, in a state (R58, R332). -/
def mirrorAs (j : Nat) (e : JEntry) (code : Nat) (s : State) : State :=
  match plateOf s e.seg.plate with
  | some x => if x.attached then sendNoted x.standby .journalEntry 0 x.id j (entryBytesAs s j e code 0) (some (j, code, e.writeSeq)) s else s
  | none => s

/-- An entry change goes to the plate's standby (JOURNAL_MESSAGE_SEND, R58). -/
def mirrorEntry (j : Nat) (s : State) : State :=
  match entryOf s j with
  | some e => mirrorAs j e (jstateCode e.state) s
  | none => s

/-- R333: while the plate's standby is attached, the entry goes on only after its record in a state has been acknowledged on the link. -/
def linkGate (s : State) (e : JEntry) (code : Nat) : Bool :=
  !((plateOf s e.seg.plate).map Plate.attached).getD false || decide (e.path = .cache) || decide (code ∈ e.linkAck)

/-- Move an entry to a state, and tell the standby (R56, R58). -/
def setJState (j : Nat) (st : JState) (s : State) : State :=
  mirrorEntry j (updEntry j (fun e => { e with state := st }) s)

/-- The effective state of an entry: a group entry takes its head's while its own is lower (R57). -/
def effState (s : State) (e : JEntry) : JState :=
  if e.seg.group = 0 then e.state
  else match smGet s.io.journal e.headIdx with
    | some h => if h.seg.group = e.seg.group ∧ jstateCode e.state < jstateCode h.state then h.state else e.state
    | none => e.state

/-! ### Journal members -/

/-- The journal members of a plate with their PAIR_GEN. -/
def jmembers (x : Plate) : List (Nat × Nat) := [x.jp.a, x.jp.b].filterMap id

def updJp (p : Nat) (f : JPair → JPair) (s : State) : State := updPlate p (fun x => { x with jp := f x.jp }) s

/-- The 4 KiB journal header (Table WRITE-8). -/
def headerBytes (x : Plate) (gen self : Nat) (peer : Option Nat) : List Byte :=
  withCrc ((([0x5A, 0x59, 0x4E, 0x4A, 0x4F, 0x55, 0x52, 0x4E] : List Nat).map (BitVec.ofNat 8)) ++ leBytes x.id 8 ++ leBytes gen 8 ++
    leBytes self 1 ++ leBytes (peer.getD 0xFF) 1 ++ zeros (0xFFC - 0x1A))

/-- First block of a plate's journal region (Table STRIPE-8). -/
def journalLba (x : Plate) : Nat := x.geom.jOff / 4096

/-- The state that an entry's record shows: that of a group's head goes to PARITY_DONE only with its own record step, after every other
PARITY_DONE record of the group (R77). -/
def recordCode (e : JEntry) : Nat :=
  if e.unbacked ∧ e.seg.group ≠ 0 ∧ e.seg.head ∧ e.state = .parityDone ∧ e.recStep = 0 then jstateCode .dataStaged else jstateCode e.state

/-- The 32 records of a record block as the member's copy holds them (R78, R75). -/
def recordBlock (s : State) (p blk gen : Nat) : List Byte :=
  (List.range 32).flatMap (fun i => match entryOf s (32 * blk + i) with
    | some e => if e.seg.plate = p then entryBytesAs s (32 * blk + i) e (recordCode e) (gen % 2 ^ 32) else zeros 128
    | none => zeros 128)

/-- Write a record block to every journal member, at most one Write of a block outstanding (R78). A new pair's headers are written before any
record (R76). -/
def writeRecords (p blk : Nat) (s : State) : State :=
  match plateOf s p with
  | none => s
  | some x =>
    if x.jp.hdrWait ≠ 0 ∨ x.jp.writing.any (fun q => decide (q.2 = blk)) then updJp p (fun y => { y with dirty := if blk ∈ y.dirty then y.dirty else blk :: y.dirty }) s
    else
      let ms := jmembers x ++ (if x.jp.copying then [(x.jp.copyTo, x.jp.copyGen)] else [])
      let s1 := ms.foldl (fun t m => memberReq p m.1 0 0 .write (journalLba x + 16 + blk) 1 (recordBlock t p blk m.2) (fun _ => .record p m.1 blk) t) s
      let s2 := updJp p (fun y => { y with dirty := y.dirty.filter (· ≠ blk), writing := ms.map (fun m => (m.1, blk)) ++ y.writing }) s1
      (plateEntries s2 p).foldl (fun t q =>
        if q.1 / 32 = blk ∧ q.2.recStep = 1 then updEntry q.1 (fun e => { e with recStep := 2 }) t else t) s2

/-- A plate is under the 50 % rule of R79: one journal member only, while its copy is not complete. -/
def stalled50 (s : State) (p : Nat) : Bool :=
  match plateOf s p with
  | some x => isSet s CCH_MODE_UNBACKED && (x.jp.a.isSome != x.jp.b.isSome)
  | none => false

/-- The next ONLINE member after m in plate order, wrapping, that is not the survivor (R79). -/
def nextPartner (x : Plate) (m surv : Nat) : Option Nat :=
  ((List.range x.members.length).map (fun i => (m + 1 + i) % x.members.length)).find? (fun i => x.isOnline i && decide (i ≠ surv))

/-- Write one entry's part of its group's atomic log to a journal member (R77, R79). -/
def logEntry (m : Nat) (x : Plate) (e : JEntry) (why : Purpose) (s : State) : State :=
  memberReq e.seg.plate m 0 0 .write (journalLba x + 0x610 + e.log.1 + e.seg.pOff) e.seg.wset.length
    (blockBytes (e.seg.wset.map (fun l => smGetD e.newData l []))) (fun _ => why) s

/-- Once the copy to a new partner is there, its header is written (R79). -/
def remirHeader (p m : Nat) (s : State) : State :=
  match plateOf s p with
  | none => s
  | some x =>
    if !x.jp.copying ∨ x.jp.copyTo ≠ m ∨ s.io.nvme.any (fun q => decide (q.2.why = .remir p m)) then s
    else memberReq p m 0 0 .write (journalLba x) 1 (headerBytes x x.jp.copyGen m ((jmembers x).head?.map Prod.fst)) (fun _ => .header p m)
      (updJp p (fun y => { y with copyWait := 1 }) s)

/-- Start the copy of records and log blocks to a new partner (R79); its Writes count among those of their blocks (R78). -/
def startRemirror (p dst : Nat) (s : State) : State :=
  match plateOf s p with
  | none => s
  | some x =>
    let gen := x.jp.mark + 1
    let s1 := updJp p (fun y => { y with copying := true, copyTo := dst, copyGen := gen, mark := gen }) s
    let blks := ((plateEntries s p).map (fun q => q.1 / 32)).eraseDups
    let s2 := updJp p (fun y => { y with writing := blks.map (fun b => (dst, b)) ++ y.writing })
      (blks.foldl (fun t b => memberReq p dst 0 0 .write (journalLba x + 16 + b) 1 (recordBlock t p b gen) (fun _ => .remir p dst) t) s1)
    let s3 := ((plateEntries s p).filter (fun q => q.2.logged)).foldl (fun t q => logEntry dst x q.2 (.remir p dst) t) s2
    remirHeader p dst (updJp p (fun y => { y with copyAll := (s3.io.nvme.filter (fun q => decide (q.2.why = .remir p dst))).length }) s3)

/-- A journal member alone on a plate in unbacked mode takes a partner as soon as one can be chosen (R79). -/
def seekPartner (p : Nat) (s : State) : State :=
  match plateOf s p with
  | none => s
  | some x => match jmembers x with
    | [sv] =>
      if !isSet s CCH_MODE_UNBACKED ∨ x.jp.copying ∨ x.jp.hdrWait ≠ 0 then s
      else match nextPartner x x.jp.lostAt sv.1 with
        | some q => startRemirror p q s
        | none => s
    | _ => s

/-- Choose a journal pair (R76): the first pair of ONLINE members that shares no stripe in the 64 rows from a
start row; else the two lowest. Which stripes of a row a member falls in is judged by the row's stipple positions (R24), not by the homes that a
realised set gives: R76 does not say which (DESIGN CHOICE, notes/assumptions/152.md). -/
def choosePair (x : Plate) : List Nat :=
  let on := x.membersIn [.online]
  let rows := (List.range (min 64 x.geom.rows)).map (fun i => (x.lastRow + i) % x.geom.rows)
  let share := fun (a b : Nat) => rows.any (fun r =>
    let sg := stippleRow x.geom.seed r x.geom.n
    let ia := sg.idxOf a
    let ib := sg.idxOf b
    decide (ia < x.geom.g * x.geom.w) && decide (ib < x.geom.g * x.geom.w) && decide (ia / x.geom.w = ib / x.geom.w))
  match (on.flatMap (fun a => (on.filter (fun b => decide (a < b))).map (fun b => (a, b)))).find? (fun q => !share q.1 q.2) with
  | some (a, b) => [a, b]
  | none => on.take 2

/-- Write the headers of a plate's journal pair with a new PAIR_GEN (R76). Records of UNBACKED entries in use are to be written to the new
pair, and its grants wait for one complete copy (R79). -/
def startPair (p : Nat) (s : State) : State :=
  match plateOf s p with
  | none => s
  | some x =>
    let pr := choosePair x
    let gen := x.jp.mark + 1
    let s1 := updJp p (fun y => { y with a := pr[0]?.map (fun m => (m, gen)), b := pr[1]?.map (fun m => (m, gen)), mark := gen, hdrWait := pr.length,
                                         dirty := [], writing := [], copying := false,
                                         refill := (plateEntries s p).any (fun q => q.2.unbacked) }) s
    pr.foldl (fun t m => memberReq p m 0 0 .write (journalLba x) 1 (headerBytes x gen m (pr.find? (· ≠ m))) (fun _ => .header p m) t) s1

/-- A journal member has failed (R79). -/
def jmLost (p m : Nat) (s : State) : State :=
  match plateOf s p with
  | none => s
  | some x =>
    let isA := decide (x.jp.a.map Prod.fst = some m)
    let isB := decide (x.jp.b.map Prod.fst = some m)
    if !(isA || isB) then
      if x.jp.copying ∧ x.jp.copyTo = m then
        let s1 := updJp p (fun y => { y with copying := false, lostAt := m, writing := y.writing.filter (fun q => decide (q.1 ≠ m)) }) s
        match (jmembers x).head? with
        | some sv => match nextPartner x m sv.1 with
          | some q => startRemirror p q s1
          | none => s1
        | none => s1
      else s
    else
      let s1 := setEvt 0x2A JNL_EVT_JM_LOST (updJp p (fun y =>
        { y with a := if isA then none else y.a, b := if isB then none else y.b, lostAt := m, writing := y.writing.filter (fun q => decide (q.1 ≠ m)) }) s)
      match (if isA then x.jp.b else x.jp.a) with
      | some sv => match nextPartner x m sv.1 with
        | some q => if x.jp.copying then s1 else startRemirror p q s1
        | none => s1
      | none => startPair p s1

end Sys2Proof.Machine
end

