-- ==== Sys2Proof/Machine/Strips.lean ====
section
/-! DEFINITION. The strips of an entry on their members: contents (R17, R31, R67), tag pages (R69), and a position's Writes and tags as they end
(R68, R102). -/

namespace Sys2Proof.Machine
open Reg

/-! ### Contents -/

def entryGen (e : JEntry) : Nat := e.writeSeq % 2 ^ 24

/-- What a data position holds at a block after the write, where the entry knows it: new data, or the old contents
written back with their TYPE and the new GEN (R67, R68). -/
def contentAt (g : Geom) (e : JEntry) (pos b : Nat) : Option TBlk :=
  let lin := pos * g.bps + b
  if lin ∈ e.zeros then some { data := [], tag := mkTag 0 (entryGen e) tyZero }
  else match smGet e.newData lin with
    | some d => some { data := d, tag := tagFor d (entryGen e) tyData }
    | none => (smGet e.old (gkey pos b)).map (fun t =>
        let d := effective t
        { data := d, tag := tagFor d (entryGen e) (tagType t.tag) })

/-- Every data position at a block is of a type in a set: the positions the entry covers by their new type, the others
by the old P tag, whose TYPE is P as soon as one of them holds data (R31). -/
def allTypes (g : Geom) (e : JEntry) (b : Nat) (ok : Nat → Bool) : Bool :=
  (List.range g.k).all (fun pos => match contentAt g e pos b with
    | some t => ok (tagType t.tag)
    | none => ((smGet e.old (gkey g.k b)).map (fun t => ok (tagType t.tag))).getD false)

/-- A block of the segment as it is to stand on its member: data positions, P and Q. -/
def blockOf (g : Geom) (e : JEntry) (pos b : Nat) : TBlk :=
  if pos < g.k then (contentAt g e pos b).getD { data := [], tag := mkTag 0 (entryGen e) tyZero }
  else
    let d := smGetD e.parity (gkey pos b) []
    let ty := if allTypes g e b tyIsZero then tyZero else if pos = g.k then tyP else tyQ
    { data := d, tag := tagFor d (entryGen e) ty }

/-- At this block only tags are written: all k data positions are ZERO (R67). -/
def tagsOnly (g : Geom) (e : JEntry) (b : Nat) : Bool := allTypes g e b (fun t => decide (t = tyZero))

/-! ### Tag pages -/

def tagBufOf (s : State) (key : Nat) : Option TagBuf := smGet s.io.tagBufs key

def updTagBuf (key : Nat) (f : TagBuf → TagBuf) (s : State) : State :=
  match tagBufOf s key with
  | some b => updIo (fun i => { i with tagBufs := smSet i.tagBufs key (f b) }) s
  | none => s

/-- The 4 KiB of a tag page: 512 tags, little-endian. -/
def tagPageBytes (tags : SMap Nat) : List Byte := (List.range 512).flatMap (fun i => leBytes (smGetD tags i 0) 8)

/-- Merge the tags due into the page and write it whole; tags that arrive meanwhile go with the next Write (R69). The page written replaces the
one in the tag cache (R85). -/
def tagWrite (key : Nat) (s : State) : State :=
  match tagBufOf s key with
  | none => s
  | some b => match plateOf s b.plate with
    | none => s
    | some x =>
      let tags := b.due.foldl (fun m q => smSet m q.1 q.2) b.tags
      let s1 := updIo (fun i => { i with tagCache := smSet i.tagCache key tags })
        (updTagBuf key (fun y => { y with tags := tags, writing := true, due := [], dueFor := [], inWrite := b.dueFor }) s)
      memberReq b.plate b.mem 0 0 .write (tagLba x b.page) 1 (tagPageBytes tags) (fun _ => .tagWr key) s1

/-- Tags of consecutive blocks of one row's strip slot at a member are due for a party: an entry's position
(true, entry, position) or a stripe operation's (false, operation, position). -/
def tagDue (p m row blk0 : Nat) (tags : List Nat) (who : Bool × Nat × Nat) (s : State) : State :=
  match plateOf s p with
  | none => s
  | some x =>
    let (page, ix) := x.geom.tagPage row blk0
    let key := tbKey p m page
    let b := (tagBufOf s key).getD
      { plate := p, mem := m, page := page, loaded := false, reading := false, writing := false, tags := [], due := [], dueFor := [], inWrite := [] }
    let b2 : TagBuf :=
      { b with reading := b.reading || !b.loaded, due := b.due ++ ((List.range tags.length).zip tags).map (fun q => (ix + q.1, q.2)),
               dueFor := b.dueFor ++ [who] }
    let s1 := updIo (fun i => { i with tagBufs := smSet i.tagBufs key b2 }) s
    if !b.loaded ∧ !b.reading then memberReq p m 0 0 .read (tagLba x page) 1 [] (fun _ => .tagRd key) s1
    else if b.loaded ∧ !b.writing then tagWrite key s1
    else s1

/-- Some tag page still holds or carries tags of a party. -/
def tagPending (s : State) (who : Bool × Nat × Nat) : Bool :=
  s.io.tagBufs.any (fun q => decide (who ∈ q.2.dueFor) || decide (who ∈ q.2.inWrite))

/-- Member Writes of an entry's position not yet complete, at either home of a window stripe (R68, R102). -/
def stripPending (s : State) (j pos : Nat) : Bool :=
  s.io.nvme.any (fun q => decide (q.2.why = .strip j pos) || decide (q.2.why = .dual j pos))

/-- TAG_MASK of a position, once its last tags are written (R69); a position left out (R66) has none. -/
def setTagBit (who : Bool × Nat × Nat) (s : State) : State :=
  if tagPending s who then s
  else match who with
    | (true, j, pos) => match entryOf s j with
      | some e => if pos ∈ e.tagMask ∨ pos ∈ e.skipMask ∨ pos ∉ e.doneMask ∨ stripPending s j pos then s
        else mirrorEntry j (updEntry j (fun y => { y with tagMask := y.tagMask ++ [pos] }) s)
      | none => s
    | (false, _, _) => s

/-! ### A position's end -/

/-- The home a window stripe's position had before the walk, where it is ONLINE and differs (R102). -/
def oldHome (x : Plate) (sn pos : Nat) : Option Nat :=
  (x.pass.window.find? (fun w => decide (w.1 = sn))).bind (fun w =>
    match ((x.geom.homes (x.seqIn w.2) sn)[pos]?).join with
    | some m => if x.isOnline m ∧ x.homeOf sn pos ≠ some m then some m else none
    | none => none)

/-- The tags of one position, at each of its homes (R69). -/
def writeTags (j pos : Nat) (s : State) : State :=
  match entryOf s j with
  | none => s
  | some e => match plateOf s e.seg.plate with
    | none => s
    | some x =>
      let tags := (blkRange e.blkFirst e.blkLast).map (fun b => (blockOf x.geom e pos b).tag)
      let ms := (match x.homeOf e.seg.sn pos with | some m => [m] | none => []) ++
        (match oldHome x e.seg.sn pos with | some m => [m] | none => [])
      ms.foldl (fun t m => tagDue e.seg.plate m (x.geom.rowOf e.seg.sn) e.blkFirst tags (true, j, pos) t) s

/-- A position's Writes are complete: DONE_MASK, and its tags are written (R68, R69). -/
def stripDone (j pos : Nat) (s : State) : State :=
  match entryOf s j with
  | none => s
  | some e =>
    if stripPending s j pos || decide (pos ∈ e.doneMask) || decide (pos ∈ e.skipMask) then s
    else writeTags j pos (mirrorEntry j (updEntry j (fun y => { y with doneMask := y.doneMask ++ [pos] }) s))

/-- What an entry whose member writes have been started can still go on with where a member is gone (R66, R94): positions with no Write left, and
tags with no page left. -/
def entryGoesOn (j : Nat) (s : State) : State :=
  match entryOf s j with
  | none => s
  | some e =>
    if !e.wrOut then s
    else e.dataMask.foldl (fun t pos => setTagBit (true, j, pos) (stripDone j pos t)) s

end Sys2Proof.Machine
end

