-- ==== Sys2Proof/Machine/Members.lean ====
section
/-! DEFINITION. Members and plate states: hosting and U (R96), the plate state (R97), label updates (R36, R37),
what a failed member does to work in flight (R66, R94, R106) and the declaration of failures (R93 to R95). -/

namespace Sys2Proof.Machine
open Reg

/-- Member state codes (Table STRIPE-10). -/
def mstateCode : MState → Nat
  | .online => 0 | .fresh => 1 | .missing => 2 | .failed => 3 | .rebuilding => 4 | .spareHeld => 5 | .foreign => 6

/-- Plate state codes (Table STRIPE-10). -/
def pstateCode : PState → Nat
  | .building => 0 | .optimal => 1 | .degraded1 => 2 | .degraded2 => 3 | .rebuilding => 4 | .copyback => 5
  | .failed => 6 | .foreign => 7 | .importing => 8

/-- The member that a stripe position makes hosting, if any (R96). -/
def Plate.hostOf (x : Plate) (sn pos : Nat) : Option Nat :=
  match x.homeOf sn pos with
  | none => some (x.geom.memberAt sn pos)
  | some m => if x.failSeqOf m ≠ 0 ∧ ((x.mem m).map Member.state ≠ some .rebuilding ∨ x.unwritten sn m = true) then some m else none

/-- A member is hosting: it hosts a position of some stripe (R96). -/
def Plate.hosts (x : Plate) (m : Nat) : Bool :=
  (List.range x.stripes).any (fun sn => (List.range x.geom.w).any (fun pos => decide (x.hostOf sn pos = some m)))

/-- U, the number of hosting members (R96). -/
def Plate.u (x : Plate) : Nat := ((List.range x.members.length).filter x.hosts).length

/-- The plate state: the first row of Table REBUILD-4 that applies (R97). Row 2, FOREIGN, is of plates that are not assembled
here; they are listed apart (`Store.foreigns`). -/
def plateState (x : Plate) : PState :=
  if x.building then .building
  else if x.importing then .importing
  else if x.latch then .failed
  else match x.u, x.pass.running with
    | 0, false => .optimal
    | 0, true => .copyback
    | 1, false => .degraded1
    | 1, true => .rebuilding
    | _, _ => .degraded2

/-- Raise an event of a plate's page with its Sketchbook record. -/
def plEvt (p bit sev : Nat) (s : State) : State := sketchEvt (0x40 + p) bit sev (setEvt (0x40 + p) bit s)

/-! ### Labels -/

def asciiBytes (l : List Nat) : List Byte := l.map (BitVec.ofNat 8)

/-- A member-table entry (Table STRIPE-11). -/
def memberEntry (y : Member) : List Byte :=
  leBytes y.node 2 ++ leBytes y.port 1 ++ leBytes (mstateCode y.state) 1 ++ leBytes y.nsid 4 ++ leBytes y.failSeq 2 ++
  zeros 2 ++ leBytes y.driveKey 4

/-- A label copy as written to member m (Table STRIPE-9). -/
def labelBytes (p : Nat) (x : Plate) (m : Nat) : List Byte :=
  let g := x.geom
  withCrc (
    asciiBytes [0x5A, 0x59, 0x4E, 0x4C, 0x41, 0x42, 0x45, 0x4C] ++ leBytes 1 2 ++ leBytes (pstateCode x.state) 1 ++
    leBytes (b2n (decide (m ∈ (jmembers x).map Prod.fst))) 1 ++ zeros 4 ++ leBytes x.labelGen 8 ++ leBytes x.id 8 ++
    leBytes p 1 ++ leBytes m 1 ++ leBytes g.n 1 ++ leBytes g.w 1 ++ leBytes g.k 1 ++ leBytes g.g 1 ++ leBytes g.l 1 ++
    leBytes g.shift 1 ++ leBytes g.seed 8 ++ leBytes g.rows 4 ++ leBytes g.e 4 ++ leBytes x.owner 2 ++ leBytes x.standby 2 ++
    leBytes g.slots 4 ++ leBytes g.jOff 8 ++ leBytes g.lbtOff 8 ++ leBytes g.catOff 8 ++ leBytes g.datOff 8 ++
    leBytes (g.rows * g.s) 8 ++ leBytes g.tagOff 8 ++ leBytes (roundUp (g.rows * g.s / 512) (2 ^ 20)) 8 ++
    leBytes x.labelSeq 8 ++ leBytes x.createdOp 4 ++ leBytes x.failNext 2 ++ zeros 2 ++ leBytes x.catGen 8 ++ zeros 880 ++
    slice (x.members.flatMap memberEntry) 0 2048 ++ zeros 1020)

/-- First block of the label copy that an update overwrites (R37): copy A at 0, copy B at 0x80000. -/
def labelCopy (a b : Option Nat) : Nat :=
  match a, b with
  | some x, some y => if y ≤ x then 128 else 0
  | some _, none => 128
  | none, _ => 0

/-- The label copy of a member that an update overwrites. What an unread member holds is not known here (notes/assumptions/155.md). -/
def memberCopy (x : Plate) (m : Nat) (y : Member) : Nat :=
  if y.seen then labelCopy y.genA y.genB else if Config.unseenCopyB x.id m then 128 else 0

/-- Begin a label update, or note that a further one is due while one runs (R37, R97). Each member's copy
is chosen by what its own copies hold. -/
def startLabel (p : Nat) (s : State) : State :=
  match plateOf s p with
  | none => s
  | some x =>
    if x.labelBusy then updPlate p (fun y => { y with labelMore := true }) s
    else
      let st := plateState x
      let x1 : Plate :=
        { x with labelGen := x.labelGen + 1, labelBusy := true, labelMore := false, labelWait := x.writable,
                 labelSeq := if x.building then 0 else x.seqNo, state := st }
      let s1 := updPlate p (fun _ => x1) s
      let s2 := onlyIf (decide (st ≠ x.state)) (plEvt p PLT_EVT_STATE_CHG 1) s1
      x.writable.foldl (fun t m => match x1.mem m with
        | some y => memberReq p m 0 0 .write (memberCopy x m y) 1 (labelBytes p x1 m) (fun _ => .label p m) t
        | none => t) s2

/-- A plate that is served from now on in unbacked mode gets its journal pair (R76), and its labels say so (Table STRIPE-9). -/
def joinPair (p : Nat) (s : State) : State :=
  match plateOf s p with
  | none => s
  | some x => if isSet s CCH_MODE_UNBACKED ∧ x.served ∧ jmembers x = [] then startLabel p (startPair p s) else s

/-- Device time in seconds. -/
def nowS (s : State) : Nat := devTime s / 1000000000

/-- The cycle is suspended at once: the plate is not OPTIMAL, not owned here or fenced, the PRF page or the device is fenced, or STANDBY entry
has reached step 2 (R117, R133, Table REBUILD-10, Sequence POWER-1 step 2). -/
def proofOff (s : State) (p : Nat) (x : Plate) : Bool :=
  decide (plateState x ≠ .optimal) || x.gone || fenced s 0x38 || plateFenced s p || devFenced s || decide (2 ≤ s.pwr.stby)

/-- PAUSE, PAUSE_ALL or ENABLE = 0: the cycle starts no unit, and is suspended once its units in flight have ended (R117). -/
def proofPaused (s : State) (x : Plate) : Bool := x.cycle.pausedBy || isSet s PRF_CTL_PAUSE_ALL || !enabled s 0x38

/-- No unit of a plate's cycle may start. -/
def proofHeld (s : State) (p : Nat) (x : Plate) : Bool := proofOff s p x || proofPaused s x

/-- The units in flight on a plate. -/
def unitsOf (s : State) (p : Nat) : List (Nat × Sop) := s.io.sops.filter (fun q => decide (q.2.plate = p ∧ q.2.kind = .proof))

/-- A cycle becomes suspended, or goes on with its deadline later by the time it was suspended (R117). -/
def cycleSync (p : Nat) (s : State) : State :=
  match plateOf s p with
  | none => s
  | some x =>
    let y := x.cycle
    let held := proofOff s p x || (proofPaused s x && decide (unitsOf s p = []))
    if !y.running ∨ held = y.suspended then s
    else if held then updPlate p (fun z => { z with cycle := { y with suspended := true, suspAt := nowS s } }) s
    else updPlate p (fun z => { z with cycle := { y with suspended := false, deadline := y.deadline + (nowS s - y.suspAt) } }) s

/-- The same on every plate. -/
def cyclesSync (s : State) : State := (List.range 64).foldl (fun t p => cycleSync p t) s

/-- Set FAILED_LATCH once U reaches 3 (R98), and write a new label where the plate state has changed (R97). -/
def refreshPlate (p : Nat) (s : State) : State :=
  match plateOf s p with
  | none => s
  | some x =>
    let x1 := if 3 ≤ x.u ∧ x.served then { x with latch := true } else x
    let s1 := updPlate p (fun _ => x1) s
    let s2 := cycleSync p s1
    if plateState x1 ≠ x1.state then startLabel p s2 else s2

/-! ### Old contents of a stripe write (R64, R65) -/

def dropNv (f : NvCmd → Bool) (s : State) : State :=
  endNvs (fun q => f q.2) s

/-- Reads of old contents not yet answered. -/
def oldReads (s : State) (j : Nat) : Nat :=
  (s.io.nvme.filter (fun q => match q.2.why with | .old i _ => decide (i = j) | _ => false)).length

/-- Host data not yet fetched for an entry. -/
def hostReads (s : State) (j : Nat) : Nat :=
  (s.io.hreads.filter (fun q => decide (q.2.why = .wdata j) && !q.2.late)).length

/-- The data positions a segment writes. -/
def segPos (g : Geom) (wset : List Nat) : List Nat := ((wset.map (· / g.bps)).eraseDups).mergeSort (fun a b => decide (a ≤ b))

/-- The blocks of the range that a segment does not write on a position. -/
def unwrittenBlks (g : Geom) (wset : List Nat) (first last pos : Nat) : List Nat :=
  (blkRange first last).filter (fun b => !decide (pos * g.bps + b ∈ wset))

/-- The reads that a partial write needs: positions with the blocks to read (R64). -/
def oldNeeds (g : Geom) (wset : List Nat) (first last : Nat) (recon : Bool) : List (Nat × List Nat) :=
  let ws := segPos g wset
  let all := blkRange first last
  if recon then
    (List.range g.k).filterMap (fun pos =>
      let l := if pos ∈ ws then unwrittenBlks g wset first last pos else all
      if l = [] then none else some (pos, l))
  else (ws ++ [g.k, g.k + 1]).map (fun pos => (pos, all))

/-- Read-modify-write is used when c + 2 ≤ k − c (R64). -/
def useRmw (g : Geom) (wset : List Nat) : Bool :=
  decide ((segPos g wset).length + 2 + (segPos g wset).length ≤ g.k)

/-- Issue the old reads of an entry, each at its position's home. -/
def issueOld (j : Nat) (x : Plate) (e : JEntry) (needs : List (Nat × List Nat)) (s : State) : State :=
  needs.foldl (fun t q => match x.homeOf e.seg.sn q.1 with
    | some m => readPos e.seg.plate e.seg.sn q.1 m q.2 (fun _ => .old j q.1) t
    | none => t) s

/-- The reconstruct-write of R65: every survivor is read over the block range, with its tags. -/
def forceRecon (j : Nat) (s : State) : State :=
  match entryOf s j with
  | none => s
  | some e => match plateOf s e.seg.plate with
    | none => s
    | some x =>
      let all := blkRange e.blkFirst e.blkLast
      let dead := (List.range x.geom.w).filter (fun pos => x.erasedPos e.seg.sn pos)
      let s1 := dropNv (fun c => match c.why with | .old i _ => decide (i = j) | _ => false) s
      let s2 := updEntry j (fun y => { y with recon := true, forced := true, old := [], erased := dead.flatMap (fun pos => all.map (gkey pos)) }) s1
      issueOld j x e ((livePositions x e.seg.sn).map (fun pos => (pos, all))) s2

/-- Start reading the old contents of a partial write: by R64, or by R65 where a strip it needs is erased by
row 1 of Table REBUILD-2 or the stripe is SUSPECT. -/
def startOld (j : Nat) (suspect : Bool) (s : State) : State :=
  match entryOf s j with
  | none => s
  | some e => match plateOf s e.seg.plate with
    | none => s
    | some x =>
      let rec0 := decide (e.seg.src = .lossFill) || e.seg.pq.isSome || !useRmw x.geom e.seg.wset
      let needs := oldNeeds x.geom e.seg.wset e.blkFirst e.blkLast rec0
      if suspect || needs.any (fun q => x.erasedPos e.seg.sn q.1) then forceRecon j s
      else issueOld j x e needs (updEntry j (fun y => { y with recon := rec0 }) s)

/-! ### The end of a stripe operation -/

/-- A stripe operation ends: its job and MAINT lock go (R88 step 5). One that entered lost blocks reports them (Sequence REBUILD-1
step 5). -/
def sopEnd (id : Nat) (s : State) : State :=
  match sopOf s id with
  | none => s
  | some o =>
    freeLock o.plate o.sn .maint (dropJob (.sop id) (updIo (fun i => { i with sops := smDel i.sops id })
      (onlyIf o.mark (plEvt o.plate PLT_EVT_LOST_ADD 3) s)))

/-- Writes or tags of a stripe operation still under way. -/
def sopBusy (s : State) (id : Nat) : Bool :=
  decide (sopWrites s id ≠ 0) || s.io.tagBufs.any (fun q => (q.2.dueFor ++ q.2.inWrite).any (fun r => !r.1 && decide (r.2.1 = id)))

/-- Lost blocks whose ZEROING entries are still to end. -/
def lossPending (s : State) (o : Sop) : Bool :=
  let mine := fun (g : Seg) => decide (g.src = .lossFill ∧ g.plate = o.plate ∧ g.sn = o.sn)
  s.io.queue.any mine || s.io.waitl.any (fun i => match i with | .seg g => mine g | .sop _ => false) ||
    s.io.journal.any (fun q => mine q.2.seg)

/-- Blocks of a Proof pass unit (R119). -/
def unitBlks (x : Plate) : Nat := min x.geom.s 131072 / 4096

/-- Units of a stripe (R119). -/
def unitsPer (x : Plate) : Nat := x.geom.bps / unitBlks x

/-- The cursor passes over the stripes all of whose units are checked. -/
def cyclePast (x : Plate) : Nat → Cycle → Cycle
  | 0, y => y
  | fuel + 1, y =>
    if smGetD y.units y.cursor 0 < unitsPer x then y
    else cyclePast x fuel { y with cursor := y.cursor + 1, units := smDel y.units y.cursor }

/-- A Proof pass unit ends (Sequence PROOF-1 step 5): its lock is released and the cursor advances; after the last stripe the cycle ends
(R116). -/
def proofEnd (id : Nat) (s : State) : State :=
  match sopOf s id with
  | none => s
  | some o => match plateOf s o.plate with
    | none => sopEnd id s
    | some x =>
      let y := cyclePast x x.stripes { x.cycle with units := smUpd x.cycle.units o.sn 0 (· + 1) }
      let s1 := add64 PRF_CHECKED_LO_COUNT PRF_CHECKED_HI_COUNT o.charge (sopEnd id s)
      if x.stripes ≤ y.cursor then
        sketchEvt 0x38 PRF_EVT_CYCLE_DONE 0 (setEvt 0x38 PRF_EVT_CYCLE_DONE (updPlate o.plate (fun z => { z with
          cycle := { y with running := false, suspended := false, overdue := false, cursor := 0, units := [], lastEnd := opMin s, endDue := true } }) s1))
      else cycleSync o.plate (updPlate o.plate (fun z => { z with cycle := y }) s1)

/-- A degraded read or Sequence REBUILD-1 ends once its repairs are written and its losses are entered. -/
def sopCheck (id : Nat) (s : State) : State :=
  match sopOf s id with
  | some o =>
    if sopBusy s id || lossPending s o || decide (o.phase ≠ .writing) then s
    else match o.kind with
      | .recon _ _ | .loss => sopEnd id s
      | .proof => proofEnd id s
      | .rebuild => s
  | none => s

/-! ### A failed member's work in flight -/

/-- Drop the member requests of a stripe operation. -/
def dropSopNv (id : Nat) (s : State) : State :=
  dropNv (fun c => match c.why with | .sopRd i _ => decide (i = id) | .sopWr i _ => decide (i = id) | _ => false) s

/-- Restart a stripe operation from its reads (Table REBUILD-6); one whose job has ended takes a pipe again. -/
def restartSop (id : Nat) (s : State) : State :=
  match sopOf s id with
  | none => s
  | some o =>
    if o.phase = .lock ∨ o.phase = .pipe then s
    else if s.io.jobs.any (fun j => decide (j.ref = .sop id)) then sopRead id (dropSopNv id s)
    else sopLocked id (dropSopNv id s)

/-- A stripe operation has lost requests to a failed member: it restarts with the new erasures (Table REBUILD-6). A degraded read or a
Sequence REBUILD-1 that has ended its reads goes on with the writes that are left: R89 repairs no block of a failed member. -/
def sopLoses (id : Nat) (s : State) : State :=
  match sopOf s id with
  | none => s
  | some o =>
    let past := decide (o.phase = .writing) || decide (o.phase = .listing)
    match o.kind with
    | .recon _ _ | .loss => if past then sopCheck id s else restartSop id s
    | _ => restartSop id s

/-- A command's member read ends as an erasure: its blocks are reconstructed (R86, R88, R94). -/
def reconRead (c : NvCmd) (cmd off : Nat) (s : State) : State :=
  match plateOf s c.plate with
  | none => s
  | some x =>
    let b0 := c.lba - x.geom.mlba (x.geom.rowOf c.sn) 0
    newSop (.recon cmd off) c.plate c.sn b0 (b0 + c.n - 1) 0 s

/-- What the loss of a member does to one of its outstanding commands (R66, R94, Table REBUILD-6). Stripe operations and entries go on once all of
them are gone. -/
def redirect (id : Nat) (c : NvCmd) (s : State) : State :=
  let s1 := endNv id s
  match c.why with
  | .cmdRd cmd off => reconRead c cmd off s1
  | .old j _ => forceRecon j s1
  | .label p m => updPlate p (fun x => { x with labelWait := x.labelWait.filter (· ≠ m) }) s1
  | _ => s1

/-- The entries of Sequence REBUILD-1 step 3 of a stripe. -/
def fillsOf (p sn : Nat) (g : Seg) : Bool := decide (g.src = .lossFill ∧ g.plate = p ∧ g.sn = sn)

/-- A Proof pass unit is abandoned with no rewrite: its requests, its job, the loss entries it has not been granted and its lock go, and the
cursor stays (Table PROOF-3, Table PROOF-6). A loss entry already granted under its lock keeps the lock until it is freed. -/
def abandonUnit (id : Nat) (s : State) : State :=
  match sopOf s id with
  | none => s
  | some o =>
    if o.kind ≠ .proof then s
    else
      let s1 := updIo (fun i => { i with
        sops := smDel i.sops id
        queue := i.queue.filter (fun g => !fillsOf o.plate o.sn g) }) (dropJob (.sop id) (dropSopNv id s))
      let s2 := keepWaits (fun w => match w with | .sop i => decide (i ≠ id) | .seg g => !fillsOf o.plate o.sn g) s1
      cycleSync o.plate (if o.phase = .lock ∨ s.io.journal.any (fun q => fillsOf o.plate o.sn q.2.seg) then s2 else freeLock o.plate o.sn .maint s2)

/-- Every unit of a plate is abandoned. -/
def abandonUnits (p : Nat) (s : State) : State :=
  (unitsOf s p).foldl (fun t q => abandonUnit q.1 t) s

/-- The units whose stripe has a position on a member are abandoned when it fails (Table PROOF-3). -/
def abandonOn (p m : Nat) (s : State) : State :=
  match plateOf s p with
  | none => s
  | some x => (s.io.sops.filter (fun q => decide (q.2.plate = p ∧ q.2.kind = .proof ∧ some m ∈ x.homesOf q.2.sn))).foldl
      (fun t q => abandonUnit q.1 t) s

/-- The positions of a failed member enter SKIP_MASK of the plate's entries not yet COMMITTED (R66); a CACHE entry writes no member. -/
def skipMember (p m : Nat) (s : State) : State :=
  match plateOf s p with
  | none => s
  | some x =>
    (plateEntries s p).foldl (fun t q =>
      let add := (List.range x.geom.w).filter (fun pos => decide (x.homeOf q.2.seg.sn pos = some m) && !decide (pos ∈ q.2.skipMask))
      if add = [] ∨ q.2.state = .committed ∨ q.2.path = .cache then t
      else updEntry q.1 (fun e => { e with skipMask := e.skipMask ++ add, degraded := true }) t) s

/-- Tag buffers and cached tag pages of a failed member are dropped. -/
def dropTagBufs (p m : Nat) (s : State) : State :=
  dropTagCache p (fun i => decide (i = m))
    (updIo (fun i => { i with tagBufs := i.tagBufs.filter (fun q => !decide (q.2.plate = p ∧ q.2.mem = m)) }) s)

/-- The stripe operations that a member's failure meets: those with requests at it or tags for its pages, and the rebuild steps under way on a
stripe with a position there, or moving there (Table REBUILD-6). -/
def sopsAt (p m : Nat) (s : State) : List Nat :=
  match plateOf s p with
  | none => []
  | some x =>
    let asked := (s.io.nvme.filter (fun q => decide (q.2.plate = p ∧ q.2.mem = m))).filterMap (fun q => match q.2.why with
      | .sopRd i _ => some i
      | .sopWr i _ => some i
      | _ => none)
    let tags := (s.io.tagBufs.filter (fun q => decide (q.2.plate = p ∧ q.2.mem = m))).flatMap (fun q =>
      (q.2.dueFor ++ q.2.inWrite).filterMap (fun r => if r.1 then none else some r.2.1))
    let steps := (s.io.sops.filter (fun q => decide (q.2.plate = p ∧ q.2.kind = .rebuild) &&
      (decide (some m ∈ x.homesOf q.2.sn) || (moving x q.2.sn).any (fun r => decide (r.2 = m))))).map Prod.fst
    (asked ++ tags ++ steps).eraseDups

/-- Everything that loses its member request when a member fails. -/
def memberGone (p m : Nat) (s : State) : State :=
  let s1 := skipMember p m (jmLost p m (abandonOn p m s))
  let ids := sopsAt p m s1
  let s2 := dropTagBufs p m s1
  let s3 := (s2.io.nvme.filter (fun q => decide (q.2.plate = p ∧ q.2.mem = m))).foldl (fun t q => redirect q.1 q.2 t) s2
  let s4 := ids.foldl (fun t i => sopLoses i t) s3
  (plateEntries s4 p).foldl (fun t q => entryGoesOn q.1 t) s4

/-! ### Declaring failures -/

/-- Renumber the non-zero FAIL_SEQ values in their order (R39). -/
def renumber (x : Plate) : Plate :=
  let seqs := ((x.members.map Member.failSeq).filter (· ≠ 0)).mergeSort (fun a b => decide (a ≤ b))
  { x with members := x.members.map (fun y => if y.failSeq = 0 then y else { y with failSeq := seqs.idxOf y.failSeq + 1 }),
           failNext := seqs.length + 1 }

/-- A member takes its failed state, and a FAIL_SEQ where it has none (R94, R39). -/
def declareOne (x : Plate) (f : Nat × MState) : Plate :=
  if x.failSeqOf f.1 ≠ 0 then x.updMem f.1 (fun y => { y with state := f.2 })
  else
    let x1 := { x.updMem f.1 (fun y => { y with state := f.2, failSeq := x.failNext }) with failNext := x.failNext + 1 }
    if 65535 < x1.failNext then renumber x1 else x1

/-- Declare failures in one label update, in ascending member index (R94, R95). -/
def declareFails (p : Nat) (fs : List (Nat × MState)) (s : State) : State :=
  let fs1 := fs.mergeSort (fun a b => decide (a.1 ≤ b.1))
  let s1 := updPlate p (fun x => { fs1.foldl declareOne x with pendFail := [] }) s
  let s2 := fs1.foldl (fun t f => memberGone p f.1 (plEvt p PLT_EVT_MEMBER_FAIL 1 t)) s1
  cycleSync p (startLabel p (updPlate p (fun x => { x with latch := x.latch || decide (3 ≤ x.u ∧ x.served) }) s2))

/-- Members of a plate fail (R93): those detected together are declared together, at once or with the next label update while one runs
(R95). That update does not wait for them (R94). A member already failed stays as it is. -/
def failMembers (p : Nat) (fs : List (Nat × MState)) (s : State) : State :=
  match plateOf s p with
  | none => s
  | some x =>
    let new := fs.filter (fun f => decide (f.1 < x.members.length) && !decide (f.1 ∈ x.membersIn [.missing, .failed]) &&
      !x.pendFail.any (fun q => decide (q.1 = f.1)))
    if new = [] then s
    else if x.labelBusy then updPlate p (fun z => { z with pendFail := z.pendFail ++ new,
                                                           labelWait := z.labelWait.filter (fun m => !new.any (fun f => decide (f.1 = m))) }) s
    else declareFails p new s

def failMember (p m : Nat) (st : MState) (s : State) : State := failMembers p [(m, st)] s

/-- An unrecovered read error of a member: it counts towards READ_ERR_LIMIT within 24 hours of operating time
(R93). -/
def readError (p m : Nat) (s : State) : State :=
  let now := opMin s
  let lim := getFld s (PLT_CFG_READ_ERR_LIMIT p)
  let s1 := updPlate p (fun x => x.updMem m (fun y => { y with errs := now :: y.errs.filter (fun t => decide (now < t + 1440)) })) s
  let n := (((plateOf s1 p).bind (fun x => x.mem m)).map (fun y => y.errs.length)).getD 0
  if lim ≠ 0 ∧ lim < n then failMember p m .failed s1 else s1

/-- A reservation conflict fences the plate on this node (R295): its ownership has passed, so the Proof pass units in flight on it are abandoned
(Table PROOF-3). -/
def resvConflict (p : Nat) (s : State) : State := cycleSync p (abandonUnits p (setFld (PG_STAT_FENCED (0x40 + p)) 1 s))

/-! ### Replacement -/

/-- A catalogue page as it is written (R35, R40). A page of which no ONLINE member holds a valid copy (R41) is written as zeros, which are no valid
page: the conflict lasts until an installer ends it. The spec does not say what a replacement receives of one (DESIGN CHOICE,
notes/assumptions/125.md). -/
def catPage (x : Plate) (c : Nat) : List Byte :=
  if c ∈ x.catBad then zeros 4096
  else withCrc ((List.range 511).flatMap (fun i => match smGet x.cat (511 * c + i) with
    | some (v, e) => leBytes (v + e * 2 ^ 14 + 2 ^ 63) 8
    | none => zeros 8) ++ leBytes x.catGen 4)

/-- Pages of the catalogue in use by the plate's slots. -/
def catPages (x : Plate) : Nat := (x.geom.slots + 510) / 511

/-- Write catalogue pages to members, all with the plate's CATALOGUE_GEN (R35, R40). -/
def writeCat (p : Nat) (ms : List Nat) (pages : List Nat) (s : State) : State :=
  match plateOf s p with
  | none => s
  | some x => ms.foldl (fun t m => pages.foldl (fun u c =>
      memberReq p m 0 0 .write (x.geom.catOff / 4096 + c) 1 (catPage x c) (fun _ => .catalogue p m) u) t) s

/-- The 16 bytes of a lost-block entry (Table STRIPE-13). -/
def lostBytes (e : Lost) : List Byte :=
  withCrc (leBytes e.row 4 ++ leBytes e.blk 2 ++ leBytes e.mem 1 ++ leBytes 1 1 ++ leBytes e.opMin 4)

/-- The lost-block table region as written: header page, then the entries (R42). -/
def lbtBytes (x : Plate) : List Byte :=
  slice (withCrc (leBytes x.lbtGen 8 ++ leBytes x.lbt.length 4)) 0 4096 ++ x.lbt.flatMap lostBytes

/-- Write the lost-block table to every writable member with a new GEN (R35, R42, Sequence REBUILD-1 step 2). -/
def writeLbt (p : Nat) (s : State) : State :=
  let s1 := updPlate p (fun x => { x with lbtGen := x.lbtGen + 1, lbtDirty := false }) s
  match plateOf s1 p with
  | none => s1
  | some x =>
    let n := 1 + (x.lbt.length * 16 + 4095) / 4096
    x.writable.foldl (fun t m => memberReq p m 0 0 .write (x.geom.lbtOff / 4096) n (slice (lbtBytes x) 0 (4096 * n)) (fun _ => .lbt p m) t) s1

/-- Write the catalogue and the lost-block table to a joining namespace (R35, R107 step 2). -/
def replaceTables (p m : Nat) (s : State) : State :=
  match plateOf s p with
  | none => s
  | some x => writeLbt p (writeCat p [m] (List.range (catPages x)) s)

/-- A replacement leaves the slots being filled; a REPLACE command that brought it ends. The automatic return of R109 has no command: it ends
with no entry in PLT_CMD_RES (DESIGN CHOICE, notes/assumptions/126.md). -/
def replaceEnd (p m : Nat) (y : Repl) (s : State) : State :=
  let s1 := updPlate p (fun x => { x with repl := smDel x.repl m }) s
  if y.cmd then setFld (PLT_CMD_GO p) 0 (setFld (PLT_CMD_RES_DONE p) 1 (setFld (PLT_CMD_RES_STATUS p) 0 s1)) else s1

/-- A replacement goes on in the order of R107: its label update and the read of its journal header (R76), then catalogue and lost-block
table, then REBUILDING, or SPARE_HELD where AUTO_COPYBACK is 0. -/
def replaceGo (p m : Nat) (s : State) : State :=
  match plateOf s p with
  | none => s
  | some x => match smGet x.repl m with
    | none => s
    | some y =>
      let busy := s.io.nvme.any (fun q => match q.2.why with
        | .catalogue r i => decide (r = p ∧ i = m)
        | .lbt r i => decide (r = p ∧ i = m)
        | .joinHdr r i => decide (r = p ∧ i = m)
        | _ => false)
      if x.labelBusy ∨ busy then s
      else if (x.mem m).map Member.state ≠ some .fresh then replaceEnd p m y s
      else if y.stage = 0 then replaceTables p m (updPlate p (fun z => { z with repl := smSet z.repl m { y with stage := 1 } }) s)
      else
        let st : MState := if isSet s (PLT_CFG_AUTO_COPYBACK p) then .rebuilding else .spareHeld
        replaceEnd p m y (startLabel p (updPlate p (fun z => z.updMem m (fun q => { q with state := st })) s))

/-- Every replacement of a plate that may go on does. -/
def replaceStep (p : Nat) (s : State) : State :=
  match plateOf s p with
  | none => s
  | some x => x.repl.foldl (fun t q => replaceGo p q.1 t) s

/-- PAIR_GEN of a journal header that is valid for a plate (Table WRITE-8); the header of another plate says nothing about this one. -/
def headerGen (id : Nat) (b : List Byte) : Option Nat :=
  if leAt b 0 8 = 0x4E52554F4A4E595A ∧ leAt b 8 8 = id ∧ crcOk b 0xFFC = true then some (leAt b 0x10 8) else none

/-- The journal header of a joining namespace raises the plate's PAIR_GEN mark (R76). -/
def joinHeader (p : Nat) (b : List Byte) (s : State) : State :=
  match plateOf s p with
  | none => s
  | some x => replaceStep p (updJp p (fun y => { y with mark := max y.mark ((headerGen x.id b).getD 0) }) s)

/-- An import ends with its label update (R111): the plate state follows Table REBUILD-4. -/
def importStep (p : Nat) (s : State) : State :=
  match plateOf s p with
  | none => s
  | some x => match x.impPage with
    | none => s
    | some g =>
      let s1 := joinPair p (startLabel p (updPlate p (fun y => { y with importing := false, impPage := none, latch := y.latch || decide (3 ≤ y.u) }) s))
      setFld (PLT_CMD_GO g) 0 (setFld (PLT_CMD_RES_DONE g) 1 (setFld (PLT_CMD_RES_STATUS g) 0 s1))

/-! ### Commands -/

/-- LABEL_UPDATE_COMPLETE (R37, R95): the update is durable on every namespace written; failures batched
meanwhile are declared in the next one. -/
def labelDone (p : Nat) (s : State) : State :=
  match plateOf s p with
  | none => s
  | some x =>
    if x.labelBusy ∧ x.labelWait = [] then
      let s1 := updPlate p (fun y => { y with labelBusy := false, seqBase := max y.seqBase y.labelSeq }) s
      if x.pendFail ≠ [] then declareFails p x.pendFail s1
      else if x.labelMore then startLabel p s1
      else seekPartner p (cycleSync p (importStep p (replaceStep p s1)))
    else s

/-- WRITE_SEQ_LABEL_REWRITE (R59): the counter has reached WRITE_SEQ_BASE + 2^19. -/
def execWriteSeqLabelRewrite (p : Nat) (s : State) : Host.Outcome State Fault Refusal :=
  run (decide (p < 64)) (match plateOf s p with
    | some x => if x.seqBase + 2 ^ 19 ≤ x.seqNo ∧ ¬ (x.labelBusy ∧ x.seqBase + 2 ^ 19 ≤ x.labelSeq) then startLabel p s else s
    | none => s)

end Sys2Proof.Machine
end

