-- ==== Sys2Proof/Machine/Lists.lean ====
section
/-! DEFINITION. The device's lists about damaged data: the suspect list (R125, R126, R128, R134), the lost-block
tables (R42, R90 to R92) and the lost-write list (R163, R164). -/

namespace Sys2Proof.Machine
open Reg

/-! ### Suspect stripes -/

def suspectOf (s : State) (p sn : Nat) : Option Suspect :=
  (plateOf s p).bind (fun x => s.store.suspects.find? (fun e => decide (e.plateId = x.id ∧ e.sn = sn)))

def isSuspect (s : State) (p sn : Nat) : Bool := (suspectOf s p sn).isSome

/-- A block of a strip lies in the range of its stripe's suspect entry (R127). -/
def inSuspect (s : State) (p sn blk : Nat) : Bool :=
  ((suspectOf s p sn).map (fun e => decide (e.first ≤ blk ∧ blk ≤ e.last))).getD false

/-- The 16 bytes of a suspect entry (Table PROOF-7). -/
def suspectBytes (p : Nat) (e : Suspect) : List Byte :=
  leBytes (e.sn % 2 ^ 37 + p % 64 * 2 ^ 37 + e.why % 8 * 2 ^ 43 + 2 ^ 63) 8 ++ leBytes e.first 1 ++ leBytes e.last 1 ++
  zeros 2 ++ leBytes e.opMin 4

/-- A change of the suspect list goes to the standby as EVENT SUSPECT, and to flash within 1 s (R125). -/
def suspectChanged (p : Nat) (e : Suspect) (s : State) : State :=
  let s1 := updStore (fun t => { t with suspDirty := true }) s
  match plateOf s p with
  | some x => if x.attached then sendMsg x.standby .suspect 0 x.id (b2n (decide (e ∈ s.store.suspects))) (suspectBytes p e) s1 else s1
  | none => s1

/-- A finding on a stripe: a new entry, or the range of the stripe's entry widened (R125, R126, Table PROOF-4); one that lies within the
entry's range changes nothing. -/
def addSuspect (p sn first last why : Nat) (s : State) : State :=
  match plateOf s p with
  | none => s
  | some x =>
    match suspectOf s p sn with
    | some e =>
      let e1 : Suspect := { e with first := min e.first first, last := max e.last last }
      if e1 = e then s
      else suspectChanged p e1 (sketchEvt 0x38 PRF_EVT_SUSPECT_ADD 2 (setEvt 0x38 PRF_EVT_SUSPECT_ADD
        (updStore (fun t => { t with suspects := t.suspects.map (fun y => if y = e then e1 else y) }) s)))
    | none =>
      if 4096 ≤ s.store.suspects.length then
        sketchEvt 0x38 PRF_EVT_SUSPECT_FULL 1 (setEvt 0x38 PRF_EVT_SUSPECT_FULL (setFld PRF_SUSP_FULL 1 s))
      else
        let e : Suspect := { plateId := x.id, sn := sn, first := first, last := last, why := why, opMin := opMin s }
        suspectChanged p e (sketchEvt 0x38 PRF_EVT_SUSPECT_ADD 2 (setEvt 0x38 PRF_EVT_SUSPECT_ADD
          (updStore (fun t => { t with suspects := t.suspects ++ [e] }) s)))

/-- Remove a suspect entry (R128). FULL clears when COUNT falls below 4,096. -/
def delSuspect (p : Nat) (e : Suspect) (s : State) : State :=
  suspectChanged p e (setFld PRF_SUSP_FULL 0 (setEvt 0x38 PRF_EVT_SUSPECT_CLR
    (updStore (fun t => { t with suspects := t.suspects.filter (· ≠ e) }) s)))

/-- A write reaching COMMITTED removes its stripe's entry: a STREAM always, a partial write that covers the
entry's whole block range (R128). -/
def suspectCommit (p : Nat) (e : JEntry) (s : State) : State :=
  match suspectOf s p e.seg.sn with
  | none => s
  | some q => if e.path = .stream ∨ (e.blkFirst ≤ q.first ∧ q.last ≤ e.blkLast) then delSuspect p q s else s

/-! ### Lost blocks -/

/-- The absolute position in its row of a stripe position. -/
def Geom.absPos (g : Geom) (sn pos : Nat) : Nat := sn % g.g * g.w + pos

/-- A block is in the lost-block table (Table REBUILD-1 row 6). -/
def Plate.lost (x : Plate) (sn pos blk : Nat) : Bool :=
  x.lbt.any (fun e => decide (e.row = x.geom.rowOf sn ∧ e.pos = x.geom.absPos sn pos ∧ e.blk = blk))

/-- Add the lost data blocks of one stripe, as (position, block), to the DRAM copy of the table (Sequence REBUILD-1 step 1, R91). The answer
gives the blocks for which it had no room. -/
def addLost (p sn : Nat) (ls : List (Nat × Nat)) (s : State) : State × List (Nat × Nat) :=
  match plateOf s p with
  | none => (s, ls)
  | some x =>
    let new := ls.filter (fun q => !x.lost sn q.1 q.2)
    let room := 65536 - x.lbt.length
    let es := (new.take room).map (fun q =>
      ({ row := x.geom.rowOf sn, pos := x.geom.absPos sn q.1, blk := q.2,
         mem := (x.homeOf sn q.1).getD (x.geom.memberAt sn q.1), opMin := opMin s } : Lost))
    let s1 := updPlate p (fun y => { y with lbt := y.lbt ++ es }) s
    (onlyIf (decide (new.drop room ≠ [])) (fun t =>
      refreshPlate p (plEvt p PLT_EVT_LBT_FULL 1 (updPlate p (fun y => { y with lbtFull := true, latch := y.latch || !y.lbtFull }) t))) s1, new.drop room)

/-- A committed write removes the entries of the blocks it writes (R92). -/
def delLost (p sn : Nat) (wset : List Nat) (s : State) : State :=
  updPlate p (fun x =>
    let keep := x.lbt.filter (fun e => !(decide (e.row = x.geom.rowOf sn) &&
      wset.any (fun l => decide (x.geom.absPos sn (l / x.geom.bps) = e.pos ∧ l % x.geom.bps = e.blk))))
    { x with lbt := keep, lbtDirty := x.lbtDirty || decide (keep.length < x.lbt.length),
             lbtFull := x.lbtFull && decide (65536 ≤ keep.length) }) s

/-! ### Lost writes -/

def lostwHas (s : State) (vol lba : Nat) : Bool :=
  s.store.lostw.any (fun e => decide (e.vol = vol ∧ e.lba ≤ lba ∧ lba < e.lba + e.count))

/-- Take blocks lba to lba+n-1 of a volume out of one entry, splitting it as needed (R164). -/
def lostwCut (vol lba n : Nat) (e : LostW) : List LostW :=
  if e.vol ≠ vol ∨ e.lba + e.count ≤ lba ∨ lba + n ≤ e.lba then [e]
  else
    (if e.lba < lba then [{ e with count := lba - e.lba }] else []) ++
    (if lba + n < e.lba + e.count then [{ e with lba := lba + n, count := e.lba + e.count - (lba + n) }] else [])

/-- Join two entries of one volume into one range that covers both (R163). -/
def lostwJoin (a b : LostW) : LostW :=
  let lo := min a.lba b.lba
  { a with lba := lo, count := max (a.lba + a.count) (b.lba + b.count) - lo, opMin := max a.opMin b.opMin }

/-- The gap between two entries of one volume. -/
def lostwGap (a b : LostW) : Nat := max a.lba b.lba - min (a.lba + a.count) (b.lba + b.count)

/-- The two entries of one volume with the smallest gap between them. -/
def lostwClosest (l : List LostW) : Option (LostW × LostW) :=
  (l.flatMap (fun a => (l.filter (fun b => decide (b.vol = a.vol ∧ a.lba < b.lba))).map (fun b => (a, b)))).foldl
    (fun acc q => match acc with
      | none => some q
      | some r => if lostwGap q.1 q.2 < lostwGap r.1 r.2 then some q else some r) none

/-- Bring the list within its 16,384 entries (R163). -/
def lostwFit : Nat → State → State
  | 0, s => s
  | fuel + 1, s =>
    if s.store.lostw.length ≤ 16384 then s
    else match lostwClosest s.store.lostw with
      | some (a, b) => lostwFit fuel (setFld CCH_LOSTW_MERGED 1 (updStore (fun t =>
          { t with lostw := lostwJoin a b :: t.lostw.filter (fun e => decide (e ≠ a) && decide (e ≠ b)) }) s))
      | none => s

/-- Blocks of a volume enter the list (R163). -/
def lostwAdd (vol lba n : Nat) (s : State) : State :=
  if n = 0 then s
  else
    let s1 := updStore (fun t => { t with
      lostw := t.lostw.flatMap (lostwCut vol lba n) ++ [{ vol := vol, lba := lba, count := n, opMin := opMin s }]
      lostwDirty := true }) s
    lostwFit 3 (setEvt 0x28 CCH_EVT_LOSTW_ADD s1)

/-- A write that covers blocks takes them off the list (R164). -/
def lostwDel (vol lba n : Nat) (s : State) : State :=
  let l := s.store.lostw.flatMap (lostwCut vol lba n)
  if l = s.store.lostw then s
  else
    let s1 := lostwFit 3 (updStore (fun t => { t with lostw := l, lostwDirty := true }) s)
    if s1.store.lostw = [] then setFld CCH_LOSTW_MERGED 0 s1 else s1

end Sys2Proof.Machine
end

