-- ==== Sys2Proof/Machine/Rights.lean ====
section
/-! DEFINITION. Who may touch which page: sessions and rights (R415, R416, R445), installer fields (R444),
locked fields and the command registers (R467). -/

namespace Sys2Proof.Machine
open Reg

/-- ROLE_SESSn.ROLE of the PF of a host port: 0 operator, 1 installer, 2 maker. -/
def sessFld (port : Nat) : FRef := ⟨3, 0x44 + 4 * port, 0, 2, 0, 0⟩

/-- The role an access is checked against (R415). -/
def winRole (s : State) : Win → Nat
  | .pf n => getFld s (sessFld n)
  | .vf _ _ => 0
  | .core _ => 2

/-- Factory test mode (R418). -/
def ftest (s : State) : Bool :=
  isSet s ROLE_STAT_FTEST_STRAP && (decide (getFld s (sessFld 0) = 2) || decide (getFld s (sessFld 1) = 2))

/-- A page's rights let a role read (R445). -/
def rightsRead (s : State) (role p : Nat) : Bool :=
  isSet s (PG_RIGHTS_OP_R p) || (decide (1 ≤ role) && isSet s (PG_RIGHTS_INST_R p)) || decide (2 ≤ role)

/-- A page's rights let a role write (R445). -/
def rightsWrite (s : State) (role p : Nat) : Bool :=
  isSet s (PG_RIGHTS_OP_W p) || (decide (1 ≤ role) && isSet s (PG_RIGHTS_INST_W p)) || decide (2 ≤ role)

/-- A write through a window is allowed; management cores are not checked (R415, R445). -/
def canWrite (s : State) (w : Win) (p : Nat) : Bool :=
  match w with
  | .core _ => true
  | _ => rightsWrite s (winRole s w) p

def canRead (s : State) (w : Win) (p : Nat) : Bool :=
  match w with
  | .core _ => true
  | _ => rightsRead s (winRole s w) p

/-- An action of Table ROLE-5, counted against a role; actions 0 and 4 to 7 set the role's EXTREME (R425). -/
def roleAction (role act what : Nat) (s : State) : State :=
  let s1 := sketchCount (0x4100 + 16 * role + act) 1 s
  if act = 0 ∨ (4 ≤ act ∧ act ≤ 7) then sketchExtreme (0xC000 + role) (act + 256 * (what % 256)) s1 else s1

/-- A denied access (R416). -/
def denied (w : Win) (p : Nat) (s : State) : State :=
  roleAction (winRole s w) 9 p (setEvt 3 ROLE_EVT_DENIED (incFld ROLE_DENY_COUNT 1 s))

/-- An accepted access that needed the session's role restarts its idle time (R417). -/
def needRole (w : Win) (s : State) : State :=
  match w with
  | .pf n => { s with role := { s.role with need := smSet s.role.need n (devTime s) } }
  | _ => s

/-- An access can come in through a window: the main domain serves the host (R275), the port's link takes traffic and the function exists. -/
def winOpen (s : State) : Win → Bool
  | .pf n => decide (getFld s PWR_STAT_STATE ≤ 2) && linkUp s n
  | .vf n f => decide (getFld s PWR_STAT_STATE ≤ 2) && linkUp s n && isFunction s n f && decide (f ≠ 0)
  | .core _ => true

/-- The port and function of a window from the host. -/
def winFn : Win → Option (Nat × Nat)
  | .pf n => some (n, 0)
  | .vf n f => some (n, f)
  | .core _ => none

/-- The window's PF is not in D0, or its function does not decode memory requests: they complete with Unsupported Request (R259, R277). -/
def winOff (s : State) : Win → Bool
  | .pf n => inD3 s n || !(fnOf s n 0).cfg.mse
  | .vf n _ => inD3 s n || !(fnOf s n 0).cfg.vfMse
  | .core _ => false

/-- An error of an access through a window is logged for its function. -/
def winLog (w : Win) (e : Aer) (s : State) : State :=
  match winFn w with
  | some q => aerLog q.1 q.2 e s
  | none => s

/-- An inbound access is refused or discarded (R260, R282). -/
def winErr (w : Win) (s : State) : State :=
  match winFn w with
  | some q => incFld (HEP_INBOUND_ERR_COUNT q.1) 1 s
  | none => s

/-- A window can show a page: a VF's shows its context's page only (Table HOST-4). -/
def winHas (w : Win) (p : Nat) : Bool :=
  match w with
  | .vf _ _ => decide (0x1000 ≤ p)
  | _ => true

/-- A write to a page as the window and the rights gate it: its effect where they allow it, else denied. A write that only installer or
maker may make is counted (Table ROLE-5, action 4). -/
def guardAccess (w : Win) (p : Nat) (f : State → State) (s : State) : State :=
  if !winOpen s w || !winHas w p then s
  else if winOff s w then winLog w .unsupportedSent s
  else if !canWrite s w p then denied w p s
  else match w with
    | .pf _ => if rightsWrite s 0 p then f s else f (needRole w (roleAction (winRole s w) 4 p s))
    | _ => f s

/-- A write to a page. The fenced CHIP, PWR and CLK pages discard writes until device reset (Table POWER-9). -/
def guardWrite (w : Win) (p : Nat) (f : State → State) (s : State) : State :=
  guardAccess w p (fun t => if decide (p ≤ 2) && fenced t p then t else f t) s

/-- Whether a window may change an installer field (R444): management cores, installer and maker may. -/
def mayInstall (s : State) (w : Win) : Bool := decide (1 ≤ winRole s w)

/-- Count a configuration change of a page where a write changed it (R441). -/
def seqIf (p : Nat) (before after : State) : State :=
  if before.regs = after.regs then after else incFld (PG_SEQ_COUNT p) 1 after

/-- A write whose effect may go past its RW fields counts as a configuration change where one of these fields changed (R441). -/
def seqFlds (p : Nat) (l : List FRef) (before after : State) : State :=
  if l.all (fun f => decide (getFld before f = getFld after f)) then after else incFld (PG_SEQ_COUNT p) 1 after

/-- The fields hold the values a write gives them. -/
def unchanged (s : State) (l : List (FRef × Nat)) : Bool := l.all (fun x => decide (getFld s x.1 = x.2 % 2 ^ x.1.width))

/-- A write that changes RWI fields of a page: installer, maker and the management cores have it, and it counts as a configuration change
(R441); an operator's leaves the fields and is counted as denied (R444). -/
def writeRwi (w : Win) (p : Nat) (l : List (FRef × Nat)) (s : State) : State :=
  if unchanged s l then s
  else if mayInstall s w then incFld (PG_SEQ_COUNT p) 1 (needRole w (l.foldl (fun t x => setFld x.1 x.2 t) s))
  else denied w p s

/-- A write of a page's command register that names operation `op` with GO set (R467). The parameter fields are loaded under R444. GO does
nothing while it reads 1. A write refused its fields leaves OP and the parameters as they were: with OP 0 it ends at once with INVALID_FIELD,
else the operation that OP holds acts on the parameters held (`held`). -/
def cmdWrite (w : Win) (p : Nat) (opF : FRef) (op : Nat) (pars : List (FRef × Nat)) (go : FRef)
    (stF doneF : FRef) (held : Nat → State → State) (act : State → State) (s : State) : State :=
  guardWrite w p (fun t =>
    let t1 := writeRwi w p ((opF, op) :: pars) t
    if isSet t go then t1
    else if mayInstall t w || unchanged t ((opF, op) :: pars) then act (setFld doneF 0 (setFld go 1 t1))
    else if getFld t1 opF = 0 then setFld doneF 1 (setFld stF (statusCode .invalidField) t1)
    else held (getFld t1 opF) t1) s

/-- An operation starts: GO reads 1, and DONE 0. -/
def cmdStart (go doneF : FRef) (s : State) : State := setFld doneF 0 (setFld go 1 s)

/-- End of a page's operation: GO clears, STATUS and DONE are set. -/
def cmdEnd (go stF doneF : FRef) (st : Status) (s : State) : State :=
  setFld go 0 (setFld doneF 1 (setFld stF (statusCode st) s))

end Sys2Proof.Machine
end

