-- ==== Sys2Proof/Machine/Admission.lean ====
section
/-! DEFINITION. Admission: extent resolution (R27, R41), segments and groups (R43, R44), refusals (Table WRITE-4),
the choice of the path (Table WRITE-1), grants and the wait list (R53), cache slots (R135 to R137, R146). -/

namespace Sys2Proof.Machine
open Reg

/-! ### Extents and segments -/

/-- What the extent map says of an extent (Table STRIPE-5, R41). -/
inductive Placed where
  | slot (p e : Nat)
  | unplaced
  | conflict
  deriving DecidableEq, Repr

/-- The catalogue entries that carry an extent, as (plate, slot). -/
def extentHits (s : State) (vol x : Nat) : List (Nat × Nat) :=
  s.store.plates.flatMap (fun q => (q.2.cat.filter (fun e => decide (e.2 = (vol, x)))).map (fun e => (q.1, e.1)))

/-- Extent x of a volume, from the catalogues of the plates held here: an entry is served only where the volume's descriptor lists its
plate (R28, R41, R219). -/
def extentOf (s : State) (vol x : Nat) : Placed :=
  let ids := ((smGet s.store.vols vol).map Vol.plates).getD []
  let listed := fun p => ((plateOf s p).map (fun y => decide (y.id ∈ ids))).getD false
  let none_ : Placed := if s.store.plates.any (fun q => decide (q.2.id ∈ ids) && decide (q.2.catBad ≠ [])) then .conflict else .unplaced
  match extentHits s vol x with
  | _ :: _ :: _ => .conflict
  | [(p, e)] => if listed p then .slot p e else none_
  | [] => none_

/-- Where one volume block lies: plate, stripe, linear data block, or the status of rows 2 and 3 of
Table WRITE-4 with plate 64. -/
def blockAt (s : State) (vol lba : Nat) : Nat × Nat × Nat × Option Status :=
  match extentOf s vol (lba / 2 ^ 18) with
  | .slot p e => match plateOf s p with
    | some x =>
      let l := x.geom.resolve e (lba % 2 ^ 18)
      (p, l.sn, l.pos * x.geom.bps + l.blk, none)
    | none => (64, lba / 2 ^ 18, lba % 2 ^ 18, some .stateConflict)
  | .unplaced => (64, lba / 2 ^ 18, lba % 2 ^ 18, some .lbaRange)
  | .conflict => (64, lba / 2 ^ 18, lba % 2 ^ 18, some .stateConflict)

/-- Consecutive blocks of one stripe joined: plate, stripe, first volume block, linear blocks, refusal. -/
def cutRuns (s : State) (vol : Nat) : List Nat → List (Nat × Nat × Nat × List Nat × Option Status)
  | [] => []
  | b :: rest =>
    let (p, sn, lin, r) := blockAt s vol b
    match cutRuns s vol rest with
    | (p1, sn1, b1, ls, r1) :: more =>
      if p1 = p ∧ sn1 = sn ∧ r1 = r then (p, sn, b, lin :: ls, r) :: more
      else (p, sn, b, [lin], r) :: (p1, sn1, b1, ls, r1) :: more
    | [] => [(p, sn, b, [lin], r)]

def wholeSet (s : State) (p : Nat) (ls : List Nat) : Bool :=
  ((plateOf s p).map (fun x => decide (ls.length = x.geom.k * x.geom.bps))).getD false

/-- The segments of a write of n blocks, in the order of R43, as one group where it has 1 to 32 blocks (R44). The
data of device-held writes are given by offset in the write. -/
def cutSegs (s : State) (src : SegSrc) (cmd vol lba n : Nat) (zero dealloc : Bool) (data : Nat → Option Block) : List Seg :=
  let runs := (cutRuns s vol ((List.range n).map (· + lba))).mergeSort
    (fun a b => decide (a.1 < b.1) || (decide (a.1 = b.1) && decide (a.2.1 ≤ b.2.1)))
  let grp := if n ≤ 32 ∧ src = .host then s.io.nextGrp else 0
  let whole := runs.all (fun r => wholeSet s r.1 r.2.2.2.1)
  (List.range runs.length).zip runs |>.map (fun q =>
    let r := q.2
    { src := src, cmd := cmd, group := grp, head := decide (grp ≠ 0) && decide (q.1 = 0), gBlks := n,
      pBlks := ((runs.filter (fun y => decide (y.1 = r.1))).map (fun y => y.2.2.2.1.length)).sum, gWhole := whole,
      pOff := ((runs.filter (fun y => decide (y.1 = r.1 ∧ y.2.2.1 < r.2.2.1))).map (fun y => y.2.2.2.1.length)).sum,
      vol := vol, lba := r.2.2.1, plate := r.1, sn := r.2.1, wset := r.2.2.2.1, zero := zero, dealloc := dealloc, refuse := r.2.2.2.2,
      data := ((List.range r.2.2.2.1.length).zip r.2.2.2.1).foldl (fun m z => match data (r.2.2.1 - lba + z.1) with
        | some b => smSet m z.2 b
        | none => m) [],
      maint := false, adm := 0 })

/-- Present a write's segments: they join the admission queue, and their command waits for them. -/
def present (segs : List Seg) (cmd : Nat) (s : State) : State :=
  addParts cmd segs.length (updIo (fun i => { i with queue := i.queue ++ segs, nextGrp := i.nextGrp + 1 }) s)

/-! ### Cache slots (R135, R137, R146) -/

/-- Slots of the cache. -/
def slotCount (s : State) : Nat := getFld s CCH_GEOM_CACHE_GIB * 262144

/-- CCH_DIRTY: the slots that are not FREE (Table CACHE-1). -/
def cacheDirty (s : State) : Nat := s.cache.slots.length

/-- Slots promised to the later segments of granted groups (R146). -/
def slotsDue (s : State) : Nat := (s.io.groups.map (fun g => g.2.slotsDue)).sum

/-- Partner mirroring is active for a plate (R141, R142). -/
def partnerFor (s : State) (p : Nat) : Option Nat :=
  (plateOf s p).bind (fun x =>
    if isSet s CCH_CFG_PARTNER_EN ∧ x.standby ≠ 0xFFFF ∧ x.mirrorOn ∧ x.standby ∉ s.cache.pmirOff then some x.standby else none)

/-- The segments that wait for an admission decision or for their grant. -/
def waitingSegs (s : State) : List Seg :=
  s.io.queue ++ s.io.waitl.filterMap (fun i => match i with | .seg g => some g | .sop _ => none)

/-- Slots held for plates mirrored to a node, with those promised to the later segments of granted groups (R141, R146). -/
def mirroredTo (s : State) (node : Nat) : Nat :=
  (s.cache.slots.filter (fun q => decide (partnerFor s q.2.plate = some node))).length +
  (((waitingSegs s).filter (fun h => decide (partnerFor s h.plate = some node) &&
    ((smGet s.io.groups h.group).map (fun r => decide (r.path = .cache) && !r.unbacked)).getD false)).map (fun h => h.wset.length)).sum

/-- The segments that take slots together: a segment's atomic group at its head, else the segment (R146). -/
def slotSegs (s : State) (g : Seg) : List Seg :=
  if g.group = 0 then [g] else g :: (waitingSegs s).filter (fun h => decide (h.group = g.group) && !h.head)

/-- The cache grants slots to a segment, or to its whole group (R135, R141, R146, R149). -/
def cacheTakes (s : State) (g : Seg) : Bool :=
  let segs := slotSegs s g
  let n := if g.group = 0 then g.wset.length else g.gBlks
  let nodes := (segs.filterMap (fun h => partnerFor s h.plate)).eraseDups
  isSet s CCH_CFG_CACHE_EN && enabled s 0x28 && !fenced s 0x28 && !isSet s CCH_MODE_WRITE_THROUGH &&
  decide (cacheDirty s + slotsDue s + n ≤ s.cache.ceil) && decide (cacheDirty s + slotsDue s + n ≤ slotCount s) &&
  nodes.all (fun node => decide (mirroredTo s node + ((segs.filter (fun h => decide (partnerFor s h.plate = some node))).map (fun h => h.wset.length)).sum ≤
    smGetD s.link.pools node 0))

/-- The n lowest FREE slots of a pair. -/
def freeInPair (s : State) (pair n : Nat) : List Nat :=
  ((((List.range (cacheDirty s + n)).map (fun i => 2 * i + pair)).filter (fun k => decide (k < slotCount s) && (smGet s.cache.slots k).isNone))).take n

/-- n FREE slots, first from the pair with more of them (R137). -/
def pickSlots (s : State) (n : Nat) : List Nat :=
  let used := fun b => (s.cache.slots.filter (fun q => decide (q.1 % 2 = b))).length
  let first := if used 1 < used 0 then 1 else 0
  let a := freeInPair s first n
  a ++ freeInPair s (1 - first) (n - a.length)

/-! ### Refusals -/

/-- The first row of Table WRITE-4 that applies to a segment (R54, R468). -/
def refusal (s : State) (g : Seg) (ue : Bool) : Option Status :=
  let host := decide (g.src = .host)
  if fenced s 0x2B || fenced s 0x2A || (decide (g.plate < 64) && plateFenced s g.plate) then some .fenced
  else if host ∧ g.refuse.isSome then g.refuse
  else if host && ((plateOf s g.plate).map (fun x => !x.served || x.latch)).getD true then some .stateConflict
  else if host && decide (16384 ≤ s.io.waitl.length) then some .busyRetry
  else if ue then some .internal
  else none

/-- The segments checked together at a decision: an atomic group at its head, else the segment (R54). -/
def checkSet (s : State) (g : Seg) : List Seg :=
  if g.group = 0 then [g] else s.io.queue.filter (fun h => decide (h.group = g.group))

/-! ### Path -/

def unbackedNow (s : State) : Bool := isSet s CCH_MODE_UNBACKED

/-- A segment counts as whole under a value of STREAM_EN (R45). -/
def isWhole (s : State) (en : Bool) (g : Seg) : Bool := en && wholeSet s g.plate g.wset

/-- Mode and path of a segment in the cycle of its grant (R45, Table WRITE-1): the first answer says whether the
mode is unbacked. Every segment of a group takes the mode and the rule's inputs of the cycle of its head's grant. Replay writes by the
DIRECT method (R160). -/
def choosePath (s : State) (g : Seg) : Bool × WPath :=
  let unb := unbackedNow s
  let en := isSet s ADM_CFG_STREAM_EN
  match g.src with
  | .destage => (unb, .destage)
  | .lossFill | .replay => (unb, .direct)
  | .host =>
    match (if g.group ≠ 0 ∧ !g.head then smGet s.io.groups g.group else none) with
    | some r => (r.unbacked, if r.unbacked then (if isWhole s r.streamEn g then .stream else .direct) else r.path)
    | none =>
      if unb then (true, if isWhole s en g then .stream else .direct)
      else if (if g.group = 0 then isWhole s en g else g.gWhole && en) then (false, .stream)
      else (false, if cacheTakes s g then .cache else .direct)

def pathMode : WPath → LMode
  | .stream => .stream
  | .cache => .cache
  | .direct | .destage => .rmw

/-- First and last block within the strip that a segment touches. -/
def segRange (g : Geom) (path : WPath) (wset : List Nat) : Nat × Nat :=
  if path = .stream then (0, g.bps - 1)
  else
    let bs := wset.map (· % g.bps)
    (bs.foldl min (bs.headD 0), bs.foldl max 0)

/-- The blocks of its strips that a segment covers: for one that writes P and Q alone, those it names. -/
def Seg.span (seg : Seg) (g : Geom) (path : WPath) : Nat × Nat := seg.pq.getD (segRange g path seg.wset)

/-- Staging pages a grant reserves (R63). -/
def stageNeed (g : Geom) (path : WPath) (r : Nat × Nat) : Nat :=
  match path with
  | .stream => g.w * g.bps
  | .cache => 0
  | .direct | .destage => (g.k + 2) * (r.2 - r.1 + 1)

/-- What a grant draws on beside its lock: a journal entry, staging, a Burin pipe, and of its plate: room under the 50 % rule, a
journal pair that is written, atomic-log blocks, a write sequence value; host work while the device is not braced; the grant of the
group's head (R53, R55, R59, R63, R71, R76, R77, R79, R148, R154). -/
inductive Res where
  | plate | entry | stage | pipe | host
  | stall (p : Nat)
  | pair (p : Nat)
  | log (p : Nat)
  | seq (p : Nat)
  | head (grp : Nat)
  deriving DecidableEq, Repr

/-- The pair of a plate takes records: its headers are written, and a new pair has one complete copy (R76, R79). -/
def pairReady (x : Plate) : Bool := decide (x.jp.hdrWait = 0) && !x.jp.refill && decide (jmembers x ≠ [])

/-- A grant on the plate would raise JNL_OCC above 50 % while one journal member is alone (R79). -/
def overHalf (s : State) (p : Nat) : Bool := stalled50 s p && decide (24576 < s.io.journal.length + 1)

/-- The volume block that a data block of a plate holds, by the plate's catalogue (R27, R40). -/
def volumeBlock (x : Plate) (sn lin : Nat) : Option (Nat × Nat) :=
  (smGet x.cat (x.geom.slotOf sn)).map (fun q =>
    (q.1, q.2 * 262144 + x.geom.withinOf { sn := sn, pos := lin / x.geom.bps, blk := lin % x.geom.bps }))

/-- The first volume block of some data blocks of a stripe. -/
def firstBlock (x : Plate) (sn : Nat) (wset : List Nat) : Option (Nat × Nat) :=
  (wset.filterMap (volumeBlock x sn)).foldl (fun a q => match a with
    | none => some q
    | some b => some (if q.2 < b.2 then q else b)) none

/-- The DIRTY slots of a stripe, as (linear block, slot). -/
def dirtyOf (s : State) (p sn : Nat) : List (Nat × Nat) :=
  (s.cache.slots.filterMap (fun q => if q.2.plate = p ∧ q.2.sn = sn ∧ q.2.state = .dirty then some (q.2.lin, q.1) else none)).mergeSort
    (fun a b => decide (a.1 ≤ b.1))

/-- A segment with what it is to write now: a DESTAGE segment takes the DIRTY slots of its stripe at its grant (R144). -/
def segNow (s : State) (g : Seg) : Seg :=
  if g.src = .destage then
    let ws := (dirtyOf s g.plate g.sn).map Prod.fst
    let v := ((plateOf s g.plate).bind (fun x => firstBlock x g.sn ws)).getD (g.vol, g.lba)
    { g with wset := ws, vol := v.1, lba := v.2 }
  else g

/-- The resources a segment's grant draws on, each with whether it is there now. -/
def resources (s : State) (g : Seg) : List (Res × Bool) :=
  match plateOf s g.plate with
  | none => [(.plate, false)]
  | some x =>
    let (unb, path) := choosePath s g
    let need := stageNeed x.geom path ((segNow s g).span x.geom path)
    [(.entry, (freeEntry s).isSome), (.stall g.plate, !overHalf s g.plate)] ++
    (if unb then [(.pair g.plate, pairReady x)] else []) ++
    (if g.src = .host then [(.host, !isSet s PWR_STAT_BRACED)] else []) ++
    (if need ≠ 0 then [(.stage, (stageAlloc (stageRuns s) need).isSome)] else []) ++
    (if unb ∧ g.group ≠ 0 ∧ ((smGet s.io.groups g.group).bind (fun r => r.logOn g.plate)).isNone then
      [(.log g.plate, (logAlloc (logRuns s g.plate) g.pBlks).isSome)] else []) ++
    (if path ≠ .cache then [(.seq g.plate, decide (x.seqNo + 1 < x.seqBase + 2 ^ 20)), (.pipe, (pipeFor s).isSome)] else []) ++
    (if g.group ≠ 0 ∧ !g.head then [(.head g.group, (smGet s.io.groups g.group).isSome)] else [])

/-- The resources that a segment lacks. -/
def lacks (s : State) (g : Seg) : List Res := ((resources s g).filter (fun r => !r.2)).map Prod.fst

/-- Every resource but the lock is there for a grant. -/
def resourcesOk (s : State) (g : Seg) : Bool := (resources s g).all (fun r => r.2)

/-- The lock a segment asks for is free for it, given the items that wait before it. -/
def segLockFree (s : State) (before : List WaitItem) (g : Seg) : Bool :=
  g.maint || lockFree s before g.plate g.sn (pathMode (choosePath s g).2)

/-- A stripe operation has its lock, or finds it free. -/
def sopLockFree (s : State) (before : List WaitItem) (id : Nat) : Bool :=
  ((sopOf s id).map (fun o => decide (o.phase ≠ .lock) || lockFree s before o.plate o.sn .maint)).getD true

/-- The resources that waiting items lack whose lock is free: each is granted in queue order, so a later item that draws on it waits
(R53). -/
def heldBack (s : State) : List WaitItem → List WaitItem → List Res
  | _, [] => []
  | before, i :: rest => (match i with
      | .seg g => if segLockFree s before g then lacks s g else []
      | .sop id => if sopLockFree s before id && (pipeFor s).isNone then [.pipe] else []) ++ heldBack s (before ++ [i]) rest

/-- The page of a channel that a copy of a cache slot stands on (Table DRAM-2): `side` 0 for the lower channel of the pair, 1 for the higher. -/
def slotPage (k side : Nat) : Nat := (2 * (k % 2) + side) * 2 ^ 24 + 2 ^ 20 + k / 2

/-- A channel holds no copy of its pair's slots: it is down, it is being released, or it is not yet written from the other channel (R149). -/
def noCopy (s : State) (c : Nat) : Bool := dmcDown s c || isSet s (DMC_CMD_GO c) || decide (c ∈ s.cache.copying)

/-- A slot's data as it is read: the copy on the lower-numbered channel of its pair that holds one (R137, R149). -/
def slotData (s : State) (k : Nat) (x : Slot) : Block := if noCopy s (2 * (k % 2)) then x.high.getD x.data else x.data

/-- A segment is granted: its lock is free, and every resource it draws on is there and awaited by none before it. -/
def canGrant (s : State) (before : List WaitItem) (g : Seg) : Bool :=
  segLockFree s before g && resourcesOk s g && (resources s g).all (fun r => !decide (r.1 ∈ heldBack s [] before))

/-! ### Grants -/

def updSlot (k : Nat) (f : Slot → Slot) (s : State) : State :=
  match smGet s.cache.slots k with
  | some x => updCache (fun t => { t with slots := smSet t.slots k (f x) }) s
  | none => s

/-- A slot becomes FREE. What its copies held stays in the DRAM. -/
def freeSlot (k : Nat) (s : State) : State :=
  let keep := fun (x : Slot) (t : State) =>
    let p := smSet (smSet t.mover.pages (slotPage k 0) x.data) (slotPage k 1) (x.high.getD x.data)
    { t with mover := { t.mover with pages := p } }
  updCache (fun t => { t with slots := smDel t.slots k }) (match smGet s.cache.slots k with
    | some x => if x.state = .filling ∨ x.zero then s else keep x s
    | none => s)

/-- A directory entry (Table CACHE-2). -/
def dirEntry (s : State) (q : Nat × Slot) : List Byte :=
  let bps := ((plateOf s q.2.plate).map (fun x => x.geom.bps)).getD 1
  leBytes (q.2.plate + 2 ^ 6 * (q.2.sn % 2 ^ 37) + 2 ^ 43 * (q.2.lin / bps % 32) + 2 ^ 48 * (q.2.lin % bps) + 2 ^ 56 + 2 ^ 57 * b2n q.2.zero) 8 ++
  leBytes q.1 4 ++ leBytes q.2.seq 4

/-- Send a slot of an entry to the standby, where partner mirroring is active (R141). -/
def mirrorSlot (j k : Nat) (s : State) : State :=
  match smGet s.cache.slots k with
  | none => s
  | some x => match partnerFor s x.plate with
    | none => s
    | some node =>
      let m := s.cache.nextMir
      let s1 := updCache (fun t => { t with pmirWait := smSet t.pmirWait m (node, j), nextMir := m + 1 }) s
      let s2 := updEntry j (fun e => { e with mirWait := e.mirWait + 1 }) s1
      sendMsg node .mirrorWrite (m % 2 ^ 32) (k + x.plate * 2 ^ 32) 0 (dirEntry s (k, x) ++ slice (slotData s k x) 0 4096) s2

/-- New data of a CACHE entry goes into its slots, and to the partner (R139, R141). -/
def fillSlots (j : Nat) (s : State) : State :=
  match entryOf s j with
  | none => s
  | some e => e.slots.foldl (fun t q =>
      mirrorSlot j q.2 (updSlot q.2 (fun y => { y with data := smGetD e.newData q.1 [] }) t)) s

/-- A CACHE entry has all its slots written on every copy: STAGED (R57, R60). -/
def cacheStaged (j : Nat) (s : State) : State :=
  match entryOf s j with
  | some e => if e.path = .cache ∧ e.mirWait = 0 ∧ (e.seg.zero ∨ e.newData.length = e.seg.wset.length) ∧ !e.staged then
      mirrorEntry j (updEntry j (fun y => { y with staged := true }) s) else s
  | none => s

/-- The run of log blocks that a segment's plate has in its group, or gets now (R67). -/
def grantLog (s : State) (g : Seg) : Nat × Nat :=
  (((smGet s.io.groups g.group).bind (fun r => r.logOn g.plate)).getD ((logAlloc (logRuns s g.plate) g.pBlks).getD 0, g.pBlks))

/-- The positions of its stripe that an entry writes (Table WRITE-7, DATA_MASK). -/
def grantMask (x : Plate) (path : WPath) (g : Seg) : List Nat :=
  if path = .cache then [] else
    (if path = .stream then List.range x.geom.k else segPos x.geom g.wset) ++ [x.geom.k, x.geom.k + 1]

/-- The slots an entry is about: those it fills, or those that a DESTAGE empties. -/
def grantSlots (s : State) (path : WPath) (g : Seg) : List (Nat × Nat) :=
  if path = .cache then g.wset.zip (pickSlots s g.wset.length)
  else if g.src = .destage then dirtyOf s g.plate g.sn else []

/-- The journal entry `j` of a granted segment (Table WRITE-7). Its REC_SEQ counts from 0 at each use of the entry slot (DESIGN CHOICE,
notes/assumptions/154.md). -/
def grantEntry (s : State) (x : Plate) (j : Nat) (g0 : Seg) : JEntry :=
  let (unb, path) := choosePath s g0
  let g := segNow s g0
  let r := g.span x.geom path
  let n := stageNeed x.geom path r
  let member := path ≠ .cache
  let logged := unb && decide (g.group ≠ 0)
  let ds := if g0.src = .destage then dirtyOf s g0.plate g0.sn else []
  let skip := if member then (List.range x.geom.w).filter (fun pos => x.erasedPos g.sn pos || ((g.redo.map (fun r => decide (pos ∈ r.skip))).getD false)) else []
  let fill := if path = .destage then ds.foldl (fun m q => match smGet s.cache.slots q.2 with
      | some y => if y.zero then m else smSet m q.1 (slotData s q.2 y)
      | none => m) [] else g.data
  let zs := match g.redo with
    | some r => r.zeros
    | none => if path = .destage then (ds.filter (fun q => ((smGet s.cache.slots q.2).map Slot.zero).getD false)).map Prod.fst
    else if g.zero then g.wset else []
  let cmd := if g.src = .host then cmdOf s g.cmd else none
  { seg := g, state := .opened, staged := false, path := path, unbacked := unb, logged := logged, recon := (g.redo.map Redo.recon).getD false,
    forced := (g.redo.map Redo.forced).getD false, degraded := decide (skip ≠ []),
    headIdx := if g.group = 0 ∨ g.head then j else ((smGet s.io.groups g.group).map Group.headIdx).getD j, nextIdx := 0xFFFF,
    writeSeq := if member then x.seqNo + 1 else 0, dataMask := grantMask x path g, doneMask := [], skipMask := skip, tagMask := [],
    blkFirst := r.1, blkLast := r.2, stage := (if n = 0 then 0 else (stageAlloc (stageRuns s) n).getD 0, n),
    log := if logged then grantLog s g else (0xFFFF, 0), pipe := if member then (pipeFor s).getD 0 else 0,
    openUs := devTime s / 1000, recSeq := 0, newData := fill, zeros := zs, old := (g.redo.map Redo.old).getD [],
    erased := (g.redo.map Redo.erased).getD [], parity := [], recStep := 0,
    logDone := !logged, posted := false, slots := grantSlots s path g, mirWait := 0, linkAck := [], wrHeld := false,
    tenant := (cmd.map Cmd.ctx).getD 0, cid := (cmd.map (fun c => enCid c.raw)).getD 0 }

/-- The entry takes its place in the journal; what the Graver left in the staging pages it gets is gone. -/
def placeEntry (j : Nat) (e : JEntry) (s : State) : State :=
  let s1 := updIo (fun i => { i with journal := smSet i.journal j e })
    { s with mover := { s.mover with sram := s.mover.sram.filter (fun q => decide (q.1 / 4096 < e.stage.1 ∨ e.stage.1 + e.stage.2 ≤ q.1 / 4096)) } }
  hwmFld JNL_OCC_HWM s1.io.journal.length s1

/-- The entry joins its group: a head begins it, any other entry is chained to the last one (R53). -/
def joinGroup (j : Nat) (e : JEntry) (s : State) : State :=
  let g := e.seg
  let grp := smGet s.io.groups g.group
  let newLog := if e.logged && (grp.bind (fun r => r.logOn g.plate)).isNone then [(g.plate, e.log.1, e.log.2)] else []
  let used := if e.path = .cache then g.wset.length else 0
  let opened : Group :=
    { headIdx := j, unbacked := e.unbacked, path := e.path, slotsDue := if e.path = .cache then g.gBlks - g.wset.length else 0, passed := false,
      streamEn := isSet s ADM_CFG_STREAM_EN, logs := newLog }
  if g.group = 0 then s
  else if g.head then updIo (fun i => { i with groups := smSet i.groups g.group opened }) s
  else
    let t1 := match (s.io.journal.filter (fun q => decide (q.2.seg.group = g.group ∧ q.2.nextIdx = 0xFFFF ∧ q.1 ≠ j))).head? with
      | some q => updEntry q.1 (fun y => { y with nextIdx := j }) s
      | none => s
    match grp with
    | some r => updIo (fun i => { i with groups := smSet i.groups g.group { r with slotsDue := r.slotsDue - used, logs := r.logs ++ newLog } }) t1
    | none => t1

/-- Its slots: a CACHE entry's are FILLING (Table CACHE-3), a DESTAGE's go to DESTAGING. -/
def takeSlots (e : JEntry) (s : State) : State :=
  let g := e.seg
  let fresh : Nat → Slot := fun lin =>
    { state := .filling, plate := g.plate, sn := g.sn, lin := lin, vol := g.vol, zero := g.zero, seq := g.adm, since := devTime s,
      ctx := ((cmdOf s g.cmd).map Cmd.ctx).getD 0, data := [], dealloc := g.dealloc }
  if e.path = .cache then e.slots.foldl (fun t q => updCache (fun z => { z with slots := smSet z.slots q.2 (fresh q.1) }) t) s
  else e.slots.foldl (fun t q => updSlot q.2 (fun y => { y with state := .destaging }) t) s

/-- A host write's data is asked for (R56). -/
def askData (j : Nat) (g : Seg) (s : State) : State :=
  match cmdOf s g.cmd with
  | some c => if g.src = .host ∧ !g.zero ∧ g.data.isEmpty then
      fromHost g.cmd ((g.lba - enLba c.raw) * 4096) (g.wset.length * 4096) (.wdata j) s else s
  | none => s

/-- Where the entry's work begins: slots whose data is there, or the old data and parity that its path reads (R57). -/
def beginEntry (j : Nat) (e : JEntry) (s : State) : State :=
  let g := e.seg
  if e.path = .cache then (if g.zero || !g.data.isEmpty then cacheStaged j (fillSlots j s) else s)
  else if e.path = .stream ∨ g.redo.isSome then s
  else startOld j (isSuspect s g.plate g.sn && decide (g.src ≠ .lossFill) || decide (g.src = .replay ∧ g.pq = none)) s

/-- Grant a segment: locks, journal entry, staging, pipe, slots, and the start of its transfers (Sequence WRITE-1,
R45, R55, R58, R59, R63 to R66, R71, R76, R77, R137, R144). REC_SEQ begins at 0 with each use of an entry: R55 says only that each rewrite raises
it (DESIGN CHOICE, notes/assumptions/154.md). -/
def doGrant (g0 : Seg) (s : State) : State :=
  match plateOf s g0.plate, freeEntry s with
  | some x, some j =>
    let e := grantEntry s x j g0
    let g := e.seg
    let member := decide (e.path ≠ .cache)
    let s1 := placeEntry j e s
    let s2 := if g.maint then s1 else takeLock g.plate g.sn (pathMode e.path) s1
    let s3 := updPlate g.plate (fun y => { y with seqNo := if member then y.seqNo + 1 else y.seqNo, lastRow := y.geom.rowOf g.sn }) s2
    let s4 := joinGroup j e s3
    let s5 := if member then assignJob e.pipe (.entry j) (decide (g.src = .lossFill)) s4 else s4
    beginEntry j e (askData j g (mirrorEntry j (takeSlots e s5)))
  | _, _ => s

/-- Destage segments whose stripe has no DIRTY slot left are dropped instead of granted. -/
def segStale (s : State) (g : Seg) : Bool := decide (g.src = .destage) && decide (dirtyOf s g.plate g.sn = [])

/-! ### Commands -/

/-- Events of a grant that must wait (R80, R81). -/
def noteQueued (g : Seg) (s : State) : State :=
  let s1 := onlyIf (!g.maint && !setHasWay s g.plate g.sn) (setEvt 0x2B ADM_EVT_SET_FULL) s
  onlyIf (overHalf s g.plate) (setEvt 0x2A JNL_EVT_STALL50) s1

/-- A refusal ends every segment of the command not yet presented, with the same status (R54). The device's own writes of zeros (R220) have
no command to end and are presented again. -/
def refuseSegs (g : Seg) (st : Status) (s : State) : State :=
  let out := g :: s.io.queue.filter (fun h => decide (h.cmd = g.cmd ∧ g.cmd ≠ 0))
  let s1 := updIo (fun i => { i with queue := i.queue.filter (fun h => !decide (h.cmd = g.cmd ∧ g.cmd ≠ 0)) }) s
  let s2 := updCmd g.cmd (fun y => { y with todo := 0 }) s1
  let s3 := out.foldl (fun t h => failAt h.cmd h.lba st t) s2
  let s4 := incFld ADM_REFUSED_COUNT 1 s3
  let s5 := onlyIf (decide (st = .busyRetry)) (fun t => setEvt 0x2B ADM_EVT_WAIT_FULL (incFld ADM_BUSY_COUNT 1 t)) s4
  let s6 := onlyIf (decide (st = .internal)) (report 0x05 0x2B 0) s5
  if g.cmd = 0 ∧ g.src = .host then updIo (fun i => { i with queue := i.queue ++ [g] }) s6
  else out.foldl (fun t h => partDone h.cmd t) s6

/-- ADMISSION_DECISION (R52 to R54, R138, R468): the front segment of those presented is refused, granted or
queued. `ue` says that the lock set or the free list shows an uncorrected error. -/
def decideSeg (ue : Bool) (s : State) : State :=
  match s.io.queue with
  | [] => s
  | g :: rest =>
    if isSet s ADM_STAT_FROZEN || !enabled s 0x2B then s
    else
      let inGroup := decide (g.group ≠ 0) && !g.head
      let adm := s.io.admCount + 1
      let s1 := add64 ADM_DECIDED_LO_COUNT ADM_DECIDED_HI_COUNT 1
        (updIo (fun i => { i with queue := rest, admCount := adm }) s)
      match (if inGroup then none else ((checkSet s g).filterMap (fun h => refusal s h ue)).head?) with
      | some st => refuseSegs g st s1
      | none =>
        let s2 := onlyIf (ue && inGroup) (report 0x05 0x2B 0) s1
        let g1 : Seg := { g with adm := adm }
        if segStale s2 g1 then s2
        else if canGrant s2 s2.io.waitl g1 then doGrant g1 s2
        else enqueueWait (.seg g1) (incFld ADM_QUEUED_COUNT 1 (wakePipes (noteQueued g1 s2)))

def execAdmissionDecision (ue : Bool) (s : State) : Host.Outcome State Fault Refusal :=
  run true (decideSeg ue s)

/-- A stripe operation may take a pipe in queue order (R53, R71). -/
def sopPipeFree (s : State) (before : List WaitItem) : Bool := (pipeFor s).isSome && !decide (Res.pipe ∈ heldBack s [] before)

/-- The first waiting item that can go on, with those before and after it (R47, R53): a segment that can be granted, a stripe operation
whose lock is free, or one that holds it and finds a pipe. -/
def pickWaiting (s : State) : List WaitItem → List WaitItem → Option (List WaitItem × WaitItem × List WaitItem)
  | _, [] => none
  | before, i :: rest =>
    let ok : Bool := match i with
      | .seg g => segStale s g || canGrant s before g
      | .sop id => match sopOf s id with
        | some o => if o.phase = .lock then lockFree s before o.plate o.sn .maint else sopPipeFree s before
        | none => true
    if ok then some (before, i, rest) else pickWaiting s (before ++ [i]) rest

/-- GRANT_QUEUED_SEGMENT (R47, R53): the first waiting item whose lock and other resources are free is granted. A stripe operation whose
lock is free takes it; where no pipe may take its job it keeps its place in the queue for one. A pipe is woken where an item waits for nothing
else (R71). -/
def grantQueued (s : State) : State :=
  if isSet s ADM_STAT_FROZEN then s
  else match pickWaiting s [] (waitItems s) with
    | none => if s.io.waking = [] ∧ Res.pipe ∈ heldBack s [] (waitItems s) then wakePipes s else s
    | some (before, i, _) =>
      let s1 := updIo (fun x => { x with waitl := x.waitl.eraseIdx before.length }) s
      match i with
      | .seg g => if segStale s g then tidyLocks s1 else doGrant g s1
      | .sop id => match sopOf s1 id with
        | some o =>
          if o.phase ≠ .lock then sopLocked id s1
          else if sopPipeFree s before then sopLocked id (takeLock o.plate o.sn .maint s1)
          else wakePipes (takeLock o.plate o.sn .maint (updSop id (fun y => { y with phase := .pipe }) s))
        | none => s1

def execGrantQueuedSegment (s : State) : Host.Outcome State Fault Refusal := run true (grantQueued s)

/-- ADM_CLR.CLR_HWM (R80): a write of 1 clears the page's high-water marks. -/
def execAdmClrHwm (w : Win) (v : Nat) (s : State) : Host.Outcome State Fault Refusal :=
  run true (guardWrite w 0x2B (onlyIf (decide (v % 2 = 1)) (fun t =>
    setFld ADM_LOCK_HWM_HWM t.io.locks.length (setFld ADM_WAIT_HWM (waitItems t).length t))) s)

/-- JNL_CLR.CLR_HWM (R81). -/
def execJnlClrHwm (w : Win) (v : Nat) (s : State) : Host.Outcome State Fault Refusal :=
  run true (guardWrite w 0x2A (onlyIf (decide (v % 2 = 1)) (fun t => setFld JNL_OCC_HWM t.io.journal.length t)) s)

end Sys2Proof.Machine
end

