-- ==== Sys2Proof/Machine/FlashOps.lean ====
section
/-! DEFINITION. The configuration flash: records in two slots by the slot rule (R186), and the progress log (R413, R115). -/

namespace Sys2Proof.Machine
open Reg

def updFlash (f : FlashSt → FlashSt) (s : State) : State := { s with flash := f s.flash }

/-- Flash offset of an offset in the configuration region (R409, R410). -/
def cfgOff (r : Nat) : Nat := 0x02800000 + r

def flashAt (s : State) (off : Nat) : Option (List Byte) := smGet s.flash.slots off

def flashPut (off : Nat) (bytes : List Byte) (s : State) : State :=
  updFlash (fun f => { f with slots := smSet f.slots off bytes }) s

def flashErase (off : Nat) (s : State) : State := updFlash (fun f => { f with slots := smDel f.slots off }) s

/-- The valid copies among two slots, as (offset, SEQ), by a validity check. -/
def validSlots (s : State) (a b seqOff : Nat) (valid : List Byte → Bool) : Option Nat × Option Nat :=
  let f := fun off => (flashAt s off).bind (fun x => if valid x then some (leAt x seqOff 4) else none)
  (f a, f b)

/-- The slot a write targets: the invalid one, else the one with the lower SEQ, with the SEQ it carries (R186). With both slots
invalid the first record goes to slot A and carries SEQ 1 (DESIGN CHOICE, notes/assumptions/161.md). -/
def slotFor (s : State) (a b seqOff : Nat) (valid : List Byte → Bool) : Nat × Nat :=
  match validSlots s a b seqOff valid with
  | (none, none) => (a, 1)
  | (none, some y) => (a, y + 1)
  | (some x, none) => (b, x + 1)
  | (some x, some y) => if x ≤ y then (a, y + 1) else (b, x + 1)

/-- The governing copy: the valid one with the higher SEQ (R186). -/
def slotRead (s : State) (a b seqOff : Nat) (valid : List Byte → Bool) : Option (List Byte) :=
  match validSlots s a b seqOff valid with
  | (none, none) => none
  | (some _, none) => flashAt s a
  | (none, some _) => flashAt s b
  | (some x, some y) => if y ≤ x then flashAt s a else flashAt s b

/-! ### Lists in two copies (R412) -/

/-- The header page and entries of a list copy. -/
def listCopy (magic seq count : Nat) (entries : List Byte) : List Byte :=
  let h := leBytes magic 8 ++ leBytes 1 2 ++ zeros 2 ++ leBytes seq 4 ++ leBytes count 4 ++ leBytes (crc32c entries) 4
  withCrc (slice h 0 4092) ++ entries

/-- A list copy is valid: both CRCs hold. -/
def listValid (magic : Nat) (b : List Byte) : Bool :=
  decide (leAt b 0 8 = magic) && crcOk b 0xFFC && decide (leAt b 0x14 4 = crc32c (slice b 0x1000 (16 * leAt b 0x10 4)))

/-- Write a list by the slot rule (R186, R412). -/
def listWrite (magic a b count : Nat) (entries : List Byte) (s : State) : State :=
  let q := slotFor s a b 0x0C (listValid magic)
  flashPut q.1 (listCopy magic q.2 count entries) s

/-- The entries of the governing copy, 16 bytes each. -/
def listRead (magic a b : Nat) (s : State) : List (List Byte) :=
  match slotRead s a b 0x0C (listValid magic) with
  | none => []
  | some x => (List.range (leAt x 0x10 4)).map (fun i => slice x (0x1000 + 16 * i) 16)

/-- "ZYNLOSTW" and "ZYNSUSPL", least significant byte first. -/
def magicLostW : Nat := 0x5754534F4C4E595A
def magicSusp : Nat := 0x4C505355534E595A

/-! ### Progress records -/

def progOff (i : Nat) : Nat := cfgOff 0x330000 + 256 * i

/-- The members of a mask, rising. -/
def ofMask (v : Nat) : List Nat := (List.range 128).filter (fun m => v.testBit m)

/-- The 256 bytes of a progress record (Table REBUILD-11). -/
def progBytes (kind p nRanges seq id gen cursor deadline flags : Nat) (ranges : List Range) (target : List Nat) : List Byte :=
  withCrc ((([0x5A, 0x59, 0x4E, 0x50, 0x52, 0x4F, 0x47, 0x52] : List Nat).map (BitVec.ofNat 8)) ++ leBytes 1 1 ++ leBytes kind 1 ++ leBytes p 1 ++
    leBytes nRanges 1 ++ leBytes seq 4 ++ leBytes id 8 ++ leBytes gen 8 ++ leBytes cursor 8 ++ leBytes deadline 4 ++ leBytes flags 4 ++
    slice (ranges.flatMap (fun r => leBytes r.start 8 ++ leBytes (maskOf (r.set.filter (· < 128))) 16)) 0 96 ++ leBytes (maskOf target) 16 ++ zeros 92)

/-- A progress record is valid (R115). -/
def progValid (b : List Byte) : Bool :=
  decide (leAt b 0 8 = 0x52474F52504E595A) && decide (leAt b 8 1 = 1) && crcOk b 0xFC

/-- The valid records of the log, as (slot, bytes). -/
def progAll (s : State) : List (Nat × List Byte) :=
  (List.range 3072).filterMap (fun i => (flashAt s (progOff i)).bind (fun b => if progValid b then some (i, b) else none))

/-- The governing record of a plate and kind: the valid one with the highest SEQ (R115). -/
def progGov (s : State) (id kind : Nat) : Option (Nat × List Byte) :=
  ((progAll s).filter (fun q => decide (leAt q.2 0x10 8 = id ∧ leAt q.2 9 1 = kind))).foldl (fun a q => match a with
    | none => some q
    | some r => if leAt r.2 0x0C 4 < leAt q.2 0x0C 4 then some q else some r) none

/-- Put a record into the slot at the log head. -/
def progPut (b : List Byte) (s : State) : State :=
  let h := s.flash.progHead
  updFlash (fun f => { f with progHead := (h + 1) % 3072 }) (flashPut (progOff h) b s)

/-- Append a progress record (R413). Halfway through a sector of 256 slots, the records of the next sector that still govern
are written again at the head, and that sector is erased. -/
def progAppend (b : List Byte) (s : State) : State :=
  let s1 := progPut b s
  if s1.flash.progHead % 256 ≠ 128 then s1
  else
    let next := (s1.flash.progHead / 256 + 1) % 12
    let gov := (progAll s1).filter (fun q => decide (q.1 / 256 = next) &&
      decide ((progGov s1 (leAt q.2 0x10 8) (leAt q.2 9 1)).map Prod.fst = some q.1))
    let s2 := gov.foldl (fun t q => progPut q.2 t) s1
    (List.range 256).foldl (fun t i => flashErase (progOff (256 * next + i)) t) s2

end Sys2Proof.Machine
end

