-- ==== Sys2Proof/Machine/MoverOps.lean ====
section
/-! DEFINITION. The Graver's channels (R346, R347): descriptors, the choice of the next unit, and the units of the device's own. -/

namespace Sys2Proof.Machine
open Reg

def updMover (f : MoverSt → MoverSt) (s : State) : State := { s with mover := f s.mover }

def mchOf (s : State) (c : Nat) : MCh := smGetD s.mover.ch c MCh.reset

def updMch (c : Nat) (f : MCh → MCh) (s : State) : State := updMover (fun m => { m with ch := smSet m.ch c (f (mchOf s c)) }) s

/-! ### Descriptors (Table MOVER-2) -/

/-- The 128 bytes of a channel's descriptor image. -/
def descBytes (s : State) (c : Nat) : List Byte := (List.range 32).flatMap (fun w => leBytes (getFld s (CH_DESC c w)) 4)

def setDesc (c : Nat) (b : List Byte) (s : State) : State := (List.range 32).foldl (fun t w => setFld (CH_DESC c w) (leAt b (4 * w) 4) t) s

def dOp (b : List Byte) : Nat := bitsOf (leAt b 0 4) 0 2
def dIrq (b : List Byte) : Bool := (leAt b 0 4).testBit 2
def dLast (b : List Byte) : Bool := (leAt b 0 4).testBit 3
def dPace (b : List Byte) : Nat := bitsOf (leAt b 0 4) 4 2
def dRate (b : List Byte) : Nat := bitsOf (leAt b 0 4) 8 8
def dReq (b : List Byte) : Nat := bitsOf (leAt b 0 4) 16 7
def dElem (b : List Byte) : Nat := 2 ^ bitsOf (leAt b 0 4) 24 3
def dCount (b : List Byte) (i : Nat) : Nat := leAt b (0x20 + 2 * i) 2
def dTotal (b : List Byte) : Nat := dElem b * dCount b 0 * dCount b 1 * dCount b 2

/-- A signed 32-bit step. -/
def dStep (b : List Byte) (o : Nat) : Int := let v := leAt b o 4; if v < 2 ^ 31 then (v : Int) else (v : Int) - 2 ^ 32

/-- A side of a unit: its space, host port, function and address field. -/
structure Side where
  space : Nat
  port  : Nat
  func  : Nat
  base  : Nat
  steps : Int × Int × Int
  deriving DecidableEq, Repr

def sideOf (b : List Byte) (o addr step : Nat) : Side :=
  let v := leAt b o 2
  { space := v % 4, port := bitsOf v 2 1, func := bitsOf v 3 10, base := leAt b addr 8, steps := (dStep b step, dStep b (step + 4), dStep b (step + 8)) }

def srcSide (b : List Byte) : Side := sideOf b 0x08 0x10 0x28
def dstSide (b : List Byte) : Side := sideOf b 0x0A 0x18 0x34

/-- The address of byte p of a unit on a side (R350), modulo 2^64. -/
def byteAddr (b : List Byte) (d : Side) (p : Nat) : Nat :=
  let e := p / dElem b
  let x := e % dCount b 0
  let y := e / dCount b 0 % dCount b 1
  let z := e / (dCount b 0 * dCount b 1)
  ((((d.base + p % dElem b : Nat) : Int) + (z : Int) * d.steps.2.2 + (y : Int) * d.steps.2.1 + (x : Int) * d.steps.1) % (2 ^ 64 : Int)).toNat

/-- A field of the descriptor is reserved, zero where it may not be, or a code that Table MOVER-4 kind 1 names. -/
def descBad (b : List Byte) (chain : Bool) : Bool :=
  let c := leAt b 0 4
  decide (dOp b = 3 ∨ dPace b = 3 ∨ 71 < dReq b ∨ 6 < bitsOf c 24 3) || decide (bitsOf c 6 2 ≠ 0 ∨ bitsOf c 23 1 ≠ 0 ∨ bitsOf c 27 5 ≠ 0) ||
  decide (dCount b 0 = 0 ∨ dCount b 1 = 0 ∨ dCount b 2 = 0) || decide (leAt b 8 2 % 4 = 3 ∨ leAt b 10 2 % 4 = 3) ||
  decide (leAt b 8 2 / 2 ^ 13 ≠ 0 ∨ leAt b 10 2 / 2 ^ 13 ≠ 0) || decide (leAt b 0x0C 4 ≠ 0 ∨ leAt b 0x26 2 ≠ 0 ∨ leAt b 0x50 48 ≠ 0) ||
  (chain && decide (bitsOf (leAt b 0x40 8) 1 6 ≠ 0))

/-- An SRAM address that the Graver may only read (Table MOVER-3). -/
def readOnly (a : Nat) : Bool := decide (0x02000000 ≤ a ∧ a < 0x02E00000)

/-- The unit writes to a read-only range somewhere. -/
def writesReadOnly (b : List Byte) : Bool :=
  decide (dOp b ≠ 2) && decide ((dstSide b).space = 0) && (List.range (dTotal b)).any (fun p => readOnly (byteAddr b (dstSide b) p))

/-! ### Choosing -/

/-- CH_STAT.STATE of a channel. -/
def chState (s : State) (c : Nat) : Nat := getFld s (MCH_CH_STAT_STATE c)

/-- MOV_STAT follows the unit that runs. -/
def showMover (s : State) : State :=
  match s.mover.run with
  | some c => setFld MOV_STAT_CHANNEL c (setFld MOV_STAT_BUSY 1 s)
  | none => setFld MOV_STAT_BUSY 0 s

/-- The next burst of a channel is paced by request line and no request is held: the channel waits (R347). -/
def noRequest (s : State) (c : Nat) : Bool :=
  (mchOf s c).loaded && decide (dPace (descBytes s c) = 2) && decide (getFld s (MCH_CH_REQ_HELD c) = 0)

/-- The channels that are pending (R347): MOV_PEND. -/
def pendMask (s : State) : Nat := maskOf ((List.range 16).filter (fun c => decide (chState s c = 1 ∨ chState s c = 2) && !noRequest s c))

/-- PENDING and WAITING follow the held requests. -/
def settleCh (c : Nat) (s : State) : State :=
  if chState s c = 1 ∧ noRequest s c then setFld (MCH_CH_STAT_STATE c) 3 s
  else if chState s c = 3 ∧ !noRequest s c then setFld (MCH_CH_STAT_STATE c) 1 s
  else s

/-- A unit begins: its descriptor is checked (Table MOVER-4 kind 1). -/
def startUnit (c : Nat) (s : State) : State :=
  let b := descBytes s c
  let bad := descBad b (isSet s (MCH_CH_CTL_CHAIN c)) || writesReadOnly b
  updMch c (fun m => { m with off := 0, ended := if bad then some (1, 0, false) else none }) s

/-- With no unit running, the lowest-numbered pending channel runs one unit (R347, Table MOVER-8). -/
def chooseUnit (s : State) : State :=
  let s1 := (List.range 16).foldl (fun t c => settleCh c t) s
  let ok := fun (c : Nat) => decide (chState s1 c = 1) && enabled s1 (0xE0 + c) && !fenced s1 (0xE0 + c)
  showMover (match s1.mover.run with
    | some _ => s1
    | none =>
      if !enabled s1 0xDF ∨ fenced s1 0xDF then s1
      else match (List.range 16).find? ok with
        | some c =>
          let s2 := setFld (MCH_CH_STAT_STATE c) 2 (updMover (fun m => { m with run := some c }) (leaveIdle s1))
          if (mchOf s2 c).loaded then startUnit c s2 else s2
        | none => s1)

/-- The channel becomes IDLE. -/
def idleCh (c : Nat) (s : State) : State :=
  setFld (MCH_CH_STAT_STATE c) 0 (setFld (MCH_CH_CTL_GO c) 0 (updMch c (fun _ => MCh.reset) s))

/-- A channel releases the mover. -/
def releaseMover (c : Nat) (s : State) : State := if s.mover.run = some c then updMover (fun m => { m with run := none }) s else s

/-! ### Units of the device's own (Tables PATH-1, MOVER-1)

Such a unit has no descriptor. It moves its bytes in the row that reads or presents the data, on the first of its user's channels that works (DESIGN
CHOICE which of a user's channels, notes/assumptions/67.md). While another unit runs it is pending, and the mover then chooses it by R347. -/

/-- A channel of a user works: neither it nor the mover is fenced or disabled (Table MOVER-8). -/
def graverUp (s : State) (cs : List Nat) : Bool :=
  enabled s 0xDF && !fenced s 0xDF && cs.any (fun c => enabled s (0xE0 + c) && !fenced s (0xE0 + c))

/-- The Graver carries work of a user now: no unit of another channel runs (R347). -/
def graverFree (s : State) (cs : List Nat) : Bool :=
  graverUp s cs && (match s.mover.run with
    | none => true
    | some c => decide (c ∈ cs) && !(mchOf s c).loaded && !isSet s (MCH_CH_CTL_CHAIN c))

/-- The first of a user's channels that works. -/
def ownCh (s : State) (cs : List Nat) : Option Nat := cs.find? (fun c => enabled s (0xE0 + c) && !fenced s (0xE0 + c))

/-- A unit of the device's own waits: its channel is pending from then on (R347). -/
def graverAsk (cs : List Nat) (s : State) : State :=
  match ownCh s cs with
  | some c => if graverFree s cs ∨ cs.any (fun i => decide (chState s i ≠ 0)) then s
      else setFld (MCH_CH_CTL_GO c) 1 (setFld (MCH_CH_STAT_STATE c) 1 (setFld (PG_STAT_ASLEEP (0xE0 + c)) 0 (setFld (MCH_CH_CTL_CHAIN c) 0 s)))
  | none => s

/-- A unit of the device's own ends, or what waited for it is gone: the mover goes to the next one. -/
def ownDone (c : Nat) (s : State) : State := chooseUnit (releaseMover c (idleCh c s))

/-- A unit of the device's own counts on its channel and on the common page. -/
def countUnit (c n : Nat) (s : State) : State :=
  incFld (MCH_CH_DONE_COUNT c) 1 (add64 (MCH_CH_BYTES_LO_COUNT c) (MCH_CH_BYTES_HI_COUNT c) n (add64 MOV_BYTES_LO_COUNT MOV_BYTES_HI_COUNT n s))

/-- The Graver has carried a unit of the device's own: the counters of the channel and of the common page take it. -/
def graverMoved (cs : List Nat) (n : Nat) (s : State) : State :=
  match cs.find? (fun c => decide (chState s c ≠ 0) && !(mchOf s c).loaded) with
  | some c => ownDone c (countUnit c n s)
  | none => match ownCh s cs with
    | some c => countUnit c n s
    | none => s

end Sys2Proof.Machine
end

