-- ==== Sys2Proof/Machine/LinkOps.lean ====
section
/-! DEFINITION. What a Tashaop link does as a whole: acknowledgements and replays (R323, R324), going DOWN and resending (R324, R329), and
the COMPLETION that answers a MEMBER_IO request (R335, R345). -/

namespace Sys2Proof.Machine
open Reg

def tlkEvt (x bit : Nat) (s : State) : State := setEvt (0xC8 + x) bit s

/-- An IDLE flit that carries the acknowledgement (R323). -/
def sendIdle (x : Nat) (s : State) : State := sendFlit x 0 0 (0, 0) [] s

/-- A NAK that names the expected FSEQ, once until a flit is accepted (R323). Where the payload names it is the model's choice. -/
def sendNak (x : Nat) (s : State) : State :=
  let t := tlkOf s x
  if t.nak then s else updTlk x (fun y => { y with nak := true }) (sendFlit x 0 1 (0, 0) (leBytes t.expect 2) s)

/-- A CTRL flit. -/
def sendCtrl (x : Nat) (payload : List Byte) (s : State) : State :=
  sendSeq x { seq := 0, kind := 2, crd := (0, 0), payload := payload, note := none } s

/-- Credits are owed and nothing else has gone out: CTRL flits return them (R325). -/
def returnCredits : Nat → Nat → State → State
  | 0, _, s => s
  | fuel + 1, x, s =>
    let t := tlkOf s x
    if (crdNext t).2 = 0 ∨ 512 ≤ t.retry.length then s else returnCredits fuel x (sendCtrl x [] s)

/-- Send flits of the retry buffer again (R324). -/
def replayFrom (x : Nat) (fs : List TxFlit) (s : State) : State :=
  fs.foldl (fun t f => sendFlit x f.seq f.kind f.crd f.payload t) (incFld (TLK_REPLAY_COUNT x) 1 s)

/-- The link retrains (R324). -/
def retrain (x : Nat) (s : State) : State :=
  tlkEvt x TLK_EVT_RETRAIN (incFld (TLK_RETRAIN_COUNT x) 1 (setFld (PG_STAT_STATE (0xC8 + x)) 4 s))

/-- A replay; the fourth in a row without progress retrains the link (R324). -/
def replayAgain (x : Nat) (fs : List TxFlit) (s : State) : State :=
  let s1 := replayFrom x fs (updTlk x (fun y => { y with replays := y.replays + 1 }) s)
  if (tlkOf s x).replays < 3 then s1 else retrain x (tlkEvt x TLK_EVT_REPLAY_LIMIT (updTlk x (fun y => { y with replays := 0 }) s1))

/-- The LEARNED entry of a neighbour becomes invalid when its link is DOWN and no UP link reaches that neighbour (R329). -/
def unlearn (x : Nat) (s : State) : State :=
  match (tlkOf s x).nb with
  | none => s
  | some n =>
    if linksTo s n ≠ [] ∨ !isSet s (TRT_ENTRY_LEARNED n) ∨ tlkState s (getFld s (TRT_ENTRY_LINK n)) ≠ 0 then s
    else setFld (TRT_ENTRY_VALID n) 0 (setFld (TRT_ENTRY_LEARNED n) 0 s)

/-- A forwarded message is dropped, at the link it came in on (R330). -/
def hopDrop (x : Nat) (s : State) : State := tlkEvt x TLK_EVT_HOP_DROP (incFld (TLK_DROP_COUNT x) 1 s)

/-- A waiting message has no link any more: this node's own counts as not sent, a forwarded one is dropped (R330). -/
def noLink (q : QMsg) (s : State) : State := if q.via < 8 then hopDrop q.via s else unroutable s

/-- A link is DOWN: its unacknowledged flits, CTRL flits among them, go to another UP link to the same neighbour, before any message not begun; its
waiting messages choose their link again. Without such a link the flits are lost (R324, R329, R331). -/
def linkDown (x : Nat) (s : State) : State :=
  if tlkState s x = 0 then s
  else if tlkState s x = 1 then setFld (PG_STAT_STATE (0xC8 + x)) 0 s
  else
    let t := tlkOf s x
    let s1 := setFld (PG_STAT_STATE (0xC8 + x)) 0 (setFld (TLK_STAT_SPEED x) 0 (setFld (TLK_STAT_WIDTH x) 0 (setFld (PG_STAT_ASLEEP (0xC8 + x)) 0 s)))
    let s2 := tlkEvt x TLK_EVT_DOWN (updTlk x (fun _ => { Tlk.reset with nb := t.nb }) s1)
    let s3 := match (t.nb.map (linksTo s2)).getD [] with
      | y :: _ => pump y (updTlk y (fun u => { u with resend := u.resend ++ t.retry ++ t.cur ++ t.resend }) s2)
      | [] => s2
    let s4 := unlearn x s3
    t.queue.foldl (fun u q => routeMsg q (noLink q) u) s4

/-- A CTRL flit, at once or as soon as the retry buffer has room (R323). -/
def sendCtrlSoon (x : Nat) (payload : List Byte) (s : State) : State :=
  if (tlkOf s x).retry.length < 512 then sendCtrl x payload s
  else updTlk x (fun t => { t with cur := { seq := 0, kind := 2, crd := (0, 0), payload := payload, note := none } :: t.cur }) s

/-- Every link loses its power. -/
def linksOff (s : State) : State :=
  linkNums.foldl (fun t x => setFld (PG_STAT_STATE (0xC8 + x)) 0 (setFld (TLK_STAT_SPEED x) 0 (setFld (TLK_STAT_WIDTH x) 0
    (setFld (PG_STAT_ASLEEP (0xC8 + x)) 0 (updTlk x (fun u => { Tlk.reset with nb := u.nb }) t))))) s

/-! ### MEMBER_IO at the serving node -/

/-- The NVMe status of a COMPLETION: the codes of the NVM Express standard; one of which this model knows only that it is an error is open. -/
def nvmeCode (n : Nat) : Nvme → Nat
  | .ok => 0
  | .unrecovered => 0x281
  | .endToEnd => 0x282
  | .reservationConflict => 0x83
  | .other => (Config.nvmeStatus n).toNat

/-- The same read back. -/
def nvmeOf (v : Nat) : Nvme :=
  if v = 0 then .ok
  else if v % 2 ^ 11 = 0x281 then .unrecovered
  else if v % 2 ^ 11 ∈ [0x282, 0x283, 0x284] then .endToEnd
  else if v % 2 ^ 11 = 0x83 then .reservationConflict
  else .other

/-- Answer a MEMBER_IO request of another node. -/
def answerRemote (src tag arg : Nat) (op : NvOp) (st : Nvme) (data : List Byte) (s : State) : State :=
  bumpFresh (sendMsg src .completion tag arg (nvmeCode s.fresh st) (if op = .read ∧ st = .ok then slice data 0 4096 else []) s)

end Sys2Proof.Machine
end

