-- ==== Sys2Proof/Machine/PortOps.lean ====
section
/-! DEFINITION. Tag pages that cannot be read (R69) and what a drive port does with a command that ends badly: erasures (R86, R292),
controller resets (R291), lost drives (R293) and reservation conflicts (R295). -/

namespace Sys2Proof.Machine
open Reg

/-! ### Tag pages -/

/-- A tag page that could not be read is rebuilt in its buffer: every tag not being written fails its check (R69). -/
def tagPageBad (key : Nat) (s : State) : State :=
  tagWrite key (updTagBuf key (fun b =>
    { b with loaded := true, reading := false, tags := (List.range 512).map (fun i => (i, 2 ^ 64 - 1)) }) s)

/-! ### Reads that fail -/

/-- A read that ends as an erasure of its blocks (R86, R291 to R293). -/
def readLost (c : NvCmd) (s : State) : State :=
  match c.why with
  | .cmdRd cmd off => reconRead c cmd off s
  | .old j pos => match entryOf s j, plateOf s c.plate with
    | some e, some x =>
      if e.forced then
        let b0 := c.lba - x.geom.mlba (x.geom.rowOf c.sn) 0
        updEntry j (fun y => { y with erased := (List.range c.n).map (fun i => gkey pos (b0 + i)) ++ y.erased }) s
      else forceRecon j s
    | _, _ => s
  | .sopRd id pos => match plateOf s c.plate with
    | some x => updSop id (fun o => sopBlocks x.geom.k o pos (c.lba - x.geom.mlba (x.geom.rowOf c.sn) 0) .unrecovered c.n []) s
    | none => s
  | .tagRd key => tagPageBad key s
  | .remote src tag arg => answerRemote src tag arg .read .unrecovered [] s
  | _ => s

/-- What a command other than a read was for goes on without it: a stripe operation that was writing restarts, or ends its repairs (Table REBUILD-6,
R88 step 5); an entry has one home less to wait for (R66); the requester on another node is told. -/
def writeLost (c : NvCmd) (s : State) : State :=
  match c.why with
  | .sopWr id _ =>
    if ((sopOf s id).map (fun o => decide (o.phase = .reading ∨ o.phase = .pipe ∨ o.phase = .lock))).getD true then s else sopLoses id s
  | .dual j pos => stripDone j pos s
  | .label p m => updPlate p (fun x => { x with labelWait := x.labelWait.filter (· ≠ m) }) s
  | .remote src tag arg => answerRemote src tag arg .write .other [] s
  | _ => s

/-! ### Drive ports -/

/-- Change the record of a tracked namespace. -/
def updNs (port nsid : Nat) (f : Ns → Ns) (s : State) : State :=
  updDport port (fun d => { d with nss := d.nss.map (fun n => if n.nsid = nsid then f n else n) }) s

/-- PG_STAT.STATE of a drive port (R299). -/
def portState (s : State) (p : Nat) : Nat := getFld s (PG_STAT_STATE (0x80 + p))

/-- The commands outstanding at a drive port of this node. -/
def portCmds (s : State) (p : Nat) : List (Nat × NvCmd) :=
  s.io.nvme.filter (fun q => decide (q.2.node = nodeId s ∧ q.2.port = p))

/-- The members served by a drive port of this node, as (plate, member). -/
def portMembers (s : State) (p : Nat) : List (Nat × Nat) :=
  s.store.plates.flatMap (fun q => ((List.range q.2.members.length).filter (fun m =>
    ((q.2.mem m).map (fun y => decide (y.node = nodeId s ∧ y.port = p))).getD false)).map (fun m => (q.1, m)))

/-- Members fail together: those of one plate are declared together (R95). -/
def failAll (ms : List (Nat × Nat)) (st : MState) (s : State) : State :=
  ((ms.map Prod.fst).eraseDups).foldl (fun t p =>
    failMembers p ((ms.filter (fun q => decide (q.1 = p))).map (fun q => (q.2, st))) t) s

/-- Every member on a drive port fails (Table REBUILD-3). -/
def failDrive (p : Nat) (st : MState) (s : State) : State := failAll (portMembers s p) st s

/-- What a port sends its drive's controller takes the link out of L1 (R286). -/
def sendAdmin (p : Nat) (cmds : List NvAdmin) (s : State) : State := emit (.nvmeAdmin p cmds) (leaveDriveL1 p s)

/-- The controller of a port's drive is reset (R291): its queues go with CC.EN (Table DRIVE-1), the reads issued to it end as erasures, and what else
is outstanding waits to be reissued. -/
def ctrlReset (p : Nat) (s : State) : State :=
  let s1 := sendAdmin p [.deleteQueues, .clearEnable] (updDport p (fun y => { y with resetting := true }) (incFld (DPT_RESETS_COUNT p) 1 s))
  let here := fun (q : Nat × NvCmd) => decide (q.2.node = nodeId s ∧ q.2.port = p)
  let rds := (portCmds s p).filter (fun q => decide (q.2.op = .read) && nvIssued s q.1)
  rds.foldl (fun t q => readLost q.2 t) (updIo (fun i => { i with
    nvme := (i.nvme.filter (fun q => !rds.any (fun r => decide (r.1 = q.1)))).map (fun q => if here q then (q.1, { q.2 with pair := none }) else q) }) s1)

/-- A command timed out (R291). With RETRIES resets in a row the drive fails. -/
def portTimeout (p : Nat) (s : State) : State :=
  match dport s p with
  | none => s
  | some d =>
    let s1 := setEvt (0x80 + p) DPT_EVT_TIMEOUT (incFld (DPT_TMO_CNT_COUNT p) 1 s)
    let s2 := ctrlReset p (updDport p (fun y => { y with resets := y.resets + 1 }) s1)
    if getFld s (DPT_TMO_RETRIES p) ≤ d.resets + 1 then failDrive p .failed s2 else s2

/-- The port shows a Reservation Conflict (R295). -/
def portConflict (p : Nat) (s : State) : State := setEvt (0x80 + p) DPT_EVT_RESV_LOST (setFld (DPT_RESV_ROLE p) 3 s)

/-- What the status of a command served for another node does at the port that serves it: a conflict is shown there (R295), and a read that ends with
neither success nor an erasure is a timeout of the port (R292). The requester has its status (R335). -/
def servedEnd (c : NvCmd) (st : Nvme) (s : State) : State :=
  match st with
  | .reservationConflict => portConflict c.port s
  | .other => if c.op = .read then portTimeout c.port s else s
  | _ => s

/-- A completion with Reservation Conflict: the port shows it, and the plate is fenced on this node (R295). -/
def conflictAt (c : NvCmd) (s : State) : State :=
  let s1 := if c.node = nodeId s then portConflict c.port s else s
  if c.plate < 64 then resvConflict c.plate s1 else s1

/-- A command of a port ended well: the run of resets is over (R291). -/
def portOk (c : NvCmd) (s : State) : State :=
  if c.node = nodeId s then updDport c.port (fun d => { d with resets := 0 }) s else s

/-- The latency of a member read joins its plate's measure, UNIT 10 µs (Table ROLE-6, R426). -/
def readTimed (c : NvCmd) (s : State) : State :=
  onlyIf (decide (c.plate < 64)) (sketchHist (0x8040 + c.plate) 10000 (devTime s - c.since)) s

/-! ### Reservations (R294) -/

/-- The members of a plate behind a dual-port slot of this node. -/
def dualMembers (s : State) (x : Plate) : List (Nat × Member) :=
  ((List.range x.members.length).zip x.members).filter (fun q => decide (q.2.node = nodeId s) && isSet s (DPT_SLOT_STS_DUAL q.2.port))

/-- The reservation key of a node for a plate. -/
def resvKey (gen node : Nat) : Nat := 0x5A59 * 2 ^ 48 + gen % 2 ^ 32 * 2 ^ 16 + node % 512

/-- Send a reservation command for a member: its action, this node's key and, for a preemption, the other's. -/
def resvSend (p : Nat) (m : Nat × Member) (action key other : Nat) (s : State) : State :=
  sendNv { plate := p, mem := m.1, node := nodeId s, port := m.2.port, nsid := m.2.nsid, sn := 0, pos := 0, op := .reservation, lba := 0, n := 0,
           data := le64 key ++ le64 other, why := .resv action, tries := 0 } s

/-- The owner of a plate registers and acquires on one member, with the plate's key. -/
def memberResv (p : Nat) (x : Plate) (m : Nat × Member) (s : State) : State :=
  resvSend p m 1 (resvKey x.resvGen (nodeId s)) 0 (resvSend p m 0 (resvKey x.resvGen (nodeId s)) 0 s)

/-- The owner of a plate with a standby registers and acquires on its dual-port members; the key holds the LABEL_GEN of that moment. -/
def plateResv (p : Nat) (s : State) : State :=
  match plateOf s p with
  | none => s
  | some x =>
    if x.standby = 0xFFFF ∨ x.owner ≠ nodeId s then s
    else
      let y : Plate := { x with resvGen := x.labelGen }
      (dualMembers s y).foldl (fun t m => memberResv p y m t) (updPlate p (fun _ => y) s)

/-- A namespace that joins such a plate later takes its reservation then. -/
def joinResv (p i : Nat) (s : State) : State :=
  match plateOf s p with
  | none => s
  | some x =>
    if x.standby = 0xFFFF ∨ x.owner ≠ nodeId s then s
    else ((dualMembers s x).filter (fun q => decide (q.1 = i))).foldl (fun t m => memberResv p x m t) s

/-- The reservations of a plate's members are released (R339, R340). -/
def releaseResv (p : Nat) (x : Plate) (s : State) : State :=
  (dualMembers s x).foldl (fun t m => resvSend p m 2 (resvKey x.resvGen (nodeId s)) 0 t) s

/-- A reservation command has ended: the port shows what it holds. -/
def resvDone (c : NvCmd) (action : Nat) (st : Nvme) (s : State) : State :=
  if st = .reservationConflict then conflictAt c s
  else if st ≠ .ok then s
  else match action with
    | 0 => if getFld s (DPT_RESV_ROLE c.port) = 1 then s else setFld (DPT_RESV_ROLE c.port) 2 s
    | 1 => setFld (DPT_RESV_ROLE c.port) 1 s
    | 2 => setFld (DPT_RESV_ROLE c.port) 0 s
    | 4 => setFld (DPT_RESV_ROLE c.port) 1 s
    | _ => s

/-- Member bytes of host work in the present slice (H of R104 and R129). -/
def hostBytes (c : NvCmd) (s : State) : State :=
  let host := match c.why with
    | .strip _ _ | .dual _ _ | .old _ _ | .cmdRd _ _ => true
    | _ => false
  if host then updPlate c.plate (fun x =>
      { x with pass := { x.pass with hostBw := x.pass.hostBw + 4096 * c.n }, cycle := { x.cycle with hostBw := x.cycle.hostBw + 4096 * c.n } }) s else s

/-- The statuses that count towards READ_ERR_LIMIT: an unrecovered read error (Table REBUILD-3), and for a tag page read for
read-merge-write an end-to-end error too (R69). -/
def countsError (c : NvCmd) (st : Nvme) : Bool :=
  match st, c.why with
  | .unrecovered, _ => true
  | .endToEnd, .tagRd _ => true
  | _, _ => false

/-- A member command ends unsuccessfully: what Table REBUILD-3, R292 and R295 make of its status. A Write or Flush fails the member, and so
does the Write Zeroes with which its plate is built (R221); another Write Zeroes or a deallocate changes nothing. -/
def badStatus (c : NvCmd) (st : Nvme) (s : State) : State :=
  match st with
  | .ok => s
  | .reservationConflict => conflictAt c s
  | _ =>
    if c.op = .read then
      if st = .other then (if c.node = nodeId s then portTimeout c.port (readLost c s) else readLost c s)
      else readLost c (if countsError c st then readError c.plate c.mem s else s)
    else
      let build := match c.why with | .tagInit _ _ => true | _ => false
      if c.op = .write ∨ c.op = .flush ∨ build = true then writeLost c (failMember c.plate c.mem .failed s) else s

end Sys2Proof.Machine
end

