-- ==== Sys2Proof/Machine/WriteOps.lean ====
section
/-! DEFINITION. The write path behind admission: new contents and parity of a segment (R17, R31, R64, R65, R67, R68),
taking effect (R51, R70, R139, R140), member writes (R66, R68, R102), completion (R60) and the freeing of an entry. -/

namespace Sys2Proof.Machine
open Reg

/-! ### Contents -/

/-- The old contents of a position, as it counts. -/
def oldAt (e : JEntry) (pos b : Nat) : Block := ((smGet e.old (gkey pos b)).map effective).getD []

/-- New P and Q at a block: by R17 from the complete new data, or by R64 from the old syndromes. -/
def parityAt (g : Geom) (e : JEntry) (b : Nat) : Block × Block :=
  if e.path = .stream ∨ e.recon then
    let ds := (List.range g.k).map (fun pos => ((contentAt g e pos b).map TBlk.data).getD [])
    (parityP ds, parityQ ds)
  else
    (segPos g e.seg.wset).foldl (fun a pos =>
      let new := ((contentAt g e pos b).map TBlk.data).getD []
      (deltaP a.1 (oldAt e pos b) new, deltaQ pos a.2 (oldAt e pos b) new)) (oldAt e g.k b, oldAt e (g.k + 1) b)

/-- Rebuild the erased old contents of a forced reconstruct-write (R65 step 2, R32). -/
def rebuildOld (g : Geom) (e : JEntry) : JEntry :=
  let blks := blkRange e.blkFirst e.blkLast
  let er := applyGen g.k e.old blks e.erased
  let old := blks.foldl (fun m b =>
    match recoverCol g.k (column g.k e.old er b) with
    | some cl => (List.range g.w).foldl (fun m1 pos =>
        if gkey pos b ∈ er then
          let d := (cl[pos]?).getD []
          smSet m1 (gkey pos b) { data := d, tag := rewriteTag g.k e.old er b pos d }
        else m1) m
    | none => m) e.old
  { e with old := old }

/-- Blocks at which more than two positions are erased. -/
def overErased (g : Geom) (blks : List Nat) (er : List Nat) : List Nat :=
  blks.filter (fun b => decide (2 < ((List.range g.w).filter (fun pos => decide (gkey pos b ∈ er))).length))

/-! ### Cache entries -/

/-- The standby that may hold copies of a plate's slots, whether or not mirroring to it is suspended (R141, R142). -/
def copyHolder (s : State) (p : Nat) : Option Nat :=
  (plateOf s p).bind (fun x => if x.standby ≠ 0xFFFF ∧ x.attached then some x.standby else none)

/-- A slot that is no longer needed becomes FREE; the partner's copy is released (R141). -/
def dropSlot (k : Nat) (s : State) : State :=
  match smGet s.cache.slots k with
  | none => s
  | some x => match copyHolder s x.plate with
    | some node => sendMsg node .mirrorRelease 0 (k + x.plate * 2 ^ 32) 0 [] (freeSlot k s)
    | none => freeSlot k s

/-- A current slot is superseded or removed: DIRTY to FREE, DESTAGING to RETIRED (R136). -/
def retireSlot (k : Nat) (s : State) : State :=
  match smGet s.cache.slots k with
  | none => s
  | some x => if x.state = .dirty then dropSlot k s
    else if x.state = .destaging then updSlot k (fun y => { y with state := .retired }) s
    else s

/-- The current slot of a block (R138). -/
def currentSlot (s : State) (p sn lin : Nat) : Option (Nat × Slot) :=
  s.cache.slots.find? (fun q => decide (q.2.plate = p ∧ q.2.sn = sn ∧ q.2.lin = lin) &&
    (decide (q.2.state = .dirty) || decide (q.2.state = .destaging)))

/-- The directory entry of a slot is newer than a segment: it was entered after the segment's admission decision, and its SEQ is ahead of the
number's low 32 bits (R138). -/
def Slot.newer (x : Slot) (adm : Nat) : Bool :=
  let d := (x.seq % 2 ^ 32 + 2 ^ 32 - adm % 2 ^ 32) % 2 ^ 32
  decide (adm ≤ x.entered) && decide (1 ≤ d) && decide (d < 2 ^ 31)

/-- Remove the directory entries that a STREAM or DIRECT write supersedes (R70, R140). -/
def supersede (e : JEntry) (s : State) : State :=
  e.seg.wset.foldl (fun t lin => match currentSlot t e.seg.plate e.seg.sn lin with
    | some q => if q.2.newer e.seg.adm then t else retireSlot q.1 t
    | none => t) s

/-- Some later STREAM or DIRECT entry has taken effect over a block (R139). The entry of Sequence REBUILD-1 step 3 writes no data: the slots of a
lost block stay, and their destage ends the loss (R136). -/
def overwritten (s : State) (e : JEntry) (lin : Nat) : Bool :=
  s.io.journal.any (fun q => decide (q.2.seg.plate = e.seg.plate ∧ q.2.seg.sn = e.seg.sn ∧ e.seg.adm < q.2.seg.adm ∧ lin ∈ q.2.seg.wset) &&
    (decide (q.2.path = .stream) || decide (q.2.path = .direct)) && decide (q.2.seg.src ≠ .lossFill) && decide (2 ≤ jstateCode (effState s q.2)))

/-- The blocks of a CACHE entry become current as it commits (R139). -/
def enterSlots (e : JEntry) (s : State) : State :=
  e.slots.foldl (fun t q =>
    if overwritten t e q.1 then dropSlot q.2 t
    else match currentSlot t e.seg.plate e.seg.sn q.1 with
      | some c =>
        if c.2.newer e.seg.adm then dropSlot q.2 t
        else updSlot q.2 (fun y => { y with state := .dirty, since := devTime s, entered := s.io.admCount }) (retireSlot c.1 t)
      | none => updSlot q.2 (fun y => { y with state := .dirty, since := devTime s, entered := s.io.admCount }) t) s

/-! ### Completion -/

/-- The segment has reached its completion point (R60): its command is told once, and counts its blocks where it succeeded
(Table TENANT-4). -/
def complete (j : Nat) (ok : Bool) (s : State) : State :=
  match entryOf s j with
  | some e =>
    if e.posted then s
    else
      let s1 := updEntry j (fun y => { y with posted := true }) s
      let s2 := if ok ∧ !e.seg.dealloc then updCmd e.seg.cmd (fun y => { y with wrBlks := y.wrBlks + e.seg.wset.length }) s1 else s1
      -- R212: what completes before its data is on the members is remembered for a later FLUSH
      let early := ok && (decide (e.state ≠ .committed) || decide (e.path = .cache))
      partDone e.seg.cmd (onlyIf early (updCmd e.seg.cmd (fun y =>
        { y with wrote := y.wrote ++ e.seg.wset.map (fun l => (e.seg.plate, e.seg.sn, l, e.seg.adm)) })) s2)
  | none => s

/-- Blocks have reached the members, each with the data of a write: FLUSH commands and CCH FLUSH that waited for that write or
an earlier one count them off (R165, R212). -/
def flushed (p sn : Nat) (ls : List (Nat × Nat)) (s : State) : State :=
  let keep := fun (l : List (Nat × Nat × Nat × Nat)) => l.filter (fun q =>
    !(decide (q.1 = p ∧ q.2.1 = sn) && ls.any (fun r => decide (r.1 = q.2.2.1 ∧ q.2.2.2 ≤ r.2))))
  let s1 := match s.cache.flush with
    | none => s
    | some l => if keep l = [] then cmdEnd CCH_CMD_GO CCH_CMD_RES_STATUS CCH_CMD_RES_DONE .ok (updCache (fun t => { t with flush := none }) s)
        else updCache (fun t => { t with flush := some (keep l) }) s
  let s2 := updIo (fun i => { i with told := i.told.filter (fun q => !decide (keep [q.2] = [])),
                                     cmds := i.cmds.map (fun q => (q.1, { q.2 with wrote := keep q.2.wrote })) }) s1
  s2.io.cmds.foldl (fun t q =>
    if q.2.keys = [] then t
    else
      let l := keep q.2.keys
      let t1 := updCmd q.1 (fun y => { y with keys := l }) t
      if l = [] then partDone q.1 t1 else t1) s2

/-! ### State changes -/

/-- Atomic-log blocks of a plate for one group: its new data in volume order (R77, R162). -/
def logData (s : State) (p grp : Nat) : List Byte :=
  let es := ((plateEntries s p).filter (fun q => decide (q.2.seg.group = grp))).mergeSort (fun a b => decide (a.2.seg.lba ≤ b.2.seg.lba))
  blockBytes (es.flatMap (fun q => q.2.seg.wset.map (fun l => smGetD q.2.newData l [])))

/-- Write a group's data to the atomic log of each journal member of a plate (Sequence WRITE-2 step 3). -/
def writeLog (j : Nat) (s : State) : State :=
  match entryOf s j with
  | none => s
  | some e => match plateOf s e.seg.plate with
    | none => s
    | some x =>
      (jmembers x ++ (if x.jp.copying then [(x.jp.copyTo, x.jp.copyGen)] else [])).foldl (fun t m =>
        memberReq e.seg.plate m.1 0 0 .write (journalLba x + 0x610 + e.log.1) e.log.2 (logData s e.seg.plate e.seg.group) (fun _ => .log j m.1) t) s

/-- A new pair of a plate has one complete copy of what its UNBACKED entries need (R79): no Write of it is outstanding at one member. -/
def refillCheck (p : Nat) (s : State) : State :=
  match plateOf s p with
  | none => s
  | some x =>
    let busy := fun (m : Nat) => s.io.nvme.any (fun q => decide (q.2.plate = p ∧ q.2.mem = m) && (match q.2.why with
      | .record _ _ _ | .log _ _ | .header _ _ => true
      | _ => false))
    if x.jp.refill ∧ x.jp.hdrWait = 0 ∧ (jmembers x).any (fun m => !busy m.1) then updJp p (fun y => { y with refill := false }) s else s

/-- The headers of a new pair are written: the records of the plate's UNBACKED entries and the log blocks of its live groups follow
(R79). -/
def refillRecords (p : Nat) (s : State) : State :=
  match plateOf s p with
  | none => s
  | some x =>
    if !x.jp.refill then s
    else
      let es := (plateEntries s p).filter (fun q => q.2.unbacked)
      let s1 := ((es.map (fun q => q.1 / 32)).eraseDups).foldl (fun t b => writeRecords p b t) s
      let s2 := (es.filter (fun q => q.2.logged && decide (2 ≤ jstateCode (effState s q.2)))).foldl (fun t q =>
        (jmembers x).foldl (fun u m => logEntry m.1 x q.2 (.log q.1 m.1) u) t) s1
      refillCheck p s2

/-- An entry takes effect at DATA_STAGED (R51, R60, R70, R164). -/
def dataStaged (j : Nat) (s : State) : State :=
  match entryOf s j with
  | none => s
  | some e =>
    let s1 := setJState j .dataStaged s
    let direct := decide (e.path = .stream) || decide (e.path = .direct)
    let s2 := onlyIf direct (fun t => if e.seg.src = .lossFill then t else lostwDel e.seg.vol e.seg.lba e.seg.wset.length (supersede e t)) s1
    let s3 := if e.path = .stream then match lockOf s2 e.seg.plate e.seg.sn with
        | some l => putLock { l with staged := true } s2
        | none => s2
      else s2
    onlyIf (decide (e.path = .stream) && !e.unbacked) (complete j true) s3

/-- A CACHE entry commits (R60, R92, R139, R164). -/
def cacheCommit (j : Nat) (s : State) : State :=
  match entryOf s j with
  | none => s
  | some e =>
    complete j true (delLost e.seg.plate e.seg.sn e.seg.wset
      (lostwDel e.seg.vol e.seg.lba e.seg.wset.length (enterSlots e (setJState j .committed s))))

/-- The entries of a group. -/
def groupEntries (s : State) (grp : Nat) : List (Nat × JEntry) :=
  s.io.journal.filter (fun q => decide (q.2.seg.group = grp) && decide (grp ≠ 0))

/-! ### Member writes -/

/-- The member Writes of one position at one home (R68); where every block takes only a tag, the tags go at once. -/
def writeStrip (pos mem : Nat) (why : Purpose) (x : Plate) (e : JEntry) (s : State) : State :=
  let g := x.geom
  let row := g.rowOf e.seg.sn
  ((runsOf ((blkRange e.blkFirst e.blkLast).filter (fun b => !tagsOnly g e b)))).foldl (fun t r =>
    memberReq e.seg.plate mem e.seg.sn pos .write (g.mlba row r.1) r.2
      (blockBytes ((List.range r.2).map (fun i => (blockOf g e pos (r.1 + i)).data))) (fun _ => why) t) s

/-- Start the member writes of an entry (R68), or hold them for the link (R333). -/
def startWrites (j : Nat) (s : State) : State :=
  match entryOf s j with
  | none => s
  | some e => match plateOf s e.seg.plate with
    | none => s
    | some x =>
      if !linkGate s e 3 then updEntry j (fun y => { y with wrHeld := true }) s
      else
      let ps := e.dataMask.filter (fun pos => !decide (pos ∈ e.skipMask))
      let s0 := updEntry j (fun y => { y with wrOut := true }) s
      let s1 := ps.foldl (fun t pos =>
        let t1 := match x.homeOf e.seg.sn pos with
          | some m => writeStrip pos m (.strip j pos) x e t
          | none => t
        match oldHome x e.seg.sn pos with
          | some m => writeStrip pos m (.dual j pos) x e t1
          | none => t1) s0
      ps.foldl (fun t pos => stripDone j pos t) s1

/-- The record step of an entry falls due: its block of records is written to the journal members (R78). -/
def recordDue (j : Nat) (s : State) : State :=
  match entryOf s j with
  | some e => writeRecords e.seg.plate (j / 32) (updEntry j (fun y => { y with recStep := 1 }) s)
  | none => s

/-- The record steps that may go on: a group's head waits for every other record of the group, and member writes for
the head's record (R77, Sequence WRITE-2). -/
def recordsOn (j : Nat) (s : State) : State :=
  match entryOf s j with
  | none => s
  | some e =>
    if e.seg.group = 0 then startWrites j s
    else
      let grp := groupEntries s e.seg.group
      let others := grp.filter (fun q => decide (q.1 ≠ e.headIdx))
      match entryOf s e.headIdx with
      | none => s
      | some h =>
        if h.recStep = 3 then (if j = e.headIdx then grp.foldl (fun t q => startWrites q.1 t) s else s)
        else if h.recStep = 0 ∧ h.state = .parityDone ∧ others.all (fun q => decide (q.2.recStep = 3)) then recordDue e.headIdx s
        else s

/-- P and Q of an entry are in staging (Table WRITE-6): PARITY_DONE, then member writes, or the record step first in
unbacked mode. -/
def parityDone (j : Nat) (s : State) : State :=
  match entryOf s j with
  | none => s
  | some e => match plateOf s e.seg.plate with
    | none => s
    | some x =>
      let e1 := if e.forced then rebuildOld x.geom e else e
      let par := (blkRange e.blkFirst e.blkLast).foldl (fun m b =>
        let q := parityAt x.geom e1 b
        smSet (smSet m (gkey x.geom.k b) q.1) (gkey (x.geom.k + 1) b) q.2) []
      let s1 := setJState j .parityDone (updEntry j (fun y => { y with old := e1.old, parity := par }) s)
      if !e.unbacked then startWrites j s1
      else if e.seg.group ≠ 0 ∧ j = e.headIdx then recordsOn j s1
      else recordDue j s1

/-! ### The end of an entry -/

/-- Take an entry away: its lock, staging, log blocks, pipe job and slots (R48, R63, R136, R148). `done` says that it reached
COMMITTED. A CACHE entry's FILLING slots become FREE; a destage's slots become FREE or DIRTY again. -/
def releaseEntry (j : Nat) (done : Bool) (s : State) : State :=
  match entryOf s j with
  | none => s
  | some e =>
    let s0 := mirrorAs j e 0 s
    let s1 := dropJob (.entry j) (updIo (fun i => { i with
      journal := smDel i.journal j
      hreads := i.hreads.map (fun q => if q.2.why = .wdata j then (q.1, { q.2 with late := true }) else q) }) s0)
    let s2 := dropNv (fun c => match c.why with | .old i _ => decide (i = j) | _ => false) s1
    let s3 := e.slots.foldl (fun t q => match smGet t.cache.slots q.2 with
      | some y =>
        if e.path = .cache then (if y.state = .filling ∧ y.seq = e.seg.adm then dropSlot q.2 t else t)
        else if done then (if y.state = .destaging ∨ y.state = .retired then incFld CCH_DESTAGED_COUNT 1 (dropSlot q.2 t) else t)
        else if y.state = .destaging then updSlot q.2 (fun z => { z with state := .dirty }) t
        else if y.state = .retired then dropSlot q.2 t else t
      | none => t) s2
    let s4 := if !e.seg.maint then freeLock e.seg.plate e.seg.sn (pathMode e.path) s3
      else if s3.io.sops.any (fun q => decide (q.2.plate = e.seg.plate ∧ q.2.sn = e.seg.sn ∧ q.2.phase ≠ .lock)) ||
        s3.io.journal.any (fun q => decide (q.2.seg.plate = e.seg.plate ∧ q.2.seg.sn = e.seg.sn) && q.2.seg.maint) then s3
      else freeLock e.seg.plate e.seg.sn .maint s3
    let s5 := onlyIf (decide (e.seg.group ≠ 0) && decide (e.headIdx = j)) (updIo (fun i => { i with groups := smDel i.groups e.seg.group })) s4
    let s6 := if e.unbacked then writeRecords e.seg.plate (j / 32) s5 else s5
    -- R148: the journal members go with the first label update after the last UNBACKED entry of the plate
    onlyIf (e.unbacked && !unbackedNow s6 && !(plateEntries s6 e.seg.plate).any (fun q => q.2.unbacked))
      (fun t => startLabel e.seg.plate (updJp e.seg.plate (fun y => { y with a := none, b := none, dirty := [], copying := false, hdrWait := 0, refill := false }) t)) s6

/-- A segment whose old contents are lost ends with MEDIA_UNRECOVERED and no member write; a group that has not passed its
commit point ends whole. Sequence REBUILD-1 follows for the stripe (R65). A write of zeros of a resumed deletion (R220) is presented again. -/
def loseSegment (j : Nat) (s : State) : State :=
  match entryOf s j with
  | none => s
  | some e =>
    let all := if e.seg.group ≠ 0 then groupEntries s e.seg.group else [(j, e)]
    let whole := e.seg.group = 0 ∨ ¬ ((smGet s.io.groups e.seg.group).map Group.passed).getD false
    let out := if whole then all else [(j, e)]
    let queued := s.io.waitl.filterMap (fun i => match i with
      | .seg g => if whole ∧ e.seg.group ≠ 0 ∧ g.group = e.seg.group then some g else none
      | .sop _ => none)
    let later := s.io.queue.filter (fun g => decide (whole ∧ e.seg.group ≠ 0 ∧ g.group = e.seg.group))
    let s1 := keepWaits (fun w => match w with | .seg g => !decide (g ∈ queued) | .sop _ => true)
      (updIo (fun i => { i with queue := i.queue.filter (fun g => !decide (g ∈ later)) }) s)
    let s2 := out.foldl (fun t q => failAt q.2.seg.cmd q.2.seg.lba .mediaUnrecovered t) s1
    let s3 := (queued ++ later).foldl (fun t g => partDone g.cmd (failAt g.cmd g.lba .mediaUnrecovered t)) s2
    let own := (out.map (fun q => q.2.seg)).filter (fun g => decide (g.cmd = 0 ∧ g.src = .host))
    let s4 := updIo (fun i => { i with queue := i.queue ++ own }) (out.foldl (fun t q => releaseEntry q.1 false (complete q.1 false t)) s3)
    newSop .loss e.seg.plate e.seg.sn e.blkFirst e.blkLast 0 s4

end Sys2Proof.Machine
end

