-- ==== Sys2Proof/Machine/ReadOps.lean ====
section
/-! DEFINITION. Serving blocks of a read (Table REBUILD-1, R51, R84, R85, R123, R127) and ending stripe operations:
degraded reads and their repairs (R88, R89, R127), the loss of blocks (Sequence REBUILD-1) and rebuild writes. -/

namespace Sys2Proof.Machine
open Reg

/-! ### Serving blocks -/

/-- Volume and block that block `off` of a command reads; COPY reads its source range (R215). -/
def cmdSrc (x : Cmd) (off : Nat) : Nat × Nat :=
  if enOp x.raw = 9 then (enAux2 x.raw, enAux x.raw + off) else (enVol x.raw, enLba x.raw + off)

/-- A block of a command has been read (R199, R213 to R215, Table TENANT-4). -/
def deliver (n off : Nat) (b : Block) (s : State) : State :=
  match cmdOf s n with
  | none => s
  | some x =>
    let s1 := updCmd n (fun y => { y with rdBlks := y.rdBlks + 1 }) s
    if enOp x.raw = 1 then toHost n (4096 * off) (slice b 0 4096) s1
    else if enOp x.raw = 6 ∨ enOp x.raw = 9 then updCmd n (fun y => { y with got := smSet y.got off b }) s1
    else s1

/-- A block of a command has failed (R208). -/
def failRead (n off : Nat) (st : Status) (s : State) : State :=
  match cmdOf s n with
  | some x => failAt n (enLba x.raw + off) st s
  | none => s

/-- Where a block of a read comes from. -/
inductive Src where
  | fail (st : Status)
  | bytes (b : Block)
  | staged (p sn : Nat) (b : Block)
  | wait
  | recon (p sn pos blk : Nat)
  | member (p sn pos mem blk : Nat)
  deriving DecidableEq, Repr

/-- The entry in staging that holds the latest data of a block: STREAM and DIRECT entries that have taken effect, by effective state, and are
not COMMITTED themselves, so that the members may not hold the data yet (R51, R57, R70). -/
def stagedFor (s : State) (p sn lin : Nat) : Option JEntry :=
  ((s.io.journal.filter (fun q => decide (q.2.seg.plate = p ∧ q.2.seg.sn = sn ∧ lin ∈ q.2.seg.wset) &&
      (decide (q.2.path = .stream) || decide (q.2.path = .direct)) &&
      decide (q.2.state ≠ .committed) && decide (2 ≤ jstateCode (effState s q.2)))).map Prod.snd).foldl
    (fun a e => match a with
      | none => some e
      | some b => if b.seg.adm < e.seg.adm then some e else some b) none

/-- A located repair under way whose copy serves reads (R123). -/
def repairCopy (s : State) (p sn pos blk : Nat) : Option Block :=
  (s.io.sops.find? (fun q => decide (q.2.plate = p ∧ q.2.sn = sn ∧ gkey pos blk ∈ q.2.located) &&
      (decide (q.2.phase = .writing) || decide (q.2.phase = .listing)))).bind
    (fun q => (smGet q.2.grid (gkey pos blk)).map TBlk.data)

/-- The first row of Table REBUILD-1 that applies to one block. -/
def sourceOf (s : State) (vol lba : Nat) : Src :=
  match blockAt s vol lba with
  | (p, sn, lin, refuse) =>
    match refuse, plateOf s p with
    | some st, _ => .fail st
    | none, none => .fail .stateConflict
    | none, some x =>
      let pos := lin / x.geom.bps
      let blk := lin % x.geom.bps
      if plateFenced s p || devFenced s then .fail .fenced
      else if !x.served then .fail .stateConflict
      else if lostwHas s vol lba then .fail .lostWrite
      else if x.lost sn pos blk then .fail .mediaUnrecovered
      else match currentSlot s p sn lin with
        | some q => .bytes (if q.2.zero then [] else slotData s q.1 q.2)
        | none => match stagedFor s p sn lin with
          | some e => if isSet s ADM_CFG_STAGE_READ_EN ∧ pinFree s p sn = true then .staged p sn (if lin ∈ e.zeros then [] else smGetD e.newData lin [])
            else .wait
          | none => match repairCopy s p sn pos blk with
            | some b => if pinFree s p sn then .staged p sn b else .wait
            | none =>
              if x.erasedPos sn pos then .recon p sn pos blk
              else match x.homeOf sn pos with
                | some m => .member p sn pos m blk
                | none => .recon p sn pos blk

/-- Join a block's source to the run after it. -/
def joinSrc (a b : Src) : Bool :=
  match a, b with
  | .recon p sn pos blk, .recon p1 sn1 pos1 blk1 => decide (p1 = p ∧ sn1 = sn ∧ pos1 = pos ∧ blk1 = blk + 1)
  | .member p sn pos m blk, .member p1 sn1 pos1 m1 blk1 => decide (p1 = p ∧ sn1 = sn ∧ pos1 = pos ∧ m1 = m ∧ blk1 = blk + 1)
  | _, _ => false

/-- Runs of blocks of a command with one source: (offset, source of the first, length). -/
def srcRuns : List (Nat × Src) → List (Nat × Src × Nat)
  | [] => []
  | (o, a) :: rest => match srcRuns rest with
    | (o1, b, n) :: more => if o1 = o + 1 ∧ joinSrc a b then (o, a, n + 1) :: more else (o, a, 1) :: (o1, b, n) :: more
    | [] => [(o, a, 1)]

/-- A read of a command may take data of a stripe from staging: a pin is free for it, or it has one (R47, R51). -/
def mayPin (s : State) (n p sn : Nat) : Bool := pinFree s p sn || s.io.pins.any (fun q => decide (q.1 = n ∧ q.2.2.2 = (p, sn)))

/-- Deliver a block from staging. The stripe stays pinned through READERS, once for the read, until the bytes are sent (R51): they are sent at once
unless the function is stopped and the write of them is held. -/
def deliverStaged (n off p sn : Nat) (b : Block) (s : State) : State :=
  let s1 := deliver n off b s
  match cmdOf s n with
  | none => s1
  | some x =>
    let port := ctxPort s x.ctx
    let func := ctxFunc s x.ctx
    if (fnOf s1 port func).held.length ≤ (fnOf s port func).held.length ∨ (n, port, func, p, sn) ∈ s1.io.pins then s1
    else updIo (fun i => { i with pins := i.pins ++ [(n, port, func, p, sn)] }) (pinStripe p sn true s1)

/-- A block that waits for its staging entry to be freed, or for a pin, is a part that its command waits for (R51). -/
def deferBlock (n off : Nat) (s : State) : State := addParts n 1 (updCmd n (fun y => { y with defer := y.defer ++ [off] }) s)

/-- Serve blocks of a command; what cannot be served at once becomes a part that the command waits for. -/
def serveBlocks (n : Nat) (offs : List Nat) (s : State) : State :=
  match cmdOf s n with
  | none => s
  | some x =>
    (srcRuns (offs.map (fun o => (o, sourceOf s (cmdSrc x o).1 (cmdSrc x o).2)))).foldl (fun t r =>
      match r with
      | (o, .fail st, _) => failRead n o st t
      | (o, .bytes b, _) => deliver n o b t
      | (o, .staged p sn b, _) => deliverStaged n o p sn b t
      | (o, .wait, _) => deferBlock n o t
      | (o, .recon p sn _ blk, k) => newSop (.recon n o) p sn blk (blk + k - 1) 0 (addParts n 1 t)
      | (o, .member p sn pos m blk, k) => match plateOf t p with
        | some _ => readPos p sn pos m (blkRange blk (blk + k - 1)) (fun q => .cmdRd n (o + q)) (addParts n (reqCount t p m k) t)
        | none => t) s

/-- Serve blocks as one part of the command that ends once they are started. -/
def readPart (n : Nat) (offs : List Nat) (s : State) : State := partDone n (serveBlocks n offs (addParts n 1 s))

/-- Blocks that waited for a staging entry to be freed (R51) are served again. -/
def resumeDeferred (s : State) : State :=
  s.io.cmds.foldl (fun t q =>
    if q.2.defer = [] then t
    else
      let t1 := updCmd q.1 (fun y => { y with defer := [], waits := y.waits - q.2.defer.length + 1 }) t
      partDone q.1 (serveBlocks q.1 q.2.defer t1)) s

/-- The held writes of a function are sent or dropped: its pins go, and reads that waited for one are served (R51). -/
def unpinFn (port func : Nat) (s : State) : State :=
  let mine := s.io.pins.filter (fun q => decide (q.2.1 = port ∧ q.2.2.1 = func))
  if mine = [] then s
  else resumeDeferred (mine.foldl (fun t q => pinStripe q.2.2.2.1 q.2.2.2.2 false t)
    (updIo (fun i => { i with pins := i.pins.filter (fun q => !decide (q.2.1 = port ∧ q.2.2.1 = func)) }) s))

/-- The answer of a command's member read: each block is checked against its tag (R85); blocks that fail are reconstructed
(R88). A block whose located repair has been decided meanwhile comes from the repaired copy (R123). -/
def memberAnswer (c : NvCmd) (n off : Nat) (blks : List TBlk) (s : State) : State :=
  match plateOf s c.plate with
  | none => s
  | some x =>
    let b0 := c.lba - x.geom.mlba (x.geom.rowOf c.sn) 0
    let good := fun i => (repairCopy s c.plate c.sn c.pos (b0 + i)).isSome || ((blks[i]?).map (tagOk x.geom.k c.pos)).getD false
    let bad := (List.range c.n).filter (fun i => !good i)
    let s1 := ((List.range c.n).filter good).foldl (fun t i => match repairCopy s c.plate c.sn c.pos (b0 + i) with
      | some b => if mayPin t n c.plate c.sn then deliverStaged n (off + i) c.plate c.sn b t else deferBlock n (off + i) t
      | none => deliver n (off + i) (((blks[i]?).map effective).getD []) t) s
    let s2 := onlyIf (decide (bad ≠ [])) (incFld (PLT_TAGERR_COUNT c.plate) bad.length) s1
    let s3 := (runsOf bad).foldl (fun t r => newSop (.recon n (off + r.1)) c.plate c.sn (b0 + r.1) (b0 + r.1 + r.2 - 1) 0 (addParts n 1 t)) s2
    partDone n s3

/-! ### The end of a stripe operation -/

/-- Put a pipe's work into its counters (R82, Table TENANT-4). `maint` is the maintenance class; other work is charged to a
context. -/
def pipeBytes (b n : Nat) (maint : Bool) (ctx : Option Nat) (s : State) : State :=
  let s1 := add64 (BUR_BYTES_LO_COUNT b) (BUR_BYTES_HI_COUNT b) n s
  if maint then add64 (BUR_MAINT_LO_COUNT b) (BUR_MAINT_HI_COUNT b) n (onlyIf (!fenced s 0x101) (add64 MTR_MAINT_LO_COUNT MTR_MAINT_HI_COUNT n) s1)
  else match ctx with
    | some c => if metering s1 c then add64 (CTX_PAR_LO_COUNT c) (CTX_PAR_HI_COUNT c) n s1 else s1
    | none => s1

/-- The Graver channels of a stripe operation's user (Table MOVER-1). -/
def graverCs : SopKind → List Nat
  | .rebuild => [0, 1, 2, 3, 4, 5]
  | .recon _ _ => [6, 7]
  | .proof => [6, 7]
  | .loss => []

/-- Rewrite blocks of a stripe operation, given as grid keys, at a member per position; the grid holds what they are to
hold (R32, R68, R69, R89). The Graver moves them on the channels of their user (Table MOVER-1). -/
def sopWrite (id : Nat) (keys : List Nat) (home : Nat → Option Nat) (s : State) : State :=
  match sopOf s id with
  | none => s
  | some o => match plateOf s o.plate with
    | none => s
    | some x =>
      let at_ := fun pos b => (smGet o.grid (gkey pos b)).getD { data := [], tag := 0 }
      ((keys.map (· / 256)).eraseDups).foldl (fun t pos => match home pos with
        | none => t
        | some m =>
          let bs := ((keys.filter (fun k => decide (k / 256 = pos))).map (· % 256)).mergeSort (fun a b => decide (a ≤ b))
          (runsOf bs).foldl (fun u r => memberReq o.plate m o.sn pos .write (x.geom.mlba (x.geom.rowOf o.sn) r.1) r.2
            (blockBytes ((List.range r.2).map (fun i => (at_ pos (r.1 + i)).data))) (fun _ => .sopWr id pos) u) t)
        (if keys = [] then s else graverMoved (graverCs o.kind) (4096 * keys.length) s)

/-- The Writes of one position are complete: its tags are written (R69). -/
def sopTags (id pos : Nat) (mem : Nat) (s : State) : State :=
  match sopOf s id with
  | none => s
  | some o => match plateOf s o.plate with
    | none => s
    | some x =>
      let bs := ((o.fix.filter (fun k => decide (k / 256 = pos))).map (· % 256)).mergeSort (fun a b => decide (a ≤ b))
      (runsOf bs).foldl (fun t r => tagDue o.plate mem (x.geom.rowOf o.sn) r.1
        ((List.range r.2).map (fun i => ((smGet o.grid (gkey pos (r.1 + i))).map TBlk.tag).getD 0)) (false, id, pos) t) s

/-- A member Write of a stripe operation is complete. -/
def sopWrote (id pos mem : Nat) (s : State) : State :=
  if s.io.nvme.any (fun q => decide (q.2.why = .sopWr id pos)) then s else sopCheck id (sopTags id pos mem s)

/-- Blocks found lost at offsets of a stripe (R90): steps 1 and 2 of Sequence REBUILD-1. Steps 3 and 4 follow at the offsets all of whose new
entries the table had room for (R91). -/
def loseBlocks (id : Nat) (s : State) : State :=
  match sopOf s id with
  | none => s
  | some o => match plateOf s o.plate with
    | none => s
    | some x =>
      let ls := o.lost.flatMap (fun b => ((List.range x.geom.k).filter (fun pos => decide (gkey pos b ∈ o.erased) && !x.lost o.sn pos b)).map (fun pos => (pos, b)))
      if ls = [] then updSop id (fun y => { y with lost := [] }) s
      else
        let s1 := (addLost o.plate o.sn ls s).1
        let out := (addLost o.plate o.sn ls s).2
        let offs := o.lost.filter (fun b => ls.any (fun q => decide (q.2 = b)) && !out.any (fun q => decide (q.2 = b)))
        if out.length < ls.length then writeLbt o.plate (updSop id (fun y => { y with phase := .listing, lost := offs }) s1)
        else updSop id (fun y => { y with lost := [] }) s1

/-- The DIRECT entries with ZEROING of Sequence REBUILD-1 step 3, one for each run of block offsets that lost the same data
positions; they are presented to the admission unit under the MAINT lock held (R468). -/
def lossSegs (x : Plate) (o : Sop) : List Seg :=
  let at_ := fun b => (List.range x.geom.k).filter (fun pos => decide (gkey pos b ∈ o.erased))
  (o.lost.map (fun b => (b, at_ b))).map (fun q =>
    let v := (firstBlock x o.sn (q.2.map (fun pos => pos * x.geom.bps + q.1))).getD (0, 0)
    { src := .lossFill, cmd := 0, group := 0, head := false, gBlks := q.2.length, pBlks := q.2.length, gWhole := false, vol := v.1, lba := v.2,
      plate := o.plate, sn := o.sn, wset := q.2.map (fun pos => pos * x.geom.bps + q.1), zero := true, dealloc := false, refuse := none,
      data := [], maint := true, adm := 0 })

/-- A surviving data block's own tag, kept even where the block fails its check (R127). -/
def ownTag (o : Sop) (key : Nat) : Option Nat := (smGet o.grid key).map TBlk.tag

/-- R127 at one block offset: the first candidate whose CRC matches the erased block's own tag. -/
def suspectRead (k : Nat) (o : Sop) (er : List Nat) (blk pos : Nat) : Option Block :=
  let cl := column k o.grid er blk
  let ds := colData k cl
  let edata := (colErased k cl).filter (· < k)
  let fits := fun (p : Nat) (b : Block) => match ownTag o (gkey p blk) with
    | some t => decide (tagType t = tyData) && decide (tagCrc t = crc32c (slice b 0 4096))
    | none => false
  match edata with
  | [x] =>
    let a := ((cl[k]?).join).map (fun pb => xorBlk pb (parityP ds))
    let b := ((cl[k + 1]?).join).map (fun qb => (xorBlk qb (parityQ ds)).map (gdiv x))
    if x ≠ pos then none else ([a, b].filterMap id).find? (fits x)
  | [_, _] => match recoverData k cl with
    | some rs => if edata.all (fun p => fits p ((rs[p]?).getD [])) then rs[pos]? else none
    | none => none
  | _ => none

/-- Verdict of a degraded read at one block offset. -/
inductive ReconV where
  | ok (b : Block)
  | lost
  | badQ
  | fail
  deriving DecidableEq, Repr

/-- What a degraded read returns for a position's block (R86 to R88, R90, R127). -/
def reconAt (s : State) (x : Plate) (o : Sop) (er : List Nat) (blk pos : Nat) : ReconV :=
  let k := x.geom.k
  let cl := column k o.grid er blk
  match (cl[pos]?).join with
  | some b => .ok b
  | none =>
    if inSuspect s o.plate o.sn blk then (match suspectRead k o er blk pos with | some b => .ok b | none => .fail)
    else
      let n := (colErased k cl).length
      if 2 < n then .lost
      else match recoverData k cl with
        | none => .lost
        | some ds =>
          if n = 1 ∧ (cl[k + 1]?).join.isSome ∧ trimBlock (((cl[k + 1]?).join).getD []) ≠ trimBlock (parityQ ds) then .badQ
          else .ok ((ds[pos]?).getD [])

/-- Put rebuilt blocks into a grid: keys with the data and tag they are written with (R32). -/
def fixGrid (k : Nat) (grid : SMap TBlk) (er keys : List Nat) : SMap TBlk :=
  keys.foldl (fun m key =>
    match recoverCol k (column k grid er (key % 256)) with
    | some cl =>
      let d := (cl[key / 256]?).getD []
      smSet m key { data := d, tag := rewriteTag k grid er (key % 256) (key / 256) d }
    | none => m) grid

/-- P and Q are written together at an offset where a GEN row has erased one of them and a syndrome is written (R87): the keys with those of
the syndromes that their members can take. -/
def withSyn (x : Plate) (o : Sop) (er keys : List Nat) : List Nat :=
  let k := x.geom.k
  let offs := ((keys.filter (fun key => decide (k ≤ key / 256))).map (· % 256)).eraseDups
  let stale := fun (b : Nat) => [gkey k b, gkey (k + 1) b].any (fun key => decide (key ∈ er) && !decide (key ∈ o.erased))
  let takes := fun (key : Nat) => !x.erasedPos o.sn (key / 256) && (!decide (key ∈ o.erased) || decide (key ∈ o.tagBad))
  (keys ++ (offs.filter stale).flatMap (fun b => [gkey k b, gkey (k + 1) b].filter takes)).eraseDups

/-- The blocks of an operation that R89 repairs: erased by a read error or a tag failure at a member that has not failed, at
offsets that could be rebuilt. -/
def repairKeys (x : Plate) (o : Sop) (er : List Nat) (okBlks : List Nat) : List Nat :=
  withSyn x o er (o.tagBad.filter (fun key => decide (key % 256 ∈ okBlks) && !x.erasedPos o.sn (key / 256)))

/-- Those of them that failed their tag (R214): a block that could not be read is not in the grid. -/
def tagFailed (o : Sop) : List Nat := o.tagBad.filter (fun key => (smGet o.grid key).isSome)

/-- The pipe has finished a degraded read: blocks go to the host, repairs are written, losses are entered (R88 to R90). -/
def reconDone (id cmd off : Nat) (s : State) : State :=
  match sopOf s id with
  | none => s
  | some o => match plateOf s o.plate with
    | none => s
    | some x =>
      let k := x.geom.k
      let blks := blkRange o.first o.last
      let er := applyGen k o.grid blks o.erased
      let pos := match cmdOf s cmd with
        | some y => (blockAt s (cmdSrc y off).1 (cmdSrc y off).2).2.2.1 / x.geom.bps
        | none => 0
      let vs := blks.map (fun b => (b, reconAt s x o er b pos))
      let verify := ((cmdOf s cmd).map (fun y => decide (enOp y.raw = 7))).getD false
      let s1 := vs.foldl (fun t v => match v.2 with
        | .ok d => deliver cmd (off + (v.1 - o.first)) d (incFld (PLT_RECON_COUNT o.plate) 1 t)
        | .badQ => failRead cmd (off + (v.1 - o.first)) .mediaUnrecovered (addSuspect o.plate o.sn v.1 v.1 2 t)
        | _ => failRead cmd (off + (v.1 - o.first)) .mediaUnrecovered t) s
      let okB := (vs.filter (fun v => match v.2 with | .ok _ => true | _ => false)).map Prod.fst
      let failed := okB.filter (fun b => decide (gkey pos b ∈ tagFailed o))
      let s2 := onlyIf verify (updCmd cmd (fun y => { y with fixed := y.fixed + failed.length })) s1
      let clean := okB.filter (fun b => !inSuspect s o.plate o.sn b || decide (gkey pos b ∈ o.tagBad))
      let keys := if isSet s (PLT_CFG_READ_REPAIR o.plate) then repairKeys x o er clean
        else if verify then repairKeys x { o with tagBad := tagFailed o } er clean else []
      let lost := (vs.filter (fun v => decide (v.2 = .lost))).map Prod.fst
      let grid := vs.foldl (fun m v => match v.2 with
        | .ok d => if inSuspect s o.plate o.sn v.1 ∧ gkey pos v.1 ∈ keys then
            smSet m (gkey pos v.1) { data := d, tag := (ownTag o (gkey pos v.1)).getD (tagFor d 0 tyData) } else m
        | _ => m) (fixGrid k o.grid er keys)
      let s3 := updSop id (fun y => { y with phase := .writing, erased := er, fix := keys, grid := grid, lost := lost }) s2
      let s4 := onlyIf (decide (keys ≠ [])) (fun t => plEvt o.plate PLT_EVT_REPAIR 1 (incFld (PLT_REPAIRED_COUNT o.plate) keys.length t)) s3
      let s5 := sopWrite id keys (x.homeOf o.sn) s4
      partDone cmd (sopCheck id (loseBlocks id s5))

/-- The reads of Sequence REBUILD-1 for a lost segment (R65) are in: offsets with more than two erasures are entered. -/
def lossDone (id : Nat) (s : State) : State :=
  match sopOf s id with
  | none => s
  | some o => match plateOf s o.plate with
    | none => s
    | some x =>
      let blks := blkRange o.first o.last
      let er := applyGen x.geom.k o.grid blks o.erased
      sopCheck id (loseBlocks id (updSop id (fun y => { y with phase := .writing, erased := er, lost := overErased x.geom blks er }) s))

/-- A rebuild step's reads are in (Sequence REBUILD-2 steps 3 and 4): rebuilt and copied strips are written to their new homes;
survivors are repaired (R89); lost offsets are entered (R90). Where only the moving positions were read and a row of Table REBUILD-2 erases
one of their blocks, the step reads every survivor. -/
def rebuildDone (id : Nat) (s : State) : State :=
  match sopOf s id with
  | none => s
  | some o => match plateOf s o.plate with
    | none => s
    | some x =>
      let k := x.geom.k
      let mv := moving x o.sn
      let partial_ := !(livePositions x o.sn).all (fun pos => decide (pos ∈ o.want))
      let blks := blkRange o.first o.last
      let er := applyGen k o.grid blks o.erased
      if partial_ ∧ (o.tagBad ≠ [] ∨ er ≠ o.erased ∨ !mv.all (fun q => decide (q.1 ∈ o.want))) then restartSop id (updSop id (fun y => { y with full := true }) s)
      else
        let lost := if partial_ then [] else overErased x.geom blks er
        let okB := blks.filter (fun b => !decide (b ∈ lost))
        let mkeys := mv.flatMap (fun q => (blks.filter (fun b => !decide (b ∈ lost) || !decide (gkey q.1 b ∈ er))).map (gkey q.1))
        let rep := if isSet s (PLT_CFG_READ_REPAIR o.plate) then (repairKeys x o er okB).filter (fun key => !decide (key ∈ mkeys)) else []
        let keys := withSyn x o er (mkeys ++ rep)
        let grid := fixGrid k o.grid er (keys.filter (fun key => decide (key ∈ er)))
        let s1 := updSop id (fun y => { y with phase := .writing, erased := er, fix := keys, grid := grid, lost := lost }) s
        let s2 := onlyIf (decide (rep ≠ [])) (fun t => plEvt o.plate PLT_EVT_REPAIR 1 (incFld (PLT_REPAIRED_COUNT o.plate) rep.length t)) s1
        let home := fun pos => match mv.find? (fun q => decide (q.1 = pos)) with
          | some q => some q.2
          | none => x.homeOf o.sn pos
        loseBlocks id (sopWrite id keys home s2)

end Sys2Proof.Machine
end

