-- ==== Sys2Proof/Machine/Rings.lean ====
section
/-! DEFINITION. Unmal rings: doorbells (R205), submission fetches (R204, R239), entries received (R206, R236)
and the ring states (R223 to R227). -/

namespace Sys2Proof.Machine
open Reg

/-! ### Doorbells -/

/-- The doorbell page at which a window reaches a context (R197): a PF reaches the contexts bound to it, and
counts writes for unbound ones; a VF reaches its own. -/
def dbReaches (s : State) (w : Win) (c : Nat) : Bool :=
  match w with
  | .pf p => !isSet s (CTX_BIND_VALID c) || (decide (ctxPort s c = p) && decide (ctxFunc s c = 0))
  | .vf p f => isSet s (CTX_BIND_VALID c) && decide (ctxPort s c = p) && decide (ctxFunc s c = f) && decide (f ≠ 0)
  | .core _ => false

/-- The doorbells of a context in this state are applied (R205, R224). -/
def dbOpen (s : State) (c : Nat) : Bool := decide (ctxState s c ∈ [2, 3, 4])

/-- A write of the submission tail doorbell: the entries from the head up to it are visible, each since its own time. -/
def sqTail (c v : Nat) (s : State) : State :=
  if sqSize s c ≤ v then ringError c 1 (v % 2 ^ 16) s
  else
    let old := getFld s (CTX_SQ_IDX_TAIL c)
    let n := (v + sqSize s c - old) % sqSize s c
    updCtx c (fun x => { x with vis := (x.vis ++ List.replicate n (devTime s)).take ((v + sqSize s c - getFld s (CTX_SQ_IDX_HEAD c)) % sqSize s c) })
      (setFld (CTX_SQ_IDX_TAIL c) v s)

/-- A write of the completion head doorbell (Table RING-4, causes 2 and 3). -/
def cqHead (c v : Nat) (s : State) : State :=
  let old := getFld s (CTX_CQ_IDX_HEAD c)
  let tail := getFld s (CTX_CQ_IDX_TAIL c)
  if cqSize s c ≤ v then ringError c 2 (v % 2 ^ 16) s
  else if (tail + cqSize s c - old) % cqSize s c < (v + cqSize s c - old) % cqSize s c then ringError c 3 v s
  else
    let s1 := setFld (CTX_CQ_IDX_HEAD c) v s
    if v = tail then updCtx c (fun x => { x with unsig := 0 }) s1 else s1

/-- A doorbell write: of 4 bytes, reaching the context, in a state whose doorbells are applied (R197, R205). -/
def doorbell (w : Win) (c size : Nat) (f : State → State) (s : State) : State :=
  if !winOpen s w then s
  else if winOff s w then winLog w .unsupportedSent s
  else if !dbReaches s w c then s
  else if size ≠ 4 ∨ !dbOpen s c then discardDb c s
  else f s

/-! ### Fetching (R204, R239) -/

/-- Commands and posted entries that hold completion slots, fetches in flight included (R204). -/
def slotsHeld (s : State) (c : Nat) : Nat :=
  getFld s (CTX_OUT_OUTSTANDING c) + (ctxOf s c).fetching +
    (getFld s (CTX_CQ_IDX_TAIL c) + cqSize s c - getFld s (CTX_CQ_IDX_HEAD c)) % cqSize s c

/-- The conditions of R204 other than the scheduler's release. -/
def fetchable (s : State) (c : Nat) : Bool :=
  decide (ctxState s c = 2) && (devReady s || (ctxAdmin s c && devFenced s)) && decide ((ctxOf s c).fetching < (ctxOf s c).vis.length) &&
    decide (slotsHeld s c < cqSize s c - 1) && !fenced s (0x1000 + c) && fnLive s (ctxPort s c) (ctxFunc s c)

/-- A context's signed credit (R237). -/
def credit (s : State) (c : Nat) : Int :=
  let v := getFld s (CTX_CREDIT_CREDIT c)
  if v < 2 ^ 23 then (v : Int) else (v : Int) - 2 ^ 24

def setCredit (c : Nat) (v : Int) (s : State) : State := setFld (CTX_CREDIT_CREDIT c) ((v % (2 ^ 24 : Int)).toNat) s

/-- The order of release among contexts: class, then age of the oldest entry, then number (R239). -/
def releaseBefore (s : State) (a b : Nat) : Bool :=
  let ta := ((ctxOf s a).vis[(ctxOf s a).fetching]?).getD 0
  let tb := ((ctxOf s b).vis[(ctxOf s b).fetching]?).getD 0
  decide (classOf s a < classOf s b) ||
    (decide (classOf s a = classOf s b) && (decide (ta < tb) || (decide (ta = tb) && decide (a < b))))

/-- The I/O context the scheduler releases (R239): only contexts with entries can be released. -/
def released (s : State) : Option Nat :=
  ((s.io.ctxs.map Prod.fst).filter (fun c => fetchable s c && !ctxAdmin s c && decide (0 < credit s c))).foldl
    (fun a c => match a with
      | none => some c
      | some b => if releaseBefore s c b then some c else some b) none

/-- The scheduler releases this context now (R236, R239, Table TENANT-10). -/
def releases (s : State) (c : Nat) : Bool :=
  enabled s 0x100 && fetchable s c &&
    (ctxAdmin s c || (!fenced s 0x100 && decide (released s = some c)))

/-- Fetch the entry at the ring's head, or after the fetches in flight. -/
def fetchEntry (c : Nat) (s : State) : State :=
  let idx := (getFld s (CTX_SQ_IDX_HEAD c) + (ctxOf s c).fetching) % sqSize s c
  hostRead (ctxPort s c) (ctxFunc s c) (sqBase s c + 64 * idx) 64 (.entry c idx)
    (updCtx c (fun x => { x with fetching := x.fetching + 1 }) s)

/-! ### Entries received (R206, R236) -/

/-- An attachment of a volume to a function (R220): whether it is read-only. -/
def attachedRo (v : Vol) (port func : Nat) : Option Bool :=
  v.attach.findSome? (fun a => match a with
    | some (p, f, ro) => if p = port ∧ f = func then some ro else none
    | none => none)

def volOf (s : State) (v : Nat) : Option Vol := smGet s.store.vols v

/-- Rows 1 to 7 of Table RING-5: the status and DETAIL that end the command. BLOCK_CMD needs the rights of the page it names (R416). -/
def checkEntry (s : State) (c : Nat) (r : List Byte) : Option (Status × Nat) :=
  let op := enOp r
  let adm := ctxAdmin s c
  let defined := if adm then isAdminOp op else decide (1 ≤ op ∧ op ≤ 9)
  let role := if ctxFunc s c = 0 then getFld s (sessFld (ctxPort s c)) else 0
  if !defined then some (.invalidOpcode, 0)
  else if adm && (decide (role < entryRole r) || (decide (op = 0x88) && cmdPage (enCdw r) && !rightsWrite s role (enCdw r))) then some (.roleDenied, 0)
  else match reservedBad r with
  | some o => some (.invalidField, o)
  | none =>
    match (if adm then adminFieldBad r else ioFieldBad r) with
    | some o => some (.invalidField, o)
    | none =>
      if adm then
        if op ∈ [0x80, 0x82, 0x83, 0x84, 0x85] ∧ (volOf s (enVol r)).isNone then some (.invalidField, 4) else none
      else match volOf s (enVol r) with
      | none => some (.invalidField, 4)
      | some v =>
        match attachedRo v (ctxPort s c) (ctxFunc s c) with
        | none => some (.invalidField, 4)
        | some ro =>
          if isWriteOp op && ro then some (.roleDenied, 4)
          else if v.extents * 262144 < enLba r + enBlocks r then some (.lbaRange, 8)
          else none

/-- The cost of an I/O command in units (Table TENANT-2). -/
def costOf (r : List Byte) : Nat :=
  let op := enOp r
  if op ∈ [1, 2, 6] then enBlocks r
  else if op = 7 then (enBlocks r + 7) / 8
  else if op ∈ [4, 5, 8, 9] then (enBlocks r + 31) / 32
  else 1

/-- Charge a context (R236); admin contexts are never charged. -/
def charge (c n : Nat) (s : State) : State := if ctxAdmin s c then s else setCredit c (credit s c - n) s

/-- A command that ends under rows 8 or 9 of Table RING-5 costs 1, as any that Table RING-5 ends (Table TENANT-2). -/
def chargeOne (x : Cmd) (s : State) : State := if ctxAdmin s x.ctx then s else setCredit x.ctx (credit s x.ctx + costOf x.raw - 1) s

/-- What a FLUSH waits for: the blocks of its volume whose writes had their completion posted and that are not on the members (R212). -/
def flushKeys (s : State) (vol : Nat) : List (Nat × Nat × Nat × Nat) :=
  (s.io.told.filter (fun q => decide (q.1 = vol))).map Prod.snd

/-- Checks of a COPY's source (R215). -/
def copyBad (s : State) (c : Nat) (r : List Byte) : Option (Status × Nat) :=
  match volOf s (enAux2 r) with
  | none => some (.invalidField, 0x30)
  | some v =>
    if (attachedRo v (ctxPort s c) (ctxFunc s c)).isNone then some (.invalidField, 0x30)
    else if v.extents * 262144 < enAux r + enBlocks r then some (.lbaRange, 0x28)
    else none

/-- Consume a fetched entry: the head advances, the command holds its slot, is charged and checked (R204,
R206, R236). A scatter list is read before the command is presented (R199). A FLUSH takes the writes whose completions are posted by now
(R212). -/
def consume (c : Nat) (r : List Byte) (s : State) : State :=
  let head := getFld s (CTX_SQ_IDX_HEAD c)
  let n := s.io.nextCmd
  let chk := checkEntry s c r
  let op := enOp r
  let x : Cmd :=
  { ctx := c, raw := r, role := (if ctxFunc s c = 0 then getFld s (sessFld (ctxPort s c)) else 0),
    since := ((ctxOf s c).vis.head?).getD 0, phase := (if chk.isNone ∧ enFlags r % 2 = 1 then .sgl else .presented),
    bufs := [(enDptr r, ioDataLen r)], fail := none, detail := 0, result := 0, todo := enBlocks r, waits := 0, rdBlks := 0,
    wrBlks := 0, got := [], host := [], fixed := 0, keys := (if chk.isNone ∧ op = 3 ∧ !ctxAdmin s c then flushKeys s (enVol r) else []), defer := [], tries := 0,
    srcBad := (if chk.isNone ∧ op = 9 ∧ !ctxAdmin s c then copyBad s c r else none) }
  let s1 := incFld (CTX_OUT_OUTSTANDING c) 1 (setFld (CTX_SQ_IDX_HEAD c) ((head + 1) % sqSize s c) s)
  let s2 := updCtx c (fun y => { y with vis := y.vis.tail }) s1
  let s3 := updIo (fun i => { i with cmds := smSet i.cmds n x, nextCmd := n + 1 }) s2
  let s4 := charge c (if chk.isNone then costOf r else 1) s3
  match chk with
  | some (st, d) => endCmd n st d 0 s4
  | none =>
    if fenced s (0x1000 + c) then endCmd n .fenced 0 0 s4
    else if devFenced s ∧ op ≠ 0x8A ∧ op ≠ 0x89 then endCmd n .fenced 0 0 s4
    else
      let s5 := if ctxAdmin s c ∧ adminRole op ≠ 0 then needRole (.pf (ctxPort s c)) s4 else s4
      if enFlags r % 2 = 1 then hostRead (ctxPort s c) (ctxFunc s c) (enDptr r) (16 * enDlen r) (.sgl n) s5 else s5

/-- What a context has fetched and not consumed is dropped: the requests still in flight, as they complete, and the entries that wait for an
earlier one. -/
def dropFetches (c : Nat) (s : State) : State :=
  updCtx c (fun x => { x with fetching := 0, got := [] }) (updIo (fun i => { i with hreads := i.hreads.filterMap (fun q => match q.2.why with
    | .entry d _ => if d ≠ c then some q else if q.2.sent then some (q.1, { q.2 with late := true }) else none
    | _ => some q) }) s)

/-- The entries that have arrived are consumed in ring order (R204). A failed fetch, once every entry before it is consumed, puts the ring into
ERROR (Table RING-4 cause 4); what was fetched after it is fetched again from the entry at CTX_ERR.VALUE (R224). -/
def takeEntries (c : Nat) : Nat → State → State
  | 0, s => s
  | fuel + 1, s =>
    let head := getFld s (CTX_SQ_IDX_HEAD c)
    match smGet (ctxOf s c).got head with
    | none => s
    | some (some b) => takeEntries c fuel (consume c b (updCtx c (fun x => { x with fetching := x.fetching - 1, got := smDel x.got head }) s))
    | some none => ringError c 4 head (dropFetches c s)

/-- A fetched entry arrives, or its fetch fails (R204, R205 cause 4). A ring that has left RUN, PAUSED and ERROR has nothing in flight. -/
def entryReceived (tag : Nat) (r : HostRd) (s : State) : State :=
  match smGet s.io.hreads tag with
  | some { why := .entry c idx, .. } =>
    let s0 := updIo (fun i => { i with hreads := smDel i.hreads tag }) s
    if ctxState s c ∉ [2, 3, 4] then s0
    else
      let s1 := updCtx c (fun x => { x with got := smSet x.got idx (match r with | .data b => some (slice b 0 64) | _ => none) }) s0
      takeEntries c (ctxOf s1 c).got.length s1
  | _ => s

/-- A scatter list has been read: rows 8 and 9 of Table RING-5 (R199, Table RING-2). -/
def sglArrived (n : Nat) (r : HostRd) (s : State) : State :=
  match cmdOf s n, r with
  | some x, .data bytes =>
    let k := enDlen x.raw
    let el := (List.range k).map (fun i => (leAt bytes (16 * i) 8, leAt bytes (16 * i + 8) 4))
    let bad := (List.range k).any (fun i =>
      let a := leAt bytes (16 * i) 8
      let l := leAt bytes (16 * i + 8) 4
      !decide (a % 4 = 0) || !decide (l % 4 = 0) || decide (l < 4) || decide (8388608 < l) || !decide (leAt bytes (16 * i + 12) 4 = 0))
    let sum := (el.map Prod.snd).foldl (· + ·) 0
    if bad ∨ sum ≠ ioDataLen x.raw then endCmd n .invalidField 0xFFF0 0 (chargeOne x s)
    else updCmd n (fun y => { y with phase := .presented, bufs := el }) s
  | some x, _ => endCmd n .invalidField 0xFFF1 0 (chargeOne x s)
  | none, _ => s

/-! ### Ring states (R194, R196, R223 to R227) -/

/-- A window that may write a context's ring registers (R195). -/
def ringWin (s : State) (w : Win) (c : Nat) : Bool :=
  match w with
  | .core _ => true
  | .pf p => isSet s (CTX_BIND_VALID c) && decide (ctxPort s c = p) && decide (ctxFunc s c = 0)
  | .vf p f => isSet s (CTX_BIND_VALID c) && decide (ctxPort s c = p) && decide (ctxFunc s c = f) && decide (f ≠ 0)

/-- A window that may write CTX_BIND and the scheduling registers (R195). -/
def bindWin (s : State) (w : Win) (c : Nat) : Bool :=
  match w with
  | .core _ => true
  | .pf p => !isSet s (CTX_BIND_VALID c) || decide (ctxPort s c = p)
  | .vf _ _ => false

/-- The sum of MIN_UNITS over bound contexts other than one (R238). -/
def minSum (s : State) (but : Nat) : Nat :=
  (List.range 4096).foldl (fun a c => if c ≠ but ∧ isSet s (CTX_BIND_VALID c) then a + getFld s (CTX_SCHED_MIN_UNITS c) else a) 0

/-- An accepted configuration write clears CTX_STAT.CFG_BAD. -/
def cfgGood (c : Nat) (s : State) : State := setFld (CTX_STAT_CFG_BAD c) 0 s

/-- Set the four metering counters, LATE and the credit of a context to 0 (R232). -/
def zeroCounters (c : Nat) (s : State) : State :=
  [CTX_LATE_COUNT c, CTX_RD_LO_COUNT c, CTX_RD_HI_COUNT c, CTX_WR_LO_COUNT c, CTX_WR_HI_COUNT c, CTX_CMD_LO_COUNT c,
   CTX_CMD_HI_COUNT c, CTX_PAR_LO_COUNT c, CTX_PAR_HI_COUNT c, CTX_SLOT_LO_COUNT c, CTX_SLOT_HI_COUNT c,
   CTX_CREDIT_CREDIT c, CTX_MTR_STAT_GAP c].foldl (fun t f => setFld f 0 t) s

/-- A context that is bound anew has written no cache slot: slots that an earlier binding wrote are charged to no context (R241). -/
def dropWriter (c : Nat) (s : State) : State :=
  updCache (fun t => { t with slots := t.slots.map (fun q => (q.1, if q.2.ctx = c then { q.2 with ctx := 4096 } else q.2)) }) s

/-- A write of CTX_BIND (R194, R232, R233, R238). -/
def bindWrite (c v : Nat) (s : State) : State :=
  let valid := bitsOf v 0 1
  let port := bitsOf v 1 1
  let func := bitsOf v 2 10
  let kind := bitsOf v 12 1
  let was := isSet s (CTX_BIND_VALID c)
  let others := (ctxsOf s port func).filter (· ≠ c)
  if ctxState s c ∉ [0, 1] then cfgBad c s
  else if valid = 1 ∧ func ≠ 0 ∧ (kind = 1 ∨ others ≠ []) then cfgBad c s
  else if valid = 1 ∧ !was ∧ (isSet s (CTX_MTR_STAT_FINAL_PENDING c) ∨
      getFld s TSC_CFG_CAP_UNITS < minSum s c + getFld s (CTX_SCHED_MIN_UNITS c)) then cfgBad c s
  else
    let s1 := cfgGood c (setFld (CTX_BIND_KIND c) kind (setFld (CTX_BIND_FUNC c) func
      (setFld (CTX_BIND_PORT c) port (setFld (CTX_BIND_VALID c) valid s))))
    if valid = 1 ∧ !was then
      let id := getFld s CHIP_PWR_CYCLES_COUNT % 65536 * 65536 + s.sched.bindCount % 65536
      setFld (CTX_STAT_STATE c) 1 (setFld (CTX_BIND_ID_ID c) id (zeroCounters c
        (dropWriter c { s1 with sched := { s1.sched with bindCount := s1.sched.bindCount + 1 } })))
    else if valid = 0 ∧ was then
      setFld (CTX_STAT_STATE c) 0 (setFld (CTX_MTR_STAT_FINAL_PENDING c) 1 s1)
    else s1

/-- The ring's configuration satisfies R196 and R203. -/
def ringCfgOk (s : State) (c : Nat) : Bool :=
  decide (getFld s (CTX_RING_SIZE_SQ_M1 c) ≠ 0) && decide (getFld s (CTX_RING_SIZE_CQ_M1 c) ≠ 0) &&
    decide (getFld s (CTX_IRQ_VECTOR c) < vectorLimit s (ctxPort s c) (ctxFunc s c))

/-- RUN or PAUSED, as the pause causes left say (R223). -/
def settle (c : Nat) (s : State) : State :=
  if isSet s (CTX_STAT_PAUSE_HOST c) ∨ isSet s (CTX_STAT_PAUSE_BME c) then
    onlyIf (decide (ctxState s c ≠ 3)) (setEvt (0x1000 + c) CTX_EVT_PAUSED) (setFld (CTX_STAT_STATE c) 3 s)
  else setFld (CTX_STAT_STATE c) 2 s

/-- Set a pause cause: a RUN ring pauses, an ERROR ring keeps its state (R223, R224). -/
def pauseCause (c : Nat) (f : FRef) (s : State) : State :=
  let s1 := setFld f 1 s
  if ctxState s c = 2 then settle c s1 else s1

/-- Take a pause cause away (R223). -/
def unpauseCause (c : Nat) (f : FRef) (s : State) : State :=
  let s1 := setFld f 0 s
  if ctxState s c = 3 then settle c s1 else s1

/-- CTX_CTL.RUN written 1 (R196, R223, R227). -/
def runSet (c : Nat) (s : State) : State :=
  if ctxState s c = 1 then
    if !isFunction s (ctxPort s c) (ctxFunc s c) then s
    else if ringCfgOk s c then
      let z := [CTX_SQ_IDX_HEAD c, CTX_SQ_IDX_TAIL c, CTX_CQ_IDX_TAIL c, CTX_CQ_IDX_HEAD c].foldl (fun t f => setFld f 0 t) s
      let s1 := updCtx c (fun x => { x with vis := [], fetching := 0, unsig := 0, got := [] }) (setFld (CTX_STAT_PHASE c) 1 z)
      let s2 := setFld (CTX_CTL_RUN c) 1 (cfgGood c s1)
      settle c (setFlag (CTX_STAT_PAUSE_BME c) (fnOff s (ctxPort s c) (ctxFunc s c)) s2)
    else cfgBad c s
  else if ctxState s c ∈ [2, 3, 4] then
    unpauseCause c (CTX_STAT_PAUSE_HOST c) (setFld (CTX_CTL_RUN c) 1 s)
  else s

/-- CTX_CTL.RUN written 0 (R223). -/
def runClear (c : Nat) (s : State) : State :=
  if ctxState s c ∈ [2, 3, 4] then pauseCause c (CTX_STAT_PAUSE_HOST c) (setFld (CTX_CTL_RUN c) 0 s)
  else setFld (CTX_CTL_RUN c) 0 s

/-- CTX_CTL.ERR_CLEAR (R224). -/
def errClear (c : Nat) (s : State) : State :=
  if ctxState s c = 4 then
    settle c (setFld (CTX_ERR_VALUE c) 0 (setFld (CTX_ERR_CAUSE c) 0 s))
  else s

/-- CTX_CTL.RETIRE (R227); entries being fetched are dropped, as DISABLED consumes none (Table RING-13). -/
def retire (c : Nat) (s : State) : State :=
  if ctxState s c = 3 ∧ isSet s (CTX_STAT_PAUSE_HOST c) ∧ !isSet s (CTX_STAT_PAUSE_BME c) ∧
      getFld s (CTX_OUT_OUTSTANDING c) = 0 ∧ getFld s (CTX_CQ_IDX_HEAD c) = getFld s (CTX_CQ_IDX_TAIL c) then
    cfgGood c (setFld (CTX_STAT_PAUSE_HOST c) 0 (setFld (CTX_STAT_STATE c) 1 (dropFetches c s)))
  else cfgBad c s

/-- A write of a ring register through a window: rights, then R195. -/
def ringWrite (w : Win) (c : Nat) (f : State → State) (s : State) : State :=
  guardWrite w (0x1000 + c) (fun t => if ringWin t w c then seqFlds (0x1000 + c) [CTX_CTL_RUN c] t (f t) else discardDb c t) s

/-! ### The commands -/

def execSqTailDoorbell (w : Win) (c size v : Nat) (s : State) : Host.Outcome State Fault Refusal :=
  run (decide (c < 4096)) (ltrSync (doorbell w c size (sqTail c v)) s)

def execCqHeadDoorbell (w : Win) (c size v : Nat) (s : State) : Host.Outcome State Fault Refusal :=
  run (decide (c < 4096)) (ltrSync (doorbell w c size (cqHead c v)) s)

def execSubmissionFetch (c : Nat) (s : State) : Host.Outcome State Fault Refusal :=
  run (decide (c < 4096)) (onlyIf (releases s c) (fetchEntry c) s)

def execSubmissionEntryReceived (port tag : Nat) (r : HostRd) (s : State) : Host.Outcome State Fault Refusal :=
  run (decide (port < 2)) (ltrSync (completion port tag r (entryReceived tag r)) s)

/-- CTX_AGG.TIME has passed since the first unsignalled entry (R203). -/
def execIrqAggTimer (c : Nat) (s : State) : Host.Outcome State Fault Refusal :=
  run (decide (c < 4096)) (onlyIf (isSet s (CTX_IRQ_IEN c) && decide ((ctxOf s c).unsig ≠ 0)) (ringMsg c) s)

def execCtxBindWrite (w : Win) (c v : Nat) (s : State) : Host.Outcome State Fault Refusal :=
  run (decide (c < 4096)) (guardWrite w (0x1000 + c)
    (fun t => if bindWin t w c then seqFlds (0x1000 + c) [CTX_BIND_VALID c, CTX_BIND_PORT c, CTX_BIND_FUNC c, CTX_BIND_KIND c] t (bindWrite c v t) else discardDb c t) s)

def execRunSet (w : Win) (c : Nat) (s : State) : Host.Outcome State Fault Refusal :=
  run (decide (c < 4096)) (ltrSync (ringWrite w c (runSet c)) s)

def execRunClear (w : Win) (c : Nat) (s : State) : Host.Outcome State Fault Refusal :=
  run (decide (c < 4096)) (ltrSync (ringWrite w c (runClear c)) s)

def execErrClear (w : Win) (c : Nat) (s : State) : Host.Outcome State Fault Refusal :=
  run (decide (c < 4096)) (ltrSync (ringWrite w c (errClear c)) s)

def execRetire (w : Win) (c : Nat) (s : State) : Host.Outcome State Fault Refusal :=
  run (decide (c < 4096)) (ltrSync (ringWrite w c (retire c)) s)

end Sys2Proof.Machine
end

