-- ==== Sys2Proof/Machine/VolOps.lean ====
section
/-! DEFINITION. Volumes beside their commands: descriptors in the flash (R218, Table RING-10), slots placed and freed (R26, R40, R217,
R220), and a deletion that start-up resumes (R220). -/

namespace Sys2Proof.Machine
open Reg

/-! ### Descriptors -/

/-- Offsets of descriptor v in tables A and B (R218). -/
def volA (v : Nat) : Nat := cfgOff (64 * v)
def volB (v : Nat) : Nat := cfgOff (0x100000 + 64 * v)

/-- An ATTACH entry (Table RING-10). -/
def attachWord : Option (Nat × Nat × Bool) → Nat
  | none => 0
  | some (port, func, ro) => 1 + 2 * b2n ro + 4 * port + 8 * func

def attachOf (w : Nat) : Option (Nat × Nat × Bool) :=
  if w % 2 = 1 then some (bitsOf w 2 1, bitsOf w 3 10, decide (bitsOf w 1 1 = 1)) else none

/-- The 64 bytes of a descriptor (Table RING-10). -/
def volBytes (v seq : Nat) (valid : Bool) (x : Vol) : List Byte :=
  withCrc (leBytes v 2 ++ leBytes (b2n valid + 2 * b2n x.deleting) 1 ++ leBytes x.plates.length 1 ++ leBytes x.extents 4 ++
    slice (x.plates.flatMap (fun i => leBytes i 8)) 0 32 ++ slice (x.attach.flatMap (fun a => leBytes (attachWord a) 4)) 0 16 ++ leBytes seq 4)

/-- SEQ of a descriptor copy, none where its CRC fails. -/
def volSeqAt (s : State) (off : Nat) : Option Nat := (flashAt s off).bind (fun b => if crcOk b 0x3C then some (leAt b 0x38 4) else none)

/-- Write a descriptor as a label copy is written under R37, with SEQ in place of LABEL_GEN. -/
def volWrite (v : Nat) (valid : Bool) (x : Vol) (s : State) : State :=
  let a := volSeqAt s (volA v)
  let b := volSeqAt s (volB v)
  let seq := max (a.getD 0) (b.getD 0) + 1
  let s1 := flashPut (if labelCopy a b = 0 then volA v else volB v) (volBytes v seq valid x) s
  updStore (fun t => { t with vols := if valid then smSet t.vols v { x with seq := seq } else smDel t.vols v }) s1

/-- The descriptor the flash holds: the valid copy with the higher SEQ, table A's when both are equal (R218). -/
def volRead (s : State) (v : Nat) : Option Vol :=
  let off := match volSeqAt s (volA v), volSeqAt s (volB v) with
    | some a, some b => if b ≤ a then some (volA v) else some (volB v)
    | some _, none => some (volA v)
    | none, some _ => some (volB v)
    | none, none => none
  (off.bind (flashAt s)).bind (fun b =>
    let fl := leAt b 2 1
    if fl % 2 = 1 then
      some { extents := leAt b 4 4, plates := (List.range (leAt b 3 1)).map (fun i => leAt b (8 + 8 * i) 8),
             attach := (List.range 4).map (fun i => attachOf (leAt b (0x28 + 4 * i) 4)), deleting := decide (fl / 2 % 2 = 1), seq := leAt b 0x38 4 }
    else none)

/-- Start-up reads every descriptor. -/
def volLoad (s : State) : State :=
  updStore (fun t => { t with vols := (List.range 16384).filterMap (fun v => (volRead s v).map (fun x => (v, x))) }) s

/-! ### Slots -/

/-- The extents of a volume, from one on, that a slot of its plates here holds: (extent, plate, slot). -/
def placedFrom (s : State) (v x0 : Nat) : List (Nat × Nat × Nat) :=
  let n := ((smGet s.store.vols v).map Vol.extents).getD 0
  let has := (s.store.plates.flatMap (fun q => (q.2.cat.filter (fun e => decide (e.2.1 = v ∧ x0 ≤ e.2.2 ∧ e.2.2 < n))).map (fun e => e.2.2))).eraseDups
  (has.mergeSort (fun a b => decide (a ≤ b))).filterMap (fun x => match extentOf s v x with
    | .slot p e => some (x, p, e)
    | _ => none)

/-- Catalogue pages of a plate are written to its writable members under a new CATALOGUE_GEN (R35, R40). -/
def catChange (p : Nat) (f : SMap (Nat × Nat) → SMap (Nat × Nat)) (pages : List Nat) (s : State) : State :=
  let s1 := updPlate p (fun x => { x with cat := f x.cat, catGen := x.catGen + 1 }) s
  writeCat p (((plateOf s1 p).map Plate.writable).getD []) pages s1

/-- The slot of an extent is free again. -/
def clearSlot (p e : Nat) (s : State) : State := catChange p (fun m => smDel m e) [e / 511] s

/-- Catalogue writes of some plate are outstanding. -/
def catBusy (s : State) : Bool := s.io.nvme.any (fun q => match q.2.why with | .catalogue _ _ => true | _ => false)

/-- ZERO over an extent, as DEALLOCATE writes it (R67, R220). -/
def presentZero (cmd v x : Nat) (s : State) : State := present (cutSegs s .host cmd v (x * 2 ^ 18) (2 ^ 18) true true (fun _ => none)) cmd s

/-- The volume's lost-write entries from an extent on go (R164, R220). -/
def volLostDel (v x0 : Nat) (s : State) : State :=
  let n := (s.store.lostw.foldl (fun a e => if e.vol = v then max a (e.lba + e.count) else a) 0)
  lostwDel v (x0 * 2 ^ 18) (n - x0 * 2 ^ 18) s

/-- A deletion is complete: the lost-write entries go and the descriptor is made invalid (R220). -/
def volGone (v : Nat) (s : State) : State :=
  match smGet s.store.vols v with
  | some x => volWrite v false x (volLostDel v 0 s)
  | none => s

/-! ### A resumed deletion -/

/-- Segments of a volume that no command presented are under way. -/
def purging (s : State) (v : Nat) : Bool :=
  let mine := fun (g : Seg) => decide (g.vol = v ∧ g.cmd = 0 ∧ g.src = .host)
  s.io.queue.any mine || s.io.waitl.any (fun w => match w with | .seg g => mine g | .sop _ => false) || s.io.journal.any (fun q => mine q.2.seg)

/-- The next extent of a resumed deletion is zeroed, or the deletion ends. -/
def purgeNext (v : Nat) (s : State) : State :=
  match (placedFrom s v 0).head? with
  | some (x, _, _) => presentZero 0 v x (updStore (fun t => { t with purge := smSet t.purge v x }) s)
  | none => volGone v (updStore (fun t => { t with purge := smDel t.purge v }) s)

/-- A resumed deletion goes on once the segments of its extent have ended: the extent's slot is freed. -/
def purgeOne (v x : Nat) (s : State) : State :=
  if purging s v then s
  else match extentOf s v x with
    | .slot p e => purgeNext v (clearSlot p e s)
    | _ => purgeNext v s

def purgeStep (s : State) : State := s.store.purge.foldl (fun t q => purgeOne q.1 q.2 t) s

/-- At READY the deletions that a power loss interrupted go on (R220). -/
def purgeStart (s : State) : State :=
  (s.store.vols.filter (fun q => q.2.deleting)).foldl (fun t q => purgeNext q.1 t) s

end Sys2Proof.Machine
end

