-- ==== Sys2Proof/Machine/WritePath.lean ====
section
/-! DEFINITION. The commands of the write path: host data (R209, R267), the journal states (R56, R57), Burin pipes
(R71 to R74), member writes and tag pages (R68, R69), the journal members of unbacked mode (R76 to R79). -/

namespace Sys2Proof.Machine
open Reg

/-! ### Host data -/

/-- Host data of an entry has arrived: into staging, or into its cache slots (R139). -/
def hostData (j : Nat) (bytes : List Byte) (s : State) : State :=
  match entryOf s j with
  | none => s
  | some e =>
    let m := ((List.range e.seg.wset.length).zip e.seg.wset).foldl (fun m q => smSet m q.2 (slice bytes (4096 * q.1) 4096)) []
    let s1 := updEntry j (fun y => { y with newData := m }) s
    if e.path = .cache then cacheStaged j (fillSlots j s1) else s1

/-- Free every segment of a command that has not taken effect: granted, waiting or not yet presented (R62, R209). -/
def dropUnstaged (n : Nat) (s : State) : State :=
  let mine := s.io.journal.filter (fun q => decide (q.2.seg.cmd = n ∧ effState s q.2 = .opened))
  let waiting := s.io.waitl.filter (fun i => match i with | .seg g => decide (g.cmd = n) | .sop _ => false)
  let later := s.io.queue.filter (fun g => decide (g.cmd = n))
  let s1 := keepWaits (fun w => match w with | .seg g => !decide (g.cmd = n) | .sop _ => true)
    (updIo (fun i => { i with queue := i.queue.filter (fun g => !decide (g.cmd = n)) }) s)
  let s2 := updCmd n (fun y => { y with todo := 0, waits := y.waits - waiting.length - later.length }) s1
  mine.foldl (fun t q => releaseEntry q.1 false (complete q.1 false t)) s2

/-- Write data could not be read (R209): every segment that is freed or not presented has failed, and the lowest-addressed one is the command's
(R208). -/
def hostDataBad (j : Nat) (s : State) : State :=
  match entryOf s j with
  | none => s
  | some e =>
    let n := e.seg.cmd
    let mine := fun (g : Seg) => if g.cmd = n then some g.lba else none
    let lbas := (s.io.journal.filter (fun q => decide (effState s q.2 = .opened))).filterMap (fun q => mine q.2.seg) ++ s.io.queue.filterMap mine ++
      s.io.waitl.filterMap (fun i => match i with | .seg g => mine g | .sop _ => none)
    let lba := lbas.foldl min e.seg.lba
    let s1 := addParts n 1 (failHost n lba s)
    partDone n (if (smGet s.io.groups e.seg.group).map Group.passed = some true then s1 else dropUnstaged n s1)

/-- What a finished read of host memory does (R209, R213, Table HOST-6). Entries and scatter lists are taken as
SUBMISSION_ENTRY_RECEIVED and R199 give. -/
def hostReadDone (tag : Nat) (r : HostRd) (s : State) : State :=
  match smGet s.io.hreads tag with
  | none => s
  | some h =>
    let s1 := updIo (fun i => { i with hreads := smDel i.hreads tag }) s
    match h.why, r with
    | .entry _ _, _ => entryReceived tag r s
    | .sgl n, _ => sglArrived n r s1
    | .wdata j, .data bytes => hostData j bytes s1
    | .wdata j, _ => hostDataBad j s1
    | .cmp n, .data bytes => partDone n (updCmd n (fun y => { y with host := bytes }) s1)
    | .cmp n, _ => partDone n (updCmd n (fun y => { y with detail := 0xFFF2, fail := some (enLba y.raw, .invalidField) }) s1)

/-- HOST_READ_COMPLETION (R267 to R269). -/
def execHostReadCompletion (port tag : Nat) (r : HostRd) (s : State) : Host.Outcome State Fault Refusal :=
  run (decide (port < 2)) (ltrSync (completion port tag r (hostReadDone tag r)) s)

/-- COMPLETION_TIMEOUT (R266). -/
def execCompletionTimeout (tag : Nat) (s : State) : Host.Outcome State Fault Refusal :=
  run true (ltrSync (timeout tag (hostReadDone tag .abort)) s)

/-! ### Journal states -/

/-- Everything an entry needs is in staging: new data and old contents (Table WRITE-6). -/
def entryReady (s : State) (j : Nat) (e : JEntry) : Bool :=
  decide (hostReads s j = 0) && decide (oldReads s j = 0) &&
    (e.seg.zero || e.seg.wset.all (fun l => (smGet e.newData l).isSome || decide (l ∈ e.zeros)))

/-- DATA_STAGED (R56, R57, R64, R65, R70). A needed old strip that is erased switches the segment to the
reconstruct-write of R65; more than two erasures end it. A group's entry sets STAGED only. -/
def dataStagedCmd (j : Nat) (s : State) : State :=
  match entryOf s j with
  | none => s
  | some e => match plateOf s e.seg.plate with
    | none => s
    | some x =>
      if e.state ≠ .opened ∨ e.path = .cache ∨ e.staged ∨ !entryReady s j e ∨ (e.seg.group = 0 ∧ !linkGate s e 1) then s
      else
        let blks := blkRange e.blkFirst e.blkLast
        let k := x.geom.k
        let er := if e.forced || !e.recon then applyGen k e.old blks e.erased else e.erased
        if e.path ≠ .stream ∧ e.forced ∧ overErased x.geom blks er ≠ [] then loseSegment j s
        else if e.path ≠ .stream ∧ !e.forced ∧ er ≠ [] then forceRecon j s
        else if e.seg.group ≠ 0 then mirrorEntry j (updEntry j (fun y => { y with staged := true }) s)
        else dataStaged j s

def execDataStaged (j : Nat) (s : State) : Host.Outcome State Fault Refusal := run (decide (j < 49152)) (dataStagedCmd j s)

/-- GROUP_COMMIT_POINT (R57): with every segment of the group granted and STAGED, the head moves, and the other entries
catch up with it. The atomic log is then written where the group is LOGGED (R77). -/
def groupCommit (j : Nat) (s : State) : State :=
  match entryOf s j with
  | none => s
  | some h =>
    let grp := groupEntries s h.seg.group
    let blocks := (grp.map (fun q => q.2.seg.wset.length)).sum
    if h.seg.group = 0 ∨ h.headIdx ≠ j ∨ h.state ≠ .opened ∨ blocks ≠ h.seg.gBlks ∨ !grp.all (fun q => q.2.staged && linkGate s q.2 1) then s
    else
      let past : Group := { headIdx := j, unbacked := h.unbacked, path := h.path, slotsDue := 0, passed := true }
      let s1 := updIo (fun i => { i with groups := smUpd i.groups h.seg.group past (fun r => { r with slotsDue := 0, passed := true }) }) s
      let order := grp.filter (fun q => decide (q.1 = j)) ++ grp.filter (fun q => decide (q.1 ≠ j))
      let s2 := order.foldl (fun t q => if q.2.path = .cache then cacheCommit q.1 t else dataStaged q.1 t) s1
      let plates := (grp.map (fun q => q.2.seg.plate)).eraseDups
      if h.logged then plates.foldl (fun t p => match grp.find? (fun q => decide (q.2.seg.plate = p)) with
        | some q => writeLog q.1 t
        | none => t) s2
      else s2

def execGroupCommitPoint (j : Nat) (s : State) : Host.Outcome State Fault Refusal := run (decide (j < 49152)) (groupCommit j s)

/-- ATOMIC_LOG_WRITE_DONE (Sequence WRITE-2 step 3): the log of a group on one plate is written on every journal member. -/
def logDone (j : Nat) (s : State) : State :=
  match entryOf s j with
  | none => s
  | some e =>
    let mates := (groupEntries s e.seg.group).filter (fun q => decide (q.2.seg.plate = e.seg.plate))
    let busy := s.io.nvme.any (fun q => match q.2.why with | .log i _ => mates.any (fun r => decide (r.1 = i)) | _ => false)
    if busy ∨ !e.logged ∨ jstateCode e.state < 2 then s
    else mates.foldl (fun t q => updEntry q.1 (fun y => { y with logDone := true }) t) s

def execAtomicLogWriteDone (j : Nat) (s : State) : Host.Outcome State Fault Refusal := run (decide (j < 49152)) (logDone j s)

/-- Bytes a pipe processed for an entry: the data strips it took in, over the block range. -/
def entryPipeBytes (g : Geom) (e : JEntry) : Nat :=
  4096 * (e.blkLast + 1 - e.blkFirst) * (if e.path = .stream ∨ e.recon then g.k else (segPos g e.seg.wset).length)

/-- A Proof pass unit's reads are in; defined with the Proof pass, which takes it up at PROOF_UNIT_DONE. -/
def proofChecked (id : Nat) (s : State) : State := updSop id (fun y => { y with phase := .burin }) s

/-- The stripe operation is to write through the Graver (Table PATH-1), which does not carry its unit now: it waits. -/
def repairHeld (s : State) (o : Sop) : Bool :=
  !graverFree s (graverCs o.kind) && (match o.kind with
  | .recon n _ => decide (o.tagBad ≠ []) && (isSet s (PLT_CFG_READ_REPAIR o.plate) || ((cmdOf s n).map (fun y => decide (enOp y.raw = 7))).getD false)
  | .rebuild => true
  | _ => false)

/-- BURIN_JOB_END (R71, Table WRITE-6, Table STRIPE-2): the job of a pipe ends: an entry's P and Q are in staging, or a stripe
operation's survivors are through the pipe. BUR_BYTES counts, of an entry, its data strips times its blocks, and of a stripe operation every
block read for it, P and Q survivors included (DESIGN CHOICE, notes/assumptions/28.md). -/
def jobEnd (sop : Bool) (id : Nat) (s : State) : State :=
  if sop then
    match sopOf s id with
    | none => s
    | some o =>
      if o.phase ≠ .reading ∨ sopReads s id ≠ 0 ∨ !onPipe s (.sop id) then s
      else if repairHeld s o then graverAsk (graverCs o.kind) s
      else
        let n := 4096 * o.grid.length
        let maint := match o.kind with | .recon _ _ => false | _ => true
        let s1 := dropJob (.sop id) (pipeBytes o.pipe n maint o.ctx s)
        match o.kind with
        | .recon cmd off => reconDone id cmd off s1
        | .rebuild => rebuildDone id s1
        | .proof => proofChecked id s1
        | .loss => lossDone id s1
  else
    match entryOf s id with
    | none => s
    | some e => match plateOf s e.seg.plate with
      | none => s
      | some x =>
        if e.state ≠ .dataStaged ∨ (e.seg.group ≠ 0 ∧ jstateCode (effState s e) < 2) ∨ !e.logDone ∨ !onPipe s (.entry id) then s
        else
          let n := entryPipeBytes x.geom e
          let ctx := if e.path ≠ .destage ∧ e.seg.src = .host ∧ e.seg.cmd ≠ 0 then some e.tenant else none
          let s1 := onlyIf (decide (e.path = .destage)) (updEntry id (fun y => { y with burBytes := y.burBytes + n })) s
          parityDone id (dropJob (.entry id) (pipeBytes e.pipe n (decide (e.seg.src = .lossFill)) ctx s1))

def execBurinJobEnd (sop : Bool) (id : Nat) (s : State) : Host.Outcome State Fault Refusal := run true (jobEnd sop id s)

/-! ### Burin pipes -/

/-- Every job of a pipe restarts from its first beat elsewhere, on a pipe chosen by R71 (R73, R83). A job that no other pipe may take waits
for one, and a sleeping pipe is woken (R71). -/
def restartJobs (b : Nat) (s : State) : State :=
  let mine := s.io.jobs.filter (fun j => decide (j.pipe = b))
  let s1 := mine.foldl (fun t j => setJobPipe j.ref 8 b t) s
  let s2 := mine.foldl (fun t j => match pipeAfter t b with
    | some c => setJobPipe j.ref c 8 t
    | none => wakeFor b t) s1
  pipesSleep (katKick b s2)

/-- BURIN_BEAT_MISMATCH (R73): the beat is recomputed; a second difference reports an uncorrected fault. -/
def beatMismatch (b : Nat) (again : Bool) (s : State) : State :=
  let s1 := report 0x07 (0x30 + b) 0 (setEvt (0x30 + b) BUR_EVT_SELFCHK (incFld (BUR_SELFCHK_COUNT b) 1 s))
  if again then restartJobs b (report 0x08 (0x30 + b) 0 (setFld (PG_STAT_FENCED (0x30 + b)) 1 s1)) else s1

def execBurinBeatMismatch (b : Nat) (again : Bool) (s : State) : Host.Outcome State Fault Refusal :=
  run (decide (b < 8)) (beatMismatch b again s)

/-- BURIN_PIPE_AWAKE (R71): a woken pipe accepts jobs. -/
def pipeUp (b : Nat) (s : State) : State :=
  if b ∈ s.io.waking then
    placeJobs (setEvt (0x30 + b) BUR_EVT_WOKE (setFld (BUR_STAT_POWERED b) 1 (setFld (PG_STAT_ASLEEP (0x30 + b)) 0
      (updIo (fun i => { i with waking := i.waking.filter (· ≠ b) }) s))))
  else s

def execBurinPipeAwake (b : Nat) (s : State) : Host.Outcome State Fault Refusal := run (decide (b < 8)) (pipeUp b s)

/-- KAT_START (R74): BUR_KAT.START written 1. -/
def execKatStart (w : Win) (b : Nat) (s : State) : Host.Outcome State Fault Refusal :=
  run (decide (b < 8)) (guardWrite w (0x30 + b) (fun t => katKick b (setFld (BUR_KAT_START b) 1 t)) s)

/-- KAT_DONE (R74): the test passes where GEN of the example's bytes yields P = 0xD5 and Q = 0x67 in each of the 32 lanes. -/
def katDone (b : Nat) (lanes : List (Byte × Byte)) (s : State) : State :=
  if getFld s (BUR_STAT_KAT b) = 3 then
    let ok := decide (lanes.length = 32) && lanes.all (fun l => decide (l = (0xD5, 0x67)))
    pipesSettle (setEvt (0x30 + b) BUR_EVT_KAT_DONE (setFld (BUR_KAT_START b) 0 (setFld (BUR_STAT_KAT b) (if ok then 1 else 2) s)))
  else s

def execKatDone (b : Nat) (lanes : List (Byte × Byte)) (s : State) : Host.Outcome State Fault Refusal :=
  run (decide (b < 8)) (katDone b lanes s)

/-! ### Member writes -/

/-- The member whose label copy at a block was written, and its namespace where it is here, now hold that generation there (R37). -/
def labelWritten (p m lba : Nat) (s : State) : State :=
  match plateOf s p with
  | none => s
  | some x =>
    let gen := some x.labelGen
    let s1 := updPlate p (fun _ =>
      { x with labelWait := x.labelWait.filter (· ≠ m) }.updMem m (fun z =>
        if lba = 0 then { z with genA := gen, seen := true } else { z with genB := gen, seen := true })) s
    match x.mem m with
    | some y => onlyIf (decide (y.node = nodeId s)) (updNs y.port y.nsid (fun n =>
        { n with genA := if lba = 0 then gen else n.genA, genB := if lba = 0 then n.genB else gen, plateId := x.id })) s1
    | none => s1

/-- A Write of the copy of R79 is complete: a change of its block made meanwhile goes with the next Write (R78). -/
def remirWrote (p m lba : Nat) (s : State) : State :=
  match plateOf s p with
  | none => s
  | some x =>
    let blk := lba - (journalLba x + 16)
    if lba < journalLba x + 16 ∨ 1536 ≤ blk then s
    else
      let s1 := updJp p (fun y => { y with writing := y.writing.filter (fun q => decide (q ≠ (m, blk))) }) s
      if blk ∈ x.jp.dirty then writeRecords p blk s1 else s1

/-- A Write ended well: what it was for goes on. -/
def writeOk (c : NvCmd) (s : State) : State :=
  match c.why with
  | .strip j pos => stripDone j pos s
  | .dual j pos => stripDone j pos s
  | .sopWr id pos => sopWrote id pos c.mem s
  | .record p m blk => refillCheck p (updJp p (fun y => { y with writing := y.writing.filter (fun q => decide (q ≠ (m, blk))) }) s)
  | .log _ _ => refillCheck c.plate s
  | .remir p m => remirHeader p m (remirWrote p m c.lba s)
  | .label p m => labelWritten p m c.lba s
  | .catalogue p _ => replaceStep p s
  | .lbt p _ => replaceStep p s
  | _ => s

/-- MEMBER_WRITE_COMPLETE (R68, R291, Table REBUILD-3): a Write, Flush, Write Zeroes or deallocate ends. -/
def memberWrote (id : Nat) (st : Nvme) (s : State) : State :=
  match smGet s.io.nvme id with
  | none => s
  | some c =>
    if c.op = .read ∨ devFenced s ∨ !nvIssued s id then s
    else
      let s1 := endNv id s
      match c.why with
      | .remote src tag arg => servedEnd c st (answerRemote src tag arg .write st [] (onlyIf (decide (st = .ok)) (portOk c) s1))
      | .resv a => resvDone c a st s1
      | _ => if st = .ok then writeOk c (hostBytes c (portOk c s1)) else badStatus c st s1

def execMemberWriteComplete (id : Nat) (st : Nvme) (s : State) : Host.Outcome State Fault Refusal := run true (memberWrote id st s)

/-- TAG_PAGE_READ_COMPLETE (R69). -/
def tagRead (id : Nat) (st : Nvme) (tags : List Nat) (s : State) : State :=
  match smGet s.io.nvme id with
  | some c => match c.why with
    | .tagRd key =>
      if !nvIssued s id then s else
      let s1 := endNv id s
      match st with
      | .ok => tagWrite key (updTagBuf key (fun b =>
          { b with loaded := true, reading := false, tags := (List.range 512).zip (tags ++ List.replicate 512 0) }) (readTimed c (portOk c s1)))
      | _ => badStatus c st s1
    | _ => s
  | none => s

def execTagPageReadComplete (id : Nat) (st : Nvme) (tags : List Nat) (s : State) : Host.Outcome State Fault Refusal :=
  run true (tagRead id st tags s)

/-- TAG_WRITE_COMPLETE (R69): TAG_MASK bits of the tags carried, and the next merged Write of the page. -/
def tagWrote (id : Nat) (st : Nvme) (s : State) : State :=
  match smGet s.io.nvme id with
  | some c => match c.why with
    | .tagWr key =>
      if !nvIssued s id then s else
      let s1 := endNv id s
      match st, tagBufOf s key with
      | .ok, some b =>
        let s2 := if b.due = [] then updIo (fun i => { i with tagBufs := smDel i.tagBufs key }) s1
          else tagWrite key (updTagBuf key (fun y => { y with writing := false, inWrite := [] }) s1)
        let s3 := b.inWrite.foldl (fun t w => setTagBit w t) (portOk c s2)
        ((b.inWrite.filterMap (fun w => if w.1 then none else some w.2.1)).eraseDups).foldl (fun t i => sopCheck i t) s3
      | .ok, none => s1
      | _, _ => badStatus c st s1
    | _ => s
  | none => s

def execTagWriteComplete (id : Nat) (st : Nvme) (s : State) : Host.Outcome State Fault Refusal := run true (tagWrote id st s)

/-! ### The end of an entry -/

/-- The members hold every strip and tag of an entry (Table WRITE-6), and the label that declares its failed members is
durable (R94). -/
def entryWritten (x : Plate) (e : JEntry) : Bool :=
  e.dataMask.all (fun pos => decide (pos ∈ e.skipMask) || (decide (pos ∈ e.doneMask) && decide (pos ∈ e.tagMask))) &&
    (decide (e.skipMask = []) || (!x.labelBusy && decide (x.pendFail = [])))

/-- Deallocate the member ranges that DEALLOCATE covers as whole strips, where the drive supports it (R211, Table DRIVE-1): as the segment, or the
destage of its cached blocks, is COMMITTED. -/
def deallocStrips (x : Plate) (e : JEntry) (s : State) : State :=
  let ls := if e.seg.dealloc then e.seg.wset
    else (e.slots.filter (fun q => decide (e.path = .destage) && ((smGet s.cache.slots q.2).map Slot.dealloc).getD false)).map Prod.fst
  if ls = [] then s
  else (segPos x.geom ls).foldl (fun t pos =>
    if (ls.filter (fun l => decide (l / x.geom.bps = pos))).length = x.geom.bps then
      match x.homeOf e.seg.sn pos with
      | some m => match x.mem m with
        | some y => if y.node = nodeId s ∧ isSet s (DPT_DRIVE_DSM y.port) then
            memberReq e.seg.plate m e.seg.sn pos .deallocate (x.geom.mlba (x.geom.rowOf e.seg.sn) 0) x.geom.bps [] (fun _ => .dealloc) t else t
        | none => t
      | none => t
    else t) s

/-- The bytes of a segment whose command was reset before it was COMMITTED still count (R241). -/
def payOwed (e : JEntry) (s : State) : State :=
  if e.owed ∧ metering s e.tenant then add64 (CTX_WR_LO_COUNT e.tenant) (CTX_WR_HI_COUNT e.tenant) (4096 * e.seg.wset.length) s else s

/-- COMMITTED (R56, R60, R92, R128, R139, R212). -/
def commit (j : Nat) (s : State) : State :=
  match entryOf s j with
  | none => s
  | some e =>
    if e.path = .cache then
      if e.state = .opened ∧ e.seg.group = 0 ∧ e.staged then cacheCommit j s else s
    else match plateOf s e.seg.plate with
      | none => s
      | some x =>
        if e.state ≠ .parityDone ∨ !entryWritten x e then s
        else
          let ls := if e.path = .destage then e.slots.map (fun q => (q.1, ((smGet s.cache.slots q.2).map Slot.seq).getD 0))
            else e.seg.wset.map (fun l => (l, e.seg.adm))
          let s1 := setJState j .committed s
          let s2 := if e.seg.src = .lossFill then s1 else delLost e.seg.plate e.seg.sn e.seg.wset s1
          let s3 := deallocStrips x e (suspectCommit e.seg.plate e s2)
          let s4 := payOwed e (complete j true (flushed e.seg.plate e.seg.sn ls s3))
          if e.unbacked then writeRecords e.seg.plate (j / 32) s4 else s4

def execCommitted (j : Nat) (s : State) : Host.Outcome State Fault Refusal := run (decide (j < 49152)) (commit j s)

/-- The freed conditions of Table WRITE-6, and the last sentence of R139: the command's completion has been posted where one is due. -/
def mayFree (s : State) (j : Nat) (e : JEntry) : Bool :=
  decide (e.state = .committed) && (e.posted || decide (e.seg.cmd = 0)) && (cmdOf s e.seg.cmd).isNone &&
    ((lockOf s e.seg.plate e.seg.sn).map (fun l => decide (l.readers = 0))).getD true &&
    (decide (e.seg.group = 0) || decide (e.headIdx ≠ j) || (groupEntries s e.seg.group).all (fun q => decide (q.1 = j))) &&
    !((decide (e.path = .stream) || decide (e.path = .direct)) && s.io.journal.any (fun q =>
      decide (q.2.path = .cache ∧ q.2.seg.plate = e.seg.plate ∧ q.2.seg.sn = e.seg.sn ∧ q.2.seg.adm < e.seg.adm ∧ q.2.state ≠ .committed)))

/-- PARITY_BYTES of the context that filled a slot (R241). -/
def sharePar (s0 : State) (k n : Nat) (s : State) : State :=
  match smGet s0.cache.slots k with
  | some y => onlyIf (metering s y.ctx) (add64 (CTX_PAR_LO_COUNT y.ctx) (CTX_PAR_HI_COUNT y.ctx) n) s
  | none => s

/-- The Burin bytes of a freed DESTAGE entry, split equally across its slots: each share to the slot's writer, the remainder to the writer of
the lowest-numbered slot (Table TENANT-4). -/
def shareDestage (e : JEntry) (s : State) : State :=
  let m := e.slots.length
  let s1 := e.slots.foldl (fun t q => sharePar s q.2 (e.burBytes / m) t) s
  match (e.slots.map Prod.snd).min? with
  | some k => sharePar s k (e.burBytes % m) s1
  | none => s1

/-- JOURNAL_ENTRY_FREED (R48, R56, R63, R136): the entry goes back to the free list. Reads that waited for it go on (R51), and a
stripe operation that waited for its loss entries ends; a resumed deletion goes on (R220). -/
def entryFreed (j : Nat) (s : State) : State :=
  match entryOf s j with
  | none => s
  | some e =>
    if !mayFree s j e then s
    else
      let s1 := resumeDeferred (releaseEntry j true (onlyIf (decide (e.path = .destage)) (shareDestage e) s))
      let s2 := if e.seg.src = .lossFill then
          s1.io.sops.foldl (fun t q => if q.2.plate = e.seg.plate ∧ q.2.sn = e.seg.sn then sopCheck q.1 t else t) s1
        else s1
      purgeStep s2

def execJournalEntryFreed (j : Nat) (s : State) : Host.Outcome State Fault Refusal := run (decide (j < 49152)) (entryFreed j s)

/-! ### Journal members -/

/-- JOURNAL_HEADER_WRITE_DONE (R76, R79, R148): the headers of a plate's pair are written, so its queued grants may go on; a pair chosen
after both journal members failed first receives the records in use. -/
def headersDone (p : Nat) (s : State) : State :=
  if s.io.nvme.any (fun q => match q.2.why with | .header r _ => decide (r = p) | _ => false) then s
  else
    let s1 := refillRecords p (updJp p (fun y => { y with hdrWait := 0 }) s)
    (((plateOf s1 p).map (fun x => x.jp.dirty)).getD []).foldl (fun t b => writeRecords p b t) s1

def execJournalHeaderWriteDone (p : Nat) (s : State) : Host.Outcome State Fault Refusal :=
  run (decide (p < 64)) (headersDone p s)

/-- JOURNAL_RECORD_WRITE_DONE (R78): a block of records is complete on every journal member that has not failed. -/
def recordsDone (p blk : Nat) (s : State) : State :=
  match plateOf s p with
  | none => s
  | some x =>
    if x.jp.writing.any (fun q => decide (q.2 = blk)) ∨ x.jp.hdrWait ≠ 0 then s
    else
      let due := (plateEntries s p).filter (fun q => decide (q.1 / 32 = blk ∧ q.2.recStep = 2))
      let s1 := due.foldl (fun t q => updEntry q.1 (fun e => { e with recStep := 3 }) t) s
      let s2 := due.foldl (fun t q => recordsOn q.1 t) s1
      if (((plateOf s2 p).map (fun (y : Plate) => decide (blk ∈ y.jp.dirty))).getD false : Bool) then writeRecords p blk s2 else s2

def execJournalRecordWriteDone (p blk : Nat) (s : State) : Host.Outcome State Fault Refusal :=
  run (decide (p < 64) && decide (blk < 1536)) (recordsDone p blk s)

/-- REMIRROR_COPY_DONE (R79): the new partner's header is written; it governs from then on. -/
def remirrorDone (p : Nat) (s : State) : State :=
  match plateOf s p with
  | none => s
  | some x =>
    if !x.jp.copying ∨ x.jp.copyWait ≠ 1 ∨ s.io.nvme.any (fun q => match q.2.why with | .header r _ => decide (r = p) | .remir r _ => decide (r = p) | _ => false) then s
    else
      let new := some (x.jp.copyTo, x.jp.copyGen)
      let s1 := updJp p (fun y => { y with a := if y.a.isSome then y.a else new, b := if y.a.isSome then new else y.b, copying := false, copyWait := 0 }) s
      startLabel p (setEvt 0x2A JNL_EVT_REMIRROR_DONE s1)

def execRemirrorCopyDone (p : Nat) (s : State) : Host.Outcome State Fault Refusal :=
  run (decide (p < 64)) (remirrorDone p s)

/-! ### ADM_PROBE -/

/-- A lock entry as Table WRITE-2 lays it out. -/
def lockWord (s : State) (l : Lock) : Nat :=
  l.sn + l.plate * 2 ^ 37 + b2n l.stream * 2 ^ 43 + b2n l.rmw * 2 ^ 44 + b2n l.maint * 2 ^ 45 + l.cache * 2 ^ 46 + l.readers * 2 ^ 52 +
  b2n (waitsOn s s.io.waitl l.plate l.sn) * 2 ^ 60 + b2n l.staged * 2 ^ 61 + 2 ^ 62

/-- ADM_PROBE (R80): a write of ADM_PROBE_HI looks up a stripe's lock entry. -/
def admProbe (v : Nat) (s : State) : State :=
  let s1 := setFld ADM_PROBE_HI_PLATE (bitsOf v 8 6) (setFld ADM_PROBE_HI_SN_HI (bitsOf v 0 5) s)
  let sn := getFld s1 ADM_PROBE_LO_SN_LO + 2 ^ 32 * getFld s1 ADM_PROBE_HI_SN_HI
  let w := ((lockOf s (bitsOf v 8 6) sn).map (lockWord s)).getD 0
  setFld ADM_PROBE_RES_HI_ENTRY_HI (w / 2 ^ 32) (setFld ADM_PROBE_RES_LO_ENTRY_LO w s1)

def execAdmProbe (w : Win) (v : Nat) (s : State) : Host.Outcome State Fault Refusal :=
  run true (guardWrite w 0x2B (fun t => seqFlds 0x2B [ADM_PROBE_HI_SN_HI, ADM_PROBE_HI_PLATE] t (admProbe v t)) s)

end Sys2Proof.Machine
end

