-- ==== Sys2Proof/Machine/Reads.lean ====
section
/-! DEFINITION. The I/O commands (Table RING-7, R211 to R215) and the member answers that serve reads (R84, R85), with the
writes of the lost-block table (R90, R92). -/

namespace Sys2Proof.Machine
open Reg

/-! ### I/O commands -/

/-- Start a checked command whose opcode is `op`; a command that is not waiting to start, or has another opcode, is left. -/
def startIo (n op : Nat) (f : Cmd → State → State) (s : State) : State :=
  match cmdOf s n with
  | some x =>
    if x.phase = .presented ∧ enOp x.raw = op ∧ !ctxAdmin s x.ctx ∧ devReady s then f x (updCmd n (fun y => { y with phase := .running }) s) else s
  | none => s

/-- READ, COMPARE and VERIFY present all their blocks at once. -/
def startRead (n op : Nat) (s : State) : State :=
  startIo n op (fun x t =>
    let t1 := updCmd n (fun y => { y with todo := 0 }) (addParts n 1 t)
    let t2 := if op = 6 then fromHost n 0 (4096 * enBlocks x.raw) (.cmp n) (addParts n 1 t1) else t1
    partDone n (serveBlocks n (List.range (enBlocks x.raw)) t2)) s

/-- READ (R84, Table REBUILD-1). -/
def execRead (cmd : Nat) (s : State) : Host.Outcome State Fault Refusal := run true (startRead cmd 1 s)

/-- COMPARE (R213): the blocks are read and the host data fetched; the comparison ends the command. -/
def execCompare (cmd : Nat) (s : State) : Host.Outcome State Fault Refusal := run true (startRead cmd 6 s)

/-- VERIFY (R214). -/
def execVerify (cmd : Nat) (s : State) : Host.Outcome State Fault Refusal := run true (startRead cmd 7 s)

/-- WRITE, WRITE_ZEROES and DEALLOCATE: the segments are presented in the order of R43. -/
def startWrite (n op : Nat) (s : State) : State :=
  startIo n op (fun x t =>
    present (cutSegs t .host n (enVol x.raw) (enLba x.raw) (enBlocks x.raw) (decide (op ≠ 2)) (decide (op = 5)) (fun _ => none)) n
      (updCmd n (fun y => { y with todo := 0 }) t)) s

/-- WRITE (R43). -/
def execWrite (cmd : Nat) (s : State) : Host.Outcome State Fault Refusal := run true (startWrite cmd 2 s)

/-- WRITE_ZEROES (R67). -/
def execWriteZeroes (cmd : Nat) (s : State) : Host.Outcome State Fault Refusal := run true (startWrite cmd 4 s)

/-- DEALLOCATE (R67, R211). -/
def execDeallocate (cmd : Nat) (s : State) : Host.Outcome State Fault Refusal := run true (startWrite cmd 5 s)

/-- FLUSH (R212): it ends once none of the blocks it took when it was consumed is left. -/
def startFlush (n : Nat) (s : State) : State :=
  startIo n 3 (fun x t =>
    let t1 := addParts n 1 (updCmd n (fun y => { y with todo := 0 }) t)
    if x.keys = [] then partDone n t1 else t1) s

def execFlush (cmd : Nat) (s : State) : Host.Outcome State Fault Refusal := run true (startFlush cmd s)

/-- Blocks in the next piece of a FILL or COPY: up to the next destination LBA that is a multiple of 32 (R215). -/
def pieceLen (x : Cmd) : Nat := min x.todo (32 - (enLba x.raw + (enBlocks x.raw - x.todo)) % 32)

/-- Bytes of a FILL or COPY piece leave the context's allowance (R354): at RATE × 64 ÷ 256 bytes a cycle of 0.8 ns they take 3.2 × bytes ÷ RATE ns. -/
def bulkPaced (c n : Nat) (s : State) : State :=
  updCtx c (fun y => { y with bulkAt := devTime s + (16 * n + 5 * getFld s (CTX_BULK_RATE c) - 1) / max 1 (5 * getFld s (CTX_BULK_RATE c)) }) s

/-- The allowance of the context covers its next piece. -/
def bulkDue (s : State) (c : Nat) : Bool := decide ((ctxOf s c).bulkAt ≤ devTime s)

/-- Present a piece of a FILL or COPY as a write of device-held blocks, which a Graver channel of 8 to 13 moves into staging (Table PATH-1). -/
def presentPiece (n : Nat) (x : Cmd) (data : Nat → Option Block) (s : State) : State :=
  let lba := enLba x.raw + (enBlocks x.raw - x.todo)
  let k := pieceLen x
  let s1 := updCmd n (fun y => { y with todo := y.todo - k, tries := 0, got := [] }) s
  graverMoved [8, 9, 10, 11, 12, 13] (4096 * k) <| bulkPaced x.ctx (4096 * k) (present (cutSegs s1 .host n (enVol x.raw) lba k false false data) n s1)

/-- FILL (R215): the next piece of up to 32 blocks is presented; it waits while the Graver carries none of channels 8 to 13 (Table MOVER-8). -/
def fillStep (n : Nat) (s : State) : State :=
  match cmdOf s n with
  | some x =>
    if enOp x.raw = 8 ∧ (x.phase = .presented ∨ x.phase = .running) ∧ x.todo ≠ 0 ∧ !ctxAdmin s x.ctx ∧ devReady s ∧ bulkDue s x.ctx then
      if !graverFree s [8, 9, 10, 11, 12, 13] then graverAsk [8, 9, 10, 11, 12, 13] s else
      let blk := (List.range 512).flatMap (fun _ => leBytes (enAux x.raw) 8)
      presentPiece n x (fun _ => some blk) (updCmd n (fun y => { y with phase := .running }) s)
    else s
  | none => s

def execFill (cmd : Nat) (s : State) : Host.Outcome State Fault Refusal := run true (fillStep cmd s)

/-- COPY (R215): a piece reads its source blocks when it is presented; once they are there it is written. Where a source block
fails, the piece is not written and the command ends. A piece waits while the Graver carries none of channels 8 to 13 (Table MOVER-8). -/
def copyStep (n : Nat) (s : State) : State :=
  match cmdOf s n with
  | none => s
  | some x =>
    if enOp x.raw ≠ 9 ∨ ctxAdmin s x.ctx ∨ !devReady s ∨ x.waits ≠ 0 then s
    else if x.phase = .presented ∧ x.srcBad.isSome then
      match x.srcBad with
      | some (st, d) => endCmd n st d 0 s
      | none => s
    else if (x.phase = .presented ∨ x.phase = .running) ∧ x.todo ≠ 0 then
      let off := enBlocks x.raw - x.todo
      if !bulkDue s x.ctx then s
      else if !graverFree s [8, 9, 10, 11, 12, 13] then graverAsk [8, 9, 10, 11, 12, 13] s
      else if x.tries = 0 then
        -- the blocks of the piece stay in `todo` until it is written, which keeps the command open
        serveBlocks n ((List.range (pieceLen x)).map (· + off)) (updCmd n (fun y => { y with phase := .running, tries := 1 }) s)
      else if (List.range (pieceLen x)).any (fun i => (smGet x.got (off + i)).isNone) then finishIo n (updCmd n (fun y => { y with todo := 0 }) s)
      else presentPiece n x (fun i => smGet x.got (off + i)) s
    else s

def execCopy (cmd : Nat) (s : State) : Host.Outcome State Fault Refusal := run true (copyStep cmd s)

/-! ### Member answers -/

/-- Old contents of an entry have been read: blocks that pass their tag check are kept, others are erased (R64, R85, R86). -/
def oldAnswer (c : NvCmd) (j pos : Nat) (blks : List TBlk) (s : State) : State :=
  match plateOf s c.plate with
  | none => s
  | some x =>
    let b0 := c.lba - x.geom.mlba (x.geom.rowOf c.sn) 0
    let bad := ((List.range c.n).filter (fun i => !((blks[i]?).map (tagOk x.geom.k pos)).getD false)).length
    let s1 := onlyIf (decide (bad ≠ 0)) (incFld (PLT_TAGERR_COUNT c.plate) bad) s
    updEntry j (fun e => (List.range c.n).foldl (fun y i => match blks[i]? with
      | some b => if tagOk x.geom.k pos b then { y with old := smSet y.old (gkey pos (b0 + i)) b }
          else { y with erased := gkey pos (b0 + i) :: y.erased }
      | none => { y with erased := gkey pos (b0 + i) :: y.erased }) e) s1

/-- Survivors of a stripe operation have been read. -/
def sopAnswer (c : NvCmd) (id pos : Nat) (blks : List TBlk) (s : State) : State :=
  match plateOf s c.plate with
  | none => s
  | some x =>
    let bad := ((List.range c.n).filter (fun i => !((blks[i]?).map (tagOk x.geom.k pos)).getD false)).length
    let s1 := onlyIf (decide (bad ≠ 0)) (incFld (PLT_TAGERR_COUNT c.plate) bad) s
    updSop id (fun o => sopBlocks x.geom.k o pos (c.lba - x.geom.mlba (x.geom.rowOf c.sn) 0) .ok c.n blks) s1

/-- MEMBER_READ_COMPLETE (R85, R86, R292): a member read and its tag page complete, each block with its tag. -/
def memberRead (id : Nat) (st : Nvme) (blks : List TBlk) (s : State) : State :=
  match smGet s.io.nvme id with
  | none => s
  | some c =>
    if decide (c.op ≠ .read) || (match c.why with | .tagRd _ => true | _ => false) || devFenced s || !nvIssued s id then s
    else
      let s1 := endNv id s
      match c.why with
      | .remote src tag arg => servedEnd c st (answerRemote src tag arg .read st (blockBytes (blks.map TBlk.data)) (onlyIf (decide (st = .ok)) (portOk c) s1))
      | _ =>
      if st ≠ .ok then badStatus c st s1
      else
        let s2 := readTimed c (hostBytes c (portOk c s1))
        match c.why with
        | .cmdRd n off => memberAnswer c n off (checkTags c blks s2).2 (checkTags c blks s2).1
        | .old j pos => oldAnswer c j pos (checkTags c blks s2).2 (checkTags c blks s2).1
        | .sopRd i pos => sopAnswer c i pos (checkTags c blks s2).2 (checkTags c blks s2).1
        | .joinHdr p _ => joinHeader p (blockBytes (blks.map TBlk.data)) s2
        | _ => s2

def execMemberReadComplete (id : Nat) (st : Nvme) (blks : List TBlk) (s : State) : Host.Outcome State Fault Refusal :=
  run true (memberRead id st blks s)

/-! ### Lost-block table -/

/-- LBT_WRITE_DONE (Sequence REBUILD-1): the table is on every writable member, so the ZEROING entries are presented. -/
def lbtDone (id : Nat) (s : State) : State :=
  match sopOf s id with
  | none => s
  | some o => match plateOf s o.plate with
    | none => s
    | some x =>
      let busy := s.io.nvme.any (fun q => match q.2.why with | .lbt p _ => decide (p = o.plate) | _ => false)
      if busy ∨ o.phase ≠ .listing then s
      else sopCheck id (updSop id (fun y => { y with phase := .writing, lost := [], mark := true })
        (updIo (fun i => { i with queue := i.queue ++ lossSegs x o }) s))

def execLbtWriteDone (sop : Nat) (s : State) : Host.Outcome State Fault Refusal := run true (lbtDone sop s)

/-- LBT_REMOVAL_WRITE (R92). -/
def execLbtRemovalWrite (p : Nat) (s : State) : Host.Outcome State Fault Refusal :=
  run (decide (p < 64)) (match plateOf s p with
    | some x => if x.lbtDirty then writeLbt p s else s
    | none => s)

end Sys2Proof.Machine
end

