-- ==== Sys2Proof/Machine/Rebuild.lean ====
section
/-! DEFINITION. The rebuild pass: its walk, ranges and pacing (R99 to R106), replacement (R107 to R109), the commands of the PLT and
RBD pages (R98, R100, R110 to R113) and its progress records (R102). -/

namespace Sys2Proof.Machine
open Reg

/-! ### Ranges and the walk -/

/-- Join neighbouring ranges with one realised set. -/
def joinNext : List Range → List Range
  | [] => []
  | r :: rest => match joinNext rest with
    | q :: more => if q.set = r.set then r :: more else r :: q :: more
    | [] => [r]

/-- Join the ranges in walk order, which wraps (R99, R115): a first range with the set of the last belongs to it. One range that covers the
whole plate starts at 0. -/
def joinRanges (l : List Range) : List Range :=
  match joinNext l with
  | [] => []
  | [r] => [{ r with start := 0 }]
  | r :: q :: more =>
    let rest := q :: more
    if (rest.getLast?.map Range.set) = some r.set then (if more = [] then [{ q with start := 0 }] else rest) else r :: rest

/-- One stripe takes a realised set (R99). -/
def realiseAt (x : Plate) (sn : Nat) (set : List Nat) : List Range :=
  let before := x.ranges.filter (fun r => decide (r.start < sn))
  let after := x.ranges.filter (fun r => decide (sn + 1 < r.start))
  let next : List Range := if sn + 1 < x.stripes then [{ start := sn + 1, set := x.realised (sn + 1) }] else []
  let first : List Range := if sn = 0 ∨ x.ranges.any (fun r => decide (r.start = 0)) then [] else [{ start := 0, set := x.realised 0 }]
  joinRanges (first ++ before ++ [{ start := sn, set := set }] ++ next ++ after)

/-- A pass may walk to a target set from its cursor on: that needs no fifth range (R99, Table REBUILD-6). -/
def rangesFit (x : Plate) (set : List Nat) : Bool := decide ((realiseAt x x.pass.cursor set).length ≤ 4)

/-- Every stripe is realised at a set. -/
def allAt (x : Plate) (set : List Nat) : Bool := x.ranges.all (fun r => decide (r.set = set))

/-- The rebuild steps in flight on a plate. -/
def stepsOf (s : State) (p : Nat) : List (Nat × Sop) := s.io.sops.filter (fun q => decide (q.2.plate = p ∧ q.2.kind = .rebuild))

/-- A pass is held: PAUSE_PASS, RBD_CTL.PAUSE_ALL, or the ENABLE bits (R100, Table REBUILD-10), a fence, a wait for the Graver, which carries
its steps on channels 0 to 5 (Tables PATH-1, MOVER-1, MOVER-8), or STANDBY entry (Sequence POWER-1 step 2). -/
def passHeld (s : State) (p : Nat) (x : Plate) : Bool :=
  x.pass.paused || isSet s RBD_CTL_PAUSE_ALL || !enabled s 0x39 || !enabled s (0x40 + p) || fenced s 0x39 || plateFenced s p ||
  !graverUp s [0, 1, 2, 3, 4, 5] || decide (2 ≤ s.pwr.stby)

/-- The cursor passes over stripes in which no position moves, up to a stripe that has a step in flight or needs one (R101). -/
def walkPast (busy : List Nat) : Nat → Plate → Plate
  | 0, x => x
  | fuel + 1, x =>
    let c := x.pass.cursor
    if allAt x x.pass.tgt || decide (c ∈ busy) || decide (moving x c ≠ []) then x
    else walkPast busy fuel { x with ranges := realiseAt x c x.pass.tgt, pass := { x.pass with cursor := if c + 1 < x.stripes then c + 1 else 0, walked := x.pass.walked + 1 } }

/-- The first stripe in walk order from a place that needs a step and has none in flight. -/
def nextStep (x : Plate) (busy : List Nat) : Nat → Nat → Option Nat
  | 0, _ => none
  | fuel + 1, c =>
    if c ∉ busy ∧ x.realised c ≠ x.pass.tgt ∧ moving x c ≠ [] then some c
    else nextStep x busy fuel (if c + 1 < x.stripes then c + 1 else 0)

/-- The pass ends: every stripe is realised at T (R101, R108). Replacements that were REBUILDING are ONLINE with FAIL_SEQ 0 in one
label update. -/
def passEnd (p : Nat) (s : State) : State :=
  match plateOf s p with
  | none => s
  | some x =>
    if !(x.pass.running && decide (x.pass.tgt = x.target) && allAt x x.target && decide (stepsOf s p = [])) then s
    else
      let done : List Member := x.members.map (fun y => if y.state = .rebuilding then { y with state := .online, failSeq := 0 } else y)
      let s1 := updPlate p (fun y => { y with members := done, ranges := [{ start := 0, set := y.target }], pass := { y.pass with running := false } }) s
      let s2 := plEvt p PLT_EVT_PASS_DONE 1 s1
      seekPartner p (if done = x.members then refreshPlate p s2 else startLabel p (cycleSync p s2))

/-- B of R104: MEMBER_BW × 10 MB/s over the ONLINE members, in bytes per second. -/
def plateBw (s : State) (p : Nat) (x : Plate) : Nat := getFld s (PLT_BW_MEMBER_BW p) * 10000000 * (x.membersIn [.online]).length

/-- Budget of a slice of `len` µs, without carry (R129); `h` is the host's bytes per second in the slice before. -/
def cycleBase (s : State) (p : Nat) (x : Plate) (y : Cycle) (len h : Nat) : Nat :=
  let bytes := (x.stripes - y.cursor) * x.geom.w * x.geom.s
  let secs := if y.deadline ≤ nowS s then 86400 else y.deadline - nowS s
  max (bytes * len / (secs * 1000000)) ((getFld s PRF_CFG_IDLE_PCT * plateBw s p x / 100 - h) * len / 1000000)

/-- A cycle that a record resumes (R118) begins a slice of full length with its budget (R129), on a grid that starts there: when its first start
lay on the grid of R130 is not kept (DESIGN CHOICE, notes/assumptions/156.md). -/
def resumeCycle (p : Nat) (s : State) : State :=
  match plateOf s p with
  | none => s
  | some x =>
    if !x.cycle.running ∨ x.cycle.len ≠ 0 then s
    else
      let len := getFld s PRF_SLICE_SLICE_US
      cycleSync p (updPlate p (fun z => { z with cycle := { z.cycle with len := len, budget := cycleBase s p x x.cycle len 0 } }) s)

/-- Base budget of a slice of `len` µs, `h` being the host's bytes per second in the slice before (R104). -/
def passBase (s : State) (p : Nat) (x : Plate) (len h : Nat) : Nat :=
  let b := plateBw s p x
  max (getFld s (PLT_CFG_FLOOR_PCT p) * b / 100) (getFld s (PLT_CFG_CEIL_PCT p) * b / 100 - h) * len / 1000000

/-- PLT_BUDGET shows the budget of the current slice (R112). A budget that exceeds its 32 bits shows as 2^32 − 1 (DESIGN CHOICE,
notes/assumptions/159.md). -/
def showBudget (p b : Nat) (s : State) : State := setFld (PLT_BUDGET_BYTES p) (min b (2 ^ 32 - 1)) s

/-- Start a pass (R100): it walks from the cursor towards T, slices on a new grid (R105). A pass that goes on where T would need a fifth range
walks to its former target first (Table REBUILD-6). -/
def passStart (p : Nat) (s : State) : State :=
  match plateOf s p with
  | none => s
  | some x =>
    if x.pass.running ∨ !x.served ∨ allAt x x.target then s
    else
      let len := getFld s RBD_CFG_SLICE_US
      let base := passBase s p x len 0
      let q : Pass := { x.pass with running := true, tgt := if rangesFit x x.target then x.target else x.pass.tgt, walked := 0, pos := 0, len := len,
                                    budget := base, hostBw := 0, recAt := nowS s }
      let s1 := showBudget p base (updPlate p (fun y => { y with pass := q }) s)
      let s2 := updPlate p (fun y => walkPast [] y.stripes y) (sketchEvt 0x39 RBD_EVT_PASS_START 1 (setEvt 0x39 RBD_EVT_PASS_START s1))
      passEnd p (refreshPlate p s2)

/-- At a restart or a takeover the pass goes on that the governing progress record says was running (R103, Table REBUILD-6). -/
def resumePass (p : Nat) (s : State) : State :=
  match plateOf s p with
  | none => s
  | some x => match progGov s x.id 0 with
    | some (_, b) => if (leAt b 0x2C 4).testBit 0 then passStart p s else s
    | none => s

/-- PASS_START (R100): T differs from some stripe's realised set and AUTO_REBUILD is 1. -/
def execPassStart (p : Nat) (s : State) : Host.Outcome State Fault Refusal :=
  run (decide (p < 64)) (match plateOf s p with
    | some x => if isSet s (PLT_CFG_AUTO_REBUILD p) ∧ !passHeld s p x then passStart p s else s
    | none => s)

/-- Member bytes a step reads and writes (R104). -/
def stepCharge (x : Plate) (o : Sop) : Nat := ((sopPositions x o).length + (moving x o.sn).length) * x.geom.s

/-- REBUILD_STEP_START (R101, R104, R106): the next stripe's step starts where the budget covers its charge and a step slot is
free. A changed T takes effect once no step is in flight, and where it would need a fifth range once the oldest range has been walked out. -/
def stepStart (p : Nat) (s : State) : State :=
  match plateOf s p with
  | none => s
  | some x0 =>
    let busy := (stepsOf s p).map (fun q => q.2.sn)
    let x1 : Plate := if x0.pass.tgt ≠ x0.target ∧ busy = [] ∧ rangesFit x0 x0.target = true then { x0 with pass := { x0.pass with tgt := x0.target } } else x0
    let x := walkPast busy x1.stripes x1
    let hold := decide (x.pass.tgt ≠ x.target) && rangesFit x x.target && decide (busy ≠ [])
    if !x0.pass.running ∨ passHeld s p x0 then s
    else
      let s1 := updPlate p (fun _ => x) s
      match nextStep x busy x.stripes x.pass.cursor with
      | none => passEnd p s1
      | some sn =>
        let o : Sop :=
          { kind := .rebuild, plate := p, sn := sn, first := 0, last := x.geom.bps - 1, phase := .lock, grid := [], erased := [], tagBad := [], lost := [],
            waits := 0, pipe := 8, tagWaits := 0, charge := 0, mark := false, fix := [], located := [], full := false }
        let c := stepCharge x o
        if hold ∨ x.pass.budget < c ∨ getFld s RBD_CFG_STEPS_MAX ≤ (s.io.sops.filter (fun q => decide (q.2.kind = .rebuild))).length then s1
        else newSop .rebuild p sn 0 (x.geom.bps - 1) c (updPlate p (fun y => { y with pass := { y.pass with budget := y.pass.budget - c } }) s1)

def execRebuildStepStart (p : Nat) (s : State) : Host.Outcome State Fault Refusal := run (decide (p < 64)) (stepStart p s)

/-- REBUILD_STEP_DONE (Sequence REBUILD-2 step 5): steps end in walk order; the stripe is realised at T and joins the window of
R102. -/
def stepDone (id : Nat) (s : State) : State :=
  match sopOf s id with
  | none => s
  | some o => match plateOf s o.plate with
    | none => s
    | some x =>
      if o.kind ≠ .rebuild ∨ o.phase ≠ .writing ∨ sopBusy s id ∨ lossPending s o ∨ x.pass.cursor ≠ o.sn then s
      else
        let old := x.realised o.sn
        let x1 : Plate := { x with ranges := realiseAt x o.sn x.pass.tgt }
        let x2 : Plate := { x1 with pass := { x.pass with cursor := if o.sn + 1 < x.stripes then o.sn + 1 else 0, walked := x.pass.walked + 1, window := x.pass.window ++ [(o.sn, old)] } }
        let s1 := add64 RBD_BYTES_LO_COUNT RBD_BYTES_HI_COUNT o.charge (sopEnd id (updPlate o.plate (fun _ => x2) s))
        let busy := (stepsOf s1 o.plate).map (fun q => q.2.sn)
        passEnd o.plate (refreshPlate o.plate (updPlate o.plate (fun y => walkPast busy y.stripes y) s1))

def execRebuildStepDone (sop : Nat) (s : State) : Host.Outcome State Fault Refusal := run true (stepDone sop s)

/-! ### Pacing -/

/-- Length of the slice after one that ended at `pos` µs from the start of the grid (R105). -/
def nextSlice (grid pos : Nat) : Nat :=
  if grid = 0 ∨ pos % grid = 0 then grid else max (grid / 2) (grid - pos % grid)

/-- REBUILD_SLICE_END (R104, R105): the slice has lasted `lenUs`, at least its nominal length and until the steps started in it
have ended. -/
def sliceEnd (p lenUs : Nat) (s : State) : State :=
  match plateOf s p with
  | none => s
  | some x =>
    if !x.pass.running ∨ lenUs < x.pass.len ∨ stepsOf s p ≠ [] then s
    else
      let pos := x.pass.pos + lenUs
      let len := nextSlice (getFld s RBD_CFG_SLICE_US) pos
      let h := if lenUs = 0 then 0 else x.pass.hostBw * 1000000 / lenUs
      let base := passBase s p x len h
      let carry := min x.pass.budget (x.geom.w * x.geom.s)
      let s1 := updPlate p (fun y => { y with pass := { y.pass with pos := pos, len := len, budget := base + carry, hostBw := 0 } }) s
      let s2 := showBudget p (base + carry) s1
      onlyIf (decide (x.pass.len < lenUs)) (fun t => setEvt 0x39 RBD_EVT_SLICE_LATE (incFld RBD_LATE_COUNT 1 t)) s2

def execRebuildSliceEnd (p lenUs : Nat) (s : State) : Host.Outcome State Fault Refusal :=
  run (decide (p < 64)) (sliceEnd p lenUs s)

/-- The progress record of a plate's pass (R102, R115). -/
def passRecord (p : Nat) (x : Plate) : List Byte :=
  progBytes 0 p x.ranges.length (x.pass.recSeq + 1) x.id x.labelGen x.pass.cursor 0 (b2n x.pass.running) x.ranges x.target

/-- A progress record is due: CKPT_STRIPES stripes have been walked since the last one, or CKPT_S seconds have passed (R102), or the pass has
ended with stripes that no record covers. -/
def recordDueNow (s : State) (x : Plate) : Bool :=
  if x.pass.running then decide (getFld s RBD_CKPT_CKPT_STRIPES ≤ x.pass.walked) || decide (x.pass.recAt + getFld s RBD_CKPT_CKPT_S ≤ nowS s)
  else decide (x.pass.window ≠ [])

/-- PROGRESS_RECORD (R102): the record is durable in the flash log and goes to the standby; the window empties. A failed write
raises CKPT_ERR and is retried at the next record. -/
def progressRecord (p : Nat) (ok : Bool) (s : State) : State :=
  match plateOf s p with
  | none => s
  | some x =>
    if !recordDueNow s x then s
    else if !ok then setEvt 0x39 RBD_EVT_CKPT_ERR (updPlate p (fun y => { y with pass := { y.pass with walked := 0, recAt := nowS s } }) s)
    else
      let b := passRecord p x
      let s1 := updPlate p (fun y => { y with pass := { y.pass with recSeq := y.pass.recSeq + 1, walked := 0, window := [], ckpt := y.pass.cursor, recAt := nowS s } }) (progAppend b s)
      if x.attached then sendMsg x.standby .progress 0 x.id p b s1 else s1

def execProgressRecord (p : Nat) (ok : Bool) (s : State) : Host.Outcome State Fault Refusal :=
  run (decide (p < 64)) (progressRecord p ok s)

/-! ### Commands of the PLT pages -/

def pltEnd (p : Nat) (st : Status) (s : State) : State :=
  cmdEnd (PLT_CMD_GO p) (PLT_CMD_RES_STATUS p) (PLT_CMD_RES_DONE p) st s

/-- FAIL_MEMBER (R93, R112). -/
def failMemberCmd (p slot : Nat) (s : State) : State :=
  match plateOf s p with
  | none => pltEnd p .stateConflict s
  | some x =>
    if x.geom.n ≤ slot then pltEnd p .invalidField s
    else if slot ∈ x.membersIn [.missing, .failed] then pltEnd p .stateConflict s
    else pltEnd p .ok (failMember p slot .failed s)

/-- A tracked namespace of a drive port. -/
def nsOf (s : State) (port nsid : Nat) : Option Ns := (dport s port).bind (fun d => d.nss.find? (fun n => decide (n.nsid = nsid)))

/-- A namespace is a configured vault target (R110, R151). -/
def isVaultNs (s : State) (port nsid : Nat) : Bool :=
  (decide (port = getFld s VLT_CFG_PORT) && decide (nsid = getFld s VLT_NSID_NSID)) ||
  (isSet s VLT_CFG_MIRROR && decide (port = getFld s VLT_CFG_MPORT) && decide (nsid = getFld s VLT_MNSID_NSID))

/-- The member entries of a label, as (node, port, state code, NSID, FAIL_SEQ, DRIVE_KEY). -/
def labelMembers (b : List Byte) : List (Nat × Nat × Nat × Nat × Nat × Nat) :=
  (List.range (leAt b 0x22 1)).map (fun m =>
    let o := 0x400 + 16 * m
    (leAt b o 2 % 512, leAt b (o + 2) 1, leAt b (o + 3) 1, leAt b (o + 4) 4, leAt b (o + 8) 2, leAt b (o + 12) 4))

/-- A namespace is named by a member table held here: of an assembled plate, a standby copy or a FOREIGN plate (R110). `but` is a
slot that does not count. -/
def namedHere (s : State) (port nsid : Nat) (but : Option (Nat × Nat)) : Bool :=
  s.store.plates.any (fun q => (List.range q.2.members.length).any (fun m => decide (some (q.1, m) ≠ but) &&
    ((q.2.mem m).map (fun y => decide (y.node = nodeId s ∧ y.port = port ∧ y.nsid = nsid))).getD false)) ||
  s.store.foreigns.any (fun f => (labelMembers f.label).any (fun e => decide (e.1 = nodeId s ∧ e.2.1 = port ∧ e.2.2.2.1 = nsid))) ||
  s.link.held.any (fun q => q.2.plate.members.any (fun y => decide (y.node = nodeId s ∧ y.port = port ∧ y.nsid = nsid)))

/-- A namespace is unassigned (R110). -/
def unassigned (s : State) (port nsid : Nat) (but : Option (Nat × Nat)) : Bool :=
  ((nsOf s port nsid).map (fun n => n.genA.isNone && n.genB.isNone)).getD false && !isVaultNs s port nsid && !namedHere s port nsid but

/-- Bytes a plate uses on each member (R34). -/
def Plate.used (x : Plate) : Nat := usedBytes x.geom.shift x.geom.rows

/-- The ranges whose realised set does not name a slot, marked as not yet written in the slot's replacement (R86, R96). -/
def markUnwritten (m : Nat) (rs : List Range) : List Range :=
  rs.map (fun r => if m ∈ r.set ∨ 128 + m ∈ r.set then r else { r with set := r.set ++ [128 + m] })

/-- Put a namespace into a failed slot: the label update of R107 step 1 begins, and its journal header is read (R76). `cmd` says that a REPLACE
command ends with it. -/
def replaceAccept (p m port nsid : Nat) (cmd : Bool) (s : State) : State :=
  let key := ((dport s port).map DPort.key).getD 0
  let ns := nsOf s port nsid
  let s1 := updPlate p (fun x => { x.updMem m (fun y =>
    { y with node := nodeId s, port := port, nsid := nsid, driveKey := key, state := .fresh, errs := [],
             genA := ns.bind Ns.genA, genB := ns.bind Ns.genB, seen := true }) with repl := smSet x.repl m { stage := 0, cmd := cmd }, ranges := markUnwritten m x.ranges }) s
  match plateOf s1 p with
  | none => s1
  | some x => memberReq p m 0 0 .read (journalLba x) 1 [] (fun _ => .joinHdr p m) (joinResv p m (startLabel p (updNs port nsid (fun n => { n with foreign := false }) s1)))

/-- The checks of R107 on a namespace found on a READY port, in their order. `own` says that it is the one the failed slot's own entry
names. -/
def replaceBad (s : State) (p slot port nsid : Nat) (x : Plate) (n : Ns) (own : Bool) : Option Status :=
  if !(unassigned s port nsid (if own then some (p, slot) else none) || (own && !isVaultNs s port nsid)) then some .stateConflict
  else if x.failSeqOf slot = 0 then some .stateConflict
  else if n.bytes < x.used then some .noSpace
  else if !n.lbaOk then some .invalidField
  else if (List.range x.members.length).any (fun i => decide (i ≠ slot) &&
      ((x.mem i).map (fun y => decide (some y.driveKey = (dport s port).map DPort.key))).getD false) then some .invalidField
  else none

/-- REPLACE (R107): the checks in their order, then the new namespace goes into the slot. -/
def replaceCmd (p slot : Nat) (s : State) : State :=
  let port := getFld s (PLT_CMD_PORT_PORT p)
  let nsid := getFld s (PLT_CMD_NSID_NSID p)
  match plateOf s p with
  | none => pltEnd p .stateConflict s
  | some x =>
    if x.geom.n ≤ slot then pltEnd p .invalidField s
    else match (if portState s port = 4 then nsOf s port nsid else none) with
    | none => pltEnd p .stateConflict s
    | some n =>
      let own := ((x.mem slot).map (fun y => decide (y.failSeq ≠ 0 ∧ y.node = nodeId s ∧ y.port = port ∧ y.nsid = nsid))).getD false
      match replaceBad s p slot port nsid x n own with
      | some st => pltEnd p st s
      | none => replaceAccept p slot port nsid true s

/-- START_PASS (R100, R107 step 4): a held pass goes on, SPARE_HELD replacements become REBUILDING, and a pass starts where a stripe is
not realised at T. -/
def startPassCmd (p : Nat) (s : State) : State :=
  match plateOf s p with
  | none => pltEnd p .stateConflict s
  | some x =>
    let held := x.membersIn [.spareHeld]
    let s1 := updPlate p (fun y => { held.foldl (fun z m => z.updMem m (fun q => { q with state := .rebuilding })) y with pass := { y.pass with paused := false } }) s
    pltEnd p .ok (passStart p (if held = [] then s1 else startLabel p s1))

/-- PAUSE_PASS (R100). -/
def pausePassCmd (p : Nat) (s : State) : State :=
  match plateOf s p with
  | none => pltEnd p .stateConflict s
  | some _ => pltEnd p .ok (updPlate p (fun y => { y with pass := { y.pass with paused := true } }) s)

/-- RECOVER (R98). -/
def recoverCmd (p : Nat) (s : State) : State :=
  match plateOf s p with
  | none => pltEnd p .stateConflict s
  | some x =>
    if 3 ≤ x.u ∨ !x.latch then pltEnd p .stateConflict s
    else pltEnd p .ok (refreshPlate p (updPlate p (fun y => { y with latch := false }) s))

/-- The namespace of a port and NSID is FOREIGN: it belongs to a FOREIGN plate, or its device-view member state is FOREIGN (Table
REBUILD-7). -/
def isForeignNs (s : State) (port nsid : Nat) : Bool :=
  ((nsOf s port nsid).map Ns.foreign).getD false || s.store.foreigns.any (fun f => f.spots.any (fun q => decide (q.1 = port ∧ q.2.1 = nsid)))

/-- RELEASE (R110): zeros over both label copies of a FOREIGN namespace. Where the namespace is not FOREIGN, its port not READY, or the
namespace a vault target, the spec gives no status: STATE_CONFLICT; the command ends OK when the zero writes have been issued (DESIGN CHOICE,
notes/assumptions/127.md). -/
def releaseCmd (p : Nat) (s : State) : State :=
  let port := getFld s (PLT_CMD_PORT_PORT p)
  let nsid := getFld s (PLT_CMD_NSID_NSID p)
  if portState s port ≠ 4 ∨ !isForeignNs s port nsid ∨ isVaultNs s port nsid then pltEnd p .stateConflict s
  else
    let z := fun lba (t : State) => sendNv { plate := 64, mem := 0, node := nodeId s, port := port, nsid := nsid, sn := 0, pos := 0, op := .write, lba := lba, n := 1, data := zeros 4096, why := .other, tries := 0 } t
    let s1 := updNs port nsid (fun n => { n with genA := none, genB := none, plateId := 0, foreign := false }) (z 128 (z 0 s))
    let s2 := updStore (fun t => { t with foreigns := (t.foreigns.map (fun f => { f with spots := f.spots.filter (fun q => !decide (q.1 = port ∧ q.2.1 = nsid)) })).filter (fun f => decide (f.spots ≠ [])) }) s1
    pltEnd p .ok s2

/-- RBD_PAUSE_ALL (R100): a write of RBD_CTL. -/
def execRbdPauseAll (w : Win) (v : Nat) (s : State) : Host.Outcome State Fault Refusal :=
  run true (guardWrite w 0x39 (fun t => writeRwi w 0x39 [(RBD_CTL_PAUSE_ALL, v % 2)] t) s)

end Sys2Proof.Machine
end

