-- ==== Sys2Proof/Machine/Assembly.lean ====
section
/-! DEFINITION. Assembly of plates from member labels (R36 to R38, R42, R59, R91, R92, R103, R110) and import (R111). -/

namespace Sys2Proof.Machine
open Reg

/-! ### Labels as read -/

/-- A label copy is valid (R36). -/
def labelValid (b : List Byte) : Bool := decide (leAt b 0 8 = 0x4C4542414C4E595A) && decide (leAt b 8 2 = 1) && crcOk b 0xFFC

def labelGenOf (b : List Byte) : Option Nat := if labelValid b then some (leAt b 0x10 8) else none

/-- The label a reader takes of two copies: the valid one with the higher LABEL_GEN, copy A when both are equal (R37). -/
def newest (copyA copyB : List Byte) : Option (List Byte) :=
  match labelGenOf copyA, labelGenOf copyB with
  | some a, some b => if b ≤ a then some copyA else some copyB
  | some _, none => some copyA
  | none, some _ => some copyB
  | none, none => none

def bestLabel (f : FoundNs) : Option (List Byte) := newest f.copyA f.copyB

def mediaLabel (m : MemberMedia) : Option (List Byte) := newest m.copyA m.copyB

def labelPlate (b : List Byte) : Nat := leAt b 0x18 8

/-- What a write of a label block by another node leaves on a namespace: the generation of that copy, none where it is not valid, and the plate of the
best copy (R36, R37). -/
def noteLabel (lba : Nat) (b : List Byte) (n : Ns) : Ns :=
  let gen := labelGenOf b
  let other := if lba = 0 then n.genB else n.genA
  let id := match gen, other with
    | some g, some o => if o ≤ g then labelPlate b else n.plateId
    | some _, none => labelPlate b
    | none, some _ => n.plateId
    | none, none => 0
  { n with genA := if lba = 0 then gen else n.genA, genB := if lba = 0 then n.genB else gen, plateId := id }

/-- The label that governs a plate among those read: the highest LABEL_GEN (R38). -/
def governing (labels : List (List Byte)) (id : Nat) : Option (List Byte) :=
  (labels.filter (fun b => decide (labelPlate b = id))).foldl (fun a b => match a with
    | none => some b
    | some c => if leAt c 0x10 8 < leAt b 0x10 8 then some b else some c) none

/-- The labels read of a plate: those of the namespaces found here and those of its members on other nodes that were reached. -/
def labelsOf (found : List FoundNs) (md : PlateMedia) : List (List Byte) := found.filterMap bestLabel ++ md.mems.filterMap mediaLabel

/-- What was read of a plate's members; nothing where no member was read. -/
def mediaOf (media : List PlateMedia) (id : Nat) : PlateMedia :=
  (media.find? (fun d => decide (d.plateId = id))).getD { plateId := id, mems := [], progress := [] }

def mstateOf : Nat → MState
  | 0 => .online | 1 => .fresh | 2 => .missing | 3 => .failed | 4 => .rebuilding | 5 => .spareHeld | _ => .foreign

def pstateOf : Nat → PState
  | 0 => .building | 1 => .optimal | 2 => .degraded1 | 3 => .degraded2 | 4 => .rebuilding | 5 => .copyback | 6 => .failed | 7 => .foreign | _ => .importing

/-- The geometry a label records, with the offsets of the members' regions: a reader takes them from the label (R33, Table STRIPE-9). -/
def labelGeom (b : List Byte) : Geom :=
  { n := leAt b 0x22 1, w := leAt b 0x23 1, shift := leAt b 0x27 1, seed := leAt b 0x28 8, rows := leAt b 0x30 4,
    jOff := leAt b 0x40 8, lbtOff := leAt b 0x48 8, catOff := leAt b 0x50 8, datOff := leAt b 0x58 8, tagOff := leAt b 0x68 8 }

/-- A slot of a label as its member table gives it. -/
def labelSlot (gov : List Byte) (m : Nat) : Member :=
  let o := 0x400 + 16 * m
  { node := leAt gov o 2 % 512, port := leAt gov (o + 2) 1, nsid := leAt gov (o + 4) 4, state := mstateOf (leAt gov (o + 3) 1),
    failSeq := leAt gov (o + 8) 2, driveKey := leAt gov (o + 12) 4, errs := [], genA := none, genB := none }

/-- A slot with the label copies of its namespace: the member, whether a label of its plate is found, and whether that label is stale (R38). -/
def slotWith (gov copyA copyB : List Byte) (port : Nat) (y : Member) : Member × Bool × Bool :=
  match newest copyA copyB with
  | some b => if labelPlate b = labelPlate gov then
      ({ y with port := port, genA := labelGenOf copyA, genB := labelGenOf copyB }, true, decide (leAt b 0x10 8 < leAt gov 0x10 8))
    else (y, false, false)
  | none => (y, false, false)

/-- A slot of a label with the namespace found for it: the member, and whether it is found and whether it is stale (R38, Table
REBUILD-7). The label copies of a member on another node are known where that node was reached. -/
def slotMember (s : State) (found : List FoundNs) (md : PlateMedia) (gov : List Byte) (m : Nat) : Member × Bool × Bool :=
  let y := labelSlot gov m
  if y.node ≠ nodeId s then
    match md.mems.find? (fun q => decide (q.mem = m)) with
    | some q => slotWith gov q.copyA q.copyB y.port y
    | none => ({ y with seen := false }, true, false)
  else
    match found.find? (fun f => decide (f.nsid = y.nsid ∧ driveKey f.serial = y.driveKey) && decide ((bestLabel f).map labelPlate = some (labelPlate gov))) with
    | some f => slotWith gov f.copyA f.copyB f.port y
    | none => (y, false, false)

/-- The members that are read for a plate's catalogue, lost-block table and journal: ONLINE, found and not stale (R40, R42). -/
def readableSlots (slots : List (Member × Bool × Bool)) : List Nat :=
  (List.range slots.length).filter (fun m => ((slots[m]?).map (fun q => q.2.1 && !q.2.2 && decide (q.1.state = .online ∧ q.1.failSeq = 0))).getD false)

/-! ### What the members hold beside their labels -/

/-- What was read of the readable members of a plate. -/
def readMems (on : List Nat) (md : PlateMedia) : List MemberMedia := md.mems.filter (fun q => decide (q.mem ∈ on))

/-- The candidate with the highest number, the first among equals. -/
def highest {α : Type} (key : α → Nat) (l : List α) : Option α :=
  l.foldl (fun a b => match a with
    | none => some b
    | some c => if key c < key b then some b else some c) none

/-- A catalogue page as read: from the member whose copy is valid and carries the highest PAGE_GEN (R40). -/
def mediaPage (ms : List MemberMedia) (c : Nat) : Option (List Byte) :=
  highest (fun b => leAt b 0xFF8 4) ((ms.filterMap (fun q => smGet q.cat c)).filter (fun b => crcOk b 0xFFC))

/-- The valid entries of a catalogue page, as slot to (volume, extent) (Table STRIPE-12). -/
def pageEntries (slots c : Nat) (b : List Byte) : List (Nat × Nat × Nat) :=
  (List.range 511).filterMap (fun i =>
    let e := leAt b (8 * i) 8
    if e.testBit 63 ∧ 511 * c + i < slots then some (511 * c + i, e % 2 ^ 14, e / 2 ^ 14 % 2 ^ 20) else none)

/-- The header of the lost-block table that governs, as (GEN, COUNT): the valid one with the highest GEN (R42). -/
def lbtGov (ms : List MemberMedia) : Option (Nat × Nat) :=
  (highest (fun b => leAt b 0 8) ((ms.map MemberMedia.lbtHead).filter (fun b => crcOk b 12))).map (fun b => (leAt b 0 8, min (leAt b 8 4) 65536))

/-- An entry of the lost-block table: valid in the copy that governs, or in another member's with the same GEN; none where it fails in every
one (R42). -/
def lbtEntry (ms : List MemberMedia) (gen n : Nat) : Option (List Byte) :=
  ((ms.filter (fun q => crcOk q.lbtHead 12 && decide (leAt q.lbtHead 0 8 = gen))).filterMap (fun q => smGet q.lbtEnts n)).find? (fun b => crcOk b 12)

/-- The block position that a lost-block entry means: that of the member it names where a position of the row has its home there, else the
member's own place in the row. -/
def lostOf (x : Plate) (b : List Byte) : Lost :=
  let row := leAt b 0 4
  let mem := leAt b 6 1
  let sn0 := row * x.geom.g
  let all := (List.range (x.geom.g * x.geom.w)).map (fun a => (a, x.homeOf (sn0 + a / x.geom.w) (a % x.geom.w)))
  let pos := match all.find? (fun r => decide (r.2 = some mem)) with
    | some r => r.1
    | none => (stippleRow x.geom.seed row x.geom.n).idxOf mem
  { row := row, pos := pos, blk := leAt b 4 2, mem := mem, opMin := leAt b 8 4 }

/-- A lost-block entry whose block has been rewritten: at the present home of its position, which is neither failed nor unrelocated, the block
carries TYPE DATA with a matching CRC (R92). -/
def rewritten (x : Plate) (ms : List MemberMedia) (e : Lost) : Bool :=
  let sn := e.row * x.geom.g + e.pos / x.geom.w
  let pos := e.pos % x.geom.w
  !x.erasedPos sn pos && match x.homeOf sn pos with
    | none => false
    | some m => ms.any (fun q => decide (q.mem = m) && q.blks.any (fun r => decide (r.1 = e.row ∧ r.2.1 = e.blk ∧ tagType r.2.2.tag = tyData) &&
        decide (tagCrc r.2.2.tag = crc32c (slice r.2.2.data 0 4096))))

/-- The lost-block table of the members (R42, R92): its GEN, its entries less those whose blocks have been rewritten, and whether some entry
failed in every copy. -/
def mediaLost (x : Plate) (ms : List MemberMedia) : Nat × List Lost × Bool :=
  match lbtGov ms with
  | none => (0, [], false)
  | some (gen, count) =>
    let es := (List.range count).map (lbtEntry ms gen)
    let all := ((es.filterMap id).filter (fun b => (leAt b 7 1).testBit 0)).map (lostOf x)
    (gen, all.filter (fun e => !rewritten x ms e), es.any Option.isNone)

/-- The member journal that governs (R75): of the members whose label marks them journal members and whose header is valid, the one with the
higher PAIR_GEN; its records that count, by number, and its atomic log. -/
def mediaJournal (id : Nat) (ms : List MemberMedia) : List (Nat × List Byte) × List (Nat × Block) :=
  let js := ms.filterMap (fun q => (headerGen id q.jHdr).bind (fun g =>
    if ((mediaLabel q).map (fun b => decide (labelPlate b = id) && (leAt b 0x0B 1).testBit 0)).getD false then some (g, q) else none))
  match highest Prod.fst js with
  | none => ([], [])
  | some (g, q) => (q.jRecs.filter (fun r => crcOk r.2 0x7C && decide (leAt r.2 0x4C 4 = g % 2 ^ 32)), q.jLog)

/-- The highest PAIR_GEN of a valid journal header found on any member of a plate (R76). -/
def mediaMark (md : PlateMedia) : Nat := ((md.mems.filterMap (fun q => headerGen md.plateId q.jHdr)).foldl max 0)

/-! ### Progress records -/

/-- The realised sets a record's ranges give. -/
def recordRanges (b : List Byte) : List Range :=
  let r := (List.range (min 4 (leAt b 0x0B 1))).map (fun i =>
    ({ start := leAt b (0x30 + 24 * i) 8 % 2 ^ 37, set := ofMask (leAt b (0x38 + 24 * i) 16) } : Range))
  joinRanges (r.mergeSort (fun a c => decide (a.start ≤ c.start)))

def emptyPair (mark : Nat) : JPair :=
  { a := none, b := none, hdrWait := 0, copying := false, copyTo := 0, copyGen := 0, copyWait := 0, mark := mark, dirty := [], writing := [] }

def emptyPass : Pass :=
  { running := false, paused := false, tgt := [], cursor := 0, walked := 0, pos := 0, len := 0, budget := 0, hostBw := 0, recSeq := 0, ckpt := 0, window := [] }

def emptyCycle : Cycle :=
  { running := false, suspended := false, cursor := 0, started := false, startAt := 0, deadline := 0, overdue := false, recSeq := 0, pos := 0, len := 0,
    budget := 0, hostBw := 0, pausedBy := false, suspAt := 0, units := [], lastEnd := 0 }

/-- The record of a plate and kind that governs: of those a former owner within reach gives (R111), else of this node's progress log (R115). -/
def progBest (s : State) (progress : List (List Byte)) (id kind : Nat) : Option (List Byte) :=
  (highest (fun b => leAt b 0x0C 4) (progress.filter (fun b => progValid b && decide (leAt b 0x10 8 = id ∧ leAt b 9 1 = kind)))).or
    ((progGov s id kind).map Prod.snd)

/-- Resume a Proof pass cycle from its governing record (R118). -/
def recordCycle (s : State) (progress : List (List Byte)) (id : Nat) : Cycle :=
  match progBest s progress id 1 with
  | none => emptyCycle
  | some b =>
    let now := devTime s / 1000000000
    let left := leAt b 0x28 4
    { emptyCycle with running := (leAt b 0x2C 4).testBit 0, cursor := leAt b 0x20 8 % 2 ^ 37, started := true, deadline := now + left,
                      startAt := (now : Int) + left - getFld s PRF_CFG_PERIOD_DAYS * 86400, overdue := decide (left = 0), recSeq := leAt b 0x0C 4 }

/-- The slots of a plate whose replacement a pass has still to write: those with one of the given states and a non-zero FAIL_SEQ. -/
def replSlots (x : Plate) (st : List MState) : List Nat := (x.membersIn st).filter (fun m => decide (x.failSeqOf m ≠ 0))

/-- The ranges of a record with the marks of replacements not yet written: in every range that does not name the slot, and for a REBUILDING one
only where the range is not realised at the record's target (R86, R96). -/
def markRanges (x : Plate) (tgt : List Nat) (rs : List Range) : List Range :=
  let rs1 := (replSlots x [.fresh, .spareHeld]).foldl (fun l m => markUnwritten m l) rs
  rs1.map (fun r => if r.set.filter (· < 128) = tgt then r else ((replSlots x [.rebuilding]).foldl (fun l m => markUnwritten m l) [r]).headD r)

/-- What the governing progress records of a plate say of its ranges, pass and cycle (R103, R111, R118). -/
def withProgress (s : State) (progress : List (List Byte)) (x : Plate) : Plate :=
  let y : Plate := match progBest s progress x.id 0 with
    | some b =>
      let tgt := ofMask (leAt b 0x90 16)
      { x with ranges := markRanges x tgt (recordRanges b)
               pass := { emptyPass with tgt := tgt, cursor := leAt b 0x20 8 % 2 ^ 37, ckpt := leAt b 0x20 8 % 2 ^ 37, recSeq := leAt b 0x0C 4 } }
    | none => x
  { y with cycle := recordCycle s progress x.id }

/-- What the members hold beside their labels: catalogue, lost-block table and PAIR_GEN (R40, R41, R42, R76, R92). -/
def withMedia (on : List Nat) (md : PlateMedia) (x : Plate) : Plate :=
  let ms := readMems on md
  let pages := (List.range (catPages x)).map (fun c => (c, mediaPage ms c))
  let l := mediaLost x ms
  { x with cat := pages.flatMap (fun q => ((q.2.map (pageEntries x.geom.slots q.1)).getD []))
           catBad := (pages.filter (fun q => q.2.isNone)).map Prod.fst
           lbtGen := l.1, jp := emptyPair (mediaMark md), lbt := l.2.1, lbtFull := decide (65536 ≤ l.2.1.length)
           lbtDirty := l.2.2 || decide (l.2.1.length < ((lbtGov ms).map Prod.snd).getD 0) }

/-- Records for the Sketchbook of what could not be read of a plate's members: a catalogue page with no valid copy, severity 3 (R41), and
lost-block entries dropped (R42). The spec gives neither a code: bits 31 and 30 of the plate's page, which no event has (DESIGN CHOICE,
notes/assumptions/135.md). -/
def mediaRecords (p : Nat) (on : List Nat) (md : PlateMedia) (s : State) : State :=
  match plateOf s p with
  | none => s
  | some x =>
    let s1 := x.catBad.foldl (fun t _ => sketchEvt (0x40 + p) 31 3 t) s
    onlyIf (mediaLost x (readMems on md)).2.2 (sketchEvt (0x40 + p) 30 1) s1

/-- The plate that a governing label, its progress records and the contents of its members describe (R59, R98, R103, R110). -/
def buildPlate (s : State) (gov : List Byte) (slots : List (Member × Bool × Bool)) (md : PlateMedia) : Plate :=
  let members := slots.map Prod.fst
  let failed := (List.range members.length).filter (fun m => ((members[m]?).map (fun y => decide (y.failSeq ≠ 0))).getD false)
  let st := leAt gov 0x0A 1
  let base := leAt gov 0x78 8
  let x : Plate :=
    { id := labelPlate gov, geom := labelGeom gov, building := false, importing := false, impPage := none, gone := false, owner := leAt gov 0x38 2,
      standby := leAt gov 0x3A 2, attached := false, members := members, labelGen := leAt gov 0x10 8, labelBusy := false, labelWait := [],
      labelMore := false, labelSeq := 0, pendFail := [], failNext := leAt gov 0x84 2, createdOp := leAt gov 0x80 4, catGen := leAt gov 0x88 8,
      cat := [], catBad := [], latch := decide (st = 6), ranges := [{ start := 0, set := if st = 1 ∨ st = 2 then failed else [] }], pass := emptyPass,
      cycle := emptyCycle, seqNo := base + 2 ^ 20, seqBase := base, lastRow := 0, lbt := [], lbtGen := 0, lbtFull := false, lbtDirty := false,
      jp := emptyPair 0, state := pstateOf st, repl := [], mirrorOn := false }
  withMedia (readableSlots slots) md
    (withProgress s md.progress { x with ranges := (replSlots x [.fresh, .rebuilding, .spareHeld]).foldl (fun l m => markUnwritten m l) x.ranges })

/-- Slots to fail once a plate is assembled: stale namespaces as FAILED, missing ones as MISSING where FAIL_SEQ is 0 (Table REBUILD-7). -/
def assemblyFails (slots : List (Member × Bool × Bool)) : List (Nat × MState) :=
  (List.range slots.length).filterMap (fun m => match slots[m]? with
    | some (y, found, stale) =>
      if found ∧ stale ∧ y.state ≠ .failed ∧ y.state ≠ .missing then some (m, .failed)
      else if !found ∧ y.failSeq = 0 then some (m, .missing) else none
    | none => none)

/-- The owner sends CLAIM to every node that serves a remote member of a plate (R335). -/
def claimAs (p gen : Nat) (s : State) : State :=
  match plateOf s p with
  | none => s
  | some x => (((x.members.map Member.node).filter (· ≠ nodeId s)).eraseDups).foldl (fun t n => sendMsg n .claim 0 x.id 0 (le64 gen) t) s

def sendClaims (p : Nat) (s : State) : State := claimAs p (((plateOf s p).map Plate.labelGen).getD 0) s

/-- A namespace with a label of a plate held here that is no member of it: its label is stale, or no slot without a failure carries its NSID
and DRIVE_KEY (Table REBUILD-7). -/
def strange (s : State) (x : Plate) (f : FoundNs) : Bool :=
  match bestLabel f with
  | none => false
  | some b => decide (labelPlate b = x.id) &&
      (let mine := x.members.filter (fun y => decide (y.node = nodeId s ∧ y.nsid = f.nsid ∧ y.driveKey = driveKey f.serial))
       !mine.any (fun y => decide (y.failSeq = 0)) && (decide (mine = []) || decide (leAt b 0x10 8 < x.labelGen)))

/-- Its device-view member state is FOREIGN. -/
def markForeign (x : Plate) (found : List FoundNs) (s : State) : State :=
  (found.filter (strange s x)).foldl (fun t f => updNs f.port f.nsid (fun n => { n with foreign := true }) t) s

/-- A namespace that reappears with a valid label of a plate served here, naming a failed slot and matching the slot's NSID and DRIVE_KEY, is
taken as a REPLACE of that slot onto itself, with the checks of one (R107, R109). -/
def autoReturn (f : FoundNs) (s : State) : State :=
  match bestLabel f with
  | none => s
  | some b => match s.store.plates.find? (fun q => decide (q.2.id = labelPlate b)) with
    | none => s
    | some (p, x) =>
      let m := leAt b 0x21 1
      let back := ((x.mem m).map (fun y => decide (y.failSeq ≠ 0 ∧ y.state ∈ [.missing, .failed] ∧ y.node = nodeId s ∧ y.nsid = f.nsid ∧ y.driveKey = driveKey f.serial))).getD false
      match (if portState s f.port = 4 then nsOf s f.port f.nsid else none) with
      | none => s
      | some n => if isSet s (PLT_CFG_AUTO_RETURN p) ∧ x.served ∧ back ∧ replaceBad s p m f.port f.nsid x n true = none then replaceAccept p m f.port f.nsid false s else s

/-- What follows once a plate has its place here: its media's findings, an empty tag cache, the labels that are not its members', its
failures, reservation, claims, journal pair and pass. -/
def settlePlate (ix : Nat) (found : List FoundNs) (slots : List (Member × Bool × Bool)) (md : PlateMedia) (x : Plate) (s : State) : State :=
  let fs := assemblyFails slots
  let s1 := dropTagCache ix (fun _ => true) (mediaRecords ix (readableSlots slots) md (setFld (PG_STAT_READY (0x40 + ix)) 1 s))
  let s2 := if fs = [] then refreshPlate ix s1 else declareFails ix fs s1
  resumeCycle ix (resumePass ix (joinPair ix (sendClaims ix (plateResv ix (markForeign x found s2)))))

/-- The suspect entries read from flash for a plate's index are the plate's from now on. Where an owned and a held plate, or two held ones, have the
same index, all of them go to the plate taken first: the list names a plate by its index alone (R134; DESIGN CHOICE, notes/assumptions/158.md). -/
def keySuspects (ix id : Nat) (s : State) : State :=
  updStore (fun u => { u with suspects := u.suspects.map (fun e => if e.plateId = 2 ^ 64 + ix then { e with plateId := id } else e) }) s

/-- Take one plate found at assembly (Table REBUILD-7). -/
def takePlate (found : List FoundNs) (media : List PlateMedia) (id : Nat) (s : State) : State :=
  let md := mediaOf media id
  match governing (labelsOf found md) id with
  | none => s
  | some gov =>
    let ix := leAt gov 0x20 1
    let slots := (List.range (leAt gov 0x22 1)).map (slotMember s found md gov)
    let x := buildPlate s gov slots md
    let spots := (found.filter (fun f => decide ((bestLabel f).map labelPlate = some id))).map (fun f => (f.port, f.nsid, driveKey f.serial))
    let foreign := fun (t : State) => updStore (fun u => { u with foreigns := u.foreigns ++ [{ id := id, label := gov, spots := spots }] }) t
    if leAt gov 0x38 2 = nodeId s then
      if (plateOf s ix).isSome ∨ 64 ≤ ix then foreign s
      else
        let s0 := updCache (fun t => { t with jrec := smSet t.jrec ix (mediaJournal id (readMems (readableSlots slots) md)) }) s
        let s1 := keySuspects ix id (updStore (fun u => { u with plates := smSet u.plates ix x }) s0)
        settlePlate ix found slots md x s1
    else if leAt gov 0x3A 2 = nodeId s then
      markForeign x found (updLink (fun l => { l with held := smSet l.held id { index := ix, plate := x, attached := false, taking := 0, here := 0 } })
        (keySuspects ix id s))
    else foreign s

/-- ASSEMBLY (R110), in P7: labels are grouped by plate; plates are taken in ascending PLATE_ID, then namespaces that may return do (R109).
The namespaces' label generations are noted on their ports. -/
def assemble (found : List FoundNs) (media : List PlateMedia) (s : State) : State :=
  if getFld s CHIP_DEV_STAT_PHASE ≠ 7 ∨ devReady s ∨ 2 ≤ s.cache.replay then s
  else
    let s1 := found.foldl (fun t f => updNs f.port f.nsid (fun n =>
      { n with genA := labelGenOf f.copyA, genB := labelGenOf f.copyB, plateId := ((bestLabel f).map labelPlate).getD 0, foreign := false }) t) s
    let ids := (((found.filterMap bestLabel).map labelPlate).eraseDups).mergeSort (fun a b => decide (a ≤ b))
    let s2 := ids.foldl (fun t id => takePlate found media id t)
      (updStore (fun u => { u with plates := [], foreigns := [] }) (updLink (fun l => { l with held := [] }) s1))
    found.foldl (fun t f => autoReturn f t) s2

/-! ### Import -/

/-- The member table of a FOREIGN plate as IMPORT takes it: each slot with whether its namespace is here and whether its label copies
are older than the label in use (R38, R111). -/
def importSlots (f : Foreign) (md : PlateMedia) (s : State) : List (Member × Bool × Bool) :=
  (List.range (leAt f.label 0x22 1)).map (fun m =>
    let y := labelSlot f.label m
    match f.spots.find? (fun q => decide (q.2.1 = y.nsid ∧ q.2.2 = y.driveKey)) with
    | some q =>
      let n := nsOf s q.1 q.2.1
      ({ y with node := nodeId s, port := q.1, genA := n.bind Ns.genA, genB := n.bind Ns.genB }, true,
        decide ((n.bind Ns.genA).getD 0 < leAt f.label 0x10 8 ∧ (n.bind Ns.genB).getD 0 < leAt f.label 0x10 8))
    | none => slotMember s [] md f.label m)

/-- The namespaces of a FOREIGN plate that its import does not take as members are FOREIGN from then on (Table REBUILD-7). -/
def importStrays (f : Foreign) (slots : List (Member × Bool × Bool)) (s : State) : State :=
  (f.spots.filter (fun q => !slots.any (fun y => decide (y.1.node = nodeId s ∧ y.1.port = q.1 ∧ y.1.nsid = q.2.1) && y.2.1 && !y.2.2))).foldl
    (fun t q => updNs q.1 q.2.1 (fun n => { n with foreign := true }) t) s

/-- The plate of an IMPORT as it enters IMPORTING: it leaves FOREIGN with the label update of step 1 (R97, R111). -/
def importedPlate (p : Nat) (f : Foreign) (md : PlateMedia) (s : State) : Plate :=
  { buildPlate s f.label (importSlots f md s) md with owner := nodeId s, standby := 0xFFFF, importing := true, impPage := some p, state := .foreign }

/-- A FOREIGN plate under the label that governs it: of the one first found and those now read of its members, the highest LABEL_GEN (R38). -/
def governed (f : Foreign) (labels : List (List Byte)) : Foreign := { f with label := (governing (f.label :: labels) f.id).getD f.label }

/-- IMPORT (R111): the FOREIGN plate whose contents are given becomes this node's, at the index of the command's page, or at the
lowest free one where that page has a plate. `lease` of the former owner is judged by TRT (R336). -/
def importCmd (p : Nat) (md : PlateMedia) (s : State) : State :=
  let free := (List.range 64).filter (fun i => (plateOf s i).isNone)
  let ix := if p ∈ free then some p else free.head?
  match s.store.foreigns.find? (fun f => decide (f.id = md.plateId)), ix with
  | some f0, some i =>
    let f := governed f0 (md.mems.filterMap mediaLabel)
    let owner := leAt f.label 0x38 2
    if s.store.plates.any (fun q => decide (q.2.id = f.id)) ∨ (smGet s.link.leased owner).isSome then pltEnd p .stateConflict s
    else
      let slots := importSlots f md s
      let s1 := setFld (PG_STAT_READY (0x40 + i)) 1 (updStore (fun u => { u with
        plates := smSet u.plates i (importedPlate p f md s), foreigns := u.foreigns.filter (fun g => decide (g.id ≠ f.id)) }) s)
      let s2 := importStrays f slots (dropTagCache i (fun _ => true) (mediaRecords i (readableSlots slots) md s1))
      let fs := assemblyFails slots
      resumeCycle i (sendClaims i (if fs = [] then startLabel i s2 else declareFails i fs s2))
  | _, _ => pltEnd p .stateConflict s

/-! ### The command register of a PLT page (R112, R467) -/

/-- The operation that OP holds, on the parameters held. IMPORT needs what its row brings (DESIGN CHOICE, notes/assumptions/147.md). -/
def pltHeld (p op : Nat) (s : State) : State :=
  let t := cmdStart (PLT_CMD_GO p) (PLT_CMD_RES_DONE p) s
  if op = 1 then failMemberCmd p (getFld t (PLT_CMD_MEMBER p)) t
  else if op = 2 then replaceCmd p (getFld t (PLT_CMD_MEMBER p)) t
  else if op = 3 then startPassCmd p t
  else if op = 4 then pausePassCmd p t
  else if op = 6 then recoverCmd p t
  else if op = 7 then releaseCmd p t
  else s

/-- A write of a PLT page's command register. -/
def pltCmd (w : Win) (p op : Nat) (pars : List (FRef × Nat)) (act : State → State) (s : State) : State :=
  cmdWrite w (0x40 + p) (PLT_CMD_OP p) op pars (PLT_CMD_GO p) (PLT_CMD_RES_STATUS p) (PLT_CMD_RES_DONE p) (pltHeld p) act s

def execFailMember (w : Win) (p slot : Nat) (s : State) : Host.Outcome State Fault Refusal :=
  run (decide (p < 64)) (pltCmd w p 1 [(PLT_CMD_MEMBER p, slot)] (failMemberCmd p (slot % 128)) s)

def execReplace (w : Win) (p slot : Nat) (s : State) : Host.Outcome State Fault Refusal :=
  run (decide (p < 64)) (pltCmd w p 2 [(PLT_CMD_MEMBER p, slot)] (replaceCmd p (slot % 128)) s)

def execStartPass (w : Win) (p : Nat) (s : State) : Host.Outcome State Fault Refusal :=
  run (decide (p < 64)) (pltCmd w p 3 [] (startPassCmd p) s)

def execPausePass (w : Win) (p : Nat) (s : State) : Host.Outcome State Fault Refusal :=
  run (decide (p < 64)) (pltCmd w p 4 [] (pausePassCmd p) s)

def execRecover (w : Win) (p : Nat) (s : State) : Host.Outcome State Fault Refusal :=
  run (decide (p < 64)) (pltCmd w p 6 [] (recoverCmd p) s)

def execRelease (w : Win) (p : Nat) (s : State) : Host.Outcome State Fault Refusal :=
  run (decide (p < 64)) (pltCmd w p 7 [] (releaseCmd p) s)

def execImportPlate (w : Win) (p : Nat) (m : PlateMedia) (s : State) : Host.Outcome State Fault Refusal :=
  run (decide (p < 64)) (pltCmd w p 5 [] (importCmd p m) s)

end Sys2Proof.Machine
end

