-- ==== Sys2Proof/Machine/Proof.lean ====
section
/-! DEFINITION. The Proof pass: cycles (R116 to R118), units and their verdicts (R119 to R124, R131), suspect entries (R125, R128),
pacing (R129, R130) and the commands of the PRF page (R132). -/

namespace Sys2Proof.Machine
open Reg

/-! ### Cycles and pacing -/

/-- Start a cycle from the plate's cursor (R116, R130). -/
def cycleStart (p : Nat) (s : State) : State :=
  match plateOf s p with
  | none => s
  | some x =>
    let len := getFld s PRF_SLICE_SLICE_US
    let y : Cycle := { x.cycle with running := true, suspended := false, started := true, startAt := nowS s,
                                    deadline := nowS s + getFld s PRF_CFG_PERIOD_DAYS * 86400, overdue := false, pos := 0, len := len, hostBw := 0 }
    cycleSync p (updPlate p (fun z => { z with cycle := { y with budget := cycleBase s p x y len 0 } }) s)

/-- A further cycle of the plate is due: PERIOD_DAYS have passed since the previous start, or none has started (R116). -/
def cycleDue (s : State) (x : Plate) : Bool :=
  x.served && !x.cycle.running && (!x.cycle.started || decide (x.cycle.startAt + getFld s PRF_CFG_PERIOD_DAYS * 86400 ≤ nowS s))

/-- PROOF_CYCLE_START (R116). -/
def execProofCycleStart (p : Nat) (s : State) : Host.Outcome State Fault Refusal :=
  run (decide (p < 64)) (match plateOf s p with
    | some x => if isSet s PRF_CFG_AUTO ∧ cycleDue s x then cycleStart p s else s
    | none => s)

/-- PROOF_SLICE_END (R129, R130): late slices as R105 gives. -/
def cycleSlice (p lenUs : Nat) (s : State) : State :=
  match plateOf s p with
  | none => s
  | some x =>
    let y := x.cycle
    if !y.running ∨ lenUs < y.len ∨ s.io.sops.any (fun q => decide (q.2.plate = p ∧ q.2.kind = .proof)) then s
    else
      let pos := y.pos + lenUs
      let len := nextSlice (getFld s PRF_SLICE_SLICE_US) pos
      let h := if lenUs = 0 then 0 else y.hostBw * 1000000 / lenUs
      let carry := min y.budget (x.geom.w * x.geom.s)
      let s1 := updPlate p (fun z => { z with cycle := { y with pos := pos, len := len, budget := cycleBase s p x y len h + carry, hostBw := 0 } }) s
      onlyIf (decide (y.len < lenUs)) (fun t => setEvt 0x38 PRF_EVT_SLICE_LATE (incFld PRF_LATE_COUNT 1 t)) s1

def execProofSliceEnd (p lenUs : Nat) (s : State) : Host.Outcome State Fault Refusal := run (decide (p < 64)) (cycleSlice p lenUs s)

/-- PROOF_DEADLINE_PASSED (Table PROOF-4). -/
def deadlinePassed (p : Nat) (s : State) : State :=
  match plateOf s p with
  | none => s
  | some x =>
    if !x.cycle.running ∨ x.cycle.suspended ∨ x.cycle.overdue ∨ nowS s < x.cycle.deadline then s
    else sketchEvt 0x38 PRF_EVT_OVERDUE 2 (setEvt 0x38 PRF_EVT_OVERDUE (updPlate p (fun z => { z with cycle := { z.cycle with overdue := true } }) s))

def execProofDeadlinePassed (p : Nat) (s : State) : Host.Outcome State Fault Refusal := run (decide (p < 64)) (deadlinePassed p s)

/-- A cycle's record is due: at its end, and else at most once per 10 minutes (R118). -/
def proofRecordDue (s : State) (y : Cycle) : Bool :=
  y.endDue || (y.running && (y.recAt.map (fun t => decide (t + 600 ≤ nowS s))).getD true)

/-- PROOF_PROGRESS_RECORD (R118): the record of KIND 1 goes to the log and to the standby. -/
def proofRecord (p : Nat) (s : State) : State :=
  match plateOf s p with
  | none => s
  | some x =>
    let y := x.cycle
    if !proofRecordDue s y then s else
    let now := if y.suspended then y.suspAt else nowS s
    let b := progBytes 1 p 0 (y.recSeq + 1) x.id x.labelGen y.cursor (y.deadline - now) (b2n y.running + 2 * b2n (y.running && y.suspended)) [] []
    let s1 := progAppend b (updPlate p (fun z => { z with cycle := { z.cycle with recSeq := y.recSeq + 1, recAt := some (nowS s), endDue := false } }) s)
    if x.attached then sendMsg x.standby .proof 0 x.id p b s1 else s1

def execProofProgressRecord (p : Nat) (s : State) : Host.Outcome State Fault Refusal := run (decide (p < 64)) (proofRecord p s)

/-! ### Units -/

/-- The next unit to start: the first stripe from the cursor on with a unit left and none in flight, and the number of that unit. -/
def nextUnit (x : Plate) (busy : List Nat) : Nat → Nat → Option (Nat × Nat)
  | 0, _ => none
  | fuel + 1, sn =>
    if x.stripes ≤ sn then none
    else
      let u := smGetD x.cycle.units sn 0
      if sn ∉ busy ∧ u < unitsPer x then some (sn, u) else nextUnit x busy fuel (sn + 1)

/-- PROOF_UNIT_START (R119, R129, Sequence PROOF-1 step 1). -/
def unitStart (p : Nat) (s : State) : State :=
  match plateOf s p with
  | none => s
  | some x =>
    let all := s.io.sops.filter (fun q => decide (q.2.kind = .proof))
    let busy := (all.filter (fun q => decide (q.2.plate = p))).map (fun q => q.2.sn)
    let n := unitBlks x
    let c := x.geom.w * n * 4096
    if !x.cycle.running ∨ proofHeld s p x ∨ getFld s PRF_SLICE_UNITS_MAX ≤ all.length ∨ x.cycle.budget < c then s
    else match nextUnit x busy (busy.length + x.cycle.units.length + 1) x.cycle.cursor with
      | some (sn, u) => newSop .proof p sn (u * n) (u * n + n - 1) c
          (updPlate p (fun z => { z with cycle := { z.cycle with budget := z.cycle.budget - c } }) s)
      | none => s

def execProofUnitStart (p : Nat) (s : State) : Host.Outcome State Fault Refusal := run (decide (p < 64)) (unitStart p s)

/-- The tag failures of R120 at the P and Q positions of one block offset, beyond those the reads found. A data block's TYPE counts whether or
not its CRC matches. -/
def proofTagBad (k : Nat) (grid : SMap TBlk) (er : List Nat) (b : Nat) : List Nat :=
  let anyData := (List.range k).any (fun pos => ((smGet grid (gkey pos b)).map (fun t => decide (tagType t.tag = tyData))).getD false)
  [(k, tyP), (k + 1, tyQ)].filterMap (fun q =>
    match gridTag grid er b q.1 with
    | none => none
    | some t => if tagType t = q.2 ∨ (tagType t = tyZero ∧ !anyData) then none else some (gkey q.1 b))

/-- Verdict of Table PROOF-1 at one block offset. -/
inductive ProofV where
  | lost
  | rebuild                     -- row 2, repairable
  | badQ                        -- row 2, R88 step 4 finds Q inconsistent
  | clean
  | located (pos : Nat)
  | suspect (cause : Nat)
  deriving DecidableEq, Repr

/-- The locator verdicts of the inconsistent bytes of a column (R20, R121). -/
def locVerdicts (k : Nat) (cl : Column) : List LocVerdict :=
  let ds := colData k cl
  let pb := ((cl[k]?).join).getD []
  let qb := ((cl[k + 1]?).join).getD []
  let dp := xorBlk pb (parityP ds)
  let dq := xorBlk qb (parityQ ds)
  (((List.range (max dp.length dq.length)).map (fun o => locate k ((dp[o]?).getD 0) ((dq[o]?).getD 0))).filter (· ≠ .consistent)).eraseDups

/-- The first row of Table PROOF-1 that applies at a block offset. -/
def proofVerdict (x : Plate) (grid : SMap TBlk) (er : List Nat) (b : Nat) : ProofV :=
  let k := x.geom.k
  let cl := column k grid er b
  match (colErased k cl).length with
  | 0 =>
    let zeroAt := fun (z : Nat) => ((gridTag grid er b z).map (fun t => !decide (tagType t = tyData))).getD true
    match locVerdicts k cl with
    | [] => .clean
    | [.dataMember z] => if zeroAt z then .suspect 1 else .located z
    | [.pMember] => .located k
    | [.qMember] => .located (k + 1)
    | _ => .suspect 0
  | 1 => match recoverData k cl with
    | some ds => match (cl[k + 1]?).join with
      | some q => if trimBlock q = trimBlock (parityQ ds) then .rebuild else .badQ
      | none => .rebuild
    | none => .lost
  | 2 => .rebuild
  | _ => .lost

/-- The block a located repair writes (R122): a data block gets D ⊕ ΔP and the GEN of the syndromes; a syndrome is recomputed and keeps its
TYPE and GEN. -/
def locatedBlock (k : Nat) (grid : SMap TBlk) (er : List Nat) (b pos : Nat) : TBlk :=
  let cl := column k grid er b
  let ds := colData k cl
  if pos < k then
    let d := xorBlk (((cl[pos]?).join).getD []) (xorBlk (((cl[k]?).join).getD []) (parityP ds))
    { data := d, tag := tagFor d (tagGen ((gridTag grid er b k).getD 0)) tyData }
  else
    let d := if pos = k then parityP ds else parityQ ds
    let t := (gridTag grid er b pos).getD 0
    { data := d, tag := tagFor d (tagGen t) (tagType t) }

/-- A suspect entry whose whole block range a unit found clean or repaired is removed (R128). -/
def unitClears (p sn : Nat) (good : List Nat) (s : State) : State :=
  match suspectOf s p sn with
  | none => s
  | some e => if (blkRange e.first e.last).all (fun b => decide (b ∈ good)) then delSuspect p e s else s

/-- One occurrence of REPAIR for each block found (Table PROOF-4). -/
def repairEvents (n : Nat) (s : State) : State :=
  (List.range n).foldl (fun t _ => sketchEvt 0x38 PRF_EVT_REPAIR 1 (setEvt 0x38 PRF_EVT_REPAIR t)) s

/-- PROOF_UNIT_DONE (R121 to R123, R131): the check of a unit's reads ends. Repairs wait for the Graver, which carries them on channels 6 and 7
(Tables PATH-1, MOVER-1, MOVER-8). -/
def unitDone (id : Nat) (s : State) : State :=
  match sopOf s id with
  | none => s
  | some o => match plateOf s o.plate with
    | none => s
    | some x =>
      if o.kind ≠ .proof ∨ o.phase ≠ .burin then s
      else
        let k := x.geom.k
        let p := o.plate
        let blks := blkRange o.first o.last
        let bad := blks.flatMap (proofTagBad k o.grid o.erased)
        let er := applyGen k o.grid blks (bad ++ o.erased)
        let vs := blks.map (fun b => (b, proofVerdict x o.grid er b))
        let rep := isSet s PRF_CFG_REPAIR
        let at_ := fun (f : ProofV → Bool) => (vs.filter (fun v => f v.2)).map Prod.fst
        let row2 := at_ (fun v => decide (v = .rebuild))
        let ekeys := if rep then er.eraseDups.filter (fun key => decide (key % 256 ∈ row2)) else []
        let loc := vs.filterMap (fun v => match v.2 with | .located pos => some (gkey pos v.1) | _ => none)
        let lkeys := if rep then loc else []
        let lost := at_ (fun v => decide (v = .lost))
        let sus := vs.filterMap (fun v => match v.2 with | .suspect c => some (v.1, c) | .badQ => some (v.1, 2) | _ => none)
        let grid := lkeys.foldl (fun m key => smSet m key (locatedBlock k o.grid er (key % 256) (key / 256))) (fixGrid k o.grid er ekeys)
        if ekeys ++ lkeys ≠ [] ∧ !graverFree s [6, 7] then graverAsk [6, 7] s else
        let s1 := onlyIf (decide (bad ≠ [])) (incFld (PLT_TAGERR_COUNT p) bad.length) s
        let s2 := updSop id (fun y => { y with phase := .writing, erased := er, fix := ekeys ++ lkeys, located := lkeys, grid := grid, lost := lost }) s1
        let s3 := onlyIf (decide (ekeys.length + loc.length ≠ 0)) (fun t => repairEvents (ekeys.length + loc.length)
          (incFld PRF_REPAIRS_COUNT (ekeys.length + loc.length) (incFld (PLT_REPAIRED_COUNT p) ekeys.length t))) s2
        let s4 := match sus with
          | [] => s3
          | q :: more => addSuspect p o.sn (more.foldl (fun a r => min a r.1) q.1) (more.foldl (fun a r => max a r.1) q.1) q.2 s3
        let good := at_ (fun v => match v with | .clean => true | .rebuild | .located _ => rep | _ => false)
        sopCheck id (loseBlocks id (sopWrite id (ekeys ++ lkeys) (x.homeOf o.sn) (unitClears p o.sn good s4)))

def execProofUnitDone (sop : Nat) (s : State) : Host.Outcome State Fault Refusal := run true (unitDone sop s)

/-! ### The suspect list -/

/-- The plate index of an entry's plate, its owner's for a plate held as standby. An entry read from flash names its plate by index alone
(R134); until assembly finds the plate, the index plus 2^64 stands for its PLATE_ID. An entry whose plate is neither owned nor held any more shows PLATE 63:
the spec gives no index for one (DESIGN CHOICE, notes/assumptions/158.md). -/
def plateIxOf (s : State) (id : Nat) : Nat :=
  if 2 ^ 64 ≤ id then id - 2 ^ 64
  else (((s.store.plates.find? (fun q => decide (q.2.id = id))).map Prod.fst).or ((smGet s.link.held id).map HeldPlate.index)).getD 63

/-- The entries of the suspect list (R134). -/
def suspectList (s : State) : List Byte :=
  s.store.suspects.flatMap (fun e => suspectBytes (plateIxOf s e.plateId) e)

/-- SUSPECT_LIST_WRITE (R125, R412). -/
def execSuspectListWrite (s : State) : Host.Outcome State Fault Refusal :=
  run true (if s.store.suspDirty then
    updStore (fun t => { t with suspDirty := false })
      (listWrite magicSusp (cfgOff 0x2A0000) (cfgOff 0x2C0000) s.store.suspects.length (suspectList s) s)
    else s)

def prfEnd (st : Status) (s : State) : State := cmdEnd PRF_CMD_GO PRF_CMD_RES_STATUS PRF_CMD_RES_DONE st s

/-- START_CYCLE (R116, R132). -/
def startCycleCmd (p : Nat) (s : State) : State :=
  match plateOf s p with
  | none => prfEnd .stateConflict s
  | some x => if x.cycle.running then prfEnd .stateConflict s else prfEnd .ok (cycleStart p s)

/-- PAUSE and RESUME (R117, R132). Of a plate without a running cycle PAUSE ends OK and holds its next cycle; the progress record has no place for
it, so a restart ends it (DESIGN CHOICE, notes/assumptions/157.md). -/
def pauseCycleCmd (p : Nat) (on : Bool) (s : State) : State :=
  match plateOf s p with
  | none => prfEnd .stateConflict s
  | some _ => prfEnd .ok (cycleSync p (updPlate p (fun z => { z with cycle := { z.cycle with pausedBy := on } }) s))

/-- CLEAR_SUSPECT acts on the entry at PRF_SSEL (R128, R132). -/
def clearSuspectCmd (s : State) : State :=
  match s.store.suspects[getFld s PRF_SSEL_INDEX]? with
  | none => prfEnd .stateConflict s
  | some e => prfEnd .ok (delSuspect (((s.store.plates.find? (fun q => decide (q.2.id = e.plateId))).map Prod.fst).getD 64) e s)

/-- The operation that OP holds, on the plate held. -/
def prfHeld (op : Nat) (s : State) : State :=
  let t := cmdStart PRF_CMD_GO PRF_CMD_RES_DONE s
  let p := getFld t PRF_CMD_PLATE
  if op = 1 then startCycleCmd p t else if op = 4 then clearSuspectCmd t else pauseCycleCmd p (decide (op = 2)) t

/-- PRF_CMD (R132, R467). -/
def prfCmd (w : Win) (op : Nat) (pars : List (FRef × Nat)) (act : State → State) (s : State) : State :=
  cmdWrite w 0x38 PRF_CMD_OP op pars PRF_CMD_GO PRF_CMD_RES_STATUS PRF_CMD_RES_DONE prfHeld act s

def execStartCycle (w : Win) (p : Nat) (s : State) : Host.Outcome State Fault Refusal :=
  run (decide (p < 64)) (prfCmd w 1 [(PRF_CMD_PLATE, p)] (startCycleCmd p) s)

def execProofPause (w : Win) (p : Nat) (s : State) : Host.Outcome State Fault Refusal :=
  run (decide (p < 64)) (prfCmd w 2 [(PRF_CMD_PLATE, p)] (pauseCycleCmd p true) s)

def execProofResume (w : Win) (p : Nat) (s : State) : Host.Outcome State Fault Refusal :=
  run (decide (p < 64)) (prfCmd w 3 [(PRF_CMD_PLATE, p)] (pauseCycleCmd p false) s)

def execClearSuspect (w : Win) (s : State) : Host.Outcome State Fault Refusal :=
  run true (prfCmd w 4 [] clearSuspectCmd s)

/-- PRF_PAUSE_ALL (R117): a write of PRF_CTL. -/
def execPrfPauseAll (w : Win) (v : Nat) (s : State) : Host.Outcome State Fault Refusal :=
  run true (guardWrite w 0x38 (fun t => cyclesSync (writeRwi w 0x38 [(PRF_CTL_PAUSE_ALL, v % 2)] t)) s)

end Sys2Proof.Machine
end

