-- ==== Sys2Proof/Machine/Cache.lean ====
section
/-! DEFINITION. The protected cache: destage (R143, R144), partner mirroring (R142), the dirty ceiling and the backed and unbacked modes
(R145 to R149), the brace (R154) and the commands of the CCH page (R164, R165). -/

namespace Sys2Proof.Machine
open Reg

/-! ### Destage -/

/-- Every stripe with a DIRTY slot is eligible (R143, Sequence POWER-1 step 1). -/
def allEligible (s : State) : Bool :=
  decide (getFld s CCH_CFG_HIGH_PCT * s.cache.ceil ≤ cacheDirty s * 100) || unbackedNow s || isSet s PWR_STAT_BRACED || isSet s CCH_MODE_WRITE_THROUGH || decide (s.pwr.stby ≠ 0) ||
  s.cache.flush.isSome || s.io.cmds.any (fun q => decide (enOp q.2.raw = 3) && decide (q.2.phase ≠ .held) && !ctxAdmin s q.2.ctx)

/-- A DESTAGE segment of the stripe has not been granted yet. -/
def destageQueued (s : State) (p sn : Nat) : Bool :=
  let mine := fun (g : Seg) => decide (g.src = .destage ∧ g.plate = p ∧ g.sn = sn)
  s.io.queue.any mine || s.io.waitl.any (fun i => match i with | .seg g => mine g | .sop _ => false)

/-- DESTAGE entries in flight, those still to be granted with them. -/
def destagesInFlight (s : State) : Nat :=
  (s.io.journal.filter (fun q => decide (q.2.path = .destage))).length + (s.io.queue.filter (fun g => decide (g.src = .destage))).length +
  (s.io.waitl.filter (fun i => match i with | .seg g => decide (g.src = .destage) | .sop _ => false)).length

/-- The eligible stripe whose oldest DIRTY slot is the oldest (R143). -/
def destageNext (s : State) : Option Slot :=
  let old := fun (x : Slot) => allEligible s || decide (x.since + getFld s CCH_CFG_AGE_S * 1000000000 < devTime s)
  let ok := fun (x : Slot) => decide (x.state = .dirty) && old x && !destageQueued s x.plate x.sn &&
    ((plateOf s x.plate).map Plate.served).getD false && !plateFenced s x.plate
  ((s.cache.slots.map Prod.snd).filter ok).foldl (fun a x => match a with
    | none => some x
    | some y => if x.since < y.since then some x else some y) none

/-- DESTAGE_START (R143, R144): the stripe's DESTAGE segment is presented. -/
def destageStart (s : State) : State :=
  if getFld s CCH_CFG_DESTAGE_MAX ≤ destagesInFlight s then s
  else match destageNext s with
  | none => s
  | some x =>
    let ls := (dirtyOf s x.plate x.sn).map Prod.fst
    let g : Seg := { src := .destage, cmd := 0, group := 0, head := false, gBlks := ls.length, pBlks := ls.length, gWhole := false, vol := x.vol, lba := 0,
                     plate := x.plate, sn := x.sn, wset := ls, zero := false, dealloc := false, refuse := none, data := [], maint := false, adm := 0 }
    updIo (fun i => { i with queue := i.queue ++ [g] }) s

def execDestageStart (s : State) : Host.Outcome State Fault Refusal := run true (destageStart s)

/-! ### Partner mirroring -/

/-- CCH_MODE.PARTNER_ACTIVE: mirroring is active for some plate. -/
def pmirShow (s : State) : State :=
  setFlag CCH_MODE_PARTNER_ACTIVE (s.store.plates.any (fun q => (partnerFor s q.1).isSome)) s

/-- Mirroring to a standby is suspended for all its plates; segments that wait for it reach their completion points (R142). A copy of slots
that was under way begins again. -/
def pmirSuspend (node : Nat) (s : State) : State :=
  let s0 := updCache (fun t => { t with pmirCopy := t.pmirCopy.filter (fun q => decide (q.2.1 ≠ node)), pmirDone := t.pmirDone.filter (fun q => decide (q.1 ≠ node)) }) s
  if node ∈ s.cache.pmirOff then s0
  else
    let mine := s.cache.pmirWait.filter (fun q => decide (q.2.1 = node))
    let s1 := updCache (fun t => { t with pmirOff := node :: t.pmirOff, pmirWait := t.pmirWait.filter (fun q => decide (q.2.1 ≠ node)) }) s0
    let s2 := mine.foldl (fun t q => cacheStaged q.2.2 (updEntry q.2.2 (fun e => { e with mirWait := e.mirWait - 1 }) t)) s1
    sketchEvt 0x28 CCH_EVT_PMIR_LOST 1 (setEvt 0x28 CCH_EVT_PMIR_LOST (pmirShow s2))

/-- PMIR_TIMEOUT (R142): the MIRROR_WRITE of a number is not acknowledged within CCH_PMIR_TMO. -/
def execPmirTimeout (m : Nat) (s : State) : Host.Outcome State Fault Refusal :=
  run true (match ((smGet s.cache.pmirWait m).map Prod.fst).or ((smGet s.cache.pmirCopy m).map Prod.fst) with
    | some node => pmirSuspend node s
    | none => s)

/-- The plates that a standby is to hold copies for before mirroring begins or resumes (R142, R332). -/
def pmirPlates (s : State) (node : Nat) : List Nat :=
  (s.store.plates.filter (fun q => isSet s CCH_CFG_PARTNER_EN && decide (q.2.standby = node) && q.2.attached &&
    (decide (node ∈ s.cache.pmirOff) || !q.2.mirrorOn))).map Prod.fst

/-- Their current slots. -/
def pmirSlots (s : State) (node : Nat) : List (Nat × Slot) :=
  s.cache.slots.filter (fun q => (decide (q.2.state = .dirty) || decide (q.2.state = .destaging)) && decide (q.2.plate ∈ pmirPlates s node))

/-- Send the copies of the current slots that the standby neither has nor is being sent. -/
def pmirSend (node : Nat) (s : State) : State :=
  (pmirSlots s node).foldl (fun t q =>
    let key := (node, q.1, q.2.seq)
    if key ∈ t.cache.pmirDone ∨ t.cache.pmirCopy.any (fun r => decide (r.2 = key)) then t
    else
      let m := t.cache.nextMir
      sendMsg node .mirrorWrite (m % 2 ^ 32) (q.1 + q.2.plate * 2 ^ 32) 0 (dirEntry t q ++ slice (slotData t q.1 q.2) 0 4096)
        (updCache (fun c => { c with nextMir := m + 1, pmirCopy := smSet c.pmirCopy m key }) t)) s

/-- Mirroring to a standby begins or resumes once every current slot of its plates has been copied to it (R142). -/
def pmirReady (node : Nat) (s : State) : State :=
  if pmirPlates s node = [] ∨ !(pmirSlots s node).all (fun q => decide ((node, q.1, q.2.seq) ∈ s.cache.pmirDone)) then s
  else
    let off := decide (node ∈ s.cache.pmirOff)
    let s1 := updCache (fun t => { t with pmirOff := t.pmirOff.filter (· ≠ node), pmirCopy := t.pmirCopy.filter (fun q => decide (q.2.1 ≠ node)),
                                          pmirDone := t.pmirDone.filter (fun q => decide (q.1 ≠ node)) }) s
    let s2 := (pmirPlates s node).foldl (fun t p => updPlate p (fun x => { x with mirrorOn := true }) t) s1
    onlyIf off (setEvt 0x28 CCH_EVT_PMIR_BACK) (pmirShow s2)

/-- A copy is acknowledged. -/
def pmirAcked (m node : Nat) (s : State) : State :=
  match smGet s.cache.pmirCopy m with
  | some q => if q.1 ≠ node then s else pmirReady node (updCache (fun c => { c with pmirCopy := smDel c.pmirCopy m, pmirDone := q :: c.pmirDone }) s)
  | none => s

/-- PMIR_RESUME (R142): the copy to a standby goes on with the current slots it lacks; once it has every one, mirroring resumes. -/
def pmirResume (node : Nat) (s : State) : State := pmirReady node (pmirSend node s)

def execPmirResume (node : Nat) (s : State) : Host.Outcome State Fault Refusal := run (decide (node < 512)) (pmirResume node s)

/-! ### The dirty ceiling and the mode -/

/-- The vault rate in bytes per µs (R153). -/
def vaultRate (s : State) : Nat := min (getFld s VLT_RATE_RATE_MBS) (getFld s VLT_RATE_MEAS_MBS)

/-- VLT_FIXED_US (R153), a part of a µs counted as a whole one; without a rate, the largest value. -/
def fixedUs (s : State) : Nat :=
  if vaultRate s = 0 then 2 ^ 32 - 1 else getFld s VLT_TIMING_SETUP_US + (45088768 + vaultRate s - 1) / vaultRate s

/-- A byte bound as slots (R145 step 3). -/
def boundSlots (b : Nat) : Nat := b * 63 / (64 * 4096)

/-- The mode changes (R147). -/
def modeChange (unb : Bool) (s : State) : State :=
  let s1 := setFlag CHIP_MODE_UNBACKED unb (setFlag CCH_MODE_UNBACKED unb s)
  sketchEvt 0x28 CCH_EVT_MODE_CHG 2 (setEvt 0x28 CCH_EVT_MODE_CHG (incFld CCH_MODE_CNT_COUNT 1 s1))

/-- Why the device is unbacked while DIRTY_CEIL is 0 (R147). -/
def unbackedCause (s : State) (e : Nat) : Nat :=
  if isSet s CCH_CFG_FORCE_UNBACKED then 4
  else if !isSet s VLT_STAT_READY then 3
  else if boundSlots e = 0 then 1 else 2

/-- The device enters unbacked mode: each plate chooses its journal pair, which its labels name (R76, R148, Table STRIPE-9). -/
def enterUnbacked (s : State) : State :=
  (s.store.plates.map Prod.fst).foldl (fun t p => onlyIf (((plateOf t p).map Plate.served).getD false) (fun u => startLabel p (startPair p u)) t) (modeChange true s)

/-- The device returns to backed mode: plates without UNBACKED entries release their journal members (R148). -/
def leaveUnbacked (s : State) : State :=
  let s1 := setFld CCH_MODE_CAUSE 0 (modeChange false s)
  (s1.store.plates.map Prod.fst).foldl (fun t p =>
    if (plateEntries t p).any (fun q => q.2.unbacked) then t
    else match plateOf t p with
      | some x => if jmembers x = [] then t
          else startLabel p (updJp p (fun y => { y with a := none, b := none, dirty := [], copying := false, hdrWait := 0, refill := false }) t)
      | none => t) s1

/-- DIRTY_CEIL and its bounds are recomputed, and the mode follows (R145, R147). -/
def ceilRecompute (s : State) : State :=
  let e := s.bem.eBytes
  let t := (getFld s CCH_TIME_TIME_MS * 1000 - fixedUs s) * vaultRate s
  let zero := !isSet s VLT_STAT_READY || isSet s CCH_CFG_FORCE_UNBACKED
  let ceil := if zero then 0 else boundSlots (min e t)
  let sat := fun n => min n 0x1FFFFFF
  let s1 := setFld CCH_DIRTY_CEIL_SLOTS (sat ceil) (setFld CCH_EBOUND_SLOTS (sat (boundSlots e)) (setFld CCH_TBOUND_SLOTS (sat (boundSlots t))
    (setFld VLT_FIXED_US_US (min (fixedUs s) (2 ^ 32 - 1)) s)))
  let s2 := updCache (fun c => { c with ceil := ceil, above := decide (0 < ceil ∧ getFld s CCH_HYST_MIB * 256 ≤ ceil) }) s1
  if ceil ≠ 0 then s2
  else
    let s3 := if devReady s then setFld CCH_MODE_CAUSE (unbackedCause s e) s2 else s2
    if unbackedNow s3 then s3 else enterUnbacked s3

/-- BACKED_MODE_RETURN (R147): DIRTY_CEIL has stayed at or above the threshold for HOLD_S. -/
def execBackedModeReturn (s : State) : Host.Outcome State Fault Refusal :=
  run true (if unbackedNow s ∧ s.cache.above then leaveUnbacked s else s)

/-- Write-through begins with the first frozen channel (R149). -/
def writeThroughOn (s : State) : State :=
  if isSet s CCH_MODE_WRITE_THROUGH then s else setEvt 0x28 CCH_EVT_WT_ON (setFld CCH_MODE_WRITE_THROUGH 1 s)

/-- WRITE_THROUGH_END (R149): the copy to the released channel is complete and no channel is frozen. -/
def execWriteThroughEnd (s : State) : Host.Outcome State Fault Refusal :=
  run true (if isSet s CCH_MODE_WRITE_THROUGH ∧ [0, 1, 2, 3].all (fun c => !dmcDown s c && !isSet s (DMC_CMD_GO c)) then
    setEvt 0x28 CCH_EVT_WT_OFF (setFld CCH_MODE_WRITE_THROUGH 0 (updCache (fun c => { c with copying := [], slots := c.slots.map (fun q =>
      if 2 * (q.1 % 2) ∈ c.copying ∨ 2 * (q.1 % 2) + 1 ∈ c.copying then (q.1, { q.2 with data := slotData s q.1 q.2, high := none }) else q) }) s))
    else s)

/-! ### The brace -/

/-- The device is braced (R154). -/
def brace (s : State) : State :=
  if isSet s PWR_STAT_BRACED then s
  else
    let s1 := setFld PWR_STAT_BRACED 1 (setFld PWR_STAT_VIN_WARN 1 (setFld CCH_MODE_BRACED 1 s))
    setEvt 1 PWR_EVT_VIN_WARN (setEvt 0x28 CCH_EVT_BRACE s1)

/-- The supervisor withdraws the warning (R154). -/
def braceEnd (s : State) : State :=
  if isSet s PWR_STAT_BRACED then setFld PWR_STAT_BRACED 0 (setFld PWR_STAT_VIN_WARN 0 (setFld CCH_MODE_BRACED 0 s)) else s

/-! ### Commands of the CCH page -/

def cchEnd (st : Status) (s : State) : State := cmdEnd CCH_CMD_GO CCH_CMD_RES_STATUS CCH_CMD_RES_DONE st s

/-- CACHE_FLUSH (R165): the blocks in DIRTY and DESTAGING slots are to reach the members. -/
def cacheFlush (s : State) : State :=
  let ks := (s.cache.slots.filter (fun q => decide (q.2.state = .dirty) || decide (q.2.state = .destaging))).map
    (fun q => (q.2.plate, q.2.sn, q.2.lin, q.2.seq))
  if ks = [] then cchEnd .ok s else updCache (fun t => { t with flush := some ks }) s

/-- CLEAR_LOST (R164, R165). -/
def clearLost (vol : Nat) (s : State) : State :=
  let l := s.store.lostw.filter (fun e => decide (e.vol ≠ vol))
  if l = s.store.lostw then cchEnd .stateConflict s
  else
    let s1 := updStore (fun t => { t with lostw := l, lostwDirty := true }) s
    cchEnd .ok (if l = [] then setFld CCH_LOSTW_MERGED 0 s1 else s1)

/-- CCH_CMD (R165, R467). -/
def cchCmd (w : Win) (op : Nat) (pars : List (FRef × Nat)) (act : State → State) (s : State) : State :=
  cmdWrite w 0x28 CCH_CMD_OP op pars CCH_CMD_GO CCH_CMD_RES_STATUS CCH_CMD_RES_DONE
    (fun o t => let u := cmdStart CCH_CMD_GO CCH_CMD_RES_DONE t; if o = 1 then cacheFlush u else clearLost (getFld u CCH_CMD_VOLUME) u) act s

def execCacheFlush (w : Win) (s : State) : Host.Outcome State Fault Refusal := run true (cchCmd w 1 [] cacheFlush s)

def execClearLost (w : Win) (vol : Nat) (s : State) : Host.Outcome State Fault Refusal :=
  run true (cchCmd w 2 [(CCH_CMD_VOLUME, vol)] (fun t => clearLost (getFld t CCH_CMD_VOLUME) t) s)

/-- The entries of the lost-write list (Table CACHE-9). -/
def lostwList (s : State) : List Byte :=
  s.store.lostw.flatMap (fun e => leBytes (e.lba % 2 ^ 48 + e.vol % 2 ^ 14 * 2 ^ 48) 8 ++ leBytes e.count 4 ++ leBytes e.opMin 4)

/-- Write the lost-write list to flash (R163, R412). -/
def lostwWrite (s : State) : State :=
  updStore (fun t => { t with lostwDirty := false })
    (listWrite magicLostW (cfgOff 0x200000) (cfgOff 0x250000) s.store.lostw.length (lostwList s) s)

/-- LOST_WRITE_LIST_WRITE (R164). -/
def execLostWriteListWrite (s : State) : Host.Outcome State Fault Refusal :=
  run true (if s.store.lostwDirty then lostwWrite s else s)

end Sys2Proof.Machine
end

