-- ==== Sys2Proof/Machine/Crypto.lean ====
section
/-! DEFINITION. The cryptographic functions the spec names: SHA-256, HMAC-SHA-256 (R189, R419), SHA-384 and ECDSA over P-384
(R422). Their constants come from the standards the names stand for (PRESUMED; the spec names the functions and repeats no constant).-/

namespace Sys2Proof.Machine

/-- Big-endian value of a run of bytes. -/
def beVal (l : List Byte) : Nat := l.foldl (fun a b => 256 * a + b.toNat) 0

/-- The w big-endian bytes of a value. -/
def beBytes (v w : Nat) : List Byte := (leBytes v w).reverse

/-- A message padded to whole blocks of n bytes, with its bit length in the last n/8 bytes. -/
def shaPad (n : Nat) (m : List Byte) : List Byte :=
  let z := (2 * n - 1 - n / 8 - m.length % n) % n
  m ++ [0x80#8] ++ zeros z ++ beBytes (8 * m.length) (n / 8)

/-- Cut a run into pieces of n bytes. -/
def chunksOf (n : Nat) (m : List Byte) : List (List Byte) := (List.range (m.length / n)).map (fun i => (m.drop (n * i)).take n)

/-! ### SHA-256 -/

def sha256K : List (BitVec 32) :=
  [0x428A2F98, 0x71374491, 0xB5C0FBCF, 0xE9B5DBA5, 0x3956C25B, 0x59F111F1, 0x923F82A4, 0xAB1C5ED5] ++
  [0xD807AA98, 0x12835B01, 0x243185BE, 0x550C7DC3, 0x72BE5D74, 0x80DEB1FE, 0x9BDC06A7, 0xC19BF174] ++
  [0xE49B69C1, 0xEFBE4786, 0x0FC19DC6, 0x240CA1CC, 0x2DE92C6F, 0x4A7484AA, 0x5CB0A9DC, 0x76F988DA] ++
  [0x983E5152, 0xA831C66D, 0xB00327C8, 0xBF597FC7, 0xC6E00BF3, 0xD5A79147, 0x06CA6351, 0x14292967] ++
  [0x27B70A85, 0x2E1B2138, 0x4D2C6DFC, 0x53380D13, 0x650A7354, 0x766A0ABB, 0x81C2C92E, 0x92722C85] ++
  [0xA2BFE8A1, 0xA81A664B, 0xC24B8B70, 0xC76C51A3, 0xD192E819, 0xD6990624, 0xF40E3585, 0x106AA070] ++
  [0x19A4C116, 0x1E376C08, 0x2748774C, 0x34B0BCB5, 0x391C0CB3, 0x4ED8AA4A, 0x5B9CCA4F, 0x682E6FF3] ++
  [0x748F82EE, 0x78A5636F, 0x84C87814, 0x8CC70208, 0x90BEFFFA, 0xA4506CEB, 0xBEF9A3F7, 0xC67178F2]

def sha256H : List (BitVec 32) :=
  [0x6A09E667, 0xBB67AE85, 0x3C6EF372, 0xA54FF53A, 0x510E527F, 0x9B05688C, 0x1F83D9AB, 0x5BE0CD19]

def get32 (l : List (BitVec 32)) (i : Nat) : BitVec 32 := (l[i]?).getD 0

/-- Extend the message schedule by a number of words; the newest word stands first. -/
def sha256Sched : Nat → List (BitVec 32) → List (BitVec 32)
  | 0, w => w
  | n + 1, w =>
    let a := get32 w 14
    let b := get32 w 1
    let s0 := a.rotateRight 7 ^^^ a.rotateRight 18 ^^^ (a >>> 3)
    let s1 := b.rotateRight 17 ^^^ b.rotateRight 19 ^^^ (b >>> 10)
    sha256Sched n ((s1 + get32 w 6 + s0 + get32 w 15) :: w)

/-- One round on the eight working words. -/
def sha256Round (v : List (BitVec 32)) (k : BitVec 32) : List (BitVec 32) :=
  let a := get32 v 0
  let e := get32 v 4
  let t1 := get32 v 7 + (e.rotateRight 6 ^^^ e.rotateRight 11 ^^^ e.rotateRight 25) + ((e &&& get32 v 5) ^^^ (~~~e &&& get32 v 6)) + k
  let t2 := (a.rotateRight 2 ^^^ a.rotateRight 13 ^^^ a.rotateRight 22) + ((a &&& get32 v 1) ^^^ (a &&& get32 v 2) ^^^ (get32 v 1 &&& get32 v 2))
  [t1 + t2, a, get32 v 1, get32 v 2, get32 v 3 + t1, e, get32 v 5, get32 v 6]

def sha256Block (h : List (BitVec 32)) (b : List Byte) : List (BitVec 32) :=
  let w := (sha256Sched 48 ((chunksOf 4 b).map (fun x => BitVec.ofNat 32 (beVal x))).reverse).reverse
  (h.zip ((w.zip sha256K).foldl (fun v q => sha256Round v (q.1 + q.2)) h)).map (fun q => q.1 + q.2)

/-- SHA-256. -/
def sha256 (m : List Byte) : List Byte :=
  ((chunksOf 64 (shaPad 64 m)).foldl sha256Block sha256H).flatMap (fun x => beBytes x.toNat 4)

/-- HMAC-SHA-256 under a key of at most 64 bytes. -/
def hmacSha256 (key m : List Byte) : List Byte :=
  let k := slice key 0 64
  sha256 (k.map (· ^^^ 0x5C#8) ++ sha256 (k.map (· ^^^ 0x36#8) ++ m))

/-! ### SHA-384 -/

def sha512K : List (BitVec 64) :=
  [0x428A2F98D728AE22, 0x7137449123EF65CD, 0xB5C0FBCFEC4D3B2F, 0xE9B5DBA58189DBBC] ++
  [0x3956C25BF348B538, 0x59F111F1B605D019, 0x923F82A4AF194F9B, 0xAB1C5ED5DA6D8118] ++
  [0xD807AA98A3030242, 0x12835B0145706FBE, 0x243185BE4EE4B28C, 0x550C7DC3D5FFB4E2] ++
  [0x72BE5D74F27B896F, 0x80DEB1FE3B1696B1, 0x9BDC06A725C71235, 0xC19BF174CF692694] ++
  [0xE49B69C19EF14AD2, 0xEFBE4786384F25E3, 0x0FC19DC68B8CD5B5, 0x240CA1CC77AC9C65] ++
  [0x2DE92C6F592B0275, 0x4A7484AA6EA6E483, 0x5CB0A9DCBD41FBD4, 0x76F988DA831153B5] ++
  [0x983E5152EE66DFAB, 0xA831C66D2DB43210, 0xB00327C898FB213F, 0xBF597FC7BEEF0EE4] ++
  [0xC6E00BF33DA88FC2, 0xD5A79147930AA725, 0x06CA6351E003826F, 0x142929670A0E6E70] ++
  [0x27B70A8546D22FFC, 0x2E1B21385C26C926, 0x4D2C6DFC5AC42AED, 0x53380D139D95B3DF] ++
  [0x650A73548BAF63DE, 0x766A0ABB3C77B2A8, 0x81C2C92E47EDAEE6, 0x92722C851482353B] ++
  [0xA2BFE8A14CF10364, 0xA81A664BBC423001, 0xC24B8B70D0F89791, 0xC76C51A30654BE30] ++
  [0xD192E819D6EF5218, 0xD69906245565A910, 0xF40E35855771202A, 0x106AA07032BBD1B8] ++
  [0x19A4C116B8D2D0C8, 0x1E376C085141AB53, 0x2748774CDF8EEB99, 0x34B0BCB5E19B48A8] ++
  [0x391C0CB3C5C95A63, 0x4ED8AA4AE3418ACB, 0x5B9CCA4F7763E373, 0x682E6FF3D6B2B8A3] ++
  [0x748F82EE5DEFB2FC, 0x78A5636F43172F60, 0x84C87814A1F0AB72, 0x8CC702081A6439EC] ++
  [0x90BEFFFA23631E28, 0xA4506CEBDE82BDE9, 0xBEF9A3F7B2C67915, 0xC67178F2E372532B] ++
  [0xCA273ECEEA26619C, 0xD186B8C721C0C207, 0xEADA7DD6CDE0EB1E, 0xF57D4F7FEE6ED178] ++
  [0x06F067AA72176FBA, 0x0A637DC5A2C898A6, 0x113F9804BEF90DAE, 0x1B710B35131C471B] ++
  [0x28DB77F523047D84, 0x32CAAB7B40C72493, 0x3C9EBE0A15C9BEBC, 0x431D67C49C100D4C] ++
  [0x4CC5D4BECB3E42B6, 0x597F299CFC657E2A, 0x5FCB6FAB3AD6FAEC, 0x6C44198C4A475817]

def sha384H : List (BitVec 64) :=
  [0xCBBB9D5DC1059ED8, 0x629A292A367CD507, 0x9159015A3070DD17, 0x152FECD8F70E5939] ++
  [0x67332667FFC00B31, 0x8EB44A8768581511, 0xDB0C2E0D64F98FA7, 0x47B5481DBEFA4FA4]

def get64v (l : List (BitVec 64)) (i : Nat) : BitVec 64 := (l[i]?).getD 0

def sha512Sched : Nat → List (BitVec 64) → List (BitVec 64)
  | 0, w => w
  | n + 1, w =>
    let a := get64v w 14
    let b := get64v w 1
    let s0 := a.rotateRight 1 ^^^ a.rotateRight 8 ^^^ (a >>> 7)
    let s1 := b.rotateRight 19 ^^^ b.rotateRight 61 ^^^ (b >>> 6)
    sha512Sched n ((s1 + get64v w 6 + s0 + get64v w 15) :: w)

def sha512Round (v : List (BitVec 64)) (k : BitVec 64) : List (BitVec 64) :=
  let a := get64v v 0
  let e := get64v v 4
  let t1 := get64v v 7 + (e.rotateRight 14 ^^^ e.rotateRight 18 ^^^ e.rotateRight 41) + ((e &&& get64v v 5) ^^^ (~~~e &&& get64v v 6)) + k
  let t2 := (a.rotateRight 28 ^^^ a.rotateRight 34 ^^^ a.rotateRight 39) + ((a &&& get64v v 1) ^^^ (a &&& get64v v 2) ^^^ (get64v v 1 &&& get64v v 2))
  [t1 + t2, a, get64v v 1, get64v v 2, get64v v 3 + t1, e, get64v v 5, get64v v 6]

def sha512Block (h : List (BitVec 64)) (b : List Byte) : List (BitVec 64) :=
  let w := (sha512Sched 64 ((chunksOf 8 b).map (fun x => BitVec.ofNat 64 (beVal x))).reverse).reverse
  (h.zip ((w.zip sha512K).foldl (fun v q => sha512Round v (q.1 + q.2)) h)).map (fun q => q.1 + q.2)

/-- SHA-384: the first six words of the SHA-512 chain from its own start. -/
def sha384 (m : List Byte) : List Byte :=
  (((chunksOf 128 (shaPad 128 m)).foldl sha512Block sha384H).take 6).flatMap (fun x => beBytes x.toNat 8)

/-! ### ECDSA over P-384 -/

def p384 : Nat := 0xFFFFFFFFFFFFFFFFFFFFFFFFFFFFFFFFFFFFFFFFFFFFFFFFFFFFFFFFFFFFFFFEFFFFFFFF0000000000000000FFFFFFFF
def p384n : Nat := 0xFFFFFFFFFFFFFFFFFFFFFFFFFFFFFFFFFFFFFFFFFFFFFFFFC7634D81F4372DDF581A0DB248B0A77AECEC196ACCC52973
def p384b : Nat := 0xB3312FA7E23EE7E4988E056BE3F82D19181D9C6EFE8141120314088F5013875AC656398D8A2ED19D2A85C8EDD3EC2AEF
def p384g : Nat × Nat :=
  (0xAA87CA22BE8B05378EB1C71EF320AD746E1D3B628BA79B9859F741E082542A385502F25DBF55296C3A545E3872760AB7,
   0x3617DE4A96262C6F5D9E98BF9292DC29F8F41DBD289A147CE9DA3113B5F0B8C00A60B1CE1D7E819D7A431D7C90EA0E5F)

/-- a^e modulo m, e below 2^bits. -/
def powMod (m : Nat) : Nat → Nat → Nat → Nat
  | 0, _, _ => 1 % m
  | bits + 1, a, e => let r := powMod m bits (a * a % m) (e / 2); if e % 2 = 1 then r * a % m else r

/-- The inverse modulo a prime below 2^384 (0 of 0). -/
def invMod (m a : Nat) : Nat := powMod m 384 (a % m) (m - 2)

def subMod (a b : Nat) : Nat := (a + p384 - b % p384) % p384

/-- The sum of two points of the curve y² = x³ − 3x + b; none is the point at infinity. -/
def ecAdd : Option (Nat × Nat) → Option (Nat × Nat) → Option (Nat × Nat)
  | none, q => q
  | q, none => q
  | some (x1, y1), some (x2, y2) =>
    if x1 = x2 ∧ (y1 + y2) % p384 = 0 then none
    else
      let l := if x1 = x2 then (3 * x1 * x1 + p384 - 3) * invMod p384 (2 * y1) % p384
        else subMod y2 y1 * invMod p384 (subMod x2 x1) % p384
      let x3 := subMod (subMod (l * l % p384) x1) x2
      some (x3, subMod (l * subMod x1 x3 % p384) y1)

/-- k times a point, k below 2^bits. -/
def ecMul : Nat → Nat → Option (Nat × Nat) → Option (Nat × Nat)
  | 0, _, _ => none
  | bits + 1, k, q => let r := ecMul bits (k / 2) (ecAdd q q); if k % 2 = 1 then ecAdd q r else r

/-- The signature (r, s) of a message holds under a public key (R422). -/
def ecdsaOk (key : Nat × Nat) (m : List Byte) (r s : Nat) : Bool :=
  let e := beVal (sha384 m)
  let w := invMod p384n s
  let onCurve := decide (key.1 < p384 ∧ key.2 < p384) && decide (key.2 * key.2 % p384 = (key.1 * key.1 * key.1 + (p384 - 3) * key.1 + p384b) % p384)
  decide (0 < r ∧ r < p384n ∧ 0 < s ∧ s < p384n) && onCurve &&
    match ecAdd (ecMul 384 (e * w % p384n) (some p384g)) (ecMul 384 (r * w % p384n) (some key)) with
    | none => false
    | some (x, _) => decide (x % p384n = r)

end Sys2Proof.Machine
end

