-- ==== Sys2Proof/Machine/Bem.lean ====
section
/-! DEFINITION. The backup energy monitor (chapter 7): conversion of samples, state of charge, rest readings, learning cycles, the
estimator store, the pack's authentication, and the energy bound. -/

namespace Sys2Proof.Machine
open Reg

def updBem (f : Bem → Bem) (s : State) : State := { s with bem := f s.bem }

/-! ### Conversion (R171) -/

def signed16 (c : Nat) : Int := if c % 2 ^ 16 < 2 ^ 15 then (c % 2 ^ 16 : Nat) else ((c % 2 ^ 16 : Nat) : Int) - 2 ^ 16

/-- Two's complement of an integer in a field of w bits. -/
def twos (v : Int) (w : Nat) : Nat := (v % (2 ^ w : Int)).toNat

def packMv (code : Nat) : Nat := code * 20000 / 2 ^ 16

def packMa (code shunt : Nat) : Int := Int.tdiv (signed16 code * 50000000) (32768 * shunt)

/-- 2^96 × artanh(z), z given as 2^96 × z with |z| at most 1/3. -/
def atanhFix (z : Int) : Int :=
  let z2 := z * z / 2 ^ 96
  ((List.range 45).foldl (fun (a : Int × Int) (i : Nat) => (a.1 + a.2 / (2 * (i : Int) + 1), a.2 * z2 / 2 ^ 96)) (0, z)).1

/-- 2^96 × ln(a ÷ b) for positive a and b. -/
def lnFix (a b : Nat) : Int :=
  let k : Int := (Nat.log2 a : Int) - (Nat.log2 b : Int)
  let x := if 0 ≤ k then (a : Int) else a * 2 ^ (-k).toNat
  let y := if 0 ≤ k then (b : Int) * 2 ^ k.toNat else b
  k * (2 * atanhFix (2 ^ 96 / 3)) + 2 * atanhFix ((x - y) * 2 ^ 96 / (x + y))

/-- Nearest integer to a ÷ b, halves away from zero, b not 0. -/
def roundDiv (a b : Int) : Int :=
  let n := if b < 0 then -a else a
  let d := if b < 0 then -b else b
  if 0 ≤ n then (2 * n + d) / (2 * d) else -((2 * (-n) + d) / (2 * d))

/-- pack_decic: the temperature in 0.1 °C as the field holds it. The pseudocode's real arithmetic is carried out to 2^-96. -/
def packDecic (code nom beta : Nat) : Nat :=
  let d := 100 * 2 ^ 96 * (beta : Int) + 29815 * lnFix (10000 * code) ((65536 - code) * nom)
  let n := 29815 * 2 ^ 96 * (beta : Int)
  if d = 0 then (Config.decicOut code nom beta).toNat
  else
    let v := roundDiv (20 * n - 5463 * d) (2 * d)
    if -32768 ≤ v ∧ v ≤ 32767 then twos v 16 else (Config.decicOut code nom beta).toNat

/-- The pack temperature in 0.1 °C, none under NTC_FAULT. -/
def packTemp (s : State) : Option Int :=
  if isSet s BEM_STAT_NTC_FAULT then none else some (signed16 (getFld s BEM_MEAS_T_DECI_C))

/-- Table ENERGY-7. -/
def tempPct (t : Option Int) : Nat :=
  match t with
  | none => 0
  | some d => if d < -100 then 0 else if d < 0 then 60 else if d < 100 then 80 else if d < 150 then 90 else if d ≤ 450 then 100
    else if d ≤ 600 then 90 else 0

/-- The internal-resistance band of the present temperature, lowest first (R183); the lowest while the temperature is unknown (DESIGN CHOICE,
notes/assumptions/130.md). -/
def rintBand (s : State) : Nat :=
  match packTemp s with
  | none => 0
  | some d => if d < 150 then 0 else if d < 250 then 1 else if d ≤ 350 then 2 else 3

/-! ### The open-circuit voltage table (R174) -/

def ocv (s : State) (i : Nat) : Nat := getFld s (BEM_OCV_VAL_MV i)

def tableBad (s : State) : Bool := (List.range 10).any (fun i => decide (ocv s (i + 1) ≤ ocv s i))

/-- State of charge in ppm at a cell voltage. -/
def ocvLookup (s : State) (v : Int) : Nat :=
  if v ≤ ocv s 0 then 0
  else if (ocv s 10 : Int) ≤ v then 1000000
  else
    let i := ((List.range 10).filter (fun i => decide ((ocv s i : Int) ≤ v))).length - 1
    100000 * i + 100000 * (v.toNat - ocv s i) / (ocv s (i + 1) - ocv s i)

/-- The inverse of the look-up (R191). -/
def ocvAt (s : State) (ppm : Nat) : Nat :=
  if 1000000 ≤ ppm then ocv s 10
  else
    let i := ppm / 100000
    ocv s i + (ocv s (i + 1) - ocv s i) * (ppm - 100000 * i) / 100000

/-! ### The energy bound (R191) -/

def ceilDiv (a b : Nat) : Nat := (a + b - 1) / b

/-- BEM_STAT.AUTH: with AUTH_EN 0 it reads 'not required' (R189). -/
def bemAuth (s : State) : Nat := if isSet s BEM_CFG_AUTH_EN then getFld s BEM_STAT_AUTH else 3

/-- AUTH is pass or not required (R189). -/
def bemAuthed (s : State) : Bool := decide (bemAuth s = 1) || decide (bemAuth s = 3)

/-- t_us and the energy bound of R191. -/
def energyBound (s : State) : Nat × Nat :=
  let soc := getFld s BEM_SOC_PPM
  let tp := tempPct (packTemp s)
  if !isSet s BEM_STAT_PRESENT || !bemAuthed s || !isSet s BEM_SOC_VALID || tableBad s || decide (tp = 0) || !enabled s 7 || fenced s 7 ||
      decide (soc ≤ 150000) then (0, 0)
  else
    let cells := getFld s BEM_CFG_CELLS
    let resMv := cells * ocvAt s 150000
    let pMw := max (getFld s BEM_DUMP_P_10MW) (getFld s BEM_DUMP_MEAS_10MW) * 10
    let sag := ceilDiv (ceilDiv (pMw * 1000) resMv * getFld s (BEM_RINT_MOHM (rintBand s))) 1000
    if resMv ≤ sag + cells * ocv s 0 then (0, 0)
    else
      let useUah := getFld s BEM_Q_LEARN_MAH * 1000 * (soc - 150000) / 1000000
      let eMj := useUah * (resMv - sag) * 36 / 10000
      let dMj := eMj * getFld s BEM_CFG_EFF_PCT * tp * getFld s BEM_CONF_CONF_PCT / 1000000
      let t := dMj * 1000000 / pMw
      if t ≤ fixedUs s then (t, 0) else (t, (t - fixedUs s) * vaultRate s)

/-- A rest window ends: CHG_INHIBIT is released, unless a learning cycle asserts it (R178; DESIGN CHOICE, notes/assumptions/140.md). -/
def restWinEnd (s : State) : State :=
  setFld BEM_STAT_RESTWIN 0 (setFlag BEM_STAT_CHG_INHIBIT (decide (getFld s BEM_LEARN_PHASE ≠ 0)) s)

/-- A forced rest window ends without success (R178). -/
def restWinFail (s : State) : State := setEvt 7 BEM_EVT_RESTWIN_FAIL (restWinEnd s)

/-- The energy bound is delivered and DIRTY_CEIL follows (R145, R191); a rest window ends when the ceiling falls below the dirty
slots (R178). -/
def boundUpdate (s : State) : State :=
  let e := energyBound s
  let s1 := setFld BEM_TDUMP_US (min e.1 (2 ^ 32 - 1)) (set64 BEM_EBYTES_LO_BYTES BEM_EBYTES_HI_BYTES e.2
    (setFlag BEM_STAT_TABLE_BAD (tableBad s) (setFld BEM_CONF_TEMP_PCT (tempPct (packTemp s)) (updBem (fun b => { b with eBytes := e.2 }) s))))
  let s2 := ceilRecompute s1
  if isSet s2 BEM_STAT_RESTWIN ∧ s2.cache.ceil < cacheDirty s2 then restWinFail s2 else s2

/-- DIRTY_CEIL_RECOMPUTE (R145). -/
def execDirtyCeilRecompute (s : State) : Host.Outcome State Fault Refusal := run true (boundUpdate s)

/-! ### State of charge -/

/-- CONF_PCT takes a value, held to 80 where R177 or R190 says so; the store notes the change (R187). -/
def setConf (v : Nat) (s : State) : State :=
  let x := if s.bem.cap80 then min v 80 else v
  if getFld s BEM_CONF_CONF_PCT = x then s else updBem (fun b => { b with due := true }) (setFld BEM_CONF_CONF_PCT x s)

/-- The state of charge takes a value in ppm from a source. -/
def setSoc (ppm src : Nat) (s : State) : State :=
  setFld BEM_SOC_VALID 1 (setFld BEM_SOC_SRC src (setFld BEM_SOC_PPM ppm
    (updBem (fun b => { b with charge := ppm * getFld s BEM_Q_LEARN_MAH, part := 0 }) s)))

/-- The learned capacity takes a value; the state of charge keeps its ppm. -/
def setLearn (mah : Nat) (s : State) : State :=
  updBem (fun b => { b with charge := getFld s BEM_SOC_PPM * (mah % 2 ^ 16), due := true }) (setFld BEM_Q_LEARN_MAH mah s)

/-- Count a current sample's charge (R175): in at 98 %, out at 100 %. -/
def countCharge (us : Nat) (s : State) : State :=
  let learn := getFld s BEM_Q_LEARN_MAH
  if !isSet s BEM_SOC_VALID ∨ learn = 0 then s
  else
    let q := s.bem.part + s.bem.ma * us * (if 0 < s.bem.ma then 98 else 100)
    let nah := Int.tdiv q 360000
    let c := min (max ((s.bem.charge : Int) + nah) 0) ((1000000 * learn : Nat) : Int)
    let s1 := updBem (fun b => { b with charge := c.toNat, part := q - nah * 360000 }) s
    if nah = 0 then s1 else setFld BEM_SOC_SRC 2 (setFld BEM_SOC_PPM (c.toNat / learn) s1)

/-- Sum a sample's discharge and count whole cycles (R184). -/
def countCycles (us : Nat) (s : State) : State :=
  let learn := getFld s BEM_Q_LEARN_MAH
  if 0 ≤ s.bem.ma ∨ learn = 0 then s
  else
    let q := s.bem.dischUs + (-s.bem.ma).toNat * us
    let d := s.bem.disch + q / 3600
    let full := learn * 1000000
    let n := d / full
    let s1 := updBem (fun b => { b with disch := d % full, dischUs := q % 3600, due := b.due || decide (n ≠ 0) }) s
    if n = 0 then s1 else incFld BEM_LEARN_CYCLES n s1

/-- The loaded estimate of R177, from the sample set that has just been taken. -/
def loadedEst (s : State) : State :=
  if !s.bem.estDue ∨ tableBad s ∨ !bemAuthed s then s
  else
    let v := (getFld s BEM_MEAS_V_PACK_MV : Int) - Int.tdiv (s.bem.ma * getFld s (BEM_RINT_MOHM (rintBand s))) 1000
    let s1 := setSoc (ocvLookup s (v / max 1 (getFld s BEM_CFG_CELLS : Int))) 3 (updBem (fun b => { b with estDue := false, cap80 := true }) s)
    setConf (getFld s1 BEM_CONF_CONF_PCT) s1

/-! ### Learning cycles -/

/-- The running cycle is disqualified (R181): an automatic one is tried again 24 hours later. A rest window that is open still asserts CHG_INHIBIT
(R178; notes/assumptions/140.md). -/
def learnDq (cause : Nat) (s : State) : State :=
  if getFld s BEM_LEARN_PHASE = 0 then s
  else setEvt 7 BEM_EVT_LEARN_DQ (setFld BEM_LEARN_LAST_CAUSE cause (setFld BEM_LEARN_PHASE 0 (setFld BEM_STAT_BAT_LOAD 0
    (setFlag BEM_STAT_CHG_INHIBIT (isSet s BEM_STAT_RESTWIN)
      (updBem (fun b => { b with soc1 := none, learnRetry := if b.learnAuto then opMin s + 1440 else b.learnRetry }) s)))))

/-- The conditions for opening a rest window or starting a learning cycle (R178, R180). -/
def windowOk (s : State) : Bool :=
  bemAuthed s && !isSet s PWR_STAT_BRACED && decide (getFld s PWR_STAT_STATE ≠ 4) && decide (getFld s BEM_LEARN_PHASE = 0) &&
  isSet s BEM_SOC_VALID && decide (getFld s BEM_REST_SOC_MIN * 10000 ≤ getFld s BEM_SOC_PPM) &&
  decide (0 < s.cache.ceil ∧ cacheDirty s ≤ s.cache.ceil) && !tableBad s

/-- Sequence ENERGY-1 step 1; `auto` says that the cycle starts by itself. -/
def learnStart (auto : Bool) (s : State) : State :=
  setFld BEM_LEARN_PHASE 1 (setFld BEM_STAT_CHG_INHIBIT 1
    (updBem (fun b => { b with soc1 := none, dq := 0, secUs := 0, secQ := 0, badUs := 0, learnAuto := auto }) s))

/-- A learning cycle is due (R180): LEARN_DAYS days of OP_MINUTES have passed since the last qualified cycle, or the pack has had none (R190); a
disqualified one is not tried again within 24 hours (R181). -/
def learnDue (s : State) : Bool :=
  (decide (s.bem.learnOp = 0) || decide (s.bem.learnOp + 1440 * getFld s BEM_CFG_LEARN_DAYS ≤ opMin s)) && decide (s.bem.learnRetry ≤ opMin s)

/-- A sample's part in the learning cycle: causes 1 to 3 and the end of PHASE 2 (R181, Sequence ENERGY-1). -/
def learnSample (us : Nat) (s : State) : State :=
  let ph := getFld s BEM_LEARN_PHASE
  if ph = 0 then s
  else
    let hot := match packTemp s with
      | none => true
      | some d => decide (d < 150) || decide (350 < d)
    if hot then learnDq 1 s
    else
      let load := isSet s BEM_STAT_BAT_LOAD
      let out := max (-s.bem.ma) 0
      let b := s.bem
      let dq := if load then b.dq + out.toNat * us else b.dq
      let secUs := if ph = 2 then b.secUs + us else 0
      let secQ := if ph = 2 then b.secQ - b.ma * us else 0
      let bad := if ph = 2 then !load else decide ((getFld s BEM_REST_REST_MA : Int) < b.ma ∨ b.ma < -(getFld s BEM_REST_REST_MA : Int))
      let badUs := if bad then b.badUs + us else 0
      let c : Int := getFld s BEM_Q_LEARN_MAH
      let whole := decide (1000000 ≤ secUs)
      let off := whole && (decide (secQ * 10 < c * secUs) || decide (c * secUs < secQ * 3))
      let s1 := updBem (fun t => { t with dq := dq, secUs := if whole then 0 else secUs, secQ := if whole then 0 else secQ, badUs := badUs }) s
      if off && load then learnDq 2 s1
      else if 60000000 < badUs then learnDq 3 s1
      else if ph = 2 ∧ getFld s1 BEM_SOC_PPM ≤ 300000 then
        setFld BEM_LEARN_PHASE 3 (setFld BEM_STAT_BAT_LOAD 0 (updBem (fun t => { t with badUs := 0 }) s1))
      else s1

/-- The sample before a load step, for R183. -/
def rintStep (s : State) : State :=
  updBem (fun b => { b with step := some (getFld s BEM_MEAS_V_PACK_MV, b.ma, rintBand s) }) s

/-! ### Samples -/

/-- A sample (R172, R173); a current code of −32,768, beyond the range of R171, counts as saturated (DESIGN CHOICE, notes/assumptions/134.md). The current
stands for the time since the previous one; voltage and temperature come with some samples. -/
def bemSample (us i : Nat) (v t : Option Nat) (s : State) : State :=
  let sat := decide (i % 2 ^ 16 = 32767 ∨ i % 2 ^ 16 = 32769 ∨ i % 2 ^ 16 = 32768)
  let ma := packMa i (getFld s BEM_SHUNT_UOHM)
  let s1 := setFlag BEM_STAT_ISAT sat (setFld BEM_MEAS_I_MA (twos ma 16) (setFld BEM_MEAS_I_CODE i (updBem (fun b => { b with ma := ma }) s)))
  let s2 := if sat then setEvt 7 BEM_EVT_ISAT s1 else s1
  let s3 := match v with
    | some c => setFld BEM_MEAS_V_PACK_MV (packMv (c % 2 ^ 16)) (setFld BEM_MEAS_V_CODE c s2)
    | none => s2
  let s4 := match t with
    | some c =>
      if c % 2 ^ 16 = 0 ∨ c % 2 ^ 16 = 65535 then setEvt 7 BEM_EVT_NTC_FAULT (setFld BEM_STAT_NTC_FAULT 1 (setFld BEM_MEAS_T_CODE c s3))
      else
        let d := packDecic (c % 2 ^ 16) (getFld s BEM_NTC_NOM_OHM) (getFld s BEM_NTC_BETA)
        sketchExtreme 0xC013 (signed16 d) (setFld BEM_STAT_NTC_FAULT 0 (setFld BEM_MEAS_T_DECI_C d (setFld BEM_MEAS_T_CODE c s3)))
    | none => s3
  let s5 := countCycles us (countCharge us s4)
  let s6 := if v.isSome then loadedEst s5 else s5
  let rest := (getFld s6 BEM_REST_REST_MA : Int)
  let s7 := if rest < ma ∨ ma < -rest then setFld BEM_STAT_REST 0 s6 else s6
  let s8 := if getFld s7 BEM_STAT_STATE = 1 then
      updBem (fun b => { b with dumpUs := b.dumpUs + us, dumpE := b.dumpE - (getFld s7 BEM_MEAS_V_PACK_MV : Int) * ma * us }) s7
    else s7
  boundUpdate (learnSample us s8)

/-- BEM_SAMPLE (R172). -/
def execBemSample (us i : Nat) (v t : Option Nat) (s : State) : Host.Outcome State Fault Refusal :=
  run true (if getFld s BEM_STAT_STATE = 2 then s else bemSample us i v t s)

/-- BEM_HIBERNATE_WAKE (R173): one full sample set. -/
def execBemHibernateWake (us i v t : Nat) (s : State) : Host.Outcome State Fault Refusal :=
  run true (if getFld s BEM_STAT_STATE = 2 then bemSample us i (some v) (some t) s else s)

/-- The monitor follows the power state (Table ENERGY-3); the end of a dump gives the measured dump power (R173),
rounded down to whole 10 mW and held at 65,535; a dump without a sample leaves it (DESIGN CHOICE, notes/assumptions/162.md). -/
def bemFollow (s : State) : State :=
  let p := getFld s PWR_STAT_STATE
  let new := if p = 4 then 1 else if p = 3 ∨ p = 5 then 2 else 0
  let old := getFld s BEM_STAT_STATE
  let s1 := setFlag (PG_STAT_ASLEEP 7) (decide (new = 2)) (setFld BEM_STAT_STATE new s)
  if old = new then s1
  else if new = 1 then rintStep (updBem (fun b => { b with dumpUs := 0, dumpE := 0 }) s1)
  else if old = 1 ∧ s.bem.dumpUs ≠ 0 then
    updBem (fun b => { b with due := true }) (setFld BEM_DUMP_MEAS_10MW (min (s.bem.dumpE.toNat / (s.bem.dumpUs * 10000)) 65535) s1)
  else s1

/-! ### Rest readings -/

/-- The end of a qualified or failed PHASE 3 (R181 cause 4, R182). -/
def learnEnd (soc2 : Nat) (s : State) : State :=
  match s.bem.soc1 with
  | none => s
  | some soc1 =>
    if soc1 < soc2 + 500000 then learnDq 4 s
    else
      let mah := min (s.bem.dq / 3600000 * 1000000 / (soc1 - soc2) / 1000) (getFld s BEM_Q_DESIGN_MAH * 105 / 100)
      setEvt 7 BEM_EVT_LEARN_DONE (setFld BEM_LEARN_LAST_CAUSE 0 (setFld BEM_LEARN_PHASE 0 (setFld BEM_STAT_CHG_INHIBIT 0
        (updBem (fun b => { b with soc1 := none, learnOp := max 1 (opMin s) }) (setLearn mah s)))))

/-- A rest reading (R174, R176): it replaces the counted value, and serves the rest window and the learning cycle that wait for it. One that no valid
state of charge precedes raises no JUMP (DESIGN CHOICE, notes/assumptions/133.md). The cell voltage it looks up, like the loaded one of R177, is
truncated to whole mV (DESIGN CHOICE, notes/assumptions/162.md). -/
def restReading (s : State) : State :=
  let rest := (getFld s BEM_REST_REST_MA : Int)
  if !isSet s BEM_STAT_PRESENT ∨ rest < s.bem.ma ∨ s.bem.ma < -rest then s
  else if tableBad s then setFld BEM_STAT_REST 1 s
  else
    let ppm := ocvLookup s (getFld s BEM_MEAS_V_PACK_MV / max 1 (getFld s BEM_CFG_CELLS) : Nat)
    let old := getFld s BEM_SOC_PPM
    let jump := isSet s BEM_SOC_VALID && decide (old + 10000 ≤ ppm ∨ ppm + 10000 ≤ old)
    let s1 := setSoc ppm 1 (setFld BEM_STAT_COLD 0 (setFld BEM_STAT_REST 1
      (updBem (fun b => { b with cap80 := false, estDue := false, restOp := opMin s }) s)))
    let s2 := setFld BEM_CONF_DAYS_NO_REST 0 (setConf 100 s1)
    let s3 := setEvt 7 BEM_EVT_REST_READ (if jump then setEvt 7 BEM_EVT_JUMP s2 else s2)
    let s4 := if isSet s3 BEM_STAT_RESTWIN then restWinEnd s3 else s3
    let s5 := match getFld s4 BEM_LEARN_PHASE with
      | 1 => if ppm < 900000 then learnDq 6 s4
        else setFld BEM_LEARN_PHASE 2 (setFld BEM_STAT_BAT_LOAD 1 (rintStep (updBem (fun b =>
          { b with soc1 := some ppm, dq := 0, secUs := 0, secQ := 0, badUs := 0 }) s4)))
      | 3 => learnEnd ppm s4
      | _ => s4
    boundUpdate s5

def execRestReading (s : State) : Host.Outcome State Fault Refusal := run true (restReading s)

/-- A rest window is tried (R178); under TABLE_BAD it cannot open (R174). -/
def restWindow (s : State) : State :=
  if windowOk s ∧ !isSet s BEM_STAT_RESTWIN then setFld BEM_STAT_RESTWIN 1 (setFld BEM_STAT_CHG_INHIBIT 1 s)
  else setEvt 7 BEM_EVT_RESTWIN_FAIL s

/-- BEM_DAY_BOUNDARY (R178, R179). At the floor of 50 CONF_PCT does not fall and CONF_DROP is not raised (DESIGN CHOICE,
notes/assumptions/132.md). -/
def execBemDayBoundary (s : State) : Host.Outcome State Fault Refusal :=
  let s1 := satFld BEM_CONF_DAYS_NO_REST 1 s
  let d := getFld s1 BEM_CONF_DAYS_NO_REST
  let cf := getFld s1 BEM_CONF_CONF_PCT
  let s2 := if 7 < d ∧ 50 < cf then setEvt 7 BEM_EVT_CONF_DROP (setConf (cf - 1) s1) else s1
  run true (boundUpdate (if 7 ≤ d then restWindow s2 else s2))

/-- REST_WINDOW_TIMEOUT (R178): 45 minutes without a rest reading. -/
def execRestWindowTimeout (s : State) : Host.Outcome State Fault Refusal :=
  run true (if isSet s BEM_STAT_RESTWIN then restWinFail s else s)

/-- LEARN_CYCLE_START (R180): a cycle that is due starts by itself. -/
def execLearnCycleStart (s : State) : Host.Outcome State Fault Refusal :=
  run true (if isSet s BEM_CFG_LEARN_EN ∧ getFld s BEM_CFG_LEARN_DAYS ≠ 0 ∧ learnDue s ∧ windowOk s then learnStart true s else s)

/-- RINT_MEASURE (R183): the sample 1 s after a load step. The quotient is rounded down to whole mΩ. A negative ΔV is no measurement, and one of
0 mΩ is kept as the least value of the field (DESIGN CHOICE, notes/assumptions/131.md). -/
def execRintMeasure (s : State) : Host.Outcome State Fault Refusal :=
  run true (match s.bem.step with
    | none => s
    | some (mv, ma, band) =>
      let dv := (mv : Int) - getFld s BEM_MEAS_V_PACK_MV
      let di := ma - s.bem.ma
      let s1 := updBem (fun b => { b with step := none }) s
      if di ≤ 0 ∨ di * 20 < getFld s BEM_Q_LEARN_MAH ∨ dv < 0 then s1
      else boundUpdate (updBem (fun b => { b with due := true }) (setFld (BEM_RINT_MOHM band) (max 1 (min 65535 (dv * 1000 / di).toNat)) s1)))

/-! ### The estimator store (R185 to R187) -/

def estA : Nat := 0x02C00000
def estB : Nat := 0x02C08000

def estValid (b : List Byte) : Bool :=
  decide (leAt b 0 8 = 0x4D495453454E595A) && decide (leAt b 8 2 = 1) && crcOk b 0xFC

/-- The record of Table ENERGY-6. -/
def estBytes (seq : Nat) (s : State) : List Byte :=
  let rint := (List.range 4).flatMap (fun i => leBytes (getFld s (BEM_RINT_MOHM i)) 2)
  withCrc (leBytes 0x4D495453454E595A 8 ++ leBytes 1 2 ++ zeros 2 ++ leBytes seq 4 ++ leBytes (s.bem.packId.getD 0) 4 ++
    leBytes (getFld s BEM_Q_DESIGN_MAH) 2 ++ leBytes (getFld s BEM_Q_LEARN_MAH) 2 ++ leBytes (getFld s BEM_LEARN_CYCLES) 2 ++
    leBytes s.bem.cells 1 ++ leBytes (getFld s BEM_CONF_CONF_PCT) 1 ++ rint ++ leBytes s.bem.learnOp 4 ++ leBytes s.bem.restOp 4 ++
    leBytes (getFld s BEM_DUMP_MEAS_10MW) 2 ++ zeros 2 ++ leBytes (s.bem.disch / 1000) 4 ++ zeros 200)

/-- ESTIMATOR_STORE_WRITE (R186, R187): whether the read-back agrees is the flash's answer. -/
def execEstimatorStoreWrite (ok : Bool) (s : State) : Host.Outcome State Fault Refusal :=
  run true (if !s.bem.due then s
    else
      let q := slotFor s estA estB 0x0C estValid
      if ok then setFld BEM_STORE_SEQ q.2 (updBem (fun b => { b with due := false }) (flashPut q.1 (estBytes q.2 s) s))
      else setEvt 7 BEM_EVT_STORE_ERR (flashErase q.1 s))

/-! ### Presence and authentication (R188 to R190) -/

/-- BAT_PRES_CHANGE (R188): the pack goes, or comes back and waits 2 s. -/
def execBatPresChange (present : Bool) (s : State) : Host.Outcome State Fault Refusal :=
  let s1 := setEvt 7 BEM_EVT_PRES_CHG s
  run true (if present then s1
    else setFld BEM_STAT_RESTWIN 0 (setFld BEM_STAT_CHG_INHIBIT 0 (boundUpdate (setFld BEM_STAT_PRESENT 0 (setFld BEM_SOC_VALID 0
      (setFld BEM_SOC_SRC 0 (setFld BEM_STAT_REST 0 (setFld BEM_STAT_BAT_LOAD 0 (setFld BEM_STAT_AUTH 0
        (updBem (fun b => { b with nonce := none, serial := [] }) (learnDq 5 s1)))))))))))

/-- The pack is new to the monitor (R190); a learning cycle is due, as with no qualified one. -/
def newPack (s : State) : State :=
  let s1 := setFld BEM_LEARN_CYCLES 0 (setFld BEM_SOC_VALID 0 (setFld BEM_SOC_SRC 0
    ((List.range 4).foldl (fun t i => setFld (BEM_RINT_MOHM i) (BEM_RINT_MOHM i).reset t) s)))
  let s2 := setLearn (getFld s BEM_Q_DESIGN_MAH * 80 / 100) s1
  let s3 := updBem (fun b => { b with disch := 0, dischUs := 0, cap80 := true, estDue := true, learnOp := 0, due := true }) s2
  setConf (getFld s3 BEM_CONF_CONF_PCT) s3

/-- The stored model of a known pack is taken over (R190). -/
def loadModel (r : List Byte) (s : State) : State :=
  let s1 := (List.range 4).foldl (fun t i => setFld (BEM_RINT_MOHM i) (leAt r (0x1C + 2 * i) 2) t) s
  setFld BEM_DUMP_MEAS_10MW (leAt r 0x2C 2) (setFld BEM_CONF_CONF_PCT (if s.bem.cap80 then min (leAt r 0x1B 1) 80 else leAt r 0x1B 1) (setFld BEM_LEARN_CYCLES (leAt r 0x18 2)
    (updBem (fun b => { b with learnOp := leAt r 0x24 4, restOp := leAt r 0x28 4, disch := leAt r 0x30 4 * 1000, due := b.due })
      (setLearn (leAt r 0x16 2) s1))))

/-- IDENT is taken in: the pack is new, or its stored model is kept (R190). -/
def takeIdent (d : List Byte) (s : State) : State :=
  let id := crc32c (slice d 0 16)
  let s1 := setFld BEM_Q_DESIGN_MAH (leAt d 16 2) (updBem (fun b => { b with serial := slice d 0 16, cells := leAt d 18 1 }) s)
  let s2 :=
    if s.bem.packId = some id then s1
    else
      let s3 := updBem (fun b => { b with packId := some id }) s1
      match slotRead s estA estB 0x0C estValid with
      | some r => if leAt r 0x10 4 = id then loadModel r s3 else newPack s3
      | none => newPack s3
  if isSet s2 BEM_SOC_VALID then s2 else updBem (fun b => { b with estDue := true }) s2

/-- The running authentication ends; an AUTH command ends with it. -/
def authEnd (auth : Nat) (s : State) : State :=
  let s1 := setFld BEM_STAT_AUTH auth (updBem (fun b => { b with nonce := none, fails := 0 }) s)
  boundUpdate (if isSet s1 BEM_CMD_GO then cmdEnd BEM_CMD_GO BEM_CMD_RES_STATUS BEM_CMD_RES_DONE .ok s1 else s1)

/-- An attempt fails: after the third AUTH is fail (R189). -/
def authFail (s : State) : State :=
  if s.bem.fails + 1 < 3 then updBem (fun b => { b with nonce := none, fails := b.fails + 1 }) s
  else
    let s1 := authEnd 2 s
    sketchEvt 7 BEM_EVT_AUTH_FAIL 3 (setEvt 7 BEM_EVT_AUTH_FAIL (learnDq 5 s1))

/-- The packet error code of SMBus over a transaction's bytes: CRC-8 with polynomial 0x07 (PRESUMED, notes/assumptions/141.md). -/
def smbPec (bs : List Byte) : Nat :=
  bs.foldl (fun c b => (List.range 8).foldl (fun x _ => if 128 ≤ x then (2 * x % 256) ^^^ 7 else 2 * x) (c ^^^ b.toNat)) 0

/-- A transaction with the pack at BEM_CFG.SMB_ADDR (R170, Table ENERGY-2): a Block Write of some bytes with its PEC, or a Block Read. -/
def packSend (code : Nat) (bytes : List Byte) (s : State) : State :=
  let a := getFld s BEM_CFG_SMB_ADDR
  let frame := leBytes code 1 ++ leBytes bytes.length 1 ++ bytes
  emit (.smbus a code (if bytes = [] then [] else bytes ++ leBytes (smbPec (leBytes (2 * a) 1 ++ frame)) 1)) s

/-- IDENT is read where it is not known yet (R188). -/
def readIdent (ident : Option (List Byte)) (s : State) : State :=
  if s.bem.serial ≠ [] then s else match ident with
    | some d => takeIdent d (packSend 0x70 [] s)
    | none => packSend 0x70 [] s

/-- One attempt: IDENT where it is not known yet, then CHALLENGE (R170, R189). -/
def authAttempt (ident : Option (List Byte)) (nonce : Nat) (s : State) : State :=
  let s1 := readIdent ident s
  if s1.bem.serial = [] then authFail s1
  else
    let n := leBytes nonce 32
    packSend 0x71 n (updBem (fun b => { b with nonce := some n }) s1)

/-- Authentication begins (R189); with AUTH_EN 0 none is made. AUTH is pending while it runs, a later one of an authenticated pack included
(DESIGN CHOICE, notes/assumptions/129.md). -/
def authStart (ident : Option (List Byte)) (nonce : Nat) (s : State) : State :=
  if isSet s BEM_CFG_AUTH_EN then
    boundUpdate (authAttempt ident nonce (setFld BEM_STAT_AUTH 0 (updBem (fun b => { b with nonce := none, fails := 0 }) s)))
  else
    authEnd 3 (readIdent ident s)

/-- A write changes AUTH_EN (R189): cleared, AUTH reads 'not required' and what runs ends; set again, AUTH is pending until the next
authentication. -/
def authSwitch (before s : State) : State :=
  if isSet before BEM_CFG_AUTH_EN = isSet s BEM_CFG_AUTH_EN then s else authEnd 0 s

/-- At start-up a pack that is present is authenticated at once (R188, R189). -/
def authStartup (nonce : Nat) (s : State) : State := if isSet s BEM_STAT_PRESENT then authStart none nonce s else s

/-- PACK_INSERTED (R188): BAT_PRES# has stayed low for 2 s. -/
def execPackInserted (ident : Option (List Byte)) (nonce : Nat) (s : State) : Host.Outcome State Fault Refusal :=
  run true (authStart ident nonce (setFld BEM_STAT_PRESENT 1 s))

/-- AUTH_RESPONSE_READ (R189): the 32 bytes are compared with the HMAC under the pack key. -/
def execAuthResponseRead (resp : Option (List Byte)) (s : State) : Host.Outcome State Fault Refusal :=
  run true (match s.bem.nonce, smGet s.role.keys 1 with
    | none, _ => s
    | some n, some key =>
      if resp = some (hmacSha256 key (n ++ s.bem.serial)) ∧ s.bem.cells = getFld s BEM_CFG_CELLS then authEnd 1 (packSend 0x72 [] s) else authFail (packSend 0x72 [] s)
    | some _, none => authFail (packSend 0x72 [] s))

/-- AUTH_RETRY (R189). -/
def execAuthRetry (ident : Option (List Byte)) (nonce : Nat) (s : State) : Host.Outcome State Fault Refusal :=
  run true (if isSet s BEM_STAT_PRESENT ∧ getFld s BEM_STAT_AUTH = 0 ∧ s.bem.nonce = none ∧ s.bem.fails ≠ 0 then boundUpdate (authAttempt ident nonce s)
    else s)

/-- AUTH_PERIODIC (R189). -/
def execAuthPeriodic (nonce : Nat) (s : State) : Host.Outcome State Fault Refusal :=
  run true (if isSet s BEM_STAT_PRESENT ∧ isSet s BEM_CFG_AUTH_EN then authStart none nonce s else s)

/-! ### Commands of the BEM page (R192) -/

def bemEnd (st : Status) (s : State) : State := cmdEnd BEM_CMD_GO BEM_CMD_RES_STATUS BEM_CMD_RES_DONE st s

/-- LEARN (R180). -/
def learnCmd (s : State) : State := if windowOk s then bemEnd .ok (learnStart false s) else bemEnd .stateConflict s

/-- ABORT_LEARN (R181). -/
def abortLearnCmd (s : State) : State := bemEnd .ok (learnDq 5 s)

/-- FORGET (R190): as for a new pack. -/
def forgetCmd (s : State) : State := boundUpdate (bemEnd .ok (newPack s))

/-- The operation that OP holds; AUTH needs the nonce its row brings (DESIGN CHOICE, notes/assumptions/147.md). -/
def bemHeld (op : Nat) (s : State) : State :=
  let t := cmdStart BEM_CMD_GO BEM_CMD_RES_DONE s
  if op = 1 then learnCmd t else if op = 2 then abortLearnCmd t else if op = 4 then forgetCmd t else s

def bemCmd (w : Win) (op : Nat) (act : State → State) (s : State) : State :=
  cmdWrite w 7 BEM_CMD_OP op [] BEM_CMD_GO BEM_CMD_RES_STATUS BEM_CMD_RES_DONE bemHeld act s

def execLearn (w : Win) (s : State) : Host.Outcome State Fault Refusal := run true (bemCmd w 1 learnCmd s)

def execAbortLearn (w : Win) (s : State) : Host.Outcome State Fault Refusal := run true (bemCmd w 2 abortLearnCmd s)

def execAuth (w : Win) (nonce : Nat) (s : State) : Host.Outcome State Fault Refusal :=
  run true (bemCmd w 3 (fun t => if isSet t BEM_STAT_PRESENT then authStart none nonce t else bemEnd .stateConflict t) s)

def execForget (w : Win) (s : State) : Host.Outcome State Fault Refusal := run true (bemCmd w 4 forgetCmd s)

/-- BEM fenced (Table ENERGY-10). -/
def bemFence (s : State) : State :=
  setFld BEM_STAT_RESTWIN 0 (setFld BEM_STAT_CHG_INHIBIT 0 (boundUpdate (setFld BEM_STAT_BAT_LOAD 0 (learnDq 5 s))))

end Sys2Proof.Machine
end

