-- ==== Sys2Proof/Machine/Evr.lean ====
section
/-! DEFINITION. The Sketchbook's records (R428 to R433) and the commands of the EVR page (R435). -/

namespace Sys2Proof.Machine
open Reg

/-- Flash offset of a record page (R409). -/
def pageOff (p : Nat) : Nat := 0x02000000 + 256 * p

/-- A stored record, as read from its page. -/
structure Stored where
  page   : Nat
  seq    : Nat
  sev    : Nat
  erases : Nat
  code   : Nat
  bytes  : List Byte
  deriving DecidableEq, Repr

/-- A record is valid (R428). -/
def recValid (b : List Byte) : Bool :=
  decide (leAt b 0 4 = leAt b 0xFC 4 ∧ leAt b 0 4 ≠ 0xFFFFFFFF ∧ leAt b 0xF8 4 = crc32c (slice b 4 0xF4))

/-- The valid records of the store. -/
def storedRecs (s : State) : List Stored :=
  s.flash.slots.filterMap (fun q =>
    if 0x02000000 ≤ q.1 ∧ q.1 < 0x02800000 ∧ recValid q.2 then
      some { page := (q.1 - 0x02000000) / 256, seq := leAt q.2 0 4, sev := leAt q.2 6 1 % 4, erases := leAt q.2 0x1C 4, code := leAt q.2 4 2, bytes := q.2 }
    else none)

/-- The record with the highest, or lowest, sequence number of a list. -/
def newestRec (l : List Stored) : Option Stored := l.foldl (fun a r => match a with
  | none => some r
  | some x => if x.seq < r.seq then some r else some x) none

def oldestRec (l : List Stored) : Option Stored := l.foldl (fun a r => match a with
  | none => some r
  | some x => if r.seq < x.seq then some r else some x) none

/-- EVR_STAT and EVR_ENDS follow the store. -/
def showStore (s : State) : State :=
  let l := storedRecs s
  setFld EVR_STAT_USED l.length (setFld EVR_STAT_RETIRED s.flash.retired.length
    (setFld EVR_ENDS_OLDEST (((oldestRec l).map Stored.page).getD 0) (setFld EVR_ENDS_NEWEST (((newestRec l).map Stored.page).getD 0) s)))

/-- ERASES of a page once it is erased again (R432). -/
def erasesOf (l : List Stored) (p : Nat) : Nat :=
  match l.find? (fun r => decide (r.page = p)) with
  | some r => r.erases + 1
  | none => l.foldl (fun a r => max a r.erases) 0 + 1

/-- The page a record of a severity goes to, and whether it overwrites (R432); none where it is dropped. -/
def recPlace (s : State) (sev : Nat) : Option (Nat × Bool) :=
  let l := storedRecs s
  let from_ := match newestRec l with
    | some r => r.page + 1
    | none => 0
  let free := fun p => (flashAt s (pageOff p)).isNone && decide (p ∉ s.flash.retired)
  match (List.range 32768).find? (fun i => free ((from_ + i) % 32768)) with
  | some i => some ((from_ + i) % 32768, false)
  | none =>
    let live := l.filter (fun r => decide (r.page ∉ s.flash.retired))
    match live.map Stored.sev with
    | [] => none
    | x :: xs =>
      let m := xs.foldl min x
      if sev < m then none else (oldestRec (live.filter (fun r => decide (r.sev = m)))).map (fun r => (r.page, true))

/-- A record's 256 bytes (Table ROLE-7). -/
def recBytes (o : Occ) (seq erases : Nat) : List Byte :=
  let mid := leBytes o.code 2 ++ leBytes (o.sev % 4) 1 ++ zeros 1 ++ leBytes o.opMin 4 ++ leBytes o.pwr 4 ++ leBytes o.time 8 ++ leBytes o.held 4 ++
    leBytes erases 4 ++ slice o.body 0 216
  leBytes seq 4 ++ mid ++ leBytes (crc32c mid) 4 ++ leBytes seq 4

/-- A page leaves service (R432). -/
def retirePage (p : Nat) (s : State) : State :=
  showStore (setEvt 6 EVR_EVT_RETIRE (updFlash (fun f => { f with retired := f.retired ++ [p] }) s))

/-- Write one record (R429, R432): a page past its endurance is retired and `again` takes the next one; `ok` says whether the read-back
agrees. -/
def recPut (o : Occ) (ok : Bool) (again : State → State) (s : State) : State :=
  match recPlace s o.sev with
  | none => setEvt 6 EVR_EVT_DROP (incFld EVR_LOST_COUNT 1 s)
  | some (p, lost) =>
    let er := erasesOf (storedRecs s) p
    if 90000 < er then again (retirePage p s)
    else if !ok then setEvt 6 EVR_EVT_STORE_ERR (retirePage p (flashErase (pageOff p) s))
    else
      let seq := getFld s EVR_NEXT_SEQ_SEQ
      let s1 := if lost then setEvt 6 EVR_EVT_OVERWRITE (incFld EVR_OVERWR_COUNT 1 s) else s
      showStore (incFld EVR_NEXT_SEQ_SEQ 1 (decFld EVR_BUDGET_TOKENS 1 (flashPut (pageOff p) (recBytes o seq er) s1)))

/-- Write one record, trying page after page. -/
def recWrite : Nat → Occ → Bool → State → State
  | 0, _, _, s => s
  | fuel + 1, o, ok, s => recPut o ok (recWrite fuel o ok) s

/-- The next due record is written; one whose page failed stays due. -/
def writeDue (ok : Bool) (s : State) : State :=
  match s.evr.due with
  | [] => s
  | o :: rest =>
    let s1 := recWrite 32768 o ok s
    if !ok ∧ (recPlace s o.sev).isSome then s1 else updEvr (fun e => { e with due := rest }) s1

/-- SKETCHBOOK_RECORD_WRITE (R429, R432). -/
def execSketchbookRecordWrite (ok : Bool) (s : State) : Host.Outcome State Fault Refusal :=
  run true (if evrWrites s then writeDue ok s else s)

/-- Take a code's held record, to be written. -/
def releaseHeld (code : Nat) (s : State) : State :=
  match s.evr.held.find? (fun h => decide (h.code = code)) with
  | none => s
  | some o => dueOcc o (showHeld (updEvr (fun e => { e with held := e.held.filter (fun h => decide (h.code ≠ code)) }) s))

/-- SKETCHBOOK_WINDOW_END (R430). -/
def execSketchbookWindowEnd (code : Nat) (s : State) : Host.Outcome State Fault Refusal :=
  let s1 := updEvr (fun e => { e with window := e.window.filter (· ≠ code) }) s
  run true (if !evrWrites s1 ∨ !s1.evr.held.any (fun h => decide (h.code = code)) then s1
    else if tokenLeft s1 then releaseHeld code s1 else setEvt 6 EVR_EVT_BUDGET_EMPTY s1)

/-- The held records by falling severity, then by age (R431). -/
def heldOrder (s : State) : List Occ :=
  [3, 2, 1, 0].flatMap (fun v => s.evr.held.filter (fun h => decide (h.sev = v)))

/-- SKETCHBOOK_TOKEN (R431): one token a second; a record held for want of one is written. -/
def execSketchbookToken (s : State) : Host.Outcome State Fault Refusal :=
  let s1 := setFld EVR_BUDGET_TOKENS (min 3600 (getFld s EVR_BUDGET_TOKENS + 1)) s
  run true (if !evrWrites s1 ∨ !tokenLeft s1 then s1
    else match (heldOrder s1).find? (fun h => decide (h.code ∉ s1.evr.window)) with
      | some o => releaseHeld o.code s1
      | none => s1)

/-- Every held and due record is written without regard to the window or the budget (R431). -/
def flushHeld (s : State) : State :=
  if !evrWrites s then s
  else
    let s1 := (heldOrder s).foldl (fun t o => releaseHeld o.code t) s
    s1.evr.due.foldl (fun t _ => writeDue true t) s1

def int64 (v : Int) : List Byte := le64 (v % (2 ^ 64 : Int)).toNat

def stampedBytes (x : Stamped) : List Byte := int64 x.val ++ leBytes x.opMin 4 ++ leBytes x.pwr 4

/-- UNIT of a HIST measure, in ns (Table ROLE-6). -/
def histUnit : Nat := 10000

/-- The number of samples of a HIST measure. -/
def histSamples (h : Hist) : Nat := h.bins.foldl (fun a q => a + q.2) 0

/-- The body of a COUNT, HIST or EXTREME record (Table ROLE-8). -/
def measureBody (s : State) (code : Nat) : List Byte :=
  match code / 2 ^ 14 with
  | 1 => le64 (smGetD s.evr.counts code 0) ++ le64 (smGetD s.evr.counts code 0 - smGetD s.evr.prev code 0)
  | 2 =>
    let h := smGetD s.evr.hists code { bins := [], sum := 0 }
    le64 histUnit ++ le64 (histSamples h) ++ (List.range 16).flatMap (fun i => le64 (smGetD h.bins i 0)) ++ le64 h.sum
  | _ => match smGet s.evr.exts code with
    | some x => stampedBytes x.min ++ stampedBytes x.max ++ stampedBytes x.last
    | none => []

/-- One record for each measure that has changed since its last record (R433). -/
def snapshotRecs (s : State) : State :=
  s.evr.changed.foldl (fun t code =>
    occur { code := code, sev := 1, opMin := opMin t, pwr := getFld t CHIP_PWR_CYCLES_COUNT, time := devTime t, held := 0, body := measureBody t code } t) s

/-- SKETCHBOOK_SNAPSHOT_TIMER (R433). -/
def execSketchbookSnapshotTimer (s : State) : Host.Outcome State Fault Refusal := run true (snapshotRecs s)

/-- Every measure resumes from its newest valid record (R433). -/
def resumeMeasures (s : State) : State :=
  let l := storedRecs s
  let gov := l.filter (fun r => l.all (fun q => decide (q.code ≠ r.code ∨ q.seq ≤ r.seq)))
  let st := fun (b : List Byte) o =>
    ({ val := signed64' (leAt b o 8), opMin := leAt b (o + 8) 4, pwr := leAt b (o + 12) 4 } : Stamped)
  let s1 := updEvr (fun e => gov.foldl (fun a r =>
    let b := r.bytes
    match r.code / 2 ^ 14 with
    | 1 => { a with counts := smSet a.counts r.code (leAt b 0x20 8), prev := smSet a.prev r.code (leAt b 0x20 8) }
    | 2 =>
      let h : Hist := { bins := (List.range 16).filterMap (fun i => if leAt b (0x30 + 8 * i) 8 = 0 then none else some (i, leAt b (0x30 + 8 * i) 8)), sum := leAt b 0xB0 8 }
      { a with hists := smSet a.hists r.code h }
    | 3 =>
      let x : Extreme := { min := st b 0x20, max := st b 0x30, last := st b 0x40 }
      { a with exts := smSet a.exts r.code x }
    | _ => a) { e with counts := [], hists := [], exts := [], prev := [], changed := [] }) s
  showStore (setFld EVR_NEXT_SEQ_SEQ (((newestRec l).map (fun r => r.seq + 1)).getD 0) s1)
where
  signed64' (v : Nat) : Int := if v < 2 ^ 63 then (v : Int) else (v : Int) - 2 ^ 64

/-! ### Commands of the EVR page (R435) -/

def evrEnd (st : Status) (s : State) : State := cmdEnd EVR_CMD_GO EVR_CMD_RES_STATUS EVR_CMD_RES_DONE st s

/-- SNAPSHOT (R433). -/
def snapshotCmd (s : State) : State := evrEnd .ok (snapshotRecs s)

/-- ERASE_ALL (R435). -/
def eraseAll (s : State) : State :=
  showStore (updFlash (fun f => { f with slots := f.slots.filter (fun q =>
    !(decide (0x02000000 ≤ q.1 ∧ q.1 < 0x02800000) && decide ((q.1 - 0x02000000) / 256 ∉ f.retired))) }) s)

def eraseAllCmd (s : State) : State := if ftest s then evrEnd .ok (eraseAll s) else evrEnd .stateConflict s

/-- EVR_CMD (R435, R467). -/
def evrCmd (w : Win) (op : Nat) (act : State → State) (s : State) : State :=
  cmdWrite w 6 EVR_CMD_OP op [] EVR_CMD_GO EVR_CMD_RES_STATUS EVR_CMD_RES_DONE
    (fun o t => let u := cmdStart EVR_CMD_GO EVR_CMD_RES_DONE t; if o = 1 then snapshotCmd u else eraseAllCmd u) act s

def execSnapshot (w : Win) (s : State) : Host.Outcome State Fault Refusal := run true (evrCmd w 1 snapshotCmd s)

def execEraseAll (w : Win) (s : State) : Host.Outcome State Fault Refusal := run true (evrCmd w 2 eraseAllCmd s)

end Sys2Proof.Machine
end

