-- ==== Sys2Proof/Machine/Tenants.lean ====
section
/-! DEFINITION. Tenant scheduling and metering: rounds and credit (R237, R240), counters (R241), epochs and
the metering clock (R242, R243), the metering ring (R244 to R246) and the tenant admin commands (R247, R248). -/

namespace Sys2Proof.Machine
open Reg

/-! ### Rounds -/

/-- A context's scheduling values in force: class, weight, minimum, cap, carry limit, rate (R238). -/
def schedNow (s : State) (c : Nat) : List Nat :=
  [getFld s (CTX_SCHED_CLASS c), getFld s (CTX_SCHED_WEIGHT c), getFld s (CTX_SCHED_MIN_UNITS c),
   getFld s (CTX_LIMIT_MAX_UNITS c), getFld s (CTX_LIMIT_BURST_UNITS c), getFld s (CTX_BULK_RATE c)]

def schedAt (s : State) (c i : Nat) : Nat := ((ctxOf s c).cfgSched[i]?).getD ((schedNow s c)[i]?.getD 0)

/-- Active at a round's start: a ring in RUN whose tail differs from its head (R237). -/
def isActive (s : State) (c : Nat) : Bool :=
  decide (ctxState s c = 2) && decide (getFld s (CTX_SQ_IDX_TAIL c) ≠ getFld s (CTX_SQ_IDX_HEAD c))

/-- One context's part of round_credit() (R237). -/
def creditOne (cap msum wsum lenNs : Nat) (active : Bool) (w mn mx burst : Nat) (cr : Int) : Int :=
  if active then
    let base0 := mn + (cap - msum) * w / wsum
    let base := if mx ≠ 0 ∧ mx < base0 then mx else base0
    let alloc := base * lenNs / 50000
    min (cr + (alloc : Int)) ((alloc + burst : Nat) : Int)
  else min cr (burst : Int)

/-- round_credit() over every context the device keeps anything for, with the values in force taken afresh
at the round's start (R237, R238). -/
def roundCredit (lenNs : Nat) (s : State) : State :=
  let cs := s.io.ctxs.map Prod.fst
  let s0 := cs.foldl (fun t c => updCtx c (fun x => { x with cfgSched := schedNow t c }) t) s
  let act := cs.filter (isActive s0)
  let msum := act.foldl (fun a c => a + schedAt s0 c 2) 0
  let wsum := act.foldl (fun a c => a + schedAt s0 c 1) 0
  let cap := getFld s TSC_CFG_CAP_UNITS
  let s1 := cs.foldl (fun t c =>
    setCredit c (creditOne cap msum wsum lenNs (decide (c ∈ act)) (schedAt s0 c 1) (schedAt s0 c 2) (schedAt s0 c 3)
      (schedAt s0 c 4) (credit s0 c)) t) s0
  setFld TSC_STAT_ACTIVE act.length { s1 with sched := { s1.sched with active := act } }

/-- A submission fetch released in the round has neither arrived nor failed. Fetches of a ring paused by PAUSE_BME hold no round open (R240). -/
def fetchOpen (s : State) : Bool :=
  s.io.hreads.any (fun q => match q.2.why with
    | .entry c _ => !q.2.late && !isSet s (CTX_STAT_PAUSE_BME c)
    | _ => false)

/-- The round's credit and counters at its end, `late` ns after its nominal end, and the next round's beginning (R240). -/
def roundTurn (late : Nat) (s : State) : State :=
  let pos := (s.sched.pos + s.sched.len + late) % 50000
  let len := if pos = 0 then 50000 else max 25000 (50000 - pos)
  let starved := (s.io.ctxs.map Prod.fst).filter (fun c =>
    decide ((ctxOf s c).fetching < (ctxOf s c).vis.length) && decide (credit s c ≤ 0))
  let s1 := starved.foldl (fun t c => incFld (CTX_THROTTLED_COUNT c) 1 t) s
  let s2 := onlyIf (decide (late ≠ 0)) (fun t =>
    hwmFld TSC_OVER_MAX_NS late (incFld TSC_LATE_COUNT 1 (setEvt 0x100 TSC_EVT_ROUND_LATE t))) s1
  let s3 := if pos = 0 then
      setFld TSC_STAT_OFF_GRID 0 (onlyIf (isSet s TSC_STAT_OFF_GRID) (setEvt 0x100 TSC_EVT_TIMELINE_BACK) s2)
    else incFld TSC_SHORT_COUNT 1 (setFld TSC_STAT_OFF_GRID 1 s2)
  let s4 := add64 TSC_ROUNDS_LO_COUNT TSC_ROUNDS_HI_COUNT 1 s3
  roundCredit len { s4 with sched := { s4.sched with pos := pos, len := len } }

/-- The round ends `late` ns after its nominal end, once every submission fetch released in it has arrived or failed (R240). -/
def roundEnd (late : Nat) (s : State) : State := onlyIf (!fetchOpen s) (roundTurn late) s

/-- Each second: the slots that are not FREE, per writing context (R241). -/
def slotSeconds (s : State) : State :=
  s.cache.slots.foldl (fun t q =>
    if metering t q.2.ctx then add64 (CTX_SLOT_LO_COUNT q.2.ctx) (CTX_SLOT_HI_COUNT q.2.ctx) 1 t else t) s

/-! ### The metering clock -/

/-- The part of MTR_TOFF that no running slew has added. -/
def mtrBase (s : State) : Int := signed64 (get64 s MTR_TOFF_LO_NS MTR_TOFF_HI_NS)

/-- What the running slew has absorbed so far, at 500 ppm of device time (R243). -/
def slewed (s : State) : Int :=
  let a : Int := ((devTime s - s.sched.slewAt) / 2000 : Nat)
  if 0 ≤ s.sched.slew then min s.sched.slew a else max s.sched.slew (-a)

/-- MTR_TOFF as a signed number of ns. -/
def mtrOff (s : State) : Int := mtrBase s + slewed s

def setMtrOff (v : Int) (s : State) : State := set64 MTR_TOFF_LO_NS MTR_TOFF_HI_NS (toU64 v) s

/-- Metering time in ns (R242). -/
def mtrTime (s : State) : Int := (devTime s : Int) + mtrOff s

/-- The epoch that metering time lies in, and never an earlier one than the current (R242). -/
def epochAt (s : State) : Nat := max s.sched.epoch (mtrTime s / 60000000000).toNat

/-- A slew ends before it is absorbed: MTR_TOFF keeps what it has added. -/
def slewStop (s : State) : State := setMtrOff (mtrOff s) { s with sched := { s.sched with slew := 0 } }

/-- The totals a record carries, with class and BIND_ID (Table TENANT-5). -/
def totals (s : State) (c : Nat) : List Nat :=
  [getFld s (CTX_LATE_COUNT c), get64 s (CTX_RD_LO_COUNT c) (CTX_RD_HI_COUNT c), get64 s (CTX_WR_LO_COUNT c) (CTX_WR_HI_COUNT c),
   get64 s (CTX_CMD_LO_COUNT c) (CTX_CMD_HI_COUNT c), get64 s (CTX_PAR_LO_COUNT c) (CTX_PAR_HI_COUNT c),
   get64 s (CTX_SLOT_LO_COUNT c) (CTX_SLOT_HI_COUNT c), getFld s (CTX_SCHED_CLASS c), getFld s (CTX_BIND_ID_ID c)]

/-- The contexts that may have a record: bound, or with a final record pending (R233, R244). -/
def meteredCtxs (s : State) : List Nat :=
  (List.range 4096).filter (fun c => isSet s (CTX_BIND_VALID c) || isSet s (CTX_MTR_STAT_FINAL_PENDING c) || isSet s (CTX_MTR_STAT_GAP c))

/-- The host is absent for metering records (R246, Table TENANT-10). -/
def mtrAbsent (s : State) : Bool := !isSet s MTR_CFG_EN || !enabled s 0x101 || fenced s 0x101 || !fnLive s 0 0

/-- The 64 bytes of a record (Table TENANT-5). -/
def mtrRecord (epoch c flags : Nat) (v : List Nat) (seq : Nat) : List Byte :=
  let g := fun i => (v[i]?).getD 0
  withCrc (leBytes epoch 4 ++ leBytes c 2 ++ leBytes flags 1 ++ leBytes (g 6) 1 ++ leBytes (g 7) 4 ++ leBytes (g 0) 4 ++
    leBytes (g 1) 8 ++ leBytes (g 2) 8 ++ leBytes (g 3) 8 ++ leBytes (g 4) 8 ++ leBytes (g 5) 8 ++ leBytes seq 4)

/-- A context is non-idle at the epoch's end (R244). -/
def nonIdle (s : State) (c : Nat) : Bool :=
  let x := ctxOf s c
  decide (x.copy.take 6 ≠ (if x.prev = [] then [0, 0, 0, 0, 0, 0] else x.prev.take 6)) ||
    isSet s (CTX_MTR_STAT_FINAL_PENDING c) || isSet s (CTX_MTR_STAT_GAP c)

/-- Write or drop one context's record (R244 to R246). `final` says that the context was unbound at the epoch's end: it is its final
record, and FINAL_PENDING ends with it (R233). -/
def mtrOne (c : Nat) (final : Bool) (s : State) : State :=
  let size := getFld s MTR_SIZE_M1 + 1
  let tail := getFld s MTR_TAIL_TAIL
  let s0 := onlyIf final (setFld (CTX_MTR_STAT_FINAL_PENDING c) 0) s
  if mtrAbsent s ∨ (tail + 1) % size = getFld s MTR_HEAD_HEAD then
    setFld (CTX_MTR_STAT_GAP c) 1 (setEvt 0x101 MTR_EVT_DROP (incFld MTR_DROPPED_COUNT 1 s0))
  else
    let flags := getFld s MTR_TAIL_PHASE + 2 * getFld s (CTX_MTR_STAT_GAP c) + (if final then 4 else 0) +
      (if s.sched.recStep then 8 else 0)
    let base := getFld s MTR_BASE_LO_ADDR * 4096 + 2 ^ 32 * getFld s MTR_BASE_HI_ADDR
    let s1 := hostWrite 0 0 (base + 64 * tail) (mtrRecord s.sched.recEpoch c flags (ctxOf s c).copy s.sched.seq) false s0
    let s2 := setFld MTR_TAIL_TAIL ((tail + 1) % size) (if tail + 1 = size then
      setFld MTR_TAIL_PHASE (1 - getFld s MTR_TAIL_PHASE) s1 else s1)
    setFld (CTX_MTR_STAT_GAP c) 0 (incFld MTR_RECORDS_COUNT 1
      { s2 with sched := { s2.sched with seq := s2.sched.seq + 1 } })

/-- The records of the epoch that ended, one for each context that was non-idle at its end (R244). -/
def mtrRecords (s : State) : State :=
  let s1 := s.sched.recs.foldl (fun t r => mtrOne r.1 r.2 t) s
  setEvt 0x101 MTR_EVT_EPOCH_DONE { s1 with sched := { s1.sched with recDue := false, recs := [] } }

/-- Metering time reaches the epoch's end: every counter is copied at once (R242), and the contexts non-idle at this end are those that
get a record (R244). Records still due from the epoch before are written or dropped first. -/
def epochEnd (s : State) : State :=
  let s0 := onlyIf s.sched.recDue mtrRecords s
  let s1 := (meteredCtxs s0).foldl (fun t c =>
    updCtx c (fun x => { x with prev := x.copy, copy := totals s0 c }) t) s0
  let due := ((meteredCtxs s0).filter (nonIdle s1)).map (fun c => (c, isSet s1 (CTX_MTR_STAT_FINAL_PENDING c)))
  { s1 with sched := { s1.sched with epoch := s.sched.epoch + 1, recEpoch := s.sched.epoch, recDue := true, recs := due,
                                     recStep := s.sched.stepped, stepped := false } }

/-- A step of metering time (R243): a forward step ends the current epoch. The epoch that follows is the one metering time then lies in. -/
def mtrStep (v : Int) (s : State) : State :=
  let s1 := setEvt 0x101 MTR_EVT_TIME_STEP (setMtrOff (mtrBase s + v) { s with sched := { s.sched with stepped := true } })
  if 0 < v then
    let s2 := epochEnd s1
    { s2 with sched := { s2.sched with epoch := epochAt s1, stepped := decide (epochAt s1 = s.sched.epoch) } }
  else s1

/-- A slew of metering time starts, replacing what is left of an earlier one (R243). A slew of nothing is absorbed at once. -/
def mtrSlew (v : Int) (s : State) : State :=
  if v ≤ 1000000000 ∧ -1000000000 ≤ v then
    onlyIf (decide (v = 0)) (setEvt 0x101 MTR_EVT_SLEW_DONE)
      (setMtrOff (mtrOff s) { s with sched := { s.sched with slew := v, slewAt := devTime s } })
  else s

/-- The slew is absorbed. -/
def slewDone (s : State) : State :=
  setEvt 0x101 MTR_EVT_SLEW_DONE (setMtrOff (mtrBase s + s.sched.slew) { s with sched := { s.sched with slew := 0 } })

/-- MTR_TADJ. -/
def mtrAdj (s : State) : Int := signed64 (get64 s MTR_TADJ_LO_NS MTR_TADJ_HI_NS)

/-- A host adjustment: discarded while MTR_CFG.TSRC is 1 (R243). -/
def hostAdjust (f : State → State) (s : State) : State := if isSet s MTR_CFG_TSRC then s else f s

/-- MTR ring registers are written through the port-0 PF's window only (R245). -/
def mtrWrite (w : Win) (f : State → State) (s : State) : State :=
  guardWrite w 0x101 (fun t => match w with
    | .pf 0 => seqFlds 0x101 [MTR_CFG_EN, MTR_HEAD_HEAD] t (f t)
    | .core _ => seqFlds 0x101 [MTR_CFG_EN, MTR_HEAD_HEAD] t (f t)
    | _ => t) s

/-- A write of MTR_CFG.EN (R245): enabling needs at least 64 records. -/
def mtrEnable (v : Nat) (s : State) : State :=
  if v % 2 = 1 then
    if isSet s MTR_CFG_EN ∨ getFld s MTR_SIZE_M1 < 63 then s
    else setFld MTR_CFG_EN 1 (setFld MTR_TAIL_TAIL 0 (setFld MTR_TAIL_PHASE 1 { s with sched := { s.sched with seq := 0 } }))
  else setFld MTR_CFG_EN 0 s

def mtrHead (v : Nat) (s : State) : State :=
  if getFld s MTR_SIZE_M1 < v then s else setFld MTR_HEAD_HEAD v s

/-! ### Admin commands (R247, R248) -/

/-- The admin command is the oldest of its context and has not started (R216). -/
def adminTurn (s : State) (n op : Nat) : Bool :=
  match cmdOf s n with
  | some x => decide (enOp x.raw = op) && decide (x.phase = .presented) &&
      s.io.cmds.all (fun q => decide (q.2.ctx ≠ x.ctx) || decide (n ≤ q.1))
  | none => false

/-- Run an admin command that is due. -/
def adminDo (n op : Nat) (f : Cmd → State → State) (s : State) : State :=
  match cmdOf s n with
  | some x => if adminTurn s n op then f x s else s
  | none => s

/-- Admin data from the host buffer at DPTR; the command waits while its function may not read (R269). -/
def adminPage (x : Cmd) (n : Nat) (r : HostRd) (f : State → State) (s : State) : State :=
  readNow (ctxPort s x.ctx) (ctxFunc s x.ctx) (enDptr x.raw) n r f s

/-- Admin data to the host buffer at DPTR. -/
def adminOut (x : Cmd) (bytes : List Byte) (s : State) : State :=
  hostWrite (ctxPort s x.ctx) (ctxFunc s x.ctx) (enDptr x.raw) bytes (decide (enOp x.raw = 0x8A)) s

/-- An installer or maker admin command completes OK (Table ROLE-5, action 5). -/
def adminOk (n : Nat) (x : Cmd) (result : Nat) (s : State) : State :=
  endCmd n .ok 0 result (onlyIf (decide (adminRole (enOp x.raw) ≠ 0)) (roleAction x.role 5 (enOp x.raw)) s)

def tenantInfo (n : Nat) (x : Cmd) (s : State) : State :=
  let c := enCdw x.raw
  if !isSet s (CTX_BIND_VALID c) then endCmd n .stateConflict 0 0 s
  else adminOk n x s.sched.epoch (adminOut x (mtrRecord s.sched.epoch c 0 (totals s c) 0) s)

def setSched (n : Nat) (x : Cmd) (s : State) : State :=
  let c := enCdw x.raw
  let a := enAux x.raw
  let b := enAux2 x.raw
  let mn := bitsOf a 16 16
  if (isSet s (CTX_BIND_VALID c) ∧ ctxPort s c ≠ ctxPort s x.ctx) ∨
      (isSet s (CTX_BIND_VALID c) ∧ getFld s TSC_CFG_CAP_UNITS < minSum s c + mn) then endCmd n .stateConflict 0 0 s
  else
    let s1 := [(CTX_SCHED_CLASS c, bitsOf a 0 2), (CTX_SCHED_WEIGHT c, bitsOf a 8 8), (CTX_SCHED_MIN_UNITS c, mn),
      (CTX_LIMIT_MAX_UNITS c, bitsOf b 0 16), (CTX_LIMIT_BURST_UNITS c, bitsOf b 16 16), (CTX_BULK_RATE c, bitsOf b 32 8)].foldl
        (fun t q => setFld q.1 q.2 t) s
    adminOk n x 0 (cfgGood c (seqIf (0x1000 + c) s s1))

def classFld : Nat → FRef
  | 0 => TSC_CLASS0_LAT_US
  | 1 => TSC_CLASS1_LAT_US
  | 2 => TSC_CLASS2_LAT_US
  | _ => TSC_CLASS3_LAT_US

def setClass (n : Nat) (x : Cmd) (s : State) : State :=
  adminOk n x 0 (seqIf 0x100 s (setFld (classFld (enCdw x.raw)) (enAux x.raw) s))

def timeAdj (n : Nat) (x : Cmd) (s : State) : State :=
  if isSet s MTR_CFG_TSRC ∨ ctxPort s x.ctx = 1 then endCmd n .stateConflict 0 0 s
  else
    let v := signed64 (enAux x.raw)
    let s1 := if enCdw x.raw = 1 then mtrStep v s else mtrSlew v s
    adminOk n x s1.sched.epoch s1

/-! ### The commands -/

def execRoundEnd (late : Nat) (s : State) : Host.Outcome State Fault Refusal := run true (roundEnd late s)

def execSlotSecondsTick (s : State) : Host.Outcome State Fault Refusal :=
  run true (onlyIf (!fenced s 0x101) slotSeconds s)

def execEpochEnd (s : State) : Host.Outcome State Fault Refusal := run true (epochEnd s)

def execMeteringRecordsWrite (s : State) : Host.Outcome State Fault Refusal :=
  run true (onlyIf s.sched.recDue mtrRecords s)

/-- MTR_TCTL.STEP written 1. -/
def execMtrStep (w : Win) (s : State) : Host.Outcome State Fault Refusal :=
  run true (guardWrite w 0x101 (hostAdjust (fun t => mtrStep (mtrAdj t) t)) s)

/-- MTR_TCTL.SLEW written 1. -/
def execMtrSlew (w : Win) (s : State) : Host.Outcome State Fault Refusal :=
  run true (guardWrite w 0x101 (hostAdjust (fun t => mtrSlew (mtrAdj t) t)) s)

def execSlewDone (s : State) : Host.Outcome State Fault Refusal :=
  run true (onlyIf (decide (s.sched.slew ≠ 0)) slewDone s)

def execMtrEnable (w : Win) (v : Nat) (s : State) : Host.Outcome State Fault Refusal :=
  run true (mtrWrite w (mtrEnable v) s)

def execMtrHeadWrite (w : Win) (v : Nat) (s : State) : Host.Outcome State Fault Refusal :=
  run true (mtrWrite w (mtrHead v) s)

def execTscClrMax (w : Win) (v : Nat) (s : State) : Host.Outcome State Fault Refusal :=
  run true (guardWrite w 0x100 (onlyIf (decide (v % 2 = 1)) (setFld TSC_OVER_MAX_NS 0)) s)

def execTenantInfo (n : Nat) (s : State) : Host.Outcome State Fault Refusal := run true (adminDo n 0x8B (tenantInfo n) s)

def execSetSched (n : Nat) (s : State) : Host.Outcome State Fault Refusal := run true (adminDo n 0x8C (setSched n) s)

def execSetClass (n : Nat) (s : State) : Host.Outcome State Fault Refusal := run true (adminDo n 0x8D (setClass n) s)

def execTimeAdj (n : Nat) (s : State) : Host.Outcome State Fault Refusal := run true (adminDo n 0x8E (timeAdj n) s)

end Sys2Proof.Machine
end

