-- ==== Sys2Proof/Machine/Roles.lean ====
section
/-! DEFINITION. Sessions and elevation (R414 to R420), the key region (R421) and the firmware slots (R422 to R424). -/

namespace Sys2Proof.Machine
open Reg

def updRole (f : RoleSt → RoleSt) (s : State) : State := { s with role := f s.role }

/-! ### Sessions (ROLE_SESS0 and ROLE_SESS1 share one layout) -/

def sessStrap (port : Nat) : FRef := ⟨3, 0x44 + 4 * port, 2, 1, 0, 0⟩
def sessNonce (port : Nat) : FRef := ⟨3, 0x44 + 4 * port, 3, 1, 0, 0⟩
def sessFails (port : Nat) : FRef := ⟨3, 0x44 + 4 * port, 16, 2, 0, 0⟩
def sessLocked (port : Nat) : FRef := ⟨3, 0x44 + 4 * port, 18, 1, 0, 0⟩

/-- The base role: installer when INSTALL# was low at the last device reset (R417). -/
def baseRole (s : State) : Nat := if isSet s ROLE_STAT_INSTALL_STRAP then 1 else 0

/-- ROLE_STAT.FACTORY, FLT_STAT.FTEST and the STRAP bits follow the sessions (R418). -/
def showSessions (s : State) : State :=
  let f := ftest s
  let s1 := setFlag FLT_STAT_FTEST f (setFlag ROLE_STAT_FACTORY f s)
  [0, 1].foldl (fun t p => setFlag (sessStrap p) (isSet t ROLE_STAT_INSTALL_STRAP && decide (getFld t (sessFld p) = 1)) t) s1

/-- A live nonce is forgotten. -/
def dropNonce (port : Nat) (s : State) : State :=
  setFld (sessNonce port) 0 (updRole (fun r => { r with nonces := smDel r.nonces port }) s)

/-- A session returns to its base role (R417); ending an elevated session is counted as action 2 (DROP) or 3 (TIMEOUT). -/
def sessionEnd (port act : Nat) (s : State) : State :=
  let held := getFld s (sessFld port)
  let base := baseRole s
  if held ≤ base then s
  else showSessions (setFld (sessFld port) base (setEvt 3 ROLE_EVT_SESSION_END (roleAction held act 0 s)))

/-- SESSION_IDLE_TIMEOUT (R417). -/
def execSessionIdleTimeout (port : Nat) (s : State) : Host.Outcome State Fault Refusal := run (decide (port < 2)) (sessionEnd port 3 s)

/-- NONCE_LAPSE (R420). -/
def execNonceLapse (port : Nat) (s : State) : Host.Outcome State Fault Refusal := run (decide (port < 2)) (dropNonce port s)

/-- LOCKOUT_END (R420): the run of refusals ends with the lockout. -/
def execLockoutEnd (port : Nat) (s : State) : Host.Outcome State Fault Refusal :=
  run (decide (port < 2)) (if isSet s (sessLocked port) then setFld (sessLocked port) 0 (setFld (sessFails port) 0 s) else s)

/-! ### Elevation (R419, R420) -/

/-- The key of a role (Table ROLE-3). -/
def roleKey (s : State) (role : Nat) : Option (List Byte) := smGet s.role.keys (if role = 1 then 0 else 2)

/-- ROLE_CHALLENGE: the nonce is drawn from the random source. -/
def challenge (n nonce : Nat) (x : Cmd) (s : State) : State :=
  let port := ctxPort s x.ctx
  let role := enCdw x.raw
  if (roleKey s role).isNone ∨ isSet s (sessLocked port) then endCmd n .stateConflict 0 0 s
  else
    let b := leBytes nonce 32
    adminOk n x 0 (adminOut x b (setFld (sessNonce port) 1 (updRole (fun r =>
      { r with nonces := smSet r.nonces port { bytes := b, role := role } }) s)))

def execRoleChallenge (cmd nonce : Nat) (s : State) : Host.Outcome State Fault Refusal := run true (adminDo cmd 0x90 (challenge cmd nonce) s)

/-- The answer a nonce calls for (R419). -/
def elevationMac (s : State) (port : Nat) (v : Nonce) (key : List Byte) : List Byte :=
  hmacSha256 key (v.bytes ++ slice s.role.dsn 0 8 ++ leBytes v.role 1 ++ leBytes port 1)

/-- ROLE_RESPONSE (R420). -/
def response (n : Nat) (page : HostRd) (x : Cmd) (s : State) : State :=
  let port := ctxPort s x.ctx
  let role := enCdw x.raw
  match smGet s.role.nonces port, page with
  | some v, .data bytes =>
    if v.role ≠ role then endCmd n .stateConflict 0 0 s
    else match roleKey s role with
    | none => endCmd n .stateConflict 0 0 s
    | some key =>
      let s1 := dropNonce port s
      if slice bytes 0 32 = elevationMac s port v key then
        let s2 := roleAction (getFld s (sessFld port)) 0 0x91 (setEvt 3 ROLE_EVT_ELEVATED s1)
        adminOk n x 1 (needRole (.pf port) (showSessions (setFld (sessFails port) 0 (setFld (sessFld port) role s2))))
      else
        let f := getFld s (sessFails port) + 1
        let s2 := roleAction (getFld s (sessFld port)) 1 0x91 (setEvt 3 ROLE_EVT_REFUSED (setFld (sessFails port) (min f 3) s1))
        adminOk n x 0 (if 3 ≤ f then setEvt 3 ROLE_EVT_LOCKOUT (setFld (sessLocked port) 1 s2) else s2)
  | none, _ => endCmd n .stateConflict 0 0 s
  | some _, _ => endCmd n .invalidField 0xFFF2 0 s

def execRoleResponse (cmd : Nat) (page : HostRd) (s : State) : Host.Outcome State Fault Refusal :=
  run true (adminDo cmd 0x91 (fun x => adminPage x 32 page (response cmd page x)) s)

/-- ROLE_DROP (R417). -/
def execRoleDrop (cmd : Nat) (s : State) : Host.Outcome State Fault Refusal :=
  run true (adminDo cmd 0x92 (fun x t =>
    let port := ctxPort t x.ctx
    adminOk cmd x (getFld t (sessFld port)) (sessionEnd port 2 t)) s)

/-! ### The key region (R421) -/

/-- ROLE_STAT shows the region's flags and the rollback floor. -/
def showKeys (s : State) : State :=
  let flags := [0, 1, 2, 3].foldl (fun a k => if (smGet s.role.keys k).isSome then a + 2 ^ k else a) 0
  setFld ROLE_STAT_SVN_FLOOR (min s.role.fuses 64) (setFld ROLE_STAT_KEYS flags s)

/-- The bytes of ROLE_KEY_DATA: 96 for the firmware key, else 32. -/
def keyData (s : State) (k : Nat) : List Byte :=
  (List.range (if k = 3 then 24 else 8)).flatMap (fun i => leBytes (getFld s (ROLE_KEY_DATA i)) 4)

def keyEnd (st : Status) (s : State) : State := cmdEnd ROLE_KEY_CTL_GO ROLE_KEY_RES_STATUS ROLE_KEY_RES_DONE st s

/-- Program the selected key; `ok` says whether the read-back agrees. -/
def keyProgram (w : Win) (ok : Bool) (s : State) : State :=
  let k := getFld s ROLE_KEY_CTL_KEY
  let may := if k ≤ 1 then decide (1 ≤ winRole s w) && isSet s ROLE_STAT_INSTALL_STRAP else ftest s
  if !may then keyEnd .roleDenied s
  else if (smGet s.role.keys k).isSome then keyEnd .stateConflict s
  else
    let clr := fun t => (List.range 24).foldl (fun u i => setFld (ROLE_KEY_DATA i) 0 u) t
    if !ok then keyEnd .internal (clr s)
    else
      let s1 := clr (updRole (fun r => { r with keys := smSet r.keys k (keyData s k) }) s)
      keyEnd .ok (showKeys (setEvt 3 ROLE_EVT_KEY_PROG (roleAction (winRole s w) 6 3 s1)))

/-- KEY_PROGRAM (R421, R434): ROLE_KEY_CTL written with GO set. -/
def execKeyProgram (w : Win) (key : Nat) (ok : Bool) (s : State) : Host.Outcome State Fault Refusal :=
  run true (guardWrite w 3 (fun t =>
    let t1 := writeRwi w 3 [(ROLE_KEY_CTL_KEY, key)] t
    if isSet t ROLE_KEY_CTL_GO then t1 else keyProgram w ok (setFld ROLE_KEY_RES_DONE 0 (setFld ROLE_KEY_CTL_GO 1 t1))) s)

/-! ### Firmware slots (R422 to R424) -/

def fwBase (slot : Nat) : Nat := slot * 0x01000000

/-- n bytes of a slot from an offset on; erased flash reads 0xFF. -/
def fwRead (s : State) (slot off n : Nat) : List Byte :=
  let first := off / 65536
  let all := (List.range ((off + n + 65535) / 65536 - first)).flatMap (fun i =>
    match flashAt s (fwBase slot + 65536 * (first + i)) with
    | some b => slice b 0 65536
    | none => List.replicate 65536 0xFF#8)
  (all.drop (off % 65536)).take n

/-- "ZYNFWIMG". -/
def fwMagic : List Byte := ([0x5A, 0x59, 0x4E, 0x46, 0x57, 0x49, 0x4D, 0x47] : List Nat).map (BitVec.ofNat 8)

/-- A slot is valid (R423). -/
def fwValid (s : State) (slot : Nat) : Bool :=
  let h := fwRead s slot 0 4096
  let len := leAt h 0x10 4
  match smGet s.role.keys 3 with
  | none => false
  | some key =>
    decide (slice h 0 8 = fwMagic) && decide (1 ≤ len ∧ len ≤ 16773120) && decide (min s.role.fuses 64 ≤ leAt h 0x0C 1) &&
    decide (slice h 0x20 48 = sha384 (fwRead s slot 0x1000 len)) &&
    ecdsaOk (beVal (slice key 0 48), beVal (slice key 48 48)) (slice h 0 0xFA0) (beVal (slice h 0xFA0 48)) (beVal (slice h 0xFD0 48))

def selA : Nat := cfgOff 0x320000
def selB : Nat := cfgOff 0x321000

/-- A selector record is valid. The spec gives its two places and the slot rule, not its layout: MAGIC "ZYNFWSEL", SEQ at 0x08, the
slot at 0x0C and a CRC-32C at 0xFC are this model's. -/
def selValid (b : List Byte) : Bool := decide (leAt b 0 8 = 0x4C455357464E595A) && crcOk b 0xFC

def selBytes (seq slot : Nat) : List Byte := withCrc (leBytes 0x4C455357464E595A 8 ++ leBytes seq 4 ++ leBytes slot 4 ++ zeros 236)

/-- The preferred slot: slot 0 when no selector record is valid (R423). -/
def fwPreferred (s : State) : Nat := ((slotRead s selA selB 8 selValid).map (fun b => leAt b 0x0C 4 % 2)).getD 0

/-- ROLE_FW follows the slots. -/
def showFw (s : State) : State :=
  setFlag ROLE_FW_VALID0 (fwValid s 0) (setFlag ROLE_FW_VALID1 (fwValid s 1) (setFld ROLE_FW_PREFERRED (fwPreferred s) s))

/-- The boot ROM's choice in P2: the slot that runs, none when neither is valid (R423). Fuses rise before P3. -/
def fwBoot (s : State) : Option State :=
  let p := fwPreferred s
  let pick := if fwValid s p then some p else if fwValid s (1 - p) then some (1 - p) else none
  pick.map (fun slot =>
    let h := fwRead s slot 0 4096
    let svn := leAt h 0x0C 1
    let s1 := setFld ROLE_FW_VERSION (leAt h 8 4) (setFld ROLE_FW_RUNNING slot (showFw s))
    if leAt h 0x0D 1 % 2 = 1 ∧ s.role.fuses < svn then showKeys (updRole (fun r => { r with fuses := max r.fuses (min svn 64) }) s1) else s1)

/-- FIRMWARE_STAGE (R424): 64 KiB to a chunk of the slot that is not running. -/
def fwStage (n : Nat) (page : HostRd) (x : Cmd) (s : State) : State :=
  match page with
  | .data bytes =>
    let slot := 1 - getFld s ROLE_FW_RUNNING
    adminOk n x 0 (showFw (flashPut (fwBase slot + 65536 * bitsOf (enCdw x.raw) 8 8) (slice bytes 0 65536) s))
  | _ => endCmd n .invalidField 0xFFF2 0 s

def execFirmwareStage (cmd : Nat) (page : HostRd) (s : State) : Host.Outcome State Fault Refusal :=
  run true (adminDo cmd 0x93 (fun x t => if enCdw x.raw % 4 = 0 then adminPage x 65536 page (fwStage cmd page x) t else t) s)

/-- FIRMWARE_COMMIT (R424). -/
def fwCommit (n : Nat) (x : Cmd) (s : State) : State :=
  let slot := 1 - getFld s ROLE_FW_RUNNING
  if fwValid s slot then
    let q := slotFor s selA selB 8 selValid
    let s1 := showFw (flashPut q.1 (selBytes q.2 slot) s)
    adminOk n x (leAt (fwRead s slot 0 4096) 8 4) (roleAction x.role 7 0x93 s1)
  else endCmd n .stateConflict 0 0 s

def execFirmwareCommit (cmd : Nat) (s : State) : Host.Outcome State Fault Refusal :=
  run true (adminDo cmd 0x93 (fun x t => if enCdw x.raw % 4 = 1 then fwCommit cmd x t else t) s)

end Sys2Proof.Machine
end

