-- ==== Sys2Proof/Machine/Reset.lean ====
section
/-! DEFINITION. Device resets (R401), the always-on domain, the operating counters and their records (R395), and the power state
(R398). -/

namespace Sys2Proof.Machine
open Reg

/-- VLT_STAT.DIRTY_LATCH (R158): the device holds an entry in DATA_STAGED or later, or a slot that is not FREE, or still keeps the latch
of an image that has not been replayed. -/
def dirtyLatch (s : State) : Bool :=
  s.cache.latch || decide (s.cache.slots ≠ []) || s.io.journal.any (fun q => decide (2 ≤ jstateCode (effState s q.2)))

/-! ### Operating counters (R395) -/

def cntA : Nat := cfgOff 0x310000
def cntB : Nat := cfgOff 0x311000

/-- "ZYNCOUNT". -/
def cntMagic : Nat := 0x544E554F434E595A

def cntValid (b : List Byte) : Bool := decide (leAt b 0 8 = cntMagic) && crcOk b 0xFC

/-- Write a counter record. -/
def counterWrite (s : State) : State :=
  let q := slotFor s cntA cntB 8 cntValid
  let b := withCrc (leBytes cntMagic 8 ++ leBytes q.2 4 ++ leBytes (opMin s) 4 ++ leBytes (getFld s CHIP_PWR_CYCLES_COUNT) 4 ++ zeros 232)
  flashPut q.1 b { s with pwr := { s.pwr with counted := opMin s } }

/-- After a cold reset the counters resume from the governing record. -/
def counterLoad (s : State) : State :=
  match slotRead s cntA cntB 8 cntValid with
  | some b => setFld CHIP_OP_MINUTES_COUNT (leAt b 0x0C 4) (setFld CHIP_PWR_CYCLES_COUNT (leAt b 0x10 4)
      { s with pwr := { s.pwr with counted := leAt b 0x0C 4 } })
  | none => s

/-! ### The power state (R398) -/

/-- PWR_STAT.STATE takes a value; the monitor follows (Table ENERGY-3). -/
def setPower (st : Nat) (s : State) : State :=
  if getFld s PWR_STAT_STATE = st then s else setEvt 1 PWR_EVT_STATE_CHG (bemFollow (setFld PWR_STAT_STATE st s))

/-! ### Device resets -/

/-- The fields of the always-on domain, by key (Table POWER-4, R156, R173, R394, R407): the monitor's registers, the alarms, the
operating counters, MTR_TOFF, ICU_AON_LATCH, LAST_RESET, SKIPPED, and XTAL_OK, which shows the crystal. -/
def aonField (key : Nat) : Bool :=
  let page := key % 2 ^ 31 / 2 ^ 17
  let off := key % 2 ^ 17 / 32
  decide (page = 7 ∧ 0x40 ≤ off) || decide (page = 2 ∧ 0x48 ≤ off ∧ off ≤ 0x58) ||
  decide (key ∈ [CHIP_OP_MINUTES_COUNT.key, CHIP_PWR_CYCLES_COUNT.key, PWR_STAT_LAST_RESET.key, VLT_STAT_SKIPPED.key,
    ICU_AON_LATCH_LATCH.key, CLK_STAT_XTAL_OK.key, MTR_TOFF_LO_NS.key, MTR_TOFF_HI_NS.key])

/-- What the always-on domain keeps of the host ports while the main domain is off: PME_En and PME_Status of a PF (R278). -/
def auxFns (s : State) : SMap HFn :=
  (s.host.fns.filter (fun q => decide (q.1 % 1024 = 0) && (q.2.pme || q.2.cfg.pmeEn))).map
    (fun q => (q.1, { HFn.reset with pme := q.2.pme, cfg := { FnCfg.reset with pmeEn := q.2.cfg.pmeEn } }))

/-- What a reset with a code of Table POWER-4 leaves: SRAM and DRAM cleared, every register outside the always-on domain at its reset
value, fences and sessions ended, contexts UNBOUND, links down. The always-on domain still knows its lines but those of the junction sensors, which act
anew from P3 (R363, R396). Metering time and its epoch run on but over a cold reset (R242). The flash, the key region and what the device has sent stay.
Over STANDBY and OFF_AON so do the links in L2, PME_En and PME_Status (R278, Table HOST-9). -/
def resetState (code : Nat) (s : State) : State :=
  let cold := decide (code = 0)
  let t := State.reset
  { t with
    regs := if cold then t.regs else s.regs.filter (fun q => aonField q.1)
    timeQ := if cold then 0 else s.timeQ
    fresh := s.fresh
    out := s.out
    cache := { t.cache with image := s.cache.image, latch := !cold && dirtyLatch s }
    icu := if cold then t.icu else { t.icu with lines := s.icu.lines.filter (fun n => decide (n < 13)) }
    bem := if cold then t.bem else s.bem
    pwr := { t.pwr with counted := s.pwr.counted, gap := s.pwr.gap && !cold, p0 := !cold }
    host := { t.host with perst := s.host.perst, l2 := if code = 6 then s.host.l2 else [], fns := if code = 6 then auxFns s else [] }
    role := { t.role with dsn := s.role.dsn, keys := s.role.keys, fuses := s.role.fuses }
    evr := if code ≤ 2 then t.evr else { s.evr with events := [], window := [], held := [], due := [] }
    flash := s.flash
    sched := if cold then t.sched else { t.sched with epoch := epochAt s, stepped := s.sched.stepped }
    pending := s.pending }

/-- The straps as sampled at the end of P1 (R458): ROLE_STAT, NODE_ID, the base roles and the STRAP count (R401, R417, Table ROLE-5). -/
def strapState (inst ft : Bool) (node : Nat) (s : State) : State :=
  let s1 := setFlag ROLE_STAT_INSTALL_STRAP inst (setFlag ROLE_STAT_FTEST_STRAP ft (setFld CHIP_NODE_ID_NODE node { s with pwr := { s.pwr with node := node % 512 } }))
  let s2 := setFld (sessFld 0) (baseRole s1) (setFld (sessFld 1) (baseRole s1) s1)
  showKeys (showSessions (if inst then roleAction 1 8 0 s2 else s2))

/-- The AON_WAKE bits of sources 1 to 31, which request a wake while the main domain is off (R366). -/
def wakeFlds : List FRef := (List.range 31).map (fun i => ICU_SRC_CFG_AON_WAKE (i + 1))

/-- P1 begins: PWR_CYCLES counts, and the first enable is asserted (R390, R395). The epoch is the one metering time has reached (R242). -/
def startP1 (s : State) : State :=
  let s1 := wakeFlds.foldl (fun t f => setFld f 0 t) { s with pwr := { s.pwr with due := none, good := false }, sched := { s.sched with epoch := epochAt s } }
  setFld CHIP_DEV_STAT_PHASE 1 (setFld PWR_RAIL_SEQ 1 (incFld CHIP_PWR_CYCLES_COUNT 1 (setPower 0 s1)))

/-- A device reset (Table POWER-4). Codes 0 to 2 wait for main power; the others start P1 at once. Before a pin or software reset every held
Sketchbook record is written (R431). -/
def deviceReset (code : Nat) (s : State) : State :=
  let s1 := resetState code (slewStop (onlyIf (decide (code = 3 ∨ code = 4)) flushHeld s))
  let s2 := if code = 0 then counterLoad s1 else s1
  let s3 := if code ≤ 2 then resumeMeasures s2 else showStore (setFld EVR_NEXT_SEQ_SEQ (((newestRec (storedRecs s2)).map (fun r => r.seq + 1)).getD 0) s2)
  let s4 := showKeys (setFlag CHIP_DEV_STAT_COLD (decide (code = 0)) (setFld PWR_STAT_LAST_RESET code s3))
  if code ≤ 2 then bemFollow { s4 with pwr := { s4.pwr with due := some code } } else startP1 (bemFollow s4)

/-- The main domain loses power: STANDBY or OFF_AON (R398), once the counters are written (R395). What it held is gone; the always-on
domain runs on, and the AON_WAKE bits stay in force (R366). -/
def mainOff (st : Nat) (s : State) : State :=
  let s1 := resetState 6 (slewStop (counterWrite (if st = 3 then updHost (fun h => { h with l2 := h.l2 ++ h.up.filter (fun p => decide (p ∉ h.l2)) }) s else s)))
  let s2 := wakeFlds.foldl (fun t f => setFld f (getFld s f) t) s1
  setPower st (setFld PWR_STAT_STATE (getFld s PWR_STAT_STATE) { s2 with pwr := { s2.pwr with due := some 6 } })

end Sys2Proof.Machine
end

