-- ==== Sys2Proof/Machine/Vault.lean ====
section
/-! DEFINITION. The vault: the ready check (R151, R153), the dump (R155 to R159) and replay (R160 to R163). -/

namespace Sys2Proof.Machine
open Reg

/-! ### The ready check (R151) -/

/-- VLT_REQ_MIB. -/
def vaultReq (s : State) : Nat := 42 + ceilDiv (slotCount s) 65280 + ceilDiv (slotCount s) 254

/-- Why a target fails the check; 0 where it passes. `test` is what its test region answered. -/
def targetWhy (s : State) (port nsid : Nat) (test : Bool) : Nat :=
  if fenced s (0x80 + port) then 7
  else match nsOf s port nsid with
    | none => 2
    | some n =>
      if portState s port ≠ 4 then 2
      else if !n.lbaOk then 3
      else if n.bytes < vaultReq s * 2 ^ 20 then 4
      else if n.plateId ≠ 0 ∨ namedHere s port nsid none then 5
      else if !test then 6 else 0

/-- The ready check with the test regions' last answers (R151, R153). -/
def vaultCheck (s : State) : State :=
  let w1 := targetWhy s (getFld s VLT_CFG_PORT) (getFld s VLT_NSID_NSID) s.cache.testOk.1
  let mir := isSet s VLT_CFG_MIRROR
  let w2 := targetWhy s (getFld s VLT_CFG_MPORT) (getFld s VLT_MNSID_NSID) s.cache.testOk.2
  let pass := decide (w1 = 0) || (mir && decide (w2 = 0))
  let on := isSet s VLT_CFG_EN
  let ready := on && pass && enabled s 0x29 && !fenced s 0x29
  let why := if fenced s 0x29 then 7 else if !on then 1 else if pass then 0 else w1
  let s1 := setFlag VLT_STAT_READY ready (setFlag VLT_STAT_MIRROR_OK (on && mir && decide (w1 = 0) && decide (w2 = 0))
    (setFld VLT_STAT_WHY why (setFld VLT_REQ_MIB_MIB (vaultReq s) s)))
  let s2 := if isSet s VLT_STAT_READY = ready then s1 else setEvt 0x29 VLT_EVT_READY_CHG s1
  boundUpdate (setFlag (PG_STAT_READY 0x29) ready s2)

/-- The test regions answer and the rate is measured, for the slower target. -/
def vaultTest (ok1 ok2 : Bool) (rate : Nat) (s : State) : State :=
  let s1 := updCache (fun c => { c with testOk := (ok1, ok2) }) (setFld VLT_RATE_MEAS_MBS (min rate 65535) s)
  vaultCheck (if min rate 65535 < getFld s VLT_RATE_RATE_MBS then setEvt 0x29 VLT_EVT_RATE_LOW s1 else s1)

/-- CHECK (R166). -/
def execCheck (w : Win) (ok1 ok2 : Bool) (rate : Nat) (s : State) : Host.Outcome State Fault Refusal :=
  run true (cmdWrite w 0x29 VLT_CMD_OP 1 [] VLT_CMD_GO VLT_CMD_RES_STATUS VLT_CMD_RES_DONE (fun _ t => t)
    (fun t => cmdEnd VLT_CMD_GO VLT_CMD_RES_STATUS VLT_CMD_RES_DONE .ok (vaultTest ok1 ok2 rate t)) s)

/-! ### The image (R159, Tables CACHE-2 to CACHE-6) -/

def dirChunks (d : Nat) : Nat := ceilDiv d 65280
def dataChunks (d : Nat) : Nat := ceilDiv d 254

/-- C, the chunks of an image with d directory entries. -/
def imageChunks (d : Nat) : Nat := 41 + dirChunks d + dataChunks d

/-- The slots that a dump writes: the current ones, DIRTY and DESTAGING (Table CACHE-1). -/
def dumpedSlots (s : State) : SMap Slot :=
  (s.cache.slots.filter (fun q => decide (q.2.state = .dirty) || decide (q.2.state = .destaging))).map
    (fun q => (q.1, { q.2 with data := slotData s q.1 q.2, high := none }))

/-- The device as it stands at the freeze, as an image. -/
def buildImage (cause : Nat) (s : State) : Image :=
  let js := s.io.journal.map (fun q => (q.1, { q.2 with state := effState s q.2 }))
  { seq := (s.cache.image.map Image.seq).getD 0 + 1
    flags := (if isSet s VLT_CFG_MIRROR then 2 else 0) + (if 2 ≤ cause then 4 else 0)
    cause := cause
    chunks := imageChunks (dumpedSlots s).length
    time := devTime s
    opMin := opMin s
    cycles := getFld s CHIP_PWR_CYCLES_COUNT
    node := nodeId s
    unbacked := unbackedNow s
    plateIds := s.store.plates.map (fun q => (q.1, q.2.id))
    entries := js
    records := s.io.journal.map (fun q => (q.1, entryBytes s q.1 q.2 0))
    dir := dumpedSlots s }

/-- "ZYNVAULT" and "ZYNCHUNK". -/
def vaultMagic : Nat := 0x544C5541564E595A
def chunkMagic : Nat := 0x4B4E5548434E595A

/-- The header page (Table CACHE-4). -/
def imageHeader (im : Image) : List Byte :=
  leBytes vaultMagic 8 ++ leBytes 1 2 ++ leBytes im.flags 1 ++ leBytes im.cause 1 ++ leBytes im.node 2 ++ zeros 2 ++ leBytes im.seq 8 ++
  leBytes im.time 8 ++ leBytes im.opMin 4 ++ leBytes im.cycles 4 ++ leBytes im.chunks 4 ++ leBytes im.dir.length 4 ++ leBytes im.entries.length 4 ++
  leBytes (b2n im.unbacked) 1 ++ zeros 11 ++ (List.range 64).flatMap (fun p => leBytes (smGetD im.plateIds p 0) 8) ++ zeros 3520

/-- A journal index entry (Table CACHE-5). -/
def indexEntry (e : JEntry) : List Byte :=
  leBytes (jstateCode e.state + 8 * pathCode e.path + 32 * b2n (decide (e.seg.group ≠ 0)) + 64 * b2n e.unbacked + 2 ^ 8 * e.seg.plate +
    2 ^ 14 * (e.seg.sn % 2 ^ 37) + 2 ^ 51 * (e.seg.wset.length % 2 ^ 13)) 8 ++
  leBytes (e.seg.lba % 2 ^ 48 + 2 ^ 48 * e.seg.vol) 8

/-- Byte string of n pieces of equal size, empty ones zero. -/
def pageRun (n size : Nat) (f : Nat → List Byte) : List Byte := (List.range n).flatMap (fun i => slice (f i) 0 size)

/-- Position and block of page i of an entry's staging run (R63): the positions follow one another, each with the blocks of the entry's range. -/
def stagePlace (g : Geom) (e : JEntry) (i : Nat) : Nat × Nat :=
  let n := if e.path = .stream then g.bps else e.blkLast + 1 - e.blkFirst
  (i / n, (if e.path = .stream then 0 else e.blkFirst) + i % n)

/-- What a staging page holds (R63): the pages of an entry stand position by position, each with the blocks of its range. -/
def stagingPage (s : State) (im : Image) (p : Nat) : List Byte :=
  match im.entries.find? (fun q => decide (q.2.stage.1 ≤ p ∧ p < q.2.stage.1 + q.2.stage.2)) with
  | none => []
  | some (_, e) =>
    let i := p - e.stage.1
    if e.path = .cache then (((e.seg.wset)[i]?).bind (fun l => smGet e.newData l)).getD []
    else match plateOf s e.seg.plate with
      | some x =>
        let q := stagePlace x.geom e i
        (blockOf x.geom e q.1 q.2).data
      | none => []

/-- KIND of a chunk: header, journal, staging, directory, data. -/
def chunkKind (im : Image) (c : Nat) : Nat :=
  if c = 0 then 0 else if c ≤ 7 then 1 else if c ≤ 40 then 2 else if c < 41 + dirChunks im.dir.length then 3 else 4

/-- The 255 payload pages of a chunk (Table CACHE-3). -/
def chunkPayload (s : State) (im : Image) (c : Nat) : List Byte :=
  match chunkKind im c with
  | 0 => slice (imageHeader im ++ pageRun 49152 16 (fun n => ((smGet im.entries n).map indexEntry).getD [])) 0 1044480
  | 1 => pageRun 255 4096 (fun i => pageRun 32 128 (fun r => smGetD im.records (((c - 1) * 255 + i) * 32 + r) []))
  | 2 => pageRun 255 4096 (fun i => stagingPage s im ((c - 8) * 255 + i))
  | 3 => slice (((im.dir.drop ((c - 41) * 65280)).take 65280).flatMap (dirEntry s)) 0 1044480
  | _ =>
    let mine := (im.dir.drop ((c - 41 - dirChunks im.dir.length) * 254)).take 254
    pageRun 254 4096 (fun i => match mine[i]? with
      | some q => if q.2.zero then [] else q.2.data
      | none => []) ++ slice (mine.flatMap (dirEntry s)) 0 4096

/-- A chunk with its trailer page (Table CACHE-6). -/
def chunkBytes (s : State) (im : Image) (c : Nat) : List Byte :=
  let pay := chunkPayload s im c
  let t := leBytes chunkMagic 8 ++ leBytes im.seq 8 ++ leBytes c 4 ++ leBytes (chunkKind im c) 1 ++ zeros 3 ++ leBytes (crc32c pay) 4
  pay ++ slice (withCrc t) 0 4096

/-- The configured targets, as (port, namespace). -/
def vaultTargets (s : State) : List (Nat × Nat) :=
  (getFld s VLT_CFG_PORT, getFld s VLT_NSID_NSID) ::
    (if isSet s VLT_CFG_MIRROR then [(getFld s VLT_CFG_MPORT, getFld s VLT_MNSID_NSID)] else [])

/-- Write a chunk to every target, in Writes that the drive's MDTS allows (R289), with FUA, as every Write to a drive carries it (R152, Table DRIVE-1). A target whose drive is lost takes
none (R293). -/
def chunkWrite (im : Image) (c : Nat) (s : State) : State :=
  ((vaultTargets s).filter (fun q => (dport s q.1).isSome)).foldl (fun t q =>
    let b := chunkBytes t im c
    (pieces 256 0 256 (mdtsOf s q.1)).foldl (fun u r =>
      sendNv { plate := 64, mem := 0, node := nodeId u, port := q.1, nsid := q.2, sn := 0, pos := 0, op := .write, lba := 256 * c + r.1, n := r.2,
               data := slice b (4096 * r.1) (4096 * r.2), why := .vault c, tries := 0, fua := true } u) t) s

/-- Vault chunks outstanding. -/
def chunksOut (s : State) : List Nat := s.io.nvme.filterMap (fun q => match q.2.why with
  | .vault c => some c
  | _ => none)

/-- Issue chunks in ascending order while fewer than 64 are outstanding. -/
def chunkIssue : Nat → State → State
  | 0, s => s
  | fuel + 1, s => match s.cache.image with
    | none => s
    | some im =>
      if im.chunks ≤ s.cache.dumpNext ∨ 64 ≤ (chunksOut s).eraseDups.length then s
      else chunkIssue fuel (updCache (fun c => { c with dumpNext := c.dumpNext + 1 }) (chunkWrite im s.cache.dumpNext s))

/-! ### The dump -/

/-- A dump is made only after READY, with a ready target and DIRTY_LATCH 1 (R156). -/
def dumpOk (s : State) : Bool := decide (getFld s CHIP_DEV_STAT_PHASE = 8) && isSet s VLT_STAT_READY && dirtyLatch s

/-- The freeze (Sequence CACHE-1, Sequence FAULT-1, t0 + 8 ns and t0 + 100 ns): presentation stops, entries and slots stay as they are, and
nothing in flight is recorded any more. The latch keeps what it was. -/
def freeze (s : State) : State :=
  let l := dirtyLatch s
  setFld ADM_STAT_FROZEN 1 (setFld (PG_STAT_FROZEN 0x2B) 1 (setFld CHIP_DEV_STAT_READY 0
    { s with cache := { s.cache with latch := l, pmirWait := [], flush := none }
             io := { s.io with cmds := s.io.cmds.filter (fun q => decide (q.2.phase = .held ∨ enOp q.2.raw = 0x89 ∨ enOp q.2.raw = 0x8A))
                               queue := [], waitl := [], jobs := [], waking := [], tagBufs := [], sops := []
                               hreads := s.io.hreads.map (fun q => match q.2.why with | .entry _ _ => q | _ => (q.1, { q.2 with late := true }))
                               nvme := s.io.nvme.filter (fun q => match q.2.why with | .vault _ => true | _ => false) } }))

/-- Begin a dump with a CAUSE of Table CACHE-4; `thenDo` says what follows it. -/
def startDump (cause thenDo : Nat) (s : State) : State :=
  let im := buildImage cause s
  let s1 := freeze (updCache (fun c => { c with image := some im, dumping := true, dumpNext := 0, dumpLeft := im.chunks, dumpThen := thenDo, badChunks := [] }) s)
  chunkIssue 64 (setFld VLT_LAST_CHUNKS_COUNT im.chunks (setFld VLT_LAST_SEQ_SEQ im.seq s1))

/-- What follows BACKUP once its dump has ended or was not made: start-up where main power is good, else OFF_AON (R155). -/
def backupEnd (good : Bool) (s : State) : State := if good then deviceReset 5 s else mainOff 5 s

/-- A dump has ended. -/
def dumpEnd (good : Bool) (s : State) : State :=
  let s1 := updCache (fun c => { c with dumping := false }) s
  if getFld s PWR_STAT_STATE = 4 then backupEnd good s1
  else if s1.cache.dumpThen = 17 then s1
  else deviceReset (if s1.cache.dumpThen = 4 then 4 else 3) s1

/-- A numbered chunk write ends; its chunk is complete with the last of its Writes. -/
def chunkEnd (id c : Nat) (good : Bool) (s : State) : State :=
  let s1 := endNv id s
  if !s1.cache.dumping then s1
  else
    let s2 := chunkIssue 64 (onlyIf (decide (c ∉ chunksOut s1)) (updCache (fun t => { t with dumpLeft := t.dumpLeft - 1 })) s1)
    if chunksOut s2 = [] then dumpEnd good s2 else s2

/-- VAULT_CHUNK_DONE (R155): the numbered chunk write completes; `good` says whether main power is good then. -/
def execVaultChunkDone (id : Nat) (good : Bool) (s : State) : Host.Outcome State Fault Refusal :=
  run true (match smGet s.io.nvme id with
    | some { why := .vault c, .. } => onlyIf (nvIssued s id) (chunkEnd id c good) s
    | _ => s)

/-- A drive port is powered down with BACKUP: its outputs go, and its drive with them. -/
def portOff (p : Nat) (s : State) : State :=
  let bay := smGetD s.drive.bays p Bay.reset
  let s1 := updDrive (fun d => { d with ports := smDel d.ports p, bays := smSet d.bays p { bay with perstN := false, refclk := false, window := false } }) s
  onlyIf (decide (getFld s (PG_STAT_STATE (0x80 + p)) ∉ [0, 7])) (setFld (PG_STAT_STATE (0x80 + p)) 6) (setFld (DPT_SLOT_CTL_PCC p) 1 s1)

/-- Sequence CACHE-1, t0 + 1 µs: the host ports, the links and the drive ports other than the vault's are powered down, and the management
cores halted. -/
def dropLinks (s : State) : State :=
  let s1 := linksOff { s with host := { s.host with up := [] } }
  let s2 := (List.range 64).foldl (fun t p => if (vaultTargets s).any (fun q => decide (q.1 = p)) then t else portOff p t) s1
  (List.range 4).foldl (fun t n => setFld (MGC_STAT_HALTED n) 1 t) s2

/-- BACKUP begins (R155, R156): `pf` says that PWRFAIL# and not VIN_SENSE caused it, `good` whether main power is good again when no
chunk is to be written. -/
def backupEntry (pf good : Bool) (s : State) : State :=
  let st := getFld s PWR_STAT_STATE
  if st = 4 ∨ st = 5 then s
  else if st = 3 then mainOff 5 s
  else
    let s1 := setFlag PWR_STAT_PWRFAIL pf (learnDq 5 s)
    let s2 := if isSet s1 BEM_STAT_RESTWIN then restWinFail s1 else s1
    if s2.cache.dumping then setPower 4 (dropLinks (updCache (fun c => { c with dumpThen := 16 }) s2))
    else if dumpOk s2 then setPower 4 (dropLinks (startDump (if pf then 0 else 1) 16 s2))
    else
      let skip := decide (getFld s2 CHIP_DEV_STAT_PHASE = 8) && dirtyLatch s2 && !isSet s2 VLT_STAT_READY
      let s3 := if skip then setFld VLT_STAT_SKIPPED 1 s2 else s2
      backupEnd good (setPower 4 (dropLinks (freeze s3)))

/-! ### Replay (R160 to R163) -/

/-- Plates replay may write to (R160). -/
def replayable (s : State) (p id : Nat) : Bool :=
  match plateOf s p with
  | some x => decide (x.id = id) && decide (x.state ∈ [.optimal, .degraded1, .degraded2, .rebuilding, .copyback])
  | none => false

/-- A chunk of the image is valid. -/
def chunkOk (s : State) (c : Nat) : Bool := decide (c ∉ s.cache.badChunks)

/-- The journal record of entry j lies in a valid chunk. -/
def recordOk (s : State) (j : Nat) : Bool := chunkOk s (1 + j / 32 / 255)

/-- Every staging page of an entry lies in a valid chunk. -/
def stagingOk (s : State) (e : JEntry) : Bool :=
  (List.range e.stage.2).all (fun i => chunkOk s (8 + (e.stage.1 + i) / 255))

/-- Enter the volume block that a data block of a plate holds in the lost-write list, through the catalogue (R163). -/
def loseBlock (p sn lin : Nat) (s : State) : State :=
  match (plateOf s p).bind (fun x => volumeBlock x sn lin) with
  | some q => lostwAdd q.1 q.2 1 s
  | none => s

/-- The same of a plate named by its PLATE_ID in an image (R160). Where its catalogue is not to be read here its place is open
(notes/assumptions/136.md). -/
def loseBlockOf (id sn lin : Nat) (s : State) : State :=
  match (s.store.plates.find? (fun q => decide (q.2.id = id))).map Prod.snd with
  | some x => match volumeBlock x sn lin with
    | some q => lostwAdd q.1 q.2 1 s
    | none => s
  | none => let q := Config.lostPlace id sn lin; lostwAdd q.1.toNat q.2.toNat 1 s

/-- An entry's blocks enter the lost-write list: through the catalogue, or as its record names them where the plate is not here. -/
def loseEntry (e : JEntry) (s : State) : State :=
  if (plateOf s e.seg.plate).isSome then e.seg.wset.foldl (fun t l => loseBlock e.seg.plate e.seg.sn l t) s
  else lostwAdd e.seg.vol e.seg.lba e.seg.wset.length s

/-- An entry of an image whose plate has another PLATE_ID here, or is not here: its record names its blocks (Table CACHE-5). -/
def loseAbsent (e : JEntry) (s : State) : State := lostwAdd e.seg.vol e.seg.lba e.seg.wset.length s

/-- An entry counts as acknowledged (Table CACHE-8). -/
def acked (e : JEntry) : Bool := decide (e.path = .stream) && !e.unbacked

/-- A segment that replay writes with data at hand. -/
def replaySeg (plate sn vol lba : Nat) (wset : List Nat) (zero : Bool) (data : SMap Block) (redo : Option Redo) : Seg :=
  { src := .replay, cmd := 0, group := 0, head := false, gBlks := wset.length, pBlks := wset.length, gWhole := false, vol := vol, lba := lba,
    plate := plate, sn := sn, wset := wset, zero := zero, dealloc := false, refuse := none, data := data, maint := false, adm := 0, redo := redo }

/-- The segment that writes one slot to a plate here: its block, in the place that the catalogue gives it. -/
def replaySlotSeg (s : State) (p : Nat) (x : Slot) : Seg :=
  let q := ((plateOf s p).bind (fun y => volumeBlock y x.sn x.lin)).getD (x.vol, 0)
  replaySeg p x.sn q.1 q.2 [x.lin] x.zero (if x.zero then [] else [(x.lin, x.data)]) none

/-- Replay's writes go through admission (R160, R468). -/
def presentReplay (g : Seg) (s : State) : State := updIo (fun i => { i with queue := i.queue ++ [g] }) s

/-- The segment that writes an entry again from what staging held of it: new data, zeros and old contents, less its SKIP_MASK (Table CACHE-7). -/
def redoSeg (e : JEntry) : Seg :=
  { replaySeg e.seg.plate e.seg.sn e.seg.vol e.seg.lba e.seg.wset e.seg.zero e.newData
    (some { recon := e.recon, forced := e.forced, old := e.old, erased := e.erased, zeros := e.zeros, skip := e.skipMask }) with pq := e.seg.pq }

/-- P and Q of a stripe are recomputed from the members over a range of blocks and written, through a journal entry of its own (R160,
Tables CACHE-8, LINK-4). -/
def replayPq (p sn first last : Nat) (s : State) : State :=
  presentReplay { replaySeg p sn 0 0 [] false [] none with pq := some (first, last) } s

/-- Replay of one entry of the image (Tables CACHE-7, CACHE-8). -/
def replayEntry (ids : List (Nat × Nat)) (j : Nat) (e : JEntry) (s : State) : State :=
  let p := e.seg.plate
  if e.path = .cache ∨ e.state = .opened ∨ e.state = .committed then s
  else if !replayable s p (smGetD ids p 0) then
    (if !acked e then s else if (plateOf s p).map Plate.id = some (smGetD ids p 0) then loseEntry e s else loseAbsent e s)
  else if e.state = .dataStaged then
    if recordOk s j ∧ stagingOk s e then presentReplay (redoSeg e) s
    else if acked e then loseEntry e s else s
  else if !recordOk s j then
    loseEntry e (replayPq p e.seg.sn 0 (((plateOf s p).map (fun x => x.geom.bps)).getD 1 - 1) s)
  else if !stagingOk s e then loseEntry e (replayPq p e.seg.sn e.blkFirst e.blkLast s)
  else presentReplay (redoSeg e) s

/-- Replay of one directory entry: its place d in the image, its slot number and its slot. -/
def replaySlot (ids : List (Nat × Nat)) (dn : Nat) (d : Nat) (x : Slot) (s : State) : State :=
  let dirOk := chunkOk s (41 + d / 65280)
  let datOk := chunkOk s (41 + dirChunks dn + d / 254)
  let id := smGetD ids x.plate 0
  if datOk ∧ replayable s x.plate id = true then presentReplay (replaySlotSeg s x.plate x) s
  else if datOk ∨ dirOk then incFld VLT_LAST_LOST_COUNT 1 (loseBlockOf id x.sn x.lin s)
  else incFld VLT_LAST_LOST_COUNT 1 s

/-- Some directory entry has neither of its chunks (Table CACHE-8). -/
def unlisted (s : State) (dn : Nat) : Bool :=
  (List.range dn).any (fun d => !chunkOk s (41 + d / 65280) && !chunkOk s (41 + dirChunks dn + d / 254))

/-- A record of a member journal as replay reads it (Table WRITE-5): its number, state, LOGGED, group head, stripe, range, volume, LBA, count,
log. -/
structure MRec where
  idx    : Nat
  state  : Nat
  logged : Bool
  head   : Nat
  sn     : Nat
  first  : Nat
  last   : Nat
  vol    : Nat
  lba    : Nat
  count  : Nat
  logAt  : Nat
  seq    : Nat
  deriving DecidableEq, Repr

/-- A record in PARITY_DONE or COMMITTED. -/
def readRec (q : Nat × List Byte) : Option MRec :=
  let b := q.2
  if 3 ≤ leAt b 0 1 % 8 then
    some { idx := q.1, state := leAt b 0 1 % 8, logged := (leAt b 3 1).testBit 3, head := leAt b 4 2, sn := leAt b 8 8, first := leAt b 0x20 2,
           last := leAt b 0x22 2, vol := leAt b 0x2A 2, lba := leAt b 0x30 8, count := leAt b 0x38 4, logAt := leAt b 0x2E 2, seq := leAt b 0x10 8 }
  else none

/-- The head's record of a group is in PARITY_DONE or beyond, on whichever plate it lies: it is written last (R77), so it decides the group
(R57, R61). -/
def headHeld (s : State) (r : MRec) : Bool :=
  s.cache.jrec.any (fun q => (q.2.1.filterMap readRec).any (fun h => decide (h.idx = r.head ∧ h.head = r.head) && h.logged))

/-- The block of a record's o-th block in the plate's atomic log: the blocks of its group on the plate in volume block order (R162). -/
def logBlock (rs : List MRec) (log : List (Nat × Block)) (r : MRec) (o : Nat) : Option Block :=
  smGet log (r.logAt + ((rs.filter (fun q => q.logged && decide (q.head = r.head ∧ q.logAt = r.logAt ∧ q.lba < r.lba))).map MRec.count).sum + o)

/-- Replay of a plate's member journal (R162): PARITY_DONE records in ascending WRITE_SEQ. -/
def replayMembers (p : Nat) (j : List (Nat × List Byte) × List (Nat × Block)) (s : State) : State :=
  let rs := (j.1.filterMap readRec).mergeSort (fun a b => decide (a.seq ≤ b.seq))
  (rs.filter (fun r => decide (r.state = 3))).foldl (fun t r =>
    if !r.logged then replayPq p r.sn r.first r.last t
    else if headHeld s r then (cutSegs t .replay 0 r.vol r.lba r.count false false (logBlock rs j.2 r)).foldl (fun u q => presentReplay q u) t
    else t) s

/-- The image is lost (Table CACHE-8): a Proof pass cycle starts on every owned plate. -/
def imageLost (s : State) : State :=
  let s1 := sketchEvt 0x29 VLT_EVT_IMAGE_LOST 3 (setEvt 0x29 VLT_EVT_IMAGE_LOST (setFld VLT_STAT_IMAGE_LOST 1 s))
  (s1.store.plates.map Prod.fst).foldl (fun t p => cycleStart p t) s1

/-- A chunk as read is valid (R159): its trailer's two CRCs hold, its IMAGE_SEQ is the header's and its CHUNK its position. -/
def chunkValid (seq c : Nat) (b : List Byte) : Bool :=
  let t := slice (b.drop 1044480) 0 32
  decide (leAt t 0 8 = chunkMagic ∧ leAt t 8 8 = seq ∧ leAt t 0x10 4 = c ∧ leAt t 0x18 4 = crc32c (slice b 0 1044480)) && crcOk t 0x1C

/-- The chunks of the image that no target holds in a valid copy. -/
def badOf (im : Image) (v : VaultRead) : List Nat :=
  (List.range im.chunks).filter (fun c => !v.copies.any (fun t => t.any (fun q => decide (q.1 = c) && chunkValid im.seq c q.2)))

/-- The image that start-up finds: valid header, REPLAYED 0. -/
def freshImage (s : State) : Option Image :=
  match s.cache.image with
  | some im => if im.flags % 2 = 0 ∧ chunkOk s 0 then some im else none
  | none => none

/-- Sequence CACHE-2 steps 4 to 6. -/
def replayRun (s : State) : State :=
  let s1 := updCache (fun c => { c with replay := 2 }) s
  let named := ((freshImage s).map Image.plateIds).getD []
  let lost := isSet s VLT_STAT_SKIPPED || (s.cache.latch && (freshImage s).isNone)
  let s0 := onlyIf lost imageLost s1
  let s4 := match freshImage s with
    | none => s0
    | some im =>
      let dn := im.dir.length
      let es := im.entries.mergeSort (fun a b => decide (a.2.writeSeq ≤ b.2.writeSeq))
      let s2 := es.foldl (fun (t : State) (q : Nat × JEntry) => replayEntry im.plateIds q.1 q.2 t) (setFld VLT_STAT_REPLAYING 1 s0)
      let ds := ((List.range dn).zip (im.dir.map Prod.snd)).mergeSort (fun a b => decide (a.2.seq ≤ b.2.seq))
      let s3 := ds.foldl (fun (t : State) (q : Nat × Slot) => replaySlot im.plateIds dn q.1 q.2 t) s2
      if unlisted s dn then
        (im.plateIds.map Prod.fst).foldl (fun (t : State) (p : Nat) => cycleStart p t)
          (sketchEvt 0x29 VLT_EVT_UNLISTED 3 (setEvt 0x29 VLT_EVT_UNLISTED (setFld VLT_STAT_UNLISTED 1 s3)))
      else s3
  s4.cache.jrec.foldl (fun (t : State) (q : Nat × (List (Nat × List Byte) × List (Nat × Block))) =>
    match plateOf t q.1 with
    | some x => if named.any (fun y => decide (y.2 = x.id)) || !replayable t q.1 x.id then t else replayMembers q.1 q.2 t
    | none => t) s4

/-- Sequence CACHE-2 steps 1 to 3: the image is read, and replay waits for plates it names that assembly has not found. -/
def replayBegin (bad : List Nat) (s : State) : State :=
  let s1 := updCache (fun c => { c with badChunks := bad }) s
  match freshImage s1 with
  | none => replayRun s1
  | some im =>
    let part := bad.any (fun c => decide (c < im.chunks))
    let s2 := setFld VLT_STAT_FOUND 1 (setFlag VLT_STAT_PARTIAL part (setFld VLT_LAST_SEQ_SEQ im.seq (setFld VLT_LAST_CHUNKS_COUNT im.chunks
      (setFld VLT_LAST_VALID_COUNT (im.chunks - (bad.filter (fun c => decide (c < im.chunks))).length) (setFld VLT_LAST_LOST_COUNT 0 s1)))))
    let s3 := if part then setEvt 0x29 VLT_EVT_PARTIAL s2 else s2
    if im.plateIds.all (fun q => s3.store.plates.any (fun y => decide (y.2.id = q.2))) then replayRun s3
    else updCache (fun c => { c with replay := 1 }) s3

/-- FLAGS.REPLAYED as chunk 0 holds it on the targets: 1 where any valid copy says so (Sequence CACHE-2 step 1; DESIGN CHOICE where the copies
differ, log 163). -/
def replayedOf (im : Image) (v : VaultRead) : Bool :=
  v.copies.any (fun t => t.any (fun q => decide (q.1 = 0) && chunkValid im.seq 0 q.2 && (leAt q.2 0x0A 1).testBit 0))

/-- ASSEMBLY (R110), in P7: plates are assembled, the vault is checked, and replay begins. -/
def execAssembly (found : List FoundNs) (media : List PlateMedia) (vault : VaultRead) (s : State) : Host.Outcome State Fault Refusal :=
  run true (if getFld s CHIP_DEV_STAT_PHASE ≠ 7 ∨ devReady s ∨ 2 ≤ s.cache.replay then s
    else
      let s0 := updCache (fun c => { c with image := c.image.map (fun im => { im with flags := im.flags / 2 * 2 + b2n (replayedOf im vault) }) }) s
      let s1 := vaultTest vault.ok1 vault.ok2 vault.rate (assemble found media s0)
      replayBegin ((s1.cache.image.map (fun im => badOf im vault)).getD []) s1)

/-- REPLAY_ASM_WAIT_EXPIRY (Sequence CACHE-2 step 3). -/
def execReplayAsmWaitExpiry (s : State) : Host.Outcome State Fault Refusal := run true (if s.cache.replay = 1 then replayRun s else s)

/-- Replay's writes have all ended. -/
def replayQuiet (s : State) : Bool :=
  decide (s.cache.replay = 2) && decide (s.io.queue = []) && decide (s.io.waitl = []) && decide (s.io.journal = [])

/-- Sequence CACHE-2 step 7. REPLAY_DONE is raised with or without an image (DEDUCED, notes/assumptions/163.md). -/
def replayEnd (s : State) : State :=
  let s1 := lostwWrite s
  let s2 := match freshImage s1 with
    | some im =>
      let im2 : Image := { im with flags := im.flags + 1 }
      chunkWrite im2 0 (updCache (fun c => { c with image := some im2 }) s1)
    | none => s1
  setEvt 0x29 VLT_EVT_REPLAY_DONE <| setFld VLT_STAT_REPLAYING 0 (setFld VLT_STAT_SKIPPED 0 (updCache (fun c => { c with replay := 3, latch := false, jrec := [] }) s2))

end Sys2Proof.Machine
end

