-- ==== Sys2Proof/Machine/Dram.lean ====
section
/-! DEFINITION. The DRAM channels (chapter 12): training and initialisation, address map and page policy, refresh, ECC, freeze, release
and scrub. What the regions hold is kept with its users. -/

namespace Sys2Proof.Machine
open Reg

def updDram (f : DramSt → DramSt) (s : State) : State := { s with dram := f s.dram }

/-- PG_STAT.STATE of a channel (R318). -/
def dmcState (s : State) (c : Nat) : Nat := getFld s (PG_STAT_STATE (0x20 + c))

def setDmc (c st : Nat) (s : State) : State := setFld (PG_STAT_STATE (0x20 + c)) st s

def dmcEvt (c bit : Nat) (s : State) : State := setEvt (0x20 + c) bit s

def dmcEnd (c : Nat) (st : Status) (s : State) : State := cmdEnd (DMC_CMD_GO c) (DMC_CMD_RES_STATUS c) (DMC_CMD_RES_DONE c) st s

def channels : List Nat := [0, 1, 2, 3]

/-! ### Contents (R303) -/

/-- Where a DRAM address stands: its key, and the channels it concerns. -/
def dramPlace (a : Nat) : Nat × List Nat :=
  let low := a % 2 ^ 36
  if low < 2 ^ 32 then (low, [0, 1, 2, 3]) else (bitsOf a 36 2 * 2 ^ 36 + low, [bitsOf a 36 2])

/-- A block with one byte changed. -/
def setByte (b : Block) (i v : Nat) : Block := (slice b 0 4096).set i (BitVec.ofNat 8 v)

/-- What stands at a channel address from 4 GiB up (Table DRAM-2). -/
inductive Region where
  | slot (k : Nat) (x : Slot)
  | pool (q : Nat) (x : Copy)
  | page (p : Nat)
  deriving DecidableEq, Repr

/-- The place of an address from 4 GiB up in its channel's cache and partner pool (Table DRAM-2): its distance from 4 GiB. -/
def regionOff (a : Nat) : Nat := 2 ^ 32 * (a / 2 ^ 32 - 1) + a % 2 ^ 32

/-- A cache slot that is not FREE and holds data, a partner slot in use, or a page that no structure holds. -/
def regionAt (s : State) (c a : Nat) : Region :=
  let off := regionOff a
  let cache := 2 ^ 29 * getFld s CCH_GEOM_CACHE_GIB
  let k := 2 * (off / 4096) + c / 2
  let q := 4 * ((off - cache) / 4096) + c
  match (if off < cache then smGet s.cache.slots k else none),
      (if cache ≤ off ∧ off - cache < 2 ^ 28 * getFld s CCH_GEOM_PPOOL_GIB then smGet s.link.pool q else none) with
  | some x, _ => if x.state = .filling ∨ x.zero then .page (c * 2 ^ 24 + a / 4096) else .slot k x
  | none, some x => .pool q x
  | none, none => .page (c * 2 ^ 24 + a / 4096)

/-- A byte of a channel from 4 GiB up. Initialisation writes zeros (R316); what a partner slot held before it was freed is not known. -/
def regionByte (s : State) (c a : Nat) : Option Nat :=
  match regionAt s c a with
  | .slot _ x => some (byteAt (if c % 2 = 0 then x.data else x.high.getD x.data) (a % 4096))
  | .pool _ x => some (byteAt x.slot.data (a % 4096))
  | .page p => match smGet s.mover.pages p with
    | some b => some (byteAt b (a % 4096))
    | none => if regionOff a < 2 ^ 29 * getFld s CCH_GEOM_CACHE_GIB ∨ 2 ^ 29 * getFld s CCH_GEOM_CACHE_GIB + 2 ^ 28 * getFld s CCH_GEOM_PPOOL_GIB ≤ regionOff a then some 0 else none

/-- Write a byte of a channel from 4 GiB up: that channel's copy of a slot alone (Table MOVER-3). -/
def setRegion (c a v : Nat) (s : State) : State :=
  match regionAt s c a with
  | .slot k x =>
    let hi := x.high.getD x.data
    updSlot k (fun y => if c % 2 = 0 then { y with data := setByte x.data (a % 4096) v, high := some hi } else { y with high := some (setByte hi (a % 4096) v) }) s
  | .pool q x => updLink (fun l => { l with pool := smSet l.pool q { x with slot := { x.slot with data := setByte x.slot.data (a % 4096) v } } }) s
  | .page p => { s with mover := { s.mover with pages := smSet s.mover.pages p (setByte (smGetD s.mover.pages p []) (a % 4096) v) } }

/-- Four bytes that a channel holds, where the model knows them (R314). -/
def channelWord (s : State) (c a : Nat) : Option Nat :=
  let get := fun (i : Nat) => if a + i < 2 ^ 32 then smGet s.mover.dram (a + i) else regionByte s c (a + i)
  match get 0, get 1, get 2, get 3 with
  | some x, some y, some z, some w => some (x + 2 ^ 8 * y + 2 ^ 16 * z + 2 ^ 24 * w)
  | _, _, _, _ => none

/-! ### Address map and pages (R304, R305) -/

/-- DIMM coordinates of a channel address. -/
structure Coord where
  sub   : Nat
  group : Nat
  bank  : Nat
  rank  : Nat
  row   : Nat
  col   : Nat
  deriving DecidableEq, Repr

/-- R304, for a channel's settings: order, hash, x8 devices, ranks and row bits. -/
def decodeAddr (order : Nat) (hash x8 : Bool) (ranks rows addr : Nat) : Coord :=
  let cw := if x8 then 6 else 7
  let rw := if ranks = 2 then 1 else 0
  let x := addr / 2 ^ 7
  let (col, bg, bank) := match order with
    | 0 => (bitsOf x 0 cw, bitsOf x cw 3, bitsOf x (cw + 3) 2)
    | 1 => (bitsOf x 3 cw, bitsOf x 0 3, bitsOf x (cw + 3) 2)
    | _ => (bitsOf x 5 cw, bitsOf x 0 3, bitsOf x 3 2)
  let row := bitsOf x (cw + 5 + rw) rows
  { sub := bitsOf addr 6 1, group := if hash then bg ^^^ row % 8 else bg, bank := if hash then bank ^^^ row / 8 % 4 else bank,
    rank := bitsOf x (cw + 5) rw, row := row, col := 16 * col }

def coordOf (s : State) (c addr : Nat) : Coord :=
  decodeAddr (getFld s (DMC_CFG_ORDER c)) (isSet s (DMC_CFG_HASH c)) (isSet s (DMC_DIMM_X8 c)) (getFld s (DMC_DIMM_RANKS c)) (getFld s (DMC_DIMM_ROW_BITS c)) addr

def bankKey (c sub rank group bank : Nat) : Nat := (((c * 2 + sub) * 2 + rank) * 8 + group) * 4 + bank

/-- A bank behaves as OPEN (R305). -/
def bankOpen (s : State) (c : Nat) (b : Bank) : Bool :=
  match getFld s (DMC_CFG_PAGE c) with
  | 0 => true
  | 1 => false
  | _ => decide (b.hits.length ≤ 2 * (b.hits.filter id).length)

/-- A burst is accessed: its row stays open or closes, and its bytes are counted. An access to the row of the one before it in its bank counts as a row
hit, whether or not the policy has closed the row since (DEDUCED, notes/assumptions/165.md). -/
def access (c addr : Nat) (s : State) : State :=
  let q := coordOf s c addr
  let k := bankKey c q.sub q.rank q.group q.bank
  let b := smGetD s.dram.banks k { row := none, hits := [] }
  let b1 : Bank := { b with hits := (decide (b.last = some q.row) :: b.hits).take 16, last := some q.row }
  let b2 : Bank := { b1 with row := if bankOpen s c b1 then some q.row else none }
  add64 (DMC_BYTES_LO_COUNT c) (DMC_BYTES_HI_COUNT c) 64 (updDram (fun d => { d with banks := smSet d.banks k b2 }) s)

/-- ROW_IDLE_CLOSE (R305). -/
def execRowIdleClose (c sub rank group bank : Nat) (s : State) : Host.Outcome State Fault Refusal :=
  run (decide (c < 4 ∧ sub < 2 ∧ rank < 2 ∧ group < 8 ∧ bank < 4)) (
    let k := bankKey c sub rank group bank
    match smGet s.dram.banks k with
    | some b => updDram (fun d => { d with banks := smSet d.banks k { b with row := none } }) s
    | none => s)

/-! ### Refresh and urgency (R311) -/

/-- DRAM_REFRESH: postponed while requests wait, at most four times; issued, it closes the channel's rows. -/
def execDramRefresh (c : Nat) (waiting : Bool) (s : State) : Host.Outcome State Fault Refusal :=
  run (decide (c < 4)) (
    let n := smGetD s.dram.post c 0
    if dmcState s c ∉ [2, 3, 5] then s
    else if waiting ∧ n < 4 ∧ dmcState s c ≠ 5 then updDram (fun d => { d with post := smSet d.post c (n + 1) }) s
    else updDram (fun d => { d with post := smSet d.post c 0, banks := d.banks.map (fun q => if q.1 / 128 = c then (q.1, { q.2 with row := none }) else q) }) s)

/-- A channel takes a request for a line: it is in INIT or ACTIVE, the watermark has passed the line, and the device is not in BACKUP, where it serves
the vault dump alone (R307, R316, R319). -/
def dmcTakes (s : State) (c addr : Nat) : Bool :=
  decide (dmcState s c = 2 ∨ dmcState s c = 3) && decide (addr / 2 ^ 20 < getFld s (DMC_INIT_WM_MIB c)) && decide (getFld s PWR_STAT_STATE ≠ 4)

/-- REQUEST_URGENT: no request becomes urgent during a speed change (R307). -/
def execRequestUrgent (c port : Nat) (s : State) : Host.Outcome State Fault Refusal :=
  run (decide (c < 4 ∧ port < 6)) (if dmcState s c = 2 ∨ dmcState s c = 3 then incFld (DMC_URGENT_COUNT c) 1 s else s)

/-! ### Training and initialisation (R302, R306, R316) -/

/-- The DRAM board record, where it is valid (Table DRAM-4). -/
def boardRecord (s : State) : Option (List Byte) :=
  (flashAt s (cfgOff 0x300000)).bind (fun b => if leAt b 0 8 = 0x54425244444E595A ∧ leAt b 8 2 = 1 ∧ crcOk b 0x1FC then some b else none)

/-- Firmware loads a channel's delays (R306), lane by lane through DMC_DLY_SEL; without a valid record, zeros. Its writes count in PG_SEQ as any
(R441). -/
def loadBoard (c : Nat) (s : State) : State :=
  let v := fun (o w : Nat) => ((boardRecord s).map (fun b => leAt b o w)).getD 0
  let s0 := updDram (fun d => { d with seeded := if (boardRecord s).isSome then c :: d.seeded.filter (· ≠ c) else d.seeded.filter (· ≠ c) }) s
  let s1 := (List.range 20).foldl (fun t l =>
    let x := v (0x10 + 80 * c + 4 * l) 4
    let u := setFld (DMC_DLY_SEL_LANE c) l t
    seqIf (0x20 + c) u (setFld (DMC_DLY_WL_SEED c l) (bitsOf x 0 12) (setFld (DMC_DLY_RG_SEED c l) (bitsOf x 12 12) u))) s0
  seqIf (0x20 + c) s1 (setFld (DMC_DLY_CA_CA c) (v (0x150 + 2 * c) 2) s1)

/-- A DIMM meets Table DRAM-1. -/
def dimmOk (d : Dimm) : Bool := d.kind && decide (d.gib ∈ [16, 32, 64]) && decide (d.ranks = 1 ∨ d.ranks = 2) && (!d.x8 || decide (d.gib = 16))

/-- The reference DIMM: that of the lowest-numbered channel that has one. -/
def refDimm (s : State) : Option Dimm := s.dram.dimms.head?.map Prod.snd

/-- Installed DRAM in GiB (R302). -/
def installedGib (s : State) : Nat := 4 * ((refDimm s).map Dimm.gib).getD 0

/-- A trained lane lies within TOL of its seed. -/
def laneOk (s : State) (c : Nat) (l : Nat × (Nat × Nat)) : Bool :=
  let tol := getFld s (DMC_DLY_CA_TOL c)
  let near := fun (a b : Nat) => decide (a ≤ b + tol ∧ b ≤ a + tol)
  decide (c ∉ s.dram.seeded) || (near l.2.1 (getFld s (DMC_DLY_WL_SEED c l.1)) && near l.2.2 (getFld s (DMC_DLY_RG_SEED c l.1)))

/-- The first cause that keeps a channel OFF (R302, R306); 0 for none. -/
def trainWhy (s : State) (c : Nat) (d : Option Dimm) (lanes : List (Nat × Nat)) : Nat :=
  match d with
  | none => 1
  | some x =>
    if !x.spd then 2
    else if !dimmOk x then 3
    else if !((refDimm s).map (fun r => decide (r.gib = x.gib ∧ r.ranks = x.ranks ∧ r.x8 = x.x8))).getD true then 4
    else if !(((List.range 20).zip lanes).all (laneOk s c)) ∨ lanes.length ≠ 20 then 5 else 0

/-- The run speed: the lower of RUN and what every DIMM in use reaches (Table DRAM-1). -/
def runSpeed (s : State) : Nat :=
  (s.dram.dimms.filter (fun q => decide (getFld s (DMC_STAT_WHY q.1) = 0))).foldl (fun a q => min a (min q.2.speed (getFld s (DMC_SPEED_RUN q.1)))) 2

/-- The timing set and speed of a channel: set B in NIGHT, else set A (R307). -/
def showSpeed (c : Nat) (s : State) : State :=
  let night := decide (getFld s PWR_STAT_STATE = 2)
  setFlag (DMC_SPEED_SET c) night (setFld (DMC_SPEED_CUR c) (if night then 3 else runSpeed s) s)

/-- What R302 makes of a trained channel: OFF with WHY, or INIT from address 0 on. -/
def judgeChannel (c why : Nat) (s : State) : State :=
  let s1 := setFld (DMC_STAT_WHY c) why s
  if why = 0 then setFld (DMC_INIT_WM_MIB c) 0 (setFld (DMC_INIT_WM_DONE c) 0 (setDmc c 2 s1))
  else setDmc c 0 (if why = 5 then dmcEvt c DMC_EVT_TRAIN_FAIL s1 else s1)

/-- The channels trained before are judged by the reference DIMM as it is now known: WHY 4 comes or goes (R302). -/
def rejudge (c : Nat) (s : State) : State :=
  channels.foldl (fun t i =>
    match smGet t.dram.dimms i with
    | some x =>
      let why := trainWhy t i (some x) (smGetD t.dram.lanes i [])
      let was := getFld t (DMC_STAT_WHY i)
      onlyIf (decide (i ≠ c ∧ dmcState t i ∉ [1, 5] ∧ was ≠ why ∧ (was = 4 ∨ (was = 0 ∧ why = 4)))) (judgeChannel i why) t
    | none => t) s

/-- DRAM_TRAINING_DONE (R302, R306, R315): what the channel's slot holds, and each lane's trained write-levelling and read-gate delay. Where a
released channel stays OFF and no other is in service, the device fences itself (R313). -/
def trainingDone (c : Nat) (d : Option Dimm) (lanes : List (Nat × Nat)) (s : State) : State :=
  if dmcState s c ≠ 1 then s
  else
    let s0 := updDram (fun t => { t with lanes := smSet t.lanes c lanes, dimms := match d with | some x => smSet t.dimms c x | none => smDel t.dimms c }) s
    let why := trainWhy s0 c d lanes
    let s1 := match d with
      | some x => if x.spd then setFld (DMC_DIMM_SIZE_GIB c) x.gib (setFld (DMC_DIMM_RANKS c) x.ranks (setFlag (DMC_DIMM_X8 c) x.x8
          (setFld (DMC_DIMM_ROW_BITS c) x.rows s0))) else s0
      | none => s0
    let s2 := rejudge c (judgeChannel c why s1)
    let s3 := if why ≠ 0 ∧ isSet s (DMC_CMD_GO c) then dmcEnd c .internal s2 else s2
    let s4 := channels.foldl (fun t i => onlyIf (decide (dmcState t i = 2)) (showSpeed i) t) s3
    onlyIf (devReady s4 && channels.all (dmcDown s4)) (report 0x0C (0x20 + c) 0) s4

def execDramTrainingDone (c : Nat) (d : Option Dimm) (lanes : List (Nat × Nat)) (s : State) : Host.Outcome State Fault Refusal :=
  run (decide (c < 4)) (trainingDone c d lanes s)

/-- Initialisation has written zeros (R316): the pages of the channel; and the working region where no other channel holds it, since R315 step 3 copies
it from an ACTIVE one. -/
def zeroed (c : Nat) (s : State) : State :=
  let alone := channels.all (fun i => decide (i = c ∨ dmcState s i ≠ 3))
  { s with mover := { s.mover with pages := s.mover.pages.filter (fun q => decide (q.1 / 2 ^ 24 ≠ c)),
                                   dram := if alone then s.mover.dram.map (fun q => (q.1, 0)) else s.mover.dram } }

/-- DRAM_INIT_DONE (R315, R316): the watermark reaches the channel's end. A released channel is ACTIVE again, and the cache restores its
pair (R149). -/
def initDone (c : Nat) (s : State) : State :=
  if (dmcState s c ≠ 2 ∧ dmcState s c ≠ 3) ∨ isSet s (DMC_INIT_WM_DONE c) then s
  else
    let s1 := dmcEvt c DMC_EVT_INIT_DONE (setFld (DMC_INIT_WM_DONE c) 1 (setFld (DMC_INIT_WM_MIB c) (1024 * getFld s (DMC_DIMM_SIZE_GIB c)) (setDmc c 3 (zeroed c s))))
    if isSet s (DMC_CMD_GO c) then
      dmcEnd c .ok (dmcEvt c DMC_EVT_RELEASED (updCache (fun t => { t with copying := c :: t.copying.filter (· ≠ c) }) (clearFence (0x20 + c) s1)))
    else s1

def execDramInitDone (c : Nat) (s : State) : Host.Outcome State Fault Refusal := run (decide (c < 4)) (initDone c s)

/-! ### Freeze (R312, R313, R149, R150) -/

/-- Neither channel of a pair holds a copy (R150). -/
def pairDown (s : State) (b : Nat) : Bool := noCopy s (2 * b) && noCopy s (2 * b + 1)

/-- The slots of a pair with no copy left: their blocks are lost; a slot mirrored to a partner is fetched back (R150). No
FLUSH waits for a lost block any longer (DESIGN CHOICE, notes/assumptions/164.md). -/
def losePair (b : Nat) (s : State) : State :=
  (s.cache.slots.filter (fun q => decide (q.1 % 2 = b) && (decide (q.2.state = .dirty) || decide (q.2.state = .destaging)))).foldl (fun t q =>
    if (partnerFor t q.2.plate).isSome then t
    else flushed q.2.plate q.2.sn [(q.2.lin, q.2.seq)] (retireSlot q.1 (loseBlock q.2.plate q.2.sn q.2.lin t))) s

/-- Partner slots on a channel are reported lost to their owners (Table DRAM-6, R334). -/
def losePool (c : Nat) (s : State) : State :=
  let gone := s.link.pool.filter (fun q => decide (q.1 % 4 = c))
  gone.foldl (fun t q => sendMsg q.2.owner .mirrorLost 0 (q.2.num + q.2.slot.plate * 2 ^ 32) 0 [] t)
    (updLink (fun l => { l with pool := l.pool.filter (fun q => decide (q.1 % 4 ≠ c)) }) s)

/-- A channel freezes; a release under way ends with INTERNAL. A channel that is OFF and is fenced reads FROZEN (Table DRAM-8). -/
def dmcFreeze (c : Nat) (s : State) : State :=
  if dmcState s c = 5 then s
  else if dmcState s c = 0 then setDmc c 5 s
  else
    let s0 := onlyIf (isSet s (DMC_CMD_GO c)) (dmcEnd c .internal) (updCache (fun t => { t with copying := t.copying.filter (· ≠ c) }) (setDmc c 5 s))
    let s1 := losePool c (writeThroughOn s0)
    let s2 := if pairDown s1 (c / 2) then losePair (c / 2) s1 else s1
    if channels.all (dmcDown s2) then report 0x0C (0x20 + c) 0 s2 else s2

/-- The code's units in error in a burst, each with its symbols: the devices of an x4 DIMM, the half-devices of an x8 DIMM, 0 to 9 (R308). -/
def eccUnits (x8 : Bool) (errs : List DevErr) : List (Nat × Nat) :=
  (errs.flatMap (fun e => if x8 then [(2 * e.dev, e.lo), (2 * e.dev + 1, e.hi)] else [(e.dev, e.lo)])).filter
    (fun u => decide (u.1 < 10) && decide (u.2 % 256 ≠ 0))

/-- What the code makes of a burst (R308): errors confined to one unit are corrected, errors confined to two are detected. The first unit
named is the one shown. -/
def eccResult (x8 : Bool) (errs : List DevErr) : Ecc :=
  match eccUnits x8 errs with
  | [] => .clean
  | (u, m) :: t =>
    let others := (t.map Prod.fst).filter (· ≠ u)
    if others = [] then .corrected u (((u, m) :: t).foldl (fun a q => a ||| q.2) 0)
    else if others.all (fun v => decide (some v = others.head?)) then .uncorrected u m
    else
      let f := Config.eccBeyond ((u, m) :: t)
      if f.1 = 0 then .clean else if f.1 = 1 then .corrected (f.2.1.toNat % 10) f.2.2.toNat else .uncorrected (f.2.1.toNat % 10) f.2.2.toNat

/-- How a burst of a channel's DIMM checks. -/
def eccOf (s : State) (c : Nat) (errs : List DevErr) : Ecc := eccResult (isSet s (DMC_DIMM_X8 c)) errs

/-- The device that a unit belongs to. -/
def unitDev (s : State) (c u : Nat) : Nat := if isSet s (DMC_DIMM_X8 c) then u / 2 else u

/-- The first error since the event was last cleared fills DMC_ERR_SYN; the subchannel is that of the address (R304). -/
def fillSyn (c addr dev syms : Nat) (ue : Bool) (s : State) : State :=
  let e := getFld s (Reg.PG_EVT_EVT (0x20 + c))
  if e.testBit DMC_EVT_CE ∨ e.testBit DMC_EVT_UE then s
  else setFld (DMC_ERR_SYN_SUB c) (coordOf s c addr).sub (setFld (DMC_ERR_SYN_DEVICE c) dev (setFld (DMC_ERR_SYN_SYMBOLS c) syms (setFlag (DMC_ERR_SYN_UE c) ue s)))

/-- PG_ECAP of a page (Table PAGE-3). -/
def fillEcap (p addr acc master kind : Nat) (s : State) : State :=
  setFld (PG_ECAP_ADDR_LO_ADDR p) (addr % 2 ^ 32) (setFld (PG_ECAP_ADDR_HI_ADDR p) (addr / 2 ^ 32) (setFld (PG_ECAP_INFO_ACCESS p) acc
    (setFld (PG_ECAP_INFO_MASTER p) master (setFld (PG_ECAP_INFO_KIND p) kind (setFld (PG_ECAP_TIME_US p) (devTime s / 1000) s)))))

/-- A corrected burst (R309). -/
def corrected (c addr master unit syms : Nat) (s : State) : State :=
  let s1 := fillSyn c addr unit syms false s
  let s2 := if (getFld s (Reg.PG_EVT_EVT (0x20 + c))).testBit DMC_EVT_CE then s1 else fillEcap (0x20 + c) addr 0 master 0x0A s1
  let k := (c * 2 + (coordOf s c addr).sub) * 16 + unitDev s c unit
  let now := opMin s
  let l := now :: (smGetD s.dram.ces k []).filter (fun t => decide (now < t + 1440))
  let s3 := updDram (fun d => { d with ces := smSet d.ces k l }) (dmcEvt c DMC_EVT_CE (incFld (DMC_CE_COUNT c) 1 s2))
  let s4 := if getFld s (DMC_CFG_CE_THR c) < l.length then sketchEvt (0x20 + c) DMC_EVT_CE_STORM 2 (dmcEvt c DMC_EVT_CE_STORM s3) else s3
  report 0x0A (0x20 + c) addr s4

/-- An uncorrected burst (R312). -/
def uncorrected (c addr unit syms : Nat) (s : State) : State :=
  let s1 := fillSyn c addr unit syms true s
  report 0x0B (0x20 + c) addr (dmcFreeze c (dmcEvt c DMC_EVT_UE (satFld (DMC_UE_COUNT c) 1 s1)))

/-- A channel may read a burst: in INIT, ACTIVE, or while its queues drain for a speed change (Sequence DRAM-1). In BACKUP the bursts are those of the
vault dump. -/
def serves (s : State) (c : Nat) : Bool := decide (dmcState s c = 2 ∨ dmcState s c = 3 ∨ dmcState s c = 4)

/-- What the code makes of a burst read is carried out: nothing, the correction (R309), with the line written back where `wb` says so, or the
freeze (R312). -/
def burstRead (c : Nat) (q : DramReq) (wb : Bool) (errs : List DevErr) (s : State) : State :=
  match eccOf s c errs with
  | .clean => s
  | .corrected u m => onlyIf wb (access c q.addr) (corrected c q.addr q.master u m s)
  | .uncorrected u m => uncorrected c q.addr u m s

/-- DRAM_CORRECTED_BURST (R309): a burst with errors is read; R308 decides from them and the DIMM's devices that it is corrected. -/
def execDramCorrectedBurst (c : Nat) (req : DramReq) (devs lo hi : List Nat) (s : State) : Host.Outcome State Fault Refusal :=
  run (decide (c < 4)) (onlyIf (serves s c) (fun t => burstRead c req (isSet t (DMC_CFG_CORR_WB c)) (devErrs devs (lo.zip hi)) (access c req.addr t)) s)

/-- DRAM_UNCORRECTED_BURST (R312): a burst with errors is read; R308 decides from them and the DIMM's devices that it is not corrected. -/
def execDramUncorrectedBurst (c : Nat) (req : DramReq) (devs lo hi : List Nat) (s : State) : Host.Outcome State Fault Refusal :=
  run (decide (c < 4)) (onlyIf (serves s c) (fun t => burstRead c req (isSet t (DMC_CFG_CORR_WB c)) (devErrs devs (lo.zip hi)) (access c req.addr t)) s)

/-- SCRUB_READ (R317): the next line in address order; a corrected one is written back. In BACKUP a channel serves only the vault dump (R319). -/
def scrubRead (c : Nat) (errs : List DevErr) (s : State) : State :=
  if dmcState s c ≠ 3 ∨ !isSet s (DMC_INIT_WM_DONE c) ∨ getFld s PWR_STAT_STATE = 4 then s
  else
    let a := smGetD s.dram.scrub c 0
    let size := getFld s (DMC_DIMM_SIZE_GIB c) * 2 ^ 30
    let next := if size ≤ a + 64 then 0 else a + 64
    let s1 := setFld (DMC_SCRUB_POS_MIB c) (next / 2 ^ 20) (updDram (fun d => { d with scrub := smSet d.scrub c next }) (access c a s))
    let s2 := if next = 0 then dmcEvt c DMC_EVT_SCRUB_DONE s1 else s1
    burstRead c { addr := a, master := 0x20 + c } true errs s2

def execScrubRead (c : Nat) (errs : List DevErr) (s : State) : Host.Outcome State Fault Refusal := run (decide (c < 4)) (scrubRead c errs s)

/-! ### Speed, diagnosis and release -/

/-- The rows of a channel are closed. -/
def precharge (c : Nat) (s : State) : State :=
  updDram (fun d => { d with banks := d.banks.map (fun q => if q.1 / 128 = c then (q.1, { q.2 with row := none }) else q) }) s

/-- A speed change begins on every channel that is in service (Sequence DRAM-1): its banks are precharged and its ranks enter self-refresh. A channel
that trains takes the new set when it has trained. -/
def freqStart (s : State) : State :=
  channels.foldl (fun t c =>
    if dmcState t c = 2 ∨ dmcState t c = 3 then
      precharge c (setDmc c 4 (updDram (fun d => { d with back := if dmcState t c = 2 then c :: d.back.filter (· ≠ c) else d.back.filter (· ≠ c) }) t))
    else t) s

/-- FREQ_CHANGE_DONE (R307): set B in NIGHT, else set A. -/
def execFreqChangeDone (s : State) : Host.Outcome State Fault Refusal :=
  run true (
    channels.foldl (fun t c =>
      if dmcState t c ≠ 4 then t
      else dmcEvt c DMC_EVT_FREQ_DONE (setDmc c (if c ∈ t.dram.back then 2 else 3) (showSpeed c t))) s)

/-- The code corrects a burst. -/
def eccCorrected : Ecc → Bool
  | .corrected _ _ => true
  | _ => false

/-- The code detects a burst's error and does not correct it. -/
def eccUncorrected : Ecc → Bool
  | .uncorrected _ _ => true
  | _ => false

/-- DIAG_READ (R314): the write of DMC_DIAG_ADDR_HI; `devs` and `syms` are what is wrong in the burst at DMC_DIAG_ADDR, and R308 decides how it checks.
The 4 bytes are those that the channel holds there. Where they carry errors, or stand in a structure that the spec does not lay out, `data` is what
is stored (notes/assumptions/66.md). -/
def execDiagRead (w : Win) (c hi data : Nat) (devs : List Nat) (syms : List (Nat × Nat)) (s : State) : Host.Outcome State Fault Refusal :=
  run (decide (c < 4)) (guardWrite w (0x20 + c) (fun t =>
    let t1 := writeRwi w (0x20 + c) [(DMC_DIAG_ADDR_HI_ADDR c, hi)] t
    if !mayInstall t w && !unchanged t [(DMC_DIAG_ADDR_HI_ADDR c, hi)] then t1
    else if dmcState t1 c ≠ 5 then setFld (DMC_DIAG_STAT_VALID c) 0 t1
    else
      let a := 4 * getFld t1 (DMC_DIAG_ADDR_LO_ADDR c) + 2 ^ 32 * getFld t1 (DMC_DIAG_ADDR_HI_ADDR c)
      let held := if devErrs devs syms = [] then channelWord t1 c a else none
      setFld (DMC_DIAG_DATA_DATA c) (held.getD data) (setFld (DMC_DIAG_STAT_VALID c) 1 (setFlag (DMC_DIAG_STAT_CE c) (eccCorrected (eccOf t1 c (devErrs devs syms))) (setFlag (DMC_DIAG_STAT_UE c) (eccUncorrected (eccOf t1 c (devErrs devs syms))) t1)))) s)

/-- DRAM_RELEASE (R315): it requires the installer role, whatever OP held before; an operator's ends with ROLE_DENIED (DEDUCED, notes/assumptions/147.md).
The channel retrains; DRAM_TRAINING_DONE and DRAM_INIT_DONE carry it on. -/
def execDramRelease (w : Win) (c : Nat) (s : State) : Host.Outcome State Fault Refusal :=
  run (decide (c < 4)) (cmdWrite w (0x20 + c) (DMC_CMD_OP c) 1 [] (DMC_CMD_GO c) (DMC_CMD_RES_STATUS c) (DMC_CMD_RES_DONE c) (fun _ t => t)
    (fun t => if !mayInstall t w then dmcEnd c .roleDenied t
      else if dmcState t c ≠ 5 then dmcEnd c .stateConflict t
      else setDmc c 1 (loadBoard c t)) s)

end Sys2Proof.Machine
end

