-- ==== Sys2Proof/Machine/Drive.lean ====
section
/-! DEFINITION. Drive ports and slots: the sideband bus (R296, R297), hot-plug (R298, Table DRIVE-3), what a drive must be (R287, R288),
controller resets (R291), lost drives (R293) and the commands of the DPT pages (R299). -/

namespace Sys2Proof.Machine
open Reg

/-! ### Slots -/

def bayOf (s : State) (p : Nat) : Bay := smGetD s.drive.bays p Bay.reset

def updBay (p : Nat) (f : Bay → Bay) (s : State) : State := updDrive (fun d => { d with bays := smSet d.bays p (f (bayOf s p)) }) s

def dptEvt (p bit : Nat) (s : State) : State := setEvt (0x80 + p) bit s

def setPort (p st : Nat) (s : State) : State := setFld (PG_STAT_STATE (0x80 + p)) st s

/-- The slot is powered: PWR_EN, the reverse of Slot Control's PCC. -/
def powered (s : State) (p : Nat) : Bool := !isSet s (DPT_SLOT_CTL_PCC p)

/-- An input of Table DRIVE-2 after R297. -/
def input (s : State) (p bit : Nat) : Bool := (bayOf s p).good.testBit bit

/-- An indicator's level from its code: 1 on, 2 blink, 3 off. -/
def lit (s : State) (code : Nat) : Bool := decide (code = 1) || (decide (code = 2) && s.drive.blink)

/-- The attention indicator: lit since a power fault, blinking after a refusal, else as Slot Control says (Tables DRIVE-3, DRIVE-4). -/
def attn (s : State) (p : Nat) : Bool :=
  let b := bayOf s p
  if b.pfault then true
  else if b.refused ≠ 0 ∧ devTime s < b.refused - 1 + 5000000000 then s.drive.blink
  else lit s (getFld s (DPT_SLOT_CTL_AIC p))

/-- The eight output bits of a slot (Table DRIVE-2); those of an absorbed port stay at reset (R284). -/
def outputs (s : State) (p : Nat) : Nat :=
  let b := bayOf s p
  if portState s p = 7 then 0
  else (if powered s p then 1 else 0) + (if b.perstN then 2 else 0) + (if attn s p then 4 else 0) +
    (if lit s (getFld s (DPT_SLOT_CTL_PIC p)) then 8 else 0) + (if isSet s (DPT_SLOT_CTL_LOCATE p) then 16 else 0) + (if b.refclk then 32 else 0)

/-- The power indicator follows the port (Table DRIVE-3): lit when READY, blinking while it is brought up, in the window and while it is
shut down, else off. -/
def showPic (p : Nat) (s : State) : State :=
  let st := portState s p
  let c := if (bayOf s p).window then 2 else if st = 4 then 1 else if st ∈ [1, 2, 3, 5] then 2 else 3
  setFld (DPT_SLOT_CTL_PIC p) c s

/-- Power outputs off. -/
def slotOff (p : Nat) (s : State) : State :=
  setFld (DPT_SLOT_CTL_PCC p) 1 (updBay p (fun b => { b with perstN := false, refclk := false, window := false }) s)

/-- Power-up of a present slot begins (Table DRIVE-3). -/
def powerUp (p : Nat) (s : State) : State :=
  showPic p (setPort p 1 (setFld (DPT_SLOT_CTL_PCC p) 0 (updBay p (fun b => { b with hold := false }) s)))

/-- The link and namespace registers of a port whose drive is gone; a link that was up has changed its state (DLLSC). -/
def linkRegsOff (p : Nat) (s : State) : State :=
  onlyIf (decide (getFld s (DPT_LINK_WIDTH p) ≠ 0)) (dptEvt p DPT_EVT_DLLSC) <|
  [DPT_LINK_SPEED p, DPT_LINK_WIDTH p, DPT_LINK_IN_L1 p, DPT_NSID0_NSID p, DPT_NSID1_NSID p, DPT_NS_STAT_FMT_OK0 p, DPT_NS_STAT_FMT_OK1 p,
   DPT_NS_STAT_IGNORED p, DPT_KEY_DRIVE_KEY p].foldl (fun t f => setFld f 0 t) s

/-! ### The sideband bus -/

/-- Time an input must hold a new value in ns: 100 ms for PRSNT, none for PWR_FAULT, 20 ms for the rest (R297). -/
def debounce (bit : Nat) : Nat := if bit = 0 then 100000000 else if bit = 2 then 0 else 20000000

/-- One input bit of a good frame. -/
def bayBit (now v bit : Nat) (b : Bay) : Bay :=
  if v.testBit bit = b.good.testBit bit then { b with cand := smDel b.cand bit }
  else
    let since := smGetD b.cand bit now
    if since + debounce bit ≤ now then
      { b with good := b.good ^^^ 2 ^ bit, cand := smDel b.cand bit, pressed := b.pressed || (decide (bit = 1) && v.testBit 1) }
    else { b with cand := smSet b.cand bit since }

/-- A slot's inputs in a good frame: Slot Status shows them; power good turns the reference clock on. -/
def bayFrame (p v : Nat) (s : State) : State :=
  let s1 := updBay p (fun b => (List.range 7).foldl (fun a i => bayBit (devTime s) v i a) b) s
  let s2 := setFlag (DPT_SLOT_STS_PDS p) (input s1 p 0) (setFlag (DPT_SLOT_STS_DUAL p) (input s1 p 3)
    (setFlag (DPT_SLOT_STS_IFDET p) (input s1 p 4) (setFlag (DPT_SLOT_STS_PWR_GOOD p) (input s1 p 5) s1)))
  if portState s2 p = 1 ∧ input s2 p 5 then updBay p (fun b => { b with refclk := true }) s2 else s2

/-- A frame of chain n completes (R296, R297): `ins` holds the input byte of each slot. A frame whose inputs are not taken breaks the run of frames that a
changed input needs. -/
def frame (n : Nat) (ins : List Nat) (s : State) : State :=
  let slots := List.range (min (getFld s (SSB_CFG_SLOTS n)) 16)
  let v := fun (i : Nat) => (ins[i]?).getD 0 % 256
  let s1 := slots.foldl (fun t i => setFld (SSB_RAW_IN n i) (v i) t) (incFld (SSB_FRAMES_COUNT n) 1 s)
  let ch := smGetD s.drive.chains n { bad := 0, good := 0 }
  let put := fun (c : Chain) (t : State) => updDrive (fun d => { d with chains := smSet d.chains n c }) t
  let fault := isSet s (SSB_STAT_FAULT n)
  let forget := fun (t : State) => slots.foldl (fun u i => updBay (16 * n + i) (fun b => { b with cand := [] }) u) t
  if slots.any (fun i => (v i).testBit 7) then
    let s2 := put { bad := ch.bad + 1, good := 0 } (incFld (SSB_BAD_COUNT n) 1 s1)
    forget (if ch.bad + 1 = 3 ∧ !fault then setEvt (0xC0 + n) SSB_EVT_CHAIN_FAULT (setFld (SSB_STAT_FAULT n) 1 s2) else s2)
  else
    let s2 := put { bad := 0, good := ch.good + 1 } s1
    if fault then
      forget (if ch.good + 1 = 8 then setEvt (0xC0 + n) SSB_EVT_CHAIN_OK (setFld (SSB_STAT_FAULT n) 0 s2) else s2)
    else if fenced s (0xC0 + n) then forget s2
    else
      let s3 := slots.foldl (fun t i => bayFrame (16 * n + i) (v i) t) s2
      slots.foldl (fun t i => setFld (SSB_RAW_OUT n i) (outputs t (16 * n + i)) t) s3

def execSsbFrame (chain : Nat) (ins : List Nat) (s : State) : Host.Outcome State Fault Refusal :=
  run (decide (chain < 4)) (onlyIf (isSet s (SSB_CFG_EN chain)) (frame chain ins) s)

/-- INDICATOR_BLINK_TOGGLE (R297). -/
def execIndicatorBlinkToggle (s : State) : Host.Outcome State Fault Refusal :=
  run true (updDrive (fun d => { d with blink := !d.blink }) s)

/-! ### Lost drives (R293) -/

/-- A drive port's outstanding commands end: reads as erasures; what was written is lost with the member. Those of members declared failed have
ended with them. -/
def endCmds (p : Nat) (s : State) : State :=
  let cs := (portCmds s p).filter (fun q => match q.2.why with
    | .vault _ => false
    | _ => true)
  let s1 := updIo (fun i => { i with nvme := i.nvme.filter (fun q => !cs.any (fun r => decide (r.1 = q.1))) }) s
  cs.foldl (fun t q => if q.2.op = .read then readLost q.2 t else writeLost q.2 t) s1

/-- A port with no drive to issue to. -/
def portStill (p : Nat) (s : State) : State := updDport p (fun d => { d with resetting := true }) s

/-- The chunk writes outstanding at a port end with its drive (R293). A dump in BACKUP that they were the last of ends as where main power is
not good (DESIGN CHOICE, notes/assumptions/61.md). -/
def endChunks (p : Nat) (s : State) : State :=
  (portCmds s p).foldl (fun t q => match q.2.why with
    | .vault c => chunkEnd q.1 c false t
    | _ => t) s

/-- An operation of DPT_CMD that the loss of the drive cuts short ends OK: the spec gives no status (DESIGN CHOICE, notes/assumptions/60.md). -/
def cutCmd (p : Nat) (s : State) : State :=
  onlyIf (isSet s (DPT_CMD_GO p)) (cmdEnd (DPT_CMD_GO p) (DPT_CMD_RES_STATUS p) (DPT_CMD_RES_DONE p) .ok) s

/-- A link down, a loss of presence or a power fault: every outstanding command ends and the namespaces are gone (R293, Table REBUILD-3). -/
def driveGone (p : Nat) (s : State) : State :=
  let s1 := endCmds p (failDrive p .missing (portStill p s))
  let s2 := updDrive (fun d => { d with ports := smDel d.ports p }) s1
  endChunks p (cutCmd p (linkRegsOff p (updBay p (fun b => { b with hold := true, window := false }) s2)))

/-! ### Bring-up -/

/-- The first unmet condition of R287, as DPT_DRIVE.WHY gives it. -/
def driveWhy (s : State) (p : Nat) (d : DriveId) : Nat :=
  if !d.ready then 8 else if d.cls ≠ 0x010802 then 1 else if d.version < 0x00010400 then 2 else if !d.nvm then 3 else if !d.wz then 4
  else if input s p 3 && !d.resv then 5 else 0

/-- The namespaces the port tracks: the two with the lowest NSIDs (R288). -/
def tracked (d : DriveId) : List (Nat × Nat × Bool) := (d.nss.mergeSort (fun a b => decide (a.1 ≤ b.1))).take 2

/-- Blocks per command: the lesser of MDTS, in 4 KiB pages, and 1 MiB (R289). -/
def mdtsBlocks (m : Nat) : Nat := if m = 0 then 256 else min 256 (2 ^ m)

/-- The registers and the port record of an identified drive; label generations come from the labels read. -/
def identify (p : Nat) (d : DriveId) (found : List FoundNs) (s : State) : State :=
  let ns := tracked d
  let nsid := fun i => ((ns[i]?).map (fun n => n.1)).getD 0
  let fmt := fun i => ((ns[i]?).map (fun n => n.2.2)).getD false
  let s1 := setFlag (DPT_DRIVE_RESV p) d.resv (setFlag (DPT_DRIVE_DSM p) d.dsm (setFlag (DPT_DRIVE_VWC p) d.vwc
    (setFld (DPT_DRIVE_MDTS p) d.mdts (setFld (DPT_DRIVE_CNTLID p) d.cntlid s))))
  let s2 := setFld (DPT_NSID0_NSID p) (nsid 0) (setFld (DPT_NSID1_NSID p) (nsid 1) (setFlag (DPT_NS_STAT_FMT_OK0 p) (fmt 0)
    (setFlag (DPT_NS_STAT_FMT_OK1 p) (fmt 1) (setFld (DPT_NS_STAT_IGNORED p) (min 255 (d.nss.length - 2)) (setFld (DPT_KEY_DRIVE_KEY p) (driveKey d.serial) s1)))))
  let old := dport s p
  let nss := ns.map (fun n =>
    let f := found.find? (fun x => decide (x.port = p ∧ x.nsid = n.1))
    match f, old.bind (fun o => o.nss.find? (fun y => decide (y.nsid = n.1))) with
    | some x, o => ({ nsid := n.1, bytes := n.2.1, lbaOk := n.2.2, genA := labelGenOf x.copyA, genB := labelGenOf x.copyB,
                      plateId := ((bestLabel x).map labelPlate).getD 0, foreign := (o.map Ns.foreign).getD false } : Ns)
    | none, some y => { y with bytes := n.2.1, lbaOk := n.2.2 }
    | none, none => { nsid := n.1, bytes := n.2.1, lbaOk := n.2.2, genA := none, genB := none, plateId := 0 })
  let q : DPort :=
    { key := driveKey d.serial, mdts := mdtsBlocks d.mdts, nss := nss, resets := (old.map DPort.resets).getD 0, resetting := (old.map DPort.resetting).getD false,
      queues := d.queues, aspm := d.aspm, turn := (old.map DPort.turn).getD 0 }
  updDrive (fun t => { t with ports := smSet t.ports p q }) s2

/-- A tracked namespace that Identify no longer lists is detached: its members are gone (Table REBUILD-3). -/
def detachNs (p : Nat) (d : DriveId) (s : State) : State :=
  let left := (tracked d).map (fun n => n.1)
  failAll ((portMembers s p).filter (fun q => (((plateOf s q.1).bind (fun x => x.mem q.2)).map (fun y => !decide (y.nsid ∈ left))).getD false)) .missing s

/-- Namespaces with a label of a plate held here that are no members of it are FOREIGN (Table REBUILD-7). -/
def markStrays (found : List FoundNs) (s : State) : State :=
  s.link.held.foldl (fun t q => markForeign q.2.plate found t) (s.store.plates.foldl (fun t q => markForeign q.2 found t) s)

/-- The labels of a drive brought up after assembly have the outcomes of Table REBUILD-7. -/
def lateLabels (found : List FoundNs) (media : List PlateMedia) (s : State) : State :=
  if !devReady s then s
  else
    let s1 := found.foldl (fun t f => autoReturn f t) (markStrays found s)
    let ids := (((found.filterMap bestLabel).map labelPlate).eraseDups).mergeSort (fun a b => decide (a ≤ b))
    ids.foldl (fun t id =>
      if t.store.plates.any (fun q => decide (q.2.id = id)) ∨ (smGet t.link.held id).isSome then t
      else
        let spots := (found.filter (fun f => decide ((bestLabel f).map labelPlate = some id))).map (fun f => (f.port, f.nsid, driveKey f.serial))
        if t.store.foreigns.any (fun g => decide (g.id = id)) then
          updStore (fun u => { u with foreigns := u.foreigns.map (fun g =>
            if g.id = id then { governed g (found.filterMap bestLabel) with spots := g.spots.filter (fun q => !spots.any (fun r => decide (r.1 = q.1 ∧ r.2.1 = q.2.1))) ++ spots } else g) }) t
        else takePlate found media id t) s1

/-- Bring-up ends: READY, or INIT_FAIL with the first unmet condition (R287, R288, R298). -/
def bringUp (p : Nat) (d : DriveId) (found : List FoundNs) (media : List PlateMedia) (s : State) : State :=
  let why := driveWhy s p d
  if why ≠ 0 then dptEvt p DPT_EVT_INIT_FAIL (setFld (DPT_DRIVE_WHY p) why (showPic p (setPort p 8 s)))
  else
    let s1 := identify p d found (setFld (DPT_DRIVE_WHY p) 0 s)
    lateLabels found media (dptEvt p DPT_EVT_READY (showPic p (setPort p 4 (emit (.nvmeAdmin p [.createQueues (queuePairs s1 p)]) s1))))

/-! ### Planned power-off -/

/-- A namespace may be taken out: it is not the vault target, and no slot without a failure names it (Table DRIVE-3). -/
def nsFree (s : State) (p : Nat) (n : Ns) : Bool :=
  let names := fun (x : Plate) => x.members.any (fun y => decide (y.node = nodeId s ∧ y.port = p ∧ y.nsid = n.nsid ∧ y.failSeq = 0))
  !isVaultNs s p n.nsid && !s.store.plates.any (fun q => names q.2) && !s.link.held.any (fun q => names q.2.plate)

/-- A tracked namespace of the port is a member, or the vault target (Table DRIVE-6). -/
def portUsed (s : State) (p : Nat) : Bool :=
  ((dport s p).map (fun d => d.nss.any (fun n =>
    let names := fun (x : Plate) => x.members.any (fun y => decide (y.node = nodeId s ∧ y.port = p ∧ y.nsid = n.nsid))
    isVaultNs s p n.nsid || s.store.plates.any (fun q => names q.2) || s.link.held.any (fun q => names q.2.plate)))).getD false

def removable (s : State) (p : Nat) : Bool := ((dport s p).map (fun d => d.nss.all (nsFree s p))).getD true

/-- The planned power-off begins: Flush once for each tracked namespace, then the shutdown notification. -/
def quiesce (p : Nat) (s : State) : State :=
  let nss := ((dport s p).map DPort.nss).getD []
  let c := fun (n : Ns) => ({ plate := 64, mem := 0, node := nodeId s, port := p, nsid := n.nsid, sn := 0, pos := 0, op := .flush, lba := 0, n := 0,
                              data := [], why := .other, tries := 0 } : NvCmd)
  let s1 := nss.foldl (fun t n => sendNv (c n) t) s
  showPic p (setPort p 5 (sendAdmin p [.shutdownNotice] s1))

/-- The drive is shut down: reset, clock and power go, and the slot is OFF. -/
def slotDown (p : Nat) (s : State) : State :=
  let s1 := slotOff p (endCmds p (portStill p s))
  showPic p (setPort p 6 (linkRegsOff p (updDrive (fun d => { d with ports := smDel d.ports p }) s1)))

/-! ### The commands -/

/-- SLOT_PRESENCE_DETECTED (Table DRIVE-3): with AUTO_ON 0, or the page disabled, the slot waits for POWER_ON. -/
def execSlotPresenceDetected (p : Nat) (s : State) : Host.Outcome State Fault Refusal :=
  run (decide (p < 64)) (if portState s p ≠ 0 ∨ !isSet s (DPT_SLOT_STS_PDS p) then s
    else
      let s1 := dptEvt p DPT_EVT_PDC (setFld (PG_STAT_ASLEEP (0x80 + p)) 0 s)
      if isSet s (DPT_CFG_AUTO_ON p) ∧ enabled s (0x80 + p) then powerUp p s1 else setPort p 6 (updBay p (fun b => { b with hold := false }) s1))

/-- PWR_GOOD_TIMEOUT (Table DRIVE-3). -/
def execPwrGoodTimeout (p : Nat) (s : State) : Host.Outcome State Fault Refusal :=
  run (decide (p < 64)) (if portState s p ≠ 1 ∨ isSet s (DPT_SLOT_STS_PWR_GOOD p) then s
    else dptEvt p DPT_EVT_INIT_FAIL (setFld (DPT_DRIVE_WHY p) 6 (showPic p (setPort p 8 (slotOff p s)))))

/-- PERST_RELEASE_TIMER (Table DRIVE-3). -/
def execPerstReleaseTimer (p : Nat) (s : State) : Host.Outcome State Fault Refusal :=
  run (decide (p < 64)) (if portState s p ≠ 1 ∨ !isSet s (DPT_SLOT_STS_PWR_GOOD p) then s
    else showPic p (setPort p 2 (updBay p (fun b => { b with perstN := true, refclk := true }) s)))

/-- What a controller is asked at bring-up (Table DRIVE-1). -/
def bringUpCmds : List NvAdmin := [.identifyController, .activeNamespaces, .identifyNamespaces]

/-- DRIVE_LINK_UP (R284, Table DRIVE-3): no faster than MAX_SPEED; x4 only where X4 is set. -/
def execDriveLinkUp (p speed width : Nat) (s : State) : Host.Outcome State Fault Refusal :=
  run (decide (p < 64 ∧ 1 ≤ speed ∧ speed ≤ 5 ∧ width ∈ [1, 2, 4]))
    (if portState s p ≠ 2 ∨ (bayOf s p).hold ∨ (0x80 + p) ∈ s.pwr.dead ∨ getFld s (DPT_CFG_MAX_SPEED p) < speed ∨ (width = 4 ∧ !isSet s (DPT_CFG_X4 p)) ∨ fenced s (0x80 + p) then s
     else dptEvt p DPT_EVT_DLLSC (emit (.nvmeAdmin p bringUpCmds) (showPic p (setPort p 3 (setFld (DPT_LINK_SPEED p) speed (setFld (DPT_LINK_WIDTH p) width s))))))

/-- DRIVE_LINK_TIMEOUT (Table DRIVE-3). -/
def execDriveLinkTimeout (p : Nat) (s : State) : Host.Outcome State Fault Refusal :=
  run (decide (p < 64)) (if portState s p ≠ 2 then s
    else dptEvt p DPT_EVT_INIT_FAIL (setFld (DPT_DRIVE_WHY p) 7 (showPic p (setPort p 8 s))))

/-- NVME_BRING_UP_DONE (R287, R288, R109). -/
def execNvmeBringUpDone (p : Nat) (id : DriveId) (found : List FoundNs) (media : List PlateMedia) (s : State) : Host.Outcome State Fault Refusal :=
  run (decide (p < 64)) (onlyIf (decide (portState s p = 3)) (bringUp p id (found.filter (fun f => decide (f.port = p))) media) s)

/-- ATTENTION_BUTTON (Table DRIVE-3). -/
def execAttentionButton (p : Nat) (s : State) : Host.Outcome State Fault Refusal :=
  run (decide (p < 64)) (if !(bayOf s p).pressed then s
    else
      let s1 := dptEvt p DPT_EVT_ABP (updBay p (fun b => { b with pressed := false }) s)
      if portState s p ∉ [4, 6] then s1
      else if (bayOf s p).window then dptEvt p DPT_EVT_CANCEL (showPic p (updBay p (fun b => { b with window := false }) s1))
      else showPic p (updBay p (fun b => { b with window := true }) s1))

/-- ATTENTION_WINDOW_END (Table DRIVE-3). -/
def execAttentionWindowEnd (p : Nat) (s : State) : Host.Outcome State Fault Refusal :=
  run (decide (p < 64)) (if !(bayOf s p).window then s
    else
      let s1 := updBay p (fun b => { b with window := false }) s
      if !removable s p then dptEvt p DPT_EVT_REMOVE_REFUSED (showPic p (updBay p (fun b => { b with refused := devTime s + 1 }) s1))
      else if portState s p = 4 then quiesce p s1
      else showPic p s1)

/-- The planned power-off ends; an operation of DPT_CMD ends with it. -/
def shutdownDone (p : Nat) (s : State) : State :=
  let s1 := slotDown p s
  if isSet s1 (DPT_CMD_GO p) then cmdEnd (DPT_CMD_GO p) (DPT_CMD_RES_STATUS p) (DPT_CMD_RES_DONE p) .ok s1 else s1

/-- SHUTDOWN_COMPLETE (Table DRIVE-3). -/
def execShutdownComplete (p : Nat) (s : State) : Host.Outcome State Fault Refusal :=
  run (decide (p < 64)) (onlyIf (decide (portState s p = 5)) (shutdownDone p) s)

/-- PRESENCE_LOST (R293, Table DRIVE-3). -/
def execPresenceLost (p : Nat) (s : State) : Host.Outcome State Fault Refusal :=
  run (decide (p < 64)) (if portState s p ∈ [0, 7] ∨ isSet s (DPT_SLOT_STS_PDS p) then s
    else
      let s1 := slotOff p (driveGone p (dptEvt p DPT_EVT_PDC s))
      setFld (PG_STAT_ASLEEP (0x80 + p)) 1 (showPic p (setPort p 0 (updBay p (fun b => { b with pfault := false, hold := false, refused := 0 }) s1))))

/-- POWER_FAULT (R293, Table DRIVE-3). -/
def execPowerFault (p : Nat) (s : State) : Host.Outcome State Fault Refusal :=
  run (decide (p < 64)) (if !powered s p ∨ !input s p 2 then s
    else showPic p (setPort p 6 (updBay p (fun b => { b with pfault := true }) (slotOff p (driveGone p (dptEvt p DPT_EVT_PFD s))))))

/-- DRIVE_LINK_DOWN (R293). -/
def execDriveLinkDown (p : Nat) (s : State) : Host.Outcome State Fault Refusal :=
  run (decide (p < 64)) (if portState s p ∉ [3, 4, 5] then s
    else showPic p (setPort p 8 (driveGone p (dptEvt p DPT_EVT_DLLSC s))))

/-- NVME_COMMAND_TIMEOUT (R291). -/
def execNvmeCommandTimeout (p : Nat) (s : State) : Host.Outcome State Fault Refusal :=
  run (decide (p < 64)) (onlyIf ((portCmds s p).any (fun q => nvIssued s q.1)) (portTimeout p) s)

/-- CONTROLLER_RESET_DONE (R291): outstanding writes are issued again in their order, under new numbers, so that completions from before
the reset find no command. -/
def resetDone (p : Nat) (s : State) : State :=
  let cs := portCmds s p
  let s1 := updIo (fun i => { i with nvme := i.nvme.filter (fun q => !cs.any (fun r => decide (r.1 = q.1))) }) (updDport p (fun d => { d with resetting := false, turn := 0 }) (emit (.nvmeAdmin p [.createQueues (queuePairs s p)]) s))
  cs.foldl (fun t q => sendNv { q.2 with tries := q.2.tries + 1 } t) s1

def execControllerResetDone (p : Nat) (s : State) : Host.Outcome State Fault Refusal :=
  run (decide (p < 64)) (onlyIf (((dport s p).map DPort.resetting).getD false) (resetDone p) s)

/-- CONTROLLER_FATAL_STATUS (R291). -/
def execControllerFatalStatus (p : Nat) (s : State) : Host.Outcome State Fault Refusal :=
  run (decide (p < 64)) (onlyIf (dport s p).isSome (failDrive p .failed) s)

/-- SMART_POLL (R290, Table DRIVE-1): a namespace-change notice repeats the Identify steps. -/
def smartPoll (p warn tempK : Nat) (changed : Option DriveId) (s : State) : State :=
  let s1 := setFld (DPT_SMART_WARN p) warn (setFld (DPT_SMART_TEMP_K p) tempK (sendAdmin p [.smartLog] s))
  let s2 := if warn % 256 ≠ 0 then dptEvt p DPT_EVT_SMART_WARN s1 else s1
  let s3 := if warn.testBit 2 || warn.testBit 3 then failDrive p .failed s2 else s2
  match changed with
  | some d => detachNs p d (identify p d [] (sendAdmin p bringUpCmds s3))
  | none => s3

def execSmartPoll (p warn tempK : Nat) (changed : Option DriveId) (s : State) : Host.Outcome State Fault Refusal :=
  run (decide (p < 64)) (onlyIf (decide (portState s p = 4)) (smartPoll p warn tempK changed) s)

def dptEnd (p : Nat) (st : Status) (s : State) : State := cmdEnd (DPT_CMD_GO p) (DPT_CMD_RES_STATUS p) (DPT_CMD_RES_DONE p) st s

/-- POWER_OFF (R298): it ends with the planned power-off. -/
def powerOffCmd (p : Nat) (s : State) : State :=
  if !removable s p ∨ portState s p = 7 then dptEnd p .stateConflict s
  else if portState s p = 4 then quiesce p s
  else if portState s p ∈ [1, 2, 3, 8] then dptEnd p .ok (slotDown p s)
  else if portState s p = 5 then s
  else dptEnd p .ok s

/-- POWER_ON (R298, R299): a slot in service stays as it is, and one whose page is disabled stays OFF (Table DRIVE-6, notes/assumptions/60.md). -/
def powerOnCmd (p : Nat) (s : State) : State :=
  if !isSet s (DPT_SLOT_STS_PDS p) ∨ portState s p = 7 ∨ !enabled s (0x80 + p) then dptEnd p .stateConflict s
  else if portState s p ∈ [1, 2, 3, 4, 5] then dptEnd p .ok s
  else dptEnd p .ok (powerUp p (slotOff p s))

/-- The operation that OP holds; RESCAN needs what its row brings (DESIGN CHOICE, notes/assumptions/147.md). -/
def dptHeld (p op : Nat) (s : State) : State :=
  let t := cmdStart (DPT_CMD_GO p) (DPT_CMD_RES_DONE p) s
  if op = 1 then powerOffCmd p t else if op = 2 then powerOnCmd p t else s

def dptCmd (w : Win) (p op : Nat) (act : State → State) (s : State) : State :=
  cmdWrite w (0x80 + p) (DPT_CMD_OP p) op [] (DPT_CMD_GO p) (DPT_CMD_RES_STATUS p) (DPT_CMD_RES_DONE p) (dptHeld p) act s

def execPowerOff (w : Win) (p : Nat) (s : State) : Host.Outcome State Fault Refusal := run (decide (p < 64)) (dptCmd w p 1 (powerOffCmd p) s)

def execPowerOn (w : Win) (p : Nat) (s : State) : Host.Outcome State Fault Refusal := run (decide (p < 64)) (dptCmd w p 2 (powerOnCmd p) s)

/-- RESCAN (R299). -/
def execRescan (w : Win) (p : Nat) (id : DriveId) (found : List FoundNs) (s : State) : Host.Outcome State Fault Refusal :=
  run (decide (p < 64)) (dptCmd w p 3 (fun t =>
    if portState t p ≠ 4 then dptEnd p .stateConflict t
    else
      let fs := found.filter (fun f => decide (f.port = p))
      dptEnd p .ok (markStrays fs (detachNs p id (identify p id fs (sendAdmin p bringUpCmds t))))) s)

/-- DRIVE_L1_ENTRY (R286): the drive must advertise it. -/
def execDriveL1Entry (p : Nat) (s : State) : Host.Outcome State Fault Refusal :=
  run (decide (p < 64)) (if portState s p ≠ 4 ∨ ((dport s p).map DPort.aspm).getD false = false ∨ portCmds s p ≠ [] ∨ isSet s (PG_CTL_CLK_REQ (0x80 + p)) ∨ (!isSet s (DPT_CFG_ASPM_L1 p) ∧ getFld s PWR_STAT_STATE ≠ 2) then s
    else setFld (DPT_LINK_IN_L1 p) 1 (setFld (PG_STAT_ASLEEP (0x80 + p)) 1 s))

/-- The fence of a drive port (Table DRIVE-6): the link is held down, as after a link down; slot power stays. -/
def dptFence (p : Nat) (s : State) : State :=
  if portState s p ∈ [3, 4, 5] then showPic p (setPort p 8 (driveGone p (dptEvt p DPT_EVT_DLLSC s))) else driveGone p s

end Sys2Proof.Machine
end

