-- ==== Sys2Proof/Machine/Mover.lean ====
section
/-! DEFINITION. The Graver block mover (chapter 14). A unit runs burst by burst; GRAVER_UNIT_END ends it and chooses the next channel. -/

namespace Sys2Proof.Machine
open Reg

/-! ### Memory (R353) -/

/-- Why an access to a byte of SRAM or DRAM fails; 0 where it does not (Tables MOVER-3, MOVER-4). -/
def byteFail (s : State) (space a : Nat) : Nat :=
  if space = 0 then (if a < 0x03000000 then 0 else 7)
  else if 2 ^ 38 ≤ a then 7
  else
    match dramPlace a with
    | (_, [c]) =>
      if dmcState s c = 5 then 3
      else if dmcState s c = 0 ∨ getFld s (DMC_DIMM_SIZE_GIB c) * 2 ^ 30 ≤ a % 2 ^ 36 then 7 else 0
    | (_, cs) => if cs.all (fun c => dmcDown s c) then 3 else 0

/-- The entry that holds a staging page, with the page's place in its run. -/
def stageOwner (s : State) (p : Nat) : Option (Nat × JEntry × Nat) :=
  (s.io.journal.find? (fun q => decide (q.2.stage.1 ≤ p ∧ p < q.2.stage.1 + q.2.stage.2))).map (fun q => (q.1, q.2, p - q.2.stage.1))

/-- A byte of a staging page in use: what the entry holds for its position and block (R63); none before that has arrived. -/
def stageByte (s : State) (e : JEntry) (i o : Nat) : Option Nat :=
  match plateOf s e.seg.plate with
  | none => none
  | some x =>
    let q := stagePlace x.geom e i
    if q.1 < x.geom.k then (contentAt x.geom e q.1 q.2).map (fun t => byteAt t.data o)
    else (smGet e.parity (gkey q.1 q.2)).map (fun d => byteAt d o)

/-- A byte written to a staging page in use changes what the entry holds there. -/
def setStage (j : Nat) (e : JEntry) (i o v : Nat) (s : State) : State :=
  match plateOf s e.seg.plate with
  | none => s
  | some x =>
    let q := stagePlace x.geom e i
    let lin := q.1 * x.geom.bps + q.2
    let key := gkey q.1 q.2
    if x.geom.k ≤ q.1 then updEntry j (fun y => { y with parity := smSet y.parity key (setByte (smGetD y.parity key []) o v) }) s
    else match smGet e.newData lin, smGet e.old key with
      | some d, _ => updEntry j (fun y => { y with newData := smSet y.newData lin (setByte d o v) }) s
      | none, some t => updEntry j (fun y => { y with old := smSet y.old key { t with data := setByte t.data o v } }) s
      | none, none => s

/-- A byte as the Graver reads it: journal entries as Table WRITE-5 lays them out, what staging and the DRAM regions hold, and what the Graver
wrote. Every reset clears SRAM (R401), so core memory that the Graver has not written reads 0. Bytes of structures that the spec does not lay
out, and of staging pages that no entry holds and the Graver has not written, are free (notes/assumptions/66.md). -/
def readByte (s : State) (space a n : Nat) : Nat :=
  let free := (Config.workByte (s.fresh + n)).toNat
  if space = 0 then
    if 0x02000000 ≤ a ∧ a < 0x02600000 then
      let j := (a - 0x02000000) / 128
      match entryOf s j with
      | some e => byteAt (entryBytes s j e 0) (a % 128)
      | none => 0
    else if readOnly a then free
    else if 0x02E00000 ≤ a then smGetD s.mover.sram a 0
    else match stageOwner s (a / 4096) with
      | some (_, e, i) => (stageByte s e i (a % 4096)).getD free
      | none => (smGet s.mover.sram a).getD free
  else
    let low := a % 2 ^ 36
    if low < 2 ^ 32 then (smGet s.mover.dram low).getD free else (regionByte s (bitsOf a 36 2) low).getD free

/-- Write a byte. -/
def writeByte (space a v : Nat) (s : State) : State :=
  if space = 0 then
    match (if a < 0x02000000 then stageOwner s (a / 4096) else none) with
    | some (j, e, i) => setStage j e i (a % 4096) v s
    | none => updMover (fun m => { m with sram := smSet m.sram a v }) s
  else
    let low := a % 2 ^ 36
    if low < 2 ^ 32 then updMover (fun m => { m with dram := smSet m.dram low v }) s else setRegion (bitsOf a 36 2) low v s

/-- GRAVER_GO (R347): CH_CTL written with GO. -/
def execGraverGo (w : Win) (c : Nat) (chain : Bool) (s : State) : Host.Outcome State Fault Refusal :=
  run (decide (c < 16)) (guardWrite w (0xE0 + c) (fun t =>
    if chState t c ≠ 0 ∨ fenced t 0xDF ∨ fenced t (0xE0 + c) then t
    else
      let t1 := seqIf (0xE0 + c) t (setFlag (MCH_CH_CTL_CHAIN c) chain t)
      let t2 := setFld (MCH_CH_CTL_GO c) 1 (setFld (MCH_CH_STAT_STATE c) 1 (setFld (PG_STAT_ASLEEP (0xE0 + c)) 0 (setFld (PG_STAT_ASLEEP 0xDF) 0 t1)))
      let t3 := if chain then setFld (MCH_CH_CUR_LO_ADDR c) (getFld t2 (MCH_CH_HEAD_LO_SPACE c) + 128 * getFld t2 (MCH_CH_HEAD_LO_ADDR c))
          (setFld (MCH_CH_CUR_HI_ADDR c) (getFld t2 (MCH_CH_HEAD_HI_ADDR c)) t2) else t2
      chooseUnit (updMch c (fun _ => { loaded := !chain, off := 0, ended := none }) t3)) s)

/-- The first byte of a unit that has not been moved yet, for a unit that is stopped. -/
def cutUnit (c kind : Nat) (s : State) : State :=
  updMch c (fun m => { m with ended := some (m.ended.getD (kind, m.off, false)) }) s

/-- STOP of a channel (R358): the running unit ends after its burst; a pending channel is IDLE. -/
def stopCh (c : Nat) (s : State) : State :=
  if chState s c = 2 then (if (mchOf s c).loaded then cutUnit c 8 s else chooseUnit (releaseMover c (idleCh c s)))
  else if chState s c = 0 then s
  else showMover (idleCh c s)

/-- GRAVER_STOP (R358). -/
def execGraverStop (w : Win) (c : Nat) (s : State) : Host.Outcome State Fault Refusal :=
  run (decide (c < 16)) (guardWrite w (0xE0 + c) (stopCh c) s)

/-- The Graver's fence (Table MOVER-8): of the common page, or of the channel page of the running unit. A channel that waits for its descriptor has
no unit to end, and is pending again. -/
def moverFence (p : Nat) (s : State) : State :=
  match s.mover.run with
  | some c =>
    if p ≠ 0xDF ∧ p ≠ 0xE0 + c then s
    else if (mchOf s c).loaded then cutUnit c 9 s
    else if isSet s (MCH_CH_CTL_CHAIN c) then chooseUnit (releaseMover c (setFld (MCH_CH_STAT_STATE c) 1 s))
    else ownDone c s
  | none => s

/-- The channels that an access to a DRAM address goes to: a write of the working region to every channel in service, a read to the lowest-numbered
one (R303). -/
def dramChs (s : State) (a : Nat) (wr : Bool) : List Nat :=
  let up := (dramPlace a).2.filter (fun c => !dmcDown s c)
  if wr then up else up.take 1

/-- An access to a DRAM line is held: the channel trains, changes speed, has not initialised the line, or serves the vault dump alone (R307, R316,
R319). -/
def lineHeld (s : State) (a : Nat) (wr : Bool) : Bool :=
  decide (byteFail s 1 a = 0) && (dramChs s a wr).any (fun c => !dmcTakes s c (a % 2 ^ 36))

/-- An access of n bytes to a DRAM line reaches its channels: banks and bytes. A write that does not fill the line is a read and a write (R310). -/
def touchLine (wr : Bool) (a n : Nat) (s : State) : State :=
  (dramChs s a wr).foldl (fun u c => let v := access c (a % 2 ^ 36) u; if wr && decide (n ≠ 64) then access c (a % 2 ^ 36) v else v) s

/-- The two lines of a descriptor are read. -/
def descRead (space a : Nat) (s : State) : State :=
  if space = 1 ∧ byteFail s space a = 0 then touchLine false (a + 64) 64 (touchLine false a 64 s) else s

/-- Bytes of a descriptor are written back (R355), where its memory takes them. -/
def descWrite (space a : Nat) (v : List Byte) (s : State) : State :=
  if byteFail s space a ≠ 0 ∨ (space = 0 ∧ readOnly a) then s
  else (List.range v.length).foldl (fun u i => writeByte space (a + i) (byteAt v i) u) (if space = 1 then touchLine true a v.length s else s)

/-- What an error of the SRAM or DRAM read at byte `a` for channel `c` does (R355): an SRAM error is reported; a DRAM one is corrected, or freezes its
channel (R309, R312). -/
def memErr (space a c : Nat) (errs : List DevErr) (s : State) : State :=
  if space = 0 then report 0x02 0xDF a s
  else match (dramChs s a false).head? with
    | none => s
    | some ch => burstRead ch { addr := a % 2 ^ 36 / 64 * 64, master := 0xE0 + c } (isSet s (DMC_CFG_CORR_WB ch)) errs s

/-- The ERR_KIND of that error where no data comes (Table MOVER-4); `t` is the state it leaves. A region with a second copy is read from that copy
(Table DRAM-6). -/
def memErrKind (space a : Nat) (errs : List DevErr) (s t : State) : Option Nat :=
  if space = 0 then some 2
  else match (dramChs s a false).head? with
    | none => none
    | some ch => if eccUncorrected (eccOf s ch errs) && (dramChs t a false).isEmpty then some 3 else none

/-- DESCRIPTOR_FETCH (R349, R357): `ue` says that an access ended uncorrected. A channel chosen for a descriptor that waits for a request was
not pending (R347), and gives the mover back. A fetch from a DRAM channel that holds it waits. -/
def fetchDesc (c : Nat) (ue : Option MoveErr) (s : State) : State :=
  if !isSet s (MCH_CH_CTL_CHAIN c) ∨ chState s c = 0 ∨ (mchOf s c).loaded then s
  else
    let v := getFld s (MCH_CH_CUR_LO_ADDR c) + 2 ^ 32 * getFld s (MCH_CH_CUR_HI_ADDR c)
    let space := v % 2
    let a := v / 128 * 128
    let sr := descRead space a s
    let s0 := match ue with
      | some e => if byteFail s space a ≠ 0 then s else memErr space (a + e.off % 128) c e.errs sr
      | none => sr
    let bad := (ue.bind (fun e => memErrKind space (a + e.off % 128) e.errs s s0)).isSome
    if space = 1 ∧ lineHeld s a false then s
    else if bad ∨ byteFail s space a ≠ 0 then
      let s1 := setEvt (0xE0 + c) MCH_EVT_END (setEvt (0xE0 + c) MCH_EVT_FETCH_ERR s0)
      chooseUnit (releaseMover c (idleCh c s1))
    else
      let b := (List.range 128).map (fun i => BitVec.ofNat 8 (readByte s space (a + i) i))
      let s1 := updMch c (fun _ => { loaded := true, off := 0, ended := none }) (setDesc c b (useFresh 128 s0))
      if chState s1 c ≠ 2 then chooseUnit s1
      else if noRequest s1 c then chooseUnit (releaseMover c (setFld (MCH_CH_STAT_STATE c) 1 s1))
      else startUnit c s1

def execDescriptorFetch (c : Nat) (ue : Option MoveErr) (s : State) : Host.Outcome State Fault Refusal := run (decide (c < 16)) (fetchDesc c ue s)

/-! ### Bursts (R351, R352) -/

/-- Bytes of the next burst: at most 256 of one run, contiguous on every side the operation uses. -/
def burstLen (b : List Byte) (p : Nat) : Nat :=
  let at0 := fun (d : Side) (i : Nat) => decide (byteAddr b d (p + i) = (byteAddr b d p + i) % 2 ^ 64)
  ((List.range 256).takeWhile (fun i => decide (p + i < dTotal b) && (decide (dOp b = 1) || at0 (srcSide b) i) && at0 (dstSide b) i)).length

/-- The accesses of n bytes from offset p on a memory side: none crosses a 64-byte line (R352). Each as its offset and its bytes. -/
def lineCuts (b : List Byte) (d : Side) (p n : Nat) : List (Nat × Nat) :=
  let starts := (List.range n).filter (fun i => decide (i = 0 ∨ byteAddr b d (p + i) % 64 = 0))
  starts.map (fun i => (i, min n (i + 64 - byteAddr b d (p + i) % 64) - i))

/-- The first failing access on a memory side, as its offset in the unit, with its kind. -/
def sideFail (s : State) (b : List Byte) (d : Side) (p n : Nat) : Option (Nat × Nat) :=
  if d.space = 2 then none
  else ((lineCuts b d p n).map (fun q => (p + q.1, byteFail s d.space (byteAddr b d (p + q.1))))).find? (fun q => decide (q.2 ≠ 0)) |>.map (fun q => (q.2, q.1))

/-- The function of a host side may be asked: present, and neither stopped nor under reset (R269, R277, Table MOVER-4). -/
def hostGone (s : State) (d : Side) : Bool := decide (d.space = 2) && (!isFunction s d.port d.func || (fnOf s d.port d.func).flr)
def hostHeld (s : State) (d : Side) : Bool := decide (d.space = 2) && !fnLive s d.port d.func

/-- The requests of a host read (R264). -/
def sideReqs (s : State) (b : List Byte) (d : Side) (p n : Nat) : List (Nat × Nat) :=
  cutReq (fnOf s d.port d.func).cfg.mrrs (n + 1) (byteAddr b d p) n

/-- A host read finds no room under the port's limit of outstanding requests (R264). -/
def hostFull (s : State) (b : List Byte) (d : Side) (p n : Nat) : Bool :=
  decide (d.space = 2) && decide (readLimit s d.port < readsOut s d.port + (sideReqs s b d p n).length)

/-- One of a side's DRAM accesses is held. -/
def dramHeld (s : State) (b : List Byte) (d : Side) (wr : Bool) (p n : Nat) : Bool :=
  decide (d.space = 1) && (lineCuts b d p n).any (fun q => lineHeld s (byteAddr b d (p + q.1)) wr)

/-- The bytes of a side, for n bytes from offset p: from memory, or what the host returned. -/
def sideRead (s : State) (b : List Byte) (d : Side) (p n salt : Nat) (h : HostRd) : List Nat :=
  if d.space = 2 then (match h with
    | .data x => (List.range n).map (byteAt x)
    | _ => [])
  else (List.range n).map (fun i => readByte s d.space (byteAddr b d (p + i)) (salt + i))

/-- The DRAM accesses of a side. -/
def touchDram (b : List Byte) (d : Side) (wr : Bool) (p n : Nat) (s : State) : State :=
  if d.space ≠ 1 then s
  else (lineCuts b d p n).foldl (fun t q => touchLine wr (byteAddr b d (p + q.1)) q.2 t) s

/-- A read of host memory for the Graver (R352): its requests, its bytes counted, its errors logged. -/
def hostFetch (b : List Byte) (d : Side) (p n : Nat) (h : HostRd) (s : State) : State :=
  if d.space ≠ 2 then s
  else
    let t := s.io.nextTag
    let s1 := (sideReqs s b d p n).foldl (fun u r => emit (.hostRead t d.port d.func r.1 r.2 false) u) (updIo (fun i => { i with nextTag := t + 1 }) s)
    readEnded d.port d.func t n h s1

/-- A side's reads are made: of the host, or of DRAM. -/
def sideFetch (b : List Byte) (d : Side) (p n : Nat) (h : HostRd) (s : State) : State := touchDram b d false p n (hostFetch b d p n h s)

/-- Write the bytes of a burst, up to a failing access. -/
def sideWrite (b : List Byte) (d : Side) (p : Nat) (v : List Nat) (s : State) : State :=
  if d.space = 2 then hostWrite d.port d.func (byteAddr b d p) (v.map (BitVec.ofNat 8)) false s
  else ((List.range v.length).zip v).foldl (fun (t : State) (q : Nat × Nat) => writeByte d.space (byteAddr b d (p + q.1)) q.2 t)
    (touchDram b d true p v.length s)

/-- Bytes moved are counted (Tables MOVER-6, MOVER-7). -/
def moved (c n : Nat) (s : State) : State :=
  add64 MOV_BYTES_LO_COUNT MOV_BYTES_HI_COUNT n (add64 (MCH_CH_BYTES_LO_COUNT c) (MCH_CH_BYTES_HI_COUNT c) n (updMch c (fun m => { m with off := m.off + n }) s))

/-- A burst that failed with a kind at an offset. -/
def badBurst (c k r : Nat) (s : State) : State := updMch c (fun y => { y with ended := some (k, r, false) }) s

/-- What the error `e` of a burst's side at offset `p` does. -/
def sideErr (b : List Byte) (d : Side) (c p : Nat) (e : MoveErr) (s : State) : State :=
  if d.space = 2 then s else memErr d.space (byteAddr b d (p + e.off)) c e.errs s

/-- The ERR_KIND of that error and the offset of the first byte of the access that failed. -/
def sideErrAt (b : List Byte) (d : Side) (p : Nat) (e : MoveErr) (s t : State) : Option (Nat × Nat) :=
  let a := byteAddr b d (p + e.off)
  if d.space = 2 then none else (memErrKind d.space a e.errs s t).map (fun k => (k, p + (e.off - a % 64)))

/-- The allowance of channel `c` under the rate limiter (R354), in quarters of a byte: a channel gains RATE of them in a CCLK cycle, up to 1,024. A
channel that has sent nothing yet has the whole allowance (DESIGN CHOICE, notes/assumptions/169.md). -/
def allowance (s : State) (c rate : Nat) : Nat :=
  match s.mover.allow.lookup c with
  | none => 1024
  | some (x, at0) => min 1024 (x + rate * (s.timeQ / 256 - at0))

/-- Takes the `n` bytes of a burst from its channel's allowance (R354). -/
def spendAllow (c : Nat) (b : List Byte) (n : Nat) (s : State) : State :=
  if dPace b = 1 then updMover (fun m => { m with allow := smSet m.allow c (allowance s c (dRate b) - 4 * n, s.timeQ / 256) }) s else s

/-- GRAVER_BURST: the running unit's next burst. `h1` and `h2` are what the host returns for the source and for the second source of a
COMPARE; `ue` is an error of an SRAM or DRAM read, that of a narrow DRAM write among them (R352, R355). A burst whose host function is stopped, whose
read finds no room, or whose DRAM channel holds it, waits. -/
def burst (h1 h2 : HostRd) (ue : Option MoveErr) (s : State) : State :=
  match s.mover.run with
  | none => s
  | some c =>
    let m := mchOf s c
    let b := descBytes s c
    if !m.loaded ∨ m.ended.isSome ∨ dTotal b ≤ m.off ∨ (dPace b = 2 ∧ getFld s (MCH_CH_REQ_HELD c) = 0) then s
    else
      let p := m.off
      let n := burstLen b p
      let src := srcSide b
      let dst := dstSide b
      let fill := decide (dOp b = 1)
      let cmp := decide (dOp b = 2)
      if (!fill && hostGone s src) || hostGone s dst then updMch c (fun y => { y with ended := some (6, p, false) }) s
      else if dPace b = 1 && decide (allowance s c (dRate b) < 4 * n) then s
      else if (!fill && (hostHeld s src || hostFull s b src p n || dramHeld s b src false p n)) || hostHeld s dst || (cmp && hostFull s b dst p n) ||
        dramHeld s b dst (!cmp) p n then s
      else
        let s0 := spendAllow c b n (if dPace b = 2 then decFld (MCH_CH_REQ_HELD c) 1 s else s)
        let s1 := useFresh 512 (if fill then s0 else sideFetch b src p n h1 s0)
        let s2 := if cmp then sideFetch b dst p n h2 s1 else s1
        let rdBad := (if fill then none else sideFail s b src p n).orElse (fun _ => if cmp then sideFail s b dst p n else none)
        let hostBad := (!fill && decide (src.space = 2) && (rdError h1).isSome) || (cmp && decide (dst.space = 2) && (rdError h2).isSome)
        let late := (ue.map MoveErr.dst).getD false || fill
        let side := if late then dst else src
        let s3 := match ue with
          | some e => sideErr b side c p e s2
          | none => s2
        match rdBad with
        | some (k, r) => badBurst c k r s2
        | none =>
          let x := if fill then (List.range n).map (fun i => bitsOf src.base (8 * (byteAddr b dst (p + i) % 8)) 8) else sideRead s b src p n 0 h1
          if hostBad then badBurst c 4 p s3
          else match ue.bind (fun e => sideErrAt b side p e s2 s3) with
            | some (k, r) =>
              if late && !cmp then badBurst c k r (moved c (r - p) (sideWrite b dst p (x.take (r - p)) s3)) else badBurst c k r s3
            | none =>
              if cmp then
                let y := sideRead s b dst p n 256 h2
                match (List.range n).find? (fun i => decide (x[i]? ≠ y[i]?)) with
                | some i => updMch c (fun z => { z with ended := some (0, p + i, true) }) s3
                | none => moved c n s3
              else match sideFail s b dst p n with
                | some (k, r) => badBurst c k r (moved c (r - p) (sideWrite b dst p (x.take (r - p)) s3))
                | none => moved c n (sideWrite b dst p x s3)

def execGraverBurst (h1 h2 : HostRd) (ue : Option MoveErr) (s : State) : Host.Outcome State Fault Refusal := run true (burst h1 h2 ue s)

/-- GRAVER_REQUEST_PULSE (R354): to each channel whose unit selects the source. -/
def execGraverRequestPulse (src : Nat) (s : State) : Host.Outcome State Fault Refusal :=
  run (decide (src < 72)) (chooseUnit ((List.range 16).foldl (fun t c =>
    let b := descBytes t c
    if chState t c = 0 ∨ !(mchOf t c).loaded ∨ dPace b ≠ 2 ∨ dReq b ≠ src then t
    else if getFld t (MCH_CH_REQ_HELD c) < 15 then incFld (MCH_CH_REQ_HELD c) 1 t
    else satFld (MCH_CH_REQ_CH_REQ_LOST c) 1 t) s))

/-- GRAVER_HOLD_TIMEOUT (R355, R356): the running unit's host request has been held too long. -/
def execGraverHoldTimeout (s : State) : Host.Outcome State Fault Refusal :=
  run true (match s.mover.run with
    | none => s
    | some c =>
      let b := descBytes s c
      if (mchOf s c).loaded ∧ ((dOp b ≠ 1 ∧ hostHeld s (srcSide b)) ∨ hostHeld s (dstSide b)) then cutUnit c 5 s else s)

/-- A reset of functions of a port during a unit that uses one of them ends the unit (Table MOVER-4 kind 6). -/
def moverReset (port : Nat) (fs : List Nat) (s : State) : State :=
  match s.mover.run with
  | none => s
  | some c =>
    let b := descBytes s c
    let hit := fun (d : Side) => decide (d.space = 2 ∧ d.port = port ∧ d.func ∈ fs)
    if (mchOf s c).loaded ∧ ((dOp b ≠ 1 ∧ hit (srcSide b)) ∨ hit (dstSide b)) then cutUnit c 6 s else s

/-- GRAVER_UNIT_END (R348, R355, R359): a unit of the device's own whose work is gone just ends; of another, STATUS and RESULT are written, then the events; the next channel is chosen. A
unit whose write-back a DRAM channel holds has not ended. -/
def unitEnd (s : State) : State :=
  match s.mover.run with
  | none => s
  | some c =>
    let m := mchOf s c
    let b := descBytes s c
    let cur := getFld s (MCH_CH_CUR_LO_ADDR c) + 2 ^ 32 * getFld s (MCH_CH_CUR_HI_ADDR c)
    let chain := isSet s (MCH_CH_CTL_CHAIN c)
    if !m.loaded ∧ !chain then ownDone c s
    else if !m.loaded ∨ (m.ended.isNone ∧ m.off < dTotal b) then s
    else if chain ∧ cur % 2 = 1 ∧ lineHeld s (cur / 128 * 128) true then s
    else
      let e := m.ended.getD (0, 0, false)
      let isBad := decide (e.1 ≠ 0)
      let st := 1 + (if isBad then 2 else 0) + (if e.2.2 then 4 else 0) + 2 ^ 8 * e.1
      let s1 := setFld (CH_DESC c 1) st (setFld (CH_DESC c 18) (e.2.1 % 2 ^ 32) (setFld (CH_DESC c 19) (e.2.1 / 2 ^ 32) s))
      let put := fun (o : Nat) => descWrite (cur % 2) (cur / 128 * 128 + o)
      let s2 := if chain then put 0x48 (leBytes e.2.1 8) (put 4 (leBytes st 4) s1) else s1
      let stop := !chain || dLast b || decide (e.1 = 8 ∨ e.1 = 9)
      let s3 := incFld (MCH_CH_DONE_COUNT c) 1 (if isBad then setEvt (0xE0 + c) MCH_EVT_BAD (incFld (MCH_CH_BADS_COUNT c) 1 s2) else s2)
      let s4 := if e.2.2 then setEvt (0xE0 + c) MCH_EVT_MISMATCH s3 else s3
      let s5 := if stop || dIrq b then setEvt (0xE0 + c) MCH_EVT_END s4 else s4
      let next := leAt b 0x40 8
      let s6 := if stop then idleCh c s5
        else setFld (MCH_CH_STAT_STATE c) 1 (setFld (MCH_CH_CUR_LO_ADDR c) (next % 2 ^ 32) (setFld (MCH_CH_CUR_HI_ADDR c) (next / 2 ^ 32)
          (updMch c (fun _ => MCh.reset) s5)))
      chooseUnit (releaseMover c s6)

def execGraverUnitEnd (s : State) : Host.Outcome State Fault Refusal := run true (unitEnd s)

end Sys2Proof.Machine
end

