-- ==== Sys2Proof/Machine/Host.lean ====
section
/-! DEFINITION. The host endpoints' commands: links (R253, R274), bus-master enable (R269, R225), function-level reset (R226, R271 to
R273), virtual functions (R255, R256), power states (R276 to R280), masked messages (R261) and error reports (R281). -/

namespace Sys2Proof.Machine
open Reg

/-! ### Stopping and resuming a function (R225, R269) -/

/-- The contexts bound to functions of a port. -/
def ctxsIn (s : State) (port : Nat) (fs : List Nat) : List Nat :=
  (List.range 4096).filter (fun c => isSet s (CTX_BIND_VALID c) && decide (ctxPort s c = port) && decide (ctxFunc s c ∈ fs))

/-- The contexts of stopped functions take PAUSE_BME. -/
def pauseFns (port : Nat) (fs : List Nat) (s : State) : State :=
  (ctxsIn s port (fs.filter (fnOff s port))).foldl (fun t c => if ctxState t c ∈ [2, 3, 4] then pauseCause c (CTX_STAT_PAUSE_BME c) t else t) s

/-- Post a held completion entry. -/
def postHeld (n : Nat) (s : State) : State :=
  match cmdOf s n with
  | some x => postEntry n ((x.fail.map Prod.snd).getD .ok) x.detail x.result s
  | none => s

/-- Functions that may issue again send what is held, completion entries among it, in its order; their reads are issued again and
their rings resume. -/
def resumeFns (port : Nat) (fs : List Nat) (s : State) : State :=
  let live := fs.filter (fnLive s port)
  let s1 := live.foldl (fun t f =>
    let held := (fnOf t port f).held
    unpinFn port f (held.foldl (fun u o => match o with
      | .entryDue n => postHeld n u
      | _ => sendPosted port o u) (updFn port f (fun y => { y with held := [] }) t))) s
  pumpReads ((ctxsIn s1 port live).foldl (fun t c => unpauseCause c (CTX_STAT_PAUSE_BME c) t) s1)

/-- Some request of a function is outstanding: a read issued, or a posted write held. -/
def fnBusy (s : State) (port func : Nat) : Bool :=
  s.io.hreads.any (fun q => decide (q.2.port = port ∧ q.2.func = func) && q.2.sent && !q.2.late) || decide ((fnOf s port func).held ≠ [])

def showPf (port : Nat) (s : State) : State := setFlag (HEP_FUNCS_PF_BME port) (fnOf s port 0).bme s

def bmeClear (port func : Nat) (s : State) : State :=
  let x := fnOf s port func
  if x.flr ∨ !x.bme then s
  else
    let s1 := showPf port (updFn port func (fun y => { y with bme := false }) s)
    pauseFns port [func] (if fnBusy s port func then setEvt (0x10 + port) HEP_EVT_BME_OFF s1 else s1)

/-- Every pending vector that is no longer masked is sent once, as a message due then (R261 to R263). -/
def sendPending (port func : Nat) (s : State) : State :=
  let x := fnOf s port func
  let due := x.pba.filter (fun v => !x.masked v)
  due.foldl (fun t v => hostMsg port func v t) (updFn port func (fun y => { y with pba := y.pba.filter (fun v => y.masked v) }) s)

/-- Bus Master Enable is set, with the configuration registers as host software has written them by then; a mask that it has cleared lets the
pending messages go. -/
def bmeSet (port func : Nat) (cfg : FnCfg) (s : State) : State :=
  sendPending port func (resumeFns port [func] (showPf port (updFn port func (fun y =>
    { y with bme := true, cfg := cfg, pme := y.pme && !cfg.pmeClr, aer := if cfg.aerClr then [] else y.aer, first := if cfg.aerClr then none else y.first }) s)))

/-! ### Function-level reset (R226, R271 to R273) -/

/-- A consumed command ends by reset: what has not taken effect is dropped, no entry is written (R62, R226). It counts in
COMMANDS, its blocks already on the members count in BYTES_WRITTEN, and those of its other segments count as each is COMMITTED (Table TENANT-4). -/
def abortCmd (n : Nat) (s : State) : State :=
  match cmdOf s n with
  | none => s
  | some x =>
    let own := fun (e : JEntry) => decide (e.seg.cmd = n ∧ e.seg.src = .host ∧ e.path ≠ .cache ∧ e.state ≠ .committed) && !e.seg.dealloc
    let wait := ((s.io.journal.filter (fun q => own q.2 && q.2.posted)).map (fun q => q.2.seg.wset.length)).sum
    let s1 := updIo (fun i => { i with journal := i.journal.map (fun q => if own q.2 then (q.1, { q.2 with owed := true }) else q) })
      (meterCmd x.ctx { x with rdBlks := 0, wrBlks := x.wrBlks - wait } s)
    dropUnstaged n (satFld (CTX_DISCARD_ABORTS x.ctx) 1 (decFld (CTX_OUT_OUTSTANDING x.ctx) 1 (updIo (fun i => { i with cmds := smDel i.cmds n }) s1)))

/-- A context enters RESETTING. -/
def ctxReset (c : Nat) (s : State) : State :=
  let ns := (s.io.cmds.filter (fun q => decide (q.2.ctx = c))).map Prod.fst
  updCtx c (fun x => { x with vis := [], fetching := 0, unsig := 0, got := [] })
    (ns.foldl (fun t n => abortCmd n t) (setFld (CTX_STAT_STATE c) 5 s))

/-- A context's reset completes (R226). -/
def ctxRestart (c : Nat) (s : State) : State :=
  if ctxState s c ≠ 5 then s
  else
    let z := [CTX_SQ_IDX_HEAD c, CTX_SQ_IDX_TAIL c, CTX_CQ_IDX_TAIL c, CTX_CQ_IDX_HEAD c, CTX_ERR_VALUE c, CTX_ERR_CAUSE c,
      CTX_STAT_PAUSE_HOST c, CTX_STAT_PAUSE_BME c, CTX_CTL_RUN c].foldl (fun t f => setFld f 0 t) s
    setEvt (0x1000 + c) CTX_EVT_RESET_DONE (setFld (CTX_STAT_STATE c) 1 (setFld (CTX_STAT_PHASE c) 1 z))

/-- The reset of a context with its function ends; it releases the page's fence (Tables RING-19, FAULT-4). -/
def ctxResetEnd (c : Nat) (s : State) : State := if ctxState s c ≠ 5 then s else ctxRestart c (clearFence (0x1000 + c) s)

/-- Functions begin a reset: no new request, held writes discarded, later completions dropped (Sequence HOST-2). One already being
reset absorbs it (R273). -/
def resetFns (port : Nat) (fs : List Nat) (s : State) : State :=
  let new := fs.filter (fun f => !(fnOf s port f).flr)
  let s1 := new.foldl (fun t f => updFn port f (fun y => { y with flr := true, held := [] }) t) s
  let s2 := updIo (fun i => { i with hreads := i.hreads.filterMap (fun q =>
    if q.2.port = port ∧ q.2.func ∈ new then (if q.2.sent then some (q.1, { q.2 with late := true }) else none) else some q) }) s1
  let s3 := new.foldl (fun t f => unpinFn port f t) (moverReset port new ((ctxsIn s2 port new).foldl (fun t c => ctxReset c t) s2))
  if 0 ∈ new then
    let s4 := satFld (HEP_FLR_PF port) 1 (sessionEnd port 2 s3)
    if port = 0 then setFld MTR_CFG_EN 0 s4 else s4
  else satFld (HEP_FLR_VF port) new.length s3

/-- The reset of a PF takes every VF of it; the reset of a VF is its own. -/
def flrStart (port func : Nat) (s : State) : State :=
  if func = 0 then setFld (HEP_FUNCS_VF_EN port) 0 (resetFns port (functions s port) s)
  else if isFunction s port func then resetFns port [func] s else s

/-- The configuration registers of a function take their reset values; the sticky error records stay (R272). -/
def fnCleared (x : HFn) : HFn := { HFn.reset with aer := x.aer, first := x.first }

/-- The reset of a function ends; that of a PF ends its VFs' too. -/
def flrEnd (port func : Nat) (s : State) : State :=
  if !(fnOf s port func).flr ∨ (func ≠ 0 ∧ (fnOf s port 0).flr) then s
  else
    let fs := if func = 0 then (s.host.fns.filter (fun q => decide (q.1 / 1024 = port) && q.2.flr)).map (fun q => q.1 % 1024) else [func]
    let s1 := fs.foldl (fun t f => updFn port f fnCleared t) s
    let s2 := (ctxsIn s1 port fs).foldl (fun t c => ctxResetEnd c t) s1
    let s3 := if func = 0 then
        onlyIf (inD3 s port) (setEvt (0x10 + port) HEP_EVT_D_STATE)
          (showPf port (setFld (HEP_FUNCS_NUMVFS port) 0 (setFld (HEP_FUNCS_VF_EN port) 0 (setFld (HEP_FUNCS_ARI port) 0 (setFld (HEP_FUNCS_PF_DSTATE port) 0 s2)))))
      else s2
    setEvt (0x10 + port) HEP_EVT_FLR s3

/-- PERST#, a hot reset and a link down reset every function of the port, and release a fence of its endpoint (R274, Table HOST-9).
After READY configuration requests are retried for a while. -/
def portReset (port : Nat) (s : State) : State :=
  let s1 := flrStart port 0 (clearFence (0x10 + port) s)
  if devReady s then updHost (fun h => { h with crs := if port ∈ h.crs then h.crs else h.crs ++ [port] }) s1 else s1

/-! ### The commands -/

/-- HOST_LINK_UP (R253, R403): the width is one the port supports; a link trains once PERST# is deasserted and P5 has begun. -/
def execHostLinkUp (port speed width : Nat) (reversed : Bool) (s : State) : Host.Outcome State Fault Refusal :=
  run (decide (port < 2 ∧ 1 ≤ speed ∧ speed ≤ 5 ∧ width ∈ [1, 4, 8, 16]))
    (let was := linkUp s port
     let chg := was && (decide (getFld s (HEP_LINK_SPEED port) ≠ speed) || decide (getFld s (HEP_LINK_WIDTH port) ≠ width))
     let s1 := setFld (HEP_LINK_SPEED port) speed (setFld (HEP_LINK_WIDTH port) width (setFlag (HEP_LINK_REVERSED port) reversed s))
     let s2 := updHost (fun h => { h with up := if port ∈ h.up then h.up else h.up ++ [port], l2 := h.l2.filter (· ≠ port) }) s1
     if decide (port ∈ s.host.perst) || decide ((0x10 + port) ∈ s.pwr.dead) || decide (getFld s CHIP_DEV_STAT_PHASE < 5) then s
     else if chg then setEvt (0x10 + port) HEP_EVT_RATE_CHG s2
     else if was then s2
     else pumpReads (setEvt (0x10 + port) HEP_EVT_LINK_UP s2))

/-- A host port's link goes down (R274). -/
def hostDown (port : Nat) (s : State) : State :=
  let s1 := [HEP_LINK_SPEED port, HEP_LINK_WIDTH port, HEP_LINK_IN_L1 port, HEP_LINK_IN_L12 port, HEP_LINK_REVERSED port].foldl (fun t f => setFld f 0 t) s
  let s2 := updHost (fun h => { h with up := h.up.filter (· ≠ port), l2 := h.l2.filter (· ≠ port), l11 := h.l11.filter (· ≠ port) }) s1
  if linkUp s port || decide (port ∈ s.host.l2) then
    ltrSync (portReset port) (setEvt (0x10 + port) HEP_EVT_LINK_DOWN (incFld (HEP_DOWN_COUNT port) 1 s2))
  else s

/-- HOST_LINK_DOWN (R274). -/
def execHostLinkDown (port : Nat) (s : State) : Host.Outcome State Fault Refusal := run (decide (port < 2)) (hostDown port s)

/-- PERST_ASSERT (R274, R403). -/
def execPerstAssert (port : Nat) (s : State) : Host.Outcome State Fault Refusal :=
  run (decide (port < 2)) (ltrSync (portReset port) (updHost (fun h => { h with
    perst := if port ∈ h.perst then h.perst else h.perst ++ [port], crs := if port ∈ h.crs then h.crs else h.crs ++ [port] }) s))

/-- HOT_RESET (R274). -/
def execHotReset (port : Nat) (s : State) : Host.Outcome State Fault Refusal :=
  run (decide (port < 2)) (onlyIf (linkUp s port) (ltrSync (portReset port)) s)

/-- FUNCTION_LEVEL_RESET (R271): the completion of the configuration write goes out before the reset begins. -/
def execFunctionLevelReset (port func : Nat) (s : State) : Host.Outcome State Fault Refusal :=
  run (decide (port < 2 ∧ func < 1024)) (onlyIf (isFunction s port func)
    (cfgWrite port func 0x78 (fun t => ltrSync (flrStart port func) (emit (.pcie port .cfgDone func) t))) s)

/-- FLR_END (R271, R272). -/
def execFlrEnd (port func : Nat) (s : State) : Host.Outcome State Fault Refusal :=
  run (decide (port < 2 ∧ func < 1024)) (flrEnd port func s)

/-- BUS_MASTER_ENABLE_CLEAR (R269). -/
def execBusMasterEnableClear (port func : Nat) (s : State) : Host.Outcome State Fault Refusal :=
  run (decide (port < 2 ∧ func < 1024)) (onlyIf (isFunction s port func) (cfgWrite port func 4 (ltrSync (bmeClear port func))) s)

/-- BUS_MASTER_ENABLE_SET (R269). -/
def execBusMasterEnableSet (port func : Nat) (cfg : FnCfg) (s : State) : Host.Outcome State Fault Refusal :=
  run (decide (port < 2 ∧ func < 1024)) (onlyIf (isFunction s port func) (cfgWrite port func 4 (ltrSync (bmeSet port func cfg))) s)

/-- VF_ENABLE_SET (R255): NumVFs above 1,023, or while VF Enable is 1, stays as it was. -/
def execVfEnableSet (port numVfs : Nat) (ctl : VfCtl) (s : State) : Host.Outcome State Fault Refusal :=
  run (decide (port < 2)) (cfgWrite port 0 0x308 (fun t =>
    if isSet t (HEP_FUNCS_VF_EN port) then t
    else
      let t1 := if numVfs ≤ 1023 then setFld (HEP_FUNCS_NUMVFS port) numVfs t else t
      setFld (HEP_FUNCS_VF_EN port) 1 (setFlag (HEP_FUNCS_ARI port) ctl.ari (updFn port 0 (fun y => { y with cfg := { y.cfg with vfMse := ctl.mse } }) t1))) s)

/-- VF_ENABLE_CLEAR (R256): every VF is reset, and ceases to exist. -/
def execVfEnableClear (port : Nat) (s : State) : Host.Outcome State Fault Refusal :=
  run (decide (port < 2)) (onlyIf (isSet s (HEP_FUNCS_VF_EN port)) (cfgWrite port 0 0x308
    (ltrSync (fun t => setFld (HEP_FUNCS_VF_EN port) 0 (resetFns port ((functions t port).filter (· ≠ 0)) t)))) s)

/-- An interrupt message of a function of the port is held. -/
def msgHeld (port : Nat) (s : State) : Bool :=
  s.host.fns.any (fun q => decide (q.1 / 1024 = port) && q.2.held.any (fun o => match o with | .msi .. => true | _ => false))

/-- D3HOT_ENTRY (R277); a message held by then wakes the host as one held later does (R278). -/
def execD3hotEntry (port : Nat) (s : State) : Host.Outcome State Fault Refusal :=
  run (decide (port < 2)) (onlyIf (!inD3 s port) (cfgWrite port 0 0x44 (ltrSync (fun t =>
    onlyIf (msgHeld port s) (wakeHost port) (pauseFns port (functions t port) (setEvt (0x10 + port) HEP_EVT_D_STATE (setFld (HEP_FUNCS_PF_DSTATE port) 3 t)))))) s)

/-- D0_RETURN (R277). -/
def execD0Return (port : Nat) (s : State) : Host.Outcome State Fault Refusal :=
  run (decide (port < 2)) (onlyIf (inD3 s port && linkUp s port) (cfgWrite port 0 0x44 (ltrSync (fun t =>
    resumeFns port (functions t port) (setEvt (0x10 + port) HEP_EVT_D_STATE (setFld (HEP_FUNCS_PF_DSTATE port) 0 t))))) s)

/-- PME_TURN_OFF (R279): posted writes not held are sent as they arise, so the acknowledgement follows at once; the link then enters L2
or L3, and a PF in D3hot is in D3cold, where PME_Status drives HPn_WAKE# (R278). -/
def execPmeTurnOff (port : Nat) (s : State) : Host.Outcome State Fault Refusal :=
  run (decide (port < 2)) (onlyIf (linkUp s port) (fun t =>
    let t1 := emit (.pcie port .pmeToAck 0) t
    let t2 := updHost (fun h => { h with up := h.up.filter (· ≠ port), l2 := h.l2 ++ [port], l11 := h.l11.filter (· ≠ port) }) t1
    let t3 := setFld (HEP_LINK_SPEED port) 0 (setFld (HEP_LINK_WIDTH port) 0 (setFld (HEP_LINK_IN_L1 port) 0 (setFld (HEP_LINK_IN_L12 port) 0 t2)))
    if getFld t (HEP_FUNCS_PF_DSTATE port) = 3 then
      onlyIf (fnOf t port 0).pme (emit (.pcie port .wake 0)) (setEvt (0x10 + port) HEP_EVT_D_STATE (setFld (HEP_FUNCS_PF_DSTATE port) 2 t3))
    else t3) s)

/-- HOST_L1_ENTRY (R279): L1.1 and L1.2 as far as the L1 PM Substates capability enables them. -/
def execHostL1Entry (port : Nat) (sub : L1Sub) (s : State) : Host.Outcome State Fault Refusal :=
  run (decide (port < 2)) (onlyIf (linkUp s port && (fnOf s port 0).cfg.aspmL1 && !isSet s (HEP_LINK_IN_L1 port)) (fun t =>
    let c := (fnOf s port 0).cfg
    let t1 := updHost (fun h => { h with l11 := if sub = .l11 ∧ c.l11 then port :: h.l11.filter (· ≠ port) else h.l11.filter (· ≠ port) }) t
    emit (.pcie port .l1Request 0) (setFlag (HEP_LINK_IN_L12 port) (decide (sub = .l12) && c.l12) (setFld (HEP_LINK_IN_L1 port) 1 t1))) s)

/-- MSIX_UNMASK (R261, R262): the mask bit of an entry, or the Function Mask, clears. -/
def execMsixUnmask (port func : Nat) (entry : Option Nat) (s : State) : Host.Outcome State Fault Refusal :=
  run (decide (port < 2 ∧ func < 1024)) (onlyIf (isFunction s port func && !(fnOf s port func).flr) (fun t =>
    sendPending port func (updFn port func (fun y => match entry with
      | none => { y with cfg := { y.cfg with fmask := false } }
      | some v =>
        { y with table := smSet y.table (4 * v + 3) (smGetD y.table (4 * v + 3) 1 / 2 * 2)
                 cfg := { y.cfg with msiMask := y.cfg.msiMask.filter (· ≠ v) } }) t)) s)

/-- LINK_LAYER_ERROR (R281): errors of the physical and data-link layers are logged in the PF alone; an internal one is reported to the
fault collector as well (Table HOST-7). An inbound access that the error refuses or discards is counted (R282); a read that fails by ECRC ends in the row
of its completion. -/
def execLinkLayerError (port func : Nat) (e : Aer) (s : State) : Host.Outcome State Fault Refusal :=
  run (decide (port < 2 ∧ func < 1024))
    (let onPf := decide (e ∉ [.ecrc, .poisoned, .completerAbortSent, .unsupportedSent, .unexpectedCompletion, .completerAbortReceived,
       .unsupportedReceived, .completionTimeout])
     let s1 := aerLog port (if onPf then 0 else func) e s
     if e ∈ [Aer.ecrc, .poisoned, .completerAbortSent] then incFld (HEP_INBOUND_ERR_COUNT port) 1 s1
     else if e = .correctedInternal then report 0x01 (0x10 + port) 0 s1
     else if e = .uncorrectableInternal then report 0x0D (0x10 + port) 0 s1
     else s1)

/-- CONFIG_RETRY_END (R274, R403): 80 ms after PERST# deassertion or link up, once P5 has set up configuration space. -/
def execConfigRetryEnd (port : Nat) (s : State) : Host.Outcome State Fault Refusal :=
  run (decide (port < 2)) (if port ∈ s.host.perst ∨ getFld s CHIP_DEV_STAT_PHASE < 6 then s
    else updHost (fun h => { h with crs := h.crs.filter (· ≠ port) }) s)

end Sys2Proof.Machine
end

