-- ==== Sys2Proof/Machine/Icu.lean ====
section
/-! DEFINITION. The interrupt controller (chapter 15): source lines, pending state, delivery to the cores and to the host. -/

namespace Sys2Proof.Machine
open Reg

def updIcu (f : IcuSt → IcuSt) (s : State) : State := { s with icu := f s.icu }

/-! ### Lines (R363) -/

/-- The line of a page, restricted to some of its event bits. -/
def pageLine (s : State) (p mask : Nat) : Bool :=
  decide (getFld s (PG_EVT_EVT p) &&& getFld s (PG_EVT_EN_EN p) &&& mask ≠ 0)

/-- Every bit of a page. -/
def allEvts : Nat := 0xFFFFFFFF

/-- The contexts bound to a host port. -/
def ctxsOn (s : State) (port : Nat) : List Nat :=
  (List.range 4096).filter (fun c => isSet s (CTX_BIND_VALID c) && decide (getFld s (CTX_BIND_PORT c) = port))

/-- The lowest context of a port whose page holds an enabled event (R363, ICU_CTX_FIRST). -/
def ctxFirst (s : State) (port : Nat) : Option Nat := (ctxsOn s port).find? (fun c => pageLine s (0x1000 + c) allEvts)

/-- The line of a source that a page or a flag drives (Table IRQ-1); none for one that comes from outside. -/
def drivenLine (s : State) (src : Nat) : Option Bool :=
  if src = 1 then some (isSet s PWR_STAT_VDD_WARN)
  else if src = 2 then some (isSet s PWR_STAT_VDDIO_WARN)
  else if src = 3 then some (isSet s PWR_STAT_VIN_WARN)
  else if src = 4 then some (isSet s PWR_STAT_PWRFAIL)
  else if src = 6 then some (pageLine s 7 allEvts)
  else if src = 10 then some (isSet s CLK_ALARM_CTL_FIRED0)
  else if src = 11 then some (isSet s CLK_ALARM_CTL_FIRED1)
  else if src < 15 then none
  else if 32 ≤ src ∧ src ≤ 33 then some (pageLine s (0x10 + (src - 32)) allEvts)
  else if 34 ≤ src ∧ src ≤ 35 then some (ctxFirst s (src - 34)).isSome
  else if 64 ≤ src ∧ src < 128 then
    some (pageLine s (0x80 + (src - 64)) allEvts || (decide (src % 16 = 0) && pageLine s (0xC0 + (src - 64) / 16) allEvts))
  else if 128 ≤ src ∧ src < 136 then some (pageLine s (0xC8 + (src - 128)) allEvts)
  else if 136 ≤ src ∧ src < 140 then some (pageLine s (0x20 + (src - 136)) (allEvts - 2 ^ DMC_EVT_UE))
  else if 140 ≤ src ∧ src < 144 then some (pageLine s (0x20 + (src - 140)) (2 ^ DMC_EVT_UE))
  else if 144 ≤ src ∧ src < 160 then some (pageLine s (0xE0 + (src - 144)) allEvts)
  else if 160 ≤ src ∧ src < 168 then some (pageLine s (0x30 + (src - 160)) allEvts)
  else if 168 ≤ src ∧ src < 174 then some (pageLine s (([0x2B, 0x2A, 0x28, 0x29, 0x39, 0x38][src - 168]?).getD 0) allEvts)
  else if 174 ≤ src ∧ src < 178 then some ((List.range 16).any (fun i => pageLine s (0x40 + 16 * (src - 174) + i) allEvts))
  else if src = 192 then some (pageLine s 4 0x103)
  else if src = 193 then some (pageLine s 4 0x0FC)
  else if src = 194 then some (pageLine s 6 allEvts)
  else if src = 195 then some (pageLine s 3 allEvts)
  else if 196 ≤ src ∧ src < 200 then some (pageLine s (0x110 + (src - 196)) allEvts)
  else if src = 224 then some (pageLine s 0x100 allEvts)
  else if src = 225 then some (pageLine s 0x101 allEvts)
  else if src = 226 then some (pageLine s 0xD0 allEvts)
  else if src = 227 then some (pageLine s 0 allEvts || pageLine s 1 allEvts || pageLine s 2 allEvts)
  else some false

/-- The line of a source now. -/
def lineNow (s : State) (src : Nat) : Bool := (drivenLine s src).getD (decide (src ∈ s.icu.lines))

/-! ### Pending (R364 to R366) -/

def sense (s : State) (src : Nat) : Nat := getFld s (ICU_SRC_CFG_SENSE src)

/-- The source has an edge latch: an edge sense, or a software source. -/
def isEdge (s : State) (src : Nat) : Bool := decide (2 ≤ sense s src) || decide (240 ≤ src)

/-- The bit of ICU_AON_LATCH.LATCH that shows a source of 1 to 31. -/
def aonBit (src : Nat) : Nat := 2 ^ (src - 1)

def latched (s : State) (src : Nat) : Bool :=
  if src < 32 then decide (1 ≤ src) && (getFld s ICU_AON_LATCH_LATCH).testBit (src - 1) else decide (src ∈ s.icu.latches)

def setLatch (src : Nat) (s : State) : State :=
  if src < 32 then setFld ICU_AON_LATCH_LATCH (getFld s ICU_AON_LATCH_LATCH ||| aonBit src) s
  else updIcu (fun t => { t with latches := if src ∈ t.latches then t.latches else t.latches ++ [src] }) s

def clearLatch (src : Nat) (s : State) : State :=
  if src < 32 then (if latched s src then setFld ICU_AON_LATCH_LATCH (getFld s ICU_AON_LATCH_LATCH - aonBit src) s else s)
  else updIcu (fun t => { t with latches := t.latches.filter (· ≠ src) }) s

/-- The level a level-sensed source asks for is on its line. -/
def levelOn (s : State) (src : Nat) : Bool := lineNow s src == decide (sense s src = 0)

/-- The source is pending. A level that began while clocks were stopped is pending until ICU_AON_LATCH is cleared (R366). -/
def isPending (s : State) (src : Nat) : Bool :=
  decide (1 ≤ src ∧ src < 256) && (if isEdge s src then latched s src else levelOn s src || (decide (src < 32) && latched s src))

def claimed (s : State) (src : Nat) : Bool := (smGet s.icu.claims src).isSome

def eligible (s : State) (src : Nat) : Bool := isPending s src && isSet s (ICU_SRC_CFG_EN src) && !claimed s src

/-- Moderation still holds the source back; with MOD 0 nothing does (R369). -/
def modHeld (s : State) (src : Nat) : Bool := decide (src ∈ s.icu.held) && decide (getFld s (ICU_SRC_CFG_MOD src) ≠ 0)

/-- After a claim of a source whose MOD is not zero it is moderated (R369). -/
def moderate (src : Nat) (s : State) : State :=
  if getFld s (ICU_SRC_CFG_MOD src) = 0 then s
  else updIcu (fun t => { t with held := if src ∈ t.held then t.held else t.held ++ [src] }) s

/-! ### Delivery to the host (R371) -/

/-- The message of a source: through MSI-X, or MSI where the source asks for it, as far as that is what the function uses (R261 to R263). -/
def sendSource (src : Nat) (s : State) : State :=
  let port := getFld s (ICU_SRC_HOST_PORT src)
  let func := getFld s (ICU_SRC_HOST_FUNC src)
  let wantMsi := isSet s (ICU_SRC_HOST_MSI src) && decide (func = 0)
  let x := (fnOf s port func).cfg
  let fits := isFunction s port func && (if wantMsi then !x.msix && x.msi.isSome else x.msix)
  if fits then hostMsg port func (getFld s (ICU_SRC_HOST_ENTRY src)) s else incFld (HEP_IRQ_NONE_COUNT port) 1 s

/-- The source is due for its message: an edge it latched, or a level that has begun and was not sent. -/
def hostDue (s : State) (src : Nat) : Bool :=
  isSet s (ICU_SRC_CFG_HOST src) && eligible s src && (isEdge s src || decide (src ∈ s.icu.begun)) && !modHeld s src

/-- A message counts as a claim and an EOI together. -/
def hostSend (src : Nat) (s : State) : State :=
  if hostDue s src then
    moderate src (incFld ICU_DELIVERED_COUNT 1 (updIcu (fun t => { t with begun := t.begun.filter (· ≠ src) })
      (if isEdge s src then clearLatch src (sendSource src s) else sendSource src s)))
  else s

/-- Send what is due to the host, by source number; nothing while the page is disabled (Table IRQ-4). -/
def icuHost (s : State) : State :=
  if enabled s 5 then (List.range 256).foldl (fun t src => if isSet t (ICU_SRC_CFG_HOST src) then hostSend src t else t) s else s

/-! ### Delivery to a core (R367 to R370) -/

def corePowered (s : State) (n : Nat) : Bool := isSet s (MGC_STAT_POWERED n)

def coreWfi (s : State) (n : Nat) : Bool := isSet s (MGC_STAT_WFI n)

/-- The running priority of a core. -/
def runPrio (s : State) (n : Nat) : Nat := s.icu.claims.foldl (fun a q => if q.2.1 = n then max a q.2.2 else a) 0

/-- ICU_COREn.RUN_PRIO follows the claims. -/
def showPrio (s : State) : State := (List.range 4).foldl (fun t n => setFld (ICU_CORE_RUN_PRIO n) (runPrio t n) t) s

/-- The core a source is routed to: CORE, or where the fallback took it. -/
def targetOf (s : State) (src : Nat) : Nat := (smGet s.icu.moved src).getD (getFld s (ICU_SRC_CFG_CORE src))

/-- The source can be delivered to its target, powered or not. -/
def deliverable (s : State) (src : Nat) : Bool :=
  let n := targetOf s src
  let prio := getFld s (ICU_SRC_CFG_PRIO src)
  enabled s 5 && !isSet s (ICU_SRC_CFG_HOST src) && eligible s src && decide (bitsOf (getFld s ICU_THR_THR) (4 * n) 4 < prio) &&
  decide (runPrio s n < prio) && (!modHeld s src || coreWfi s n)

/-- The source offered to a core: of those deliverable the highest PRIO, the lowest number among equals. -/
def offerOf (s : State) (n : Nat) : Option Nat :=
  if corePowered s n then
    (List.range 256).foldl (fun (a : Option Nat) src =>
      if decide (targetOf s src = n) && deliverable s src then
        match a with
        | none => some src
        | some b => if getFld s (ICU_SRC_CFG_PRIO b) < getFld s (ICU_SRC_CFG_PRIO src) then some src else a
      else a) none
  else none

/-- A claim ends (R368). -/
def endClaim (src : Nat) (s : State) : State := showPrio (updIcu (fun t => { t with claims := smDel t.claims src }) s)

/-- The address at which a core enters for a source (R368). -/
def vecAddr (s : State) (src : Nat) : Nat := 2 ^ 32 * getFld s ICU_VEC_BASE_HI_ADDR + 2 ^ 12 * getFld s ICU_VEC_BASE_LO_ADDR + 16 * src

/-- The core accepts its offer. `gone` says that a level line no longer asserts when the vector is fetched; the core then gets the entry of
source 0 (R368). -/
def claimIrq (n : Nat) (gone : Bool) (s : State) : State :=
  match offerOf s n with
  | none => s
  | some src =>
    let edge := isEdge s src
    let off := !edge && (gone || !levelOn s src)
    let s1 := updIcu (fun t => { t with claims := smSet t.claims src (n, getFld s (ICU_SRC_CFG_PRIO src)), moved := smDel t.moved src }) s
    let s2 := moderate src (if edge then clearLatch src s1 else s1)
    let s3 := setFld (MGC_STAT_WFI n) 0 (setFld (ICU_CORE_LAST n) src (incFld ICU_DELIVERED_COUNT 1 (showPrio s2)))
    if off then emit (.core n (vecAddr s 0)) (setEvt 5 ICU_EVT_SPURIOUS (incFld ICU_SPURIOUS_COUNT 1 (endClaim src s3))) else emit (.core n (vecAddr s src)) s3

/-- A core is powered off: its claims end as by EOI, and what it had claimed of edges is pending again (Table IRQ-2). -/
def coreOff (n : Nat) (s : State) : State :=
  let mine := s.icu.claims.filter (fun q => decide (q.2.1 = n))
  let s1 := mine.foldl (fun t q => let t1 := endClaim q.1 t; if isEdge t1 q.1 then setLatch q.1 t1 else t1) s
  setFld (MGC_STAT_WFI n) 0 (setFld (MGC_STAT_POWERED n) 0 s1)

/-! ### The commands -/

/-- The clocks of the controller run. -/
def icuClocked (s : State) : Bool := cclkOn s

/-- A line takes a level: an edge its sense asks for sets the latch, and so does the beginning of a level while clocks are stopped (R364,
R366). -/
def lineEdge (src : Nat) (level : Bool) (s : State) : State :=
  let was := decide (src ∈ s.icu.lines)
  let now := (drivenLine s src).getD level
  if was == now then s
  else
    let s1 := updIcu (fun t => { t with lines := if now then t.lines ++ [src] else t.lines.filter (· ≠ src) }) s
    let m := sense s src
    let hit := (decide (m = 2) && now) || (decide (m = 3) && !now) || decide (m = 4)
    let on := (decide (m = 0) && now) || (decide (m = 1) && !now)
    let s2 := if decide (src < 240) && (hit || (on && decide (src < 32) && !icuClocked s)) then setLatch src s1 else s1
    let s3 := updIcu (fun t => { t with begun := if on then t.begun ++ [src] else t.begun.filter (· ≠ src) }) s2
    if icuClocked s then icuHost s3 else s3

/-- INTERRUPT_SOURCE_EDGE. The level of a line that a page or a flag drives is theirs; `level` is that of one from outside. -/
def execInterruptSourceEdge (src : Nat) (level : Bool) (s : State) : Host.Outcome State Fault Refusal :=
  run (decide (1 ≤ src ∧ src < 256)) (lineEdge src level s)

/-- INTERRUPT_CLAIM (R367, R368). -/
def execInterruptClaim (n : Nat) (gone : Bool) (s : State) : Host.Outcome State Fault Refusal := run (decide (n < 4)) (claimIrq n gone s)

/-- A write of ICU_EOIn (R368). -/
def eoi (n src : Nat) (s : State) : State :=
  if src ≠ 0 ∧ (smGet s.icu.claims src).map Prod.fst = some n then endClaim src s else setEvt 5 ICU_EVT_EOI_BAD s

/-- EOI. -/
def execEoi (w : Win) (n src : Nat) (s : State) : Host.Outcome State Fault Refusal :=
  run (decide (n < 4)) (guardWrite w 5 (eoi n (src % 256)) s)

/-- SOFTWARE_INTERRUPT (R364). -/
def execSoftwareInterrupt (w : Win) (v : Nat) (s : State) : Host.Outcome State Fault Refusal :=
  run true (guardWrite w 5 (fun s => icuHost ((List.range 16).foldl (fun t i => if v.testBit i then setLatch (240 + i) t else t) s)) s)

/-- ICU_PEND_CLEAR (R364, R365). -/
def execIcuPendClear (w : Win) (v : Nat) (s : State) : Host.Outcome State Fault Refusal :=
  run true (guardWrite w 5 (fun s => (List.range 32).foldl (fun t i =>
    let src := 32 * getFld s ICU_PEND_SEL_WORD + i
    if v.testBit i && isEdge s src then clearLatch src t else t) s) s)

/-- MODERATION_EXPIRY (R369). -/
def execModerationExpiry (src : Nat) (s : State) : Host.Outcome State Fault Refusal :=
  run (decide (src < 256)) (icuHost (updIcu (fun t => { t with held := t.held.filter (· ≠ src) }) s))

/-- The source has waited 2 µs on a powered-off target: it goes to the fallback core, or the lowest that is powered (Table IRQ-2). -/
def fallback (src : Nat) (s : State) : State :=
  let f := getFld s ICU_CFG_FALLBACK
  let to_ := if corePowered s f then some f else (List.range 4).find? (corePowered s)
  match to_ with
  | some n =>
    if deliverable s src && !corePowered s (targetOf s src) then
      setEvt 5 ICU_EVT_FALLBACK (incFld ICU_FALLBACKS_COUNT 1 (updIcu (fun t => { t with moved := smSet t.moved src n }) s))
    else s
  | none => s

/-- FALLBACK_TIMEOUT. -/
def execFallbackTimeout (src : Nat) (s : State) : Host.Outcome State Fault Refusal := run (decide (src < 256)) (fallback src s)

/-- WAIT_FOR_INTERRUPT: the core idles; moderation no longer holds back what is deliverable to it (R369). -/
def execWaitForInterrupt (n : Nat) (s : State) : Host.Outcome State Fault Refusal :=
  run (decide (n < 4)) (onlyIf (corePowered s n) (setFld (MGC_STAT_WFI n) 1) s)

end Sys2Proof.Machine
end

