-- ==== Sys2Proof/Machine/Links.lean ====
section
/-! DEFINITION. Tashaop links (chapter 13): training and flits (R320 to R325), forwarding (R330), the lease (R336 to R339), standby
attachment (R332 to R334), remote members (R335), takeover (R340) and federation time (R341). -/

namespace Sys2Proof.Machine
open Reg

def trtEvt (bit : Nat) (s : State) : State := setEvt 0xD0 bit s

/-- The device fences itself: it stops renewing and acknowledging (R339). -/
def mute (s : State) : Bool := devFenced s || fenced s 0xD0

/-! ### Training -/

/-- The entry of a neighbour that reaches UP (R329). -/
def learn (x node : Nat) (s : State) : State :=
  if isSet s TRT_CFG_AUTO_NEIGH ∧ (!isSet s (TRT_ENTRY_VALID node) ∨ isSet s (TRT_ENTRY_LEARNED node)) then
    setFld (TRT_ENTRY_LINK node) x (setFld (TRT_ENTRY_VALID node) 1 (setFld (TRT_ENTRY_LEARNED node) 1 s))
  else s

/-- A link starts anew: its sequence numbers, buffers and credits (R323, R325). -/
def freshLink (x node : Nat) (s : State) : State :=
  [0, 1, 2, 3, 4, 5].foldl (fun t c => setFld (TLK_CRD_TX x c) (classCredits c) (setFld (TLK_CRD_ADV x c) (classCredits c) t))
    (updTlk x (fun _ => { Tlk.reset with nb := some node }) s)

/-- TLK_TRAINING_DONE (R320, R321, R329): training ends at a speed (1: 16.0, 2: 32.0 GT/s) and width with a neighbour's node and link
number. A link that retrained goes on with its flits; one that goes DOWN, or that retrained to another neighbour, resends them elsewhere. -/
def trained (x speed width : Nat) (rev : Bool) (node link : Nat) (s : State) : State :=
  let st := tlkState s x
  if st = 2 ∨ st = 3 ∨ !enabled s (0xC8 + x) ∨ fenced s (0xC8 + x) ∨ (0xC8 + x) ∈ s.pwr.dead then s
  else
    let sp := if isSet s (TLK_CFG_MAX_32 x) then speed else min speed 1
    let slow := decide (sp < 2) || decide (width < 4)
    let same := decide (st = 4) && decide ((tlkOf s x).nb = some node)
    let s0 := onlyIf (decide (st = 4) && !same) (linkDown x) s
    let s1 := if slow then tlkEvt x TLK_EVT_DEGRADED s0 else s0
    if slow ∧ !isSet s (TLK_CFG_ALLOW_NARROW x) then setFld (PG_STAT_STATE (0xC8 + x)) 0 (linkDown x s1)
    else
      let s2 := setFld (TLK_STAT_SPEED x) sp (setFld (TLK_STAT_WIDTH x) width (setFlag (TLK_STAT_REVERSED x) rev
        (setFld (TLK_STAT_NEIGH_NODE x) node (setFld (TLK_STAT_NEIGH_LINK x) link s1))))
      let hello := leBytes (nodeId s) 2 ++ leBytes x 1
      if node = nodeId s then tlkEvt x TLK_EVT_ID_CONFLICT (setFld (PG_STAT_STATE (0xC8 + x)) 3 (sendCtrl x hello (freshLink x node s2)))
      else
        let s3 := tlkEvt x TLK_EVT_UP (setFld (PG_STAT_STATE (0xC8 + x)) 2 (learn x node (if same then s2 else freshLink x node s2)))
        let s4 := if same then replayFrom x (tlkOf s3 x).retry (updTlk x (fun t => { t with replays := 0 }) s3) else s3
        pump x (sendCtrlSoon x hello s4)

def execTlkTrainingDone (x speed width : Nat) (rev : Bool) (node link : Nat) (s : State) : Host.Outcome State Fault Refusal :=
  run (decide (x < 8 ∧ node < 512 ∧ link < 8 ∧ speed ∈ [1, 2] ∧ width ∈ [1, 2, 4])) (trained x speed width rev node link s)

/-- RETRAIN_TIMEOUT (R324). -/
def execRetrainTimeout (x : Nat) (s : State) : Host.Outcome State Fault Refusal :=
  run (decide (x < 8)) (if tlkState s x = 4 then linkDown x s else s)

/-! ### Flits -/

/-- The flits carrying an entry's record have been acknowledged: held member writes go on (R333). -/
def recordAcked (note : Nat × Nat × Nat) (s : State) : State :=
  match entryOf s note.1 with
  | none => s
  | some e =>
    if e.writeSeq ≠ note.2.2 then s
    else
      let s1 := updEntry note.1 (fun y => { y with linkAck := y.linkAck ++ [note.2.1] }) s
      if note.2.1 = 3 ∧ e.wrHeld then startWrites note.1 (updEntry note.1 (fun y => { y with wrHeld := false }) s1) else s1

/-- An acknowledgement covers the flits up to an FSEQ (R323). -/
def ackFlits (x a : Nat) (s : State) : State :=
  let t := tlkOf s x
  let i := t.retry.findIdx (fun f => decide (f.seq = a))
  if t.retry.length ≤ i then s
  else
    let s1 := updTlk x (fun y => { y with retry := y.retry.drop (i + 1), replays := 0 }) s
    pump x ((t.retry.take (i + 1)).foldl (fun u f => match f.note with
      | some n => recordAcked n u
      | none => u) s1)

/-- A flit is accepted: credits it returns, and credits owed for its place in the buffer (R325). A HEAD whose OP its class does not
define is dropped (R345). -/
def acceptFlit (x kind : Nat) (b : List Byte) (s : State) : State :=
  let seq := leAt b 0 4 % 1024
  let cls := if kind = 3 then leAt b 4 1 % 8 else (tlkOf s x).rxClass
  let crdC := bitsOf (leAt b 0 4) 25 3
  let crdN := bitsOf (leAt b 0 4) 28 4
  let s1 := add64 (TLK_RX_LO_COUNT x) (TLK_RX_HI_COUNT x) 1 (updTlk x (fun t =>
    { t with expect := (seq + 1) % 1024, got := some seq, nak := false, due := t.due + 1, rxClass := cls,
             owed := if kind = 2 then t.owed else smUpd t.owed cls 0 (· + 1) }) s)
  let s2 := onlyIf (decide (crdN ≠ 0 ∧ crdC < 6)) (satFld (TLK_CRD_TX x crdC) crdN) s1
  onlyIf (decide (kind = 3) && !(decide (1 ≤ leAt b 11 1) && decide (leAt b 11 1 ≤ opLimit cls))) (incFld (TLK_DROP_COUNT x) 1) s2

/-- FLIT_RECEIVED (R322, R323, R325): a flit with its CRC intact and the expected FSEQ is accepted; any other sequenced one is discarded
and a NAK named once. The replay a NAK asks for is NAK_RECEIVED's. -/
def flitReceived (x : Nat) (b : List Byte) (s : State) : State :=
  if tlkState s x ≠ 2 then s
  else
    let h := leAt b 0 4
    let kind := bitsOf h 10 3
    let bad := decide (b.length ≠ 32) || decide (leAt b 28 4 ≠ crc32 (slice b 0 28)) || decide (5 ≤ kind)
    if bad then sendNak x (incFld (TLK_CRC_COUNT x) 1 s)
    else
      let ack := fun (t : State) => if h.testBit 24 then ackFlits x (bitsOf h 14 10) t else t
      if kind < 2 then ack s
      else if h % 1024 ≠ (tlkOf s x).expect then sendNak x s
      else
        let s1 := pump x (ack (acceptFlit x kind b s))
        let s2 := returnCredits 128 x s1
        if 32 ≤ (tlkOf s2 x).due then sendIdle x s2 else s2

def execFlitReceived (x : Nat) (raw : List Byte) (s : State) : Host.Outcome State Fault Refusal := run (decide (x < 8)) (flitReceived x raw s)

/-- NAK_RECEIVED (R324): replay from the FSEQ it names. -/
def execNakReceived (x seq : Nat) (s : State) : Host.Outcome State Fault Refusal :=
  run (decide (x < 8 ∧ seq < 1024)) (
    let fs := (tlkOf s x).retry.dropWhile (fun f => decide (f.seq ≠ seq))
    if tlkState s x = 2 ∧ fs ≠ [] then replayAgain x fs s else s)

/-- REPLAY_TIMER (R324). -/
def execReplayTimer (x : Nat) (s : State) : Host.Outcome State Fault Refusal :=
  run (decide (x < 8)) (
    if tlkState s x ≠ 2 ∨ (tlkOf s x).retry = [] then s else replayAgain x (tlkOf s x).retry s)

/-- ACK_TIMER (R323). -/
def execAckTimer (x : Nat) (s : State) : Host.Outcome State Fault Refusal :=
  run (decide (x < 8)) (if tlkState s x = 2 ∧ (tlkOf s x).due ≠ 0 then sendIdle x s else s)

/-- MESSAGE_FORWARD (R330): a message for another node goes on, or is dropped. A SYNC takes the forwarding time with it (R341). -/
def forward (x : Nat) (k : MsgKind) (m : Msg) (s : State) : State :=
  if m.dst = nodeId s ∨ tlkState s x ≠ 2 then s
  else
    if m.hops = 0 ∨ !isSet s (TRT_ENTRY_VALID m.dst) ∨ m.src = nodeId s then hopDrop x s
    else
      let m1 : Msg := { m with hops := m.hops - 1, arg2 := if k = .sync then (m.arg2 + 180) % 2 ^ 32 else m.arg2 }
      routeMsg { kind := k, m := m1, note := none, via := x } (hopDrop x) s

def execMessageForward (x : Nat) (k : MsgKind) (m : Msg) (s : State) : Host.Outcome State Fault Refusal :=
  run (decide (x < 8 ∧ m.dst < 512 ∧ m.src < 512)) (forward x k m s)

/-! ### The lease, at the owner -/

/-- A message of another node that has arrived here. -/
def arrived (m : Msg) (f : State → State) (s : State) : State := if m.dst = nodeId s ∧ !mute s then f s else s

/-- The plates owned here whose standby is a node. -/
def platesWith (s : State) (node : Nat) : List (Nat × Plate) := s.store.plates.filter (fun q => decide (q.2.standby = node) && !q.2.gone)

/-- The nodes that are standby for plates owned here. -/
def standbys (s : State) : List Nat := ((s.store.plates.filter (fun q => !q.2.gone)).map (fun q => q.2.standby)).eraseDups.filter (· ≠ 0xFFFF)

/-- Member writes held for the link go on (R338). -/
def resumeHeld (p : Nat) (s : State) : State :=
  (plateEntries s p).foldl (fun t q => if q.2.wrHeld then startWrites q.1 (updEntry q.1 (fun y => { y with wrHeld := false }) t) else t) s

/-- A plate's standby is detached: R333 and mirroring stop. Segments that wait for its copies complete on the local ones. -/
def detach (p : Nat) (s : State) : State :=
  match plateOf s p with
  | none => s
  | some x =>
    let s1 := updPlate p (fun y => { y with attached := false, mirrorOn := false }) s
    let mine := s.cache.pmirWait.filter (fun q => decide (q.2.1 = x.standby) && decide ((entryOf s q.2.2).map (fun e => e.seg.plate) = some p))
    let s2 := updCache (fun t => { t with pmirWait := t.pmirWait.filter (fun q => !mine.any (fun r => decide (r.1 = q.1))) }) s1
    let s3 := mine.foldl (fun t q => cacheStaged q.2.2 (updEntry q.2.2 (fun e => { e with mirWait := e.mirWait - 1 }) t)) s2
    resumeHeld p (pmirShow s3)

/-- The standby is lost (R338, R339); TRT_DROPS counts those of R338. -/
def standbyLost (p : Nat) (drop : Bool) (s : State) : State :=
  if ((plateOf s p).map Plate.attached).getD false then trtEvt TRT_EVT_STANDBY_LOST (onlyIf drop (incFld TRT_DROPS_COUNT 1) (detach p s)) else s

/-- Offer a plate to its standby (R332). Its reservations are acquired with the LABEL_GEN that the offer carries, so that the standby knows the owner's
key (R294, notes/assumptions/167.md). -/
def offer (p : Nat) (x : Plate) (cmd : Bool) (s : State) : State :=
  sendMsg x.standby .attachOffer 0 x.id p (le64 x.labelGen) (updLink (fun l => { l with offers := smSet l.offers p (x.standby, cmd) }) (plateResv p s))

/-- LEASE_RENEW_TIMER (R336). -/
def execLeaseRenewTimer (s : State) : Host.Outcome State Fault Refusal :=
  run true (if mute s then s
    else
      let s1 := updLink (fun l => { l with renews := (l.renews + 1) % 2 ^ 32 }) s
      (standbys s).foldl (fun t n =>
        sendMsg n .renew 0 (maskOf (((platesWith s n).filter (fun q => q.2.attached)).map Prod.fst)) s1.link.renews [] t) s1)

/-- RENEW_ACK (R338): the lease stays current; plates whose standby is not attached are offered again. -/
def execRenewAck (m : Msg) (s : State) : Host.Outcome State Fault Refusal :=
  run (decide (m.src < 512)) (arrived m (fun t =>
    if m.src ∉ standbys t then t
    else
      let t1 := updLink (fun l => { l with seen := smSet l.seen m.src (devTime t), acked := if m.src ∈ l.acked then l.acked else l.acked ++ [m.src] }) t
      (platesWith t1 m.src).foldl (fun u q => if q.2.attached ∨ (smGet u.link.offers q.1).isSome ∨ !q.2.served then u else offer q.1 q.2 false u) t1) s)

def trtEnd (st : Status) (s : State) : State := cmdEnd TRT_CMD_GO TRT_CMD_RES_STATUS TRT_CMD_RES_DONE st s

/-- An offer is over: TRT_CMD, where it waits, ends. -/
def offerEnd (p : Nat) (st : Status) (s : State) : State :=
  match smGet s.link.offers p with
  | none => s
  | some o =>
    let s1 := updLink (fun l => { l with offers := smDel l.offers p }) s
    if o.2 then trtEnd st s1 else s1

/-- A plate loses the standby that an ATTACH named and that did not take it. -/
def unname (p : Nat) (s : State) : State := startLabel p (updPlate p (fun y => { y with standby := 0xFFFF, attached := false, mirrorOn := false }) s)

/-- LEASE_DROP (R338): Reservation Report on every dual-port member of the standby's plates. Offers to it are over. -/
def execLeaseDrop (node : Nat) (s : State) : Host.Outcome State Fault Refusal :=
  run (decide (node < 512)) (if node ∉ standbys s ∨ devFenced s then s
    else
      let s1 := updLink (fun l => { l with acked := l.acked.filter (· ≠ node) }) s
      let s2 := (s1.link.offers.filter (fun q => decide (q.2.1 = node))).foldl (fun t q => offerEnd q.1 .stateConflict (if q.2.2 then unname q.1 t else t)) s1
      ((platesWith s2 node).filter (fun q => q.2.attached)).foldl (fun t q =>
        (dualMembers t q.2).foldl (fun u m => resvSend q.1 m 3 (resvKey q.2.resvGen (nodeId u)) 0 u) t) s2)

/-- RESERVATION_REPORT_COMPLETE (R338): `holder` says that every Report on the plate shows this node as holder. -/
def execReservationReportComplete (p : Nat) (holder : Bool) (s : State) : Host.Outcome State Fault Refusal :=
  run (decide (p < 64)) (match plateOf s p with
    | none => s
    | some x =>
      if !x.attached ∨ x.standby ∈ s.link.acked then s
      else if holder then standbyLost p true s
      else (plateEntries s p).foldl (fun t q => if q.2.posted ∧ q.2.state ≠ .committed then loseEntry q.2 t else t) (resvConflict p s))

/-! ### The lease, at the standby -/

/-- Everything mirrored for a plate goes. -/
def dropMirror (id : Nat) (s : State) : State :=
  updLink (fun l => { l with mirror := smDel l.mirror id, pool := l.pool.filter (fun q => decide (q.2.plateId ≠ id)) }) s

/-- A held plate is released without takeover (R336). -/
def dropHeld (id : Nat) (s : State) : State := dropMirror id (updLink (fun l => { l with held := smDel l.held id }) s)

/-- The plates held for an owner that are attached, with their PLATE_ID. -/
def heldOf (s : State) (owner : Nat) : List (Nat × HeldPlate) :=
  s.link.held.filter (fun q => decide (q.2.plate.owner = owner ∧ q.2.taking = 0) && q.2.attached)

/-- The link joins this node to a partner: LEASE traffic keeps it awake (R344). -/
def partnerLink (s : State) (x : Nat) : Bool :=
  match (tlkOf s x).nb with
  | none => false
  | some n => !mute s && (decide (n ∈ standbys s) || decide (heldOf s n ≠ []))

/-- TLK_L1_ENTRY (R344). -/
def execTlkL1Entry (x : Nat) (s : State) : Host.Outcome State Fault Refusal :=
  run (decide (x < 8)) (
    let t := tlkOf s x
    if tlkState s x = 2 ∧ getFld s PWR_STAT_STATE = 2 ∧ !isSet s (PG_CTL_CLK_REQ (0xC8 + x)) ∧ t.queue = [] ∧ t.cur = [] ∧ t.resend = [] ∧ t.retry = [] ∧ !partnerLink s x then setFld (PG_STAT_ASLEEP (0xC8 + x)) 1 s else s)

/-- RENEW (R336): answered; a plate attached here that the mask does not name is released. -/
def execRenew (m : Msg) (s : State) : Host.Outcome State Fault Refusal :=
  run (decide (m.src < 512)) (arrived m (fun t =>
    let new := ofMask m.arg
    let t1 := updLink (fun l => { l with leased := smSet l.leased m.src m.arg, seen := smSet l.seen m.src (devTime t) }) t
    let t2 := (heldOf t m.src).foldl (fun u q => if q.2.index ∉ new then dropHeld q.1 u else u) t1
    sendMsg m.src .renewAck m.tag m.arg m.arg2 [] t2) s)

/-- A member of a held plate as this node reaches it: at its own port where the drive is dual-port, else where the label says. -/
def localise (s : State) (y : Member) : Member :=
  match s.drive.ports.find? (fun q => decide (q.2.key = y.driveKey) && q.2.nss.any (fun n => decide (n.nsid = y.nsid))) with
  | some q => { y with node := nodeId s, port := q.1 }
  | none => y

def updHeld (id : Nat) (f : HeldPlate → HeldPlate) (s : State) : State :=
  match smGet s.link.held id with
  | some h => updLink (fun l => { l with held := smSet l.held id (f h) }) s
  | none => s

/-- Steps 1 and 2 of Sequence LINK-1. -/
def takeStart (id : Nat) (s : State) : State :=
  match smGet s.link.held id with
  | none => s
  | some h =>
    let x : Plate := { h.plate with members := h.plate.members.map (localise s) }
    let s1 := updHeld id (fun y => { y with plate := x, attached := false, taking := 1 }) s
    (dualMembers s1 x).foldl (fun t m => resvSend 64 m 4 (resvKey x.resvGen (nodeId t)) (resvKey x.resvGen x.owner) t) s1

/-- LEASE_EXPIRED (R337): the plates of the last mask are taken over. -/
def execLeaseExpired (owner : Nat) (s : State) : Host.Outcome State Fault Refusal :=
  run (decide (owner < 512)) (match smGet s.link.leased owner with
    | none => s
    | some mask =>
      if mute s then s
      else
        let s1 := trtEvt TRT_EVT_LEASE_EXPIRED (updLink (fun l => { l with leased := smDel l.leased owner }) s)
        ((heldOf s1 owner).filter (fun q => decide (q.2.index ∈ ofMask mask))).foldl (fun t q => takeStart q.1 t) s1)

/-- FENCE_NOTICE (R339, R345): the sender's plates named in its first mask are taken over, and the plates of this node named in the
second lose their standby. -/
def execFenceNotice (m : Msg) (s : State) : Host.Outcome State Fault Refusal :=
  run (decide (m.src < 512)) (arrived m (fun t =>
    let t1 := trtEvt TRT_EVT_FENCE_RCVD t
    let own := ofMask (leAt m.body 0 8)
    let mine := ofMask (leAt m.body 8 8)
    let t2 := ((heldOf t1 m.src).filter (fun q => decide (q.2.index ∈ own))).foldl (fun u q => takeStart q.1 u) t1
    ((platesWith t2 m.src).filter (fun q => decide (q.1 ∈ mine))).foldl (fun u q => standbyLost q.1 false u) t2) s)

/-! ### Takeover (R340, Sequence LINK-1) -/

/-- A plate as its takeover finds it: its label, catalogue, lost-block table and journal as its members hold them then (R38, R40, R42, R75, R98),
and each slot with whether its label is stale. Where no label was read the plate stands as it was held. -/
def takenPlate (s : State) (h : HeldPlate) (md : PlateMedia) : Plate × List (Member × Bool × Bool) :=
  let r := match governing (md.mems.filterMap mediaLabel) md.plateId with
    | some gov =>
      let slots := (List.range (leAt gov 0x22 1)).map (fun m =>
        let y := labelSlot gov m
        match md.mems.find? (fun (q : MemberMedia) => decide (q.mem = m)) with
        | some q => slotWith gov q.copyA q.copyB y.port y
        | none => ({ y with seen := false }, true, false))
      (buildPlate s gov slots md, slots)
    | none => (withMedia (h.plate.membersIn [.online]) md (withProgress s md.progress h.plate), [])
  ({ r.1 with members := r.1.members.map (localise s), owner := nodeId s, standby := 0xFFFF, attached := false, mirrorOn := false, gone := true,
                resvGen := h.plate.resvGen }, r.2)

/-- PREEMPT_COMPLETE: steps 3 and 4, with what the members hold. The plate stands at its owner's index where that is free here, else at
the lowest free one; it is not owned until TAKEOVER_DONE. -/
def execPreemptComplete (id : Nat) (md : PlateMedia) (s : State) : Host.Outcome State Fault Refusal :=
  run true (match smGet s.link.held id with
    | none => s
    | some h =>
      let free := (List.range 64).filter (fun i => (plateOf s i).isNone)
      match (if h.index ∈ free then some h.index else free.head?) with
      | none => s
      | some ix =>
        if h.taking ≠ 1 ∨ md.plateId ≠ id ∨ mute s then s
        else
          let r := takenPlate s h md
          let on := r.1.membersIn [.online]
          let s1 := updHeld id (fun y => { y with taking := 2, here := ix }) (updCache (fun t => { t with jrec := smSet t.jrec ix (mediaJournal id (readMems on md)) }) s)
          let s2 := mediaRecords ix on md (dropTagCache ix (fun _ => true) (setFld (PG_STAT_READY (0x40 + ix)) 1 (updStore (fun u => { u with plates := smSet u.plates ix r.1 }) s1)))
          let s3 := (dualMembers s2 r.1).foldl (fun t m => setFld (DPT_RESV_ROLE m.2.port) 1 t) s2
          let fs := assemblyFails r.2
          let s4 := claimAs ix (r.1.labelGen + 1) s3
          resumeCycle ix (cycleSync ix (if fs = [] then startLabel ix s4 else declareFails ix fs s4)))

/-- PREEMPT_TIMEOUT: what was acquired is released and the takeover fails. The plate is fenced on this node: it has no plate page here, and held so
(`taking` 4) it takes no message of its owner and no takeover until it is offered anew. -/
def execPreemptTimeout (id : Nat) (s : State) : Host.Outcome State Fault Refusal :=
  run true (match smGet s.link.held id with
    | none => s
    | some h =>
      if h.taking ≠ 1 then s
      else trtEvt TRT_EVT_TAKEOVER_FAIL (releaseResv 64 h.plate (updHeld id (fun y => { y with taking := 4 }) s)))

/-- Fields of a mirrored entry (Table WRITE-5): its own state, path, and whether it is unbacked. -/
def recState (b : List Byte) : Nat := leAt b 0 1 % 8
def recPath (b : List Byte) : Nat := leAt b 1 1
def recUnbacked (b : List Byte) : Bool := (leAt b 3 1).testBit 0

/-- Its effective state: a group entry takes its head's while its own is lower (R57). -/
def recEff (all : SMap (List Byte)) (b : List Byte) : Nat :=
  if (leAt b 3 1).testBit 1 then
    match smGet all (leAt b 4 2) with
    | some h => if (leAt h 3 1).testBit 1 ∧ leAt h 4 2 = leAt b 4 2 then max (recState b) (recState h) else recState b
    | none => recState b
  else recState b

/-- Table LINK-4 for one mirrored entry granted in backed mode. -/
def takeEntry (ix bps st : Nat) (b : List Byte) (s : State) : State :=
  let sn := leAt b 8 8
  let lost := fun (t : State) => lostwAdd (leAt b 0x2A 2) (leAt b 0x30 8) (leAt b 0x38 4) t
  if recPath b = 0 then
    if st = 1 ∨ st = 2 then lost s
    else if st = 3 then lost (replayPq ix sn 0 (bps - 1) s)
    else s
  else if recPath b ≠ 1 ∧ st = 3 then replayPq ix sn (leAt b 0x20 2) (leAt b 0x22 2) s
  else s

/-- Steps 5 and 6: the mirrored entries, the member journal for those of unbacked mode, then the partner slots in ascending SEQ. -/
def takeReplay (id : Nat) (h : HeldPlate) (s : State) : State :=
  match plateOf s h.here with
  | none => s
  | some x =>
    let es := smGetD s.link.mirror id []
    let s1 := updHeld id (fun y => { y with taking := 3 }) s
    let s2 := (es.filter (fun q => !recUnbacked q.2)).foldl (fun t q => takeEntry h.here x.geom.bps (recEff es q.2) q.2 t) s1
    let jr := smGetD s.cache.jrec h.here ([], [])
    let s3 := if es.any (fun q => recUnbacked q.2) then replayMembers h.here jr s2 else s2
    let cp := ((s.link.pool.filter (fun q => decide (q.2.plateId = id))).map Prod.snd).mergeSort (fun a b => decide (a.slot.seq ≤ b.slot.seq))
    cp.foldl (fun t c => presentReplay (replaySlotSeg t h.here c.slot) t) s3

/-- LABEL_UPDATE_COMPLETE (R37, R95): after the label update of a takeover, replay follows. -/
def labelEnd (p : Nat) (s : State) : State :=
  let s1 := labelDone p s
  match s1.link.held.find? (fun q => decide (q.2.taking = 2 ∧ q.2.here = p)), plateOf s1 p with
  | some q, some x => if x.labelBusy then s1 else takeReplay q.1 q.2 s1
  | _, _ => s1

def execLabelUpdateComplete (p : Nat) (s : State) : Host.Outcome State Fault Refusal := run (decide (p < 64)) (labelEnd p s)

/-- No replay work of a plate is left. -/
def plateQuiet (s : State) (p : Nat) : Bool :=
  !s.io.queue.any (fun g => decide (g.plate = p)) && decide (plateEntries s p = []) && !s.io.sops.any (fun q => decide (q.2.plate = p)) &&
  !s.io.waitl.any (fun w => match w with | .seg g => decide (g.plate = p) | .sop _ => false)

/-- TAKEOVER_DONE: steps 7 and 8. -/
def execTakeoverDone (id : Nat) (s : State) : Host.Outcome State Fault Refusal :=
  run true (match smGet s.link.held id with
    | none => s
    | some h =>
      if h.taking ≠ 3 ∨ !plateQuiet s h.here then s
      else
        let s1 := updPlate h.here (fun x => { x with gone := false }) (dropHeld id s)
        resumePass h.here (joinPair h.here (refreshPlate h.here (trtEvt TRT_EVT_TAKEOVER_DONE (incFld TRT_TAKEOVERS_COUNT 1 s1)))))

/-! ### Attachment (R332 to R334) -/

/-- JOURNAL_ENTRY_MESSAGE (R58): a mirrored entry is stored; one that is free leaves the store. -/
def execJournalEntryMessage (m : Msg) (s : State) : Host.Outcome State Fault Refusal :=
  run (decide (m.src < 512)) (arrived m (fun t =>
    match smGet t.link.held m.arg with
    | none => t
    | some h =>
      if h.plate.owner ≠ m.src ∨ !h.attached then t
      else
        let j := m.arg2 % 2 ^ 16
        let b := slice m.body 0 128
        let es := smGetD t.link.mirror m.arg []
        updLink (fun l => { l with mirror := smSet l.mirror m.arg (if recState b = 0 then smDel es j else smSet es j b) }) t) s)

/-- A record of an attached plate is kept in this node's progress log (R102, R118). -/
def keepRecord (m : Msg) (kind : Nat) (s : State) : State :=
  arrived m (fun t =>
    let b := slice m.body 0 256
    match smGet t.link.held m.arg with
    | none => t
    | some h => if h.plate.owner = m.src ∧ h.attached ∧ progValid b ∧ leAt b 0x10 8 = m.arg ∧ leAt b 9 1 = kind then progAppend b t else t) s

def execProgress (m : Msg) (s : State) : Host.Outcome State Fault Refusal := run (decide (m.src < 512)) (keepRecord m 0 s)

def execProof (m : Msg) (s : State) : Host.Outcome State Fault Refusal := run (decide (m.src < 512)) (keepRecord m 1 s)

/-- A suspect entry's fields (Table PROOF-7), for a PLATE_ID. -/
def readSuspect (id : Nat) (b : List Byte) : Suspect :=
  { plateId := id, sn := leAt b 0 8 % 2 ^ 37, first := leAt b 8 1, last := leAt b 9 1, why := bitsOf (leAt b 0 8) 43 3, opMin := leAt b 12 4 }

/-- SUSPECT (R125, R134): keyed by the message's PLATE_ID. An entry that arrives while the list is full is dropped, with no FULL, event or record
here (DESIGN CHOICE, notes/assumptions/160.md). -/
def execSuspect (m : Msg) (s : State) : Host.Outcome State Fault Refusal :=
  run (decide (m.src < 512)) (arrived m (fun t =>
    match smGet t.link.held m.arg with
    | none => t
    | some h =>
      if h.plate.owner ≠ m.src ∨ !h.attached then t
      else
        let e := readSuspect m.arg m.body
        let rest := t.store.suspects.filter (fun y => !decide (y.plateId = e.plateId ∧ y.sn = e.sn))
        let t1 := updStore (fun u => { u with suspDirty := true, suspects := if m.arg2 % 2 = 1 then (if rest.length < 4096 then rest ++ [e] else rest) else rest }) t
        onlyIf (decide (t1.store.suspects.length < 4096)) (setFld PRF_SUSP_FULL 0) t1) s)

/-- This node reaches a member: at its own port, or over a route to the node that serves it (R332). Members that have failed are not asked for
(notes/assumptions/168.md). -/
def reachesMember (s : State) (y : Member) : Bool :=
  let z := localise s y
  decide (y.failSeq ≠ 0) || (if z.node = nodeId s then (nsOf s z.port z.nsid).isSome else decide (routeLinks s z.node ≠ []))

/-- ATTACH_OFFER (R332): `reach` says that every member so reached answered, `resvOk` that the key was registered; `found` and `media` are what
this node reads of the plate's members. -/
def attachOffer (m : Msg) (reach resvOk : Bool) (found : List FoundNs) (media : List PlateMedia) (s : State) : State :=
  let id := m.arg
  let refuse := fun (why : Nat) (t : State) => sendMsg m.src .attachRefuse m.tag id why [] t
  if ((smGet s.link.held id).map (fun h => h.attached)).getD false then refuse 4 s
  else match governing (labelsOf found (mediaOf media id)) id with
    | none => refuse 1 s
    | some gov =>
      let used := ((s.link.held.filter (fun q => decide (q.2.plate.owner = m.src))).map (fun q => (smGetD s.link.mirror q.1 []).length)).sum
      let md := mediaOf media id
      let x0 := buildPlate s gov ((List.range (leAt gov 0x22 1)).map (slotMember s found md gov)) md
      if !reach || !x0.members.all (reachesMember s) then refuse 1 s
      else if 49152 ≤ used then refuse 2 s
      else if !resvOk then refuse 3 s
      else
        let x : Plate := { x0 with owner := m.src, members := x0.members.map (localise s), resvGen := leAt m.body 0 8 }
        let h : HeldPlate := { index := m.arg2 % 64, plate := x, attached := true, taking := 0, here := 0 }
        let s1 := keySuspects h.index id (updLink (fun l => { l with held := smSet l.held id h }) (dropMirror id s))
        let s2 := (dualMembers s1 x).foldl (fun t q => setFld (DPT_RESV_ROLE q.2.port) 2 (resvSend 64 q 0 (resvKey x.resvGen (nodeId t)) 0 t)) s1
        sendMsg m.src .attachAccept m.tag id 0 [] s2

def execAttachOffer (m : Msg) (reach resvOk : Bool) (found : List FoundNs) (media : List PlateMedia) (s : State) : Host.Outcome State Fault Refusal :=
  run (decide (m.src < 512)) (arrived m (attachOffer m reach resvOk found media) s)

/-- The plate of a PLATE_ID whose offer to a node is not answered. -/
def offered (s : State) (id node : Nat) : Option (Nat × Plate) :=
  s.store.plates.find? (fun q => decide (q.2.id = id ∧ q.2.standby = node) && (smGet s.link.offers q.1).isSome)

/-- ATTACH_ACCEPT (R332): `pool` is the standby's partner pool in slots. The plate's entries in use go first, then the copy that R142
requires before mirroring. -/
def execAttachAccept (m : Msg) (pool : Nat) (s : State) : Host.Outcome State Fault Refusal :=
  run (decide (m.src < 512)) (arrived m (fun t =>
    match offered t m.arg m.src with
    | none => t
    | some (p, _) =>
      let t1 := updPlate p (fun x => { x with attached := true, mirrorOn := false })
        (updLink (fun l => { l with pools := smSet l.pools m.src pool, acked := if m.src ∈ l.acked then l.acked else l.acked ++ [m.src],
                                    seen := smSet l.seen m.src (devTime t) }) t)
      let t2 := (plateEntries t1 p).foldl (fun u q => mirrorEntry q.1 u) t1
      offerEnd p .ok (trtEvt TRT_EVT_ATTACHED (pmirShow (pmirResume m.src (updCache (fun c => { c with pmirDone := c.pmirDone.filter (fun q => decide (q.1 ≠ m.src)) }) t2))))) s)

/-- ATTACH_REFUSE (R343): ATTACH ends with STATE_CONFLICT, and the plate has no standby. -/
def execAttachRefuse (m : Msg) (s : State) : Host.Outcome State Fault Refusal :=
  run (decide (m.src < 512)) (arrived m (fun t =>
    match offered t m.arg m.src with
    | none => t
    | some (p, _) => offerEnd p .stateConflict (if ((smGet t.link.offers p).map (fun o => o.2)).getD false then unname p t else t)) s)

/-- A node is reachable as standby: a direct neighbour over an UP link (R332). -/
def reachable (s : State) (node : Nat) : Bool := decide (node ≠ nodeId s) && decide (linksTo s node ≠ []) && decide (routeLinks s node ≠ [])

/-- ATTACH (R343), on the plate and the node that TRT_CMD holds. -/
def attachCmd (s : State) : State :=
  let p := getFld s TRT_CMD_PLATE
  let node := getFld s TRT_CMD_NODE
  match plateOf s p with
  | none => trtEnd .stateConflict s
  | some x =>
    if !x.served ∨ x.standby ≠ 0xFFFF ∨ !reachable s node then trtEnd .stateConflict s
    else
      let s1 := startLabel p (updPlate p (fun y => { y with standby := node }) s)
      match plateOf s1 p with
      | some y => offer p y true s1
      | none => s1

/-- DETACH (R343), on the plate that TRT_CMD holds. -/
def detachCmd (s : State) : State :=
  let p := getFld s TRT_CMD_PLATE
  match plateOf s p with
  | none => trtEnd .stateConflict s
  | some x =>
    if x.standby = 0xFFFF then trtEnd .stateConflict s
    else trtEnd .ok (releaseResv p x (startLabel p (updPlate p (fun y => { y with standby := 0xFFFF }) (detach p (offerEnd p .stateConflict s)))))

/-- TRT_CMD (R343, R467). -/
def trtCmd (w : Win) (op : Nat) (pars : List (FRef × Nat)) (act : State → State) (s : State) : State :=
  cmdWrite w 0xD0 TRT_CMD_OP op pars TRT_CMD_GO TRT_CMD_RES_STATUS TRT_CMD_RES_DONE
    (fun o t => let u := cmdStart TRT_CMD_GO TRT_CMD_RES_DONE t; if o = 1 then attachCmd u else detachCmd u) act s

def execTrtAttach (w : Win) (p node : Nat) (s : State) : Host.Outcome State Fault Refusal :=
  run true (trtCmd w 1 [(TRT_CMD_PLATE, p), (TRT_CMD_NODE, node)] attachCmd s)

def execTrtDetach (w : Win) (p : Nat) (s : State) : Host.Outcome State Fault Refusal := run true (trtCmd w 2 [(TRT_CMD_PLATE, p)] detachCmd s)

/-- The lowest free partner slot on a channel that serves (Table DRAM-2). -/
def poolFree (s : State) : Option Nat :=
  (List.range (min (getFld s CCH_GEOM_PPOOL_GIB * 262144) (4 * (s.link.pool.length + 1)))).find? (fun q => (smGet s.link.pool q).isNone && !dmcDown s (q % 4))

/-- MIRROR_WRITE (R141, R334): the slot is stored in the partner pool and acknowledged. -/
def execMirrorWrite (m : Msg) (s : State) : Host.Outcome State Fault Refusal :=
  run (decide (m.src < 512)) (arrived m (fun t =>
    let num := m.arg % 2 ^ 32
    let k := leAt m.body 0 8
    match (heldOf t m.src).find? (fun q => decide (q.2.index = bitsOf m.arg 32 6)) with
    | none => t
    | some (id, h) =>
      let old := t.link.pool.find? (fun q => decide (q.2.owner = m.src ∧ q.2.num = num))
      match (match old with | some q => some q.1 | none => poolFree t) with
      | none => t
      | some q =>
        let x : Slot :=
          { state := .dirty, plate := h.index, sn := bitsOf k 6 37, lin := bitsOf k 43 5 * h.plate.geom.bps + bitsOf k 48 8, vol := 0, zero := k.testBit 57,
            seq := leAt m.body 12 4, since := devTime t, ctx := 0, data := trimBlock (slice m.body 16 4096) }
        sendMsg m.src .mirrorAck m.tag m.arg 0 [] (updLink (fun l => { l with pool := smSet l.pool q { owner := m.src, num := num, plateId := id, slot := x } }) t)) s)

/-- MIRROR_ACK (R141). -/
def execMirrorAck (m : Msg) (s : State) : Host.Outcome State Fault Refusal :=
  run (decide (m.src < 512)) (arrived m (fun t =>
    match smGet t.cache.pmirWait m.tag with
    | none => pmirAcked m.tag m.src t
    | some q =>
      if q.1 ≠ m.src then t
      else cacheStaged q.2 (updEntry q.2 (fun e => { e with mirWait := e.mirWait - 1 }) (updCache (fun c => { c with pmirWait := smDel c.pmirWait m.tag }) t))) s)

/-- MIRROR_RELEASE (R141). -/
def execMirrorRelease (m : Msg) (s : State) : Host.Outcome State Fault Refusal :=
  run (decide (m.src < 512)) (arrived m (fun t =>
    if (heldOf t m.src).any (fun q => decide (q.2.index = bitsOf m.arg 32 6)) then
      updLink (fun l => { l with pool := l.pool.filter (fun q => !decide (q.2.owner = m.src ∧ q.2.num = m.arg % 2 ^ 32)) }) t
    else t) s)

/-- MIRROR_LOST (R334). -/
def execMirrorLost (m : Msg) (s : State) : Host.Outcome State Fault Refusal :=
  run (decide (m.src < 512)) (arrived m (fun t => if m.src ∈ standbys t then pmirSuspend m.src t else t) s)

/-! ### Remote members (R335) -/

/-- CLAIM: the highest LABEL_GEN counts. -/
def execClaim (m : Msg) (s : State) : Host.Outcome State Fault Refusal :=
  run (decide (m.src < 512)) (arrived m (fun t =>
    let gen := leAt m.body 0 8
    match smGet t.link.claims m.arg with
    | some c => if c.2 < gen then updLink (fun l => { l with claims := smSet l.claims m.arg (m.src, gen) }) t else t
    | none => updLink (fun l => { l with claims := smSet l.claims m.arg (m.src, gen) }) t) s)

/-- Serve a request of another node at a drive port; a port that is not READY gives no answer. -/
def serve (m : Msg) (op : NvOp) (s : State) : State :=
  let port := bitsOf m.arg 48 6
  if portState s port ≠ 4 then s
  else sendNv { plate := 64, mem := 0, node := nodeId s, port := port, nsid := m.arg2, sn := 0, pos := 0, op := op, lba := m.arg % 2 ^ 48, n := 1,
                data := if op = .write then slice m.body 0 4096 else [], why := .remote m.src m.tag m.arg, tries := 0 } s

def execMemberIoRead (m : Msg) (s : State) : Host.Outcome State Fault Refusal := run (decide (m.src < 512)) (arrived m (serve m .read) s)

/-- The sender may write to a namespace: it holds the highest claim of the plate whose label the namespace carries. A namespace without a
label belongs to no plate. -/
def mayWrite (s : State) (m : Msg) : Bool :=
  match nsOf s (bitsOf m.arg 48 6) m.arg2 with
  | none => false
  | some n => decide (n.plateId = 0) || decide ((smGet s.link.claims n.plateId).map Prod.fst = some m.src)

/-- MEMBER_IO_WRITE. A label copy written so is noted for its namespace. -/
def execMemberIoWrite (m : Msg) (s : State) : Host.Outcome State Fault Refusal :=
  run (decide (m.src < 512)) (arrived m (fun t =>
    if !mayWrite t m then sendMsg m.src .completion m.tag m.arg (2 ^ 16) [] t
    else
      let lba := m.arg % 2 ^ 48
      let t1 := if lba = 0 ∨ lba = 128 then updNs (bitsOf m.arg 48 6) m.arg2 (noteLabel lba m.body) t else t
      serve m .write t1) s)

/-- The 64-bit values of a page. -/
def words (b : List Byte) : List Nat := (List.range 512).map (fun i => leAt b (8 * i) 8)

/-- MEMBER_IO_COMPLETION: the member's status as the serving port gave it; `tag` is the block's protection tag as read with it. -/
def execMemberIoCompletion (m : Msg) (tag : Nat) (s : State) : Host.Outcome State Fault Refusal :=
  run (decide (m.src < 512)) (arrived m (fun t =>
    match smGet t.io.nvme m.tag with
    | none => t
    | some c =>
      if c.node ≠ m.src ∨ devFenced t then t
      else if m.arg2.testBit 16 then conflictAt c (endNv m.tag t)
      else
        let st := nvmeOf (m.arg2 % 2 ^ 16)
        match c.why with
        | .tagRd _ => tagRead m.tag st (words m.body) t
        | .tagWr _ => tagWrote m.tag st t
        | _ => if c.op = .read then memberRead m.tag st [{ data := trimBlock (slice m.body 0 4096), tag := tag }] t else memberWrote m.tag st t) s)

/-- MEMBER_IO_TIMEOUT: a command timeout after the retries (Table REBUILD-3). -/
def execMemberIoTimeout (id : Nat) (s : State) : Host.Outcome State Fault Refusal :=
  run true (match smGet s.io.nvme id with
    | none => s
    | some c =>
      if c.node = nodeId s then s
      else
        let s1 := endNv id s
        failMember c.plate c.mem .failed (if c.op = .read then readLost c s1 else s1))

/-- REMOTE_ROUTE_TIMEOUT: the members a node serves are MISSING. -/
def execRemoteRouteTimeout (node : Nat) (s : State) : Host.Outcome State Fault Refusal :=
  run (decide (node < 512)) (if node = nodeId s ∨ routeLinks s node ≠ [] then s
    else failAll (s.store.plates.flatMap (fun q => ((List.range q.2.members.length).filter (fun i =>
      decide ((q.2.mem i).map Member.node = some node))).map (fun i => (q.1, i)))) .missing s)

/-! ### Federation time (R341) -/

/-- TIME_SYNC_TIMER: the master sends SYNC to each node that follows it. -/
def execTimeSyncTimer (followers : List Nat) (s : State) : Host.Outcome State Fault Refusal :=
  run (followers.all (fun n => decide (n < 512))) (if getFld s TRT_TIME_MASTER ≠ nodeId s ∨ mute s then s
    else followers.foldl (fun t n => sendMsg n .sync 0 (toU64 (mtrTime t)) 0 [] t) s)

/-- A signed 32-bit value, saturated. -/
def sat32 (v : Int) : Nat := ((max (-2147483648) (min v 2147483647)) % (2 ^ 32 : Int)).toNat

/-- SYNC. -/
def execSync (m : Msg) (s : State) : Host.Outcome State Fault Refusal :=
  run (decide (m.src < 512)) (arrived m (fun t =>
    if !isSet t MTR_CFG_TSRC ∨ m.src ≠ getFld t TRT_TIME_MASTER ∨ m.src = nodeId t then t
    else
      let err := signed64 m.arg + (m.arg2 : Int) - mtrTime t
      let t1 := setFld TRT_TERR_NS (sat32 err) t
      if err ≤ 1000000000 ∧ -1000000000 ≤ err then mtrSlew err t1 else mtrStep err t1) s)

/-- LATENCY_PING_TIMER. -/
def execLatencyPingTimer (x : Nat) (s : State) : Host.Outcome State Fault Refusal :=
  run (decide (x < 8)) (match (tlkOf s x).nb with
    | some nb => if tlkState s x ≠ 2 then s
        else sendOn x { kind := .ping, m := { hops := 3, dst := nb, src := nodeId s, tag := 0, arg := devTime s, arg2 := 0, body := [] }, note := none } s
    | none => s)

/-- PING, answered on its link at once. -/
def execPing (x : Nat) (m : Msg) (s : State) : Host.Outcome State Fault Refusal :=
  run (decide (x < 8 ∧ m.src < 512)) (if tlkState s x ≠ 2 ∨ m.dst ≠ nodeId s then s
    else sendOn x { kind := .pong, m := { hops := 3, dst := m.src, src := nodeId s, tag := m.tag, arg := m.arg, arg2 := 0, body := [] }, note := none } s)

/-- PONG: half of the round trip, less the time the PING was held. -/
def execPong (x : Nat) (m : Msg) (s : State) : Host.Outcome State Fault Refusal :=
  run (decide (x < 8 ∧ m.src < 512)) (if tlkState s x ≠ 2 ∨ m.dst ≠ nodeId s then s
    else setFld (TLK_LAT_NS x) (min ((devTime s - m.arg - m.arg2) / 2) 65535) s)

end Sys2Proof.Machine
end

