-- ==== Sys2Proof/Machine/View.lean ====
section
/-! DEFINITION. What a read of a register field returns (R438, R442): the fields of each page, and the values that follow other parts of
the state. -/

namespace Sys2Proof.Machine
open Reg

/-! ### The fields of a page -/

/-- The fields of session 1, which Table ROLE-9 lays out as those of session 0. -/
def rowsSess1 : List RegRow :=
  [⟨sessFld 1, .ro, 0, 3⟩, ⟨sessStrap 1, .ro, 0, 1⟩, ⟨sessNonce 1, .ro, 0, 1⟩, ⟨⟨3, 0x48, 4, 11, 0, 0⟩, .ro, 0, 2047⟩, ⟨sessFails 1, .ro, 0, 3⟩,
   ⟨sessLocked 1, .ro, 0, 1⟩]

/-- The block registers of a page; none for a page that Table PAGE-5 does not assign. -/
def blockRows (s : State) (p : Nat) : Option (List RegRow) :=
  let sel := getFld s
  if p = 0 then some rowsCHIP
  else if p = 1 then some rowsPWR
  else if p = 2 then some rowsCLK
  else if p = 3 then some (rowsROLE ++ rowsSess1)
  else if p = 4 then some (rowsFLT sel)
  else if p = 5 then some (rowsICU sel)
  else if p = 6 then some (rowsEVR sel)
  else if p = 7 then some (rowsBEM sel)
  else if p = 8 then some rowsSUM
  else if 0x10 ≤ p ∧ p ≤ 0x11 then some (rowsHEP (p - 0x10))
  else if 0x20 ≤ p ∧ p ≤ 0x23 then some (rowsDMC sel (p - 0x20))
  else if p = 0x28 then some rowsCCH
  else if p = 0x29 then some rowsVLT
  else if p = 0x2A then some (rowsJNL sel)
  else if p = 0x2B then some rowsADM
  else if 0x30 ≤ p ∧ p ≤ 0x37 then some (rowsBUR (p - 0x30))
  else if p = 0x38 then some (rowsPRF sel)
  else if p = 0x39 then some rowsRBD
  else if 0x40 ≤ p ∧ p ≤ 0x7F then some (rowsPLT sel (p - 0x40))
  else if 0x80 ≤ p ∧ p ≤ 0xBF then some (rowsDPT (p - 0x80))
  else if 0xC0 ≤ p ∧ p ≤ 0xC3 then some (rowsSSB sel (p - 0xC0))
  else if 0xC8 ≤ p ∧ p ≤ 0xCF then some (rowsTLK sel (p - 0xC8))
  else if p = 0xD0 then some (rowsTRT sel)
  else if p = 0xDF then some rowsMOV
  else if 0xE0 ≤ p ∧ p ≤ 0xEF then some (rowsMCH (p - 0xE0))
  else if p = 0x100 then some rowsTSC
  else if p = 0x101 then some rowsMTR
  else if 0x110 ≤ p ∧ p ≤ 0x113 then some (rowsMGC (p - 0x110))
  else if 0x1000 ≤ p ∧ p ≤ 0x1FFF then some (rowsCTX (p - 0x1000))
  else none

/-- Every field of a page that has a header (Tables PAGE-1 and PAGE-5). -/
def pageRows (s : State) (p : Nat) : List RegRow :=
  match blockRows s p with
  | some r => rowsPG p ++ r
  | none => []

/-! ### The header -/

/-- PG_CTL.ENABLE as it reads (the tables of header controls). -/
def enableView (s : State) (p : Nat) : Bool :=
  if p ∈ [0, 1, 2, 3, 4, 8] ∨ (0x110 ≤ p ∧ p ≤ 0x113) ∨ (0x1000 ≤ p ∧ p ≤ 0x1FFF) then true
  else if p = 0x2A ∨ p = 0xD0 then devReady s || enabled s p
  else if 0x10 ≤ p ∧ p ≤ 0x11 then decide ((p - 0x10) ∉ s.host.perst) && decide (5 ≤ getFld s CHIP_DEV_STAT_PHASE)
  else enabled s p

/-- PG_STAT.BUSY: the block has work in progress. -/
def busyView (s : State) (p : Nat) : Bool :=
  if p = 0x2B then decide (s.io.queue ≠ []) || decide (s.io.waitl ≠ [])
  else if p = 0x2A then decide (s.io.journal ≠ [])
  else if 0x30 ≤ p ∧ p ≤ 0x37 then s.io.jobs.any (fun j => decide (j.pipe = p - 0x30))
  else if p = 0x28 then s.cache.flush.isSome || s.cache.slots.any (fun q => decide (q.2.state = .destaging))
  else if p = 0x29 then s.cache.dumping || decide (s.cache.replay = 2)
  else if p = 0x38 then s.io.sops.any (fun q => decide (q.2.kind = .proof))
  else if p = 0x39 then s.io.sops.any (fun q => decide (q.2.kind = .rebuild))
  else if 0x40 ≤ p ∧ p ≤ 0x7F then ((plateOf s (p - 0x40)).map (fun x => x.pass.running || x.building || x.importing)).getD false
  else if 0x80 ≤ p ∧ p ≤ 0xBF then decide (portCmds s (p - 0x80) ≠ []) || decide (portState s (p - 0x80) ∈ [1, 2, 3, 5])
  else if 0x10 ≤ p ∧ p ≤ 0x11 then decide (readsOut s (p - 0x10) ≠ 0)
  else if 0x20 ≤ p ∧ p ≤ 0x23 then decide (dmcState s (p - 0x20) ∈ [1, 2])
  else if 0xC8 ≤ p ∧ p ≤ 0xCF then decide ((tlkOf s (p - 0xC8)).queue ≠ []) || decide ((tlkOf s (p - 0xC8)).cur ≠ [])
  else if p = 0xD0 then decide (s.link.offers ≠ []) || s.link.held.any (fun q => decide (q.2.taking ≠ 0))
  else if p = 0xDF then s.mover.run.isSome
  else if 0xE0 ≤ p ∧ p ≤ 0xEF then decide (chState s (p - 0xE0) ≠ 0)
  else if p = 4 then decide (s.flt.queue ≠ [])
  else if p = 6 then decide (s.evr.due ≠ [])
  else if p = 8 then s.sum.cur.isSome
  else if 0x1000 ≤ p ∧ p ≤ 0x1FFF then decide (getFld s (CTX_OUT_OUTSTANDING (p - 0x1000)) ≠ 0)
  else false

/-- PG_STAT.READY: the block is in service. -/
def readyView (s : State) (p : Nat) : Bool :=
  if 0x40 ≤ p ∧ p ≤ 0x7F then (plateOf s (p - 0x40)).isSome
  else if p = 0x29 then isSet s (PG_STAT_READY p)
  else if 0x80 ≤ p ∧ p ≤ 0xBF then decide (portState s (p - 0x80) = 4)
  else if 0x20 ≤ p ∧ p ≤ 0x23 then decide (dmcState s (p - 0x20) = 3)
  else if 0xC8 ≤ p ∧ p ≤ 0xCF then decide (tlkState s (p - 0xC8) = 2)
  else enableView s p && !fenced s p

/-- PG_STAT.ASLEEP (the Sleep rows of the tables of header controls). CLK_REQ keeps awake what has power (R439). -/
def asleepView (s : State) (p : Nat) : Bool :=
  if isSet s (PG_CTL_CLK_REQ p) ∧ !(0x110 ≤ p ∧ p ≤ 0x113) ∧ !(0x80 ≤ p ∧ p ≤ 0xBF) then isSet s (PG_STAT_ASLEEP p)
  else if 0x80 ≤ p ∧ p ≤ 0xBF then isSet s (PG_STAT_ASLEEP p) || decide (portState s (p - 0x80) ∈ [0, 6])
  else if p = 0xDF then !(List.range 16).any (fun c => decide (chState s c ≠ 0))
  else if 0xE0 ≤ p ∧ p ≤ 0xEF then decide (chState s (p - 0xE0) = 0)
  else if 0x110 ≤ p ∧ p ≤ 0x113 then coreWfi s (p - 0x110) || !corePowered s (p - 0x110)
  else isSet s (PG_STAT_ASLEEP p)

/-- PG_STAT.FROZEN. -/
def frozenView (s : State) (p : Nat) : Bool :=
  if 0x20 ≤ p ∧ p ≤ 0x23 then decide (dmcState s (p - 0x20) = 5)
  else if p = 0x2B then isSet s ADM_STAT_FROZEN else isSet s (PG_STAT_FROZEN p)

/-! ### Block registers that follow the state -/

/-- Progress of the copy of R79 on a plate: the Writes of it that have ended, in percent (DESIGN CHOICE, notes/assumptions/153.md). -/
def copyPct (s : State) (p : Nat) : Nat :=
  match plateOf s p with
  | none => 0
  | some x =>
    if !x.jp.copying then 0
    else if x.jp.copyAll = 0 then 100
    else 100 * (x.jp.copyAll - (s.io.nvme.filter (fun q => decide (q.2.why = .remir p x.jp.copyTo))).length) / x.jp.copyAll

/-- Entries whose STATE is one of Table WRITE-5's. -/
def countState (s : State) (st : JState) : Nat := (s.io.journal.filter (fun q => decide (q.2.state = st))).length

def viewJnl (s : State) : List (FRef × Nat) :=
  let p := getFld s JNL_PLATE_SEL_PLATE
  let ms := (((plateOf s p).map (fun x => (jmembers x).map Prod.fst)).getD []).mergeSort (fun a b => decide (a ≤ b))
  let valid := b2n (((plateOf s p).map (fun x => decide (x.jp.hdrWait = 0) && !x.jp.refill)).getD false)
  let old := (s.io.journal.filter (fun q => decide (q.2.state ≠ .committed))).map (fun q => devTime s / 1000 - q.2.openUs)
  [(JNL_STAT_UNBACKED, getFld s CCH_MODE_UNBACKED), (JNL_STAT_STALL, b2n (s.store.plates.any (fun q => stalled50 s q.1))),
   (JNL_STAT_REMIRROR, b2n (s.store.plates.any (fun q => q.2.jp.copying))), (JNL_OCC_USED, s.io.journal.length), (JNL_CNT_A_OPEN, countState s .opened),
   (JNL_CNT_A_STAGED, countState s .dataStaged), (JNL_CNT_B_PARITY, countState s .parityDone), (JNL_CNT_B_COMMITTED, countState s .committed),
   (JNL_MEMBERS_MEMBER_A p, (ms[0]?).getD 0), (JNL_MEMBERS_A_VALID p, if (ms[0]?).isSome then valid else 0), (JNL_MEMBERS_MEMBER_B p, (ms[1]?).getD 0),
   (JNL_MEMBERS_B_VALID p, if (ms[1]?).isSome then valid else 0), (JNL_MEMBERS_COPY_PCT p, copyPct s p),
   (JNL_LOG_USED_BLOCKS p, ((logRuns s p).map Prod.snd).sum),
   (JNL_OLDEST_AGE_US, min (old.foldl max 0) 0xFFFFFFFF)]

def viewAdm (s : State) : List (FRef × Nat) :=
  [(ADM_STAT_WAIT_FULL, b2n (decide (16384 ≤ s.io.waitl.length))), (ADM_LOCKS_HELD, s.io.locks.length), (ADM_WAIT_ITEMS, (waitItems s).length)]

/-- A percentage of the stripes of a plate. -/
def pct (x : Plate) (cursor : Nat) : Nat := if x.stripes = 0 then 0 else min (100 * cursor / x.stripes) 100

def viewPlt (s : State) (p : Nat) : List (FRef × Nat) :=
  match plateOf s p with
  | none => []
  | some x =>
    let m := getFld s (PLT_MSEL_MEMBER p)
    let y := x.mem m
    let now := opMin s
    [(PLT_STAT_STATE p, pstateCode (plateState x)), (PLT_STAT_DEFINED p, 1), (PLT_STAT_U p, min x.u 7), (PLT_STAT_PASS p, b2n x.pass.running),
     (PLT_STAT_FAILED_LATCH p, b2n x.latch), (PLT_STAT_RANGES p, x.ranges.length - 1), (PLT_STAT_ONLINE p, (x.membersIn [.online]).length),
     (PLT_GEOM_N p, x.geom.n), (PLT_GEOM_W p, x.geom.w), (PLT_GEOM_L p, x.geom.l), (PLT_GEOM_STRIP_SHIFT p, x.geom.shift), (PLT_ROWS_ROWS p, x.geom.rows),
     (PLT_CURSOR_LO_SN_LO p, x.pass.cursor % 2 ^ 32), (PLT_CURSOR_HI_SN_HI p, x.pass.cursor / 2 ^ 32), (PLT_CURSOR_HI_PCT p, pct x x.pass.cursor),
     (PLT_CKPT_LO_SN_LO p, x.pass.ckpt % 2 ^ 32), (PLT_CKPT_HI_SN_HI p, x.pass.ckpt / 2 ^ 32), (PLT_LBT_COUNT p, x.lbt.length), (PLT_LBT_FULL p, b2n x.lbtFull),
     (PLT_MINFO_STATE p m, (y.map (fun z => mstateCode z.state)).getD 0), (PLT_MINFO_HOSTING p m, b2n (y.isSome && x.hosts m)),
     (PLT_MINFO_PORT p m, (y.map Member.port).getD 0), (PLT_MINFO_FAIL_SEQ p m, (y.map Member.failSeq).getD 0),
     (PLT_MERR_COUNT p m, min ((y.map (fun z => (z.errs.filter (fun t => decide (now < t + 1440))).length)).getD 0) 65535)]

/-- The plates that meet a condition, as a mask. -/
def plateMask (s : State) (f : Plate → Bool) : Nat := s.store.plates.foldl (fun a q => if f q.2 then a ||| 2 ^ q.1 else a) 0

def viewRbd (s : State) : List (FRef × Nat) :=
  let m := plateMask s (fun x => x.pass.running)
  [(RBD_ACTIVE_LO_PLATES, m % 2 ^ 32), (RBD_ACTIVE_HI_PLATES, m / 2 ^ 32),
   (RBD_STEPS_COUNT, (s.io.sops.filter (fun q => decide (q.2.kind = .rebuild))).length)]

def viewPrf (s : State) : List (FRef × Nat) :=
  let m := plateMask s (fun x => x.cycle.running)
  let p := getFld s PRF_PSEL_PLATE
  let i := getFld s PRF_SSEL_INDEX
  let plate := match plateOf s p with
    | none => []
    | some x =>
      [(PRF_PCUR_LO_SN_LO p, x.cycle.cursor % 2 ^ 32), (PRF_PCUR_HI_SN_HI p, x.cycle.cursor / 2 ^ 32), (PRF_PCUR_HI_PCT p, pct x x.cycle.cursor),
       (PRF_PSTAT_RUNNING p, b2n x.cycle.running), (PRF_PSTAT_SUSPENDED p, b2n (x.cycle.running && x.cycle.suspended)),
       (PRF_PSTAT_OVERDUE p, b2n x.cycle.overdue), (PRF_PSTAT_AGE_H p, if x.cycle.started then min (((nowS s : Int) - x.cycle.startAt).toNat / 3600) 65535 else 0),
       (PRF_PLAST_OP_MIN p, x.cycle.lastEnd)]
  let entry := match s.store.suspects[i]? with
    | none => []
    | some e =>
      [(PRF_SENT_SN_LO_SN_LO i, e.sn % 2 ^ 32), (PRF_SENT_SN_HI_SN_HI i, e.sn / 2 ^ 32), (PRF_SENT_SN_HI_PLATE i, plateIxOf s e.plateId),
       (PRF_SENT_SN_HI_CAUSE i, e.why), (PRF_SENT_SN_HI_VALID i, 1), (PRF_SENT_BLK_BLK_FIRST i, e.first), (PRF_SENT_BLK_BLK_LAST i, e.last),
       (PRF_SENT_TIME_OP_MIN i, e.opMin)]
  [(PRF_ACTIVE_LO_PLATES, m % 2 ^ 32), (PRF_ACTIVE_HI_PLATES, m / 2 ^ 32),
   (PRF_UNITS_COUNT, (s.io.sops.filter (fun q => decide (q.2.kind = .proof))).length), (PRF_SUSP_COUNT, s.store.suspects.length)] ++ plate ++ entry

def viewCch (s : State) : List (FRef × Nat) :=
  let ages := (s.cache.slots.filter (fun q => decide (q.2.state = .dirty))).map (fun q => (devTime s - q.2.since) / 1000000)
  [(CCH_MODE_PARTNER_ACTIVE, b2n (s.store.plates.any (fun q => (partnerFor s q.1).isSome))), (CCH_DIRTY_SLOTS, s.cache.slots.length), (CCH_OLDEST_AGE_MS, min (ages.foldl max 0) 0xFFFFFFFF), (CCH_LOSTW_ENTRIES, s.store.lostw.length)]

def viewHep (s : State) (n : Nat) : List (FRef × Nat) :=
  [(HEP_OUT_READS n, readsOut s n), (HEP_LINK_LTSSM n, (Config.ltssm s.fresh).toNat),
   (HEP_OUT_HELD n, min 1024 (s.host.fns.map (fun q => if q.1 / 1024 = n then q.2.held.length else 0)).sum)]

/-- A link's routes and a partner, for the selected node (Table LINK-6). -/
def viewTrt (s : State) : List (FRef × Nat) :=
  let n := getFld s TRT_SEL_NODE
  let owns := (s.link.held.filter (fun q => decide (q.2.plate.owner = n))).length
  let stands := (platesWith s n).length
  let age := match smGet s.link.seen n with
    | some t => min ((devTime s - t) / 1000000) 255
    | none => 0
  [(TRT_ENTRY_UP n, b2n (decide (tlkState s (getFld s (TRT_ENTRY_LINK n)) = 2))), (TRT_PEER_OWNER n, b2n (decide (owns ≠ 0))),
   (TRT_PEER_STANDBY n, b2n (decide (stands ≠ 0))), (TRT_PEER_LEASE_OK n, b2n ((smGet s.link.leased n).isSome || decide (n ∈ s.link.acked))),
   (TRT_PEER_AGE_MS n, age), (TRT_PEER_PLATES n, owns + stands)]

/-- The source that ICU_SRC_SEL selects, the pending word, and the cores (Table IRQ-3). -/
def viewIcu (s : State) : List (FRef × Nat) :=
  let i := getFld s ICU_SRC_SEL_SOURCE
  let w := getFld s ICU_PEND_SEL_WORD
  let c0 := ctxFirst s 0
  let c1 := ctxFirst s 1
  [(ICU_SRC_STAT_LINE i, b2n (lineNow s i)), (ICU_SRC_STAT_PENDING i, b2n (isPending s i)), (ICU_SRC_STAT_CLAIMED i, b2n (claimed s i)),
   (ICU_SRC_STAT_CLAIM_CORE i, ((smGet s.icu.claims i).map Prod.fst).getD 0), (ICU_SRC_STAT_MOD_WAIT i, b2n (modHeld s i && isPending s i)),
   (ICU_SRC_STAT_OFF_WAIT i, b2n (deliverable s i && !corePowered s (targetOf s i))),
   (ICU_PEND_PEND w, ((List.range 32).map (fun b => if isPending s (32 * w + b) then 2 ^ b else 0)).sum),
   (ICU_CTX_FIRST_PORT0, c0.getD 0), (ICU_CTX_FIRST_VALID0, b2n c0.isSome), (ICU_CTX_FIRST_PORT1, c1.getD 0), (ICU_CTX_FIRST_VALID1, b2n c1.isSome)] ++
  (List.range 4).flatMap (fun n => [(ICU_CORE_WFI n, b2n (coreWfi s n)), (ICU_CORE_POWERED n, b2n (corePowered s n))])

/-- The log entry that FLT_LOG_SEL selects, and whether FLT_CMD releases the page that FLT_FENCE_SEL selects (Tables FAULT-4, FAULT-5). -/
def unfenceOk (p : Nat) : Bool :=
  decide (p ∈ [6, 7, 8, 0x29, 0x38, 0xDF, 0x100, 0x101]) || (decide (0x30 ≤ p) && decide (p ≤ 0x37)) || (decide (0x40 ≤ p) && decide (p ≤ 0xC3)) ||
  (decide (0xC8 ≤ p) && decide (p ≤ 0xCF)) || (decide (0xE0 ≤ p) && decide (p ≤ 0xEF))

def viewFlt (s : State) : List (FRef × Nat) :=
  let e := (s.flt.log[getFld s FLT_LOG_SEL_INDEX]?).getD (0, 0)
  let p := getFld s FLT_FENCE_SEL_PAGE
  [(FLT_LOG_LO_MSG, e.1 % 2 ^ 32), (FLT_LOG_HI_MSG, e.1 / 2 ^ 32), (FLT_LOG_TIME_US, e.2 % 2 ^ 32), (FLT_STAT_FTEST, b2n (ftest s)),
   (FLT_FENCE_STAT_FENCED p, b2n (fenced s p)), (FLT_FENCE_STAT_UNFENCE_OK p, b2n (unfenceOk p))]

/-- The live value of a measure, as 64 bits (R427, Table ROLE-10). -/
def measure (s : State) (code : Nat) : Nat :=
  if code / 2 ^ 14 = 0 then smGetD s.evr.events code 0
  else if code / 2 ^ 14 = 1 then smGetD s.evr.counts code 0
  else if code / 2 ^ 14 = 2 then ((smGet s.evr.hists code).map (fun h => (h.bins.map Prod.snd).sum)).getD 0
  else ((smGet s.evr.exts code).map (fun e => toU64 e.last.val)).getD 0

def viewEvr (s : State) : List (FRef × Nat) :=
  let v := measure s (getFld s EVR_MSEL_CODE)
  [(EVR_MVAL_LO_VALUE (getFld s EVR_MSEL_CODE), v % 2 ^ 32), (EVR_MVAL_HI_VALUE, v / 2 ^ 32)]

/-- Seconds a session has been idle; a session at its base role does not run out (R417). -/
def idleView (s : State) (n : Nat) : Nat :=
  if getFld s (sessFld n) = baseRole s then 0 else min ((devTime s - smGetD s.role.need n 0) / 1000000000) 1800

def viewRole (s : State) : List (FRef × Nat) :=
  [(ROLE_SESS0_IDLE_S, idleView s 0), (⟨3, 0x48, 4, 11, 0, 0⟩, idleView s 1), (ROLE_STAT_FACTORY, b2n (ftest s))]

/-- Some link's STANDBY conditions of R400 on plates fail while STBY_EN is 1. -/
def plateBlocks (s : State) : Bool := s.store.plates.any (fun q => q.2.attached) || decide (s.link.held ≠ [])

def viewPwr (s : State) : List (FRef × Nat) := [(PWR_STAT_STBY_BLOCKED, b2n (isSet s PWR_CFG_STBY_EN && plateBlocks s))]

def viewCtx (_ : State) : List (FRef × Nat) := []

/-- The fields of a page's block registers that follow the state. -/
def blockView (s : State) (p : Nat) : List (FRef × Nat) :=
  if p = 0 then [(CHIP_DEV_TIME_LO_NS, devTime s % 2 ^ 32), (CHIP_DEV_TIME_HI_NS, devTime s / 2 ^ 32 % 2 ^ 32), (CHIP_MODE_UNBACKED, getFld s CCH_MODE_UNBACKED)]
  else if p = 1 then viewPwr s
  else if p = 3 then viewRole s
  else if p = 4 then viewFlt s
  else if p = 5 then viewIcu s
  else if p = 6 then viewEvr s
  else if p = 7 then [(BEM_STAT_AUTH, bemAuth s), (BEM_STORE_SEQ, ((slotRead s estA estB 0x0C estValid).map (fun r => leAt r 0x0C 4)).getD 0)]
  else if 0x10 ≤ p ∧ p ≤ 0x11 then viewHep s (p - 0x10)
  else if p = 0x28 then viewCch s
  else if p = 0x29 then [(VLT_STAT_DIRTY_LATCH, b2n (dirtyLatch s)), (VLT_STAT_REPLAYING, b2n (decide (s.cache.replay = 2)))]
  else if p = 0x2A then viewJnl s
  else if p = 0x2B then viewAdm s
  else if 0x30 ≤ p ∧ p ≤ 0x37 then [(BUR_STAT_JOBS (p - 0x30), (s.io.jobs.filter (fun j => decide (j.pipe = p - 0x30))).length)]
  else if p = 0x38 then viewPrf s
  else if p = 0x39 then viewRbd s
  else if 0x40 ≤ p ∧ p ≤ 0x7F then viewPlt s (p - 0x40)
  else if 0x80 ≤ p ∧ p ≤ 0xBF then
    [(DPT_OUT_COUNT (p - 0x80), ((portCmds s (p - 0x80)).filter (fun q => q.2.pair.isSome)).length), (DPT_LINK_LTSSM (p - 0x80), if portState s (p - 0x80) ∈ [2, 3, 4, 5] then (Config.ltssm s.fresh).toNat else 0),
     (DPT_SLOT_STS_EVENTS (p - 0x80), getFld s (PG_EVT_EVT p) % 2 ^ 9)]
  else if p = 0xD0 then viewTrt s
  else if p = 0xDF then [(MOV_PEND_MASK, pendMask s)]
  else if p = 0x100 then [(TSC_MIN_SUM_UNITS, minSum s 4096)]
  else if p = 0x101 then
    [(MTR_TOFF_LO_NS, toU64 (mtrOff s) % 2 ^ 32), (MTR_TOFF_HI_NS, toU64 (mtrOff s) / 2 ^ 32),
     (MTR_TIME_LO_NS, toU64 (mtrTime s) % 2 ^ 32), (MTR_TIME_HI_NS, toU64 (mtrTime s) / 2 ^ 32),
     (MTR_SLEW_LEFT_NS, toU64 (s.sched.slew - slewed s) % 2 ^ 32), (MTR_EPOCH_EPOCH, s.sched.epoch)]
  else if 0x110 ≤ p ∧ p ≤ 0x113 then
    [(MGC_PC_LO_PC (p - 0x110), (Config.corePc s.fresh).toNat % 2 ^ 32), (MGC_PC_HI_PC (p - 0x110), (Config.corePc s.fresh).toNat / 2 ^ 32)]
  else []

/-- The header fields that follow the state. -/
def headView (s : State) (p : Nat) : List (FRef × Nat) :=
  [(PG_CTL_ENABLE p, b2n (enableView s p)), (PG_STAT_READY p, b2n (readyView s p)), (PG_STAT_BUSY p, b2n (busyView s p)),
   (PG_STAT_ASLEEP p, b2n (asleepView s p)), (PG_STAT_FROZEN p, b2n (frozenView s p))]

/-- The value a field of a page reads as: WO and self-clearing bits read 0 because nothing is kept for them. -/
def viewFld (s : State) (f : FRef) : Nat :=
  match (headView s f.page ++ blockView s f.page).find? (fun q => decide (q.1.key = f.key)) with
  | some q => q.2 % 2 ^ f.width
  | none => getFld s f

/-- The 32-bit register at an offset of a page; a reserved offset reads 0 (R5). -/
def regWord (s : State) (p off : Nat) : Nat :=
  ((pageRows s p).map (fun r => if r.f.off = off ∧ r.acc ≠ .wo then viewFld s r.f * 2 ^ r.f.lo else 0)).sum

end Sys2Proof.Machine
end

