-- ==== Sys2Proof/Machine/Volumes.lean ====
section
/-! DEFINITION. The admin commands on volumes, plates and pages (R216 to R222), and the resynchronisation summary (R228, R448). -/

namespace Sys2Proof.Machine
open Reg

/-! ### Volumes -/

/-- A row of an admin command that has started runs again while its work goes on; how far it is stands in the command. -/
def setTries (n k : Nat) (s : State) : State := updCmd n (fun y => { y with tries := k, fail := none }) s

/-- VOLUME_INFO. -/
def volInfo (n : Nat) (x : Cmd) (s : State) : State :=
  match volOf s (enVol x.raw) with
  | some v => adminOk n x 0 (adminOut x (volBytes (enVol x.raw) v.seq true v) s)
  | none => endCmd n .invalidField 4 0 s

def execVolumeInfo (cmd : Nat) (s : State) : Host.Outcome State Fault Refusal := run true (adminDo cmd 0x80 (volInfo cmd) s)

/-- The plate takes extents (R217). -/
def placing (x : Plate) : Bool := !x.gone && decide (plateState x ∈ [.optimal, .degraded1, .degraded2, .rebuilding, .copyback])

/-- The free slots of a plate, lowest first; those of an unreadable catalogue page are not placed (R41). -/
def freeSlots (x : Plate) : List Nat :=
  (List.range x.geom.slots).filter (fun e => (smGet x.cat e).isNone && decide (e / 511 ∉ x.catBad))

/-- The extent-map entries of the volumes other than one (R27). -/
def mapEntries (s : State) (but : Nat) : Nat := ((s.store.vols.filter (fun q => decide (q.1 ≠ but))).map (fun q => q.2.extents)).sum

/-- The extent-map entries of all volumes would pass 4,194,304 (R27); the spec names no status for it: NO_SPACE (DESIGN CHOICE,
notes/assumptions/137.md). -/
def mapFull (s : State) (v n : Nat) : Bool := decide (4194304 < mapEntries s v + n)

/-- Of chosen plates with their free slots, the first from position i on, wrapping, that has one (R217). -/
def takeSlot (free : List (Nat × List Nat)) (i : Nat) : Option (Nat × Nat × List (Nat × List Nat)) :=
  let n := free.length
  ((List.range n).map (fun k => (i + k) % n)).findSome? (fun k => match free[k]? with
    | some (p, e :: rest) => some (p, e, free.set k (p, rest))
    | _ => none)

/-- Where extents go, as (extent, plate, slot): extent x starts at chosen plate x mod P (R217). -/
def placeAll (free : List (Nat × List Nat)) : List Nat → List (Nat × Nat × Nat)
  | [] => []
  | x :: rest => match takeSlot free (x % max free.length 1) with
    | some (p, e, free1) => (x, p, e) :: placeAll free1 rest
    | none => []

/-- Put extents of a volume into their slots, each plate's catalogue pages written once. -/
def placeExtents (v : Nat) (l : List (Nat × Nat × Nat)) (s : State) : State :=
  ((l.map (fun q => q.2.1)).eraseDups).foldl (fun t p =>
    let mine := l.filter (fun q => decide (q.2.1 = p))
    catChange p (fun m => mine.foldl (fun a q => smSet a q.2.2 (v, q.1)) m) ((mine.map (fun q => q.2.2 / 511)).eraseDups) t) s

/-- The plates of a mask owned here, ascending. -/
def maskPlates (s : State) (mask : Nat) : List (Nat × Plate) := s.store.plates.filter (fun q => mask.testBit q.1 && !q.2.gone)

/-- Place extents x0 to n-1 on named plates, of which `old` are listed already: the status and DETAIL of a refusal, else the chosen plates and
the places (R217, R220). -/
def choosePlaces (named : List (Nat × Plate)) (old : List Nat) (x0 n : Nat) : (Status × Nat) ⊕ (List Nat × List (Nat × Nat × Nat)) :=
  let ok := named.filter (fun q => placing q.2)
  if named = [] then .inl (.invalidField, 0x28)
  else if ok = [] then .inl (.stateConflict, 0)
  else
    let withRoom := ok.filter (fun q => decide (freeSlots q.2 ≠ []))
    let new := (withRoom.filter (fun q => decide (q.2.id ∉ old))).take (4 - old.length)
    let chosen := withRoom.filter (fun q => decide (q.2.id ∈ old) || new.any (fun r => decide (r.1 = q.1)))
    let free := chosen.map (fun q => (q.1, freeSlots q.2))
    if (free.map (fun q => q.2.length)).sum < n - x0 then .inl (.noSpace, 0)
    else .inr (chosen.map (fun q => q.2.id), placeAll free ((List.range (n - x0)).map (· + x0)))

/-- The PLATE_IDs that places use, after those listed. -/
def listPlates (s : State) (old : List Nat) (l : List (Nat × Nat × Nat)) : List Nat :=
  (old ++ ((l.map (fun q => q.2.1)).eraseDups).filterMap (fun p => (plateOf s p).map Plate.id)).eraseDups

/-- CREATE_VOLUME with ADOPT: the volume is built from the entries of one plate (R217). -/
def adoptVolume (n : Nat) (x : Cmd) (s : State) : State :=
  let v := enVol x.raw
  if ((List.range 64).filter (fun i => (enAux x.raw).testBit i)).length ≠ 1 then endCmd n .invalidField 0x28 0 s
  else match maskPlates s (enAux x.raw) with
    | (_, pl) :: _ =>
      let es := ((pl.cat.filter (fun e => decide (e.2.1 = v))).map (fun e => e.2.2)).eraseDups
      if es = [] ∨ (volOf s v).isSome then endCmd n .stateConflict 0 0 s
      else if enCdw x.raw ≤ es.foldl max 0 then endCmd n .invalidField 0x14 0 s
      else if mapFull s v (enCdw x.raw) then endCmd n .noSpace 0 0 s
      else adminOk n x es.length (volWrite v true { extents := enCdw x.raw, plates := [pl.id], attach := [none, none, none, none], deleting := false, seq := 0 } s)
    | [] => endCmd n .stateConflict 0 0 s

/-- CREATE_VOLUME (R217): the completion follows the catalogue writes. -/
def createVolume (n : Nat) (x : Cmd) (s : State) : State :=
  let v := enVol x.raw
  if x.tries = 1 then (if catBusy s then s else adminOk n x (enCdw x.raw) s)
  else if enAux2 x.raw % 2 = 1 then adoptVolume n x s
  else if (volOf s v).isSome then endCmd n .stateConflict 0 0 s
  else match choosePlaces (maskPlates s (enAux x.raw)) [] 0 (enCdw x.raw) with
    | .inl (st, d) => endCmd n st d 0 s
    | .inr (_, l) =>
      if mapFull s v (enCdw x.raw) then endCmd n .noSpace 0 0 s else
      let vol : Vol := { extents := enCdw x.raw, plates := listPlates s [] l, attach := [none, none, none, none], deleting := false, seq := 0 }
      setTries n 1 (volWrite v true vol (placeExtents v l s))

def execCreateVolume (cmd : Nat) (s : State) : Host.Outcome State Fault Refusal := run true (adminDo cmd 0x81 (createVolume cmd) s)

def attachedTo (v : Vol) : List (Nat × Nat × Bool) := v.attach.filterMap id

/-- Why the extents of a volume from one on cannot be freed now: a plate that takes no writes, or a fenced one. -/
def freeBad (s : State) (v x0 : Nat) : Option Status :=
  let ps := ((placedFrom s v x0).map (fun q => q.2.1)).eraseDups
  if ps.any (fun p => ((plateOf s p).map (fun x => !x.served || x.latch)).getD true) then some .stateConflict
  else if fenced s 0x2B || fenced s 0x2A || ps.any (plateFenced s) then some .fenced
  else none

/-- Free the extents of a volume from x0 on, one after the other: ZERO is written over each, then its slot is freed (R220). `fin` follows
the last. A plate that fails meanwhile holds the command, since STATE_CONFLICT has no side effect (R210; DESIGN CHOICE,
notes/assumptions/85.md). -/
def freeExtents (n v x0 : Nat) (x : Cmd) (fin : State → State) (s : State) : State :=
  let next := fun (t : State) => match (placedFrom t v x0).head? with
    | some (e, _, _) => presentZero n v e (setTries n (e + 2) t)
    | none => if catBusy t then setTries n 1 t else fin t
  if x.waits ≠ 0 then s
  else if x.tries ≤ 1 then next s
  else match x.fail, extentOf s v (x.tries - 2) with
    | some (_, .busyRetry), _ => presentZero n v (x.tries - 2) (setTries n x.tries s)
    | some (_, .stateConflict), _ => presentZero n v (x.tries - 2) (setTries n x.tries s)
    | some (_, st), _ => endCmd n st 0 0 (setTries n 0 s)
    | none, .slot p e => next (clearSlot p e s)
    | none, _ => next s

/-- DELETE_VOLUME (R220). A volume that another command has deleted since the check ends a command as row 5 of Table RING-5 does (DESIGN CHOICE,
notes/assumptions/86.md). -/
def deleteVolume (n : Nat) (x : Cmd) (s : State) : State :=
  let v := enVol x.raw
  match volOf s v with
  | none => endCmd n .invalidField 4 0 s
  | some vol =>
    if x.tries = 0 then
      if attachedTo vol ≠ [] then endCmd n .stateConflict 0 0 s
      else match freeBad s v 0 with
        | some st => endCmd n st 0 0 s
        | none => freeExtents n v 0 x (fun t => adminOk n x 0 (volGone v t)) (setTries n 1 (volWrite v true { vol with deleting := true } s))
    else freeExtents n v 0 x (fun t => adminOk n x 0 (volGone v t)) s

def execDeleteVolume (cmd : Nat) (s : State) : Host.Outcome State Fault Refusal := run true (adminDo cmd 0x82 (deleteVolume cmd) s)

/-- The end of a shrink: lost-write entries of the extents go, and the descriptor takes the new size (R220). -/
def shrinkEnd (n v size : Nat) (x : Cmd) (s : State) : State :=
  match volOf s v with
  | some vol => adminOk n x 0 (volWrite v true { vol with extents := size } (volLostDel v size s))
  | none => adminOk n x 0 s

/-- RESIZE_VOLUME (R220). -/
def resizeVolume (n : Nat) (x : Cmd) (s : State) : State :=
  let v := enVol x.raw
  let size := enCdw x.raw
  match volOf s v with
  | none => endCmd n .invalidField 4 0 s
  | some vol =>
    if x.tries = 1 ∧ x.result ≠ 0 then (if catBusy s then s else adminOk n x x.result s)
    else if size < vol.extents then
      if x.tries = 0 then
        if attachedTo vol ≠ [] then endCmd n .stateConflict 0 0 s
        else match freeBad s v size with
          | some st => endCmd n st 0 0 s
          | none => freeExtents n v size x (shrinkEnd n v size x) (setTries n 1 s)
      else freeExtents n v size x (shrinkEnd n v size x) s
    else if size = vol.extents then adminOk n x 0 s
    else
      let named := s.store.plates.filter (fun q => ((enAux x.raw).testBit q.1 || decide (q.2.id ∈ vol.plates)) && !q.2.gone)
      match choosePlaces named vol.plates vol.extents size with
      | .inl (st, d) => endCmd n st d 0 s
      | .inr (_, l) =>
        if mapFull s v size then endCmd n .noSpace 0 0 s else
        setTries n 1 (updCmd n (fun y => { y with result := size - vol.extents })
          (volWrite v true { vol with extents := size, plates := listPlates s vol.plates l } (placeExtents v l s)))

def execResizeVolume (cmd : Nat) (s : State) : Host.Outcome State Fault Refusal := run true (adminDo cmd 0x83 (resizeVolume cmd) s)

/-- ATTACH (R220): the lowest free attachment slot. The change governs once the completion is posted, so it is made when the entry can be
(DESIGN CHOICE, notes/assumptions/138.md). -/
def attachVolume (n : Nat) (x : Cmd) (s : State) : State :=
  let v := enVol x.raw
  let (port, func, ro) := (bitsOf (enCdw x.raw) 0 1, bitsOf (enCdw x.raw) 1 10, decide (bitsOf (enCdw x.raw) 11 1 = 1))
  match volOf s v with
  | none => endCmd n .invalidField 4 0 s
  | some vol =>
    if isSet s (CTX_STAT_PAUSE_BME x.ctx) then s
    else if (attachedRo vol port func).isSome then endCmd n .stateConflict 0 0 s
    else match (List.range 4).find? (fun i => decide (vol.attach[i]? = some none)) with
      | none => endCmd n .noSpace 0 0 s
      | some i => adminOk n x i (volWrite v true { vol with attach := vol.attach.set i (some (port, func, ro)) } s)

def execAttach (cmd : Nat) (s : State) : Host.Outcome State Fault Refusal := run true (adminDo cmd 0x84 (attachVolume cmd) s)

/-- DETACH (R220). -/
def detachVolume (n : Nat) (x : Cmd) (s : State) : State :=
  let v := enVol x.raw
  let (port, func) := (bitsOf (enCdw x.raw) 0 1, bitsOf (enCdw x.raw) 1 10)
  match volOf s v with
  | none => endCmd n .invalidField 4 0 s
  | some vol =>
    if isSet s (CTX_STAT_PAUSE_BME x.ctx) then s
    else if (attachedRo vol port func).isNone then endCmd n .stateConflict 0 0 s
    else adminOk n x 0 (volWrite v true { vol with attach := vol.attach.map (fun a => match a with
      | some (p, f, ro) => if p = port ∧ f = func then none else some (p, f, ro)
      | none => none) } s)

def execDetach (cmd : Nat) (s : State) : Host.Outcome State Fault Refusal := run true (adminDo cmd 0x85 (detachVolume cmd) s)

/-- The lost-write list in the order of the summary, by volume and LBA (Table RING-12). -/
def lostwSorted (s : State) : List LostW :=
  s.store.lostw.mergeSort (fun a b => decide (a.vol < b.vol) || (decide (a.vol = b.vol) && decide (a.lba ≤ b.lba)))

/-- The 16 bytes of a lost-write entry (Table CACHE-9). -/
def lostwBytes (e : LostW) : List Byte := leBytes (e.lba % 2 ^ 48 + e.vol % 2 ^ 14 * 2 ^ 48) 8 ++ leBytes e.count 4 ++ leBytes e.opMin 4

/-- GET_LOST_WRITES (R164, Table RING-8): entries past the end of the list are zero. -/
def getLostWrites (n : Nat) (x : Cmd) (s : State) : State :=
  let l := ((lostwSorted s).drop (enCdw x.raw)).take (enAux x.raw)
  adminOk n x s.store.lostw.length (adminOut x (slice (l.flatMap lostwBytes) 0 (16 * enAux x.raw)) s)

def execGetLostWrites (cmd : Nat) (s : State) : Host.Outcome State Fault Refusal := run true (adminDo cmd 0x89 (getLostWrites cmd) s)

/-! ### Plates -/

/-- A namespace that a plate may take, as the node it is on knows it. -/
def farNs (s : State) (far : List FarNs) (node port nsid : Nat) : Option FarNs :=
  if node = nodeId s then
    if portState s port = 4 then (nsOf s port nsid).map (fun n =>
      { node := node, port := port, nsid := nsid, key := ((dport s port).map DPort.key).getD 0, bytes := n.bytes, lbaOk := n.lbaOk,
        free := unassigned s port nsid none })
    else none
  else far.find? (fun f => decide (f.node = node ∧ f.port = port ∧ f.nsid = nsid))

/-- The members a parameter page names, as (node, port, NSID) (Table RING-11). -/
def pageMembers (b : List Byte) : List (Nat × Nat × Nat) :=
  (List.range (leAt b 2 1)).map (fun m => let w := leAt b (0x40 + 8 * m) 8; (bitsOf w 0 9, bitsOf w 16 8, bitsOf w 32 32))

/-- The first byte from an offset on, within a number, that is not zero. -/
def firstNonZero (b : List Byte) (o n : Nat) : Option Nat := ((List.range n).map (· + o)).find? (fun i => decide (byteAt b i ≠ 0))

/-- Why a MEMBERS entry is refused in the first row of R221: bits that are not zero, a namespace without 4,096-byte LBAs, or a drive that an
earlier entry has (R14). -/
def memberBad (s : State) (far : List FarNs) (b : List Byte) (m : Nat) : Bool :=
  let w := leAt b (0x40 + 8 * m) 8
  let at' := fun i => (pageMembers b)[i]? |>.bind (fun q => farNs s far q.1 q.2.1 q.2.2)
  if leAt b 2 1 ≤ m then decide (w ≠ 0)
  else decide (bitsOf w 9 7 ≠ 0) || decide (bitsOf w 24 8 ≠ 0) ||
    (match at' m with
     | some f => !f.lbaOk || (List.range m).any (fun i => decide ((at' i).map FarNs.key = some f.key))
     | none => false)

/-- The first field of the parameter page, by ascending offset, that R13, R14 or the page's layout refuses (R221, Table RING-11). -/
def pageBad (s : State) (far : List FarNs) (b : List Byte) : Option Nat :=
  let k := leAt b 0 1
  let sh := leAt b 1 1
  let n := leAt b 2 1
  if k < 2 ∨ 30 < k then some 0
  else if sh < 14 ∨ 20 < sh ∨ (k + 2) * 2 ^ sh < 65536 ∨ 8388608 < (k + 2) * 2 ^ sh then some 1
  else if n < k + 2 ∨ 128 < n then some 2
  else if 63 < leAt b 3 1 then some 3
  else match firstNonZero b 6 2, firstNonZero b 0x18 0x28 with
    | some o, _ => some o
    | none, some o => some o
    | none, none => match (List.range 128).find? (memberBad s far b) with
      | some m => some (0x40 + 8 * m)
      | none => firstNonZero b 0x440 0xBC0

/-- A PLATE_ID is known to the federation, as far as this node knows. -/
def idKnown (s : State) (id : Nat) : Bool :=
  s.store.plates.any (fun q => decide (q.2.id = id)) || s.store.foreigns.any (fun f => decide (f.id = id)) || (smGet s.link.held id).isSome ||
  (smGet s.link.claims id).isSome

/-- The second and third rows of R221. -/
def createBad (s : State) (f : PlateFacts) (b : List Byte) : Option Status :=
  let ms := (pageMembers b).map (fun q => farNs s f.far q.1 q.2.1 q.2.2)
  let id := leAt b 0x10 8
  let w := leAt b 4 2
  if (plateOf s (leAt b 3 1)).isSome ∨ ms.any (fun m => ((m.map FarNs.free).getD false) = false) ∨ (w ≠ 0xFFFF ∧ !reachable s w) ∨
      (id ≠ 0 ∧ (f.known ∨ idKnown s id)) then some .stateConflict
  else
    let caps := ms.filterMap (fun m => m.map FarNs.bytes)
    let g : Geom := { n := leAt b 2 1, w := leAt b 0 1 + 2, shift := leAt b 1 1, seed := 0, rows := rowsFor (leAt b 1 1) (caps.foldl min (caps.headD 0)) }
    if g.slots < 1 then some .noSpace else none

/-- The plate that a parameter page describes, in BUILDING. -/
def newPlate (s : State) (f : PlateFacts) (b : List Byte) : Plate :=
  let ms := (pageMembers b).filterMap (fun q => farNs s f.far q.1 q.2.1 q.2.2)
  let caps := ms.map FarNs.bytes
  let seed := leAt b 8 8
  let id := leAt b 0x10 8
  { id := if id = 0 then f.id else id
    geom := { n := leAt b 2 1, w := leAt b 0 1 + 2, shift := leAt b 1 1, seed := if seed = 0 then f.seed else seed,
              rows := rowsFor (leAt b 1 1) (caps.foldl min (caps.headD 0)) }
    building := true, importing := false, impPage := none, gone := false, owner := nodeId s, standby := leAt b 4 2, attached := false
    members := ms.map (fun m =>
      let n := if m.node = nodeId s then nsOf s m.port m.nsid else none
      { node := m.node, port := m.port, nsid := m.nsid, state := .online, failSeq := 0, driveKey := m.key, errs := [], genA := n.bind Ns.genA, genB := n.bind Ns.genB })
    labelGen := 0, labelBusy := false, labelWait := [], labelMore := false, labelSeq := 0, pendFail := [], failNext := 1, createdOp := opMin s, catGen := 1
    cat := [], catBad := [], latch := false, ranges := [{ start := 0, set := [] }], pass := emptyPass, cycle := emptyCycle, seqNo := 0, seqBase := 0
    lastRow := 0, lbt := [], lbtGen := 0, lbtFull := false, lbtDirty := false, jp := emptyPair 0, state := .building, repl := [], mirrorOn := false }

/-- Write Zeroes over a block range of a member: at most 65,536 blocks a command here, one block a message to another node. -/
def zeroReq (p m lba n : Nat) (s : State) : State :=
  match (plateOf s p).bind (fun x => x.mem m) with
  | none => s
  | some y =>
    let mx := if y.node = nodeId s then 65536 else 1
    (pieces n 0 n mx).foldl (fun t q => sendNv
      { plate := p, mem := m, node := y.node, port := y.port, nsid := y.nsid, sn := 0, pos := 0, op := .writeZeroes, lba := lba + q.1, n := q.2, data := [],
        why := .tagInit p m, tries := 0 } t) s

/-- What a new plate's members receive: labels, an empty lost-block table, catalogue pages and a zeroed tag area (R221). -/
def initPlate (p : Nat) (s : State) : State :=
  let s1 := writeLbt p (startLabel p s)
  match plateOf s1 p with
  | none => s1
  | some x =>
    let g := x.geom
    let s2 := writeCat p x.writable (List.range (catPages x)) s1
    x.writable.foldl (fun t m => zeroReq p m (g.tagOff / 4096) (roundUp (g.rows * g.s / 512) (2 ^ 20) / 4096) t) s2

/-- Writes of a plate's creation are outstanding. -/
def initBusy (s : State) (p : Nat) : Bool :=
  s.io.nvme.any (fun q => match q.2.why with
    | .label r _ => decide (r = p)
    | .lbt r _ => decide (r = p)
    | .catalogue r _ => decide (r = p)
    | .tagInit r _ => decide (r = p)
    | _ => false)

/-- CREATE_PLATE once its page has passed: tries 1 waits for the first writes, 2 for the label that ends BUILDING. -/
def buildStep (n : Nat) (x : Cmd) (p : Nat) (s : State) : State :=
  match plateOf s p with
  | none => endCmd n .internal 0 0 s
  | some y =>
    if y.labelBusy ∨ initBusy s p then s
    else if x.tries = 1 then
      setTries n 2 (joinPair p (startLabel p (updPlate p (fun z => { z with building := false, latch := z.latch || decide (3 ≤ z.u) }) s)))
    else
      let s1 := sendClaims p (plateResv p s)
      adminOk n x y.id (if y.standby ≠ 0xFFFF then offer p y false s1 else s1)

/-- CREATE_PLATE (R221). The plate index is kept with the command. -/
def createPlate (n : Nat) (page : HostRd) (f : PlateFacts) (x : Cmd) (s : State) : State :=
  if x.tries ≠ 0 then buildStep n x x.result s
  else match page with
    | .data b0 =>
      let b := slice b0 0 4096
      match pageBad s f.far b with
      | some o => endCmd n .invalidField (0x8000 + o) 0 s
      | none => match createBad s f b with
        | some st => endCmd n st 0 0 s
        | none =>
          let p := leAt b 3 1
          let s1 := setFld (PG_STAT_READY (0x40 + p)) 1 (updStore (fun t => { t with plates := smSet t.plates p (newPlate s f b) }) s)
          updCmd n (fun y => { y with tries := 1, result := p }) (initPlate p s1)
    | _ => endCmd n .invalidField 0xFFF2 0 s

def execCreatePlate (cmd : Nat) (page : HostRd) (facts : PlateFacts) (s : State) : Host.Outcome State Fault Refusal :=
  run true (adminDo cmd 0x86 (fun x t =>
    if x.tries ≠ 0 then createPlate cmd page facts x t else adminPage x 4096 page (createPlate cmd page facts x) t) s)

/-- Zeros over both label copies of a plate's members. -/
def wipeLabels (x : Plate) (s : State) : State :=
  x.members.foldl (fun t y =>
    let z := fun lba (u : State) => sendNv { plate := 64, mem := 0, node := y.node, port := y.port, nsid := y.nsid, sn := 0, pos := 0, op := .write, lba := lba, n := 1,
                                             data := zeros 4096, why := .other, tries := 0 } u
    let t1 := z 128 (z 0 t)
    if y.node = nodeId s then updDport y.port (fun d => { d with nss := d.nss.map (fun n =>
      if n.nsid = y.nsid then { n with genA := none, genB := none, plateId := 0, foreign := false } else n) }) t1
    else t1) s

/-- DELETE_PLATE: the plate takes no further host work and ends what it has; its labels are wiped and its members are unassigned again.
The spec gives the command no conditions beside a plate at the index. -/
def deletePlate (n : Nat) (x : Cmd) (s : State) : State :=
  let p := enCdw x.raw
  if x.tries = 2 then
    if s.io.nvme.any (fun q => decide (q.2.why = .other ∧ q.2.op = .write ∧ q.2.plate = 64)) then s else adminOk n x 0 s
  else match plateOf s p with
    | none => endCmd n .stateConflict 0 0 s
    | some y =>
      if x.tries = 0 ∧ !y.served then endCmd n .stateConflict 0 0 s
      else
        let s1 := if x.tries = 0 then setTries n 1 (abandonUnits p (updPlate p (fun z => { z with gone := true }) s)) else s
        if !plateQuiet s1 p ∨ y.labelBusy ∨ initBusy s1 p ∨ s1.cache.slots.any (fun q => decide (q.2.plate = p)) then s1
        else
          let s2 := wipeLabels y (releaseResv p y (detach p (offerEnd p .stateConflict s1)))
          let s3 := updStore (fun t => { t with plates := smDel t.plates p, suspects := t.suspects.filter (fun e => decide (e.plateId ≠ y.id)),
                                                suspDirty := t.suspDirty || t.suspects.any (fun e => decide (e.plateId = y.id)) }) s2
          setTries n 2 (setFld (PG_STAT_READY (0x40 + p)) 0 s3)

def execDeletePlate (cmd : Nat) (s : State) : Host.Outcome State Fault Refusal := run true (adminDo cmd 0x87 (deletePlate cmd) s)

/-! ### Page commands through an admin ring (R222) -/

/-- The CMD register of a page that BLOCK_CMD accepts: its offset, OP, GO, STATUS and DONE. -/
def cmdRegs (p : Nat) : Option (Nat × FRef × FRef × FRef × FRef) :=
  if 0x40 ≤ p ∧ p ≤ 0x7F then
    some (0x84, PLT_CMD_OP (p - 0x40), PLT_CMD_GO (p - 0x40), PLT_CMD_RES_STATUS (p - 0x40), PLT_CMD_RES_DONE (p - 0x40))
  else if p = 0x38 then some (0x94, PRF_CMD_OP, PRF_CMD_GO, PRF_CMD_RES_STATUS, PRF_CMD_RES_DONE)
  else if p = 0x28 then some (0x78, CCH_CMD_OP, CCH_CMD_GO, CCH_CMD_RES_STATUS, CCH_CMD_RES_DONE)
  else if p = 0x29 then some (0x70, VLT_CMD_OP, VLT_CMD_GO, VLT_CMD_RES_STATUS, VLT_CMD_RES_DONE)
  else if p = 7 then some (0x94, BEM_CMD_OP, BEM_CMD_GO, BEM_CMD_RES_STATUS, BEM_CMD_RES_DONE)
  else none

/-- What a page's operation does (R112, R132, R165, R166, R192); none for a reserved code. -/
def pageOp (p op : Nat) (md : PlateMedia) (ok1 ok2 : Bool) (rate nonce : Nat) : Option (State → State) :=
  let i := p - 0x40
  if 0x40 ≤ p ∧ p ≤ 0x7F then
    match op with
    | 1 => some (fun t => failMemberCmd i (getFld t (PLT_CMD_MEMBER i)) t)
    | 2 => some (fun t => replaceCmd i (getFld t (PLT_CMD_MEMBER i)) t)
    | 3 => some (startPassCmd i)
    | 4 => some (pausePassCmd i)
    | 5 => some (importCmd i md)
    | 6 => some (recoverCmd i)
    | 7 => some (releaseCmd i)
    | _ => none
  else if p = 0x38 then
    match op with
    | 1 => some (fun t => startCycleCmd (getFld t PRF_CMD_PLATE) t)
    | 2 => some (fun t => pauseCycleCmd (getFld t PRF_CMD_PLATE) true t)
    | 3 => some (fun t => pauseCycleCmd (getFld t PRF_CMD_PLATE) false t)
    | 4 => some clearSuspectCmd
    | _ => none
  else if p = 0x28 then
    match op with
    | 1 => some cacheFlush
    | 2 => some (fun t => clearLost (getFld t CCH_CMD_VOLUME) t)
    | _ => none
  else if p = 0x29 then
    match op with
    | 1 => some (fun t => cmdEnd VLT_CMD_GO VLT_CMD_RES_STATUS VLT_CMD_RES_DONE .ok (vaultTest ok1 ok2 rate t))
    | _ => none
  else
    match op with
    | 1 => some learnCmd
    | 2 => some abortLearnCmd
    | 3 => some (fun t => if isSet t BEM_STAT_PRESENT then authStart none nonce t else bemEnd .stateConflict t)
    | 4 => some forgetCmd
    | _ => none

/-- A word gives a field one of its codes (R4, R467). -/
def codeOk (r : RegRow) (v : Nat) : Bool := decide (r.min ≤ bitsOf v r.f.lo r.f.width) && decide (bitsOf v r.f.lo r.f.width ≤ r.max)

/-- The fields of a register that a command value loads, GO apart; a reserved code leaves its field unchanged (R4). -/
def loadCmd (s : State) (p off v : Nat) (go : FRef) : State :=
  (pageRows s p).foldl (fun t r => if r.f.off = off ∧ r.f.key ≠ go.key ∧ codeOk r v = true then setFld r.f (bitsOf v r.f.lo r.f.width) t else t) s

/-- The status code of a number (Table RING-6). -/
def statusOf (v : Nat) : Status :=
  ([.ok, .invalidOpcode, .invalidField, .lbaRange, .mediaUnrecovered, .abortedReset, .compareMismatch, .noSpace, .roleDenied, .busyRetry, .lostWrite,
    .tagMismatch, .stateConflict, .fenced] : List Status)[v]?.getD .internal

/-- BLOCK_CMD (R222): the command value is written with GO set, and the completion follows DONE; OP 0 and a
reserved code end it with INVALID_FIELD (R467). CMD registers are installer fields. -/
def blockCmd (n : Nat) (md : PlateMedia) (ok1 ok2 : Bool) (rate nonce : Nat) (x : Cmd) (s : State) : State :=
  let p := enCdw x.raw
  match cmdRegs p with
  | none => endCmd n .invalidField 0x14 0 s
  | some (off, op, go, st, done) =>
    let fin := fun (t : State) =>
      if isSet t done then
        let c := getFld t st
        let t1 := if c = 0 then roleAction x.role 5 0x88 t else t
        endCmd n (statusOf c) 0 (c + 2 ^ 8) t1
      else setTries n 1 t
    if x.tries = 1 then (if isSet s done then fin s else s)
    else if isSet s go then endCmd n .busyRetry 0 0 s
    else
      let s1 := needRole (.pf (ctxPort s x.ctx)) (loadCmd s p off (enAux x.raw) go)
      let s2 := if 0x40 ≤ p ∧ p ≤ 0x7F then
        setFld (PLT_CMD_PORT_PORT (p - 0x40)) (bitsOf (enAux2 x.raw) 0 32) (setFld (PLT_CMD_NSID_NSID (p - 0x40)) (bitsOf (enAux2 x.raw) 32 32) s1) else s1
      let s3 := seqIf p s s2
      let bad := (pageRows s p).any (fun r => decide (r.f.key = op.key) && !codeOk r (enAux x.raw))
      fin (match (if bad then none else pageOp p (getFld s3 op) md ok1 ok2 rate nonce) with
        | some act => act (setFld done 0 (setFld go 1 s3))
        | none => cmdEnd go st done .invalidField s3)

def execBlockCmd (cmd : Nat) (media : PlateMedia) (ok1 ok2 : Bool) (rate nonce : Nat) (s : State) : Host.Outcome State Fault Refusal :=
  run true (adminDo cmd 0x88 (blockCmd cmd media ok1 ok2 rate nonce) s)

/-! ### The summary (R228, Tables RING-12 to RING-17) -/

/-- Catalogue entries that no VALID descriptor lists the plate for (R219). -/
def unserved (s : State) : Nat :=
  (s.store.plates.map (fun q => (q.2.cat.filter (fun e => !decide (q.2.id ∈ ((volOf s e.2.1).map Vol.plates).getD []))).length)).sum

/-- The catalogue conflicts (R41), as (plate, volume, slot, extent). -/
def catConflicts (s : State) : List (Nat × Nat × Nat × Nat) :=
  s.store.plates.flatMap (fun q =>
    ((q.2.cat.filter (fun e => decide (1 < (extentHits s e.2.1 e.2.2).length))).map (fun e => (q.1, e.2.1, e.1, e.2.2))) ++
    q.2.catBad.map (fun c => (q.1, 0xFFFF, 511 * c, 0xFFFFFFFF)))

/-- The pages that are fenced, ascending. -/
def fencePages (s : State) : List Nat :=
  ((List.range 0x114) ++ (List.range 4096).map (· + 0x1000)).filter (fenced s)

/-- A plate record (Table RING-15). -/
def plateRec (s : State) (x : Plate) (standby : Bool) : List Byte :=
  let partner := x.mirrorOn && x.standby ≠ 0xFFFF && isSet s CCH_CFG_PARTNER_EN && decide (x.standby ∉ s.cache.pmirOff)
  let flags := b2n (!standby) + 2 * b2n x.pass.running + 4 * b2n x.latch + 8 * b2n x.cycle.running + 16 * b2n (x.cycle.running && x.cycle.suspended) +
    32 * b2n x.lbtFull + 64 * b2n partner + 128 * b2n standby
  slice (leBytes x.id 8 ++ leBytes (pstateCode (plateState x)) 1 ++ leBytes flags 1 ++ leBytes x.geom.n 1 ++ leBytes x.geom.w 1 ++ leBytes x.geom.l 1 ++
    leBytes x.geom.shift 1 ++ leBytes x.u 1 ++ leBytes (x.membersIn [.online]).length 1 ++ leBytes x.geom.rows 4 ++ leBytes x.owner 2 ++ leBytes x.standby 2 ++
    leBytes x.labelGen 8 ++ leBytes x.pass.cursor 8 ++ leBytes x.cycle.cursor 8 ++ leBytes x.lbt.length 4 ++
    leBytes (s.store.suspects.filter (fun e => decide (e.plateId = x.id))).length 4 ++ leBytes x.geom.slots 4 ++ leBytes x.cat.length 4 ++
    slice ((List.range x.members.length).flatMap (fun m => leBytes (((x.mem m).map (fun y => mstateCode y.state)).getD 0 + 16 * b2n (x.hosts m)) 1)) 0 128) 0 256

def plateRecAt (s : State) (p : Nat) : List Byte :=
  match plateOf s p, s.link.held.find? (fun q => decide (q.2.index = p)) with
  | some x, _ => plateRec s x false
  | none, some h => plateRec s h.2.plate true
  | none, none => zeros 256

/-- A ring-state word (Table RING-16). -/
def ringWord (s : State) (c : Nat) : Nat :=
  ctxState s c + 2 ^ 3 * getFld s (CTX_BIND_KIND c) + 2 ^ 4 * getFld s (CTX_STAT_PAUSE_HOST c) + 2 ^ 5 * getFld s (CTX_STAT_PAUSE_BME c) +
  2 ^ 6 * getFld s (CTX_STAT_PHASE c) + 2 ^ 7 * ctxPort s c + 2 ^ 8 * ctxFunc s c + 2 ^ 18 * getFld s (CTX_SQ_IDX_HEAD c) +
  2 ^ 32 * getFld s (CTX_CQ_IDX_TAIL c) + 2 ^ 46 * getFld s (CTX_OUT_OUTSTANDING c) + 2 ^ 60 * getFld s (CTX_ERR_CAUSE c)

/-- The energy and cache section (Table RING-17). -/
def energySection (s : State) : List Byte :=
  slice (leBytes (getFld s CCH_DIRTY_CEIL_SLOTS) 4 ++ leBytes (cacheDirty s) 4 ++ leBytes s.bem.eBytes 8 ++ leBytes (getFld s BEM_SOC_PPM) 4 ++
    leBytes (getFld s BEM_CONF_CONF_PCT) 1 ++ leBytes (bemAuth s) 1 ++ leBytes (regWord s 0x28 0x60 % 16) 1 ++ leBytes (getFld s CCH_MODE_CAUSE) 1 ++
    leBytes (regWord s 0x29 0x58) 4 ++ leBytes (getFld s BEM_Q_LEARN_MAH) 2) 0 128

/-- The maintenance section (Table RING-17). -/
def maintSection (s : State) : List Byte :=
  slice (leBytes (plateMask s (fun x => x.pass.running && decide (plateState x ≠ .copyback))) 8 ++
    leBytes (plateMask s (fun x => decide (plateState x = .copyback))) 8 ++ leBytes (plateMask s (fun x => x.cycle.running)) 8 ++
    leBytes (s.io.journal.filter (fun q => decide (q.2.path = .destage))).length 4 ++
    leBytes (s.io.cmds.filter (fun q => decide (enOp q.2.raw = 3 ∧ q.2.phase ≠ .held) && !ctxAdmin s q.2.ctx)).length 4 ++
    leBytes (b2n (decide (s.cache.replay = 2)) + 2 * b2n s.cache.flush.isSome) 1) 0 128

/-- The summary header with a CRC (Table RING-14). -/
def sumHeader (s : State) (seq crc : Nat) : List Byte :=
  let a := asciiBytes [0x5A, 0x59, 0x4E, 0x53, 0x55, 0x4D, 0x52, 0x59] ++ leBytes 1 2 ++ leBytes (nodeId s) 2 ++ leBytes seq 4 ++ leBytes (devTime s) 8 ++ leBytes (opMin s) 4 ++
    leBytes (regWord s 0 0x48) 4 ++ leBytes (getFld s CCH_MODE_UNBACKED) 1 ++ leBytes (getFld s PWR_STAT_STATE) 1 ++ zeros 2 ++ leBytes s.io.journal.length 4 ++
    leBytes (getFld s JNL_OCC_HWM) 4 ++ leBytes s.store.foreigns.length 4 ++ leBytes (catConflicts s).length 4 ++ leBytes s.store.lostw.length 4 ++
    leBytes (min s.store.lostw.length 896) 4 ++ leBytes (fencePages s).length 4 ++ leBytes (unserved s) 4
  slice a 0 0x1FC ++ leBytes crc 4

/-- The sections after the header (Table RING-12). -/
def sumBody (s : State) : List Byte :=
  (List.range 64).flatMap (plateRecAt s) ++ (List.range 4096).flatMap (fun c => leBytes (ringWord s c) 8) ++
  slice ((fencePages s).flatMap (fun p => leBytes (p + 2 ^ 13 * getFld s (FLT_FENCE_STAT_KIND p) + 2 ^ 21 * getFld s (FLT_FENCE_STAT_SEVERITY p)) 4)) 0 256 ++
  energySection s ++ maintSection s ++
  slice (s.store.foreigns.flatMap (fun f => leBytes f.id 8 ++ leBytes (leAt f.label 0x38 2) 2 ++ leBytes (leAt f.label 0x22 1) 1 ++
    leBytes f.spots.length 1 ++ leBytes (leAt f.label 0x10 4) 4)) 0 512 ++
  slice ((catConflicts s).flatMap (fun q => leBytes q.1 1 ++ zeros 1 ++ leBytes q.2.1 2 ++ leBytes q.2.2.1 4 ++ leBytes q.2.2.2 4 ++ zeros 4)) 0 512 ++
  slice ((lostwSorted s).flatMap lostwBytes) 0 14336

/-- The 65,536 bytes of a summary. -/
def sumBytes (s : State) (seq : Nat) : List Byte :=
  let body := sumBody s
  sumHeader s seq (crc32c (sumHeader s seq 0 ++ body)) ++ body

def updSum (f : SumSt → SumSt) (s : State) : State := { s with sum := f s.sum }

/-- Take a snapshot for some commands: every field is taken at one instant, while admission is held (FROZEN); the hold ends within the command,
with FREEZE_DONE (Table WRITE-9; DESIGN CHOICE, notes/assumptions/139.md). A freeze of another cause stays. -/
def takeSnap (cs : List Nat) (s : State) : State :=
  let seq := (s.sum.seq + 1) % 2 ^ 32
  let s1 := setFld ADM_STAT_FROZEN 1 s
  let s2 := setFld SUM_STAT_PENDING 1 (updSum (fun t => { t with seq := seq, cur := some (sumBytes s1 seq), curFor := cs }) s1)
  if isSet s ADM_STAT_FROZEN then s2 else setEvt 0x2B ADM_EVT_FREEZE_DONE (setFld ADM_STAT_FROZEN 0 s2)

/-- A request for a snapshot: the one being written is followed by one further, which all later requests share (R228). -/
def askSnap (cs : List Nat) (s : State) : State :=
  if s.sum.cur.isSome then updSum (fun t => { t with again := true, nextFor := t.nextFor ++ cs }) s else takeSnap cs s

def execResync (cmd : Nat) (s : State) : Host.Outcome State Fault Refusal :=
  run true (adminDo cmd 0x8A (fun x t => if x.tries = 0 then askSnap [cmd] (setTries cmd 1 t) else t) s)

/-- CHIP.RESYNC written 1: it asks as command 0, which no command of a ring is. -/
def execChipResync (w : Win) (v : Nat) (s : State) : Host.Outcome State Fault Refusal :=
  run true (guardAccess w 0 (onlyIf (decide (v % 2 = 1)) (fun t => if isSet t CHIP_RESYNC_GO then t else askSnap [0] (setFld CHIP_RESYNC_GO 1 t))) s)

/-- SNAPSHOT_PUBLISH (R228, R448): the commands' data and completions, the published copy, and the further snapshot asked for. A fenced SUM
page publishes nothing (Table PAGE-8). -/
def publish (s : State) : State :=
  match s.sum.cur with
  | none => s
  | some b =>
    let seq := leAt b 0xC 4
    let s1 := s.sum.curFor.foldl (fun t n => match cmdOf t n with
      | some x => adminOk n x seq (adminOut x b t)
      | none => t) s
    let again := s1.sum.again
    let next := s1.sum.nextFor
    let s2 := updSum (fun t => { t with cur := none, curFor := [], again := false, nextFor := [] }) s1
    let s3 := if fenced s2 8 then s2
      else setFld SUM_STAT_VALID 1 (setFld SUM_SEQ_SNAP_SEQ seq (updSum (fun t => { t with pub := b }) s2))
    let s4 := if 0 ∈ s.sum.curFor then setFld CHIP_RESYNC_GO 0 s3 else s3
    if again then takeSnap next s4 else setFld SUM_STAT_PENDING 0 s4

def execSnapshotPublish (s : State) : Host.Outcome State Fault Refusal := run true (publish s)

end Sys2Proof.Machine
end

