-- ==== Sys2Proof/Machine/Header.lean ====
section
/-! DEFINITION. The header controls ENABLE, BLOCK_RESET and CLK_REQ (R439), as the table of header controls of each block's chapter
gives them. -/

namespace Sys2Proof.Machine
open Reg

/-- The page lies behind a window: a PF's CSR window and the cores see every page; a VF sees the status page of its context (R230). -/
def reaches (s : State) (w : Win) (p : Nat) : Bool :=
  match w with
  | .vf port func => decide (0x1000 ≤ p ∧ p ≤ 0x1FFF) && isSet s (CTX_BIND_VALID (p - 0x1000)) && decide (ctxPort s (p - 0x1000) = port) &&
      decide (ctxFunc s (p - 0x1000) = func) && decide (func ≠ 0)
  | _ => (blockRows s p).isSome

/-- A write of a header control: discarded where the page has no header in the window, else gated as every write (R437, R445). -/
def headWrite (w : Win) (p : Nat) (f : State → State) (s : State) : State := if reaches s w p then guardWrite w p f s else s

/-! ### BLOCK_RESET -/

def zeroFlds (l : List FRef) (s : State) : State := l.foldl (fun t f => setFld f 0 t) s

/-- The counters of a page, as BLOCK_RESET clears them. -/
def pageCounters (p : Nat) : List FRef :=
  if p = 3 then [ROLE_DENY_COUNT]
  else if p = 4 then [FLT_CNT_CORR_COUNT, FLT_CNT_DEF_COUNT, FLT_CNT_CONT_COUNT, FLT_CNT_FATAL_COUNT, FLT_DROPPED_COUNT] ++
    (List.range 256).map FLT_KIND_CFG_COUNT
  else if p = 5 then [ICU_DELIVERED_COUNT, ICU_SPURIOUS_COUNT, ICU_FALLBACKS_COUNT]
  else if p = 6 then [EVR_LOST_COUNT, EVR_OVERWR_COUNT]
  else if 0x10 ≤ p ∧ p ≤ 0x11 then
    let n := p - 0x10
    [HEP_CTO_COUNT n, HEP_LATE_COUNT n, HEP_DISCARD_COUNT n, HEP_FLR_VF n, HEP_FLR_PF n, HEP_IRQ_NONE_COUNT n, HEP_INBOUND_ERR_COUNT n, HEP_DOWN_COUNT n,
     HEP_RD_LO_COUNT n, HEP_RD_HI_COUNT n, HEP_WR_LO_COUNT n, HEP_WR_HI_COUNT n]
  else if 0x20 ≤ p ∧ p ≤ 0x23 then
    let c := p - 0x20
    [DMC_CE_COUNT c, DMC_UE_COUNT c, DMC_URGENT_COUNT c, DMC_BYTES_LO_COUNT c, DMC_BYTES_HI_COUNT c]
  else if p = 0x28 then [CCH_DESTAGED_COUNT, CCH_MODE_CNT_COUNT]
  else if p = 0x29 then [VLT_LAST_SEQ_SEQ, VLT_LAST_CHUNKS_COUNT, VLT_LAST_VALID_COUNT, VLT_LAST_LOST_COUNT]
  else if 0x30 ≤ p ∧ p ≤ 0x37 then
    let b := p - 0x30
    [BUR_BYTES_LO_COUNT b, BUR_BYTES_HI_COUNT b, BUR_MAINT_LO_COUNT b, BUR_MAINT_HI_COUNT b, BUR_SELFCHK_COUNT b]
  else if p = 0x38 then [PRF_CHECKED_LO_COUNT, PRF_CHECKED_HI_COUNT, PRF_REPAIRS_COUNT, PRF_LATE_COUNT]
  else if p = 0x39 then [RBD_LATE_COUNT, RBD_BYTES_LO_COUNT, RBD_BYTES_HI_COUNT]
  else if 0x40 ≤ p ∧ p ≤ 0x7F then [PLT_REPAIRED_COUNT (p - 0x40), PLT_RECON_COUNT (p - 0x40), PLT_TAGERR_COUNT (p - 0x40)]
  else if 0xC0 ≤ p ∧ p ≤ 0xC3 then [SSB_FRAMES_COUNT (p - 0xC0), SSB_BAD_COUNT (p - 0xC0)]
  else if 0xC8 ≤ p ∧ p ≤ 0xCF then
    let x := p - 0xC8
    [TLK_CRC_COUNT x, TLK_REPLAY_COUNT x, TLK_RETRAIN_COUNT x, TLK_DROP_COUNT x, TLK_TX_LO_COUNT x, TLK_TX_HI_COUNT x, TLK_RX_LO_COUNT x, TLK_RX_HI_COUNT x]
  else if p = 0xD0 then [TRT_TAKEOVERS_COUNT, TRT_DROPS_COUNT, TRT_UNROUTED_COUNT]
  else if p = 0xDF then [MOV_BYTES_LO_COUNT, MOV_BYTES_HI_COUNT]
  else if 0xE0 ≤ p ∧ p ≤ 0xEF then
    let c := p - 0xE0
    [MCH_CH_DONE_COUNT c, MCH_CH_BADS_COUNT c, MCH_CH_BYTES_LO_COUNT c, MCH_CH_BYTES_HI_COUNT c, MCH_CH_REQ_CH_REQ_LOST c]
  else if p = 0x100 then [TSC_ROUNDS_LO_COUNT, TSC_ROUNDS_HI_COUNT, TSC_LATE_COUNT, TSC_SHORT_COUNT, TSC_OVER_MAX_NS]
  else if p = 0x101 then [MTR_RECORDS_COUNT, MTR_DROPPED_COUNT, MTR_MAINT_LO_COUNT, MTR_MAINT_HI_COUNT]
  else []

/-- Every journal entry is freed (Table WRITE-12). -/
def freeEntries (s : State) : State := (s.io.journal.map Prod.fst).foldl (fun t j => releaseEntry j false t) s

/-- The rebuild steps in flight end without effect (Table REBUILD-10). -/
def endSteps (s : State) : State :=
  (s.io.sops.filter (fun q => decide (q.2.kind = .rebuild))).foldl (fun t q =>
    let t1 := dropNv (fun c => match c.why with | .sopRd i _ => decide (i = q.1) | .sopWr i _ => decide (i = q.1) | _ => false) t
    let t2 := keepWaits (fun w => decide (w ≠ .sop q.1)) (updIo (fun i => { i with sops := smDel i.sops q.1 }) (dropJob (.sop q.1) t1))
    if q.2.phase = .lock then t2 else freeLock q.2.plate q.2.sn .maint t2) s

/-- R226 for one context alone: its fetches in flight are dropped as they complete. -/
def resetCtx (c : Nat) (s : State) : State :=
  if ctxState s c = 0 then s
  else ctxRestart c (ctxReset c (updIo (fun i => { i with hreads := i.hreads.map (fun q => match q.2.why with
    | .entry x _ => if x = c then (q.1, { q.2 with late := true }) else q
    | _ => q) }) s))

/-- What BLOCK_RESET does to a page, beside clearing its counters. -/
def blockEffect (p : Nat) (s : State) : State :=
  if p = 7 then updEvr (fun e => { e with events := e.events.filter (fun q => decide (q.1 / 32 ≠ 7)) }) (clearEvt 7 allEvts s)
  else if p = 1 then setFld PWR_VDD_MIN_MV 0xFFFF (setFld PWR_VDDIO_MIN_MV 0xFFFF (setFld PWR_VIN_MIN_MV 0xFFFF s))
  else if p = 2 then clearEvt p allEvts s
  else if p = 4 then updFlt (fun f => { f with log := [] }) (setFld FLT_STAT_CAPTURED 0 s)
  else if p = 5 then
    let s1 := (s.icu.claims.map Prod.fst).foldl (fun t q => endClaim q t) s
    icuHost (updIcu (fun t => { t with latches := [] }) s1)
  else if p = 8 then setFld SUM_STAT_VALID 0 (updSum (fun t => { t with pub := [] }) s)
  else if p = 0x2A then freeEntries s
  else if p = 0x2B then updIo (fun i => { i with locks := [], waitl := [], pins := [] }) s
  else if 0x30 ≤ p ∧ p ≤ 0x37 then pipesSettle (setFld (BUR_STAT_KAT (p - 0x30)) 0 (setFld (BUR_KAT_START (p - 0x30)) 0 (restartJobs (p - 0x30) s)))
  else if p = 0x38 then (List.range 64).foldl (fun t i => abandonUnits i t) s
  else if p = 0x39 then endSteps s
  else if 0x80 ≤ p ∧ p ≤ 0xBF then (if (dport s (p - 0x80)).isSome then ctrlReset (p - 0x80) s else s)
  else if 0xC8 ≤ p ∧ p ≤ 0xCF then (if tlkState s (p - 0xC8) = 2 then retrain (p - 0xC8) s else s)
  else if p = 0xDF then (List.range 16).foldl (fun t c => stopCh c t) s
  else if 0xE0 ≤ p ∧ p ≤ 0xEF then stopCh (p - 0xE0) s
  else if p = 0x100 then (List.range 4096).foldl (fun t c => setFld (CTX_CREDIT_CREDIT c) 0 t) s
  else if 0x1000 ≤ p ∧ p ≤ 0x1FFF then resetCtx (p - 0x1000) s
  else s

/-- A block is reset as its chapter gives; the counters go after the effect. -/
def blockReset (p : Nat) (s : State) : State := zeroFlds (pageCounters p) (blockEffect p s)

/-- BLOCK_RESET is accepted: on a Burin pipe always, on CHIP and MGC pages never, elsewhere in factory test mode. -/
def resetActs (s : State) (p : Nat) : Bool :=
  if 0x30 ≤ p ∧ p ≤ 0x37 then true
  else if p = 0 ∨ (0x110 ≤ p ∧ p ≤ 0x113) then false
  else ftest s

/-- BLOCK_RESET (R439). -/
def execBlockReset (w : Win) (p : Nat) (s : State) : Host.Outcome State Fault Refusal :=
  run (decide (p < 0x2000)) (ltrSync (headWrite w p (fun t => if resetActs t p then blockReset p t else t)) s)

/-! ### ENABLE -/

/-- A write of ENABLE is taken; JNL discards every one (Table WRITE-12). -/
def enableTakes (s : State) (p : Nat) (v : Bool) : Bool :=
  if p ∈ [0, 1, 2, 3, 4, 8] ∨ (0x10 ≤ p ∧ p ≤ 0x11) ∨ (0xC0 ≤ p ∧ p ≤ 0xC3) ∨ (0x110 ≤ p ∧ p ≤ 0x113) ∨ (0x1000 ≤ p ∧ p ≤ 0x1FFF) then v
  else if p = 0x2A then false
  else if p = 0xD0 then v
  else if 0x80 ≤ p ∧ p ≤ 0xBF then v || !portUsed s (p - 0x80)
  else if 0x20 ≤ p ∧ p ≤ 0x23 then v || !devReady s
  else true

/-- What follows a change of ENABLE. -/
def enableEffect (p : Nat) (v : Bool) (s : State) : State :=
  if (0x40 ≤ p ∧ p ≤ 0x7F) ∨ p = 0x38 then cyclesSync s
  else if p = 0x29 then vaultCheck s
  else if 0x30 ≤ p ∧ p ≤ 0x37 then pipesSettle s
  else if p = 7 then boundUpdate s
  else if p = 5 then icuHost s
  else if p = 0xDF ∨ (0xE0 ≤ p ∧ p ≤ 0xEF) then chooseUnit s
  else if 0x20 ≤ p ∧ p ≤ 0x23 then (if v && decide (dmcState s (p - 0x20) = 0) then setDmc (p - 0x20) 1 s else s)
  else if 0xC8 ≤ p ∧ p ≤ 0xCF then (if v then onlyIf (decide (tlkState s (p - 0xC8) = 0) && !fenced s p && decide (p ∉ s.pwr.dead)) (setFld (PG_STAT_STATE p) 1) s else linkDown (p - 0xC8) s)
  else if 0x80 ≤ p ∧ p ≤ 0xBF then
    let n := p - 0x80
    if v then
      (if decide (portState s n = 6) && isSet s (DPT_SLOT_STS_PDS n) && isSet s (DPT_CFG_AUTO_ON n) && !(bayOf s n).hold then powerUp n s else s)
    else if portState s n = 4 then quiesce n s
    else if portState s n ∈ [1, 2, 3, 8] then slotDown n s
    else s
  else s

/-- A write of ENABLE. -/
def enableSet (p : Nat) (v : Bool) (s : State) : State :=
  if enableTakes s p v && (isSet s (PG_CTL_ENABLE p) != v) then enableEffect p v (setFlag (PG_CTL_ENABLE p) v s) else s

/-- PG_ENABLE_WRITE (R439). -/
def execPgEnableWrite (w : Win) (p v : Nat) (s : State) : Host.Outcome State Fault Refusal :=
  run (decide (p < 0x2000)) (headWrite w p (fun t =>
    let t1 := enableSet p (decide (v % 2 = 1)) t
    if isSet t (PG_CTL_ENABLE p) = isSet t1 (PG_CTL_ENABLE p) then t1 else incFld (PG_SEQ_COUNT p) 1 t1) s)

/-! ### CLK_REQ -/

/-- A block asleep is woken as new work wakes it. -/
def wakeBlock (p : Nat) (s : State) : State :=
  if 0x30 ≤ p ∧ p ≤ 0x37 then
    (if pipeAwake s (p - 0x30) || decide ((p - 0x30) ∈ s.io.waking) then s else updIo (fun i => { i with waking := (p - 0x30) :: i.waking }) s)
  else if 0x80 ≤ p ∧ p ≤ 0xBF then leaveDriveL1 (p - 0x80) s
  else if 0xC8 ≤ p ∧ p ≤ 0xCF then setFld (PG_STAT_ASLEEP p) 0 s
  else s

/-- CLK_REQ (R439, R444). -/
def execClkReq (w : Win) (p v : Nat) (s : State) : Host.Outcome State Fault Refusal :=
  run (decide (p < 0x2000)) (headWrite w p (fun t =>
    let t1 := writeRwi w p [(PG_CTL_CLK_REQ p, v % 2)] t
    if isSet t1 (PG_CTL_CLK_REQ p) && !isSet t (PG_CTL_CLK_REQ p) then wakeBlock p t1
    else if 0x30 ≤ p ∧ p ≤ 0x37 then pipesSleep t1 else t1) s)

end Sys2Proof.Machine
end

