-- ==== Sys2Proof/Machine/Fault.lean ====
section
/-! DEFINITION. The fault collector (chapter 16): the queue and first-error capture (R375, R376), reactions and fences (R377 to R383), the
watchdog (R384, R385) and factory-test injection (R386). -/

namespace Sys2Proof.Machine
open Reg

def fltEvt (bit : Nat) (s : State) : State := setEvt 4 bit s

/-- The page a message comes from; a context's number stands in ADDRESS (Table FAULT-1). -/
def FMsg.page (m : FMsg) : Nat := if m.unit = 0x3FF then 0x1000 + m.addr % 4096 else m.unit

/-- The pages whose fence is a device fence (R381). -/
def deviceSet : List Nat := [3, 4, 5, 0x28, 0x2A, 0x2B, 0x39, 0xD0]

/-! ### The management cores (R384, R385) -/

/-- The watchdog counts anew. -/
def wdogStart (s : State) : State := updFlt (fun f => { f with kick := devTime s }) s

/-- A core is halted: it is powered off, and where it was the admin core the lowest-numbered core that is not halted takes over. What it was
executing ends with INTERNAL (R385). -/
def haltCore (n : Nat) (s : State) : State :=
  if isSet s (MGC_STAT_HALTED n) then s
  else
    let was := decide (getFld s FLT_WDOG_ADMIN_CORE = n)
    let s1 := setEvt (0x110 + n) MGC_EVT_HALTED (setFld (MGC_STAT_HALTED n) 1 (setFld FLT_WDOG_HALTED (getFld s FLT_WDOG_HALTED ||| 2 ^ n)
      (setFld (MGC_STAT_ADMIN n) 0 (coreOff n s))))
    if !was then s1
    else
      let s2 := (s1.io.cmds.filter (fun q => ctxAdmin s1 q.2.ctx && decide (q.2.phase = .running ∨ q.2.tries ≠ 0) && decide (q.2.phase ≠ .held))).foldl
        (fun t q => endCmd q.1 .internal 0 0 t) s1
      match (List.range 4).find? (fun k => !isSet s2 (MGC_STAT_HALTED k)) with
      | some k => wdogStart <| setFld (MGC_STAT_POWERED k) 1 (setFld (MGC_STAT_ADMIN k) 1 (setFld FLT_WDOG_ADMIN_CORE k s2))
      | none => report 0x12 4 0 s2

/-! ### Fences -/

/-- FENCE_NOTICE to a node (Table LINK-8): the message that caused the fence, this node's plates of a list that are attached to it, and, where `held`
says so, the node's plates for which this node is standby. -/
def sendNotice (word : Nat) (mask : List Nat) (held : Bool) (n : Nat) (s : State) : State :=
  let own := maskOf ((((platesWith s n).filter (fun q => q.2.attached)).map Prod.fst).filter (· ∈ mask))
  sendMsg n .fenceNotice 0 word 0 (le64 own ++ le64 (if held then maskOf ((heldOf s n).map (fun q => q.2.index)) else 0)) s

/-- This node's reservations on the members of plates are released. -/
def releasePlates (mask : List Nat) (s : State) : State :=
  mask.foldl (fun t p => match plateOf t p with
    | some x => if x.resvGen = 0 then t else updPlate p (fun y => { y with resvGen := 0 }) (releaseResv p x t)
    | none => t) s

/-- FENCE_NOTICE to the standbys of plates and the release of their reservations (R380). -/
def noticePlates (word : Nat) (mask : List Nat) (s : State) : State :=
  releasePlates mask (((standbys s).filter (fun n => (platesWith s n).any (fun q => decide (q.1 ∈ mask)))).foldl (fun t n => sendNotice word mask false n t) s)

/-- The plates a unit serves: a plate's own page, the plates with a member behind a drive port, else every plate here. -/
def platesOfUnit (s : State) (p : Nat) : List Nat :=
  if 0x40 ≤ p ∧ p ≤ 0x7F then [p - 0x40]
  else if 0x80 ≤ p ∧ p ≤ 0xBF then ((portMembers s (p - 0x80)).map Prod.fst).eraseDups
  else s.store.plates.map Prod.fst

/-- How a unit behaves once fenced, where that changes more than the flag (the Fence rows of the tables of header controls). -/
def fenceEffect (p : Nat) (s : State) : State :=
  if p = 7 then bemFence s
  else if 0x10 ≤ p ∧ p ≤ 0x11 then pauseFns (p - 0x10) (functions s (p - 0x10)) s
  else if 0x20 ≤ p ∧ p ≤ 0x23 then dmcFreeze (p - 0x20) s
  else if p = 0x29 then vaultCheck s
  else if 0x30 ≤ p ∧ p ≤ 0x37 then
    let s1 := restartJobs (p - 0x30) s
    if (List.range 8).all (fun b => fenced s1 (0x30 + b)) then report 0x09 p 0 s1 else s1
  else if p = 0x38 then cyclesSync ((List.range 64).foldl (fun t i => abandonUnits i t) s)
  else if 0x40 ≤ p ∧ p ≤ 0x7F then cycleSync (p - 0x40) s
  else if 0x80 ≤ p ∧ p ≤ 0xBF then vaultCheck (dptFence (p - 0x80) s)
  else if 0xC8 ≤ p ∧ p ≤ 0xCF then linkDown (p - 0xC8) s
  else if p = 0xDF ∨ (0xE0 ≤ p ∧ p ≤ 0xEF) then moverFence p s
  else if p = 0x101 then (meteredCtxs s).foldl (fun t c => setFld (CTX_MTR_STAT_GAP c) 1 t) s
  else if 0x110 ≤ p ∧ p ≤ 0x113 then haltCore (p - 0x110) s
  else if 0x1000 ≤ p ∧ p ≤ 0x1FFF then
    (s.io.cmds.filter (fun q => decide (q.2.ctx = p - 0x1000 ∧ q.2.phase ≠ .held))).foldl (fun t q => dropUnstaged q.1 (endCmd q.1 .fenced 0 0 t)) s
  else s

/-- The flag and the fence-list entry of a page (R379). -/
def markFenced (p kind sev : Nat) (s : State) : State :=
  setFld (PG_STAT_FENCED p) 1 (setFld (FLT_FENCE_STAT_FENCED p) 1 (setFld (FLT_FENCE_STAT_KIND p) kind (setFld (FLT_FENCE_STAT_SEVERITY p) sev s)))

/-- Reaction 1. A unit that is fenced already stays as it is (R379). -/
def fenceUnit (p kind sev : Nat) (s : State) : State :=
  if isSet s (FLT_FENCE_STAT_FENCED p) ∨ (blockRows s p).isNone then s
  else fltEvt FLT_EVT_UNIT_FENCED (fenceEffect p (markFenced p kind sev s))

/-- Every session returns to its base role, where ROLE itself is fenced (Table ROLE-11). It is no ending of R417, so no action of
Table ROLE-5 counts it. -/
def endSessions (s : State) : State := showSessions (setFld (sessFld 0) (baseRole s) (setFld (sessFld 1) (baseRole s) s))

/-- The owners whose plates are held here. -/
def owners (s : State) : List Nat := (s.link.held.map (fun q => q.2.plate.owner)).eraseDups

/-- The standby's keys on the members of the plates it holds are released too (Sequence FAULT-1: every member holding this node's key). -/
def releaseKeys (s : State) : State := s.link.held.foldl (fun t q => releaseResv 64 q.2.plate t) s

/-- Sequence FAULT-1. Before READY start-up stops in its phase (R383). The notices and releases go out ahead of the freeze, which stops
every other member command. `word` is the fault message that caused the fence. -/
def deviceFence (word : Nat) (s : State) : State :=
  if devFenced s then s
  else
    let s1 := fltEvt FLT_EVT_DEV_FENCED s
    let mine := s1.store.plates.map Prod.fst
    let s2 := releaseKeys (releasePlates mine ((standbys s1 ++ owners s1).eraseDups.foldl (fun t n => sendNotice word mine true n t) s1))
    let s3 := (s2.io.cmds.filter (fun q => decide (q.2.phase ≠ .held) && !(ctxAdmin s2 q.2.ctx && decide (enOp q.2.raw ∈ [0x89, 0x8A])))).foldl
      (fun t q => endCmd q.1 .fenced 0 0 t) s2
    let s4 := setFld FLT_STAT_DEV_FENCED 1 s3
    let s5 := if getFld s CHIP_DEV_STAT_PHASE < 8 then
        setEvt 0 CHIP_EVT_STOPPED (setFld CHIP_DEV_STAT_STOPPED 1 (setFld CHIP_DEV_STAT_WHY 3 s4))
      else s4
    cyclesSync (if s5.cache.dumping then s5 else if dumpOk s5 then startDump 2 17 s5 else freeze s5)

/-! ### Handling a message (R375 to R377) -/

/-- FLT_FIRST and PG_ECAP of the reporting page (R376). -/
def capture (m : FMsg) (s : State) : State :=
  if isSet s FLT_STAT_CAPTURED then s
  else
    let s1 := fillEcap m.page m.addr m.access m.master m.kind (setFld FLT_FIRST_INFO_ACCESS m.access (setFld FLT_FIRST_INFO_MASTER m.master
      (set64 FLT_FIRST_TIME_LO_NS FLT_FIRST_TIME_HI_NS (devTime s) (set64 FLT_FIRST_LO_MSG FLT_FIRST_HI_MSG m.word s))))
    fltEvt FLT_EVT_FIRST (setFld FLT_STAT_CAPTURED 1 s1)

/-- The log, the counters and the capture. -/
def logFault (m : FMsg) (s : State) : State :=
  let s1 := updFlt (fun f => { f with log := ((m.word, devTime s / 1000 % 2 ^ 32) :: f.log).take 16 }) s
  let s2 := if m.sev = 0 then fltEvt FLT_EVT_CORRECTED (incFld FLT_CNT_CORR_COUNT 1 s1)
    else if m.sev = 1 then fltEvt FLT_EVT_DEFERRED (incFld FLT_CNT_DEF_COUNT 1 s1)
    else if m.sev = 2 then fltEvt FLT_EVT_CONTAINED (incFld FLT_CNT_CONT_COUNT 1 s1)
    else fltEvt FLT_EVT_FATAL (incFld FLT_CNT_FATAL_COUNT 1 s1)
  capture m (satFld (FLT_KIND_CFG_COUNT m.kind) 1 s2)

/-- The reaction of a message: that of its kind; where it would fence a unit of the device set, the device's (R377, R381). -/
def reactionOf (s : State) (m : FMsg) : Nat :=
  let r := getFld s (FLT_KIND_CFG_REACT m.kind)
  if 1 ≤ r ∧ m.page ∈ deviceSet then 3 else r

/-- The core that a message of kind MGC_WDOG is about: the one the master field names, else the admin core (R385). -/
def wdogCore (s : State) (m : FMsg) : Nat := if 0x110 ≤ m.master ∧ m.master ≤ 0x113 then m.master - 0x110 else getFld s FLT_WDOG_ADMIN_CORE

/-- Apply the reaction of a message. Nothing follows while the device is fenced or in BACKUP (R383). -/
def react (m : FMsg) (s : State) : State :=
  if devFenced s ∨ getFld s PWR_STAT_STATE = 4 then s
  else if m.kind = 0x11 then onlyIf (!isSet s (MGC_STAT_HALTED (wdogCore s m))) (fun t => haltCore (wdogCore s m) (fltEvt FLT_EVT_WDOG t)) s
  else
    let r := reactionOf s m
    if r = 0 then s
    else if r = 3 then deviceFence m.word (if m.page = 3 then endSessions s else s)
    else
      let s1 := fenceUnit m.page m.kind m.sev s
      if r = 2 ∧ !isSet s (FLT_FENCE_STAT_FENCED m.page) then noticePlates m.word (platesOfUnit s m.page) s1 else s1

/-- The queue's first message leaves it, and one that waits at its source enters. -/
def popFault (s : State) : State :=
  showQueue (updFlt (fun f => match f.waiting with
    | m :: ms => { f with queue := f.queue.tail ++ [m], waiting := ms }
    | [] => { f with queue := f.queue.tail }) s)

/-- FAULT_MESSAGE: the collector handles the message at the head of its queue. -/
def handleFault (s : State) : State :=
  match s.flt.queue with
  | [] => s
  | m :: _ => react m (logFault m (popFault s))

def execFaultMessage (s : State) : Host.Outcome State Fault Refusal := run true (ltrSync handleFault s)

/-! ### Software's part -/

/-- The role an access is checked against is that of the maker; cores are not checked (R415). -/
def isMaker (s : State) (w : Win) : Bool := decide (winRole s w = 2)

/-- Report a software request for a page (R378). -/
def fenceReq (p : Nat) (s : State) : State :=
  let m : FMsg := { unit := if 0x1000 ≤ p then 0x3FF else p, kind := 0x19, sev := 2, cls := 6, addr := if 0x1000 ≤ p then p - 0x1000 else 0,
                    access := 1, master := p }
  enqueue m s

/-- FENCE_REQ (R378). -/
def execFenceReq (w : Win) (p : Nat) (s : State) : Host.Outcome State Fault Refusal :=
  run (decide (p < 0x2000)) (headWrite w p (fun t => if isMaker t w then fenceReq p t else t) s)

/-- FAULT_INJECT (R386): CLASS is forced to 0xF. -/
def inject (s : State) : State :=
  let v := getFld s FLT_INJ_LO_MSG + 2 ^ 32 * getFld s FLT_INJ_HI_MSG
  let unit := bitsOf v 54 10
  enqueue { unit := unit, kind := bitsOf v 46 8, sev := bitsOf v 44 2, cls := 15, addr := bitsOf v 0 40, access := 0, master := unit } s

def execFaultInject (w : Win) (s : State) : Host.Outcome State Fault Refusal :=
  run true (guardWrite w 4 (fun t => if ftest t then inject t else t) s)

/-- PG_EVT_SET (R386): event bits that the page has. -/
def execPgEvtSet (w : Win) (p v : Nat) (s : State) : Host.Outcome State Fault Refusal :=
  run (decide (p < 0x2000)) (headWrite w p (fun t =>
    if isMaker t w && ftest t then setEvtBits p (v % 2 ^ 32 &&& evtMask p) t else t) s)

/-- FAULT_REARM (R376). -/
def execFaultRearm (w : Win) (s : State) : Host.Outcome State Fault Refusal :=
  run true (guardWrite w 4 (setFld FLT_STAT_CAPTURED 0) s)

/-- What UNFENCE does beside releasing the fence (Table FAULT-4): the unit is reset as by BLOCK_RESET and enabled; a plate is assembled afresh
from `found` and `media`, as its members' labels then read. -/
def unfenceUnit (p : Nat) (found : List FoundNs) (media : List PlateMedia) (s : State) : State :=
  let s1 := clearFence p s
  if 0x40 ≤ p ∧ p ≤ 0x7F then
    match plateOf s1 (p - 0x40) with
    | some x => cyclesSync (setFld (PG_CTL_ENABLE p) 1
        (takePlate found media x.id (updStore (fun u => { u with plates := smDel u.plates (p - 0x40) }) s1)))
    | none => s1
  else
    let s2 := setFld (PG_CTL_ENABLE p) 1 (blockReset p s1)
    if p = 7 then boundUpdate s2
    else if 0x30 ≤ p ∧ p ≤ 0x37 then pipesSettle s2
    else if 0xC8 ≤ p ∧ p ≤ 0xCF then onlyIf (decide (tlkState s2 (p - 0xC8) = 0)) (setFld (PG_STAT_STATE p) 1) s2
    else if p = 0x29 then vaultCheck s2
    else if p = 0x38 then cyclesSync s2
    else if p = 0x101 then (meteredCtxs s2).foldl (fun t c => setFld (CTX_MTR_STAT_GAP c) 1 t) s2
    else if p = 0xDF ∨ (0xE0 ≤ p ∧ p ≤ 0xEF) then chooseUnit s2
    else if 0x80 ≤ p ∧ p ≤ 0xBF then vaultCheck s2
    else s2

/-- UNFENCE, of the page that FLT_CMD holds. -/
def unfenceCmd (found : List FoundNs) (media : List PlateMedia) (s : State) : State :=
  let q := getFld s FLT_CMD_PAGE
  let fin := fun (st : Status) (u : State) => cmdEnd FLT_CMD_GO FLT_CMD_RES_STATUS FLT_CMD_RES_DONE st u
  if !fenced s q ∨ !unfenceOk q then fin .stateConflict s else fin .ok (unfenceUnit q found media s)

def execUnfence (w : Win) (p : Nat) (found : List FoundNs) (media : List PlateMedia) (s : State) : Host.Outcome State Fault Refusal :=
  run true (cmdWrite w 4 FLT_CMD_OP 1 [(FLT_CMD_PAGE, p)] FLT_CMD_GO FLT_CMD_RES_STATUS FLT_CMD_RES_DONE
    (fun _ t => unfenceCmd found media (cmdStart FLT_CMD_GO FLT_CMD_RES_DONE t)) (unfenceCmd found media) s)

/-! ### The watchdog -/

/-- WATCHDOG_KICK (R384): the admin core's kick starts the time anew; that of another core is discarded. -/
def kick (w : Win) (s : State) : State :=
  match w with
  | .core n => if getFld s FLT_WDOG_ADMIN_CORE = n then wdogStart s else s
  | _ => s

def execWatchdogKick (w : Win) (s : State) : Host.Outcome State Fault Refusal := run true (guardWrite w 4 (kick w) s)

/-- WATCHDOG_TIMEOUT (R385): TIMEOUT_MS has passed since the last kick. The message is reported, and the admin core halted unless the device is fenced or in BACKUP (R383). -/
def watchdog (s : State) : State :=
  let n := getFld s FLT_WDOG_ADMIN_CORE
  if !isSet s (MGC_STAT_POWERED n) ∨ getFld s CHIP_DEV_STAT_PHASE < 2 ∨ devTime s < s.flt.kick + getFld s FLT_WDOG_TIMEOUT_MS * 1000000 then s
  else
    let s1 := enqueue { unit := 4, kind := 0x11, sev := kindSev 0x11, cls := kindClass 0x11, addr := 0, access := 0, master := 0x110 + n } s
    if devFenced s ∨ getFld s PWR_STAT_STATE = 4 then s1 else haltCore n (fltEvt FLT_EVT_WDOG s1)

def execWatchdogTimeout (s : State) : Host.Outcome State Fault Refusal := run true (watchdog s)

end Sys2Proof.Machine
end

