-- ==== Sys2Proof/Machine/CfgSpace.lean ====
section
/-! DEFINITION. The configuration space of the host functions as a configuration read shows it: identity (R257), the capability list and
what the PCI Express capability reports (R258), the BARs' sizes (R259), SR-IOV (R254), power management (R276) and what host software has set.
Capability IDs and the places of their fields are those of the PCI Express standard, to which R253 says the ports conform (PRESUMED,
notes/assumptions/144.md). -/

namespace Sys2Proof.Machine
open Reg

/-- A row of Table HOST-3: offset, capability ID in the standard, and whether a VF has it; a PF has every one. -/
structure CapRow where
  off : Nat
  id  : Nat
  vf  : Bool
  deriving DecidableEq, Repr

/-- Table HOST-3 below 0x100: Power Management, MSI, PCI Express, MSI-X. -/
def stdCaps : List CapRow := [⟨0x40, 0x01, false⟩, ⟨0x50, 0x05, false⟩, ⟨0x70, 0x10, true⟩, ⟨0xB0, 0x11, true⟩]

/-- Table HOST-3 from 0x100: AER, ARI, Secondary PCI Express, Physical Layer 16.0 GT/s, Lane Margining, Physical Layer 32.0 GT/s, SR-IOV, LTR,
L1 PM Substates, Data Link Feature, Device Serial Number. -/
def extCaps : List CapRow :=
  [⟨0x100, 0x0001, true⟩, ⟨0x148, 0x000E, true⟩, ⟨0x150, 0x0019, false⟩, ⟨0x180, 0x0026, false⟩, ⟨0x1B0, 0x0027, false⟩,
   ⟨0x200, 0x002A, false⟩, ⟨0x300, 0x0010, false⟩, ⟨0x340, 0x0018, false⟩, ⟨0x348, 0x001E, false⟩, ⟨0x358, 0x0025, false⟩,
   ⟨0x364, 0x0003, false⟩]

/-- A function's own capabilities: one marked absent is omitted from its list (R258). -/
def capsOf (func : Nat) (t : List CapRow) : List CapRow := t.filter (fun r => decide (func = 0) || r.vf)

/-- The capability at an offset, with the offset of the next in the list; 0 ends it. -/
def capAt : List CapRow → Nat → Option (Nat × Nat)
  | [], _ => none
  | r :: t, o => if r.off = o then some (r.id, (t.head?.map CapRow.off).getD 0) else capAt t o

/-- The bit of an error in the standard's uncorrectable or correctable error registers. -/
def aerBit : Aer → Nat
  | .receiverError => 0
  | .badTlp => 6
  | .badDllp => 7
  | .replayRollover => 8
  | .replayTimer => 12
  | .correctedInternal => 14
  | .dataLinkProtocol => 4
  | .poisoned => 12
  | .flowControlProtocol => 13
  | .completionTimeout => 14
  | .completerAbortReceived => 15
  | .completerAbortSent => 15
  | .unexpectedCompletion => 16
  | .receiverOverflow => 17
  | .malformed => 18
  | .ecrc => 19
  | .unsupportedReceived => 20
  | .unsupportedSent => 20
  | .uncorrectableInternal => 22

/-- Errors as a register of the AER capability shows them: the correctable one, where an advisory error sets Advisory Non-Fatal, or the
uncorrectable one. -/
def aerWord (cor : Bool) (es : List Aer) : Nat :=
  (es.filter (fun e => aerCorrectable e == cor)).foldl (fun a e => a ||| 2 ^ aerBit e) (if cor && es.any aerAdvisory then 2 ^ 13 else 0)

/-- The bits of these registers that errors of Table HOST-7 use. -/
def aerAll (cor : Bool) : Nat :=
  aerWord cor [.receiverError, .badTlp, .badDllp, .replayTimer, .replayRollover, .correctedInternal, .completionTimeout, .unexpectedCompletion,
    .completerAbortReceived, .unsupportedReceived, .poisoned, .ecrc, .dataLinkProtocol, .flowControlProtocol, .receiverOverflow, .malformed,
    .uncorrectableInternal]

/-- The words of configuration space that the spec fixes for a function: offset, the bits it fixes, and their value. -/
def cfgWords (s : State) (port func : Nat) : List (Nat × Nat × Nat) :=
  let x := fnOf s port func
  let pf := decide (func = 0)
  [(0x00, 0xFFFFFFFF, if pf then 0x96401F6D else 0xFFFFFFFF),
   (0x04, 0x100006, 0x100000 + 4 * b2n x.bme + 2 * b2n (pf && x.cfg.mse)),
   (0x08, 0xFFFFFFFF, 0x018000B1),
   (0x10, if pf then 2 ^ 25 - 1 else 0xFFFFFFFF, if pf then 4 else 0),
   (0x14, if pf then 0 else 0xFFFFFFFF, 0),
   (0x18, if pf then 2 ^ 24 - 1 else 0xFFFFFFFF, if pf then 4 else 0),
   (0x1C, if pf then 0 else 0xFFFFFFFF, 0),
   (0x20, 0xFFFFFFFF, 0), (0x24, 0xFFFFFFFF, 0), (0x30, 0xFFFFFFFF, 0),
   (0x2C, 0xFFFFFFFF, (s.host.ids[port]?).getD 0),
   (0x34, 0xFF, ((capsOf func stdCaps).head?.map CapRow.off).getD 0),
   (0x3C, 0xFF00, 0)] ++
  -- PCI Express: Max_Payload_Size Supported 512 bytes and Function Level Reset; what Device Control holds; ASPM L1 with an exit latency of 8 µs
  -- to 16 µs; Completion Timeout Ranges A, B and C, no Completion Timeout Disable, 10-bit Tag Requester; what Device Control 2 holds
  [(0x74, 2 ^ 28 + 7, 2 ^ 28 + 2),
   (0x78, 0x70F7, b2n x.cfg.errCor + 2 * b2n x.cfg.errNonfatal + 4 * b2n x.cfg.errFatal + 0x10 * b2n x.cfg.relaxed + 0x20 * (Nat.log2 x.cfg.mps - 7) + 0x1000 * (Nat.log2 x.cfg.mrrs - 7)),
   (0x7C, 0x38FFF, 5 + 16 * 16 + 2 * 2 ^ 10 + 4 * 2 ^ 15),
   (0x80, 0x03FF0003, 2 * b2n x.cfg.aspmL1 + 2 ^ 16 * getFld s (HEP_LINK_SPEED port) + 2 ^ 20 * getFld s (HEP_LINK_WIDTH port)),
   (0x94, 2 ^ 17 + 0x1F, 2 ^ 17 + 7),
   (0x98, 0x100F, x.cfg.cto % 16 + 0x1000 * b2n x.cfg.tag10)] ++
  -- AER: status, masks and severities; the contents of the header log are free
  [(0x104, aerAll false, aerWord false x.aer), (0x110, aerAll true, aerWord true x.aer)] ++
  (if pf then [(0x108, aerAll false, aerWord false x.cfg.aerMask), (0x10C, aerAll false, aerWord false x.cfg.aerFatal),
    (0x114, aerAll true, aerWord true (x.cfg.aerMask.filter aerCorrectable) ||| 2 ^ 13 * b2n x.cfg.advMask)] else []) ++
  -- MSI-X: its table and pending bits (Table HOST-4)
  [(0xB4, 0xFFFFFFFF, if pf then 0xF00000 else 0x1800), (0xB8, 0xFFFFFFFF, if pf then 0xF08000 else 0x1C00)] ++
  (if pf then
    [(0x44, 0x810B, getFld s (HEP_FUNCS_PF_DSTATE port) + 8 + 2 ^ 8 * b2n x.cfg.pmeEn + 2 ^ 15 * b2n x.pme),
     (0x54, 0xFFFFFFFF, x.cfg.msiAddr % 2 ^ 32), (0x58, 0xFFFFFFFF, x.cfg.msiAddr / 2 ^ 32), (0x5C, 0xFFFF, x.cfg.msiData % 2 ^ 16),
     (0x60, 0xFFFFFFFF, maskOf x.cfg.msiMask), (0x64, 0xFFFFFFFF, if x.cfg.msix then 0 else maskOf (x.pba.filter (· < 32))),
     (0x350, 0xC, 4 * b2n x.cfg.l12 + 8 * b2n x.cfg.l11),
     (0x308, 0x19, b2n (isSet s (HEP_FUNCS_VF_EN port)) + 8 * b2n x.cfg.vfMse + 16 * b2n (isSet s (HEP_FUNCS_ARI port))),
     (0x30C, 0xFFFFFFFF, 1023 + 2 ^ 16 * 1023),
     (0x310, 0xFFFF, getFld s (HEP_FUNCS_NUMVFS port)),
     (0x314, 0xFFFFFFFF, 1 + 2 ^ 16),
     (0x318, 0xFFFF0000, 2 ^ 16 * 0x9641),
     (0x324, 2 ^ 14 - 1, 4), (0x32C, 0xFFFFFFFF, 0), (0x330, 0xFFFFFFFF, 0), (0x334, 0xFFFFFFFF, 0), (0x338, 0xFFFFFFFF, 0),
     (0x368, 0xFFFFFFFF, leAt s.role.dsn 0 4), (0x36C, 0xFFFFFFFF, leAt s.role.dsn 4 4)]
  else [])

/-- What stands beside the ID and the link in a capability's first word: PME from D0, D3hot and D3cold; MSI with 32 vectors, 64-bit addresses and
per-vector masking; the Endpoint type; MSI-X with 2,048 entries, or 4 for a VF (Table HOST-1, R261). -/
def capTop (x : HFn) (func id : Nat) : Nat × Nat :=
  match id with
  | 0x01 => (0xF8000000, 0xC8000000)
  | 0x05 => (0x018F0000, 0x018A0000 + 2 ^ 16 * b2n x.cfg.msi.isSome)
  | 0x10 => (0x00F00000, 0)
  | 0x11 => (0xC7FF0000, 2 ^ 16 * (if func = 0 then 2047 else 3) + 2 ^ 30 * b2n x.cfg.fmask + 2 ^ 31 * b2n x.cfg.msix)
  | _ => (0, 0)

/-- The bits that the spec fixes in a word of configuration space, and their value. -/
def cfgFixed (s : State) (port func off : Nat) : Nat × Nat :=
  match capAt (capsOf func stdCaps) off with
  | some (id, next) =>
    let t := capTop (fnOf s port func) func id
    (t.1 + 0xFFFF, t.2 + id + 2 ^ 8 * next)
  | none =>
    match capAt (capsOf func extCaps) off with
    | some (id, next) => (0xFFF0FFFF, id + 2 ^ 20 * next)
    | none => ((cfgWords s port func).lookup off).getD (0, 0)

/-- A word of configuration space: the bits that the spec leaves to the standard alone are free. -/
def cfgWord (s : State) (port func off : Nat) : Nat :=
  let m := cfgFixed s port func off
  (m.2 &&& m.1) ||| ((Config.cfgBits port func off s.fresh).toNat &&& (0xFFFFFFFF ^^^ m.1))

/-- A configuration read of one word. -/
def cfgRead (w : Win) (off : Nat) (s : State) : State :=
  match winFn w with
  | some (port, func) => if cfgRetry s port func then emit (.cfgRetry w off) s else bumpFresh (emit (.read w 0x3000 off (cfgWord s port func off)) s)
  | none => s

end Sys2Proof.Machine
end

