-- ==== Sys2Proof/Machine/Register.lean ====
section
/-! DEFINITION. Reads and writes of registers that no other command covers (R260, R437 to R445, R467), and the settings record (R411). -/

namespace Sys2Proof.Machine
open Reg

/-! ### Where a write goes -/

/-- The registers that the tables give as runs of words: CH_DESC and ROLE_KEY_DATA. -/
def runRows (p : Nat) : List RegRow :=
  if 0xE0 ≤ p ∧ p ≤ 0xEF then (List.range 32).map (fun w => ⟨CH_DESC (p - 0xE0) w, .rw, 0, 4294967295⟩)
  else if p = 3 then (List.range 24).map (fun i => ⟨ROLE_KEY_DATA i, .wo, 0, 4294967295⟩)
  else []

/-- The fields of the register at an offset of a page; none at a reserved offset (R5). -/
def rowsAt (s : State) (p off : Nat) : List RegRow :=
  (pageRows s p).filter (fun r => decide (r.f.off = off)) ++ (runRows p).filter (fun r => decide (r.f.off = off))

/-- A register whose name ends in _SEL (R441). -/
def selReg (p off : Nat) : Bool :=
  (decide (p = 0x2A) && decide (off = 0x50)) || (decide (p = 7) && decide (off ∈ [0x54, 0x7C])) ||
  (decide (0x20 ≤ p ∧ p ≤ 0x23) && decide (off = 0x64)) || (decide (0xC8 ≤ p ∧ p ≤ 0xCF) && decide (off = 0x5C)) ||
  (decide (p = 0xD0) && decide (off = 0x44)) || (decide (p = 5) && decide (off ∈ [0x4C, 0x5C])) ||
  (decide (p = 4) && decide (off ∈ [0x70, 0x78, 0x88])) || (decide (p = 6) && decide (off = 0x68)) || (decide (p = 8) && decide (off = 0x48)) ||
  (decide (0xC0 ≤ p ∧ p ≤ 0xC3) && decide (off = 0x50))

/-- A field that a command of its own writes: the header controls, CTX_BIND and CTX_CTL, PAUSE_ALL, NIGHT_REQ, MTR_CFG.EN, MTR_HEAD,
ADM_PROBE_HI, DMC_DIAG_ADDR_HI and ICU_PEND. -/
def ownField (p : Nat) (f : FRef) : Bool :=
  decide (f.off = 8) || (decide (p = 1) && decide (f.off = 0x44)) || (decide (p = 0x101) && (decide (f.off = 0x54) || decide (f.key = MTR_CFG_EN.key))) ||
  (decide (p = 0x2B) && decide (f.off = 0x70)) || (decide (0x20 ≤ p ∧ p ≤ 0x23) && decide (f.off = 0x8C)) ||
  (decide (p ∈ [0x38, 0x39]) && decide (f.off = 0x48)) || (decide (0x1000 ≤ p) && decide (f.off ∈ [0x40, 0x44])) || (decide (p = 5) && decide (f.off = 0x60))

/-- What a written word gives a field. -/
def wordFld (r : RegRow) (v : Nat) : Nat := bitsOf v r.f.lo r.f.width

/-- A bit that starts an action is written 1: the write is one of the commands that have rows of their own. -/
def startsAction (rows : List RegRow) (v : Nat) : Bool :=
  rows.any (fun r => decide (r.acc = .w1s ∨ (r.acc = .wo ∧ !(runRows r.f.page).contains r)) && decide (wordFld r v ≠ 0))

/-- RWL fields are locked from the cycle READY becomes 1 until device reset (Table PAGE-2). -/
def rwlLocked (s : State) : Bool := decide (getFld s CHIP_DEV_STAT_PHASE = 8)

/-- The code names a measure of Table ROLE-6: an EVENT of a block page, a COUNT, a HIST or an EXTREME; the others are reserved. -/
def measureCode (s : State) (x : Nat) : Bool :=
  if x < 0x4000 then !(pageRows s (x / 32)).isEmpty
  else decide (x < 0x4130) || decide (0x8000 ≤ x ∧ x < 0x8008) || decide (0x8040 ≤ x ∧ x < 0x8080) || decide (0xC000 ≤ x ∧ x < 0xC003) ||
    decide (0xC010 ≤ x ∧ x < 0xC014)

/-- The value is no reserved encoding of the field (R4, R443) and meets what the field's chapter asks of it: CEIL_PCT from FLOOR_PCT
to 100, CRIT_C at least 5 °C above WARN_C, X4 on even ports, QPAIRS from 1 to 4, or to 8 where X4 is left set (R290), REACT at least MIN,
AON_WAKE for sources 1 to 31, EVR_MSEL.CODE a code of Table ROLE-6, a host source's ENTRY up to 31 where it is sent as MSI (Table IRQ-3), CAP_UNITS at least the sum of MIN_UNITS.
`v` is the written word. -/
def legalFld (s : State) (p v : Nat) (r : RegRow) : Bool :=
  let locked := rwlLocked s
  let x := wordFld r v
  let k := r.f.key
  decide (r.min ≤ x) && decide (x ≤ r.max) &&
  (if 0x40 ≤ p ∧ p ≤ 0x7F ∧ k = (PLT_CFG_CEIL_PCT (p - 0x40)).key then
     let fl := bitsOf v 16 7
     decide ((if 1 ≤ fl ∧ fl ≤ 100 then fl else getFld s (PLT_CFG_FLOOR_PCT (p - 0x40))) ≤ x) && decide (x ≤ 100)
   else if k = PWR_TEMP_THR_CRIT_C.key then
     let warn := bitsOf v 0 8
     decide ((if 80 ≤ warn ∧ warn ≤ 110 then warn else getFld s PWR_TEMP_THR_WARN_C) + 5 ≤ x)
   else if 0x80 ≤ p ∧ p ≤ 0xBF ∧ k = (DPT_CFG_X4 (p - 0x80)).key then decide (x = 0) || decide (p % 2 = 0)
   else if 0x80 ≤ p ∧ p ≤ 0xBF ∧ k = (DPT_CFG_QPAIRS (p - 0x80)).key then
     let x4 := if locked then isSet s (DPT_CFG_X4 (p - 0x80)) else decide (p % 2 = 0) && v.testBit 1
     decide (1 ≤ x) && decide (x ≤ if x4 then 8 else 4)
   else if p = 5 ∧ k = (ICU_SRC_HOST_ENTRY (getFld s ICU_SRC_SEL_SOURCE)).key then
     decide (x ≤ 31) || !v.testBit 11 || decide (bitsOf v 1 10 ≠ 0)
   else if p = 4 ∧ r.f.off = 0x74 then decide (kindMin (getFld s FLT_KIND_SEL_KIND) ≤ x)
   else if p = 5 ∧ k = (ICU_SRC_CFG_AON_WAKE (getFld s ICU_SRC_SEL_SOURCE)).key then
     decide (x = 0) || decide (1 ≤ getFld s ICU_SRC_SEL_SOURCE ∧ getFld s ICU_SRC_SEL_SOURCE ≤ 31)
   else if k = TSC_CFG_CAP_UNITS.key then decide (minSum s 4096 ≤ x)
   else if k = EVR_MSEL_CODE.key then measureCode s x
   else true)

/-- The field as a write would leave it. -/
def nextFld (s : State) (p v : Nat) (r : RegRow) : Nat := if legalFld s p v r then wordFld r v else getFld s r.f

/-- A size in GiB that stands for its automatic value while it is 0 (R135). -/
def autoGib (inst x : Nat) : Nat := if x = 0 then (inst - 16) / 3 else x

/-- The sizes of CCH_GEOM fit the installed DRAM (R135); nothing is known of it before the first DIMM is read. -/
def geomFits (inst cache pool : Nat) : Bool :=
  decide (inst = 0) || decide (2 * autoGib inst cache + autoGib inst pool + 16 ≤ inst)

/-- The rules over a whole register: the lease times (R338) and the cache sizes (R135). -/
def wholeOk (s : State) (p off v : Nat) : Bool :=
  if p = 0xD0 ∧ off ∈ [0x4C, 0x50] then
    let nxt := fun (f : FRef) => match (rowsAt s p off).find? (fun r => decide (r.f.key = f.key)) with
      | some r => nextFld s p v r
      | none => getFld s f
    decide (nxt TRT_LEASE_TMO_MS + nxt TRT_LEASE2_PREEMPT_MS + 10 ≤ nxt TRT_LEASE_DROP_MS)
  else if p = 0x28 ∧ off = 0x44 then geomFits (installedGib s) (bitsOf v 0 8) (bitsOf v 8 8)
  else true

/-- The fields a write changes by its access codes: RW always, RWL until READY, RWI for the installer and maker. -/
def taken (inst locked : Bool) (s : State) (p off v : Nat) : List RegRow :=
  if wholeOk s p off v then
    (rowsAt s p off).filter (fun r =>
      (decide (r.acc = .rw) || (decide (r.acc = .rwl) && !locked) || (decide (r.acc = .rwi) && inst)) && legalFld s p v r)
  else []

/-- An operator's write would change an RWI field (R444). -/
def refusedRwi (s : State) (p off v : Nat) : Bool :=
  wholeOk s p off v && (rowsAt s p off).any (fun r => decide (r.acc = .rwi) && legalFld s p v r && !ownField p r.f && decide (getFld s r.f ≠ wordFld r v))

/-- The fields take their values. -/
def putRows (rows : List RegRow) (v : Nat) (s : State) : State := rows.foldl (fun t r => setFld r.f (wordFld r v) t) s

/-- PG_SEQ counts a change of this register (R441). -/
def seqCounts (p off : Nat) : Bool := !selReg p off && decide (off ≠ 0x14)

/-- The RW, RWL and RWI fields of a write. -/
def putFields (w : Win) (p off v : Nat) (s : State) : State :=
  let rows := (taken (mayInstall s w) (rwlLocked s) s p off v).filter (fun r => !ownField p r.f)
  let s1 := if rows.any (fun r => decide (r.acc = .rwi) && decide (getFld s r.f ≠ wordFld r v)) then needRole w s else s
  let s2 := putRows rows v s1
  let s3 := if seqCounts p off then seqIf p s1 s2 else s2
  if !mayInstall s w && refusedRwi s p off v then denied w p s3 else s3

/-- The bits written 1 are cleared. -/
def clearBits (f : FRef) (x : Nat) (s : State) : State := setFld f (getFld s f - (getFld s f &&& x)) s

/-- The RW1C fields of a write; PG_EVT and DPT_SLOT_STS are one storage (R299). -/
def clearFields (p off v : Nat) (s : State) : State :=
  if off = 0x10 then clearEvt p v s
  else (rowsAt s p off).foldl (fun t r =>
    if r.acc ≠ .rw1c ∨ ownField p r.f then t
    else if 0x80 ≤ p ∧ p ≤ 0xBF then clearEvt p (wordFld r v) t
    else clearBits r.f (wordFld r v) t) s

/-- ROLE_KEY_DATA takes what is written. -/
def putKeyData (p off v : Nat) (s : State) : State :=
  if p = 3 then putRows ((runRows 3).filter (fun r => decide (r.f.off = off))) v s else s

/-! ### Registers whose writes depend on state -/

/-- A VF's window. -/
def isVf : Win → Bool
  | .vf _ _ => true
  | _ => false

/-- A write of a context page that R195, R196, R230 or R238 discards, with what the discard does. -/
def ctxGate (w : Win) (c off v : Nat) (s : State) : Option (State → State) :=
  if off < 0x44 then none
  else if off < 0x80 then
    if !ringWin s w c then some (discardDb c)
    else if off ∈ [0x50, 0x54, 0x58, 0x5C, 0x60] ∧ ctxState s c ≠ 1 then some id
    else none
  else if !bindWin s w c then some (discardDb c)
  else if off = 0x80 ∧ (bitsOf v 8 8 = 0 ∨ (isSet s (CTX_BIND_VALID c) ∧ getFld s TSC_CFG_CAP_UNITS < minSum s c + bitsOf v 16 16)) then some (cfgBad c)
  else if off = 0x88 ∧ bitsOf v 0 8 = 0 then some (cfgBad c)
  else none

/-- A write of the metering ring's registers that R245 discards. -/
def mtrGate (w : Win) (off : Nat) (s : State) : Bool :=
  let other := match w with
    | .pf 0 => false
    | .core _ => false
    | _ => true
  (decide (off ∈ [0x40, 0x44, 0x48, 0x4C]) && other) || (decide (off ∈ [0x44, 0x48, 0x4C]) && isSet s MTR_CFG_EN)

/-- A write that a rule of its register discards, with what the discard does: PG_RIGHTS by any but the maker (R445), FLT_INJ outside factory test
mode (R386), a Graver channel's head and descriptor while it is not IDLE or in chain mode (R361). -/
def gate (w : Win) (p off v : Nat) (s : State) : Option (State → State) :=
  if off = 0x30 ∧ !isMaker s w then some (denied w p)
  else if 0x1000 ≤ p then ctxGate w (p - 0x1000) off v s
  else if p = 0x101 then (if mtrGate w off s then some id else none)
  else if p = 4 ∧ off ∈ [0x98, 0x9C] ∧ !ftest s then some id
  else if 0xE0 ≤ p ∧ p ≤ 0xEF ∧ (off ∈ [0x48, 0x4C] ∨ 0x80 ≤ off) then
    (if chState s (p - 0xE0) ≠ 0 ∨ (0x80 ≤ off ∧ isSet s (MCH_CH_CTL_CHAIN (p - 0xE0))) then some id else none)
  else none

/-- The CMD register of a page: its offset, OP, GO, STATUS and DONE (R467). -/
def allCmdRegs (p : Nat) : Option (Nat × FRef × FRef × FRef × FRef) :=
  if 0x80 ≤ p ∧ p ≤ 0xBF then
    some (0x80, DPT_CMD_OP (p - 0x80), DPT_CMD_GO (p - 0x80), DPT_CMD_RES_STATUS (p - 0x80), DPT_CMD_RES_DONE (p - 0x80))
  else if 0x20 ≤ p ∧ p ≤ 0x23 then
    some (0x98, DMC_CMD_OP (p - 0x20), DMC_CMD_GO (p - 0x20), DMC_CMD_RES_STATUS (p - 0x20), DMC_CMD_RES_DONE (p - 0x20))
  else if p = 0xD0 then some (0x6C, TRT_CMD_OP, TRT_CMD_GO, TRT_CMD_RES_STATUS, TRT_CMD_RES_DONE)
  else if p = 4 then some (0xA4, FLT_CMD_OP, FLT_CMD_GO, FLT_CMD_RES_STATUS, FLT_CMD_RES_DONE)
  else if p = 6 then some (0x6C, EVR_CMD_OP, EVR_CMD_GO, EVR_CMD_RES_STATUS, EVR_CMD_RES_DONE)
  else cmdRegs p

/-- A write of a CMD register with GO: with OP 0, or a reserved code, it ends at once with INVALID_FIELD; with the code of an operation it is
that operation's own command (R467). -/
def goWrite (w : Win) (p off v : Nat) (q : FRef × FRef × FRef × FRef) (s : State) : State :=
  let (op, go, st, done) := q
  let s1 := putFields w p off v s
  let bad := (rowsAt s p off).any (fun r => decide (r.f.key = op.key) && !legalFld s p v r)
  if isSet s go then s1
  else if bad ∨ getFld s1 op = 0 then setFld done 1 (setFld st (statusCode .invalidField) s1)
  else s

/-! ### What follows a write -/

/-- CHIP.NODE_ID shows the strap plus NODE_OFF (R328). -/
def showNode (s : State) : State := setFld CHIP_NODE_ID_NODE ((s.pwr.node + getFld s TRT_CFG_NODE_OFF) % 512) s

/-- The port after an even port of four lanes is ABSORBED, its outputs at reset; it is a port again where X4 is cleared (R284). -/
def absorb (p : Nat) (s : State) : State :=
  if p % 2 = 1 then s
  else if isSet s (DPT_CFG_X4 p) then (if portState s (p + 1) = 7 then s else setPort (p + 1) 7 (updBay (p + 1) (fun _ => Bay.reset) s))
  else if portState s (p + 1) = 7 then setPort (p + 1) 0 s else s

/-- A narrow or slow link is held in DOWN while ALLOW_NARROW is 0 (R320). -/
def holdNarrow (x : Nat) (s : State) : State :=
  onlyIf (decide (tlkState s x = 2 ∧ (getFld s (TLK_STAT_SPEED x) < 2 ∨ getFld s (TLK_STAT_WIDTH x) < 4)) && !isSet s (TLK_CFG_ALLOW_NARROW x)) (linkDown x) s

/-- What follows an accepted write of a page: the latency message of R280, the interrupt sources due to the host, the energy bound, the vault's ready check with what its test
regions answer (R151), the estimator's store where an internal resistance has changed (R187), the Proof cycles, the Graver's choice; a route that the installer writes is no longer learned (R329); a lower
CAP_UNITS is refused (R238); a context's configuration write is no longer bad. -/
def afterWrite (w : Win) (p off v : Nat) (vr : VaultRead) (before s : State) : State :=
  if p = 5 then
    let i := getFld s ICU_SRC_SEL_SOURCE
    icuHost (if off = 0x50 ∧ getFld before (ICU_SRC_CFG_CORE i) ≠ getFld s (ICU_SRC_CFG_CORE i) then
      updIcu (fun t => { t with moved := smDel t.moved i }) s else s)
  else if p = 7 then
    let rint := (List.range 4).any (fun i => decide (getFld before (BEM_RINT_MOHM i) ≠ getFld s (BEM_RINT_MOHM i)))
    boundUpdate (authSwitch before (if rint then updBem (fun b => { b with due := true }) s else s))
  else if 0x10 ≤ p ∧ p ≤ 0x11 ∧ off = 0x50 ∧ mayInstall s w then ltrSend (p - 0x10) s
  else if p = 0x28 then pmirShow (boundUpdate s)
  else if 0x30 ≤ p ∧ p ≤ 0x37 then pipesSleep s
  else if p = 0x29 then (if (rowsAt s p off).any (fun r => decide (r.acc = .rwi) && decide (getFld before r.f ≠ getFld s r.f)) then vaultTest vr.ok1 vr.ok2 vr.rate s else s)
  else if p = 0x38 ∨ (0x40 ≤ p ∧ p ≤ 0x7F) then cyclesSync s
  else if p = 0xDF ∨ (0xE0 ≤ p ∧ p ≤ 0xEF) then chooseUnit s
  else if p = 0xD0 ∧ off = 0x40 then showNode s
  else if 0xC8 ≤ p ∧ p ≤ 0xCF ∧ off = 0x40 then holdNarrow (p - 0xC8) s
  else if 0x80 ≤ p ∧ p ≤ 0xBF ∧ off = 0x40 then absorb (p - 0x80) s
  else if p = 0xD0 ∧ off = 0x48 ∧ mayInstall s w then setFld (TRT_ENTRY_LEARNED (getFld s TRT_SEL_NODE)) 0 s
  else if p = 0x100 ∧ off = 0x40 ∧ mayInstall s w ∧ bitsOf v 0 16 < minSum s 4096 then setEvt 0x100 TSC_EVT_CAP_REFUSED s
  else if 0x1000 ≤ p ∧ 0x50 ≤ off ∧ (rowsAt s p off).any (fun r => decide (r.acc = .rw)) then cfgGood (p - 0x1000) s
  else s

/-- A write of a register of a page that the window and the rights allow. -/
def regWrite (w : Win) (p off v : Nat) (vr : VaultRead) (s : State) : State :=
  match gate w p off v s with
  | some f => f s
  | none =>
    match allCmdRegs p with
    | some (o, q) =>
      if o = off ∧ v.testBit 31 then goWrite w p off v q s
      else if startsAction (rowsAt s p off) v then s
      else afterWrite w p off v vr s (putKeyData p off v (clearFields p off v (putFields w p off v s)))
    | none =>
      if startsAction (rowsAt s p off) v then s
      else afterWrite w p off v vr s (putKeyData p off v (clearFields p off v (putFields w p off v s)))

/-! ### The message tables (R261) -/

/-- The entry and word of an offset of a message table; none past its `n` entries. -/
def msixAt (n off : Nat) : Option (Nat × Nat) := if off / 16 < n then some (off / 16, off % 16 / 4) else none

/-- A write of a message table. Clearing a mask bit is a command of its own; a mask word holds its mask bit alone. -/
def msixWrite (port func e k v : Nat) (s : State) : State :=
  let x := if k = 3 then v % 2 else if k = 0 then v / 4 * 4 else v
  if k = 3 ∧ x = 0 then s
  else updFn port func (fun y => { y with table := if x = (if k = 3 then 1 else 0) then smDel y.table (4 * e + k) else smSet y.table (4 * e + k) x }) s

def msixRead (s : State) (port func e k : Nat) : Nat := smGetD (fnOf s port func).table (4 * e + k) (if k = 3 then 1 else 0)

/-- A word of the pending bits. -/
def pbaRead (s : State) (port func i : Nat) : Nat :=
  (fnOf s port func).pba.foldl (fun a v => if v / 32 = i then a ||| 2 ^ (v % 32) else a) 0

/-! ### Access through a window

A page number names, in a PF's or a core's window, a page of the CSR window; from 0x2000 on, in a PF's window, the doorbell page of context
p − 0x2000 in BAR2/3 (R197). In a VF's window 0 to 3 are the pages of its BAR0: the doorbell page, the VF status page and the reserved pages
(R230); a context page's number names the status page of the VF bound to it. In either, 0x3000 names the function's configuration space. -/

/-- The context bound to a VF (R194). -/
def vfCtx (s : State) (port func : Nat) : Option Nat := if func = 0 then none else (ctxsOf s port func).head?

/-- The page that a number names in a window. -/
def winPage (s : State) (w : Win) (p : Nat) : Nat :=
  match w with
  | .vf n f => if p = 1 then ((vfCtx s n f).map (· + 0x1000)).getD 1 else p
  | _ => p

/-- The context whose doorbell page a number names; none where it names no doorbell page, or that of no context. -/
def bellCtx (s : State) (w : Win) (p : Nat) : Option Nat :=
  match w with
  | .pf _ => if 0x2000 ≤ p ∧ p < 0x3000 then some (p - 0x2000) else none
  | .vf n f => if p = 0 then vfCtx s n f else none
  | .core _ => none

/-- The number names a doorbell page. -/
def isBell (w : Win) (p : Nat) : Bool :=
  match w with
  | .pf _ => decide (0x2000 ≤ p ∧ p < 0x3000)
  | .vf _ _ => decide (p = 0)
  | .core _ => false

/-- A write of a doorbell page: 4 bytes at 0x000 or 0x004 are a doorbell, any other write is discarded and counted (R197, R205). -/
def bellWrite (w : Win) (c off len v : Nat) (s : State) : State :=
  if off = 0 then doorbell w c len (sqTail c v) s
  else if off = 4 then doorbell w c len (cqHead c v) s
  else doorbell w c 0 id s

/-- One word written. -/
def wordWrite (w : Win) (p off v : Nat) (vr : VaultRead) (s : State) : State :=
  match w with
  | .pf n =>
    if 0xF00 ≤ p ∧ p ≤ 0xF07 then
      match msixAt 2048 (4096 * (p - 0xF00) + off) with
      | some (e, k) => msixWrite n 0 e k v s
      | none => s
    else if (rowsAt s p off).isEmpty then s
    else guardWrite w p (regWrite w p off v vr) s
  | .vf n f =>
    if p ≠ 1 ∧ !reaches s w p then s
    else if 0x800 ≤ off then
      match msixAt 4 (off - 0x800) with
      | some (e, k) => msixWrite n f e k v s
      | none => s
    else if p = 1 ∨ 0x80 ≤ off ∨ (rowsAt s p off).isEmpty then s
    else guardWrite w p (regWrite w p off v vr) s
  | .core _ => if (rowsAt s p off).isEmpty then s else guardWrite w p (regWrite w p off v vr) s

/-- A size and alignment that R260 allows: one word, or a naturally aligned pair. -/
def shapeOk (off len : Nat) : Bool := (decide (len = 4) && decide (off % 4 = 0)) || (decide (len = 8) && decide (off % 8 = 0))

/-- REGISTER_WRITE: a pair acts as two words, the lower address first (R260). Configuration registers are written by the commands of
chapter 10 that name them. -/
def busWrite (w : Win) (p off len v : Nat) (poisoned : Bool) (vr : VaultRead) (s : State) : State :=
  if !winOpen s w ∨ p = 0x3000 then s
  else if winOff s w then winLog w .unsupportedSent s
  else if poisoned then winErr w (winLog w .poisoned s)
  else if isBell w p then (match bellCtx s w p with | some c => bellWrite w c off len v s | none => s)
  else if !shapeOk off len then
    winErr w s
  else if len = 4 then wordWrite w (winPage s w p) off (v % 2 ^ 32) vr s
  else wordWrite w (winPage s w p) (off + 4) (v / 2 ^ 32 % 2 ^ 32) vr (wordWrite w (winPage s w p) off (v % 2 ^ 32) vr s)

def execRegisterWrite (w : Win) (p off len v : Nat) (poisoned : Bool) (vr : VaultRead) (s : State) : Host.Outcome State Fault Refusal :=
  run (decide (p ≤ 0x3000 ∧ off < 4096)) (ltrSync (busWrite w p off len v poisoned vr) s)

/-! ### Reads -/

/-- The _LO registers whose _HI a read latches: the read-only pairs of each page but ADM_PROBE_RES (R442). -/
def loRegs (p : Nat) : List Nat :=
  [0x20] ++
  (if p = 0 then [0x50]
   else if p = 4 then [0x40, 0x48, 0x7C]
   else if p = 6 then [0x60]
   else if p = 7 then [0x88]
   else if 0x10 ≤ p ∧ p ≤ 0x11 then [0x70, 0x78]
   else if 0x20 ≤ p ∧ p ≤ 0x23 then [0x80]
   else if p = 0x2B then [0x58]
   else if 0x30 ≤ p ∧ p ≤ 0x37 then [0x4C, 0x54]
   else if p = 0x38 then [0x4C, 0x5C, 0x6C, 0x84]
   else if p = 0x39 then [0x4C, 0x5C]
   else if 0x40 ≤ p ∧ p ≤ 0x7F then [0x54, 0x5C]
   else if 0xC8 ≤ p ∧ p ≤ 0xCF then [0x64, 0x6C]
   else if p = 0xDF then [0x4C]
   else if 0xE0 ≤ p ∧ p ≤ 0xEF then [0x50, 0x60]
   else if p = 0x100 then [0x5C]
   else if p = 0x101 then [0x58, 0x60, 0x84]
   else if 0x110 ≤ p ∧ p ≤ 0x113 then [0x44]
   else if 0x1000 ≤ p then [0x98, 0xA0, 0xA8, 0xB0, 0xB8]
   else [])

def latchKey (p off : Nat) : Nat := 4096 * p + off

/-- The word of a register as it stands: the summary window (R447), the store window (R429; an erased page reads all ones), a descriptor image, a
VF status page's PG_ID (R446), else the register's fields. -/
def wordNow (s : State) (w : Win) (p off : Nat) : Nat :=
  if isVf w && decide (off = 0) then 0x20000001
  else if p = 8 ∧ 0x800 ≤ off then (if isSet s SUM_STAT_VALID then leAt s.sum.pub (2048 * getFld s SUM_WIN_SEL_WIN + (off - 0x800)) 4 else 0)
  else if p = 6 ∧ 0x100 ≤ off ∧ off < 0x200 then
    match flashAt s (pageOff (getFld s EVR_RD_SEL_PAGE)) with
    | some b => leAt b (off - 0x100) 4
    | none => 0xFFFFFFFF
  else if 0xE0 ≤ p ∧ p ≤ 0xEF ∧ 0x80 ≤ off then (if off < 0x100 then getFld s (CH_DESC (p - 0xE0) ((off - 0x80) / 4)) else 0)
  else regWord s p off

/-- A register, or a window of one of the pages, lies at the offset; those of a VF status page end at 0x07F (R230). -/
def isRegister (s : State) (w : Win) (p off : Nat) : Bool :=
  !(isVf w && decide (0x80 ≤ off)) && !(rowsAt s p off).isEmpty || (decide (p = 8) && decide (0x800 ≤ off)) || (decide (p = 6) && decide (0x100 ≤ off ∧ off < 0x200))

/-- One word read: its value, with the latches of R442. -/
def pageRead (w : Win) (p off : Nat) (s : State) : Nat × State :=
  if !isRegister s w p off then (0, s)
  else if !canRead s w p then (0, denied w p s)
  else
    let s1 := if rightsRead s 0 p then s else needRole w s
    match smGet s.hiLatch (latchKey p off) with
    | some v => (v, { s1 with hiLatch := smDel s1.hiLatch (latchKey p off) })
    | none =>
      if off ∈ loRegs p then (wordNow s w p off, { s1 with hiLatch := smSet s1.hiLatch (latchKey p (off + 4)) (wordNow s w p (off + 4)) })
      else (wordNow s w p off, s1)

/-- One word read through a window. The status page of a VF without a context shows its header alone. -/
def wordRead (w : Win) (p off : Nat) (s : State) : Nat × State :=
  match w with
  | .pf n =>
    if 0xF00 ≤ p ∧ p ≤ 0xF07 then
      match msixAt 2048 (4096 * (p - 0xF00) + off) with
      | some (e, k) => (msixRead s n 0 e k, s)
      | none => (0, s)
    else if p = 0xF08 then (if off < 256 then pbaRead s n 0 (off / 4) else 0, s)
    else pageRead w p off s
  | .vf n f =>
    if p ≠ 1 ∧ !reaches s w p then (0, s)
    else if 0xC00 ≤ off then (if off < 0xC08 then pbaRead s n f ((off - 0xC00) / 4) else 0, s)
    else if 0x800 ≤ off then
      match msixAt 4 (off - 0x800) with
      | some (e, k) => (msixRead s n f e k, s)
      | none => (0, s)
    else if p = 1 then (if off = 0 then 0x20000001 else if off = 4 then 1 else if off = 0x30 then 0x3F else 0, s)
    else pageRead w p off s
  | .core _ => pageRead w p off s

/-- REGISTER_READ: the value goes out; another size or alignment ends with Completer Abort (R260), a read in D3hot with Unsupported
Request (R259, R277); in BACKUP or without a link it returns all ones (R275); a doorbell page reads 0 (R205). The free values a read shows are used up. -/
def busRead (w : Win) (p off len : Nat) (s : State) : State :=
  if !winOpen s w then (if p = 0x3000 ∨ (winFn w).isNone then s else emit (.read w p off (2 ^ (8 * len) - 1)) s)
  else if p = 0x3000 then cfgRead w off s
  else if winOff s w then emit (.badRead w p off true) (winLog w .unsupportedSent s)
  else if isBell w p then emit (.read w p off 0) s
  else if !shapeOk off len then emit (.badRead w p off false) (winErr w (winLog w .completerAbortSent s))
  else
    let q := winPage s w p
    let a := wordRead w q off s
    if len = 4 then bumpFresh (emit (.read w p off a.1) a.2)
    else
      let b := wordRead w q (off + 4) a.2
      bumpFresh (emit (.read w p off (a.1 + 2 ^ 32 * b.1)) b.2)

def execRegisterRead (w : Win) (p off len : Nat) (s : State) : Host.Outcome State Fault Refusal :=
  run (decide (p ≤ 0x3000 ∧ off < 4096)) (busRead w p off len s)

/-! ### The settings record (R411, Table POWER-12) -/

/-- "ZYNSETTG". -/
def setMagic : Nat := 0x47545445534E595A
def setA : Nat := cfgOff 0x2E0000
def setB : Nat := cfgOff 0x2F0000

def setValid (b : List Byte) : Bool :=
  decide (leAt b 0 8 = setMagic) && decide (leAt b 8 2 = 1) && crcOk b 0x3C && decide (leAt b 0x14 4 = crc32c (slice b 0x40 (8 * leAt b 0x10 4)))

/-- The selector of a register that is shown through one, with how many values it takes. -/
def selOf (p off : Nat) : Option (FRef × Nat) :=
  if p = 7 ∧ off = 0x58 then some (BEM_OCV_SEL_INDEX, 11)
  else if p = 7 ∧ off = 0x80 then some (BEM_RINT_SEL_BAND, 4)
  else if p = 0xD0 ∧ off = 0x48 then some (TRT_SEL_NODE, 512)
  else if p = 4 ∧ off = 0x74 then some (FLT_KIND_SEL_KIND, 256)
  else none

/-- The fields of a register that the record holds. -/
def savedRows (s : State) (p off : Nat) : List RegRow := (rowsAt s p off).filter (fun r => decide (r.acc = .rwi ∨ r.acc = .rwl))

def savedWord (s : State) (p off : Nat) : Nat := ((savedRows s p off).map (fun r => getFld s r.f * 2 ^ r.f.lo)).sum

/-- The registers of a page with a saved field; DMC_DLY and DMC_DLY_CA belong to the board record. -/
def savedOffs (s : State) (p : Nat) : List Nat :=
  (((pageRows s p).filter (fun r => decide (r.acc = .rwi ∨ r.acc = .rwl))).map (fun r => r.f.off)).eraseDups.filter (fun off =>
    !(decide (0x20 ≤ p ∧ p ≤ 0x23) && decide (off ∈ [0x68, 0x6C])))

/-- The entries of the record: page, offset and value, a selector's entry ahead of each one it selects. -/
def setEntries (s : State) : List (Nat × Nat × Nat) :=
  (List.range 0x114).flatMap (fun p => (savedOffs s p).flatMap (fun off =>
    match selOf p off with
    | some (f, n) => (List.range n).flatMap (fun i => [(p, f.off, i), (p, off, savedWord (setFld f i s) p off)])
    | none => [(p, off, savedWord s p off)]))

def setBytes (seq : Nat) (es : List (Nat × Nat × Nat)) : List Byte :=
  let body := es.flatMap (fun e => leBytes e.1 2 ++ leBytes e.2.1 2 ++ leBytes e.2.2 4)
  withCrc (leBytes setMagic 8 ++ leBytes 1 2 ++ zeros 2 ++ leBytes seq 4 ++ leBytes es.length 4 ++ leBytes (crc32c body) 4 ++ zeros 36) ++ body

/-- The entries of the governing copy, 8 bytes each. -/
def setRead (s : State) : List (List Byte) :=
  match slotRead s setA setB 0x0C setValid with
  | some b => (List.range (leAt b 0x10 4)).map (fun i => slice b (0x40 + 8 * i) 8)
  | none => []

/-- The record is written by the slot rule. -/
def settingsWrite (s : State) : State :=
  let q := slotFor s setA setB 0x0C setValid
  flashPut q.1 (setBytes q.2 (setEntries s)) s

/-- SETTINGS_RECORD_WRITE (R411), once the firmware runs. -/
def execSettingsRecordWrite (s : State) : Host.Outcome State Fault Refusal :=
  run true (onlyIf (decide (5 ≤ getFld s CHIP_DEV_STAT_PHASE)) settingsWrite s)

/-- One entry is applied as a write by the installer role. -/
def settingPut (e : List Byte) (s : State) : State :=
  let p := leAt e 0 2
  let off := leAt e 2 2 % 4096
  let v := leAt e 4 4
  let rows := (taken true false s p off v).filter (fun r => decide (r.acc = .rwi ∨ r.acc = .rwl) || selReg p off)
  let s1 := putRows rows v s
  if seqCounts p off then seqIf p s s1 else s1

/-- The saved settings are restored in order. -/
def settingsRestore (s : State) : State := (setRead s).foldl (fun t e => settingPut e t) s

end Sys2Proof.Machine
end

