-- ==== Sys2Proof/Machine/Power.lean ====
section
/-! DEFINITION. Power, clocks, resets and start-up (chapter 17): the supervisor, the phases P0 to P8, device resets, the power states and
the alarms. -/

namespace Sys2Proof.Machine
open Reg

def updPwr (f : PwrSt → PwrSt) (s : State) : State := { s with pwr := f s.pwr }

def pwrEvt (bit : Nat) (s : State) : State := setEvt 1 bit s

/-- The main domain is powered and the rails are up: P1 has ended (R396). -/
def supervised (s : State) : Bool := cclkOn s

/-- The supervisor acts on VIN_SENSE with the main domain powered: from P1 on, where VDD, VDD_IO and RAIL_OK wait for the end of P1 (R396). -/
def vinWatched (s : State) : Bool := supervised s || s.pwr.due.isNone

/-- A stopped start-up (R404). -/
def stopStart (why : Nat) (s : State) : State :=
  setEvt 0 CHIP_EVT_STOPPED (setFld CHIP_DEV_STAT_STOPPED 1 (setFld CHIP_DEV_STAT_WHY why s))

def stopped (s : State) : Bool := isSet s CHIP_DEV_STAT_STOPPED

def phase (s : State) : Nat := getFld s CHIP_DEV_STAT_PHASE

def setPhase (n : Nat) (s : State) : State := setFld CHIP_DEV_STAT_PHASE n s

/-! ### P1 and the rails (R390, R396) -/

/-- Main power starts P1, also after OFF_AON (Table POWER-3), to whose exit Table POWER-4 gives no code: LAST_RESET is free then. While P0 runs,
it waits for its end. -/
def powerGood (s : State) : State :=
  let s1 := setFld PWR_STAT_PWRFAIL 0 s
  if s1.pwr.due.isNone ∨ getFld s1 PWR_STAT_STATE = 3 ∨ getFld s1 PWR_STAT_STATE = 4 then s1
  else if !s1.pwr.p0 then updPwr (fun p => { p with good := true }) s1
  else startP1 (if s1.pwr.due = some 6 then bumpFresh (setFld PWR_STAT_LAST_RESET (Config.offAonReset s1.fresh).toNat s1) else s1)

/-- MAIN_POWER_GOOD (R396). -/
def execMainPowerGood (s : State) : Host.Outcome State Fault Refusal := run true (powerGood s)

/-- RAIL_SEQUENCE_STEP (R390): the next enable. -/
def execRailSequenceStep (s : State) : Host.Outcome State Fault Refusal :=
  run true (if phase s ≠ 1 ∨ stopped s then s
    else if getFld s PWR_RAIL_SEQ = 1 then setFld PWR_RAIL_SEQ 3 s
    else if getFld s PWR_RAIL_SEQ = 3 then setFld PWR_RAIL_SEQ 7 s else s)

/-- RAIL_RETRY (R390): the enables are dropped; the third failure stops start-up, else P1 starts again. -/
def railRetry (s : State) : State :=
  if phase s ≠ 1 ∨ stopped s then s
  else
    let n := getFld s PWR_RAIL_ATTEMPTS + 1
    let s1 := pwrEvt PWR_EVT_RAIL_RETRY (setFld PWR_RAIL_ATTEMPTS n (setFld PWR_RAIL_SEQ 0 s))
    if 3 ≤ n then stopStart 2 s1 else startP1 s1

def execRailRetry (s : State) : Host.Outcome State Fault Refusal := run true (railRetry s)

/-! ### The phases (R402, Table POWER-5) -/

/-- P0 ends; main power that came meanwhile starts P1. -/
def endP0 (xtal : Bool) (s : State) : State :=
  let s1 := setFlag CLK_STAT_XTAL_OK xtal (updPwr (fun p => { p with p0 := true }) s)
  if s1.pwr.good then startP1 s1 else s1

/-- P1 ends with every rail up: the straps are sampled (R458), the PLL takes its reference (R391), the counters are written (R395) and the
watchdog counts from here (R384). -/
def endP1 (f : PhaseFacts) (s : State) : State :=
  let s1 := strapState f.inst f.ft f.node (setFld PWR_RAIL_RAIL_OK 1 s)
  let s2 := setFlag CLK_STAT_HCLK0_OK f.hclk0 (setFlag CLK_STAT_HCLK1_OK f.hclk1 (setFlag CLK_STAT_PLL_SRC (!f.hclk0) s1))
  let s3 := setFlag CLK_STAT_TIME_GAP (s2.pwr.gap || !isSet s2 CLK_STAT_XTAL_OK) (updPwr (fun p => { p with gap := false }) s2)
  wdogStart (counterWrite (setPhase 2 s3))

/-- P2 ends: CCLK is up, and a verified firmware slot runs (R423); without one start-up stops. -/
def endP2 (f : PhaseFacts) (s : State) : State :=
  let s1 := setFld CLK_STAT_PLL_LOCK 1 (setFld CLK_WAKE_LAST_NS (min f.wakeNs 65535) s)
  match fwBoot s1 with
  | some t => setPhase 3 t
  | none => stopStart 1 s1

/-- P3 ends: a SerDes group that failed holds its port or link down; a sensor that failed stops start-up. -/
def endP3 (f : PhaseFacts) (s : State) : State :=
  if f.sensors then setPhase 4 (updPwr (fun p => { p with dead := f.serdes }) s) else stopStart 1 s

/-- The lost-write list as the flash holds it (R163, R412). -/
def lostLoad (s : State) : State :=
  updStore (fun t => { t with lostw := (listRead magicLostW (cfgOff 0x200000) (cfgOff 0x250000) s).map (fun b =>
    { vol := leAt b 0 8 / 2 ^ 48 % 2 ^ 14, lba := leAt b 0 8 % 2 ^ 48, count := leAt b 8 4, opMin := leAt b 12 4 }) }) s

/-- The suspect list as the flash holds it (R125, R134). -/
def suspLoad (s : State) : State :=
  updStore (fun t => { t with suspects := ((listRead magicSusp (cfgOff 0x2A0000) (cfgOff 0x2C0000) s).filter (fun b => (leAt b 0 8).testBit 63)).map (fun b =>
    { plateId := 2 ^ 64 + leAt b 0 8 / 2 ^ 37 % 64, sn := leAt b 0 8 % 2 ^ 37, first := leAt b 8 1, last := leAt b 9 1, why := leAt b 0 8 / 2 ^ 43 % 8,
      opMin := leAt b 12 4 }) }) s

/-- The pages whose blocks firmware enables in P5, once the settings are restored; the DRAM channels follow in P6. -/
def bootPages : List Nat :=
  [5, 6, 7] ++ (List.range 4).map (0x28 + ·) ++ (List.range 8).map (0x30 + ·) ++ [0x38, 0x39] ++ (List.range 64).map (0x40 + ·) ++
  (List.range 64).map (0x80 + ·) ++ (List.range 8).map (0xC8 + ·) ++ [0xD0, 0xDF] ++ (List.range 16).map (0xE0 + ·) ++ [0x100, 0x101]

/-- P4 ends and P5 begins: settings, node ID, lists and descriptors are loaded, and the blocks enabled. SRAM that fails its check stops
start-up. -/
def endP4 (f : PhaseFacts) (s : State) : State :=
  if !f.sram then stopStart 1 s
  else
    let s1 := volLoad (suspLoad (lostLoad (showNode (settingsRestore (setPhase 5 s)))))
    bootPages.foldl (fun t p => enableSet p true t) ((List.range 64).foldl (fun t p => absorb p t) s1)

/-- P5 ends and P6 begins: the channels' delays are loaded, and they train (R306). The start-up authentication is made here, once the saved settings
hold (R188, R189; DESIGN CHOICE of the phase, notes/assumptions/142.md). -/
def endP5 (f : PhaseFacts) (s : State) : State :=
  let ids := [0, 1].map (fun n => getFld s (HEP_SUBSYS_SVID n) + 2 ^ 16 * getFld s (HEP_SUBSYS_SSID n))
  authStartup f.nonce (channels.foldl (fun t c => enableSet (0x20 + c) true (loadBoard c t)) (setPhase 6 (updHost (fun h => { h with ids := ids }) s)))

/-- P6 ends once no channel trains and each that passed has its first 1 GiB initialised, which the end of the phase says; the rest follows in
the background (R316). Without a channel that is ACTIVE start-up stops. -/
def endP6 (s : State) : State :=
  if channels.any (fun c => decide (dmcState s c = 1)) then s
  else
    let s1 := channels.foldl (fun t c => if dmcState t c = 2 then setFld (DMC_INIT_WM_MIB c) (max 1024 (getFld t (DMC_INIT_WM_MIB c))) (setDmc c 3 t) else t) s
    if channels.all (fun c => decide (dmcState s1 c ≠ 3)) then stopStart 1 s1
    else setPhase 7 (if channels.any (dmcDown s1) then writeThroughOn s1 else s1)

/-- A size of CCH_GEOM that is 0 at READY, or that the installed DRAM cannot hold, takes its automatic value (R135). -/
def geomAuto (s : State) : State :=
  let g := installedGib s
  let fits := geomFits g (getFld s CCH_GEOM_CACHE_GIB) (getFld s CCH_GEOM_PPOOL_GIB)
  let fix := fun (f : FRef) (t : State) => if getFld t f = 0 ∨ !fits then setFld f ((g - 16) / 3) t else t
  fix CCH_GEOM_PPOOL_GIB (fix CCH_GEOM_CACHE_GIB s)

/-- P7 ends with replay (Sequence CACHE-2): READY. -/
def endP7 (s : State) : State :=
  if !replayQuiet s then s
  else
    let s1 := setEvt 0 CHIP_EVT_READY (setFld CHIP_DEV_STAT_READY 1 (setPhase 8 (geomAuto (replayEnd s))))
    let s2 := vaultCheck s1
    let s3 := if unbackedNow s2 then (s2.store.plates.map Prod.fst).foldl (fun t p => joinPair p t) s2 else s2
    cyclesSync (purgeStart s3)

/-- STARTUP_PHASE_END (R402): the present phase ends where its work is done; a stopped or fenced device stays in its phase. -/
def phaseEnd (f : PhaseFacts) (s : State) : State :=
  if stopped s ∨ devFenced s ∨ getFld s PWR_STAT_STATE = 4 then s
  else match phase s with
    | 0 => if s.pwr.p0 then s else endP0 f.xtal s
    | 1 => if getFld s PWR_RAIL_SEQ = 7 then endP1 f s else s
    | 2 => if (if isSet s CLK_STAT_PLL_SRC then isSet s CLK_STAT_HCLK1_OK else isSet s CLK_STAT_HCLK0_OK) then endP2 f s else s
    | 3 => endP3 f s
    | 4 => endP4 f s
    | 5 => endP5 f s
    | 6 => endP6 s
    | 7 => endP7 s
    | _ => s

def execStartupPhaseEnd (f : PhaseFacts) (s : State) : Host.Outcome State Fault Refusal := run true (phaseEnd f s)

/-- STARTUP_PHASE_TIMEOUT (R404, Table POWER-5): P0 goes on without the crystal; P1 has RAIL_RETRY; P7 and P8 have no limit. -/
def phaseTimeout (s : State) : State :=
  if stopped s ∨ getFld s PWR_STAT_STATE = 4 then s
  else if phase s = 0 then (if s.pwr.p0 then s else endP0 false s)
  else if 2 ≤ phase s ∧ phase s ≤ 6 then stopStart 2 s
  else s

def execStartupPhaseTimeout (s : State) : Host.Outcome State Fault Refusal := run true (phaseTimeout s)

/-! ### Resets (Table POWER-4) -/

/-- COLD_RESET. -/
def execColdReset (s : State) : Host.Outcome State Fault Refusal := run true (deviceReset 0 s)

/-- SUPPLY_RESET (R396, R397): the second threshold of VDD, else of VDD_IO or RAIL_OK. No dump is made. -/
def execSupplyReset (io : Bool) (s : State) : Host.Outcome State Fault Refusal :=
  run true (if supervised s then deviceReset (if io then 2 else 1) s else s)

/-- A pin or software reset: the dump of R158 comes first where one is due; the request is dropped in BACKUP (R397) and while start-up waits for
main power. -/
def requestReset (code : Nat) (s : State) : State :=
  if getFld s PWR_STAT_STATE = 4 ∨ s.pwr.due.isSome then s
  else if s.cache.dumping then (if s.cache.dumpThen = 17 then updCache (fun c => { c with dumpThen := code }) s else s)
  else if dumpOk s then startDump 3 code s
  else deviceReset code s

/-- PIN_RESET. -/
def execPinReset (s : State) : Host.Outcome State Fault Refusal := run true (requestReset 3 s)

/-- SOFTWARE_RESET (R406): from the installer on. -/
def execSoftwareReset (w : Win) (s : State) : Host.Outcome State Fault Refusal :=
  run true (guardWrite w 1 (fun t => if mayInstall t w then requestReset 4 (needRole w t) else t) s)

/-! ### Supply and temperature (R396, Table POWER-2) -/

/-- A supply input is sampled: 0 VDD, 1 VDD_IO, 2 VIN_SENSE. -/
def showMv (input mv : Nat) (s : State) : State :=
  let put := fun (now low : FRef) => setFld low (min (getFld s low) (min mv 65535)) (setFld now (min mv 65535) s)
  if input = 0 then sketchExtreme 0xC011 mv (put PWR_VDD_MV PWR_VDD_MIN_MV) else if input = 1 then put PWR_VDDIO_MV PWR_VDDIO_MIN_MV
  else sketchExtreme 0xC012 mv (put PWR_VIN_MV PWR_VIN_MIN_MV)

/-- SUPPLY_WARNING: VDD or VDD_IO is below its first threshold. -/
def supplyWarn (io : Bool) (mv : Nat) (s : State) : State :=
  let flag := if io then PWR_STAT_VDDIO_WARN else PWR_STAT_VDD_WARN
  let s1 := showMv (if io then 1 else 0) mv s
  if (if io then 1710 else 855) ≤ mv ∨ isSet s flag then s1
  else pwrEvt (if io then PWR_EVT_VDDIO_WARN else PWR_EVT_VDD_WARN) (setFld flag 1 s1)

def execSupplyWarning (io : Bool) (mv : Nat) (s : State) : Host.Outcome State Fault Refusal := run true (onlyIf (supervised s) (supplyWarn io mv) s)

/-- SUPPLY_WARNING_CLEAR: the input is above its clear level. -/
def supplyClear (io : Bool) (mv : Nat) (s : State) : State :=
  let s1 := showMv (if io then 1 else 0) mv s
  if (if io then 1740 else 870) < mv then setFld (if io then PWR_STAT_VDDIO_WARN else PWR_STAT_VDD_WARN) 0 s1 else s1

def execSupplyWarningClear (io : Bool) (mv : Nat) (s : State) : Host.Outcome State Fault Refusal := run true (onlyIf (supervised s) (supplyClear io mv) s)

/-- The junction sensors act (R396): from the end of P3, while the main domain is powered. -/
def sensing (s : State) : Bool := supervised s && decide (4 ≤ phase s)

/-- The hottest junction sensor is shown, and kept as the measure 0xC010 (R396, R464). -/
def showTemp (t : Int) (s : State) : State := sketchExtreme 0xC010 t (setFld PWR_TEMP_DECI_C (twos t 16) s)

/-- TEMP_WARNING: the hottest sensor, in 0.1 °C; at or above WARN_C it raises TEMP_WARN and source 13, which 5 °C below withdraws. -/
def tempWarn (t : Int) (s : State) : State :=
  let s1 := showTemp t s
  let warn : Int := 10 * getFld s PWR_TEMP_THR_WARN_C
  if warn ≤ t then (if 13 ∈ s.icu.lines then s1 else lineEdge 13 true (pwrEvt PWR_EVT_TEMP_WARN s1))
  else if t < warn - 50 then lineEdge 13 false s1 else s1

def execTempWarning (t : Int) (s : State) : Host.Outcome State Fault Refusal := run true (onlyIf (sensing s) (tempWarn t) s)

/-- A device fence that does not come from a fault message; in BACKUP it is recorded only (R383, R397). -/
def supervisorFence (s : State) : State := if getFld s PWR_STAT_STATE = 4 then s else ltrSync (deviceFence 0) s

/-- TEMP_CRITICAL: at or above CRIT_C the device is fenced, and source 14 raised. -/
def tempCritical (t : Int) (s : State) : State :=
  let s1 := showTemp t s
  if (10 * getFld s PWR_TEMP_THR_CRIT_C : Int) ≤ t then supervisorFence (lineEdge 14 true s1) else lineEdge 14 false s1

def execTempCritical (t : Int) (s : State) : Host.Outcome State Fault Refusal := run true (onlyIf (sensing s) (tempCritical t) s)

/-- NIGHT is left: the state is ACTIVE, DRAM goes to run speed (Sequence DRAM-1), and pipes that sleep are woken. -/
def leaveNight (s : State) : State :=
  if getFld s PWR_STAT_STATE ≠ 2 then s
  else (List.range 8).foldl (fun t b => wakeBlock (0x30 + b) t) (freqStart (setPower 0 s))

/-- BRACE (R154, Table POWER-2): VIN_SENSE is below its first threshold. It ends a learning cycle (R181), and NIGHT at once (R397). -/
def execBrace (mv : Nat) (s : State) : Host.Outcome State Fault Refusal :=
  run true (onlyIf (vinWatched s) (fun t =>
    let t1 := showMv 2 mv t
    if isSet t PWR_STAT_BRACED ∨ 1100 ≤ mv then t1 else leaveNight (learnDq 5 (brace t1))) s)

/-- BRACE_END (R154, Table POWER-2). -/
def execBraceEnd (mv : Nat) (s : State) : Host.Outcome State Fault Refusal :=
  run true (onlyIf (vinWatched s) (fun t => if 1140 < mv then braceEnd (showMv 2 mv t) else showMv 2 mv t) s)

/-- BACKUP_ENTRY (R155, R156): from NIGHT, DRAM returns to run speed first, and STANDBY entry gives way (R397). Before P1 nothing is there to be
backed up. -/
def execBackupEntry (pf good : Bool) (s : State) : Host.Outcome State Fault Refusal :=
  run true (if getFld s PWR_STAT_STATE ≠ 3 ∧ s.pwr.due.isSome then s
    else backupEntry pf good (updPwr (fun p => { p with stby := 0, exit := false }) (if getFld s PWR_STAT_STATE = 2 then freqStart s else s)))

/-! ### Clocks (R391 to R394) -/

/-- HCLK_LOST: under common clock the port's link goes down; the PLL's own reference takes the device with it. -/
def hclkLost (n : Nat) (common : Bool) (s : State) : State :=
  let s1 := setFld (if n = 0 then CLK_STAT_HCLK0_OK else CLK_STAT_HCLK1_OK) 0 s
  let s2 := if common then hostDown n s1 else s1
  if getFld s CLK_STAT_PLL_SRC = n then supervisorFence (setEvt 2 CLK_EVT_HCLK_LOST s2) else s2

def execHclkLost (n : Nat) (common : Bool) (s : State) : Host.Outcome State Fault Refusal :=
  run (decide (n < 2)) (onlyIf (supervised s) (hclkLost n common) s)

/-- XTAL_STOP (R393): no edge for 1 ms while CCLK runs. -/
def execXtalStop (s : State) : Host.Outcome State Fault Refusal :=
  run true (onlyIf (cclkOn s && isSet s CLK_STAT_XTAL_OK) (fun t => lineEdge 12 true (setEvt 2 CLK_EVT_XTAL_STOP (setFld CLK_STAT_XTAL_OK 0 t))) s)

/-- XTAL_RESUME (R393): an edge is seen again. Where CCLK does not run, DEV_TIME has stood still. -/
def execXtalResume (s : State) : Host.Outcome State Fault Refusal :=
  run true (onlyIf (!isSet s CLK_STAT_XTAL_OK && s.pwr.p0) (fun t =>
    lineEdge 12 false (setFld CLK_STAT_XTAL_OK 1 (updPwr (fun p => { p with gap := p.gap || !cclkOn t }) t))) s)

/-- The compare value of an alarm. -/
def alarmAt (s : State) (n : Nat) : Nat :=
  if n = 0 then get64 s CLK_ALARM0_LO_NS CLK_ALARM0_HI_NS else get64 s CLK_ALARM1_LO_NS CLK_ALARM1_HI_NS

/-- ALARM_FIRE (R394): DEV_TIME is at or past the compare value of an enabled alarm. -/
def execAlarmFire (n : Nat) (s : State) : Host.Outcome State Fault Refusal :=
  run (decide (n < 2)) (onlyIf (isSet s (if n = 0 then CLK_ALARM_CTL_EN0 else CLK_ALARM_CTL_EN1) && decide (alarmAt s n ≤ devTime s))
    (setFld (if n = 0 then CLK_ALARM_CTL_FIRED0 else CLK_ALARM_CTL_FIRED1) 1) s)

/-- OP_MINUTE_TICK (R395): minutes count in ACTIVE, IDLE, NIGHT and BACKUP, from P1 on. -/
def opTick (s : State) : State :=
  if s.pwr.due.isSome ∨ getFld s PWR_STAT_STATE = 3 ∨ getFld s PWR_STAT_STATE = 5 then s
  else
    let s1 := incFld CHIP_OP_MINUTES_COUNT 1 s
    if 60 ≤ (opMin s1 + 2 ^ 32 - s.pwr.counted) % 2 ^ 32 then counterWrite s1 else s1

def execOpMinuteTick (s : State) : Host.Outcome State Fault Refusal := run true (opTick s)

/-! ### Power states (R398 to R400) -/

/-- No Burin pipe, drive port, Graver channel or host link has work. -/
def noWork (s : State) : Bool :=
  decide (s.io.jobs = []) && decide (s.io.nvme = []) && s.mover.run.isNone && (List.range 16).all (fun c => decide (chState s c = 0)) &&
  s.io.hreads.all (fun q => !q.2.sent || q.2.late)

/-- IDLE_ENTRY (Table POWER-3). -/
def execIdleEntry (s : State) : Host.Outcome State Fault Refusal :=
  run true (onlyIf (decide (getFld s PWR_STAT_STATE = 0 ∧ phase s = 8) && !s.cache.dumping && noWork s) (setPower 1) s)

/-- NIGHT may be entered (R399): READY, not braced, no takeover running, and what the mode asks for. `quiet` says that the host ports have moved
little enough in each of NIGHT_S windows. -/
def nightMay (s : State) (quiet : Bool) : Bool :=
  decide (getFld s PWR_STAT_STATE ≤ 1) && devReady s && !isSet s PWR_STAT_BRACED && s.link.held.all (fun q => decide (q.2.taking = 0)) &&
  ((decide (getFld s PWR_CFG_NIGHT_MODE = 1) && isSet s PWR_CTL_NIGHT_REQ) || (decide (getFld s PWR_CFG_NIGHT_MODE = 2) && quiet))

/-- NIGHT_ENTRY: DRAM goes to its night speed, and idle pipes sleep. -/
def execNightEntry (quiet : Bool) (s : State) : Host.Outcome State Fault Refusal :=
  run true (onlyIf (nightMay s quiet) (fun t => pipesSleep (freqStart (setPower 2 t))) s)

/-- NIGHT_EXIT: NIGHT_REQ is 0 in mode 1; `busy` says that the ports have moved much in mode 2; mode 0 keeps no NIGHT. -/
def execNightExit (busy : Bool) (s : State) : Host.Outcome State Fault Refusal :=
  let m := getFld s PWR_CFG_NIGHT_MODE
  run true (onlyIf (decide (m = 0) || (decide (m = 1) && !isSet s PWR_CTL_NIGHT_REQ) || (decide (m = 2) && busy) || isSet s PWR_STAT_BRACED) leaveNight s)

/-- NIGHT_REQ_WRITE. -/
def execNightReqWrite (w : Win) (v : Nat) (s : State) : Host.Outcome State Fault Refusal :=
  run true (guardWrite w 1 (fun t => seqIf 1 t (setFld PWR_CTL_NIGHT_REQ (v % 2) t)) s)

/-- PWR_CLR_MIN. -/
def execPwrClrMin (w : Win) (v : Nat) (s : State) : Host.Outcome State Fault Refusal :=
  run true (guardWrite w 1 (fun t => if v % 2 = 1 then setFld PWR_VDD_MIN_MV 0xFFFF (setFld PWR_VDDIO_MIN_MV 0xFFFF (setFld PWR_VIN_MIN_MV 0xFFFF t)) else t) s)

/-! ### STANDBY (R400, Sequence POWER-1) -/

/-- The conditions of R400. -/
def standbyMay (s : State) : Bool :=
  isSet s PWR_CFG_STBY_EN && devReady s && decide (getFld s PWR_STAT_STATE ≤ 2) && decide (s.host.up = []) && !plateBlocks s && !isSet s PWR_STAT_BRACED

/-- A step of Sequence POWER-1 becomes the running one; the passes follow. -/
def setStby (n : Nat) (s : State) : State := cyclesSync (updPwr (fun p => { p with stby := n }) s)

/-- Step 2: the passes' progress records. -/
def standbyRecords (s : State) : State :=
  (s.store.plates.map Prod.fst).foldl (fun t p =>
    let t1 := progressRecord p true t
    if ((plateOf t1 p).map (fun x => x.cycle.running)).getD false then proofRecord p t1 else t1) s

/-- Step 3: chunk 0 of the last image is written with REPLAYED where it is not set. -/
def standbyImage (s : State) : State :=
  match s.cache.image with
  | some im =>
    if im.flags % 2 = 1 then s
    else
      let im2 : Image := { im with flags := im.flags + 1 }
      chunkWrite im2 0 (updCache (fun c => { c with image := some im2 }) s)
  | none => s

/-- Step 4: every READY drive is shut down. -/
def standbyDrives (s : State) : State :=
  (List.range 64).foldl (fun t p => if portState t p = 4 then quiesce p t else t) s

/-- The sequence goes on as far as what its present step waits for is done. -/
def standbyStep (s : State) : State :=
  let n := s.pwr.stby
  if n = 0 then (if standbyMay s then setStby 1 s else s)
  else if n < 4 ∧ !standbyMay s then setStby 0 s
  else if n = 1 then (if dirtyLatch s then s else setStby 2 s)
  else if n = 2 then (if s.io.sops = [] ∧ s.io.nvme = [] then setStby 3 (standbyImage (standbyRecords s)) else s)
  else if n = 3 then (if s.io.nvme = [] then standbyDrives (setStby 4 s) else s)
  else if (List.range 64).any (fun p => decide (portState s p = 4 ∨ portState s p = 5)) then s
  else
    let go := s.pwr.exit
    let s1 := mainOff 3 (setFld PWR_RAIL_SEQ 0 (flushHeld s))
    if go then startP1 (setFld PWR_STAT_LAST_RESET 6 s1) else s1

/-- STANDBY_ENTRY: presented again, it carries the sequence on. -/
def execStandbyEntry (s : State) : Host.Outcome State Fault Refusal := run true (standbyStep s)

/-- What leaves STANDBY, abandons its entry before step 4, or waits for its end (R400). -/
def wake (s : State) : State :=
  if getFld s PWR_STAT_STATE = 3 then startP1 (setFld PWR_STAT_LAST_RESET 6 s)
  else if s.pwr.stby = 0 then s
  else if s.pwr.stby < 4 then setStby 0 s
  else updPwr (fun p => { p with exit := true }) s

/-- A latched source of the always-on domain requests a wake (R366). -/
def wakeDue (s : State) : Bool := (List.range 31).any (fun i => latched s (i + 1) && isSet s (ICU_SRC_CFG_AON_WAKE (i + 1)))

/-- STANDBY_EXIT by a wake source; PERST_DEASSERT is the other way out. -/
def execStandbyExit (s : State) : Host.Outcome State Fault Refusal := run true (onlyIf (wakeDue s) wake s)

/-- PERST_DEASSERT (R403, R398). -/
def execPerstDeassert (port : Nat) (s : State) : Host.Outcome State Fault Refusal :=
  run (decide (port < 2)) (onlyIf (decide (port ∈ s.host.perst))
    (fun t => wake (updHost (fun h => { h with perst := h.perst.filter (· ≠ port), crs := if port ∈ h.crs then h.crs else h.crs ++ [port] }) t)) s)

end Sys2Proof.Machine
end

