-- ==== Sys2Proof/Machine/Dispatch.lean ====
section
/-! DEFINITION. The meaning of each command: one arm for each row of the operation table. -/

namespace Sys2Proof.Machine

/-- What a command does to everything but the queue. -/
def exec (i : Instr) (s : State) : Host.Outcome State Fault Refusal :=
  match i with
  | .sqTailDoorbell w c size v => Sys2Proof.Machine.execSqTailDoorbell w c size v s
  | .cqHeadDoorbell w c size v => Sys2Proof.Machine.execCqHeadDoorbell w c size v s
  | .submissionFetch c => Sys2Proof.Machine.execSubmissionFetch c s
  | .submissionEntryReceived port tag r => Sys2Proof.Machine.execSubmissionEntryReceived port tag r s
  | .read cmd => Sys2Proof.Machine.execRead cmd s
  | .write cmd => Sys2Proof.Machine.execWrite cmd s
  | .flush cmd => Sys2Proof.Machine.execFlush cmd s
  | .writeZeroes cmd => Sys2Proof.Machine.execWriteZeroes cmd s
  | .deallocate cmd => Sys2Proof.Machine.execDeallocate cmd s
  | .compare cmd => Sys2Proof.Machine.execCompare cmd s
  | .verify cmd => Sys2Proof.Machine.execVerify cmd s
  | .fill cmd => Sys2Proof.Machine.execFill cmd s
  | .copy cmd => Sys2Proof.Machine.execCopy cmd s
  | .volumeInfo cmd => Sys2Proof.Machine.execVolumeInfo cmd s
  | .createVolume cmd => Sys2Proof.Machine.execCreateVolume cmd s
  | .deleteVolume cmd => Sys2Proof.Machine.execDeleteVolume cmd s
  | .resizeVolume cmd => Sys2Proof.Machine.execResizeVolume cmd s
  | .attach cmd => Sys2Proof.Machine.execAttach cmd s
  | .detach cmd => Sys2Proof.Machine.execDetach cmd s
  | .createPlate cmd page facts => Sys2Proof.Machine.execCreatePlate cmd page facts s
  | .deletePlate cmd => Sys2Proof.Machine.execDeletePlate cmd s
  | .blockCmd cmd media ok1 ok2 rate nonce => Sys2Proof.Machine.execBlockCmd cmd media ok1 ok2 rate nonce s
  | .getLostWrites cmd => Sys2Proof.Machine.execGetLostWrites cmd s
  | .resync cmd => Sys2Proof.Machine.execResync cmd s
  | .chipResync w v => Sys2Proof.Machine.execChipResync w v s
  | .snapshotPublish => Sys2Proof.Machine.execSnapshotPublish s
  | .tenantInfo cmd => Sys2Proof.Machine.execTenantInfo cmd s
  | .setSched cmd => Sys2Proof.Machine.execSetSched cmd s
  | .setClass cmd => Sys2Proof.Machine.execSetClass cmd s
  | .timeAdj cmd => Sys2Proof.Machine.execTimeAdj cmd s
  | .roleChallenge cmd nonce => Sys2Proof.Machine.execRoleChallenge cmd nonce s
  | .roleResponse cmd page => Sys2Proof.Machine.execRoleResponse cmd page s
  | .roleDrop cmd => Sys2Proof.Machine.execRoleDrop cmd s
  | .firmwareStage cmd page => Sys2Proof.Machine.execFirmwareStage cmd page s
  | .firmwareCommit cmd => Sys2Proof.Machine.execFirmwareCommit cmd s
  | .admissionDecision ue => Sys2Proof.Machine.execAdmissionDecision ue s
  | .grantQueuedSegment => Sys2Proof.Machine.execGrantQueuedSegment s
  | .hostReadCompletion port tag r => Sys2Proof.Machine.execHostReadCompletion port tag r s
  | .dataStaged j => Sys2Proof.Machine.execDataStaged j s
  | .groupCommitPoint j => Sys2Proof.Machine.execGroupCommitPoint j s
  | .burinJobEnd sop id => Sys2Proof.Machine.execBurinJobEnd sop id s
  | .burinBeatMismatch b again => Sys2Proof.Machine.execBurinBeatMismatch b again s
  | .burinPipeAwake b => Sys2Proof.Machine.execBurinPipeAwake b s
  | .katStart w b => Sys2Proof.Machine.execKatStart w b s
  | .katDone b lanes => Sys2Proof.Machine.execKatDone b lanes s
  | .memberWriteComplete id st => Sys2Proof.Machine.execMemberWriteComplete id st s
  | .tagPageReadComplete id st tags => Sys2Proof.Machine.execTagPageReadComplete id st tags s
  | .tagWriteComplete id st => Sys2Proof.Machine.execTagWriteComplete id st s
  | .committed j => Sys2Proof.Machine.execCommitted j s
  | .journalEntryFreed j => Sys2Proof.Machine.execJournalEntryFreed j s
  | .writeSeqLabelRewrite p => Sys2Proof.Machine.execWriteSeqLabelRewrite p s
  | .labelUpdateComplete p => Sys2Proof.Machine.execLabelUpdateComplete p s
  | .journalHeaderWriteDone p => Sys2Proof.Machine.execJournalHeaderWriteDone p s
  | .atomicLogWriteDone j => Sys2Proof.Machine.execAtomicLogWriteDone j s
  | .journalRecordWriteDone p blk => Sys2Proof.Machine.execJournalRecordWriteDone p blk s
  | .remirrorCopyDone p => Sys2Proof.Machine.execRemirrorCopyDone p s
  | .admProbe w v => Sys2Proof.Machine.execAdmProbe w v s
  | .admClrHwm w v => Sys2Proof.Machine.execAdmClrHwm w v s
  | .jnlClrHwm w v => Sys2Proof.Machine.execJnlClrHwm w v s
  | .memberReadComplete id st blks => Sys2Proof.Machine.execMemberReadComplete id st blks s
  | .lbtWriteDone sop => Sys2Proof.Machine.execLbtWriteDone sop s
  | .lbtRemovalWrite p => Sys2Proof.Machine.execLbtRemovalWrite p s
  | .failMember w p slot => Sys2Proof.Machine.execFailMember w p slot s
  | .replace w p slot => Sys2Proof.Machine.execReplace w p slot s
  | .startPass w p => Sys2Proof.Machine.execStartPass w p s
  | .pausePass w p => Sys2Proof.Machine.execPausePass w p s
  | .importPlate w p m => Sys2Proof.Machine.execImportPlate w p m s
  | .recover w p => Sys2Proof.Machine.execRecover w p s
  | .release w p => Sys2Proof.Machine.execRelease w p s
  | .rbdPauseAll w v => Sys2Proof.Machine.execRbdPauseAll w v s
  | .passStart p => Sys2Proof.Machine.execPassStart p s
  | .rebuildStepStart p => Sys2Proof.Machine.execRebuildStepStart p s
  | .rebuildStepDone sop => Sys2Proof.Machine.execRebuildStepDone sop s
  | .progressRecord p ok => Sys2Proof.Machine.execProgressRecord p ok s
  | .rebuildSliceEnd p lenUs => Sys2Proof.Machine.execRebuildSliceEnd p lenUs s
  | .assembly found media vault => Sys2Proof.Machine.execAssembly found media vault s
  | .proofCycleStart p => Sys2Proof.Machine.execProofCycleStart p s
  | .proofUnitStart p => Sys2Proof.Machine.execProofUnitStart p s
  | .proofUnitDone sop => Sys2Proof.Machine.execProofUnitDone sop s
  | .suspectListWrite => Sys2Proof.Machine.execSuspectListWrite s
  | .proofProgressRecord p => Sys2Proof.Machine.execProofProgressRecord p s
  | .proofSliceEnd p lenUs => Sys2Proof.Machine.execProofSliceEnd p lenUs s
  | .proofDeadlinePassed p => Sys2Proof.Machine.execProofDeadlinePassed p s
  | .startCycle w p => Sys2Proof.Machine.execStartCycle w p s
  | .proofPause w p => Sys2Proof.Machine.execProofPause w p s
  | .proofResume w p => Sys2Proof.Machine.execProofResume w p s
  | .clearSuspect w => Sys2Proof.Machine.execClearSuspect w s
  | .prfPauseAll w v => Sys2Proof.Machine.execPrfPauseAll w v s
  | .destageStart => Sys2Proof.Machine.execDestageStart s
  | .pmirTimeout m => Sys2Proof.Machine.execPmirTimeout m s
  | .pmirResume node => Sys2Proof.Machine.execPmirResume node s
  | .dirtyCeilRecompute => Sys2Proof.Machine.execDirtyCeilRecompute s
  | .backedModeReturn => Sys2Proof.Machine.execBackedModeReturn s
  | .writeThroughEnd => Sys2Proof.Machine.execWriteThroughEnd s
  | .check w ok1 ok2 rate => Sys2Proof.Machine.execCheck w ok1 ok2 rate s
  | .brace mv => Sys2Proof.Machine.execBrace mv s
  | .braceEnd mv => Sys2Proof.Machine.execBraceEnd mv s
  | .backupEntry pf good => Sys2Proof.Machine.execBackupEntry pf good s
  | .vaultChunkDone id good => Sys2Proof.Machine.execVaultChunkDone id good s
  | .replayAsmWaitExpiry => Sys2Proof.Machine.execReplayAsmWaitExpiry s
  | .lostWriteListWrite => Sys2Proof.Machine.execLostWriteListWrite s
  | .cacheFlush w => Sys2Proof.Machine.execCacheFlush w s
  | .clearLost w vol => Sys2Proof.Machine.execClearLost w vol s
  | .bemSample us cur v t => Sys2Proof.Machine.execBemSample us cur v t s
  | .bemHibernateWake us cur v t => Sys2Proof.Machine.execBemHibernateWake us cur v t s
  | .restReading => Sys2Proof.Machine.execRestReading s
  | .bemDayBoundary => Sys2Proof.Machine.execBemDayBoundary s
  | .restWindowTimeout => Sys2Proof.Machine.execRestWindowTimeout s
  | .learnCycleStart => Sys2Proof.Machine.execLearnCycleStart s
  | .rintMeasure => Sys2Proof.Machine.execRintMeasure s
  | .estimatorStoreWrite ok => Sys2Proof.Machine.execEstimatorStoreWrite ok s
  | .batPresChange present => Sys2Proof.Machine.execBatPresChange present s
  | .packInserted ident nonce => Sys2Proof.Machine.execPackInserted ident nonce s
  | .authResponseRead resp => Sys2Proof.Machine.execAuthResponseRead resp s
  | .authRetry ident nonce => Sys2Proof.Machine.execAuthRetry ident nonce s
  | .authPeriodic nonce => Sys2Proof.Machine.execAuthPeriodic nonce s
  | .learn w => Sys2Proof.Machine.execLearn w s
  | .abortLearn w => Sys2Proof.Machine.execAbortLearn w s
  | .auth w nonce => Sys2Proof.Machine.execAuth w nonce s
  | .forget w => Sys2Proof.Machine.execForget w s
  | .ctxBindWrite w c v => Sys2Proof.Machine.execCtxBindWrite w c v s
  | .runSet w c => Sys2Proof.Machine.execRunSet w c s
  | .runClear w c => Sys2Proof.Machine.execRunClear w c s
  | .errClear w c => Sys2Proof.Machine.execErrClear w c s
  | .retire w c => Sys2Proof.Machine.execRetire w c s
  | .irqAggTimer c => Sys2Proof.Machine.execIrqAggTimer c s
  | .roundEnd late => Sys2Proof.Machine.execRoundEnd late s
  | .slotSecondsTick => Sys2Proof.Machine.execSlotSecondsTick s
  | .epochEnd => Sys2Proof.Machine.execEpochEnd s
  | .meteringRecordsWrite => Sys2Proof.Machine.execMeteringRecordsWrite s
  | .mtrStep w => Sys2Proof.Machine.execMtrStep w s
  | .mtrSlew w => Sys2Proof.Machine.execMtrSlew w s
  | .slewDone => Sys2Proof.Machine.execSlewDone s
  | .mtrEnable w v => Sys2Proof.Machine.execMtrEnable w v s
  | .mtrHeadWrite w v => Sys2Proof.Machine.execMtrHeadWrite w v s
  | .tscClrMax w v => Sys2Proof.Machine.execTscClrMax w v s
  | .hostLinkUp port speed width reversed => Sys2Proof.Machine.execHostLinkUp port speed width reversed s
  | .hostLinkDown port => Sys2Proof.Machine.execHostLinkDown port s
  | .perstAssert port => Sys2Proof.Machine.execPerstAssert port s
  | .perstDeassert port => Sys2Proof.Machine.execPerstDeassert port s
  | .hotReset port => Sys2Proof.Machine.execHotReset port s
  | .functionLevelReset port func => Sys2Proof.Machine.execFunctionLevelReset port func s
  | .flrEnd port func => Sys2Proof.Machine.execFlrEnd port func s
  | .busMasterEnableClear port func => Sys2Proof.Machine.execBusMasterEnableClear port func s
  | .busMasterEnableSet port func cfg => Sys2Proof.Machine.execBusMasterEnableSet port func cfg s
  | .vfEnableSet port numVfs ari => Sys2Proof.Machine.execVfEnableSet port numVfs ari s
  | .vfEnableClear port => Sys2Proof.Machine.execVfEnableClear port s
  | .d3hotEntry port => Sys2Proof.Machine.execD3hotEntry port s
  | .d0Return port => Sys2Proof.Machine.execD0Return port s
  | .pmeTurnOff port => Sys2Proof.Machine.execPmeTurnOff port s
  | .hostL1Entry port l12 => Sys2Proof.Machine.execHostL1Entry port l12 s
  | .msixUnmask port func entry => Sys2Proof.Machine.execMsixUnmask port func entry s
  | .completionTimeout tag => Sys2Proof.Machine.execCompletionTimeout tag s
  | .slotPresenceDetected p => Sys2Proof.Machine.execSlotPresenceDetected p s
  | .pwrGoodTimeout p => Sys2Proof.Machine.execPwrGoodTimeout p s
  | .perstReleaseTimer p => Sys2Proof.Machine.execPerstReleaseTimer p s
  | .driveLinkUp p speed width => Sys2Proof.Machine.execDriveLinkUp p speed width s
  | .driveLinkTimeout p => Sys2Proof.Machine.execDriveLinkTimeout p s
  | .nvmeBringUpDone p id found media => Sys2Proof.Machine.execNvmeBringUpDone p id found media s
  | .attentionButton p => Sys2Proof.Machine.execAttentionButton p s
  | .attentionWindowEnd p => Sys2Proof.Machine.execAttentionWindowEnd p s
  | .presenceLost p => Sys2Proof.Machine.execPresenceLost p s
  | .powerFault p => Sys2Proof.Machine.execPowerFault p s
  | .driveLinkDown p => Sys2Proof.Machine.execDriveLinkDown p s
  | .nvmeCommandTimeout p => Sys2Proof.Machine.execNvmeCommandTimeout p s
  | .controllerResetDone p => Sys2Proof.Machine.execControllerResetDone p s
  | .smartPoll p warn tempK changed => Sys2Proof.Machine.execSmartPoll p warn tempK changed s
  | .ssbFrame chain ins => Sys2Proof.Machine.execSsbFrame chain ins s
  | .indicatorBlinkToggle => Sys2Proof.Machine.execIndicatorBlinkToggle s
  | .powerOff w p => Sys2Proof.Machine.execPowerOff w p s
  | .powerOn w p => Sys2Proof.Machine.execPowerOn w p s
  | .rescan w p id found => Sys2Proof.Machine.execRescan w p id found s
  | .driveL1Entry p => Sys2Proof.Machine.execDriveL1Entry p s
  | .dramTrainingDone c d lanes => Sys2Proof.Machine.execDramTrainingDone c d lanes s
  | .dramInitDone c => Sys2Proof.Machine.execDramInitDone c s
  | .scrubRead c errs => Sys2Proof.Machine.execScrubRead c errs s
  | .dramCorrectedBurst c addr devs lo hi => Sys2Proof.Machine.execDramCorrectedBurst c addr devs lo hi s
  | .dramUncorrectedBurst c addr devs lo hi => Sys2Proof.Machine.execDramUncorrectedBurst c addr devs lo hi s
  | .freqChangeDone => Sys2Proof.Machine.execFreqChangeDone s
  | .dramRefresh c waiting => Sys2Proof.Machine.execDramRefresh c waiting s
  | .requestUrgent c port => Sys2Proof.Machine.execRequestUrgent c port s
  | .rowIdleClose c sub rank group bank => Sys2Proof.Machine.execRowIdleClose c sub rank group bank s
  | .diagRead w c hi data devs syms => Sys2Proof.Machine.execDiagRead w c hi data devs syms s
  | .dramRelease w c => Sys2Proof.Machine.execDramRelease w c s
  | .tlkTrainingDone x speed width rev node link => Sys2Proof.Machine.execTlkTrainingDone x speed width rev node link s
  | .retrainTimeout x => Sys2Proof.Machine.execRetrainTimeout x s
  | .flitReceived x raw => Sys2Proof.Machine.execFlitReceived x raw s
  | .nakReceived x seq => Sys2Proof.Machine.execNakReceived x seq s
  | .replayTimer x => Sys2Proof.Machine.execReplayTimer x s
  | .ackTimer x => Sys2Proof.Machine.execAckTimer x s
  | .messageForward x k m => Sys2Proof.Machine.execMessageForward x k m s
  | .leaseRenewTimer => Sys2Proof.Machine.execLeaseRenewTimer s
  | .renew m => Sys2Proof.Machine.execRenew m s
  | .renewAck m => Sys2Proof.Machine.execRenewAck m s
  | .leaseExpired owner => Sys2Proof.Machine.execLeaseExpired owner s
  | .leaseDrop node => Sys2Proof.Machine.execLeaseDrop node s
  | .reservationReportComplete p holder => Sys2Proof.Machine.execReservationReportComplete p holder s
  | .preemptComplete id md => Sys2Proof.Machine.execPreemptComplete id md s
  | .preemptTimeout id => Sys2Proof.Machine.execPreemptTimeout id s
  | .takeoverDone id => Sys2Proof.Machine.execTakeoverDone id s
  | .journalEntryMessage m => Sys2Proof.Machine.execJournalEntryMessage m s
  | .fenceNotice m => Sys2Proof.Machine.execFenceNotice m s
  | .progress m => Sys2Proof.Machine.execProgress m s
  | .proof m => Sys2Proof.Machine.execProof m s
  | .suspect m => Sys2Proof.Machine.execSuspect m s
  | .attachOffer m reach resvOk found media => Sys2Proof.Machine.execAttachOffer m reach resvOk found media s
  | .attachAccept m pool => Sys2Proof.Machine.execAttachAccept m pool s
  | .attachRefuse m => Sys2Proof.Machine.execAttachRefuse m s
  | .claim m => Sys2Proof.Machine.execClaim m s
  | .memberIoRead m => Sys2Proof.Machine.execMemberIoRead m s
  | .memberIoWrite m => Sys2Proof.Machine.execMemberIoWrite m s
  | .memberIoCompletion m tag => Sys2Proof.Machine.execMemberIoCompletion m tag s
  | .memberIoTimeout id => Sys2Proof.Machine.execMemberIoTimeout id s
  | .remoteRouteTimeout node => Sys2Proof.Machine.execRemoteRouteTimeout node s
  | .mirrorWrite m => Sys2Proof.Machine.execMirrorWrite m s
  | .mirrorAck m => Sys2Proof.Machine.execMirrorAck m s
  | .mirrorRelease m => Sys2Proof.Machine.execMirrorRelease m s
  | .mirrorLost m => Sys2Proof.Machine.execMirrorLost m s
  | .timeSyncTimer followers => Sys2Proof.Machine.execTimeSyncTimer followers s
  | .sync m => Sys2Proof.Machine.execSync m s
  | .latencyPingTimer x => Sys2Proof.Machine.execLatencyPingTimer x s
  | .ping x m => Sys2Proof.Machine.execPing x m s
  | .pong x m => Sys2Proof.Machine.execPong x m s
  | .trtAttach w p node => Sys2Proof.Machine.execTrtAttach w p node s
  | .trtDetach w p => Sys2Proof.Machine.execTrtDetach w p s
  | .tlkL1Entry x => Sys2Proof.Machine.execTlkL1Entry x s
  | .graverGo w c chain => Sys2Proof.Machine.execGraverGo w c chain s
  | .graverStop w c => Sys2Proof.Machine.execGraverStop w c s
  | .descriptorFetch c ue => Sys2Proof.Machine.execDescriptorFetch c ue s
  | .graverBurst h1 h2 ue => Sys2Proof.Machine.execGraverBurst h1 h2 ue s
  | .graverRequestPulse src => Sys2Proof.Machine.execGraverRequestPulse src s
  | .graverUnitEnd => Sys2Proof.Machine.execGraverUnitEnd s
  | .graverHoldTimeout => Sys2Proof.Machine.execGraverHoldTimeout s
  | .interruptSourceEdge src level => Sys2Proof.Machine.execInterruptSourceEdge src level s
  | .interruptClaim n gone => Sys2Proof.Machine.execInterruptClaim n gone s
  | .eoi w n src => Sys2Proof.Machine.execEoi w n src s
  | .softwareInterrupt w v => Sys2Proof.Machine.execSoftwareInterrupt w v s
  | .icuPendClear w v => Sys2Proof.Machine.execIcuPendClear w v s
  | .moderationExpiry src => Sys2Proof.Machine.execModerationExpiry src s
  | .fallbackTimeout src => Sys2Proof.Machine.execFallbackTimeout src s
  | .faultMessage => Sys2Proof.Machine.execFaultMessage s
  | .fenceReq w p => Sys2Proof.Machine.execFenceReq w p s
  | .faultInject w => Sys2Proof.Machine.execFaultInject w s
  | .pgEvtSet w p v => Sys2Proof.Machine.execPgEvtSet w p v s
  | .faultRearm w => Sys2Proof.Machine.execFaultRearm w s
  | .unfence w p found media => Sys2Proof.Machine.execUnfence w p found media s
  | .watchdogKick w => Sys2Proof.Machine.execWatchdogKick w s
  | .watchdogTimeout => Sys2Proof.Machine.execWatchdogTimeout s
  | .mainPowerGood => Sys2Proof.Machine.execMainPowerGood s
  | .railSequenceStep => Sys2Proof.Machine.execRailSequenceStep s
  | .railRetry => Sys2Proof.Machine.execRailRetry s
  | .startupPhaseEnd f => Sys2Proof.Machine.execStartupPhaseEnd f s
  | .startupPhaseTimeout => Sys2Proof.Machine.execStartupPhaseTimeout s
  | .coldReset => Sys2Proof.Machine.execColdReset s
  | .supplyReset io => Sys2Proof.Machine.execSupplyReset io s
  | .pinReset => Sys2Proof.Machine.execPinReset s
  | .softwareReset w => Sys2Proof.Machine.execSoftwareReset w s
  | .supplyWarning io mv => Sys2Proof.Machine.execSupplyWarning io mv s
  | .supplyWarningClear io mv => Sys2Proof.Machine.execSupplyWarningClear io mv s
  | .tempWarning t => Sys2Proof.Machine.execTempWarning t s
  | .tempCritical t => Sys2Proof.Machine.execTempCritical t s
  | .hclkLost n common => Sys2Proof.Machine.execHclkLost n common s
  | .xtalStop => Sys2Proof.Machine.execXtalStop s
  | .xtalResume => Sys2Proof.Machine.execXtalResume s
  | .alarmFire n => Sys2Proof.Machine.execAlarmFire n s
  | .opMinuteTick => Sys2Proof.Machine.execOpMinuteTick s
  | .idleEntry => Sys2Proof.Machine.execIdleEntry s
  | .nightEntry quiet => Sys2Proof.Machine.execNightEntry quiet s
  | .nightExit busy => Sys2Proof.Machine.execNightExit busy s
  | .nightReqWrite w v => Sys2Proof.Machine.execNightReqWrite w v s
  | .standbyEntry => Sys2Proof.Machine.execStandbyEntry s
  | .standbyExit => Sys2Proof.Machine.execStandbyExit s
  | .pwrClrMin w v => Sys2Proof.Machine.execPwrClrMin w v s
  | .sessionIdleTimeout port => Sys2Proof.Machine.execSessionIdleTimeout port s
  | .nonceLapse port => Sys2Proof.Machine.execNonceLapse port s
  | .lockoutEnd port => Sys2Proof.Machine.execLockoutEnd port s
  | .keyProgram w key ok => Sys2Proof.Machine.execKeyProgram w key ok s
  | .sketchbookWindowEnd code => Sys2Proof.Machine.execSketchbookWindowEnd code s
  | .sketchbookToken => Sys2Proof.Machine.execSketchbookToken s
  | .sketchbookRecordWrite ok => Sys2Proof.Machine.execSketchbookRecordWrite ok s
  | .sketchbookSnapshotTimer => Sys2Proof.Machine.execSketchbookSnapshotTimer s
  | .snapshot w => Sys2Proof.Machine.execSnapshot w s
  | .eraseAll w => Sys2Proof.Machine.execEraseAll w s
  | .pgEnableWrite w p v => Sys2Proof.Machine.execPgEnableWrite w p v s
  | .blockReset w p => Sys2Proof.Machine.execBlockReset w p s
  | .clkReq w p v => Sys2Proof.Machine.execClkReq w p v s
  | .registerWrite w p off len v poisoned vr => Sys2Proof.Machine.execRegisterWrite w p off len v poisoned vr s
  | .registerRead w p off len => Sys2Proof.Machine.execRegisterRead w p off len s
  | .settingsRecordWrite => Sys2Proof.Machine.execSettingsRecordWrite s
  | .configRetryEnd port => Sys2Proof.Machine.execConfigRetryEnd port s
  | .linkLayerError port func e => Sys2Proof.Machine.execLinkLayerError port func e s
  | .waitForInterrupt n => Sys2Proof.Machine.execWaitForInterrupt n s
  | .shutdownComplete p => Sys2Proof.Machine.execShutdownComplete p s
  | .controllerFatalStatus p => Sys2Proof.Machine.execControllerFatalStatus p s

end Sys2Proof.Machine
end

