-- ==== Sys2Proof/Machine/Package.lean ====
section
/-! DEFINITION. The package (chapter 20): how balls are named (R452), which ball carries which signal (R453 to R456), and the levels that the
device's output pins hold (R456, R457). -/

namespace Sys2Proof.Machine
open Reg

/-- A ball by its row and column, 1 to 61 from the A1 corner. -/
structure Ball where
  row : Nat
  col : Nat
  deriving DecidableEq, Repr

def rowLetters : List Char := ['A', 'B', 'C', 'D', 'E', 'F', 'G', 'H', 'J', 'K', 'L', 'M', 'N', 'P', 'T', 'U', 'V', 'W', 'Y']

/-- The letters of a row (R452). -/
def rowName (r : Nat) : List Char :=
  let nth := fun (k : Nat) => (rowLetters[k - 1]?).toList
  if r ≤ 19 then nth r
  else if r ≤ 38 then 'A' :: nth (r - 19)
  else if r ≤ 57 then 'B' :: nth (r - 38)
  else 'C' :: nth (r - 57)

/-- A ball's name: its row letters and its column number. -/
def Ball.name (b : Ball) : List Char × Nat := (rowName b.row, b.col)

/-! ### SerDes lanes (R453) -/

/-- The lane index L of Table PKG-2. -/
def driveLaneIx (d : Nat) : Nat := d
def hostLaneIx (n l : Nat) : Nat := 128 + 16 * n + l
def linkLaneIx (t : Nat) : Nat := 160 + t

/-- The ball of a lane's signal (Table PKG-3): `tx` transmits, `neg` is the negative leg. -/
def serdesBall (lane : Nat) (tx neg : Bool) : Ball :=
  ⟨3 * (lane / 20) + (if tx then 1 else 2), 3 * (lane % 20) + (if neg then 2 else 1)⟩

/-! ### DDR channels (R454) -/

/-- The signals of a subchannel, and the two of a channel. -/
inductive DdrSig where
  | dq (i : Nat)
  | cb (i : Nat)
  | dqsT (k : Nat)
  | dqsC (k : Nat)
  | ca (i : Nat)
  | par
  | cs (i : Nat)
  | ckT
  | ckC
  | alert
  | reset
  deriving DecidableEq, Repr

/-- The signals that a subchannel has: 32 data and 8 check bits, 10 strobe pairs, 7 command bits and 2 chip selects. -/
def DdrSig.valid : DdrSig → Bool
  | .dq i => decide (i < 32)
  | .cb i => decide (i < 8)
  | .dqsT k => decide (k < 10)
  | .dqsC k => decide (k < 10)
  | .ca i => decide (i < 7)
  | .cs i => decide (i < 2)
  | _ => true

/-- The ball of a DDR signal (Table PKG-4); `sub` is 0 for subchannel A and 1 for B. -/
def ddrBall (c sub : Nat) (g : DdrSig) : Ball :=
  let data := fun (nibble j : Nat) => (⟨31 + 3 * c + sub, 6 * nibble + 1 + j⟩ : Ball)
  let cmd := fun (i : Nat) => (⟨33 + 3 * c, 12 * sub + i⟩ : Ball)
  match g with
  | .dq i => data (i / 4) (i % 4)
  | .cb i => data (8 + i / 4) (i % 4)
  | .dqsT k => data k 4
  | .dqsC k => data k 5
  | .ca i => cmd (1 + i)
  | .par => cmd 8
  | .cs i => cmd (9 + i)
  | .ckT => cmd 11
  | .ckC => cmd 12
  | .alert => ⟨33 + 3 * c, 25⟩
  | .reset => ⟨33 + 3 * c, 26⟩

/-! ### Control and sideband (R456) -/

/-- The pins of Table PKG-6; a pair's Boolean is its negative leg. -/
inductive Pin where
  | hclk (n : Nat) (neg : Bool)
  | drefclk (n : Nat) (neg : Bool)
  | perst (n : Nat)
  | wake (n : Nat)
  | clkreq (n : Nat)
  | serCal
  | ssbClk (n : Nat)
  | ssbLd (n : Nat)
  | ssbSo (n : Nat)
  | ssbSi (n : Nat)
  | dsbScl (c : Nat)
  | dsbSda (c : Nat)
  | tck
  | tms
  | tdi
  | tdo
  | nodeId (i : Nat)
  | install
  | ftest
  | sysReset
  | aonXi
  | aonXo
  | vinSense
  | pwrfail
  | railOk
  | pwrSeq (i : Nat)
  | vbatSense
  | isns (neg : Bool)
  | ntcSense
  | batScl
  | batSda
  | batPres
  | chgInhibit
  | batLoad
  deriving DecidableEq, Repr

/-- The ball of a pin (Table PKG-6): rows CA to CD are 58 to 61. -/
def pinBall : Pin → Ball
  | .hclk n neg => ⟨58, 3 * n + (if neg then 2 else 1)⟩
  | .drefclk n neg => ⟨58, 3 * n + (if neg then 8 else 7)⟩
  | .perst n => ⟨58, 19 + 3 * n⟩
  | .wake n => ⟨58, 20 + 3 * n⟩
  | .clkreq n => ⟨58, 21 + 3 * n⟩
  | .serCal => ⟨58, 26⟩
  | .ssbClk n => ⟨59, 4 * n + 1⟩
  | .ssbLd n => ⟨59, 4 * n + 2⟩
  | .ssbSo n => ⟨59, 4 * n + 3⟩
  | .ssbSi n => ⟨59, 4 * n + 4⟩
  | .dsbScl c => ⟨59, 2 * c + 18⟩
  | .dsbSda c => ⟨59, 2 * c + 19⟩
  | .tck => ⟨59, 27⟩
  | .tms => ⟨59, 28⟩
  | .tdi => ⟨59, 29⟩
  | .tdo => ⟨59, 30⟩
  | .nodeId i => ⟨60, 1 + i⟩
  | .install => ⟨60, 10⟩
  | .ftest => ⟨60, 11⟩
  | .sysReset => ⟨60, 13⟩
  | .aonXi => ⟨61, 1⟩
  | .aonXo => ⟨61, 2⟩
  | .vinSense => ⟨61, 4⟩
  | .pwrfail => ⟨61, 5⟩
  | .railOk => ⟨61, 6⟩
  | .pwrSeq i => ⟨61, 6 + i⟩
  | .vbatSense => ⟨61, 11⟩
  | .isns neg => ⟨61, if neg then 13 else 12⟩
  | .ntcSense => ⟨61, 14⟩
  | .batScl => ⟨61, 16⟩
  | .batSda => ⟨61, 17⟩
  | .batPres => ⟨61, 18⟩
  | .chgInhibit => ⟨61, 19⟩
  | .batLoad => ⟨61, 20⟩

/-- What an output pin shows; `clock` is a running reference. -/
inductive PinLevel where
  | low
  | high
  | highZ
  | clock
  deriving DecidableEq, Repr

/-- The reset state of an output pin (Table PKG-6): it holds from any device reset until its block first drives it. An input has none. -/
def pinReset : Pin → Option PinLevel
  | .drefclk _ _ => some .low
  | .wake _ => some .highZ
  | .clkreq _ => some .highZ
  | .ssbClk _ => some .low
  | .ssbLd _ => some .low
  | .ssbSo _ => some .low
  | .dsbScl _ => some .highZ
  | .dsbSda _ => some .highZ
  | .tdo => some .highZ
  | .pwrSeq _ => some .low
  | .batScl => some .highZ
  | .batSda => some .highZ
  | .chgInhibit => some .low
  | .batLoad => some .low
  | _ => none

/-- An output at the IO level: high-Z while VDD_IO is off (R457). -/
def ioOutput : Pin → Bool
  | .clkreq _ => true
  | .ssbClk _ => true
  | .ssbLd _ => true
  | .ssbSo _ => true
  | .dsbScl _ => true
  | .dsbSda _ => true
  | .tdo => true
  | _ => false

/-- VDD_IO is on: step 3 of the rail sequence (Table POWER-1). -/
def ioPowered (s : State) : Bool := decide (getFld s PWR_RAIL_SEQ / 4 % 2 = 1)

/-- What an output pin shows between its block's own transfers: the levels that registers hold (R389, R391, R178, R180), HPn_WAKE# low in
D3cold while PME_Status is set (R278), else its reset state. -/
def pinNow (s : State) (g : Pin) : Option PinLevel :=
  let lev := fun (b : Bool) => some (if b then PinLevel.high else PinLevel.low)
  if ioOutput g && !ioPowered s then some .highZ
  else match g with
    | .pwrSeq i => lev (decide (getFld s PWR_RAIL_SEQ / 2 ^ (i - 1) % 2 = 1))
    | .chgInhibit => lev (isSet s BEM_STAT_CHG_INHIBIT)
    | .batLoad => lev (isSet s BEM_STAT_BAT_LOAD)
    | .drefclk n _ => some (if cclkOn s && (getFld s CLK_DREF_EN).testBit n then .clock else .low)
    | .clkreq n => some (if linkUp s n && !isSet s (HEP_LINK_IN_L12 n) && decide (n ∉ s.host.l11) then .low else .highZ)
    | .wake n => some (if decide (n ∈ s.host.l2) && (fnOf s n 0).pme then .low else .highZ)
    | _ => pinReset g

/-! ### Supplies (R455) -/

inductive Rail where
  | vdd
  | vddSram
  | vddaSer
  | vddhSer
  | vddqDdr
  | vddIo
  | vddAon
  deriving DecidableEq, Repr

/-- The supply that a ball belongs to (Tables PKG-3 to PKG-5); none for a signal or VSS. -/
def ballRail (b : Ball) : Option Rail :=
  if b.row ≤ 30 then
    if b.row % 3 = 0 ∧ b.col ≤ 60 then (if b.col % 3 = 1 then some .vddaSer else if b.col % 3 = 2 then some .vddhSer else none) else none
  else if b.row ≤ 42 then (if b.row % 3 = 0 ∧ 27 ≤ b.col ∧ b.col % 2 = 1 then some .vddqDdr else none)
  else if b.row ≤ 57 then (if (b.row + b.col) % 2 = 1 then (if b.col ≤ 46 then some .vdd else some .vddSram) else none)
  else if b.row ≤ 59 then (if 41 ≤ b.col ∧ b.col ≤ 52 then some .vddIo else none)
  else if b.row = 61 ∧ 41 ≤ b.col ∧ b.col ≤ 46 then some .vddAon
  else none

end Sys2Proof.Machine
end

