-- ==== Sys2Proof/Machine/Electrical.lean ====
section
/-! DEFINITION. The parts and their limits (Table SCOPE-1, Tables PKG-1 and PKG-7 to PKG-12): outline, ratings, operating conditions, pin levels, supply
currents, the junction and service life. Lengths are in µm, voltages in mV, currents in mA, temperatures in 0.1 °C, power in mW. -/

namespace Sys2Proof.Machine
open Reg

/-! ### Parts and outline (R1, R451) -/

/-- The ordering codes of Table SCOPE-1. -/
inductive Part where
  | cb1
  | xb1
  deriving DecidableEq, Repr

/-- The junction range of a part (Tables SCOPE-1, PKG-11). -/
def Part.junction : Part → Int × Int
  | .cb1 => (0, 1050)
  | .xb1 => (-200, 1050)

/-- Table PKG-1. -/
structure Outline where
  body      : Nat   -- side, ± bodyTol
  bodyTol   : Nat
  array     : Nat   -- balls on a side of the full array
  pitch     : Nat
  ball      : Nat   -- diameter before reflow
  height    : Nat   -- seated, lid included, at most
  coplanar  : Nat   -- at most
  lidLoadN  : Nat   -- static, in newtons, at most
  deriving DecidableEq, Repr

def outline : Outline :=
  { body := 62500, bodyTol := 150, array := 61, pitch := 1000, ball := 600, height := 4300, coplanar := 200, lidLoadN := 250 }

/-- The balls of the array. -/
def allBalls : List Ball := (List.range 61).flatMap (fun r => (List.range 61).map (fun c => ⟨r + 1, c + 1⟩))

/-! ### Ratings and operating conditions (R459, R460) -/

/-- The absolute maximum of a rail (Table PKG-7); the minimum is −300 mV on each. -/
def railMax : Rail → Int
  | .vdd => 1050
  | .vddSram => 1050
  | .vddaSer => 1050
  | .vddhSer => 1400
  | .vddqDdr => 1300
  | .vddIo => 2100
  | .vddAon => 1050

/-- The operating range of a rail (Table PKG-8): minimum, nominal, maximum. -/
def railRange : Rail → Int × Int × Int
  | .vdd => (873, 900, 927)
  | .vddSram => (873, 900, 927)
  | .vddaSer => (873, 900, 927)
  | .vddhSer => (1164, 1200, 1236)
  | .vddqDdr => (1067, 1100, 1133)
  | .vddIo => (1746, 1800, 1854)
  | .vddAon => (855, 900, 945)

def rails : List Rail := [.vdd, .vddSram, .vddaSer, .vddhSer, .vddqDdr, .vddIo, .vddAon]

/-- The main rails: all but VDD_AON (Table POWER-1). -/
def mainRails : List Rail := [.vdd, .vddSram, .vddaSer, .vddhSer, .vddqDdr, .vddIo]

/-- What the board gives the device: rail voltages, VIN_SENSE, the ripple of the SerDes rails, the junction, the references in Hz, the crystal's error in
ppm, its load in 0.1 pF and ESR in Ω, and the ISNS common mode. -/
structure Board where
  mv       : Rail → Int
  vin      : Int
  ripple   : Int
  junction : Int
  hclk     : List Nat
  xtalPpm  : Int
  xtalLoad : Nat
  xtalEsr  : Nat
  isns     : Int

/-- A main rail, or VDD_AON, is within its operating range. -/
def railIn (b : Board) (r : Rail) : Bool := decide ((railRange r).1 ≤ b.mv r ∧ b.mv r ≤ (railRange r).2.2)

/-- No rail, sense input or junction is stressed beyond Table PKG-7. -/
def withinRatings (b : Board) : Bool :=
  rails.all (fun r => decide (-300 ≤ b.mv r ∧ b.mv r ≤ railMax r)) && decide (-300 ≤ b.vin ∧ b.vin ≤ 2200) && decide (-300 ≤ b.isns ∧ b.isns ≤ 500) &&
  decide (b.junction ≤ 1250)

/-- The operating conditions of Table PKG-8, with main power good. -/
def withinOperating (x : Part) (b : Board) : Bool :=
  rails.all (railIn b) && decide (1150 ≤ b.vin ∧ b.vin ≤ 1300) && decide (b.ripple ≤ 10) && decide (x.junction.1 ≤ b.junction ∧ b.junction ≤ x.junction.2) &&
  b.hclk.all (fun f => decide (99970000 ≤ f ∧ f ≤ 100030000)) && decide (-50 ≤ b.xtalPpm ∧ b.xtalPpm ≤ 50) &&
  decide (70 ≤ b.xtalLoad ∧ b.xtalLoad ≤ 125 ∧ b.xtalEsr ≤ 70000) && decide (-100 ≤ b.isns ∧ b.isns ≤ 200)

/-- Storage temperature, and the ESD limits in V of the human-body and the charged-device model (Table PKG-7). -/
def storageRange : Int × Int := (-550, 1250)
def esdLimits : Nat × Nat := (1000, 250)

/-- The limit of an input: its rail and 300 mV; with VDD_IO off 2.10 V for an IO input, and 1.05 V for an AON input (Table PKG-7). -/
def inputMax (aon : Bool) (ioOff : Bool) (railMv : Int) : Int :=
  if aon then (if ioOff then 1050 else railMv + 300) else if ioOff then 2100 else railMv + 300

/-- What the board must do while an enable is asserted in BACKUP (R462): every main rail stays in its range. -/
def backupSupplied (s : State) (b : Board) : Bool :=
  decide (getFld s PWR_STAT_STATE ≠ 4) || decide (getFld s PWR_RAIL_SEQ = 0) || mainRails.all (railIn b)

/-! ### Pin levels (R461) -/

/-- Table PKG-9 at a rail's voltage: input low at most, input high at least, hysteresis at least, output low at most and output high at least at 4 mA. -/
structure DcLimits where
  inLow   : Int
  inHigh  : Int
  hyst    : Int
  outLow  : Int
  outHigh : Int
  deriving DecidableEq, Repr

def dcLimits (aon : Bool) (railMv : Int) : DcLimits :=
  if aon then { inLow := railMv * 25 / 100, inHigh := railMv * 75 / 100, hyst := 50, outLow := 150, outHigh := railMv - 150 }
  else { inLow := railMv * 35 / 100, inHigh := railMv * 65 / 100, hyst := 100, outLow := 400, outHigh := railMv - 400 }

/-- What a digital input reads as at a voltage; none between the two levels. -/
def inputReads (aon : Bool) (railMv mv : Int) : Option Bool :=
  let d := dcLimits aon railMv
  if mv ≤ d.inLow then some false else if d.inHigh ≤ mv then some true else none

/-- Internal pull-up in Ω, ±30 %, and the leakage of an input in µA. -/
def pullUp : Nat := 50000
def leakage : Nat := 10

/-- A comparator of Table POWER-2 trips within 1 % of its threshold; none says that it may or may not. -/
def comparatorBelow (threshold mv : Int) : Option Bool :=
  if mv * 100 < threshold * 99 then some true else if threshold * 101 < mv * 100 then some false else none

/-! ### Supply currents (R463) -/

/-- The most a rail draws in a power state (Table PKG-10): the full-load maximum in ACTIVE, IDLE and NIGHT. -/
def currentMax (state : Nat) : Rail → Nat
  | .vdd => if state ≤ 2 then 31000 else if state = 4 then 8000 else 0
  | .vddSram => if state ≤ 2 then 8000 else if state = 4 then 4000 else 0
  | .vddaSer => if state ≤ 2 then 17000 else if state = 4 then 2000 else 0
  | .vddhSer => if state ≤ 2 then 6500 else if state = 4 then 1000 else 0
  | .vddqDdr => if state ≤ 2 then 4500 else if state = 4 then 3000 else 0
  | .vddIo => if state ≤ 2 then 450 else if state = 4 then 150 else 0
  | .vddAon => if state ≤ 2 then 50 else if state = 4 then 50 else if state = 3 then 2600 else 60

/-- The most the device draws in a power state, in mW. -/
def powerMax (state : Nat) : Nat := if state ≤ 2 then 64000 else if state = 4 then 17400 else if state = 3 then 2500 else 57

/-- The current a regulator is sized to: the highest maximum of its rail. -/
def regulator (r : Rail) : Nat := (List.range 6).foldl (fun a st => max a (currentMax st r)) 0

/-- Typical currents: mixed workload, NIGHT, STANDBY and OFF_AON. -/
def currentTyp : Rail → Nat × Nat × Nat × Nat
  | .vdd => (21500, 6000, 0, 0)
  | .vddSram => (5700, 2500, 0, 0)
  | .vddaSer => (11000, 4000, 0, 0)
  | .vddhSer => (4500, 1500, 0, 0)
  | .vddqDdr => (3500, 600, 0, 0)
  | .vddIo => (200, 150, 0, 0)
  | .vddAon => (40, 40, 2100, 50)

/-! ### The junction and service life (R464, R465) -/

/-- The junction over a lid top at a temperature, in 0.1 °C: 0.08 °C/W (Table PKG-11). -/
def junctionOver (lid : Int) (mw : Nat) : Int := lid + (mw : Int) * 8 / 10000

/-- Table PKG-12: service life in 0.1 years at the average junctions it names. -/
def lifeTable : List (Int × Nat) := [(900, 271), (950, 200), (1000, 149), (1050, 112)]

/-- Service life at an average junction: 20 years up to 95 °C, the table's row above it. Between two rows, where the activation energy of 0.7 eV decides, the
pair of rows' values bounds it. -/
def serviceLife (avg : Int) : Option (Nat × Nat) :=
  if avg ≤ 950 then some (200, 200)
  else match lifeTable.find? (fun q => decide (avg ≤ q.1)), lifeTable.reverse.find? (fun q => decide (q.1 ≤ avg)) with
    | some lo, some hi => some (lo.2, hi.2)
    | _, _ => none

/-- What 20 years of service ask of the device's own counters and of the commits of each firmware slot. -/
def lifeCounters (s : State) (commits : List Nat) : Bool := decide (getFld s CHIP_PWR_CYCLES_COUNT ≤ 50000) && commits.all (fun n => decide (n ≤ 5000))

end Sys2Proof.Machine
end

