-- ==== Sys2Proof/Safety.lean ====
section
/-! DEFINITION. What a safe run keeps: the registers' canonical form, the queue of waiting commands, and what has left the device. -/

namespace Sys2Proof.Machine

/-- The registers stand in their canonical form: places strictly rising, so that equal contents are equal data. -/
def State.regsOk (s : State) : Prop := smSorted s.regs = true

/-- What every effect of a command keeps of the key region: the serial number, every programmed key, and the rollback floor, which only
rises (R421, R423). -/
def RoleKept (a b : RoleSt) : Prop :=
  b.dsn = a.dsn ∧ a.fuses ≤ b.fuses ∧ ∀ k v, smGet a.keys k = some v → smGet b.keys k = some v

/-- What every effect of a command keeps: the commands that wait, everything sent out before, the count of free values used, the
registers' canonical form and the key region. Device time stands, or begins again at 0 (R392). -/
def Kept (s t : State) : Prop :=
  t.pending = s.pending ∧ (t.timeQ = s.timeQ ∨ t.timeQ = 0) ∧ s.out <:+ t.out ∧ s.fresh ≤ t.fresh ∧ (s.regsOk → t.regsOk) ∧
  RoleKept s.role t.role

/-! ### Accesses that are let through -/

/-- A write to a page through a window is let through: the window takes traffic and can show the page, its function is in D0, the rights
allow it, and the page is none of the fenced CHIP, PWR and CLK pages (R275, R277, R415, R445, Table POWER-9). -/
def Passes (w : Win) (p : Nat) (s : State) : Prop :=
  winOpen s w = true ∧ winOff s w = false ∧ canWrite s w p = true ∧ (p ≤ 2 → fenced s p = false) ∧ winHas w p = true

/-- A doorbell of a context reaches its ring: the window takes traffic, its function is in D0, and the context is its own (R194, R275, R277). -/
def Rings (w : Win) (c : Nat) (s : State) : Prop :=
  winOpen s w = true ∧ winOff s w = false ∧ dbReaches s w c = true

/-- An offset that a window shows as one of a page's own registers, not as its message table (Table HOST-4). -/
def pageOffset (w : Win) (p off : Nat) : Bool :=
  match w with
  | .pf _ => decide (p < 0xF00) || decide (0xF08 < p)
  | .vf _ _ => decide (off < 0x800)
  | .core _ => true

/-- The state in which a write that is let through takes its effect: a PF's write that needed its session's role is counted (Table
ROLE-5) and restarts the session's idle time (R417). -/
def admitted (w : Win) (p : Nat) (s : State) : State :=
  match w with
  | .pf _ => if rightsWrite s 0 p then s else needRole w (roleAction (winRole s w) 4 p s)
  | _ => s

/-- The state of a page's command register once a command with its parameters is loaded and counted as a configuration change, with GO
set and DONE clear (R441, R467). -/
def loaded (w : Win) (p : Nat) (opF : FRef) (op : Nat) (pars : List (FRef × Nat)) (go doneF : FRef) (s : State) : State :=
  let t := admitted w p s
  setFld doneF 0 (setFld go 1 (writeRwi w p ((opF, op) :: pars) t))

/-! ### Commands that are due -/

/-- A checked command of an I/O ring with an opcode waits to start, and the device is ready (R206, R208, Table RING-7). -/
def StartsIo (n op : Nat) (x : Cmd) (s : State) : Prop :=
  cmdOf s n = some x ∧ x.phase = .presented ∧ enOp x.raw = op ∧ ctxAdmin s x.ctx = false ∧ devReady s = true

/-- An admin command with an opcode is the oldest of its context and has not started (R216). -/
def AdminDue (n op : Nat) (x : Cmd) (s : State) : Prop := cmdOf s n = some x ∧ adminTurn s n op = true

end Sys2Proof.Machine
end

