-- ==== Sys2Proof/WellFormed.lean ====
section
/-! DEFINITION. Which commands can reach the hardware: those whose operands name units that the spec gives the device. -/

namespace Sys2Proof

/-- The kinds of numbered units that operands name. -/
inductive UnitKind where
  | context | plate | drivePort | hostPort | function | entry | pipe | channel | link | node | core | graver | request | source | chain | page | window
  deriving DecidableEq, Repr

/-- How many the device has of each: plates (R23), drive ports (R284), host ports and functions (R253, R254), journal entries (R55), Tashaop links
and nodes (R320, R328), Graver channels and request lines (R346, Table MOVER-2), interrupt sources (R363), sideband chains (R296), and the
contexts, Burin pipes, DRAM channels, management cores and page indexes of Table PAGE-5; in a window, the doorbell pages of Table HOST-4 and the
function's configuration space follow them. -/
def UnitKind.count : UnitKind → Nat
  | .context => 4096
  | .plate => 64
  | .drivePort => 64
  | .hostPort => 2
  | .function => 1024
  | .entry => 49152
  | .pipe => 8
  | .channel => 4
  | .link => 8
  | .node => 512
  | .core => 4
  | .graver => 16
  | .request => 72
  | .source => 256
  | .chain => 4
  | .page => 8192
  | .window => 12289

/-- Devices of a DIMM, with masks of eight symbols (R308). -/
def devErrsOk (errs : List DevErr) : Bool := errs.all (fun e => decide (e.dev < 10 ∧ e.lo < 256 ∧ e.hi < 256))

/-- The units a command's operands name. -/
def Instr.units : Instr → List (UnitKind × Nat)
  | .sqTailDoorbell _ c _ _ => [(.context, c)]
  | .cqHeadDoorbell _ c _ _ => [(.context, c)]
  | .submissionFetch c => [(.context, c)]
  | .submissionEntryReceived port _ _ => [(.hostPort, port)]
  | .read _ => []
  | .write _ => []
  | .flush _ => []
  | .writeZeroes _ => []
  | .deallocate _ => []
  | .compare _ => []
  | .verify _ => []
  | .fill _ => []
  | .copy _ => []
  | .volumeInfo _ => []
  | .createVolume _ => []
  | .deleteVolume _ => []
  | .resizeVolume _ => []
  | .attach _ => []
  | .detach _ => []
  | .createPlate _ _ _ => []
  | .deletePlate _ => []
  | .blockCmd _ _ _ _ _ _ => []
  | .getLostWrites _ => []
  | .resync _ => []
  | .chipResync _ _ => []
  | .snapshotPublish => []
  | .tenantInfo _ => []
  | .setSched _ => []
  | .setClass _ => []
  | .timeAdj _ => []
  | .roleChallenge _ _ => []
  | .roleResponse _ _ => []
  | .roleDrop _ => []
  | .firmwareStage _ _ => []
  | .firmwareCommit _ => []
  | .admissionDecision _ => []
  | .grantQueuedSegment => []
  | .hostReadCompletion port _ _ => [(.hostPort, port)]
  | .dataStaged j => [(.entry, j)]
  | .groupCommitPoint j => [(.entry, j)]
  | .burinJobEnd _ _ => []
  | .burinBeatMismatch b _ => [(.pipe, b)]
  | .burinPipeAwake b => [(.pipe, b)]
  | .katStart _ b => [(.pipe, b)]
  | .katDone b _ => [(.pipe, b)]
  | .memberWriteComplete _ _ => []
  | .tagPageReadComplete _ _ _ => []
  | .tagWriteComplete _ _ => []
  | .committed j => [(.entry, j)]
  | .journalEntryFreed j => [(.entry, j)]
  | .writeSeqLabelRewrite p => [(.plate, p)]
  | .labelUpdateComplete p => [(.plate, p)]
  | .journalHeaderWriteDone p => [(.plate, p)]
  | .atomicLogWriteDone j => [(.entry, j)]
  | .journalRecordWriteDone p _ => [(.plate, p)]
  | .remirrorCopyDone p => [(.plate, p)]
  | .admProbe _ _ => []
  | .admClrHwm _ _ => []
  | .jnlClrHwm _ _ => []
  | .memberReadComplete _ _ _ => []
  | .lbtWriteDone _ => []
  | .lbtRemovalWrite p => [(.plate, p)]
  | .failMember _ p _ => [(.plate, p)]
  | .replace _ p _ => [(.plate, p)]
  | .startPass _ p => [(.plate, p)]
  | .pausePass _ p => [(.plate, p)]
  | .importPlate _ p _ => [(.plate, p)]
  | .recover _ p => [(.plate, p)]
  | .release _ p => [(.plate, p)]
  | .rbdPauseAll _ _ => []
  | .passStart p => [(.plate, p)]
  | .rebuildStepStart p => [(.plate, p)]
  | .rebuildStepDone _ => []
  | .progressRecord p _ => [(.plate, p)]
  | .rebuildSliceEnd p _ => [(.plate, p)]
  | .assembly _ _ _ => []
  | .proofCycleStart p => [(.plate, p)]
  | .proofUnitStart p => [(.plate, p)]
  | .proofUnitDone _ => []
  | .suspectListWrite => []
  | .proofProgressRecord p => [(.plate, p)]
  | .proofSliceEnd p _ => [(.plate, p)]
  | .proofDeadlinePassed p => [(.plate, p)]
  | .startCycle _ p => [(.plate, p)]
  | .proofPause _ p => [(.plate, p)]
  | .proofResume _ p => [(.plate, p)]
  | .clearSuspect _ => []
  | .prfPauseAll _ _ => []
  | .destageStart => []
  | .pmirTimeout _ => []
  | .pmirResume node => [(.node, node)]
  | .dirtyCeilRecompute => []
  | .backedModeReturn => []
  | .writeThroughEnd => []
  | .check _ _ _ _ => []
  | .brace _ => []
  | .braceEnd _ => []
  | .backupEntry _ _ => []
  | .vaultChunkDone _ _ => []
  | .replayAsmWaitExpiry => []
  | .lostWriteListWrite => []
  | .cacheFlush _ => []
  | .clearLost _ _ => []
  | .bemSample _ _ _ _ => []
  | .bemHibernateWake _ _ _ _ => []
  | .restReading => []
  | .bemDayBoundary => []
  | .restWindowTimeout => []
  | .learnCycleStart => []
  | .rintMeasure => []
  | .estimatorStoreWrite _ => []
  | .batPresChange _ => []
  | .packInserted _ _ => []
  | .authResponseRead _ => []
  | .authRetry _ _ => []
  | .authPeriodic _ => []
  | .learn _ => []
  | .abortLearn _ => []
  | .auth _ _ => []
  | .forget _ => []
  | .ctxBindWrite _ c _ => [(.context, c)]
  | .runSet _ c => [(.context, c)]
  | .runClear _ c => [(.context, c)]
  | .errClear _ c => [(.context, c)]
  | .retire _ c => [(.context, c)]
  | .irqAggTimer c => [(.context, c)]
  | .roundEnd _ => []
  | .slotSecondsTick => []
  | .epochEnd => []
  | .meteringRecordsWrite => []
  | .mtrStep _ => []
  | .mtrSlew _ => []
  | .slewDone => []
  | .mtrEnable _ _ => []
  | .mtrHeadWrite _ _ => []
  | .tscClrMax _ _ => []
  | .hostLinkUp port _ _ _ => [(.hostPort, port)]
  | .hostLinkDown port => [(.hostPort, port)]
  | .perstAssert port => [(.hostPort, port)]
  | .perstDeassert port => [(.hostPort, port)]
  | .hotReset port => [(.hostPort, port)]
  | .functionLevelReset port func => [(.hostPort, port), (.function, func)]
  | .flrEnd port func => [(.hostPort, port), (.function, func)]
  | .busMasterEnableClear port func => [(.hostPort, port), (.function, func)]
  | .busMasterEnableSet port func _ => [(.hostPort, port), (.function, func)]
  | .vfEnableSet port _ _ => [(.hostPort, port)]
  | .vfEnableClear port => [(.hostPort, port)]
  | .d3hotEntry port => [(.hostPort, port)]
  | .d0Return port => [(.hostPort, port)]
  | .pmeTurnOff port => [(.hostPort, port)]
  | .hostL1Entry port _ => [(.hostPort, port)]
  | .msixUnmask port func _ => [(.hostPort, port), (.function, func)]
  | .completionTimeout _ => []
  | .slotPresenceDetected p => [(.drivePort, p)]
  | .pwrGoodTimeout p => [(.drivePort, p)]
  | .perstReleaseTimer p => [(.drivePort, p)]
  | .driveLinkUp p _ _ => [(.drivePort, p)]
  | .driveLinkTimeout p => [(.drivePort, p)]
  | .nvmeBringUpDone p _ _ _ => [(.drivePort, p)]
  | .attentionButton p => [(.drivePort, p)]
  | .attentionWindowEnd p => [(.drivePort, p)]
  | .presenceLost p => [(.drivePort, p)]
  | .powerFault p => [(.drivePort, p)]
  | .driveLinkDown p => [(.drivePort, p)]
  | .nvmeCommandTimeout p => [(.drivePort, p)]
  | .controllerResetDone p => [(.drivePort, p)]
  | .smartPoll p _ _ _ => [(.drivePort, p)]
  | .ssbFrame chain _ => [(.chain, chain)]
  | .indicatorBlinkToggle => []
  | .powerOff _ p => [(.drivePort, p)]
  | .powerOn _ p => [(.drivePort, p)]
  | .rescan _ p _ _ => [(.drivePort, p)]
  | .driveL1Entry p => [(.drivePort, p)]
  | .dramTrainingDone c _ _ => [(.channel, c)]
  | .dramInitDone c => [(.channel, c)]
  | .scrubRead c _ => [(.channel, c)]
  | .dramCorrectedBurst c _ _ _ _ => [(.channel, c)]
  | .dramUncorrectedBurst c _ _ _ _ => [(.channel, c)]
  | .freqChangeDone => []
  | .dramRefresh c _ => [(.channel, c)]
  | .requestUrgent c _ => [(.channel, c)]
  | .rowIdleClose c _ _ _ _ => [(.channel, c)]
  | .diagRead _ c _ _ _ _ => [(.channel, c)]
  | .dramRelease _ c => [(.channel, c)]
  | .tlkTrainingDone x _ _ _ node link => [(.link, x), (.node, node), (.link, link)]
  | .retrainTimeout x => [(.link, x)]
  | .flitReceived x _ => [(.link, x)]
  | .nakReceived x _ => [(.link, x)]
  | .replayTimer x => [(.link, x)]
  | .ackTimer x => [(.link, x)]
  | .messageForward x _ m => [(.link, x), (.node, m.dst), (.node, m.src)]
  | .leaseRenewTimer => []
  | .renew m => [(.node, m.src)]
  | .renewAck m => [(.node, m.src)]
  | .leaseExpired owner => [(.node, owner)]
  | .leaseDrop node => [(.node, node)]
  | .reservationReportComplete p _ => [(.plate, p)]
  | .preemptComplete _ _ => []
  | .preemptTimeout _ => []
  | .takeoverDone _ => []
  | .journalEntryMessage m => [(.node, m.src)]
  | .fenceNotice m => [(.node, m.src)]
  | .progress m => [(.node, m.src)]
  | .proof m => [(.node, m.src)]
  | .suspect m => [(.node, m.src)]
  | .attachOffer m _ _ _ _ => [(.node, m.src)]
  | .attachAccept m _ => [(.node, m.src)]
  | .attachRefuse m => [(.node, m.src)]
  | .claim m => [(.node, m.src)]
  | .memberIoRead m => [(.node, m.src)]
  | .memberIoWrite m => [(.node, m.src)]
  | .memberIoCompletion m _ => [(.node, m.src)]
  | .memberIoTimeout _ => []
  | .remoteRouteTimeout node => [(.node, node)]
  | .mirrorWrite m => [(.node, m.src)]
  | .mirrorAck m => [(.node, m.src)]
  | .mirrorRelease m => [(.node, m.src)]
  | .mirrorLost m => [(.node, m.src)]
  | .timeSyncTimer followers => followers.map (fun n => (.node, n))
  | .sync m => [(.node, m.src)]
  | .latencyPingTimer x => [(.link, x)]
  | .ping x m => [(.link, x), (.node, m.src)]
  | .pong x m => [(.link, x), (.node, m.src)]
  | .trtAttach _ _ _ => []
  | .trtDetach _ _ => []
  | .tlkL1Entry x => [(.link, x)]
  | .graverGo _ c _ => [(.graver, c)]
  | .graverStop _ c => [(.graver, c)]
  | .descriptorFetch c _ => [(.graver, c)]
  | .graverBurst _ _ _ => []
  | .graverRequestPulse src => [(.request, src)]
  | .graverUnitEnd => []
  | .graverHoldTimeout => []
  | .interruptSourceEdge src _ => [(.source, src)]
  | .interruptClaim n _ => [(.core, n)]
  | .eoi _ n _ => [(.core, n)]
  | .softwareInterrupt _ _ => []
  | .icuPendClear _ _ => []
  | .moderationExpiry src => [(.source, src)]
  | .fallbackTimeout src => [(.source, src)]
  | .faultMessage => []
  | .fenceReq _ p => [(.page, p)]
  | .faultInject _ => []
  | .pgEvtSet _ p _ => [(.page, p)]
  | .faultRearm _ => []
  | .unfence _ _ _ _ => []
  | .watchdogKick _ => []
  | .watchdogTimeout => []
  | .mainPowerGood => []
  | .railSequenceStep => []
  | .railRetry => []
  | .startupPhaseEnd _ => []
  | .startupPhaseTimeout => []
  | .coldReset => []
  | .supplyReset _ => []
  | .pinReset => []
  | .softwareReset _ => []
  | .supplyWarning _ _ => []
  | .supplyWarningClear _ _ => []
  | .tempWarning _ => []
  | .tempCritical _ => []
  | .hclkLost _ _ => []
  | .xtalStop => []
  | .xtalResume => []
  | .alarmFire _ => []
  | .opMinuteTick => []
  | .idleEntry => []
  | .nightEntry _ => []
  | .nightExit _ => []
  | .nightReqWrite _ _ => []
  | .standbyEntry => []
  | .standbyExit => []
  | .pwrClrMin _ _ => []
  | .sessionIdleTimeout port => [(.hostPort, port)]
  | .nonceLapse port => [(.hostPort, port)]
  | .lockoutEnd port => [(.hostPort, port)]
  | .keyProgram _ _ _ => []
  | .sketchbookWindowEnd _ => []
  | .sketchbookToken => []
  | .sketchbookRecordWrite _ => []
  | .sketchbookSnapshotTimer => []
  | .snapshot _ => []
  | .eraseAll _ => []
  | .pgEnableWrite _ p _ => [(.page, p)]
  | .blockReset _ p => [(.page, p)]
  | .clkReq _ p _ => [(.page, p)]
  | .registerWrite _ p _ _ _ _ _ => [(.window, p)]
  | .registerRead _ p _ _ => [(.window, p)]
  | .settingsRecordWrite => []
  | .configRetryEnd port => [(.hostPort, port)]
  | .linkLayerError port func _ => [(.hostPort, port), (.function, func)]
  | .waitForInterrupt n => [(.core, n)]
  | .shutdownComplete p => [(.drivePort, p)]
  | .controllerFatalStatus p => [(.drivePort, p)]

/-- The rest of what a command's operands must meet: speeds and widths a link can have, places inside a page, a record block of a journal
member, devices and banks of a DIMM, a clock or alarm number. -/
def Instr.shape : Instr → Bool
  | .sqTailDoorbell _ _ _ _ => true
  | .cqHeadDoorbell _ _ _ _ => true
  | .submissionFetch _ => true
  | .submissionEntryReceived _ _ _ => true
  | .read _ => true
  | .write _ => true
  | .flush _ => true
  | .writeZeroes _ => true
  | .deallocate _ => true
  | .compare _ => true
  | .verify _ => true
  | .fill _ => true
  | .copy _ => true
  | .volumeInfo _ => true
  | .createVolume _ => true
  | .deleteVolume _ => true
  | .resizeVolume _ => true
  | .attach _ => true
  | .detach _ => true
  | .createPlate _ _ _ => true
  | .deletePlate _ => true
  | .blockCmd _ _ _ _ _ _ => true
  | .getLostWrites _ => true
  | .resync _ => true
  | .chipResync _ _ => true
  | .snapshotPublish => true
  | .tenantInfo _ => true
  | .setSched _ => true
  | .setClass _ => true
  | .timeAdj _ => true
  | .roleChallenge _ _ => true
  | .roleResponse _ _ => true
  | .roleDrop _ => true
  | .firmwareStage _ _ => true
  | .firmwareCommit _ => true
  | .admissionDecision _ => true
  | .grantQueuedSegment => true
  | .hostReadCompletion _ _ _ => true
  | .dataStaged _ => true
  | .groupCommitPoint _ => true
  | .burinJobEnd _ _ => true
  | .burinBeatMismatch _ _ => true
  | .burinPipeAwake _ => true
  | .katStart _ _ => true
  | .katDone _ _ => true
  | .memberWriteComplete _ _ => true
  | .tagPageReadComplete _ _ _ => true
  | .tagWriteComplete _ _ => true
  | .committed _ => true
  | .journalEntryFreed _ => true
  | .writeSeqLabelRewrite _ => true
  | .labelUpdateComplete _ => true
  | .journalHeaderWriteDone _ => true
  | .atomicLogWriteDone _ => true
  | .journalRecordWriteDone _ blk => decide (blk < 1536)
  | .remirrorCopyDone _ => true
  | .admProbe _ _ => true
  | .admClrHwm _ _ => true
  | .jnlClrHwm _ _ => true
  | .memberReadComplete _ _ _ => true
  | .lbtWriteDone _ => true
  | .lbtRemovalWrite _ => true
  | .failMember _ _ _ => true
  | .replace _ _ _ => true
  | .startPass _ _ => true
  | .pausePass _ _ => true
  | .importPlate _ _ _ => true
  | .recover _ _ => true
  | .release _ _ => true
  | .rbdPauseAll _ _ => true
  | .passStart _ => true
  | .rebuildStepStart _ => true
  | .rebuildStepDone _ => true
  | .progressRecord _ _ => true
  | .rebuildSliceEnd _ _ => true
  | .assembly _ _ _ => true
  | .proofCycleStart _ => true
  | .proofUnitStart _ => true
  | .proofUnitDone _ => true
  | .suspectListWrite => true
  | .proofProgressRecord _ => true
  | .proofSliceEnd _ _ => true
  | .proofDeadlinePassed _ => true
  | .startCycle _ _ => true
  | .proofPause _ _ => true
  | .proofResume _ _ => true
  | .clearSuspect _ => true
  | .prfPauseAll _ _ => true
  | .destageStart => true
  | .pmirTimeout _ => true
  | .pmirResume _ => true
  | .dirtyCeilRecompute => true
  | .backedModeReturn => true
  | .writeThroughEnd => true
  | .check _ _ _ _ => true
  | .brace _ => true
  | .braceEnd _ => true
  | .backupEntry _ _ => true
  | .vaultChunkDone _ _ => true
  | .replayAsmWaitExpiry => true
  | .lostWriteListWrite => true
  | .cacheFlush _ => true
  | .clearLost _ _ => true
  | .bemSample _ _ _ _ => true
  | .bemHibernateWake _ _ _ _ => true
  | .restReading => true
  | .bemDayBoundary => true
  | .restWindowTimeout => true
  | .learnCycleStart => true
  | .rintMeasure => true
  | .estimatorStoreWrite _ => true
  | .batPresChange _ => true
  | .packInserted _ _ => true
  | .authResponseRead _ => true
  | .authRetry _ _ => true
  | .authPeriodic _ => true
  | .learn _ => true
  | .abortLearn _ => true
  | .auth _ _ => true
  | .forget _ => true
  | .ctxBindWrite _ _ _ => true
  | .runSet _ _ => true
  | .runClear _ _ => true
  | .errClear _ _ => true
  | .retire _ _ => true
  | .irqAggTimer _ => true
  | .roundEnd _ => true
  | .slotSecondsTick => true
  | .epochEnd => true
  | .meteringRecordsWrite => true
  | .mtrStep _ => true
  | .mtrSlew _ => true
  | .slewDone => true
  | .mtrEnable _ _ => true
  | .mtrHeadWrite _ _ => true
  | .tscClrMax _ _ => true
  | .hostLinkUp _ speed width _ => decide (1 ≤ speed ∧ speed ≤ 5 ∧ width ∈ [1, 4, 8, 16])
  | .hostLinkDown _ => true
  | .perstAssert _ => true
  | .perstDeassert _ => true
  | .hotReset _ => true
  | .functionLevelReset _ _ => true
  | .flrEnd _ _ => true
  | .busMasterEnableClear _ _ => true
  | .busMasterEnableSet _ _ _ => true
  | .vfEnableSet _ _ _ => true
  | .vfEnableClear _ => true
  | .d3hotEntry _ => true
  | .d0Return _ => true
  | .pmeTurnOff _ => true
  | .hostL1Entry _ _ => true
  | .msixUnmask _ _ _ => true
  | .completionTimeout _ => true
  | .slotPresenceDetected _ => true
  | .pwrGoodTimeout _ => true
  | .perstReleaseTimer _ => true
  | .driveLinkUp _ speed width => decide (1 ≤ speed ∧ speed ≤ 5 ∧ width ∈ [1, 2, 4])
  | .driveLinkTimeout _ => true
  | .nvmeBringUpDone _ _ _ _ => true
  | .attentionButton _ => true
  | .attentionWindowEnd _ => true
  | .presenceLost _ => true
  | .powerFault _ => true
  | .driveLinkDown _ => true
  | .nvmeCommandTimeout _ => true
  | .controllerResetDone _ => true
  | .smartPoll _ _ _ _ => true
  | .ssbFrame _ _ => true
  | .indicatorBlinkToggle => true
  | .powerOff _ _ => true
  | .powerOn _ _ => true
  | .rescan _ _ _ _ => true
  | .driveL1Entry _ => true
  | .dramTrainingDone _ _ _ => true
  | .dramInitDone _ => true
  | .scrubRead _ errs => devErrsOk errs
  | .dramCorrectedBurst _ _ devs lo hi => devErrsOk (devErrs devs (lo.zip hi))
  | .dramUncorrectedBurst _ _ devs lo hi => devErrsOk (devErrs devs (lo.zip hi))
  | .freqChangeDone => true
  | .dramRefresh _ _ => true
  | .requestUrgent _ port => decide (port < 6)
  | .rowIdleClose _ sub rank group bank => decide (sub < 2 ∧ rank < 2 ∧ group < 8 ∧ bank < 4)
  | .diagRead _ _ _ _ devs syms => devErrsOk (devErrs devs syms)
  | .dramRelease _ _ => true
  | .tlkTrainingDone _ speed width _ _ _ => decide (speed ∈ [1, 2] ∧ width ∈ [1, 2, 4])
  | .retrainTimeout _ => true
  | .flitReceived _ _ => true
  | .nakReceived _ seq => decide (seq < 1024)
  | .replayTimer _ => true
  | .ackTimer _ => true
  | .messageForward _ _ _ => true
  | .leaseRenewTimer => true
  | .renew _ => true
  | .renewAck _ => true
  | .leaseExpired _ => true
  | .leaseDrop _ => true
  | .reservationReportComplete _ _ => true
  | .preemptComplete _ _ => true
  | .preemptTimeout _ => true
  | .takeoverDone _ => true
  | .journalEntryMessage _ => true
  | .fenceNotice _ => true
  | .progress _ => true
  | .proof _ => true
  | .suspect _ => true
  | .attachOffer _ _ _ _ _ => true
  | .attachAccept _ _ => true
  | .attachRefuse _ => true
  | .claim _ => true
  | .memberIoRead _ => true
  | .memberIoWrite _ => true
  | .memberIoCompletion _ _ => true
  | .memberIoTimeout _ => true
  | .remoteRouteTimeout _ => true
  | .mirrorWrite _ => true
  | .mirrorAck _ => true
  | .mirrorRelease _ => true
  | .mirrorLost _ => true
  | .timeSyncTimer _ => true
  | .sync _ => true
  | .latencyPingTimer _ => true
  | .ping _ _ => true
  | .pong _ _ => true
  | .trtAttach _ _ _ => true
  | .trtDetach _ _ => true
  | .tlkL1Entry _ => true
  | .graverGo _ _ _ => true
  | .graverStop _ _ => true
  | .descriptorFetch _ _ => true
  | .graverBurst _ _ ue => ((ue.map (fun e => devErrsOk e.errs)).getD true)
  | .graverRequestPulse _ => true
  | .graverUnitEnd => true
  | .graverHoldTimeout => true
  | .interruptSourceEdge src _ => decide (1 ≤ src)
  | .interruptClaim _ _ => true
  | .eoi _ _ _ => true
  | .softwareInterrupt _ _ => true
  | .icuPendClear _ _ => true
  | .moderationExpiry _ => true
  | .fallbackTimeout _ => true
  | .faultMessage => true
  | .fenceReq _ _ => true
  | .faultInject _ => true
  | .pgEvtSet _ _ _ => true
  | .faultRearm _ => true
  | .unfence _ _ _ _ => true
  | .watchdogKick _ => true
  | .watchdogTimeout => true
  | .mainPowerGood => true
  | .railSequenceStep => true
  | .railRetry => true
  | .startupPhaseEnd _ => true
  | .startupPhaseTimeout => true
  | .coldReset => true
  | .supplyReset _ => true
  | .pinReset => true
  | .softwareReset _ => true
  | .supplyWarning _ _ => true
  | .supplyWarningClear _ _ => true
  | .tempWarning _ => true
  | .tempCritical _ => true
  | .hclkLost n _ => decide (n < 2)
  | .xtalStop => true
  | .xtalResume => true
  | .alarmFire n => decide (n < 2)
  | .opMinuteTick => true
  | .idleEntry => true
  | .nightEntry _ => true
  | .nightExit _ => true
  | .nightReqWrite _ _ => true
  | .standbyEntry => true
  | .standbyExit => true
  | .pwrClrMin _ _ => true
  | .sessionIdleTimeout _ => true
  | .nonceLapse _ => true
  | .lockoutEnd _ => true
  | .keyProgram _ _ _ => true
  | .sketchbookWindowEnd _ => true
  | .sketchbookToken => true
  | .sketchbookRecordWrite _ => true
  | .sketchbookSnapshotTimer => true
  | .snapshot _ => true
  | .eraseAll _ => true
  | .pgEnableWrite _ _ _ => true
  | .blockReset _ _ => true
  | .clkReq _ _ _ => true
  | .registerWrite _ _ off _ _ _ _ => decide (off < 4096)
  | .registerRead _ _ off _ => decide (off < 4096)
  | .settingsRecordWrite => true
  | .configRetryEnd _ => true
  | .linkLayerError _ _ _ => true
  | .waitForInterrupt _ => true
  | .shutdownComplete _ => true
  | .controllerFatalStatus _ => true

/-- A well-formed command. -/
def Instr.wf (i : Instr) : Bool := i.units.all (fun u => decide (u.2 < u.1.count)) && i.shape

end Sys2Proof
end

