-- ==== Sys2Proof/Certificates/Slice0/Obligations.lean ====
section
/-! DEFINITION. The statements for the provers, each citing the spec's rules it rests on. Where a clause says what a command does, its hypotheses are on the state
and the operands alone. -/

open Sys2Proof Sys2Proof.Machine Sys2Proof.Machine.Reg

/-- A step takes the command at the front of the queue and runs it on the state with the queue's rest; with nothing waiting only device time runs on,
which is the model's own choice (notes/assumptions/2.md). -/
def Obligations.StepRunsTheFrontCommand : Prop :=
  (∀ (i : Instr) (rest : List Instr) (s : State), s.pending = i :: rest → step s = exec i { s with pending := rest }) ∧
  (∀ (s : State), s.pending = [] → ∃ t, step s = .next t ∧ t = { s with timeQ := t.timeQ } ∧
    t.timeQ = (if isSet s CLK_STAT_XTAL_OK = false ∧ cclkOn s = false then s.timeQ else s.timeQ + 256))

/-- Every command whose operands name units the device has ends in a next state; any other is turned away by name. -/
def Obligations.WellFormedCommandsComplete : Prop :=
  ∀ (i : Instr) (s : State), (i.wf = true → ∃ t, exec i s = .next t) ∧ (i.wf = false → exec i s = .fault .noSuchUnit)

/-- Every step keeps the registers' canonical form, whatever state it starts from. -/
def Obligations.StepKeepsTheRegistersForm : Prop :=
  ∀ (s t : State), s.regsOk → step s = .next t → t.regsOk

/-- R392, R421, R423: whatever a command does, the commands behind it wait on, what the device has sent stays sent, device time stands or begins again
at 0, the serial number and every programmed key stay as they are, and the rollback floor does not fall. -/
def Obligations.CommandsKeepWhatLasts : Prop :=
  ∀ (i : Instr) (s t : State), exec i s = .next t → t.pending = s.pending ∧ (t.timeQ = s.timeQ ∨ t.timeQ = 0) ∧ s.out <:+ t.out ∧
    t.role.dsn = s.role.dsn ∧ s.role.fuses ≤ t.role.fuses ∧ (∀ k v, smGet s.role.keys k = some v → smGet t.role.keys k = some v)

/-- R401 and the register tables: the state right after reset. Where the spec leaves a choice, a clause states the model's own
(notes/assumptions/11.md). -/
def Obligations.ResetLeavesItsValues : Prop :=
  State.reset.regsOk ∧ State.reset.pending = [] ∧ State.reset.timeQ = 0 ∧ State.reset.out = [] ∧ isSet State.reset CHIP_DEV_STAT_COLD = true ∧
  phase State.reset = 0 ∧ devReady State.reset = false ∧ getFld State.reset PWR_STAT_LAST_RESET = 0 ∧ getFld State.reset PWR_STAT_STATE = 0 ∧
  (∀ c < 4096, ctxState State.reset c = 0) ∧ (∀ p < 64, portState State.reset p = 0 ∧ plateOf State.reset p = none) ∧
  State.reset.io.journal = [] ∧ State.reset.io.locks = [] ∧ State.reset.cache.slots = [] ∧ State.reset.flt.queue = [] ∧
  (∀ p < 0x2000, fenced State.reset p = false) ∧ getFld State.reset RBD_CFG_SLICE_US = 1000 ∧ getFld State.reset RBD_CFG_STEPS_MAX = 64 ∧
  getFld State.reset FLT_WDOG_ADMIN_CORE = 0

/-- R5: a read of a reserved offset answers zero and a write is discarded; neither changes a register or raises an event. -/
def Obligations.ReservedOffsetsDoNothing : Prop :=
  ∀ (w : Win) (p off v : Nat) (vr : VaultRead) (s : State), winOpen s w = true → winOff s w = false → reaches s w p = true → p < 0x2000 → off < 4096 →
    off % 4 = 0 → pageOffset w p off = true → isRegister s w p off = false →
    exec (.registerWrite w p off 4 v false vr) s = .next s ∧
    exec (.registerRead w p off 4) s = .next (bumpFresh { s with out := .read w p off 0 :: s.out })

/-- R416, Table ROLE-5: what a page's rights do not allow a window's role is refused: a write changes nothing of the page, a read answers zero,
ROLE_DENY counts, DENIED is raised, and the DENIED action is counted against the role. -/
def Obligations.RightsRefuseAccesses : Prop :=
  (∀ (w : Win) (p off v : Nat) (vr : VaultRead) (s : State), winOpen s w = true → winOff s w = false → reaches s w p = true → p < 0x2000 → off < 4096 →
    off % 4 = 0 → pageOffset w p off = true → isRegister s w p off = true → rowsAt s p off ≠ [] → canWrite s w p = false →
    exec (.registerWrite w p off 4 v false vr) s = .next (denied w p s)) ∧
  (∀ (w : Win) (p off : Nat) (s : State), winOpen s w = true → winOff s w = false → reaches s w p = true → p < 0x2000 → off < 4096 →
    off % 4 = 0 → pageOffset w p off = true → isRegister s w p off = true → canRead s w p = false →
    exec (.registerRead w p off 4) s = .next (bumpFresh (emit (.read w p off 0) (denied w p s)))) ∧
  (∀ (w : Win) (p : Nat) (s : State), getFld (denied w p s) ROLE_DENY_COUNT = (getFld s ROLE_DENY_COUNT + 1) % 2 ^ ROLE_DENY_COUNT.width ∧
    (getFld (denied w p s) (PG_EVT_EVT 3)).testBit ROLE_EVT_DENIED = true ∧
    smGetD (denied w p s).evr.counts (0x4100 + 16 * winRole s w + 9) 0 = smGetD s.evr.counts (0x4100 + 16 * winRole s w + 9) 0 + 1 ∧
    (denied w p s).io = s.io ∧ (denied w p s).store = s.store ∧ (denied w p s).out = s.out)

/-- R467: GO written 1 with OP 0, or with a code its table reserves, ends at once with DONE set and STATUS INVALID_FIELD, and nothing else happens; a
reserved code leaves OP as it was. -/
def Obligations.EmptyAndReservedOperationsEnd : Prop :=
  (∀ (n p o v : Nat) (op go st done : FRef) (vr : VaultRead) (s : State), allCmdRegs p = some (o, op, go, st, done) → v < 2 ^ 32 →
    v.testBit 31 = true → isSet s go = false →
    (bitsOf v op.lo op.width = 0 ∨ ∀ r ∈ rowsAt s p o, r.f.key = op.key → legalFld s p v r = false) →
    ∃ t, exec (.registerWrite (.core n) p o 4 v false vr) s = .next t ∧ isSet t done = true ∧ getFld t st = 2 ∧ isSet t go = false ∧
      (bitsOf v op.lo op.width = 0 → getFld t op = 0) ∧ (bitsOf v op.lo op.width ≠ 0 → getFld t op = getFld s op) ∧
      t.io = s.io ∧ t.store = s.store ∧ t.cache = s.cache ∧ t.flt = s.flt ∧ t.drive = s.drive ∧ t.out = s.out) ∧
  (∀ (n : Nat) (x : Cmd) (md : PlateMedia) (ok1 ok2 : Bool) (rate nonce off : Nat) (op go st done : FRef) (s : State),
    AdminDue n 0x88 x s → x.tries = 0 → cmdRegs (enCdw x.raw) = some (off, op, go, st, done) → 1 ≤ x.role → rightsWrite s x.role (enCdw x.raw) = true →
    isSet s go = false →
    (bitsOf (enAux x.raw) op.lo op.width = 0 ∨ ∃ r ∈ pageRows s (enCdw x.raw), r.f.key = op.key ∧ codeOk r (enAux x.raw) = false) →
    let p := enCdw x.raw
    let t0 := needRole (.pf (ctxPort s x.ctx)) (loadCmd s p off (enAux x.raw) go)
    let t := seqIf p s (if 0x40 ≤ p ∧ p ≤ 0x7F then
      setFld (PLT_CMD_PORT_PORT (p - 0x40)) (bitsOf (enAux2 x.raw) 0 32) (setFld (PLT_CMD_NSID_NSID (p - 0x40)) (bitsOf (enAux2 x.raw) 32 32) t0) else t0)
    exec (.blockCmd n md ok1 ok2 rate nonce) s = .next (endCmd n .invalidField 0 0x102 (cmdEnd go st done .invalidField t)))

/-- The frame of the commands that clear or set one register: everything but the registers they name stays as it is. -/
def Obligations.RegisterCommandsKeepTheRest : Prop :=
  ∀ (n v : Nat) (s t : State),
    (exec (.nightReqWrite (.core n) v) s = .next t → { t with regs := s.regs } = s ∧
      ∀ f : FRef, f.key ∉ [PWR_CTL_NIGHT_REQ.key, (PG_SEQ_COUNT 1).key] → getFld t f = getFld s f) ∧
    (exec (.pwrClrMin (.core n) v) s = .next t → { t with regs := s.regs } = s ∧
      ∀ f : FRef, f.key ∉ [PWR_VDD_MIN_MV.key, PWR_VDDIO_MIN_MV.key, PWR_VIN_MIN_MV.key] → getFld t f = getFld s f) ∧
    (exec (.tscClrMax (.core n) v) s = .next t → { t with regs := s.regs } = s ∧ ∀ f : FRef, f.key ≠ TSC_OVER_MAX_NS.key → getFld t f = getFld s f) ∧
    (exec (.admClrHwm (.core n) v) s = .next t → { t with regs := s.regs } = s ∧
      ∀ f : FRef, f.key ∉ [ADM_LOCK_HWM_HWM.key, ADM_WAIT_HWM.key] → getFld t f = getFld s f) ∧
    (exec (.jnlClrHwm (.core n) v) s = .next t → { t with regs := s.regs } = s ∧ ∀ f : FRef, f.key ≠ JNL_OCC_HWM.key → getFld t f = getFld s f) ∧
    (exec (.faultRearm (.core n)) s = .next t → { t with regs := s.regs } = s ∧ ∀ f : FRef, f.key ≠ FLT_STAT_CAPTURED.key → getFld t f = getFld s f) ∧
    (exec (.alarmFire 0) s = .next t → { t with regs := s.regs } = s ∧ ∀ f : FRef, f.key ≠ CLK_ALARM_CTL_FIRED0.key → getFld t f = getFld s f) ∧
    (exec (.mtrHeadWrite (.core n) v) s = .next t → { t with regs := s.regs } = s ∧
      ∀ f : FRef, f.key ∉ [MTR_HEAD_HEAD.key, (PG_SEQ_COUNT 0x101).key] → getFld t f = getFld s f) ∧
    (exec (.rbdPauseAll (.core n) v) s = .next t → { t with regs := s.regs } = s ∧
      ∀ f : FRef, f.key ∉ [RBD_CTL_PAUSE_ALL.key, (PG_SEQ_COUNT 0x39).key] → getFld t f = getFld s f)

/-- R16 to R19, Table STRIPE-2: whichever two strips of a column of data and its syndromes are missing, the column is rebuilt whole. -/
def Obligations.TwoMissingStripsAreRebuilt : Prop :=
  ∀ (ds : List Block) (n x y : Nat), ds.length ≤ 30 → (∀ d ∈ ds, d.length = n) →
    recoverCol ds.length ((ds ++ [parityP ds, parityQ ds]).mapIdx (fun p d => if p = x ∨ p = y then none else some d)) =
      some (ds ++ [parityP ds, parityQ ds])

/-- R20, R64: the locator's verdicts of Table STRIPE-3, and the syndromes that follow one changed block. -/
def Obligations.SyndromesLocateAndFollow : Prop :=
  (∀ (k z : Nat) (e : Byte), k ≤ 30 → e ≠ 0 → locate k 0 0 = .consistent ∧ locate k 0 e = .qMember ∧ locate k e 0 = .pMember ∧
    (z < k → locate k e (gpow z e) = .dataMember z) ∧ (k ≤ z → z < 255 → locate k e (gpow z e) = .noSingle)) ∧
  (∀ (ds : List Block) (n i : Nat) (old new : Block), (∀ d ∈ ds, d.length = n) → ds[i]? = some old → new.length = n →
    parityP (ds.set i new) = deltaP (parityP ds) old new ∧ parityQ (ds.set i new) = deltaQ i (parityQ ds) old new)

/-- R21, R22, R26, R27: a row's permutation holds every member once, so that a stripe's strips lie on different members; a block's place in its extent
slot is told back from its place on the plate. -/
def Obligations.LayoutPlacesEachBlockOnce : Prop :=
  (∀ (seed r n : Nat), (stippleRow seed r n).Perm (List.range n)) ∧
  (∀ (g : Geom) (sn p q : Nat), g.ok = true → p < g.w → q < g.w → g.memberAt sn p = g.memberAt sn q → p = q) ∧
  (∀ (g : Geom) (slot within : Nat), g.ok = true → within < 2 ^ 18 →
    g.withinOf (g.resolve slot within) = within ∧ g.slotOf (g.resolve slot within).sn = slot ∧ (g.resolve slot within).pos < g.k ∧
      (g.resolve slot within).blk < g.bps)

/-- The spec's own worked values: R16 and R17's bytes, R21's check value and Table STRIPE-4's row, R27's block, R304's address, R374's message, R439's
PG_ID. -/
def Obligations.WorkedValuesHold : Prop :=
  (expT 7 = 0x80 ∧ expT 8 = 0x1D ∧ expT 12 = 0xCD ∧ logT 0x80 = 7) ∧
  (parityP [[0x01], [0x80], [0x55], [0x0F], [0xA3], [0x3C], [0x00], [0x91]] = [0xD5] ∧
    parityQ [[0x01], [0x80], [0x55], [0x0F], [0xA3], [0x3C], [0x00], [0x91]] = [0x67]) ∧
  ((splitmix64 0).2 = 0xE220A8397B1DCDAF#64 ∧ stippleRow 7 7 5 = [2, 3, 0, 1, 4]) ∧
  (decodeAddr 0 true false 1 16 0x80094C80 = ⟨0, 4, 0, 0, 4097, 400⟩) ∧
  (FMsg.word { unit := 0x2A, kind := 0x04, sev := 3, cls := 0, addr := 0x123400, access := 0, master := 0 } = 0x0A81300000123400) ∧
  (regWord State.reset 0xE5 0 = 0x00E00501 ∧ regWord State.reset 0x1123 0 = 0x10012301)

/-- A 4-byte tail doorbell that reaches, through a window that takes accesses, a running, paused or stopped ring with a value inside it sets the tail,
and gives each entry it newly shows the present device time; a head doorbell at or behind the tail sets the head, and one that reaches the tail also
clears the count of entries not yet signalled. A doorbell of another size, or to a ring in another state, does only what `discardDb` does. A tail
outside the ring, a head outside it and a head beyond the tail stop the ring with causes 1, 2 and 3. Rests on R195, R205, Table RING-4. -/
def Obligations.DoorbellsMoveOrAreRefused : Prop :=
  (∀ (w : Win) (c v : Nat) (s : State), c < 4096 → Rings w c s → dbOpen s c = true → v < sqSize s c →
    exec (.sqTailDoorbell w c 4 v) s = .next (ltrSync (fun t =>
      updCtx c (fun x => { x with vis := (x.vis ++ List.replicate ((v + sqSize s c - getFld s (CTX_SQ_IDX_TAIL c)) % sqSize s c) (devTime s)).take ((v + sqSize s c - getFld s (CTX_SQ_IDX_HEAD c)) % sqSize s c) })
        (setFld (CTX_SQ_IDX_TAIL c) v t)) s)) ∧
  (∀ (w : Win) (c v : Nat) (s : State), c < 4096 → Rings w c s → dbOpen s c = true → v < cqSize s c →
    (v + cqSize s c - getFld s (CTX_CQ_IDX_HEAD c)) % cqSize s c ≤
      (getFld s (CTX_CQ_IDX_TAIL c) + cqSize s c - getFld s (CTX_CQ_IDX_HEAD c)) % cqSize s c →
    v ≠ getFld s (CTX_CQ_IDX_TAIL c) →
    exec (.cqHeadDoorbell w c 4 v) s = .next (ltrSync (setFld (CTX_CQ_IDX_HEAD c) v) s)) ∧
  (∀ (w : Win) (c : Nat) (s : State), c < 4096 → Rings w c s → dbOpen s c = true → getFld s (CTX_CQ_IDX_TAIL c) < cqSize s c →
    exec (.cqHeadDoorbell w c 4 (getFld s (CTX_CQ_IDX_TAIL c))) s = .next (ltrSync (fun t =>
      updCtx c (fun x => { x with unsig := 0 }) (setFld (CTX_CQ_IDX_HEAD c) (getFld s (CTX_CQ_IDX_TAIL c)) t)) s)) ∧
  (∀ (w : Win) (c size v : Nat) (s : State), c < 4096 → Rings w c s → size ≠ 4 ∨ dbOpen s c = false →
    exec (.sqTailDoorbell w c size v) s = .next (ltrSync (discardDb c) s) ∧
    exec (.cqHeadDoorbell w c size v) s = .next (ltrSync (discardDb c) s)) ∧
  (∀ (w : Win) (c v : Nat) (s : State), c < 4096 → Rings w c s → dbOpen s c = true → sqSize s c ≤ v →
    exec (.sqTailDoorbell w c 4 v) s = .next (ltrSync (ringError c 1 (v % 2 ^ 16)) s)) ∧
  (∀ (w : Win) (c v : Nat) (s : State), c < 4096 → Rings w c s → dbOpen s c = true → cqSize s c ≤ v →
    exec (.cqHeadDoorbell w c 4 v) s = .next (ltrSync (ringError c 2 (v % 2 ^ 16)) s)) ∧
  (∀ (w : Win) (c v : Nat) (s : State), c < 4096 → Rings w c s → dbOpen s c = true → v < cqSize s c →
    (getFld s (CTX_CQ_IDX_TAIL c) + cqSize s c - getFld s (CTX_CQ_IDX_HEAD c)) % cqSize s c <
      (v + cqSize s c - getFld s (CTX_CQ_IDX_HEAD c)) % cqSize s c →
    exec (.cqHeadDoorbell w c 4 v) s = .next (ltrSync (ringError c 3 v) s))

/-- SUBMISSION_FETCH of a context that `releases` sends one 64-byte read of the entry after those in flight and counts it as in flight. An entry that
arrives without an error while no other waits out of turn is consumed if it is the one at the head, and else kept for its turn. The message timer of a
context with entries not yet signalled and interrupts enabled sends its message and clears the count. Rests on R204, R206, R236. -/
def Obligations.EntriesAreFetchedAndConsumed : Prop :=
  (∀ (c : Nat) (s : State), c < 4096 → releases s c = true →
    exec (.submissionFetch c) s = .next (hostRead (ctxPort s c) (ctxFunc s c)
      (sqBase s c + 64 * ((getFld s (CTX_SQ_IDX_HEAD c) + (ctxOf s c).fetching) % sqSize s c)) 64
      (.entry c ((getFld s (CTX_SQ_IDX_HEAD c) + (ctxOf s c).fetching) % sqSize s c))
      (updCtx c (fun x => { x with fetching := x.fetching + 1 }) s))) ∧
  (∀ (port tag c idx : Nat) (bytes : List Byte) (h : HRead) (s : State), port < 2 → c < 4096 → smGet s.io.hreads tag = some h → h.port = port →
    h.sent = true → h.late = false → fnLive s h.port h.func = true → h.why = .entry c idx → ctxState s c ∈ [2, 3, 4] → (ctxOf s c).got = [] →
    let arrived := fun (t : State) => updCtx c (fun x => { x with got := smSet x.got idx (some (slice bytes 0 64)) })
      (updIo (fun i => { i with hreads := smDel i.hreads tag }) (add64 (HEP_RD_LO_COUNT port) (HEP_RD_HI_COUNT port) ((h.runs.map Prod.snd).sum) t))
    (idx = getFld s (CTX_SQ_IDX_HEAD c) →
      exec (.submissionEntryReceived port tag (.data bytes)) s = .next (ltrSync (fun t => pumpReads (consume c (slice bytes 0 64)
        (updCtx c (fun x => { x with fetching := x.fetching - 1, got := smDel x.got idx }) (arrived t)))) s)) ∧
    (idx ≠ getFld s (CTX_SQ_IDX_HEAD c) →
      exec (.submissionEntryReceived port tag (.data bytes)) s = .next (ltrSync (fun t => pumpReads (arrived t)) s))) ∧
  (∀ (c : Nat) (s : State), c < 4096 → isSet s (CTX_IRQ_IEN c) = true → (ctxOf s c).unsig ≠ 0 →
    exec (.irqAggTimer c) s = .next (hostMsg (ctxPort s c) (ctxFunc s c) (getFld s (CTX_IRQ_VECTOR c)) (updCtx c (fun x => { x with unsig := 0 }) s)))

/-- RUN written 1 takes a configured disabled ring to RUN with all indices 0 and PHASE 1; RUN written 0 takes a running one to PAUSED with PAUSE_HOST
set; ERR_CLEAR takes a stopped ring that nothing pauses to RUN and clears the cause; RETIRE takes a drained ring that only the host pauses to
DISABLED; BIND written with VALID 0 unbinds a disabled ring and leaves FINAL_PENDING set. Rests on R194, R223 to R227. -/
def Obligations.RingControlsMoveStates : Prop :=
  (∀ (w : Win) (c : Nat) (s : State), c < 4096 → Passes w (0x1000 + c) s → ringWin s w c = true → ctxState s c = 1 → ringCfgOk s c = true →
    fnOff s (ctxPort s c) (ctxFunc s c) = false → isSet s (CTX_STAT_PAUSE_HOST c) = false →
    ∃ t, exec (.runSet w c) s = .next t ∧ ctxState t c = 2 ∧ isSet t (CTX_CTL_RUN c) = true ∧ getFld t (CTX_SQ_IDX_HEAD c) = 0 ∧
      getFld t (CTX_SQ_IDX_TAIL c) = 0 ∧ getFld t (CTX_CQ_IDX_HEAD c) = 0 ∧ getFld t (CTX_CQ_IDX_TAIL c) = 0 ∧ getFld t (CTX_STAT_PHASE c) = 1) ∧
  (∀ (w : Win) (c : Nat) (s : State), c < 4096 → Passes w (0x1000 + c) s → ringWin s w c = true → ctxState s c = 2 →
    ∃ t, exec (.runClear w c) s = .next t ∧ ctxState t c = 3 ∧ isSet t (CTX_STAT_PAUSE_HOST c) = true ∧ isSet t (CTX_CTL_RUN c) = false) ∧
  (∀ (w : Win) (c : Nat) (s : State), c < 4096 → Passes w (0x1000 + c) s → ringWin s w c = true → ctxState s c = 4 →
    isSet s (CTX_STAT_PAUSE_HOST c) = false → isSet s (CTX_STAT_PAUSE_BME c) = false →
    ∃ t, exec (.errClear w c) s = .next t ∧ ctxState t c = 2 ∧ getFld t (CTX_ERR_CAUSE c) = 0 ∧ getFld t (CTX_ERR_VALUE c) = 0) ∧
  (∀ (w : Win) (c : Nat) (s : State), c < 4096 → Passes w (0x1000 + c) s → ringWin s w c = true → ctxState s c = 3 →
    isSet s (CTX_STAT_PAUSE_HOST c) = true → isSet s (CTX_STAT_PAUSE_BME c) = false → getFld s (CTX_OUT_OUTSTANDING c) = 0 →
    getFld s (CTX_CQ_IDX_HEAD c) = getFld s (CTX_CQ_IDX_TAIL c) →
    ∃ t, exec (.retire w c) s = .next t ∧ ctxState t c = 1 ∧ isSet t (CTX_STAT_PAUSE_HOST c) = false) ∧
  (∀ (w : Win) (c v : Nat) (s : State), c < 4096 → Passes w (0x1000 + c) s → bindWin s w c = true → ctxState s c = 1 →
    isSet s (CTX_BIND_VALID c) = true → v % 2 = 0 →
    ∃ t, exec (.ctxBindWrite w c v) s = .next t ∧ ctxState t c = 0 ∧ getFld t (CTX_BIND_VALID c) = 0 ∧ getFld t (CTX_MTR_STAT_FINAL_PENDING c) = 1)

/-- READ, VERIFY and COMPARE that are due begin to serve every block they name, COMPARE after asking for its data from the host; WRITE, WRITE_ZEROES
and DEALLOCATE present the segments cut from their range, with data, as zeros, and as zeros to deallocate; a FLUSH whose set is empty ends its one
part at once. Rests on Table RING-7, R43, R67, R84, R212 to R214. -/
def Obligations.IoCommandsStart : Prop :=
  (∀ (n : Nat) (x : Cmd) (s : State), StartsIo n 1 x s →
    exec (.read n) s = .next (partDone n (serveBlocks n (List.range (enBlocks x.raw)) (updCmd n (fun y => { y with todo := 0 })
      (addParts n 1 (updCmd n (fun y => { y with phase := .running }) s)))))) ∧
  (∀ (n : Nat) (x : Cmd) (s : State), StartsIo n 7 x s →
    exec (.verify n) s = .next (partDone n (serveBlocks n (List.range (enBlocks x.raw)) (updCmd n (fun y => { y with todo := 0 })
      (addParts n 1 (updCmd n (fun y => { y with phase := .running }) s)))))) ∧
  (∀ (n : Nat) (x : Cmd) (s : State), StartsIo n 6 x s →
    exec (.compare n) s = .next (partDone n (serveBlocks n (List.range (enBlocks x.raw)) (fromHost n 0 (4096 * enBlocks x.raw) (.cmp n)
      (addParts n 1 (updCmd n (fun y => { y with todo := 0 }) (addParts n 1 (updCmd n (fun y => { y with phase := .running }) s)))))))) ∧
  (∀ (n : Nat) (x : Cmd) (s : State), StartsIo n 2 x s →
    let t := updCmd n (fun y => { y with phase := .running }) s
    exec (.write n) s = .next (present (cutSegs t .host n (enVol x.raw) (enLba x.raw) (enBlocks x.raw) false false (fun _ => none)) n
      (updCmd n (fun y => { y with todo := 0 }) t))) ∧
  (∀ (n : Nat) (x : Cmd) (s : State), StartsIo n 4 x s →
    let t := updCmd n (fun y => { y with phase := .running }) s
    exec (.writeZeroes n) s = .next (present (cutSegs t .host n (enVol x.raw) (enLba x.raw) (enBlocks x.raw) true false (fun _ => none)) n
      (updCmd n (fun y => { y with todo := 0 }) t))) ∧
  (∀ (n : Nat) (x : Cmd) (s : State), StartsIo n 5 x s →
    let t := updCmd n (fun y => { y with phase := .running }) s
    exec (.deallocate n) s = .next (present (cutSegs t .host n (enVol x.raw) (enLba x.raw) (enBlocks x.raw) true true (fun _ => none)) n
      (updCmd n (fun y => { y with todo := 0 }) t))) ∧
  (∀ (n : Nat) (x : Cmd) (s : State), StartsIo n 3 x s → x.keys = [] →
    exec (.flush n) s = .next (partDone n (addParts n 1 (updCmd n (fun y => { y with todo := 0 })
      (updCmd n (fun y => { y with phase := .running }) s)))))

/-- A FLUSH whose set, taken when it was consumed, is not empty only becomes running. While a Graver channel may work for it and its pace allows, a
FILL with blocks left presents a piece that repeats its 8-byte pattern, and a COPY with blocks left and no piece under way reads the next piece's
blocks; a COPY whose source was found wrong when it was consumed ends with that status. Rests on R212, R215. -/
def Obligations.FlushFillAndCopyGoOn : Prop :=
  (∀ (n : Nat) (x : Cmd) (s : State), StartsIo n 3 x s → x.keys ≠ [] →
    exec (.flush n) s = .next (addParts n 1 (updCmd n (fun y => { y with todo := 0 }) (updCmd n (fun y => { y with phase := .running }) s)))) ∧
  (∀ (n : Nat) (x : Cmd) (s : State), StartsIo n 8 x s → x.todo ≠ 0 → bulkDue s x.ctx = true → graverFree s [8, 9, 10, 11, 12, 13] = true →
    exec (.fill n) s = .next (presentPiece n x (fun _ => some ((List.range 512).flatMap (fun _ => leBytes (enAux x.raw) 8)))
      (updCmd n (fun y => { y with phase := .running }) s))) ∧
  (∀ (n : Nat) (x : Cmd) (s : State), StartsIo n 9 x s → x.todo ≠ 0 → x.waits = 0 → x.tries = 0 → x.srcBad = none → bulkDue s x.ctx = true →
    graverFree s [8, 9, 10, 11, 12, 13] = true →
    exec (.copy n) s = .next (serveBlocks n ((List.range (pieceLen x)).map (· + (enBlocks x.raw - x.todo)))
      (updCmd n (fun y => { y with phase := .running, tries := 1 }) s))) ∧
  (∀ (n : Nat) (x : Cmd) (st : Status) (d : Nat) (s : State), StartsIo n 9 x s → x.waits = 0 → x.srcBad = some (st, d) →
    exec (.copy n) s = .next (endCmd n st d 0 s))

/-- With admission open, the front segment of those presented, where it is in no group, is decided: refused with the first status that applies to any
segment checked with it, granted where the lock and the resources are free, else queued; each decision is counted. GRANT_QUEUED_SEGMENT takes the
first waiting item that can go on off the wait list: a segment is granted, a stripe operation takes its lock and a pipe, or waits for a pipe, or goes
on where it has its lock. ADM_PROBE shows the lock entry of the stripe it names. ADM_CLR_HWM and JNL_CLR_HWM written 1 set the high-water marks to
what stands now. Rests on R47, R52 to R54, R80, R81. Where the spec leaves a choice, a clause states the model's own (notes/assumptions/22.md). -/
def Obligations.AdmissionDecidesAndGrants : Prop :=
  (∀ (g : Seg) (rest : List Seg) (ue : Bool) (s : State), s.io.queue = g :: rest → isSet s ADM_STAT_FROZEN = false → enabled s 0x2B = true →
    g.group = 0 →
    let t := add64 ADM_DECIDED_LO_COUNT ADM_DECIDED_HI_COUNT 1 (updIo (fun i => { i with queue := rest, admCount := s.io.admCount + 1 }) s)
    let g1 : Seg := { g with adm := s.io.admCount + 1 }
    (∀ st, ((checkSet s g).filterMap (fun h => refusal s h ue)).head? = some st → exec (.admissionDecision ue) s = .next (refuseSegs g st t)) ∧
    (((checkSet s g).filterMap (fun h => refusal s h ue)).head? = none → segStale t g1 = false → canGrant t t.io.waitl g1 = true →
      exec (.admissionDecision ue) s = .next (doGrant g1 t)) ∧
    (((checkSet s g).filterMap (fun h => refusal s h ue)).head? = none → segStale t g1 = false → canGrant t t.io.waitl g1 = false →
      exec (.admissionDecision ue) s = .next (enqueueWait (.seg g1) (incFld ADM_QUEUED_COUNT 1 (wakePipes (noteQueued g1 t)))))) ∧
  (∀ (before rest : List WaitItem) (g : Seg) (s : State), isSet s ADM_STAT_FROZEN = false →
    pickWaiting s [] (waitItems s) = some (before, .seg g, rest) → segStale s g = false →
    exec .grantQueuedSegment s = .next (doGrant g (updIo (fun x => { x with waitl := x.waitl.eraseIdx before.length }) s))) ∧
  (∀ (before rest : List WaitItem) (id : Nat) (o : Sop) (s : State), isSet s ADM_STAT_FROZEN = false →
    pickWaiting s [] (waitItems s) = some (before, .sop id, rest) → sopOf s id = some o →
    let t := updIo (fun x => { x with waitl := x.waitl.eraseIdx before.length }) s
    (o.phase = .lock → sopPipeFree s before = true → exec .grantQueuedSegment s = .next (sopLocked id (takeLock o.plate o.sn .maint t))) ∧
    (o.phase = .lock → sopPipeFree s before = false →
      exec .grantQueuedSegment s = .next (wakePipes (takeLock o.plate o.sn .maint (updSop id (fun y => { y with phase := .pipe }) s)))) ∧
    (o.phase ≠ .lock → exec .grantQueuedSegment s = .next (sopLocked id t))) ∧
  (∀ (w : Win) (v : Nat) (s : State), Passes w 0x2B s →
    ∃ t, exec (.admProbe w v) s = .next t ∧
      getFld t ADM_PROBE_RES_LO_ENTRY_LO + 2 ^ 32 * getFld t ADM_PROBE_RES_HI_ENTRY_HI =
        ((lockOf s (bitsOf v 8 6) (getFld s ADM_PROBE_LO_SN_LO + 2 ^ 32 * bitsOf v 0 5)).map (lockWord s)).getD 0 % 2 ^ 64 ∧
      t.io = s.io ∧ t.out = s.out ∧ t.flash = s.flash) ∧
  (∀ (w : Win) (v : Nat) (s : State), Passes w 0x2B s → v % 2 = 1 →
    exec (.admClrHwm w v) s = .next (setFld ADM_LOCK_HWM_HWM s.io.locks.length (setFld ADM_WAIT_HWM (waitItems s).length (admitted w 0x2B s)))) ∧
  (∀ (w : Win) (v : Nat) (s : State), Passes w 0x2A s → v % 2 = 1 →
    exec (.jnlClrHwm w v) s = .next (setFld JNL_OCC_HWM s.io.journal.length (admitted w 0x2A s)))

/-- A host read's data without an error ends the read and counts its bytes: a write's data goes to its journal entry, a COMPARE's to its command, a
scatter list to the check of that list. A granted write's read that has been outstanding for its function's completion timeout is counted and
reported, and ends the entry's data as failed. A completion whose tag no read has is counted and reported as unexpected, for the function whose read
timed out where one did, and nothing else. Rests on R209, R266 to R268. -/
def Obligations.HostReadsEnd : Prop :=
  (∀ (port tag j : Nat) (bytes : List Byte) (h : HRead) (s : State), port < 2 → smGet s.io.hreads tag = some h → h.port = port → h.sent = true →
    h.late = false → fnLive s h.port h.func = true → h.why = .wdata j →
    exec (.hostReadCompletion port tag (.data bytes)) s = .next (ltrSync (fun t => pumpReads (hostData j bytes (updIo (fun i => { i with hreads := smDel i.hreads tag })
      (add64 (HEP_RD_LO_COUNT port) (HEP_RD_HI_COUNT port) ((h.runs.map Prod.snd).sum) (sendReqs tag h h.rest t))))) s)) ∧
  (∀ (tag j : Nat) (h : HRead) (s : State), smGet s.io.hreads tag = some h → h.sent = true → h.late = false → fnLive s h.port h.func = true →
    timerOut s h = true → h.why = .wdata j →
    exec (.completionTimeout tag) s = .next (ltrSync (fun t => pumpReads (hostDataBad j (updIo (fun i => { i with hreads := smDel i.hreads tag })
      (setEvt (0x10 + h.port) HEP_EVT_CPL_TMO (incFld (HEP_CTO_COUNT h.port) 1 (aerLog h.port h.func .completionTimeout
        (updIo (fun i => { i with expired := smSet i.expired tag h.func }) t))))))) s)) ∧
  (∀ (port tag : Nat) (r : HostRd) (s : State), port < 2 → smGet s.io.hreads tag = none →
    exec (.hostReadCompletion port tag r) s = .next (ltrSync (fun t =>
      setEvt (0x10 + port) HEP_EVT_LATE_CPL (incFld (HEP_LATE_COUNT port) 1 (aerLog port ((smGet s.io.expired tag).getD 0) .unexpectedCompletion
        (updIo (fun i => { i with expired := smDel i.expired tag }) t)))) s)) ∧
  (∀ (port tag n : Nat) (bytes : List Byte) (h : HRead) (s : State), port < 2 → smGet s.io.hreads tag = some h → h.port = port → h.sent = true →
    h.late = false → fnLive s h.port h.func = true →
    let ended := fun (t : State) => updIo (fun i => { i with hreads := smDel i.hreads tag })
      (add64 (HEP_RD_LO_COUNT port) (HEP_RD_HI_COUNT port) ((h.runs.map Prod.snd).sum) (sendReqs tag h h.rest t))
    (h.why = .cmp n → exec (.hostReadCompletion port tag (.data bytes)) s =
      .next (ltrSync (fun t => pumpReads (partDone n (updCmd n (fun y => { y with host := bytes }) (ended t)))) s)) ∧
    (h.why = .sgl n → exec (.hostReadCompletion port tag (.data bytes)) s =
      .next (ltrSync (fun t => pumpReads (sglArrived n (.data bytes) (ended t))) s)))

/-- What moves a journal entry on. DATA_STAGED: an entry with all its data, whose unread positions can be rebuilt, enters DATA_STAGED, or is marked
staged where it is in a group; the group's commit point then does the same for each of its entries and writes the atomic log where the group has one.
BURIN_JOB_END: an entry's job ends in the parity step, a stripe operation's in the step of its kind. COMMITTED: an entry whose strips and tags are
written becomes COMMITTED, its blocks leave the lost-block table, and the command's part is done; a CACHE entry whose data is staged commits to the
cache. An entry that may be freed is released. The last write of the atomic log, of a journal header and of a record block lets what waited on it go
on, and the copy of a journal member ends with a label update. Rests on R56, R57, Tables WRITE-5 and WRITE-6. -/
def Obligations.JournalEntriesMoveOn : Prop :=
  (∀ (j : Nat) (e : JEntry) (x : Plate) (s : State), j < 49152 → entryOf s j = some e → plateOf s e.seg.plate = some x → e.state = .opened →
    e.path = .stream → e.staged = false → entryReady s j e = true → e.seg.group = 0 → linkGate s e 1 = true →
    exec (.dataStaged j) s = .next (dataStaged j s)) ∧
  (∀ (j : Nat) (e : JEntry) (x : Plate) (s : State), j < 49152 → entryOf s j = some e → plateOf s e.seg.plate = some x → e.state = .opened →
    e.path ≠ .cache → e.staged = false → entryReady s j e = true →
    let blks := blkRange e.blkFirst e.blkLast
    let er := if e.forced || !e.recon then applyGen x.geom.k e.old blks e.erased else e.erased
    e.path = .stream ∨ (e.forced = true ∧ overErased x.geom blks er = []) ∨ (e.forced = false ∧ er = []) →
    (e.seg.group = 0 → linkGate s e 1 = true → exec (.dataStaged j) s = .next (dataStaged j s)) ∧
    (e.seg.group ≠ 0 → exec (.dataStaged j) s = .next (mirrorEntry j (updEntry j (fun y => { y with staged := true }) s)))) ∧
  (∀ (j : Nat) (h : JEntry) (s : State), j < 49152 → entryOf s j = some h → h.seg.group ≠ 0 → h.headIdx = j → h.state = .opened →
    ((groupEntries s h.seg.group).map (fun q => q.2.seg.wset.length)).sum = h.seg.gBlks →
    (groupEntries s h.seg.group).all (fun q => q.2.staged && linkGate s q.2 1) = true →
    let u := ((((groupEntries s h.seg.group).filter (fun q => decide (q.1 = j))) ++
        ((groupEntries s h.seg.group).filter (fun q => decide (q.1 ≠ j)))).foldl
      (fun t q => if q.2.path = .cache then cacheCommit q.1 t else dataStaged q.1 t)
      (updIo (fun i => { i with groups := smUpd i.groups h.seg.group { headIdx := j, unbacked := h.unbacked, path := h.path, slotsDue := 0, passed := true } (fun r => { r with slotsDue := 0, passed := true }) }) s))
    exec (.groupCommitPoint j) s = .next (if h.logged then ((groupEntries s h.seg.group).map (fun q => q.2.seg.plate)).eraseDups.foldl (fun t p =>
      match (groupEntries s h.seg.group).find? (fun q => decide (q.2.seg.plate = p)) with
      | some q => writeLog q.1 t
      | none => t) u else u)) ∧
  (∀ (j : Nat) (e : JEntry) (s : State), j < 49152 → entryOf s j = some e → e.logged = true → 2 ≤ jstateCode e.state →
    (∀ q ∈ s.io.nvme, ∀ i m, q.2.why = .log i m → ∀ r ∈ groupEntries s e.seg.group, r.2.seg.plate = e.seg.plate → r.1 ≠ i) →
    exec (.atomicLogWriteDone j) s = .next (((groupEntries s e.seg.group).filter (fun q => decide (q.2.seg.plate = e.seg.plate))).foldl
      (fun t q => updEntry q.1 (fun y => { y with logDone := true }) t) s)) ∧
  (∀ (id : Nat) (e : JEntry) (x : Plate) (s : State), entryOf s id = some e → plateOf s e.seg.plate = some x → e.state = .dataStaged → (e.seg.group = 0 ∨ 2 ≤ jstateCode (effState s e)) →
    e.logDone = true → onPipe s (.entry id) = true →
    exec (.burinJobEnd false id) s = .next (parityDone id (dropJob (.entry id) (pipeBytes e.pipe (entryPipeBytes x.geom e)
      (decide (e.seg.src = .lossFill)) (if e.path ≠ .destage ∧ e.seg.src = .host ∧ e.seg.cmd ≠ 0 then some e.tenant else none)
      (if e.path = .destage then updEntry id (fun y => { y with burBytes := y.burBytes + entryPipeBytes x.geom e }) s else s))))) ∧
  (∀ (id : Nat) (o : Sop) (s : State), sopOf s id = some o → o.phase = .reading → sopReads s id = 0 → onPipe s (.sop id) = true → repairHeld s o = false →
    let u := dropJob (.sop id) (pipeBytes o.pipe (4096 * o.grid.length) (match o.kind with | .recon _ _ => false | _ => true) o.ctx s)
    (o.kind = .rebuild → exec (.burinJobEnd true id) s = .next (rebuildDone id u)) ∧
    (o.kind = .proof → exec (.burinJobEnd true id) s = .next (proofChecked id u)) ∧
    (o.kind = .loss → exec (.burinJobEnd true id) s = .next (lossDone id u)) ∧
    (∀ c off, o.kind = .recon c off → exec (.burinJobEnd true id) s = .next (reconDone id c off u))) ∧
  (∀ (j : Nat) (e : JEntry) (x : Plate) (s : State), j < 49152 → entryOf s j = some e → e.path ≠ .cache → plateOf s e.seg.plate = some x → e.state = .parityDone →
    entryWritten x e = true →
    let ls := if e.path = .destage then e.slots.map (fun q => (q.1, ((smGet s.cache.slots q.2).map Slot.seq).getD 0)) else e.seg.wset.map (fun l => (l, e.seg.adm))
    let s1 := setJState j .committed s
    let s2 := if e.seg.src = .lossFill then s1 else delLost e.seg.plate e.seg.sn e.seg.wset s1
    let s3 := payOwed e (complete j true (flushed e.seg.plate e.seg.sn ls (deallocStrips x e (suspectCommit e.seg.plate e s2))))
    exec (.committed j) s = .next (if e.unbacked then writeRecords e.seg.plate (j / 32) s3 else s3)) ∧
  (∀ (j : Nat) (e : JEntry) (s : State), j < 49152 → entryOf s j = some e → e.path = .cache → e.state = .opened → e.seg.group = 0 → e.staged = true →
    exec (.committed j) s = .next (cacheCommit j s)) ∧
  (∀ (j : Nat) (e : JEntry) (s : State), j < 49152 → entryOf s j = some e → mayFree s j e = true → e.seg.src ≠ .lossFill →
    exec (.journalEntryFreed j) s = .next (purgeStep (resumeDeferred (releaseEntry j true (if e.path = .destage then shareDestage e s else s))))) ∧
  (∀ (p : Nat) (s : State), p < 64 → (∀ q ∈ s.io.nvme, ∀ m, q.2.why ≠ .header p m) →
    let t := refillRecords p (updJp p (fun y => { y with hdrWait := 0 }) s)
    exec (.journalHeaderWriteDone p) s = .next ((((plateOf t p).map (fun x => x.jp.dirty)).getD []).foldl (fun u b => writeRecords p b u) t)) ∧
  (∀ (p blk : Nat) (x : Plate) (s : State), p < 64 → blk < 1536 → plateOf s p = some x → x.jp.writing.any (fun q => decide (q.2 = blk)) = false → x.jp.hdrWait = 0 →
    let due := (plateEntries s p).filter (fun q => decide (q.1 / 32 = blk ∧ q.2.recStep = 2))
    let u := due.foldl (fun t q => recordsOn q.1 t) (due.foldl (fun t q => updEntry q.1 (fun e => { e with recStep := 3 }) t) s)
    exec (.journalRecordWriteDone p blk) s =
      .next (if (((plateOf u p).map (fun (y : Plate) => decide (blk ∈ y.jp.dirty))).getD false : Bool) then writeRecords p blk u else u)) ∧
  (∀ (p : Nat) (x : Plate) (s : State), p < 64 → plateOf s p = some x → x.jp.copying = true → x.jp.copyWait = 1 →
    (∀ q ∈ s.io.nvme, ∀ m, q.2.why ≠ .header p m ∧ q.2.why ≠ .remir p m) →
    exec (.remirrorCopyDone p) s = .next (startLabel p (setEvt 0x2A JNL_EVT_REMIRROR_DONE
      (updJp p (fun y => { y with a := if y.a.isSome then y.a else some (x.jp.copyTo, x.jp.copyGen),
                                  b := if y.a.isSome then some (x.jp.copyTo, x.jp.copyGen) else y.b, copying := false, copyWait := 0 }) s))))

/-- A differing beat is counted, raises SELFCHK and reports kind 0x07; a second one also reports kind 0x08, fences the pipe and moves its jobs. A
woken pipe is powered and not asleep. KAT_START on a pipe without jobs starts its test. The test passes exactly where there are 32 lanes and each
gives P = 0xD5 and Q = 0x67. Rests on R73, R74. -/
def Obligations.BurinPipesCheckThemselves : Prop :=
  (∀ (b : Nat) (s : State), b < 8 →
    exec (.burinBeatMismatch b false) s =
      .next (report 0x07 (0x30 + b) 0 (setEvt (0x30 + b) BUR_EVT_SELFCHK (incFld (BUR_SELFCHK_COUNT b) 1 s))) ∧
    exec (.burinBeatMismatch b true) s = .next (restartJobs b (report 0x08 (0x30 + b) 0 (setFld (PG_STAT_FENCED (0x30 + b)) 1
      (report 0x07 (0x30 + b) 0 (setEvt (0x30 + b) BUR_EVT_SELFCHK (incFld (BUR_SELFCHK_COUNT b) 1 s))))))) ∧
  (∀ (b : Nat) (s : State), b < 8 → b ∈ s.io.waking →
    ∃ t, exec (.burinPipeAwake b) s = .next t ∧ isSet t (BUR_STAT_POWERED b) = true ∧ isSet t (PG_STAT_ASLEEP (0x30 + b)) = false ∧
      t.io.waking = s.io.waking.filter (· ≠ b)) ∧
  (∀ (w : Win) (b : Nat) (s : State), b < 8 → Passes w (0x30 + b) s → pipeJobs s b = 0 →
    ∃ t, exec (.katStart w b) s = .next t ∧ getFld t (BUR_STAT_KAT b) = 3 ∧ isSet t (BUR_KAT_START b) = true) ∧
  (∀ (b : Nat) (lanes : List (Byte × Byte)) (s : State), b < 8 → getFld s (BUR_STAT_KAT b) = 3 →
    ∃ t, exec (.katDone b lanes) s = .next t ∧ isSet t (BUR_KAT_START b) = false ∧
      (getFld t (BUR_STAT_KAT b) = 1 ↔ lanes.length = 32 ∧ ∀ l ∈ lanes, l = (0xD5#8, 0x67#8)))

/-- A member's answer takes its request off those outstanding. A good write, read of blocks or read of a tag page counts its bytes and goes on with
what the request was for: a strip, a command's block, an old block, a stripe operation's block, a tag page's write; a bad write status goes to
`badStatus`. The last write of a lost-block table lets the stripe operation that lost the blocks go on, and a table that entries left is written.
Labels are written again once WRITE_SEQ has run 2^19 past the label's, not before. A label update's completion does what `labelDone` does. Rests on
R37, R68, R69, R77, R85, R92, R93. Where the spec leaves a choice, a clause states the model's own (notes/assumptions/30.md). -/
def Obligations.MemberAnswersAndLabelsGoOn : Prop :=
  (∀ (id : Nat) (c : NvCmd) (j pos : Nat) (s : State), smGet s.io.nvme id = some c → nvIssued s id = true → c.op ≠ .read → c.why = .strip j pos → devFenced s = false →
    exec (.memberWriteComplete id .ok) s = .next (stripDone j pos (hostBytes c (portOk c (endNv id s))))) ∧
  (∀ (id : Nat) (c : NvCmd) (st : Nvme) (s : State), smGet s.io.nvme id = some c → nvIssued s id = true → c.op ≠ .read → devFenced s = false →
    (∀ a b d, c.why ≠ .remote a b d) → (∀ a, c.why ≠ .resv a) →
    let u := endNv id s
    (st = .ok → exec (.memberWriteComplete id st) s = .next (writeOk c (hostBytes c (portOk c u)))) ∧
    (st ≠ .ok → exec (.memberWriteComplete id st) s = .next (badStatus c st u))) ∧
  (∀ (id key : Nat) (c : NvCmd) (tags : List Nat) (s : State), smGet s.io.nvme id = some c → nvIssued s id = true → c.why = .tagRd key →
    exec (.tagPageReadComplete id .ok tags) s = .next (tagWrite key (updTagBuf key (fun b =>
      { b with loaded := true, reading := false, tags := (List.range 512).zip (tags ++ List.replicate 512 0) })
      (readTimed c (portOk c (endNv id s)))))) ∧
  (∀ (id key : Nat) (c : NvCmd) (b : TagBuf) (s : State), smGet s.io.nvme id = some c → nvIssued s id = true → c.why = .tagWr key → tagBufOf s key = some b → b.due = [] →
    b.inWrite = [] →
    exec (.tagWriteComplete id .ok) s = .next (portOk c (updIo (fun i => { i with tagBufs := smDel i.tagBufs key })
      (endNv id s)))) ∧
  (∀ (id n off : Nat) (c : NvCmd) (blks : List TBlk) (s : State), smGet s.io.nvme id = some c → nvIssued s id = true → c.op = .read → c.why = .cmdRd n off → devFenced s = false →
    let t := readTimed c (hostBytes c (portOk c (endNv id s)))
    exec (.memberReadComplete id .ok blks) s = .next (memberAnswer c n off (checkTags c blks t).2 (checkTags c blks t).1)) ∧
  (∀ (id i pos : Nat) (c : NvCmd) (blks : List TBlk) (s : State), smGet s.io.nvme id = some c → nvIssued s id = true → c.op = .read → devFenced s = false →
    let t := readTimed c (hostBytes c (portOk c (endNv id s)))
    (c.why = .old i pos → exec (.memberReadComplete id .ok blks) s = .next (oldAnswer c i pos (checkTags c blks t).2 (checkTags c blks t).1)) ∧
    (c.why = .sopRd i pos → exec (.memberReadComplete id .ok blks) s = .next (sopAnswer c i pos (checkTags c blks t).2 (checkTags c blks t).1))) ∧
  (∀ (id : Nat) (o : Sop) (x : Plate) (s : State), sopOf s id = some o → plateOf s o.plate = some x → o.phase = .listing →
    (∀ q ∈ s.io.nvme, ∀ m, q.2.why ≠ .lbt o.plate m) →
    exec (.lbtWriteDone id) s = .next (sopCheck id (updSop id (fun y => { y with phase := .writing, lost := [], mark := true })
      (updIo (fun i => { i with queue := i.queue ++ lossSegs x o }) s)))) ∧
  (∀ (p : Nat) (x : Plate) (s : State), p < 64 → plateOf s p = some x → x.lbtDirty = true →
    exec (.lbtRemovalWrite p) s = .next (writeLbt p s)) ∧
  (∀ (p : Nat) (x : Plate) (s : State), p < 64 → plateOf s p = some x → x.labelBusy = false → x.seqBase + 2 ^ 19 ≤ x.seqNo →
    exec (.writeSeqLabelRewrite p) s = .next (startLabel p s)) ∧
  (∀ (p : Nat) (x : Plate) (s : State), p < 64 → plateOf s p = some x → x.seqNo < x.seqBase + 2 ^ 19 → exec (.writeSeqLabelRewrite p) s = .next s) ∧
  (∀ (p : Nat) (s : State), p < 64 → (labelDone p s).link.held = [] → exec (.labelUpdateComplete p) s = .next (labelDone p s))

/-- Each operation of a plate's command register, from the state in which the register holds it: FAIL_MEMBER of a member that is not failed or missing
fails it; REPLACE with a namespace that passes its checks accepts it; START_PASS and PAUSE_PASS clear and set the pass's hold; RECOVER clears
FAILED_LATCH where fewer than three members are lost; RELEASE of a foreign namespace that is no vault target writes zeros over both labels, takes the
namespace off the foreign plates, and ends with OK; IMPORT of a foreign plate whose owner holds no lease here and whose members are all readable makes
it this node's plate at a free index and takes it off the foreign ones. Rests on R94, R98, R100, R107, R110 to R112, R467. Where the spec leaves a
choice, a clause states the model's own (notes/assumptions/25.md). -/
def Obligations.PlateOperationsAct : Prop :=
  (∀ (w : Win) (p slot : Nat) (x : Plate) (s : State), p < 64 → Passes w (0x40 + p) s → mayInstall s w = true → isSet s (PLT_CMD_GO p) = false →
    plateOf s p = some x → slot % 128 < x.geom.n → slot % 128 ∉ x.membersIn [.missing, .failed] →
    exec (.failMember w p slot) s = .next (pltEnd p .ok (failMember p (slot % 128) .failed
      (loaded w (0x40 + p) (PLT_CMD_OP p) 1 [(PLT_CMD_MEMBER p, slot)] (PLT_CMD_GO p) (PLT_CMD_RES_DONE p) s)))) ∧
  (∀ (w : Win) (p slot : Nat) (x : Plate) (n : Ns) (s : State), p < 64 → Passes w (0x40 + p) s → mayInstall s w = true → isSet s (PLT_CMD_GO p) = false →
    let t := loaded w (0x40 + p) (PLT_CMD_OP p) 2 [(PLT_CMD_MEMBER p, slot)] (PLT_CMD_GO p) (PLT_CMD_RES_DONE p) s
    let port := getFld t (PLT_CMD_PORT_PORT p)
    let nsid := getFld t (PLT_CMD_NSID_NSID p)
    plateOf t p = some x → slot % 128 < x.geom.n → portState t port = 4 → nsOf t port nsid = some n → unassigned t port nsid none = true →
    (x.mem (slot % 128)).map (fun y => decide (y.failSeq ≠ 0 ∧ y.node = nodeId t ∧ y.port = port ∧ y.nsid = nsid)) = some false →
    x.failSeqOf (slot % 128) ≠ 0 → x.used ≤ n.bytes → n.lbaOk = true →
    (∀ i y, i ≠ slot % 128 → x.mem i = some y → some y.driveKey ≠ (dport t port).map DPort.key) →
    exec (.replace w p slot) s = .next (replaceAccept p (slot % 128) port nsid true t)) ∧
  (∀ (w : Win) (p : Nat) (x : Plate) (s : State), p < 64 → Passes w (0x40 + p) s → mayInstall s w = true → isSet s (PLT_CMD_GO p) = false →
    plateOf s p = some x → x.membersIn [.spareHeld] = [] →
    exec (.startPass w p) s = .next (pltEnd p .ok (passStart p (updPlate p (fun y => { y with pass := { y.pass with paused := false } })
      (loaded w (0x40 + p) (PLT_CMD_OP p) 3 [] (PLT_CMD_GO p) (PLT_CMD_RES_DONE p) s))))) ∧
  (∀ (w : Win) (p : Nat) (x : Plate) (s : State), p < 64 → Passes w (0x40 + p) s → mayInstall s w = true → isSet s (PLT_CMD_GO p) = false →
    plateOf s p = some x →
    exec (.pausePass w p) s = .next (pltEnd p .ok (updPlate p (fun y => { y with pass := { y.pass with paused := true } })
      (loaded w (0x40 + p) (PLT_CMD_OP p) 4 [] (PLT_CMD_GO p) (PLT_CMD_RES_DONE p) s)))) ∧
  (∀ (w : Win) (p : Nat) (x : Plate) (s : State), p < 64 → Passes w (0x40 + p) s → mayInstall s w = true → isSet s (PLT_CMD_GO p) = false →
    plateOf s p = some x → x.u < 3 → x.latch = true →
    exec (.recover w p) s = .next (pltEnd p .ok (refreshPlate p (updPlate p (fun y => { y with latch := false })
      (loaded w (0x40 + p) (PLT_CMD_OP p) 6 [] (PLT_CMD_GO p) (PLT_CMD_RES_DONE p) s))))) ∧
  (∀ (w : Win) (p : Nat) (s : State), p < 64 → Passes w (0x40 + p) s → mayInstall s w = true → isSet s (PLT_CMD_GO p) = false →
    let t := loaded w (0x40 + p) (PLT_CMD_OP p) 7 [] (PLT_CMD_GO p) (PLT_CMD_RES_DONE p) s
    let port := getFld t (PLT_CMD_PORT_PORT p)
    let nsid := getFld t (PLT_CMD_NSID_NSID p)
    portState t port = 4 → isForeignNs t port nsid = true → isVaultNs t port nsid = false →
    let wipe := fun lba (u : State) => sendNv { plate := 64, mem := 0, node := nodeId t, port := port, nsid := nsid, sn := 0, pos := 0, op := .write,
                                                lba := lba, n := 1, data := zeros 4096, why := .other, tries := 0 } u
    exec (.release w p) s = .next (pltEnd p .ok (updStore (fun u => { u with foreigns := (u.foreigns.map (fun f =>
        { f with spots := f.spots.filter (fun q => !decide (q.1 = port ∧ q.2.1 = nsid)) })).filter (fun f => decide (f.spots ≠ [])) })
      (updNs port nsid (fun n => { n with genA := none, genB := none, plateId := 0, foreign := false }) (wipe 128 (wipe 0 t)))))) ∧
  (∀ (w : Win) (p : Nat) (md : PlateMedia) (f0 : Foreign) (s : State), p < 64 → Passes w (0x40 + p) s → mayInstall s w = true →
    isSet s (PLT_CMD_GO p) = false →
    let t := loaded w (0x40 + p) (PLT_CMD_OP p) 5 [] (PLT_CMD_GO p) (PLT_CMD_RES_DONE p) s
    let f := governed f0 (md.mems.filterMap mediaLabel)
    let slots := importSlots f md t
    plateOf s p = none → t.store.foreigns.find? (fun g => decide (g.id = md.plateId)) = some f0 →
    t.store.plates.any (fun q => decide (q.2.id = f.id)) = false → smGet t.link.leased (leAt f.label 0x38 2) = none → assemblyFails slots = [] →
    exec (.importPlate w p md) s = .next (resumeCycle p (sendClaims p (startLabel p (importStrays f slots (dropTagCache p (fun _ => true) (mediaRecords p (readableSlots slots) md
      (setFld (PG_STAT_READY (0x40 + p)) 1 (updStore (fun u => { u with
        plates := smSet u.plates p (importedPlate p f md t), foreigns := u.foreigns.filter (fun g => decide (g.id ≠ f.id)) }) t)))))))))

/-- With AUTO_REBUILD and no hold, PASS_START does what `passStart` does. A step starts on the next stripe that is not at the target, takes its charge
from the budget, and asks for the stripe. A step whose writes are done marks its stripe as at the target, moves the cursor past it and counts its
bytes. A slice's end sets the next slice and its budget; one that ends late is counted. A due progress record is appended to the flash log; one that
cannot be written raises CKPT_ERR and keeps the pass's window; where none is due nothing changes. PAUSE_ALL of the rebuild page and of the Proof page
takes bit 0 of the value written. Rests on R100 to R106. -/
def Obligations.PassesWalkTheirStripes : Prop :=
  (∀ (p : Nat) (x : Plate) (s : State), p < 64 → plateOf s p = some x → isSet s (PLT_CFG_AUTO_REBUILD p) = true → passHeld s p x = false →
    exec (.passStart p) s = .next (passStart p s)) ∧
  (∀ (p sn : Nat) (x : Plate) (s : State), p < 64 → plateOf s p = some x → x.pass.tgt = x.target → x.pass.running = true → passHeld s p x = false →
    let busy := (stepsOf s p).map (fun q => q.2.sn)
    let y := walkPast busy x.stripes x
    let o : Sop := { kind := .rebuild, plate := p, sn := sn, first := 0, last := y.geom.bps - 1, phase := .lock, grid := [], erased := [], tagBad := [],
                     lost := [], waits := 0, pipe := 8, tagWaits := 0, charge := 0, mark := false, fix := [], located := [], full := false }
    y.pass.tgt = y.target → nextStep y busy y.stripes y.pass.cursor = some sn → stepCharge y o ≤ y.pass.budget →
    (s.io.sops.filter (fun q => decide (q.2.kind = .rebuild))).length < getFld s RBD_CFG_STEPS_MAX →
    exec (.rebuildStepStart p) s = .next (newSop .rebuild p sn 0 (y.geom.bps - 1) (stepCharge y o)
      (updPlate p (fun z => { z with pass := { z.pass with budget := z.pass.budget - stepCharge y o } }) (updPlate p (fun _ => y) s)))) ∧
  (∀ (id : Nat) (o : Sop) (x : Plate) (s : State), sopOf s id = some o → plateOf s o.plate = some x → o.kind = .rebuild → o.phase = .writing →
    sopBusy s id = false → lossPending s o = false → x.pass.cursor = o.sn →
    let x2 : Plate := { x with
      ranges := realiseAt x o.sn x.pass.tgt
      pass := { x.pass with cursor := if o.sn + 1 < x.stripes then o.sn + 1 else 0, walked := x.pass.walked + 1, window := x.pass.window ++ [(o.sn, x.realised o.sn)] } }
    let s1 := add64 RBD_BYTES_LO_COUNT RBD_BYTES_HI_COUNT o.charge (sopEnd id (updPlate o.plate (fun _ => x2) s))
    exec (.rebuildStepDone id) s = .next (passEnd o.plate (refreshPlate o.plate (updPlate o.plate
      (fun y => walkPast ((stepsOf s1 o.plate).map (fun q => q.2.sn)) y.stripes y) s1)))) ∧
  (∀ (p : Nat) (x : Plate) (s : State), p < 64 → plateOf s p = some x → recordDueNow s x = true → x.attached = false →
    exec (.progressRecord p true) s = .next (updPlate p (fun y =>
      { y with pass := { y.pass with recSeq := y.pass.recSeq + 1, walked := 0, window := [], ckpt := y.pass.cursor, recAt := nowS s } })
      (progAppend (passRecord p x) s))) ∧
  (∀ (p : Nat) (x : Plate) (s : State), p < 64 → plateOf s p = some x → x.pass.running = true → stepsOf s p = [] → 0 < x.pass.len →
    let pos := x.pass.pos + x.pass.len
    let len := nextSlice (getFld s RBD_CFG_SLICE_US) pos
    let b := passBase s p x len (x.pass.hostBw * 1000000 / x.pass.len) + min x.pass.budget (x.geom.w * x.geom.s)
    exec (.rebuildSliceEnd p x.pass.len) s = .next (setFld (PLT_BUDGET_BYTES p) (min b (2 ^ 32 - 1))
      (updPlate p (fun y => { y with pass := { y.pass with pos := pos, len := len, budget := b, hostBw := 0 } }) s))) ∧
  (∀ (p lenUs : Nat) (x : Plate) (s : State), p < 64 → plateOf s p = some x → x.pass.running = true → stepsOf s p = [] → x.pass.len < lenUs →
    ∃ t, exec (.rebuildSliceEnd p lenUs) s = .next t ∧ getFld t RBD_LATE_COUNT = (getFld s RBD_LATE_COUNT + 1) % 2 ^ RBD_LATE_COUNT.width) ∧
  (∀ (p : Nat) (x : Plate) (s : State), p < 64 → plateOf s p = some x → recordDueNow s x = true →
    exec (.progressRecord p false) s = .next (setEvt 0x39 RBD_EVT_CKPT_ERR
      (updPlate p (fun y => { y with pass := { y.pass with walked := 0, recAt := nowS s } }) s))) ∧
  (∀ (p : Nat) (ok : Bool) (x : Plate) (s : State), p < 64 → plateOf s p = some x → recordDueNow s x = false → exec (.progressRecord p ok) s = .next s) ∧
  (∀ (w : Win) (v : Nat) (s : State), Passes w 0x39 s → mayInstall s w = true →
    ∃ t, exec (.rbdPauseAll w v) s = .next t ∧ getFld t RBD_CTL_PAUSE_ALL = v % 2 ∧ t.io = s.io ∧ t.store = s.store ∧ t.out = s.out ∧ t.flash = s.flash) ∧
  (∀ (w : Win) (v : Nat) (s : State), Passes w 0x38 s → mayInstall s w = true →
    ∃ t, exec (.prfPauseAll w v) s = .next t ∧ getFld t PRF_CTL_PAUSE_ALL = v % 2)

/-- With AUTO, a cycle that is due starts with its deadline PERIOD_DAYS away and its cursor kept; START_CYCLE starts one where none runs; PAUSE and
RESUME set and clear the plate's hold. A slice's end sets the next slice and its budget. A deadline that passes while the cycle runs marks it overdue,
raises OVERDUE and makes a record. A due progress record of a cycle that is not suspended, of a plate without a standby, is appended to the flash log;
where none is due nothing changes. Rests on R116 to R118, R129, R130, R132. -/
def Obligations.ProofCyclesRun : Prop :=
  (∀ (p : Nat) (x : Plate) (s : State), p < 64 → plateOf s p = some x → isSet s PRF_CFG_AUTO = true → cycleDue s x = true →
    ∃ t y, exec (.proofCycleStart p) s = .next t ∧ plateOf t p = some y ∧ y.cycle.running = true ∧ y.cycle.startAt = (nowS s : Int) ∧
      y.cycle.deadline = nowS s + getFld s PRF_CFG_PERIOD_DAYS * 86400 ∧ y.cycle.cursor = x.cycle.cursor) ∧
  (∀ (w : Win) (p : Nat) (x : Plate) (s : State), p < 64 → Passes w 0x38 s → mayInstall s w = true → isSet s PRF_CMD_GO = false →
    plateOf s p = some x → x.cycle.running = false →
    exec (.startCycle w p) s = .next (prfEnd .ok (cycleStart p (loaded w 0x38 PRF_CMD_OP 1 [(PRF_CMD_PLATE, p)] PRF_CMD_GO PRF_CMD_RES_DONE s)))) ∧
  (∀ (w : Win) (p : Nat) (x : Plate) (s : State), p < 64 → Passes w 0x38 s → mayInstall s w = true → isSet s PRF_CMD_GO = false → plateOf s p = some x →
    exec (.proofPause w p) s = .next (prfEnd .ok (cycleSync p (updPlate p (fun z => { z with cycle := { z.cycle with pausedBy := true } })
      (loaded w 0x38 PRF_CMD_OP 2 [(PRF_CMD_PLATE, p)] PRF_CMD_GO PRF_CMD_RES_DONE s)))) ∧
    exec (.proofResume w p) s = .next (prfEnd .ok (cycleSync p (updPlate p (fun z => { z with cycle := { z.cycle with pausedBy := false } })
      (loaded w 0x38 PRF_CMD_OP 3 [(PRF_CMD_PLATE, p)] PRF_CMD_GO PRF_CMD_RES_DONE s))))) ∧
  (∀ (p : Nat) (x : Plate) (s : State), p < 64 → plateOf s p = some x → x.cycle.running = true →
    s.io.sops.any (fun q => decide (q.2.plate = p ∧ q.2.kind = .proof)) = false → 0 < x.cycle.len →
    let pos := x.cycle.pos + x.cycle.len
    let len := nextSlice (getFld s PRF_SLICE_SLICE_US) pos
    exec (.proofSliceEnd p x.cycle.len) s = .next (updPlate p (fun z => { z with cycle := { x.cycle with
      pos := pos, len := len, hostBw := 0,
      budget := cycleBase s p x x.cycle len (x.cycle.hostBw * 1000000 / x.cycle.len) + min x.cycle.budget (x.geom.w * x.geom.s) } }) s)) ∧
  (∀ (p : Nat) (x : Plate) (s : State), p < 64 → plateOf s p = some x → x.cycle.running = true → x.cycle.suspended = false → x.cycle.overdue = false →
    x.cycle.deadline ≤ nowS s →
    exec (.proofDeadlinePassed p) s = .next (sketchEvt 0x38 PRF_EVT_OVERDUE 2 (setEvt 0x38 PRF_EVT_OVERDUE
      (updPlate p (fun z => { z with cycle := { z.cycle with overdue := true } }) s)))) ∧
  (∀ (p : Nat) (x : Plate) (s : State), p < 64 → plateOf s p = some x → proofRecordDue s x.cycle = true → x.cycle.suspended = false → x.attached = false →
    exec (.proofProgressRecord p) s = .next (progAppend (progBytes 1 p 0 (x.cycle.recSeq + 1) x.id x.labelGen x.cycle.cursor (x.cycle.deadline - nowS s)
      (b2n x.cycle.running + 2 * b2n (x.cycle.running && x.cycle.suspended)) [] []) (updPlate p (fun z =>
        { z with cycle := { z.cycle with recSeq := x.cycle.recSeq + 1, recAt := some (nowS s), endDue := false } }) s))) ∧
  (∀ (p : Nat) (x : Plate) (s : State), p < 64 → plateOf s p = some x → proofRecordDue s x.cycle = false → exec (.proofProgressRecord p) s = .next s)

/-- A unit of the next stripe starts with its bytes taken from the budget, where the budget and UNITS_MAX allow it. A unit whose tags are consistent
and whose blocks are all clean goes on to write nothing but the syndromes its generation rows erased. A changed suspect list goes to flash as a sealed
copy. CLEAR_SUSPECT removes the entry at PRF_SSEL. Rests on R119, R121 to R123, R125, R128, R129, R132, R134, R412. Where the spec leaves a choice, a
clause states the model's own (notes/assumptions/35.md, notes/assumptions/36.md). -/
def Obligations.ProofUnitsRun : Prop :=
  (∀ (p sn u : Nat) (x : Plate) (s : State), p < 64 → plateOf s p = some x → x.cycle.running = true → proofHeld s p x = false →
    let all := s.io.sops.filter (fun q => decide (q.2.kind = .proof))
    let busy := (all.filter (fun q => decide (q.2.plate = p))).map (fun q => q.2.sn)
    let c := x.geom.w * unitBlks x * 4096
    all.length < getFld s PRF_SLICE_UNITS_MAX → c ≤ x.cycle.budget →
    nextUnit x busy (busy.length + x.cycle.units.length + 1) x.cycle.cursor = some (sn, u) →
    exec (.proofUnitStart p) s = .next (newSop .proof p sn (u * unitBlks x) (u * unitBlks x + unitBlks x - 1) c
      (updPlate p (fun z => { z with cycle := { z.cycle with budget := z.cycle.budget - c } }) s))) ∧
  (∀ (id : Nat) (o : Sop) (x : Plate) (s : State), sopOf s id = some o → plateOf s o.plate = some x → o.kind = .proof → o.phase = .burin →
    (∀ b ∈ blkRange o.first o.last, proofTagBad x.geom.k o.grid o.erased b = [] ∧
      proofVerdict x o.grid (applyGen x.geom.k o.grid (blkRange o.first o.last) o.erased) b = .clean) →
    exec (.proofUnitDone id) s = .next (sopCheck id (loseBlocks id (sopWrite id [] (x.homeOf o.sn) (unitClears o.plate o.sn (blkRange o.first o.last)
      (updSop id (fun y => { y with phase := .writing, fix := [], located := [], lost := [],
                                    erased := applyGen x.geom.k o.grid (blkRange o.first o.last) o.erased,
                                    grid := fixGrid x.geom.k o.grid (applyGen x.geom.k o.grid (blkRange o.first o.last) o.erased) [] }) s)))))) ∧
  (∀ (s : State), s.store.suspDirty = true →
    exec .suspectListWrite s = .next (updStore (fun t => { t with suspDirty := false })
      (listWrite magicSusp (cfgOff 0x2A0000) (cfgOff 0x2C0000) s.store.suspects.length (suspectList s) s))) ∧
  (∀ (w : Win) (e : Suspect) (s : State), Passes w 0x38 s → mayInstall s w = true → isSet s PRF_CMD_GO = false →
    s.store.suspects[getFld s PRF_SSEL_INDEX]? = some e →
    exec (.clearSuspect w) s = .next (prfEnd .ok (delSuspect (((s.store.plates.find? (fun q => decide (q.2.id = e.plateId))).map Prod.fst).getD 64) e
      (loaded w 0x38 PRF_CMD_OP 4 [] PRF_CMD_GO PRF_CMD_RES_DONE s))))

/-- While fewer than DESTAGE_MAX are in flight, the eligible stripe that `destageNext` names is presented as one DESTAGE segment of its dirty blocks.
A partner that does not acknowledge in time is suspended. PMIR_RESUME sends a current slot that was not yet copied, and with no slot left to copy
mirrors to the partner again and raises PMIR_BACK. The dirty ceiling is the smaller of what energy and the time bound allow, and 0 where the vault is
not ready or unbacked mode is forced. Unbacked mode is left once the bound is above its level, and write-through mode ends when no channel is down.
Rests on R142 to R145, R147, R149, R153. -/
def Obligations.CacheFollowsItsBounds : Prop :=
  (∀ (x : Slot) (s : State), destagesInFlight s < getFld s CCH_CFG_DESTAGE_MAX → destageNext s = some x →
    ∃ t, exec .destageStart s = .next t ∧ ∃ g, t = updIo (fun i => { i with queue := i.queue ++ [g] }) s ∧ g.src = .destage ∧ g.plate = x.plate ∧ g.sn = x.sn ∧
      g.wset = (dirtyOf s x.plate x.sn).map Prod.fst) ∧
  (∀ (m j node : Nat) (s : State), smGet s.cache.pmirWait m = some (node, j) → node ∉ s.cache.pmirOff →
    exec (.pmirTimeout m) s = .next (pmirSuspend node s) ∧ node ∈ (pmirSuspend node s).cache.pmirOff) ∧
  (∀ (node : Nat) (s : State), node < 512 → node ∈ s.cache.pmirOff → pmirPlates s node ≠ [] → pmirSlots s node = [] →
    exec (.pmirResume node) s = .next (setEvt 0x28 CCH_EVT_PMIR_BACK (pmirShow ((pmirPlates s node).foldl
      (fun t p => updPlate p (fun x => { x with mirrorOn := true }) t) (updCache (fun t => { t with
        pmirOff := t.pmirOff.filter (· ≠ node), pmirCopy := t.pmirCopy.filter (fun q => decide (q.2.1 ≠ node)),
        pmirDone := t.pmirDone.filter (fun q => decide (q.1 ≠ node)) }) s))))) ∧
  (∀ (node : Nat) (q : Nat × Slot) (s : State), node < 512 → pmirSlots s node = [q] → (node, q.1, q.2.seq) ∉ s.cache.pmirDone →
    s.cache.pmirCopy.any (fun r => decide (r.2 = (node, q.1, q.2.seq))) = false →
    (∃ t, exec (.pmirResume node) s = .next (pmirReady node t) ∧ t = sendMsg node .mirrorWrite (s.cache.nextMir % 2 ^ 32) (q.1 + q.2.plate * 2 ^ 32) 0
      (dirEntry s q ++ slice q.2.data 0 4096) (updCache (fun c =>
        { c with nextMir := s.cache.nextMir + 1, pmirCopy := smSet c.pmirCopy s.cache.nextMir (node, q.1, q.2.seq) }) s))) ∧
  (∀ (s : State), ∃ t, exec .dirtyCeilRecompute s = .next t ∧
    t.cache.ceil = if isSet s VLT_STAT_READY && !isSet s CCH_CFG_FORCE_UNBACKED then
        boundSlots (min (energyBound s).2 ((getFld s CCH_TIME_TIME_MS * 1000 - fixedUs s) * vaultRate s)) else 0) ∧
  (∀ (s : State), unbackedNow s = true → s.cache.above = true → exec .backedModeReturn s = .next (leaveUnbacked s)) ∧
  (∀ (s : State), isSet s CCH_MODE_WRITE_THROUGH = true → (∀ c ∈ [0, 1, 2, 3], dmcDown s c = false ∧ isSet s (DMC_CMD_GO c) = false) →
    ∃ t, exec .writeThroughEnd s = .next t ∧ isSet t CCH_MODE_WRITE_THROUGH = false ∧ t.cache.copying = [] ∧
      getFld t (PG_EVT_EVT 0x28) = getFld s (PG_EVT_EVT 0x28) ||| 2 ^ CCH_EVT_WT_OFF)

/-- A changed lost-write list goes to flash as a sealed copy. CLEAR_LOST of a volume with entries takes them off the list, keeping the others, and
ends with OK. CACHE_FLUSH with nothing dirty ends with OK, and with dirty blocks holds exactly those to wait for. Rests on R163 to R165. -/
def Obligations.LostWritesAndFlush : Prop :=
  (∀ (s : State), s.store.lostwDirty = true →
    exec .lostWriteListWrite s = .next (updStore (fun t => { t with lostwDirty := false })
      (listWrite magicLostW (cfgOff 0x200000) (cfgOff 0x250000) s.store.lostw.length (lostwList s) s))) ∧
  (∀ (w : Win) (vol : Nat) (s : State), Passes w 0x28 s → mayInstall s w = true → isSet s CCH_CMD_GO = false → vol < 2 ^ CCH_CMD_VOLUME.width →
    s.store.lostw.any (fun e => decide (e.vol = vol)) = true → s.store.lostw.any (fun e => decide (e.vol ≠ vol)) = true →
    exec (.clearLost w vol) s = .next (cchEnd .ok (updStore (fun t => { t with lostw := s.store.lostw.filter (fun e => decide (e.vol ≠ vol)), lostwDirty := true })
      (loaded w 0x28 CCH_CMD_OP 2 [(CCH_CMD_VOLUME, vol)] CCH_CMD_GO CCH_CMD_RES_DONE s)))) ∧
  (∀ (w : Win) (s : State), Passes w 0x28 s → mayInstall s w = true → isSet s CCH_CMD_GO = false →
    let t := loaded w 0x28 CCH_CMD_OP 1 [] CCH_CMD_GO CCH_CMD_RES_DONE s
    let ks := (t.cache.slots.filter (fun q => decide (q.2.state = .dirty) || decide (q.2.state = .destaging))).map (fun q => (q.2.plate, q.2.sn, q.2.lin, q.2.seq))
    exec (.cacheFlush w) s = .next (if ks = [] then cchEnd .ok t else updCache (fun c => { c with flush := some ks }) t))

/-- CHECK tests the vault targets and ends with OK. A pack voltage below 1,100 mV braces a supervised device, and one above 1,140 mV ends it. BACKUP
with data to dump starts the dump and enters BACKUP. A chunk that ends lets the next ones go, and the last one ends the dump. In P7 ASSEMBLY assembles
the plates, tests the vault and begins replay; the end of the wait for plates runs replay. Rests on R110, R155, R156, R160, R166, Sequences CACHE-1
and CACHE-2. Where the spec leaves a choice, a clause states the model's own (notes/assumptions/40.md, notes/assumptions/91.md). -/
def Obligations.VaultDumpsAndReplays : Prop :=
  (∀ (w : Win) (ok1 ok2 : Bool) (rate : Nat) (s : State), Passes w 0x29 s → mayInstall s w = true → isSet s VLT_CMD_GO = false →
    exec (.check w ok1 ok2 rate) s = .next (cmdEnd VLT_CMD_GO VLT_CMD_RES_STATUS VLT_CMD_RES_DONE .ok
      (vaultTest ok1 ok2 rate (loaded w 0x29 VLT_CMD_OP 1 [] VLT_CMD_GO VLT_CMD_RES_DONE s)))) ∧
  (∀ (mv : Nat) (s : State), supervised s = true → isSet s PWR_STAT_BRACED = false → mv < 1100 →
    ∃ t, exec (.brace mv) s = .next t ∧ isSet t PWR_STAT_BRACED = true ∧ isSet t CCH_MODE_BRACED = true) ∧
  (∀ (mv : Nat) (s : State), supervised s = true → isSet s PWR_STAT_BRACED = true → 1140 < mv →
    ∃ t, exec (.braceEnd mv) s = .next t ∧ isSet t PWR_STAT_BRACED = false ∧ isSet t CCH_MODE_BRACED = false) ∧
  (∀ (pf good : Bool) (s : State), getFld s PWR_STAT_STATE = 0 → s.pwr.due = none →
    let t := setFlag PWR_STAT_PWRFAIL pf (learnDq 5 (updPwr (fun p => { p with stby := 0, exit := false }) s))
    dumpOk t = true → isSet t BEM_STAT_RESTWIN = false → t.cache.dumping = false →
    exec (.backupEntry pf good) s = .next (setPower 4 (dropLinks (startDump (if pf then 0 else 1) 16 t)))) ∧
  (∀ (id c : Nat) (good : Bool) (q : NvCmd) (s : State), smGet s.io.nvme id = some q → nvIssued s id = true → q.why = .vault c → s.cache.dumping = true →
    let u := endNv id s
    let t := chunkIssue 64 (if c ∈ chunksOut u then u else updCache (fun d => { d with dumpLeft := d.dumpLeft - 1 }) u)
    exec (.vaultChunkDone id good) s = .next (if chunksOut t = [] then dumpEnd good t else t)) ∧
  (∀ (found : List FoundNs) (media : List PlateMedia) (v : VaultRead) (s : State), getFld s CHIP_DEV_STAT_PHASE = 7 → devReady s = false → s.cache.replay < 2 →
    let t := vaultTest v.ok1 v.ok2 v.rate (assemble found media (updCache (fun c =>
      { c with image := c.image.map (fun im => { im with flags := im.flags / 2 * 2 + b2n (replayedOf im v) }) }) s))
    exec (.assembly found media v) s = .next (replayBegin ((t.cache.image.map (fun im => badOf im v)).getD []) t)) ∧
  (∀ (s : State), s.cache.replay = 1 → exec .replayAsmWaitExpiry s = .next (replayRun s))

/-- A sample outside hibernation, and a hibernation's sample set, do what `bemSample` does with their codes. A rest reading at rest with a good table
and no valid state of charge before it sets the state of charge from the table, confidence to 100 and the days without rest to 0. A load step of at
least C/20 with no rise of the voltage sets its band's internal resistance, at least 1 and at most 65,535 mOhm. Rests on R171 to R176, R183. -/
def Obligations.BemReadsThePack : Prop :=
  (∀ (us i : Nat) (v t : Option Nat) (s : State), getFld s BEM_STAT_STATE ≠ 2 → exec (.bemSample us i v t) s = .next (bemSample us i v t s)) ∧
  (∀ (us i v t : Nat) (s : State), getFld s BEM_STAT_STATE = 2 → exec (.bemHibernateWake us i v t) s = .next (bemSample us i (some v) (some t) s)) ∧
  (∀ (s : State), isSet s BEM_STAT_PRESENT = true → s.bem.ma ≤ getFld s BEM_REST_REST_MA → -(getFld s BEM_REST_REST_MA : Int) ≤ s.bem.ma →
    tableBad s = false → isSet s BEM_SOC_VALID = false → isSet s BEM_STAT_RESTWIN = false → getFld s BEM_LEARN_PHASE = 0 →
    exec .restReading s = .next (boundUpdate (setEvt 7 BEM_EVT_REST_READ (setFld BEM_CONF_DAYS_NO_REST 0 (setConf 100
      (setSoc (ocvLookup s (getFld s BEM_MEAS_V_PACK_MV / max 1 (getFld s BEM_CFG_CELLS) : Nat)) 1 (setFld BEM_STAT_COLD 0 (setFld BEM_STAT_REST 1
        (updBem (fun b => { b with cap80 := false, estDue := false, restOp := opMin s }) s)))))))) ) ∧
  (∀ (mv band : Nat) (ma : Int) (s : State), s.bem.step = some (mv, ma, band) → 0 < ma - s.bem.ma → (getFld s BEM_Q_LEARN_MAH : Int) ≤ (ma - s.bem.ma) * 20 →
    getFld s BEM_MEAS_V_PACK_MV ≤ mv →
    exec .rintMeasure s = .next (boundUpdate (updBem (fun b => { b with due := true }) (setFld (BEM_RINT_MOHM band)
      (max 1 (min 65535 (((mv : Int) - getFld s BEM_MEAS_V_PACK_MV) * 1000 / (ma - s.bem.ma)).toNat)) (updBem (fun b => { b with step := none }) s)))))

/-- A day boundary from the seventh day without rest on lowers a confidence above 50 by one and tries to open the rest window; a window that runs out
closes with RESTWIN_FAIL. A due automatic cycle, and LEARN, start a learning cycle where the window is open to it; ABORT_LEARN ends a running one with
cause 5. The estimator record is written where it is due; a write that fails raises STORE_ERR. A pack that goes leaves PRESENT, the valid flag, AUTH
and the learning phase 0. A pack that comes, a retry, the periodic authentication and AUTH send a challenge; the right answer with the right cell
count ends it as passed, and a third wrong one as failed. FORGET makes the pack new. Rests on R178 to R182, R186 to R192. Where the spec leaves a
choice, a clause states the model's own (notes/assumptions/42.md, notes/assumptions/43.md). -/
def Obligations.BemLearnsAndKnowsItsPack : Prop :=
  (∀ (s : State), 7 ≤ getFld s BEM_CONF_DAYS_NO_REST → getFld s BEM_CONF_DAYS_NO_REST < 2 ^ BEM_CONF_DAYS_NO_REST.width - 1 → 50 < getFld s BEM_CONF_CONF_PCT →
    exec .bemDayBoundary s = .next (boundUpdate (restWindow (setEvt 7 BEM_EVT_CONF_DROP (setConf (getFld s BEM_CONF_CONF_PCT - 1) (satFld BEM_CONF_DAYS_NO_REST 1 s)))))) ∧
  (∀ (s : State), isSet s BEM_STAT_RESTWIN = true →
    ∃ t, exec .restWindowTimeout s = .next t ∧ isSet t BEM_STAT_RESTWIN = false ∧
      isSet t BEM_STAT_CHG_INHIBIT = decide (getFld s BEM_LEARN_PHASE ≠ 0) ∧
      getFld t (PG_EVT_EVT 7) = getFld s (PG_EVT_EVT 7) ||| 2 ^ BEM_EVT_RESTWIN_FAIL) ∧
  (∀ (s : State), isSet s BEM_CFG_LEARN_EN = true → getFld s BEM_CFG_LEARN_DAYS ≠ 0 → learnDue s = true → windowOk s = true →
    ∃ t, exec .learnCycleStart s = .next t ∧ getFld t BEM_LEARN_PHASE = 1 ∧ isSet t BEM_STAT_CHG_INHIBIT = true ∧ t.bem.learnAuto = true) ∧
  (∀ (w : Win) (s : State), Passes w 7 s → mayInstall s w = true → isSet s BEM_CMD_GO = false →
    windowOk (loaded w 7 BEM_CMD_OP 1 [] BEM_CMD_GO BEM_CMD_RES_DONE s) = true →
    ∃ t, exec (.learn w) s = .next t ∧ getFld t BEM_LEARN_PHASE = 1 ∧ isSet t BEM_STAT_CHG_INHIBIT = true ∧ isSet t BEM_CMD_RES_DONE = true ∧
      isSet t BEM_CMD_GO = false ∧ getFld t BEM_CMD_RES_STATUS = 0) ∧
  (∀ (w : Win) (s : State), Passes w 7 s → mayInstall s w = true → isSet s BEM_CMD_GO = false → getFld s BEM_LEARN_PHASE ≠ 0 →
    ∃ t, exec (.abortLearn w) s = .next t ∧ getFld t BEM_LEARN_PHASE = 0 ∧ getFld t BEM_LEARN_LAST_CAUSE = 5 ∧ isSet t BEM_CMD_RES_DONE = true ∧
      getFld t BEM_CMD_RES_STATUS = 0) ∧
  (∀ (s : State), s.bem.due = true →
    let q := slotFor s estA estB 0x0C estValid
    exec (.estimatorStoreWrite true) s = .next (setFld BEM_STORE_SEQ q.2 (updBem (fun b => { b with due := false }) (flashPut q.1 (estBytes q.2 s) s))) ∧
    exec (.estimatorStoreWrite false) s = .next (setEvt 7 BEM_EVT_STORE_ERR (flashErase q.1 s))) ∧
  (∀ (s : State), ∃ t, exec (.batPresChange false) s = .next (boundUpdate t) ∧ isSet t BEM_STAT_PRESENT = false ∧ isSet t BEM_SOC_VALID = false ∧
      getFld t BEM_STAT_AUTH = 0 ∧ getFld t BEM_LEARN_PHASE = 0 ∧ t.bem.nonce = none) ∧
  (∀ (ident : Option (List Byte)) (nonce : Nat) (s : State), isSet s BEM_CFG_AUTH_EN = true → s.bem.serial ≠ [] →
    exec (.packInserted ident nonce) s = .next (boundUpdate (packSend 0x71 (leBytes nonce 32) (updBem (fun b => { b with nonce := some (leBytes nonce 32) })
      (setFld BEM_STAT_AUTH 0 (updBem (fun b => { b with nonce := none, fails := 0 }) (setFld BEM_STAT_PRESENT 1 s))))))) ∧
  (∀ (n : List Byte) (key : List Byte) (resp : Option (List Byte)) (s : State), s.bem.nonce = some n → smGet s.role.keys 1 = some key →
    (resp = some (hmacSha256 key (n ++ s.bem.serial)) ∧ s.bem.cells = getFld s BEM_CFG_CELLS → exec (.authResponseRead resp) s = .next (authEnd 1 (packSend 0x72 [] s))) ∧
    (¬ (resp = some (hmacSha256 key (n ++ s.bem.serial)) ∧ s.bem.cells = getFld s BEM_CFG_CELLS) → s.bem.fails = 2 →
      exec (.authResponseRead resp) s = .next (sketchEvt 7 BEM_EVT_AUTH_FAIL 3 (setEvt 7 BEM_EVT_AUTH_FAIL (learnDq 5 (authEnd 2 (packSend 0x72 [] s))))))) ∧
  (∀ (ident : Option (List Byte)) (nonce : Nat) (s : State), isSet s BEM_STAT_PRESENT = true → getFld s BEM_STAT_AUTH = 0 → s.bem.nonce = none → s.bem.fails ≠ 0 →
    s.bem.serial ≠ [] →
    exec (.authRetry ident nonce) s = .next (boundUpdate (packSend 0x71 (leBytes nonce 32) (updBem (fun b => { b with nonce := some (leBytes nonce 32) }) s)))) ∧
  (∀ (nonce : Nat) (s : State), isSet s BEM_STAT_PRESENT = true → isSet s BEM_CFG_AUTH_EN = true →
    exec (.authPeriodic nonce) s = .next (authStart none nonce s)) ∧
  (∀ (w : Win) (nonce : Nat) (s : State), Passes w 7 s → mayInstall s w = true → isSet s BEM_CMD_GO = false → isSet s BEM_STAT_PRESENT = true →
    exec (.auth w nonce) s = .next (authStart none nonce (loaded w 7 BEM_CMD_OP 3 [] BEM_CMD_GO BEM_CMD_RES_DONE s))) ∧
  (∀ (w : Win) (s : State), Passes w 7 s → mayInstall s w = true → isSet s BEM_CMD_GO = false →
    exec (.forget w) s = .next (boundUpdate (bemEnd .ok (newPack (loaded w 7 BEM_CMD_OP 4 [] BEM_CMD_GO BEM_CMD_RES_DONE s)))))

/-- A round's end with every released fetch arrived moves the round's place on by its length and its lateness, sets the next round's length so that it
ends on the 50 µs grid and lasts from 25 to 50 µs, counts the round, its lateness and its shortness, and gives each context that is kept its credit
(`creditOne`); with a fetch outstanding the round goes on. A context's credit grows by its share, at most to its burst above it, and an idle one's is
cut to the burst. Each second adds to a metered context one for each slot it holds. TSC CLR_MAX clears the largest lateness. The epoch's end counts it
and makes its records due; writing them leaves none due and raises EPOCH_DONE, and one record takes one place of a ring with room or is dropped.
MTR_STEP moves metering time by MTR_ADJ at once, and forward into the epoch then due; MTR_SLEW begins to move it by up to a second and discards more;
both do nothing where federation time is used. A slew that is done stands in MTR_TOFF. EN written 1 from port 0's PF starts an empty ring of at least
64 slots, and MTR_HEAD takes a slot inside it. Rests on R237, R238, R240 to R246. -/
def Obligations.MetersAndRounds : Prop :=
  (∀ (late : Nat) (s : State), fetchOpen s = false → late < 2 ^ 32 →
    let pos := (s.sched.pos + s.sched.len + late) % 50000
    let len := if pos = 0 then 50000 else max 25000 (50000 - pos)
    let cs := s.io.ctxs.map Prod.fst
    let act := cs.filter (isActive s)
    let msum := (act.map (fun c => getFld s (CTX_SCHED_MIN_UNITS c))).sum
    let wsum := (act.map (fun c => getFld s (CTX_SCHED_WEIGHT c))).sum
    ∃ t, exec (.roundEnd late) s = .next t ∧ t.sched.pos = pos ∧ t.sched.len = len ∧ t.sched.active = act ∧
      get64 t TSC_ROUNDS_LO_COUNT TSC_ROUNDS_HI_COUNT = (get64 s TSC_ROUNDS_LO_COUNT TSC_ROUNDS_HI_COUNT + 1) % 2 ^ 64 ∧
      getFld t TSC_STAT_OFF_GRID = (if pos = 0 then 0 else 1) ∧
      getFld t TSC_SHORT_COUNT = (if pos = 0 then getFld s TSC_SHORT_COUNT else (getFld s TSC_SHORT_COUNT + 1) % 2 ^ TSC_SHORT_COUNT.width) ∧
      getFld t TSC_LATE_COUNT = (if late = 0 then getFld s TSC_LATE_COUNT else (getFld s TSC_LATE_COUNT + 1) % 2 ^ TSC_LATE_COUNT.width) ∧
      getFld t TSC_OVER_MAX_NS = max (getFld s TSC_OVER_MAX_NS) late ∧
      ∀ c ∈ cs, getFld t (CTX_CREDIT_CREDIT c) = (creditOne (getFld s TSC_CFG_CAP_UNITS) msum wsum len (isActive s c) (getFld s (CTX_SCHED_WEIGHT c))
        (getFld s (CTX_SCHED_MIN_UNITS c)) (getFld s (CTX_LIMIT_MAX_UNITS c)) (getFld s (CTX_LIMIT_BURST_UNITS c)) (credit s c) % 2 ^ 24).toNat) ∧
  (∀ (late : Nat) (s : State), fetchOpen s = true → exec (.roundEnd late) s = .next s) ∧
  (∀ (w mn mx burst cap msum wsum : Nat) (cr : Int), mx ≠ 0 → mx < mn + (cap - msum) * w / wsum →
    creditOne cap msum wsum 50000 true w mn mx burst cr = min (cr + (mx : Int)) ((mx + burst : Nat) : Int) ∧
    creditOne cap msum wsum 50000 false w mn mx burst cr = min cr (burst : Int)) ∧
  (∀ (s : State), fenced s 0x101 = false → ∃ t, exec .slotSecondsTick s = .next t ∧ ∀ c < 4096,
    get64 t (CTX_SLOT_LO_COUNT c) (CTX_SLOT_HI_COUNT c) = (get64 s (CTX_SLOT_LO_COUNT c) (CTX_SLOT_HI_COUNT c) +
      if isSet s (CTX_BIND_VALID c) = true then (s.cache.slots.filter (fun q => decide (q.2.ctx = c))).length else 0) % 2 ^ 64) ∧
  (∀ (s : State), fenced s 0x101 = true → exec .slotSecondsTick s = .next s) ∧
  (∀ (w : Win) (v : Nat) (s : State), Passes w 0x100 s → v % 2 = 1 →
    exec (.tscClrMax w v) s = .next (setFld TSC_OVER_MAX_NS 0 (admitted w 0x100 s))) ∧
  (∀ (s : State), ∃ t, exec .epochEnd s = .next t ∧ t.sched.epoch = s.sched.epoch + 1 ∧ t.sched.recEpoch = s.sched.epoch ∧ t.sched.recDue = true ∧
      t.sched.recStep = s.sched.stepped ∧ t.sched.stepped = false) ∧
  (∀ (s : State), s.sched.recDue = true → ∃ t, exec .meteringRecordsWrite s = .next t ∧ t.sched.recDue = false ∧ t.sched.recs = [] ∧
    (getFld t (PG_EVT_EVT 0x101)).testBit MTR_EVT_EPOCH_DONE = true) ∧
  (∀ (s : State), s.sched.recDue = false → exec .meteringRecordsWrite s = .next s) ∧
  (∀ (c : Nat) (final : Bool) (s : State), s.sched.recDue = true → s.sched.recs = [(c, final)] →
    let next := (getFld s MTR_TAIL_TAIL + 1) % (getFld s MTR_SIZE_M1 + 1)
    ∃ t, exec .meteringRecordsWrite s = .next t ∧
      (mtrAbsent s = false → next ≠ getFld s MTR_HEAD_HEAD → getFld t MTR_TAIL_TAIL = next ∧ t.sched.seq = s.sched.seq + 1 ∧
        isSet t (CTX_MTR_STAT_GAP c) = false ∧ getFld t MTR_RECORDS_COUNT = (getFld s MTR_RECORDS_COUNT + 1) % 2 ^ MTR_RECORDS_COUNT.width) ∧
      (mtrAbsent s = true ∨ next = getFld s MTR_HEAD_HEAD → isSet t (CTX_MTR_STAT_GAP c) = true ∧ t.sched.seq = s.sched.seq ∧
        getFld t MTR_DROPPED_COUNT = (getFld s MTR_DROPPED_COUNT + 1) % 2 ^ MTR_DROPPED_COUNT.width)) ∧
  (∀ (w : Win) (s : State), Passes w 0x101 s → isSet s MTR_CFG_TSRC = false →
    ∃ t, exec (.mtrStep w) s = .next t ∧ get64 t MTR_TOFF_LO_NS MTR_TOFF_HI_NS = toU64 (mtrBase s + mtrAdj s) ∧
      (getFld t (PG_EVT_EVT 0x101)).testBit MTR_EVT_TIME_STEP = true ∧
      (mtrAdj s ≤ 0 → t.sched.epoch = s.sched.epoch ∧ t.sched.stepped = true) ∧
      (0 < mtrAdj s → t.sched.epoch = epochAt { t with sched := { t.sched with epoch := s.sched.epoch } } ∧ t.sched.recDue = true ∧
        t.sched.recEpoch = s.sched.epoch ∧ t.sched.recStep = true)) ∧
  (∀ (w : Win) (s : State), Passes w 0x101 s → isSet s MTR_CFG_TSRC = false →
    (-1000000000 ≤ mtrAdj s → mtrAdj s ≤ 1000000000 → ∃ t, exec (.mtrSlew w) s = .next t ∧ t.sched.slew = mtrAdj s ∧ t.sched.slewAt = devTime s ∧
      get64 t MTR_TOFF_LO_NS MTR_TOFF_HI_NS = toU64 (mtrOff s) ∧
      (mtrAdj s = 0 → (getFld t (PG_EVT_EVT 0x101)).testBit MTR_EVT_SLEW_DONE = true)) ∧
    (mtrAdj s < -1000000000 ∨ 1000000000 < mtrAdj s → exec (.mtrSlew w) s = .next (admitted w 0x101 s))) ∧
  (∀ (w : Win) (s : State), Passes w 0x101 s → isSet s MTR_CFG_TSRC = true →
    exec (.mtrStep w) s = .next (admitted w 0x101 s) ∧ exec (.mtrSlew w) s = .next (admitted w 0x101 s)) ∧
  (∀ (s : State), s.sched.slew ≠ 0 →
    ∃ t, exec .slewDone s = .next t ∧ t.sched.slew = 0 ∧ get64 t MTR_TOFF_LO_NS MTR_TOFF_HI_NS = toU64 (mtrBase s + s.sched.slew)) ∧
  (∀ (s : State), Passes (.pf 0) 0x101 s → isSet s MTR_CFG_EN = false → 63 ≤ getFld s MTR_SIZE_M1 →
    ∃ t, exec (.mtrEnable (.pf 0) 1) s = .next t ∧ isSet t MTR_CFG_EN = true ∧ getFld t MTR_TAIL_TAIL = 0 ∧ getFld t MTR_TAIL_PHASE = 1 ∧ t.sched.seq = 0) ∧
  (∀ (v : Nat) (s : State), Passes (.pf 0) 0x101 s → v ≤ getFld s MTR_SIZE_M1 →
    ∃ t, exec (.mtrHeadWrite (.pf 0) v) s = .next t ∧ getFld t MTR_HEAD_HEAD = v)

/-- TENANT_INFO of a bound context gives its record. SET_SCHED of a context that is unbound, or bound to this port with its minimum inside the cap,
sets the six fields and completes. SET_CLASS sets a class's latency bound. TIME_ADJ from port 0 without federation time steps or slews metering time
and completes with the epoch. Rests on R216, R247, R248. -/
def Obligations.TenantAdminCommandsAct : Prop :=
  (∀ (n : Nat) (x : Cmd) (s : State), AdminDue n 0x8B x s → isSet s (CTX_BIND_VALID (enCdw x.raw)) = true →
    exec (.tenantInfo n) s = .next (adminOk n x s.sched.epoch (adminOut x (mtrRecord s.sched.epoch (enCdw x.raw) 0 (totals s (enCdw x.raw)) 0) s))) ∧
  (∀ (n : Nat) (x : Cmd) (s : State), AdminDue n 0x8C x s →
    (isSet s (CTX_BIND_VALID (enCdw x.raw)) = true → ctxPort s (enCdw x.raw) = ctxPort s x.ctx ∧
      minSum s (enCdw x.raw) + bitsOf (enAux x.raw) 16 16 ≤ getFld s TSC_CFG_CAP_UNITS) →
    let c := enCdw x.raw
    exec (.setSched n) s = .next (adminOk n x 0 (cfgGood c (seqIf (0x1000 + c) s (setFld (CTX_BULK_RATE c) (bitsOf (enAux2 x.raw) 32 8)
      (setFld (CTX_LIMIT_BURST_UNITS c) (bitsOf (enAux2 x.raw) 16 16) (setFld (CTX_LIMIT_MAX_UNITS c) (bitsOf (enAux2 x.raw) 0 16)
        (setFld (CTX_SCHED_MIN_UNITS c) (bitsOf (enAux x.raw) 16 16) (setFld (CTX_SCHED_WEIGHT c) (bitsOf (enAux x.raw) 8 8)
          (setFld (CTX_SCHED_CLASS c) (bitsOf (enAux x.raw) 0 2) s))))))))) ) ∧
  (∀ (n : Nat) (x : Cmd) (s : State), AdminDue n 0x8D x s →
    exec (.setClass n) s = .next (adminOk n x 0 (seqIf 0x100 s (setFld (classFld (enCdw x.raw)) (enAux x.raw) s)))) ∧
  (∀ (n : Nat) (x : Cmd) (s : State), AdminDue n 0x8E x s → isSet s MTR_CFG_TSRC = false → ctxPort s x.ctx = 0 →
    let t := if enCdw x.raw = 1 then mtrStep (signed64 (enAux x.raw)) s else mtrSlew (signed64 (enAux x.raw)) s
    exec (.timeAdj n) s = .next (adminOk n x t.sched.epoch t))

/-- ROLE_CHALLENGE for a role with a key, on a port that is not locked, gives a nonce and keeps it. ROLE_RESPONSE with the HMAC of the role's key over
nonce, serial number, role and port elevates the session; a wrong one is counted, and the third locks the port. ROLE_DROP and the idle limit end a
session at the base role. A nonce lapses, and the end of a lockout clears it and the failures. Rests on R417, R419, R420. Where the spec leaves a
choice, a clause states the model's own (notes/assumptions/47.md). -/
def Obligations.SessionsElevateAndEnd : Prop :=
  (∀ (n nonce : Nat) (x : Cmd) (s : State), AdminDue n 0x90 x s → (roleKey s (enCdw x.raw)).isSome = true → isSet s (sessLocked (ctxPort s x.ctx)) = false →
    exec (.roleChallenge n nonce) s = .next (adminOk n x 0 (adminOut x (leBytes nonce 32) (setFld (sessNonce (ctxPort s x.ctx)) 1 (updRole (fun r =>
      { r with nonces := smSet r.nonces (ctxPort s x.ctx) { bytes := leBytes nonce 32, role := enCdw x.raw } }) s))))) ∧
  (∀ (n : Nat) (x : Cmd) (v : Nonce) (key bytes : List Byte) (s : State), AdminDue n 0x91 x s → smGet s.role.nonces (ctxPort s x.ctx) = some v →
    v.role = enCdw x.raw → roleKey s v.role = some key → readReady s (ctxPort s x.ctx) (ctxFunc s x.ctx) (enDptr x.raw) 32 = true →
    let port := ctxPort s x.ctx
    let u := readDone port (ctxFunc s x.ctx) (enDptr x.raw) 32 (.data bytes) s
    let t := dropNonce port u
    (slice bytes 0 32 = elevationMac u port v key →
      exec (.roleResponse n (.data bytes)) s = .next (adminOk n x 1 (needRole (.pf port) (showSessions (setFld (sessFails port) 0 (setFld (sessFld port) v.role
        (roleAction (getFld s (sessFld port)) 0 0x91 (setEvt 3 ROLE_EVT_ELEVATED t)))))))) ∧
    (slice bytes 0 32 ≠ elevationMac u port v key → getFld s (sessFails port) = 2 →
      exec (.roleResponse n (.data bytes)) s = .next (adminOk n x 0 (setEvt 3 ROLE_EVT_LOCKOUT (setFld (sessLocked port) 1
        (roleAction (getFld s (sessFld port)) 1 0x91 (setEvt 3 ROLE_EVT_REFUSED (setFld (sessFails port) 3 t))))))) ∧
    (slice bytes 0 32 ≠ elevationMac u port v key → getFld s (sessFails port) < 2 →
      exec (.roleResponse n (.data bytes)) s = .next (adminOk n x 0 (roleAction (getFld s (sessFld port)) 1 0x91 (setEvt 3 ROLE_EVT_REFUSED
        (setFld (sessFails port) (getFld s (sessFails port) + 1) t)))))) ∧
  (∀ (n : Nat) (x : Cmd) (s : State), AdminDue n 0x92 x s →
    exec (.roleDrop n) s = .next (adminOk n x (getFld s (sessFld (ctxPort s x.ctx))) (sessionEnd (ctxPort s x.ctx) 2 s))) ∧
  (∀ (port : Nat) (s : State), port < 2 → baseRole s < getFld s (sessFld port) →
    ∃ t, exec (.sessionIdleTimeout port) s = .next t ∧ getFld t (sessFld port) = baseRole s) ∧
  (∀ (port : Nat) (s : State), port < 2 →
    exec (.nonceLapse port) s = .next (setFld (sessNonce port) 0 (updRole (fun r => { r with nonces := smDel r.nonces port }) s))) ∧
  (∀ (port : Nat) (s : State), port < 2 → isSet s (sessLocked port) = true →
    exec (.lockoutEnd port) s = .next (setFld (sessLocked port) 0 (setFld (sessFails port) 0 s)))

/-- KEY_PROGRAM of a blank installer or engineer key, with the strap and a good read-back, stores the key data and leaves the data registers 0.
FW_STAGE, once its page may be read, writes its chunk to the slot that does not run. FW_COMMIT makes that slot the preferred one where its image is
valid, and ends with STATE_CONFLICT where it is not. Rests on R421 to R424. Where the spec leaves a choice, a clause states the model's own
(notes/assumptions/48.md). -/
def Obligations.KeysAndFirmwareAreWritten : Prop :=
  (∀ (w : Win) (k : Nat) (s : State), Passes w 3 s → mayInstall s w = true → isSet s ROLE_KEY_CTL_GO = false → k < 2 →
    isSet s ROLE_STAT_INSTALL_STRAP = true → smGet s.role.keys k = none →
    ∃ t, exec (.keyProgram w k true) s = .next t ∧ smGet t.role.keys k = some (keyData s k) ∧ isSet t ROLE_KEY_CTL_GO = false ∧
      isSet t ROLE_KEY_RES_DONE = true ∧ getFld t ROLE_KEY_RES_STATUS = 0 ∧ ∀ i < 24, getFld t (ROLE_KEY_DATA i) = 0) ∧
  (∀ (n : Nat) (x : Cmd) (bytes : List Byte) (s : State), AdminDue n 0x93 x s → enCdw x.raw % 4 = 0 →
    readReady s (ctxPort s x.ctx) (ctxFunc s x.ctx) (enDptr x.raw) 65536 = true →
    exec (.firmwareStage n (.data bytes)) s = .next (adminOk n x 0 (showFw (flashPut (fwBase (1 - getFld s ROLE_FW_RUNNING) + 65536 * bitsOf (enCdw x.raw) 8 8)
      (slice bytes 0 65536) (readDone (ctxPort s x.ctx) (ctxFunc s x.ctx) (enDptr x.raw) 65536 (.data bytes) s))))) ∧
  (∀ (n : Nat) (x : Cmd) (s : State), AdminDue n 0x93 x s → enCdw x.raw % 4 = 1 →
    let slot := 1 - getFld s ROLE_FW_RUNNING
    let q := slotFor s selA selB 8 selValid
    exec (.firmwareCommit n) s = .next (if fwValid s slot then adminOk n x (leAt (fwRead s slot 0 4096) 8 4)
      (roleAction x.role 7 0x93 (showFw (flashPut q.1 (selBytes q.2 slot) s))) else endCmd n .stateConflict 0 0 s))

/-- While the Sketchbook writes, the record that is due goes the way `writeDue` gives. The end of a code's window, and a token, each let a held record
go where a token is left; a token without held records only adds one. The timer and SNAPSHOT record the measures that changed. ERASE_ALL in factory
test mode leaves nothing in the Sketchbook's pages but those retired. Rests on R429 to R433, R435. Where the spec leaves a choice, a clause states the
model's own (notes/assumptions/46.md). -/
def Obligations.SketchbookWritesItsRecords : Prop :=
  (∀ (ok : Bool) (s : State), evrWrites s = true → exec (.sketchbookRecordWrite ok) s = .next (writeDue ok s)) ∧
  (∀ (code : Nat) (o : Occ) (s : State), evrWrites (updEvr (fun e => { e with window := e.window.filter (· ≠ code) }) s) = true →
    tokenLeft (updEvr (fun e => { e with window := e.window.filter (· ≠ code) }) s) = true → s.evr.held.find? (fun h => decide (h.code = code)) = some o →
    exec (.sketchbookWindowEnd code) s = .next (dueOcc o (showHeld (updEvr (fun e => { e with
      window := e.window.filter (· ≠ code), held := e.held.filter (fun h => decide (h.code ≠ code)) }) s)))) ∧
  (∀ (s : State), s.evr.held = [] → getFld s EVR_BUDGET_TOKENS < 3600 →
    exec .sketchbookToken s = .next (setFld EVR_BUDGET_TOKENS (getFld s EVR_BUDGET_TOKENS + 1) s)) ∧
  (∀ (o : Occ) (s : State),
    let t := setFld EVR_BUDGET_TOKENS (min 3600 (getFld s EVR_BUDGET_TOKENS + 1)) s
    evrWrites t = true → tokenLeft t = true → (heldOrder t).find? (fun h => decide (h.code ∉ t.evr.window)) = some o →
    exec .sketchbookToken s = .next (releaseHeld o.code t)) ∧
  (∀ (s : State), exec .sketchbookSnapshotTimer s = .next (snapshotRecs s)) ∧
  (∀ (w : Win) (s : State), Passes w 6 s → mayInstall s w = true → isSet s EVR_CMD_GO = false →
    exec (.snapshot w) s = .next (evrEnd .ok (snapshotRecs (loaded w 6 EVR_CMD_OP 1 [] EVR_CMD_GO EVR_CMD_RES_DONE s)))) ∧
  (∀ (w : Win) (s : State), Passes w 6 s → mayInstall s w = true → isSet s EVR_CMD_GO = false →
    ftest (loaded w 6 EVR_CMD_OP 2 [] EVR_CMD_GO EVR_CMD_RES_DONE s) = true →
    ∃ t, exec (.eraseAll w) s = .next t ∧ getFld t EVR_CMD_RES_STATUS = 0 ∧ isSet t EVR_CMD_RES_DONE = true ∧
      ∀ q ∈ t.flash.slots, q ∈ s.flash.slots ∧ (q.1 < 0x02000000 ∨ 0x02800000 ≤ q.1 ∨ (q.1 - 0x02000000) / 256 ∈ s.flash.retired))

/-- A host link comes up with its speed and width, and goes down with its port reset. PME_Turn_Off is acknowledged and leaves the port in L2, waking
the host where PME_Status is set; a link with ASPM takes L1, and the substate asked for where it is enabled. PERST#, a hot reset, a function-level
reset and the end of the virtual functions reset the functions they name, a function-level reset after its write has been completed; while the
function answers with retry status, that write gets it and does nothing; the end of a function-level reset clears the function. PERST# deasserted
wakes the device. From P6 on configuration requests are answered again after the wait. Rests on R253, R256, R271 to R274, R279, R403. Where the spec
leaves a choice, a clause states the model's own (notes/assumptions/54.md, notes/assumptions/55.md). -/
def Obligations.HostLinksAndResetsAct : Prop :=
  (∀ (port speed width : Nat) (rev : Bool) (s : State), port < 2 → 1 ≤ speed → speed ≤ 5 → width ∈ [1, 4, 8, 16] → linkUp s port = false → port ∉ s.host.perst →
    (0x10 + port) ∉ s.pwr.dead → 5 ≤ getFld s CHIP_DEV_STAT_PHASE →
    exec (.hostLinkUp port speed width rev) s = .next (pumpReads (setEvt (0x10 + port) HEP_EVT_LINK_UP
      (updHost (fun h => { h with up := if port ∈ h.up then h.up else h.up ++ [port], l2 := h.l2.filter (· ≠ port) })
        (setFld (HEP_LINK_SPEED port) speed (setFld (HEP_LINK_WIDTH port) width (setFlag (HEP_LINK_REVERSED port) rev s))))))) ∧
  (∀ (port : Nat) (s : State), port < 2 → linkUp s port = true →
    exec (.hostLinkDown port) s = .next (ltrSync (portReset port) (setEvt (0x10 + port) HEP_EVT_LINK_DOWN (incFld (HEP_DOWN_COUNT port) 1
      (updHost (fun h => { h with up := h.up.filter (· ≠ port), l2 := h.l2.filter (· ≠ port), l11 := h.l11.filter (· ≠ port) }) (setFld (HEP_LINK_REVERSED port) 0
        (setFld (HEP_LINK_IN_L12 port) 0 (setFld (HEP_LINK_IN_L1 port) 0 (setFld (HEP_LINK_WIDTH port) 0 (setFld (HEP_LINK_SPEED port) 0 s)))))))))) ∧
  (∀ (port : Nat) (s : State), port < 2 → linkUp s port = true →
    ∃ t, exec (.pmeTurnOff port) s = .next t ∧ t.out = (if getFld s (HEP_FUNCS_PF_DSTATE port) = 3 ∧ (fnOf s port 0).pme then [.pcie port .wake 0] else []) ++ .pcie port .pmeToAck 0 :: s.out ∧ port ∉ t.host.up ∧ port ∈ t.host.l2 ∧ getFld t (HEP_LINK_SPEED port) = 0 ∧ getFld t (HEP_LINK_WIDTH port) = 0 ∧
      (getFld s (HEP_FUNCS_PF_DSTATE port) = 3 → getFld t (HEP_FUNCS_PF_DSTATE port) = 2)) ∧
  (∀ (port : Nat) (sub : L1Sub) (s : State), port < 2 → linkUp s port = true → (fnOf s port 0).cfg.aspmL1 = true → isSet s (HEP_LINK_IN_L1 port) = false →
    ∃ t, exec (.hostL1Entry port sub) s = .next t ∧ t.out = .pcie port .l1Request 0 :: s.out ∧ isSet t (HEP_LINK_IN_L1 port) = true ∧
      isSet t (HEP_LINK_IN_L12 port) = (decide (sub = .l12) && (fnOf s port 0).cfg.l12) ∧
      (port ∈ t.host.l11 ↔ sub = .l11 ∧ (fnOf s port 0).cfg.l11 = true)) ∧
  (∀ (port : Nat) (s : State), port < 2 → exec (.perstAssert port) s = .next (ltrSync (portReset port) (updHost (fun h => { h with
      perst := if port ∈ h.perst then h.perst else h.perst ++ [port], crs := if port ∈ h.crs then h.crs else h.crs ++ [port] }) s))) ∧
  (∀ (port : Nat) (s : State), port < 2 → port ∈ s.host.perst → exec (.perstDeassert port) s = .next (wake (updHost (fun h => { h with
      perst := h.perst.filter (· ≠ port), crs := if port ∈ h.crs then h.crs else h.crs ++ [port] }) s))) ∧
  (∀ (port : Nat) (s : State), port < 2 → linkUp s port = true → exec (.hotReset port) s = .next (ltrSync (portReset port) s)) ∧
  (∀ (port func : Nat) (s : State), port < 2 → func < 1024 → cfgRetry s port func = false →
    let u := emit (.pcie port .cfgDone func) s
    (func = 0 → exec (.functionLevelReset port func) s = .next (ltrSync (fun t => setFld (HEP_FUNCS_VF_EN port) 0 (resetFns port (functions t port) t)) u)) ∧
    (func ≠ 0 → isFunction s port func = true → exec (.functionLevelReset port func) s = .next (ltrSync (flrStart port func) u) ∧
      flrStart port func s = resetFns port [func] s)) ∧
  (∀ (port func : Nat) (s : State), port < 2 → func < 1024 → isFunction s port func = true → cfgRetry s port func = true →
    exec (.functionLevelReset port func) s = .next (emit (.cfgRetry (if func = 0 then .pf port else .vf port func) 0x78) s)) ∧
  (∀ (port func : Nat) (s : State), port < 2 → func < 1024 → func ≠ 0 → (fnOf s port func).flr = true → (fnOf s port 0).flr = false →
    exec (.flrEnd port func) s = .next (setEvt (0x10 + port) HEP_EVT_FLR ((ctxsIn (updFn port func fnCleared s) port [func]).foldl (fun t c => ctxResetEnd c t)
      (updFn port func fnCleared s)))) ∧
  (∀ (port : Nat) (s : State), port < 2 → isSet s (HEP_FUNCS_VF_EN port) = true → cfgRetry s port 0 = false →
    exec (.vfEnableClear port) s = .next (ltrSync (fun t => setFld (HEP_FUNCS_VF_EN port) 0 (resetFns port ((functions t port).filter (· ≠ 0)) t)) s)) ∧
  (∀ (port : Nat) (s : State), port < 2 → port ∉ s.host.perst → 6 ≤ getFld s CHIP_DEV_STAT_PHASE →
    exec (.configRetryEnd port) s = .next (updHost (fun h => { h with crs := h.crs.filter (· ≠ port) }) s))

/-- Clearing and setting Bus Master Enable of a function does what `bmeClear` and `bmeSet` do; while the function answers with retry status, the write
gets it and does nothing. Virtual functions are enabled with NumVFs, ARI and their Memory Space Enable. D3hot pauses a port's functions and wakes the
host where a message is held, and the return to D0 resumes them. Clearing a function's mask or a vector's, in MSI-X or MSI, sends what was pending
there. An ECRC error is logged at its function; an internal error is logged at the PF and reported with kind 0x01 or 0x0D. Rests on R225, R255, R261,
R269, R277, R281. Where the spec leaves a choice, a clause states the model's own (notes/assumptions/52.md). -/
def Obligations.HostFunctionsAreControlled : Prop :=
  (∀ (port func : Nat) (s : State), port < 2 → func < 1024 → isFunction s port func = true → cfgRetry s port func = false →
    exec (.busMasterEnableClear port func) s = .next (ltrSync (bmeClear port func) s)) ∧
  (∀ (port func : Nat) (cfg : FnCfg) (s : State), port < 2 → func < 1024 → isFunction s port func = true → cfgRetry s port func = false →
    exec (.busMasterEnableSet port func cfg) s = .next (ltrSync (bmeSet port func cfg) s)) ∧
  (∀ (port func : Nat) (cfg : FnCfg) (s : State), port < 2 → func < 1024 → isFunction s port func = true → cfgRetry s port func = true →
    let u := emit (.cfgRetry (if func = 0 then .pf port else .vf port func) 4) s
    exec (.busMasterEnableClear port func) s = .next u ∧ exec (.busMasterEnableSet port func cfg) s = .next u) ∧
  (∀ (port n : Nat) (ctl : VfCtl) (s : State), port < 2 → isSet s (HEP_FUNCS_VF_EN port) = false → cfgRetry s port 0 = false → n ≤ 1023 →
    ∃ t, exec (.vfEnableSet port n ctl) s = .next t ∧ isSet t (HEP_FUNCS_VF_EN port) = true ∧ getFld t (HEP_FUNCS_NUMVFS port) = n ∧
      isSet t (HEP_FUNCS_ARI port) = ctl.ari ∧ (fnOf t port 0).cfg.vfMse = ctl.mse) ∧
  (∀ (port : Nat) (s : State), port < 2 → inD3 s port = false → cfgRetry s port 0 = false →
    exec (.d3hotEntry port) s = .next (ltrSync (fun t => onlyIf (msgHeld port s) (wakeHost port)
      (pauseFns port (functions t port) (setEvt (0x10 + port) HEP_EVT_D_STATE (setFld (HEP_FUNCS_PF_DSTATE port) 3 t)))) s)) ∧
  (∀ (port : Nat) (s : State), port < 2 → inD3 s port = true → linkUp s port = true → cfgRetry s port 0 = false →
    exec (.d0Return port) s = .next (ltrSync (fun t => resumeFns port (functions t port) (setEvt (0x10 + port) HEP_EVT_D_STATE (setFld (HEP_FUNCS_PF_DSTATE port) 0 t))) s)) ∧
  (∀ (port func v : Nat) (s : State), port < 2 → func < 1024 → isFunction s port func = true → (fnOf s port func).flr = false →
    exec (.msixUnmask port func none) s = .next (sendPending port func (updFn port func (fun y => { y with cfg := { y.cfg with fmask := false } }) s)) ∧
    exec (.msixUnmask port func (some v)) s = .next (sendPending port func (updFn port func (fun y =>
      { y with table := smSet y.table (4 * v + 3) (smGetD y.table (4 * v + 3) 1 / 2 * 2), cfg := { y.cfg with msiMask := y.cfg.msiMask.filter (· ≠ v) } }) s))) ∧
  (∀ (port func : Nat) (s : State), port < 2 → func < 1024 →
    exec (.linkLayerError port func .ecrc) s = .next (incFld (HEP_INBOUND_ERR_COUNT port) 1 (aerLog port func .ecrc s)) ∧
    exec (.linkLayerError port func .correctedInternal) s = .next (report 0x01 (0x10 + port) 0 (aerLog port 0 .correctedInternal s)) ∧
    exec (.linkLayerError port func .uncorrectableInternal) s = .next (report 0x0D (0x10 + port) 0 (aerLog port 0 .uncorrectableInternal s)))

/-- A present drive with AUTO_ON powers up; its power good lets PERST# go with the clock on, and no power good in time leaves INIT_FAIL with WHY 6;
the link trains to a speed within MAX_SPEED and a width, or times out with WHY 7; a controller that passes its checks is brought up, one that fails
them leaves INIT_FAIL with their cause. Rests on R284, R287, R288, R295, R298. -/
def Obligations.DriveSlotsComeIntoService : Prop :=
  (∀ (p : Nat) (s : State), p < 64 → portState s p = 0 → isSet s (DPT_SLOT_STS_PDS p) = true → isSet s (DPT_CFG_AUTO_ON p) = true → enabled s (0x80 + p) = true →
    ∃ t, exec (.slotPresenceDetected p) s = .next t ∧ portState t p = 1 ∧ powered t p = true ∧ getFld t (DPT_SLOT_CTL_PIC p) = 2) ∧
  (∀ (p : Nat) (s : State), p < 64 → portState s p = 1 → isSet s (DPT_SLOT_STS_PWR_GOOD p) = false →
    ∃ t, exec (.pwrGoodTimeout p) s = .next t ∧ portState t p = 8 ∧ powered t p = false ∧ getFld t (DPT_DRIVE_WHY p) = 6) ∧
  (∀ (p : Nat) (s : State), p < 64 → portState s p = 1 → isSet s (DPT_SLOT_STS_PWR_GOOD p) = true →
    ∃ t, exec (.perstReleaseTimer p) s = .next t ∧ portState t p = 2 ∧ (bayOf t p).perstN = true ∧ (bayOf t p).refclk = true) ∧
  (∀ (p speed width : Nat) (s : State), p < 64 → 1 ≤ speed → speed ≤ getFld s (DPT_CFG_MAX_SPEED p) → speed ≤ 5 → width ∈ [1, 2] → portState s p = 2 →
    (bayOf s p).hold = false → (0x80 + p) ∉ s.pwr.dead → fenced s (0x80 + p) = false →
    ∃ t, exec (.driveLinkUp p speed width) s = .next t ∧ portState t p = 3 ∧ getFld t (DPT_LINK_SPEED p) = speed ∧ getFld t (DPT_LINK_WIDTH p) = width) ∧
  (∀ (p : Nat) (s : State), p < 64 → portState s p = 2 →
    ∃ t, exec (.driveLinkTimeout p) s = .next t ∧ portState t p = 8 ∧ getFld t (DPT_DRIVE_WHY p) = 7) ∧
  (∀ (p : Nat) (d : DriveId) (found : List FoundNs) (media : List PlateMedia) (s : State), p < 64 → portState s p = 3 →
    let t := identify p d (found.filter (fun f => decide (f.port = p))) (setFld (DPT_DRIVE_WHY p) 0 s)
    (driveWhy s p d = 0 → exec (.nvmeBringUpDone p d found media) s = .next (lateLabels (found.filter (fun f => decide (f.port = p))) media
      (dptEvt p DPT_EVT_READY (showPic p (setPort p 4 (emit (.nvmeAdmin p [.createQueues (queuePairs t p)]) t)))))) ∧
    (driveWhy s p d ≠ 0 → exec (.nvmeBringUpDone p d found media) s = .next (dptEvt p DPT_EVT_INIT_FAIL (setFld (DPT_DRIVE_WHY p) (driveWhy s p d)
      (showPic p (setPort p 8 s))))))

/-- The button opens its window in READY, and pressed again cancels it. The window's end starts the planned power-off of a drive that may go, and is
refused otherwise. The shutdown's end leaves the slot off; a drive that leaves empties its slot; a power fault powers it off; a link that goes down
fails the slot; a fatal controller status fails its members. A command timeout does what `portTimeout` does, and a controller reset that ends is over.
An idle link of a slot in service, of a drive that advertises it, rests in L1. Rests on R286, R291, R293, Table DRIVE-3. -/
def Obligations.DriveSlotsLeaveService : Prop :=
  (∀ (p : Nat) (s : State), p < 64 → (bayOf s p).pressed = true → portState s p = 4 → (bayOf s p).window = false →
    ∃ t, exec (.attentionButton p) s = .next t ∧ (bayOf t p).window = true ∧ (bayOf t p).pressed = false ∧ portState t p = 4) ∧
  (∀ (p : Nat) (s : State), p < 64 → (bayOf s p).pressed = true → portState s p = 4 → (bayOf s p).window = true →
    exec (.attentionButton p) s = .next (dptEvt p DPT_EVT_CANCEL (showPic p (updBay p (fun b => { b with window := false })
      (dptEvt p DPT_EVT_ABP (updBay p (fun b => { b with pressed := false }) s)))))) ∧
  (∀ (p : Nat) (s : State), p < 64 → (bayOf s p).window = true → portState s p = 4 →
    (removable s p = true → exec (.attentionWindowEnd p) s = .next (quiesce p (updBay p (fun b => { b with window := false }) s))) ∧
    (removable s p = false → ∃ t, exec (.attentionWindowEnd p) s = .next t ∧ portState t p = 4 ∧ (bayOf t p).window = false ∧ (bayOf t p).refused = devTime s + 1)) ∧
  (∀ (p : Nat) (s : State), p < 64 → portState s p = 5 →
    ∃ t, exec (.shutdownComplete p) s = .next t ∧ (t = slotDown p s ∨ t = cmdEnd (DPT_CMD_GO p) (DPT_CMD_RES_STATUS p) (DPT_CMD_RES_DONE p) .ok (slotDown p s)) ∧
      portState t p = 6) ∧
  (∀ (p : Nat) (s : State), p < 64 → portState s p = 4 → isSet s (DPT_SLOT_STS_PDS p) = false →
    ∃ t, exec (.presenceLost p) s = .next t ∧ portState t p = 0 ∧ isSet t (PG_STAT_ASLEEP (0x80 + p)) = true ∧ smGet t.drive.ports p = none) ∧
  (∀ (p : Nat) (s : State), p < 64 → powered s p = true → input s p 2 = true →
    ∃ t, exec (.powerFault p) s = .next t ∧ portState t p = 6 ∧ (bayOf t p).pfault = true ∧ powered t p = false) ∧
  (∀ (p : Nat) (s : State), p < 64 → portState s p = 4 →
    exec (.driveLinkDown p) s = .next (showPic p (setPort p 8 (driveGone p (dptEvt p DPT_EVT_DLLSC s))))) ∧
  (∀ (p : Nat) (s : State), p < 64 → (dport s p).isSome = true → exec (.controllerFatalStatus p) s = .next (failDrive p .failed s)) ∧
  (∀ (p : Nat) (s : State), p < 64 → (portCmds s p).any (fun q => nvIssued s q.1) = true → exec (.nvmeCommandTimeout p) s = .next (portTimeout p s)) ∧
  (∀ (p : Nat) (d : DPort) (s : State), p < 64 → dport s p = some d → d.resetting = true → portCmds s p = [] →
    ∃ t, exec (.controllerResetDone p) s = .next t ∧ (dport t p).map DPort.resetting = some false) ∧
  (∀ (p : Nat) (s : State), p < 64 → portState s p = 4 → portCmds s p = [] → isSet s (PG_CTL_CLK_REQ (0x80 + p)) = false → isSet s (DPT_CFG_ASPM_L1 p) = true →
    ((dport s p).map DPort.aspm).getD false = true →
    exec (.driveL1Entry p) s = .next (setFld (DPT_LINK_IN_L1 p) 1 (setFld (PG_STAT_ASLEEP (0x80 + p)) 1 s)))

/-- A frame of an enabled chain does what `frame` does, which gives no input to a slot, and ends what was seen changing there, where any slot's byte
has its framing bit set. The blink phase turns. A SMART poll without a warning that acts is shown. POWER_OFF of a drive that may go starts its planned
power-off, POWER_ON of a present one on an enabled page powers it up, and RESCAN of one in service reads its namespaces again. Rests on R290, R296 to
R299. Where the spec leaves a choice, a clause states the model's own (notes/assumptions/60.md). -/
def Obligations.DriveSidebandAndCommands : Prop :=
  (∀ (n : Nat) (ins : List Nat) (s : State), n < 4 → isSet s (SSB_CFG_EN n) = true →
    ∃ t, exec (.ssbFrame n ins) s = .next t ∧ t = frame n ins s ∧
      ((List.range (min (getFld s (SSB_CFG_SLOTS n)) 16)).any (fun i => ((ins[i]?).getD 0 % 256).testBit 7) = true →
        (∀ p bit, input t p bit = input s p bit) ∧ ∀ i < min (getFld s (SSB_CFG_SLOTS n)) 16, (bayOf t (16 * n + i)).cand = [])) ∧
  (∀ (s : State), exec .indicatorBlinkToggle s = .next (updDrive (fun d => { d with blink := !d.blink }) s)) ∧
  (∀ (p warn temp : Nat) (s : State), p < 64 → portState s p = 4 → warn % 256 = 0 → warn.testBit 2 = false → warn.testBit 3 = false →
    exec (.smartPoll p warn temp none) s = .next (setFld (DPT_SMART_WARN p) warn (setFld (DPT_SMART_TEMP_K p) temp (sendAdmin p [.smartLog] s)))) ∧
  (∀ (w : Win) (p : Nat) (s : State), p < 64 → Passes w (0x80 + p) s → mayInstall s w = true → isSet s (DPT_CMD_GO p) = false →
    let off := loaded w (0x80 + p) (DPT_CMD_OP p) 1 [] (DPT_CMD_GO p) (DPT_CMD_RES_DONE p) s
    let on := loaded w (0x80 + p) (DPT_CMD_OP p) 2 [] (DPT_CMD_GO p) (DPT_CMD_RES_DONE p) s
    (portState s p = 4 → removable off p = true → exec (.powerOff w p) s = .next (quiesce p off)) ∧
    (portState s p = 6 → isSet s (DPT_SLOT_STS_PDS p) = true → enabled s (0x80 + p) = true → exec (.powerOn w p) s = .next (dptEnd p .ok (powerUp p (slotOff p on)))) ∧
    (∀ (d : DriveId) (found : List FoundNs), portState s p = 4 →
      let t := loaded w (0x80 + p) (DPT_CMD_OP p) 3 [] (DPT_CMD_GO p) (DPT_CMD_RES_DONE p) s
      let fs := found.filter (fun f => decide (f.port = p))
      exec (.rescan w p d found) s = .next (dptEnd p .ok (markStrays fs (detachNs p d (identify p d fs (sendAdmin p bringUpCmds t)))))))

/-- Training without a DIMM leaves the channel OFF with WHY 1; training that finds no cause enters INIT with its watermark at 0. The end of the
initialisation makes the channel ACTIVE with its watermark at the DIMM's size. RELEASE of a frozen channel starts its training. Rests on R302, R306,
R315, R316. -/
def Obligations.DramChannelsTrainAndInitialise : Prop :=
  (∀ (c : Nat) (lanes : List (Nat × Nat)) (s : State), c < 4 → dmcState s c = 1 → isSet s (DMC_CMD_GO c) = false →
    ∃ t, exec (.dramTrainingDone c none lanes) s = .next t ∧ dmcState t c = 0 ∧ getFld t (DMC_STAT_WHY c) = 1) ∧
  (∀ (c : Nat) (d : Dimm) (lanes : List (Nat × Nat)) (s : State), c < 4 → dmcState s c = 1 → d.spd = true →
    trainWhy (updDram (fun t => { t with lanes := smSet t.lanes c lanes, dimms := smSet t.dimms c d }) s) c (some d) lanes = 0 →
    ∃ t, exec (.dramTrainingDone c (some d) lanes) s = .next t ∧ dmcState t c = 2 ∧ getFld t (DMC_STAT_WHY c) = 0 ∧ isSet t (DMC_INIT_WM_DONE c) = false ∧
      getFld t (DMC_INIT_WM_MIB c) = 0) ∧
  (∀ (c : Nat) (s : State), c < 4 → dmcState s c = 2 → isSet s (DMC_INIT_WM_DONE c) = false → isSet s (DMC_CMD_GO c) = false →
    exec (.dramInitDone c) s = .next (dmcEvt c DMC_EVT_INIT_DONE (setFld (DMC_INIT_WM_DONE c) 1 (setFld (DMC_INIT_WM_MIB c) (1024 * getFld s (DMC_DIMM_SIZE_GIB c)) (setDmc c 3 (zeroed c s)))))) ∧
  (∀ (w : Win) (c : Nat) (s : State), c < 4 → Passes w (0x20 + c) s → mayInstall s w = true → isSet s (DMC_CMD_GO c) = false → dmcState s c = 5 →
    ∃ t, exec (.dramRelease w c) s = .next t ∧ dmcState t c = 1 ∧ isSet t (DMC_CMD_GO c) = true ∧ t.io = s.io ∧ t.store = s.store)

/-- The code's verdict on no error, one failed device, two, and a x8 device's halves. A burst with a correctable error is corrected and reported, one
with an uncorrectable error is not, as `corrected` and `uncorrected` say. A clean scrub read moves the scrubber one line on. DIAG_READ of a frozen
channel shows what is stored there, or what devices in error gave, and the verdict. The end of a speed change sets the speed of every channel in it
and takes it back to ACTIVE, or to INIT where it came from there. A refresh closes its channel's banks, and one that may wait is postponed up to four
times; an urgent request is counted; an idle row closes. Rests on R305, R307 to R310, R312, R314, R317. Where the spec leaves a choice, a clause
states the model's own (notes/assumptions/64.md). -/
def Obligations.DramErrorsAndRowsAreHandled : Prop :=
  (∀ (x8 : Bool) (d e lo hi lo2 hi2 : Nat), d < 10 → e < 10 → d ≠ e → lo % 256 ≠ 0 → lo2 % 256 ≠ 0 →
    eccResult x8 [] = .clean ∧ eccResult false [⟨d, lo, hi⟩] = .corrected d lo ∧ eccResult false [⟨d, lo, hi⟩, ⟨e, lo2, hi2⟩] = .uncorrected d lo ∧
    (d < 5 → hi % 256 = 0 → eccResult true [⟨d, lo, hi⟩] = .corrected (2 * d) lo) ∧
    (d < 5 → hi % 256 ≠ 0 → eccResult true [⟨d, lo, hi⟩] = .uncorrected (2 * d) lo)) ∧
  (∀ (c u m : Nat) (req : DramReq) (devs lo hi : List Nat) (s : State), c < 4 → serves s c = true → devErrsOk (devErrs devs (lo.zip hi)) = true →
    (eccOf s c (devErrs devs (lo.zip hi)) = .corrected u m → exec (.dramCorrectedBurst c req devs lo hi) s =
      .next (onlyIf (isSet s (DMC_CFG_CORR_WB c)) (access c req.addr) (corrected c req.addr req.master u m (access c req.addr s)))) ∧
    (eccOf s c (devErrs devs (lo.zip hi)) = .uncorrected u m → exec (.dramUncorrectedBurst c req devs lo hi) s = .next (uncorrected c req.addr u m (access c req.addr s)))) ∧
  (∀ (c : Nat) (s : State), c < 4 → dmcState s c = 3 → isSet s (DMC_INIT_WM_DONE c) = true → getFld s PWR_STAT_STATE ≠ 4 →
    smGetD s.dram.scrub c 0 + 64 < getFld s (DMC_DIMM_SIZE_GIB c) * 2 ^ 30 →
    exec (.scrubRead c []) s = .next (setFld (DMC_SCRUB_POS_MIB c) ((smGetD s.dram.scrub c 0 + 64) / 2 ^ 20)
      (updDram (fun d => { d with scrub := smSet d.scrub c (smGetD s.dram.scrub c 0 + 64) }) (access c (smGetD s.dram.scrub c 0) s)))) ∧
  (∀ (w : Win) (c hi data : Nat) (devs : List Nat) (syms : List (Nat × Nat)) (s : State), c < 4 → Passes w (0x20 + c) s → mayInstall s w = true → dmcState s c = 5 →
    data < 2 ^ (DMC_DIAG_DATA_DATA c).width → hi < 2 ^ (DMC_DIAG_ADDR_HI_ADDR c).width → devErrsOk (devErrs devs syms) = true →
    ∃ t, exec (.diagRead w c hi data devs syms) s = .next t ∧ (devErrs devs syms ≠ [] → getFld t (DMC_DIAG_DATA_DATA c) = data) ∧
      (devErrs devs syms = [] → getFld t (DMC_DIAG_DATA_DATA c) =
        ((channelWord s c (4 * getFld s (DMC_DIAG_ADDR_LO_ADDR c) + 2 ^ 32 * hi)).getD data) % 2 ^ (DMC_DIAG_DATA_DATA c).width) ∧ isSet t (DMC_DIAG_STAT_VALID c) = true ∧
      isSet t (DMC_DIAG_STAT_CE c) = eccCorrected (eccOf s c (devErrs devs syms)) ∧ isSet t (DMC_DIAG_STAT_UE c) = eccUncorrected (eccOf s c (devErrs devs syms)) ∧ dmcState t c = 5) ∧
  (∀ (s : State), channels.all (fun c => decide (dmcState s c ≠ 4)) = true → exec .freqChangeDone s = .next s) ∧
  (∀ (s : State), exec .freqChangeDone s = .next (channels.foldl (fun t c => if dmcState t c ≠ 4 then t else
    dmcEvt c DMC_EVT_FREQ_DONE (setDmc c (if c ∈ t.dram.back then 2 else 3) (showSpeed c t))) s)) ∧
  (∀ (c : Nat) (s : State), c < 4 → isSet (showSpeed c s) (DMC_SPEED_SET c) = decide (getFld s PWR_STAT_STATE = 2) ∧
    getFld (showSpeed c s) (DMC_SPEED_CUR c) = if getFld s PWR_STAT_STATE = 2 then 3 else runSpeed s) ∧
  (∀ (c : Nat) (s : State), c < 4 → dmcState s c = 3 →
    exec (.dramRefresh c false) s = .next (updDram (fun d => { d with post := smSet d.post c 0, banks := d.banks.map (fun q => if q.1 / 128 = c then (q.1, { q.2 with row := none }) else q) }) s) ∧
    (smGetD s.dram.post c 0 < 4 → exec (.dramRefresh c true) s = .next (updDram (fun d => { d with post := smSet d.post c (smGetD s.dram.post c 0 + 1) }) s)) ∧
    (∀ port, port < 6 → exec (.requestUrgent c port) s = .next (incFld (DMC_URGENT_COUNT c) 1 s))) ∧
  (∀ (c sub rank group bank : Nat) (b : Bank) (s : State), c < 4 → sub < 2 → rank < 2 → group < 8 → bank < 4 →
    smGet s.dram.banks (bankKey c sub rank group bank) = some b →
    exec (.rowIdleClose c sub rank group bank) s = .next (updDram (fun d => { d with banks := smSet d.banks (bankKey c sub rank group bank) { b with row := none } }) s))

/-- A link that trains to this node itself stays out of service (state 3), one to another node comes up and greets it; a retrain that times out takes
the link down. A flit of a wrong length or CRC is counted and answered with a NAK; a data flit in turn is accepted and its credits go back. A NAK and
the replay timer replay the flits kept, the fourth replay in a row retrains, and an acknowledgement that is due goes out. A message for another node
goes on with one hop less, or is dropped where it has none left. A latency ping goes out, PING is answered and PONG gives the latency. An idle link to
no partner rests at NIGHT. Rests on R320 to R325, R329 to R331, R341, R342, R344. Where the spec leaves a choice, a clause states the model's own
(notes/assumptions/68.md, notes/assumptions/69.md, notes/assumptions/70.md, notes/assumptions/71.md, notes/assumptions/72.md). -/
def Obligations.TashaopLinksCarryFlits : Prop :=
  (∀ (x speed width : Nat) (rev : Bool) (node link : Nat) (s : State), x < 8 → node < 512 → link < 8 → speed = 2 → width = 4 → tlkState s x ≤ 1 →
    enabled s (0xC8 + x) = true → fenced s (0xC8 + x) = false → (0xC8 + x) ∉ s.pwr.dead → isSet s (TLK_CFG_MAX_32 x) = true → node = nodeId s →
    ∃ t, exec (.tlkTrainingDone x speed width rev node link) s = .next t ∧ tlkState t x = 3 ∧ getFld t (TLK_STAT_SPEED x) = 2 ∧ getFld t (TLK_STAT_WIDTH x) = 4 ∧
      getFld t (TLK_STAT_NEIGH_NODE x) = node) ∧
  (∀ (x node link : Nat) (rev : Bool) (s : State), x < 8 → node < 512 → link < 8 → tlkState s x ≤ 1 →
    enabled s (0xC8 + x) = true → fenced s (0xC8 + x) = false → (0xC8 + x) ∉ s.pwr.dead → isSet s (TLK_CFG_MAX_32 x) = true → node ≠ nodeId s →
    let t := setFld (TLK_STAT_SPEED x) 2 (setFld (TLK_STAT_WIDTH x) 4 (setFlag (TLK_STAT_REVERSED x) rev
      (setFld (TLK_STAT_NEIGH_NODE x) node (setFld (TLK_STAT_NEIGH_LINK x) link s))))
    exec (.tlkTrainingDone x 2 4 rev node link) s = .next (pump x (sendCtrlSoon x (leBytes (nodeId s) 2 ++ leBytes x 1)
      (tlkEvt x TLK_EVT_UP (setFld (PG_STAT_STATE (0xC8 + x)) 2 (learn x node (freshLink x node t))))))) ∧
  (∀ (x : Nat) (s : State), x < 8 → tlkState s x = 4 → exec (.retrainTimeout x) s = .next (linkDown x s)) ∧
  (∀ (x : Nat) (b : List Byte) (s : State), x < 8 → tlkState s x = 2 →
    (b.length ≠ 32 ∨ leAt b 28 4 ≠ crc32 (slice b 0 28) → exec (.flitReceived x b) s = .next (sendNak x (incFld (TLK_CRC_COUNT x) 1 s))) ∧
    (b.length = 32 → leAt b 28 4 = crc32 (slice b 0 28) → 2 ≤ bitsOf (leAt b 0 4) 10 3 → bitsOf (leAt b 0 4) 10 3 < 5 → (leAt b 0 4).testBit 24 = false →
      leAt b 0 4 % 1024 = (tlkOf s x).expect →
      let t := returnCredits 128 x (pump x (acceptFlit x (bitsOf (leAt b 0 4) 10 3) b s))
      exec (.flitReceived x b) s = .next (if 32 ≤ (tlkOf t x).due then sendIdle x t else t))) ∧
  (∀ (x seq : Nat) (s : State), x < 8 → seq < 1024 → tlkState s x = 2 → (tlkOf s x).retry.dropWhile (fun f => decide (f.seq ≠ seq)) ≠ [] →
    exec (.nakReceived x seq) s = .next (replayAgain x ((tlkOf s x).retry.dropWhile (fun f => decide (f.seq ≠ seq))) s)) ∧
  (∀ (x : Nat) (s : State), x < 8 → tlkState s x = 2 → (tlkOf s x).retry ≠ [] →
    exec (.replayTimer x) s = .next (replayAgain x (tlkOf s x).retry s)) ∧
  (∀ (x : Nat) (fs : List TxFlit) (s : State), x < 8 →
    let t := replayFrom x fs (updTlk x (fun y => { y with replays := y.replays + 1 }) s)
    replayAgain x fs s = (if (tlkOf s x).replays < 3 then t else retrain x (tlkEvt x TLK_EVT_REPLAY_LIMIT (updTlk x (fun y => { y with replays := 0 }) t)))) ∧
  (∀ (x : Nat) (s : State), x < 8 → tlkState s x = 2 → (tlkOf s x).due ≠ 0 → exec (.ackTimer x) s = .next (sendIdle x s)) ∧
  (∀ (x : Nat) (m : Msg) (s : State), x < 8 → m.dst < 512 → m.src < 512 → m.dst ≠ nodeId s → tlkState s x = 2 →
    (m.hops = 0 → exec (.messageForward x .renew m) s = .next (tlkEvt x TLK_EVT_HOP_DROP (incFld (TLK_DROP_COUNT x) 1 s))) ∧
    (m.hops ≠ 0 → isSet s (TRT_ENTRY_VALID m.dst) = true → m.src ≠ nodeId s →
      exec (.messageForward x .renew m) s = .next (routeMsg { kind := .renew, m := { m with hops := m.hops - 1 }, note := none, via := x }
        (fun t => tlkEvt x TLK_EVT_HOP_DROP (incFld (TLK_DROP_COUNT x) 1 t)) s))) ∧
  (∀ (x nb : Nat) (s : State), x < 8 → tlkState s x = 2 → (tlkOf s x).nb = some nb →
    exec (.latencyPingTimer x) s = .next (sendOn x { kind := .ping, m := { hops := 3, dst := nb, src := nodeId s, tag := 0, arg := devTime s, arg2 := 0, body := [] }, note := none } s)) ∧
  (∀ (x : Nat) (m : Msg) (s : State), x < 8 → m.src < 512 → tlkState s x = 2 → m.dst = nodeId s →
    exec (.ping x m) s = .next (sendOn x { kind := .pong, m := { hops := 3, dst := m.src, src := nodeId s, tag := m.tag, arg := m.arg, arg2 := 0, body := [] }, note := none } s) ∧
    exec (.pong x m) s = .next (setFld (TLK_LAT_NS x) (min ((devTime s - m.arg - m.arg2) / 2) 65535) s)) ∧
  (∀ (x : Nat) (s : State), x < 8 → tlkState s x = 2 → getFld s PWR_STAT_STATE = 2 → isSet s (PG_CTL_CLK_REQ (0xC8 + x)) = false → (tlkOf s x).queue = [] →
    (tlkOf s x).cur = [] → (tlkOf s x).resend = [] → (tlkOf s x).retry = [] → partnerLink s x = false → exec (.tlkL1Entry x) s = .next (setFld (PG_STAT_ASLEEP (0xC8 + x)) 1 s))

/-- A renewal goes to every standby with its attached plates, and is answered and kept; an answer from an acknowledged standby is kept. A lease that
ends starts the takeover of its plates; PREEMPT with readable members takes the plate, its time limit fails the takeover, and the end of replay ends
it. The owner takes the reservations of a standby whose lease lapsed and detaches it once they are reported. A fence notice starts takeovers and drops
standbys. The master sends the time and a follower steps or slews to it. Rests on R336 to R341. Where the spec leaves a choice, a clause states the
model's own (notes/assumptions/74.md, notes/assumptions/76.md). -/
def Obligations.LeasesAndTakeovers : Prop :=
  (∀ (s : State), mute s = false →
    let t := updLink (fun l => { l with renews := (l.renews + 1) % 2 ^ 32 }) s
    exec .leaseRenewTimer s = .next ((standbys s).foldl (fun u n =>
      sendMsg n .renew 0 (maskOf (((platesWith s n).filter (fun q => q.2.attached)).map Prod.fst)) t.link.renews [] u) t)) ∧
  (∀ (m : Msg) (s : State), m.src < 512 → m.dst = nodeId s → mute s = false →
    exec (.renew m) s = .next (sendMsg m.src .renewAck m.tag m.arg m.arg2 [] ((heldOf s m.src).foldl
      (fun u q => if q.2.index ∉ ofMask m.arg then dropHeld q.1 u else u)
      (updLink (fun l => { l with leased := smSet l.leased m.src m.arg, seen := smSet l.seen m.src (devTime s) }) s)))) ∧
  (∀ (m : Msg) (s : State), m.src < 512 → m.dst = nodeId s → mute s = false → m.src ∈ standbys s → m.src ∈ s.link.acked →
    (∀ q ∈ platesWith s m.src, q.2.attached = true) →
    exec (.renewAck m) s = .next (updLink (fun l => { l with seen := smSet l.seen m.src (devTime s), acked := l.acked }) s)) ∧
  (∀ (owner mask : Nat) (s : State), owner < 512 → smGet s.link.leased owner = some mask → mute s = false →
    let t := trtEvt TRT_EVT_LEASE_EXPIRED (updLink (fun l => { l with leased := smDel l.leased owner }) s)
    exec (.leaseExpired owner) s = .next (((heldOf t owner).filter (fun q => decide (q.2.index ∈ ofMask mask))).foldl (fun u q => takeStart q.1 u) t)) ∧
  (∀ (node : Nat) (s : State), node < 512 → node ∈ standbys s → devFenced s = false → s.link.offers = [] →
    let t := updLink (fun l => { l with acked := l.acked.filter (· ≠ node) }) s
    exec (.leaseDrop node) s = .next (((platesWith t node).filter (fun q => q.2.attached)).foldl (fun u q =>
      (dualMembers u q.2).foldl (fun v m => resvSend q.1 m 3 (resvKey q.2.resvGen (nodeId v)) 0 v) u) t)) ∧
  (∀ (p : Nat) (x : Plate) (s : State), p < 64 → plateOf s p = some x → x.attached = true → x.standby ∉ s.link.acked →
    exec (.reservationReportComplete p true) s = .next (trtEvt TRT_EVT_STANDBY_LOST (incFld TRT_DROPS_COUNT 1 (detach p s)))) ∧
  (∀ (id : Nat) (md : PlateMedia) (h : HeldPlate) (s : State), smGet s.link.held id = some h → h.taking = 1 → md.plateId = id → mute s = false → h.index < 64 →
    plateOf s h.index = none →
    let r := takenPlate s h md
    let on := r.1.membersIn [.online]
    let t := mediaRecords h.index on md (dropTagCache h.index (fun _ => true) (setFld (PG_STAT_READY (0x40 + h.index)) 1
      (updStore (fun u => { u with plates := smSet u.plates h.index r.1 })
        (updHeld id (fun y => { y with taking := 2, here := h.index })
          (updCache (fun t => { t with jrec := smSet t.jrec h.index (mediaJournal id (readMems on md)) }) s)))))
    assemblyFails r.2 = [] →
    exec (.preemptComplete id md) s = .next (resumeCycle h.index (cycleSync h.index (startLabel h.index (claimAs h.index (r.1.labelGen + 1)
      ((dualMembers t r.1).foldl (fun u m => setFld (DPT_RESV_ROLE m.2.port) 1 u) t)))))) ∧
  (∀ (id : Nat) (h : HeldPlate) (s : State), smGet s.link.held id = some h → h.taking = 1 →
    exec (.preemptTimeout id) s = .next (trtEvt TRT_EVT_TAKEOVER_FAIL (releaseResv 64 h.plate (updHeld id (fun y => { y with taking := 4 }) s)))) ∧
  (∀ (id : Nat) (h : HeldPlate) (s : State), smGet s.link.held id = some h → h.taking = 3 → plateQuiet s h.here = true →
    exec (.takeoverDone id) s = .next (resumePass h.here (joinPair h.here (refreshPlate h.here (trtEvt TRT_EVT_TAKEOVER_DONE (incFld TRT_TAKEOVERS_COUNT 1
      (updPlate h.here (fun x => { x with gone := false }) (dropHeld id s)))))))) ∧
  (∀ (m : Msg) (s : State), m.src < 512 → m.dst = nodeId s → mute s = false →
    let t := trtEvt TRT_EVT_FENCE_RCVD s
    let u := ((heldOf t m.src).filter (fun q => decide (q.2.index ∈ ofMask (leAt m.body 0 8)))).foldl (fun u q => takeStart q.1 u) t
    exec (.fenceNotice m) s = .next (((platesWith u m.src).filter (fun q => decide (q.1 ∈ ofMask (leAt m.body 8 8)))).foldl (fun u q => standbyLost q.1 false u) u)) ∧
  (∀ (followers : List Nat) (s : State), followers.all (fun n => decide (n < 512)) = true → getFld s TRT_TIME_MASTER = nodeId s → mute s = false →
    exec (.timeSyncTimer followers) s = .next (followers.foldl (fun t n => sendMsg n .sync 0 (toU64 (mtrTime t)) 0 [] t) s)) ∧
  (∀ (m : Msg) (s : State), m.src < 512 → m.dst = nodeId s → mute s = false → isSet s MTR_CFG_TSRC = true → m.src = getFld s TRT_TIME_MASTER → m.src ≠ nodeId s →
    let e := signed64 m.arg + (m.arg2 : Int) - mtrTime s
    let t := setFld TRT_TERR_NS (sat32 e) s
    exec (.sync m) s = .next (if e ≤ 1000000000 ∧ -1000000000 ≤ e then mtrSlew e t else mtrStep e t))

/-- ATTACH of a served plate to a reachable node names the standby, starts a label update and offers it the plate; DETACH detaches the standby,
removes it from the plate and ends with OK. An offer of a plate whose label governs here and whose members this node reaches and whose reservations
hold is accepted and held; an offer of one already attached is refused. An acceptance marks the plate attached and either answer ends the offer. A
first claim is kept. Rests on R332, R343, R345. Where the spec leaves a choice, a clause states the model's own (notes/assumptions/75.md). -/
def Obligations.StandbysAreAttached : Prop :=
  (∀ (w : Win) (p node : Nat) (x : Plate) (s : State), Passes w 0xD0 s → mayInstall s w = true → isSet s TRT_CMD_GO = false → p < 64 → node < 512 →
    plateOf s p = some x → x.served = true → x.standby = 0xFFFF →
    let t := loaded w 0xD0 TRT_CMD_OP 1 [(TRT_CMD_PLATE, p), (TRT_CMD_NODE, node)] TRT_CMD_GO TRT_CMD_RES_DONE s
    reachable t node = true →
    let t1 := startLabel p (updPlate p (fun y => { y with standby := node }) t)
    ∀ y, plateOf t1 p = some y → exec (.trtAttach w p node) s = .next (offer p y true t1)) ∧
  (∀ (w : Win) (p : Nat) (x : Plate) (s : State), Passes w 0xD0 s → mayInstall s w = true → isSet s TRT_CMD_GO = false → p < 64 →
    plateOf s p = some x → x.standby ≠ 0xFFFF →
    exec (.trtDetach w p) s = .next (trtEnd .ok (releaseResv p x (startLabel p (updPlate p (fun y => { y with standby := 0xFFFF })
      (detach p (offerEnd p .stateConflict (loaded w 0xD0 TRT_CMD_OP 2 [(TRT_CMD_PLATE, p)] TRT_CMD_GO TRT_CMD_RES_DONE s))))))) ) ∧
  (∀ (m : Msg) (reach resvOk : Bool) (found : List FoundNs) (media : List PlateMedia) (s : State), m.src < 512 → m.dst = nodeId s → mute s = false →
    (∀ gov, smGet s.link.held m.arg = none → governing (labelsOf found (mediaOf media m.arg)) m.arg = some gov → reach = true → resvOk = true →
      (buildPlate s gov ((List.range (leAt gov 0x22 1)).map (slotMember s found (mediaOf media m.arg) gov)) (mediaOf media m.arg)).members.all
        (reachesMember s) = true →
      ((s.link.held.filter (fun q => decide (q.2.plate.owner = m.src))).map (fun q => (smGetD s.link.mirror q.1 []).length)).sum < 49152 →
      ∃ h t, exec (.attachOffer m reach resvOk found media) s = .next (sendMsg m.src .attachAccept m.tag m.arg 0 [] t) ∧
        smGet t.link.held m.arg = some h ∧ h.attached = true ∧ h.plate.owner = m.src ∧ h.taking = 0 ∧ h.plate.resvGen = leAt m.body 0 8) ∧
    (∀ h, smGet s.link.held m.arg = some h → h.attached = true →
      exec (.attachOffer m reach resvOk found media) s = .next (sendMsg m.src .attachRefuse m.tag m.arg 4 [] s))) ∧
  (∀ (m : Msg) (pool p : Nat) (x : Plate) (s : State), m.src < 512 → m.dst = nodeId s → mute s = false → offered s m.arg m.src = some (p, x) → plateEntries s p = [] →
    m.src ∈ s.link.acked → isSet s CCH_CFG_PARTNER_EN = false →
    ∃ t, exec (.attachAccept m pool) s = .next t ∧ (plateOf t p).map Plate.attached = some true ∧ smGet t.link.offers p = none) ∧
  (∀ (m : Msg) (p : Nat) (x : Plate) (s : State), m.src < 512 → m.dst = nodeId s → mute s = false → offered s m.arg m.src = some (p, x) →
    (smGet s.link.offers p).map (fun o => o.2) = some false → exec (.attachRefuse m) s = .next (updLink (fun l => { l with offers := smDel l.offers p }) s)) ∧
  (∀ (m : Msg) (s : State), m.src < 512 → m.dst = nodeId s → mute s = false → smGet s.link.claims m.arg = none →
    exec (.claim m) s = .next (updLink (fun l => { l with claims := smSet l.claims m.arg (m.src, leAt m.body 0 8) }) s))

/-- For a plate held for its owner, a journal entry is kept or dropped by its state, a valid progress or Proof record is appended, and a suspect entry
that ends is removed. Reads and allowed writes of a member here are served; an answer to a request goes on with what the request was for, or is
treated as a reservation conflict. A remote write that times out fails its member, and a node without a route makes its members missing. A mirrored
slot is taken into a free pool place and acknowledged; its acknowledgement lets the entry go on; a release frees its place; a lost mirror suspends the
partner. Rests on R142, R333 to R335, R345. Where the spec leaves a choice, a clause states the model's own (notes/assumptions/73.md,
notes/assumptions/77.md, notes/assumptions/78.md). -/
def Obligations.PartnersKeepAndServe : Prop :=
  (∀ (m : Msg) (h : HeldPlate) (s : State), m.src < 512 → m.dst = nodeId s → mute s = false → smGet s.link.held m.arg = some h → h.plate.owner = m.src →
    h.attached = true →
    exec (.journalEntryMessage m) s = .next (updLink (fun l => { l with mirror := smSet l.mirror m.arg (if recState (slice m.body 0 128) = 0 then smDel (smGetD s.link.mirror m.arg []) (m.arg2 % 2 ^ 16) else smSet (smGetD s.link.mirror m.arg []) (m.arg2 % 2 ^ 16) (slice m.body 0 128)) }) s) ∧
    (progValid (slice m.body 0 256) = true → leAt (slice m.body 0 256) 0x10 8 = m.arg →
      (leAt (slice m.body 0 256) 9 1 = 0 → exec (.progress m) s = .next (progAppend (slice m.body 0 256) s)) ∧
      (leAt (slice m.body 0 256) 9 1 = 1 → exec (.proof m) s = .next (progAppend (slice m.body 0 256) s))) ∧
    (m.arg2 % 2 = 0 →
      let rest := s.store.suspects.filter (fun y => !decide (y.plateId = (readSuspect m.arg m.body).plateId ∧ y.sn = (readSuspect m.arg m.body).sn))
      let t := updStore (fun u => { u with suspDirty := true, suspects := rest }) s
      exec (.suspect m) s = .next (if rest.length < 4096 then setFld PRF_SUSP_FULL 0 t else t))) ∧
  (∀ (m : Msg) (s : State), m.src < 512 → m.dst = nodeId s → mute s = false → portState s (bitsOf m.arg 48 6) = 4 →
    exec (.memberIoRead m) s = .next (serve m .read s) ∧
    (mayWrite s m = true → exec (.memberIoWrite m) s = .next (serve m .write (if m.arg % 2 ^ 48 = 0 ∨ m.arg % 2 ^ 48 = 128 then
      updNs (bitsOf m.arg 48 6) m.arg2 (noteLabel (m.arg % 2 ^ 48) m.body) s else s))) ∧
    (∀ op, serve m op s = sendNv { plate := 64, mem := 0, node := nodeId s, port := bitsOf m.arg 48 6, nsid := m.arg2, sn := 0, pos := 0, op := op, lba := m.arg % 2 ^ 48, n := 1, data := if op = .write then slice m.body 0 4096 else [], why := .remote m.src m.tag m.arg, tries := 0 } s)) ∧
  (∀ (m : Msg) (tag key : Nat) (c : NvCmd) (s : State), m.src < 512 → m.dst = nodeId s → mute s = false → smGet s.io.nvme m.tag = some c → c.node = m.src →
    devFenced s = false →
    (m.arg2.testBit 16 = true → exec (.memberIoCompletion m tag) s = .next (conflictAt c (endNv m.tag s))) ∧
    (m.arg2.testBit 16 = false → c.why = .tagRd key → exec (.memberIoCompletion m tag) s = .next (tagRead m.tag (nvmeOf (m.arg2 % 2 ^ 16)) (words m.body) s))) ∧
  (∀ (id : Nat) (c : NvCmd) (s : State), smGet s.io.nvme id = some c → c.node ≠ nodeId s →
    exec (.memberIoTimeout id) s = .next (failMember c.plate c.mem .failed (if c.op = .read then readLost c (endNv id s) else endNv id s))) ∧
  (∀ (node : Nat) (s : State), node < 512 → node ≠ nodeId s → routeLinks s node = [] →
    exec (.remoteRouteTimeout node) s = .next (failAll (s.store.plates.flatMap (fun q => ((List.range q.2.members.length).filter (fun i =>
      decide ((q.2.mem i).map Member.node = some node))).map (fun i => (q.1, i)))) .missing s)) ∧
  (∀ (m : Msg) (id q : Nat) (h : HeldPlate) (s : State), m.src < 512 → m.dst = nodeId s → mute s = false →
    (heldOf s m.src).find? (fun r => decide (r.2.index = bitsOf m.arg 32 6)) = some (id, h) →
    s.link.pool.find? (fun r => decide (r.2.owner = m.src ∧ r.2.num = m.arg % 2 ^ 32)) = none → poolFree s = some q →
    ∃ x t, exec (.mirrorWrite m) s = .next (sendMsg m.src .mirrorAck m.tag m.arg 0 [] t) ∧ x.state = .dirty ∧ x.data = trimBlock (slice m.body 16 4096) ∧
      t = updLink (fun l => { l with pool := smSet l.pool q { owner := m.src, num := m.arg % 2 ^ 32, plateId := id, slot := x } }) s) ∧
  (∀ (m : Msg) (j : Nat) (s : State), m.src < 512 → m.dst = nodeId s → mute s = false → smGet s.cache.pmirWait m.tag = some (m.src, j) →
    exec (.mirrorAck m) s = .next (cacheStaged j (updEntry j (fun e => { e with mirWait := e.mirWait - 1 }) (updCache (fun c => { c with pmirWait := smDel c.pmirWait m.tag }) s)))) ∧
  (∀ (m : Msg) (s : State), m.src < 512 → m.dst = nodeId s → mute s = false → (heldOf s m.src).any (fun q => decide (q.2.index = bitsOf m.arg 32 6)) = true →
    exec (.mirrorRelease m) s = .next (updLink (fun l => { l with pool := l.pool.filter (fun q => !decide (q.2.owner = m.src ∧ q.2.num = m.arg % 2 ^ 32)) }) s)) ∧
  (∀ (m : Msg) (s : State), m.src < 512 → m.dst = nodeId s → mute s = false → m.src ∈ standbys s → exec (.mirrorLost m) s = .next (pmirSuspend m.src s))

/-- GO starts an idle channel with its descriptor or at the head of its list, and STOP ends a pending one, and cuts a running one after its burst. A
chained descriptor that can be read is taken; one outside the memories, or that a memory error hits, ends the channel with FETCH_ERR. A request pulse
is counted at the channels it paces, up to 15 held. A FILL burst to a side other than a host, that its pace and its channel allow, writes its
pattern's bytes and moves on. A host side that holds too long cuts the unit. A unit that is done ends as `unitEnd` says: in register mode its STATUS
shows DONE alone, END is raised, the unit is counted and the channel is IDLE. Rests on R347 to R352, R354 to R359. Where the spec leaves a choice, a
clause states the model's own (notes/assumptions/66.md, notes/assumptions/67.md). -/
def Obligations.GraverRunsItsUnits : Prop :=
  (∀ (w : Win) (c : Nat) (s : State), c < 16 → Passes w (0xE0 + c) s → chState s c = 0 → fenced s 0xDF = false → fenced s (0xE0 + c) = false →
    exec (.graverGo w c false) s = .next (chooseUnit (updMch c (fun _ => { loaded := true, off := 0, ended := none })
      (setFld (MCH_CH_CTL_GO c) 1 (setFld (MCH_CH_STAT_STATE c) 1 (setFld (PG_STAT_ASLEEP (0xE0 + c)) 0 (setFld (PG_STAT_ASLEEP 0xDF) 0
        (seqIf (0xE0 + c) (admitted w (0xE0 + c) s) (setFlag (MCH_CH_CTL_CHAIN c) false (admitted w (0xE0 + c) s)))))))))) ∧
  (∀ (w : Win) (c : Nat) (s : State), c < 16 → Passes w (0xE0 + c) s → chState s c = 0 → fenced s 0xDF = false → fenced s (0xE0 + c) = false →
    let t := setFld (MCH_CH_CTL_GO c) 1 (setFld (MCH_CH_STAT_STATE c) 1 (setFld (PG_STAT_ASLEEP (0xE0 + c)) 0 (setFld (PG_STAT_ASLEEP 0xDF) 0
        (seqIf (0xE0 + c) (admitted w (0xE0 + c) s) (setFlag (MCH_CH_CTL_CHAIN c) true (admitted w (0xE0 + c) s))))))
    exec (.graverGo w c true) s = .next (chooseUnit (updMch c (fun _ => { loaded := false, off := 0, ended := none })
      (setFld (MCH_CH_CUR_LO_ADDR c) (getFld t (MCH_CH_HEAD_LO_SPACE c) + 128 * getFld t (MCH_CH_HEAD_LO_ADDR c))
        (setFld (MCH_CH_CUR_HI_ADDR c) (getFld t (MCH_CH_HEAD_HI_ADDR c)) t))))) ∧
  (∀ (w : Win) (c : Nat) (s : State), c < 16 → Passes w (0xE0 + c) s → chState s c = 1 →
    ∃ t, exec (.graverStop w c) s = .next t ∧ chState t c = 0 ∧ isSet t (MCH_CH_CTL_GO c) = false) ∧
  (∀ (w : Win) (c : Nat) (s : State), c < 16 → Passes w (0xE0 + c) s → exec (.graverStop w c) s = .next (stopCh c (admitted w (0xE0 + c) s))) ∧
  (∀ (c : Nat) (s : State), c < 16 → (chState s c = 0 → stopCh c s = s) ∧ (chState s c = 2 → (mchOf s c).loaded = true → stopCh c s = cutUnit c 8 s) ∧
    (chState s c = 3 → stopCh c s = showMover (idleCh c s))) ∧
  (∀ (c : Nat) (s : State), c < 16 → isSet s (MCH_CH_CTL_CHAIN c) = true → chState s c = 1 → (mchOf s c).loaded = false →
    let v := getFld s (MCH_CH_CUR_LO_ADDR c) + 2 ^ 32 * getFld s (MCH_CH_CUR_HI_ADDR c)
    let b := (List.range 128).map (fun i => BitVec.ofNat 8 (readByte s (v % 2) (v / 128 * 128 + i) i))
    let t := updMch c (fun _ => { loaded := true, off := 0, ended := none }) (setDesc c b (useFresh 128 (descRead (v % 2) (v / 128 * 128) s)))
    let gone := fun (u : State) => chooseUnit (releaseMover c (idleCh c (setEvt (0xE0 + c) MCH_EVT_END (setEvt (0xE0 + c) MCH_EVT_FETCH_ERR u))))
    (byteFail s (v % 2) (v / 128 * 128) = 0 → (v % 2 = 1 → lineHeld s (v / 128 * 128) false = false) → chState t c = 1 → exec (.descriptorFetch c none) s = .next (chooseUnit t)) ∧
    (byteFail s (v % 2) (v / 128 * 128) ≠ 0 → ∀ ue, exec (.descriptorFetch c ue) s = .next (gone s)) ∧
    (byteFail s (v % 2) (v / 128 * 128) = 0 → v % 2 = 0 → ∀ e : MoveErr,
      exec (.descriptorFetch c (some e)) s = .next (gone (report 0x02 0xDF (v / 128 * 128 + e.off % 128) s)))) ∧
  (∀ (src : Nat) (s : State), src < 72 → exec (.graverRequestPulse src) s = .next (chooseUnit ((List.range 16).foldl (fun t c =>
      if chState t c = 0 ∨ (mchOf t c).loaded = false ∨ dPace (descBytes t c) ≠ 2 ∨ dReq (descBytes t c) ≠ src then t
      else if getFld t (MCH_CH_REQ_HELD c) < 15 then incFld (MCH_CH_REQ_HELD c) 1 t else satFld (MCH_CH_REQ_CH_REQ_LOST c) 1 t) s))) ∧
  (∀ (c : Nat) (h1 h2 : HostRd) (s : State), s.mover.run = some c → (mchOf s c).loaded = true → (mchOf s c).ended = none →
    let b := descBytes s c
    let p := (mchOf s c).off
    p < dTotal b → dPace b ≠ 2 → (dPace b = 1 → 4 * burstLen b p ≤ allowance s c (dRate b)) → dOp b = 1 → (dstSide b).space ≠ 2 →
    dramHeld s b (dstSide b) true p (burstLen b p) = false →
    sideFail s b (dstSide b) p (burstLen b p) = none →
    exec (.graverBurst h1 h2 none) s = .next (moved c (burstLen b p) (sideWrite b (dstSide b) p
      ((List.range (burstLen b p)).map (fun i => bitsOf (srcSide b).base (8 * (byteAddr b (dstSide b) (p + i) % 8)) 8))
      (useFresh 512 (spendAllow c b (burstLen b p) s))))) ∧
  (∀ (c : Nat) (s : State), s.mover.run = some c → (mchOf s c).loaded = true → hostHeld s (dstSide (descBytes s c)) = true →
    exec .graverHoldTimeout s = .next (cutUnit c 5 s)) ∧
  (∀ (c : Nat) (s : State), s.mover.run = some c → c < 16 → (mchOf s c).loaded = true → dTotal (descBytes s c) ≤ (mchOf s c).off →
    exec .graverUnitEnd s = .next (unitEnd s)) ∧
  (∀ (c : Nat) (s : State), s.mover.run = some c → c < 16 → (mchOf s c).loaded = true → isSet s (MCH_CH_CTL_CHAIN c) = false → (mchOf s c).ended = none →
    dTotal (descBytes s c) ≤ (mchOf s c).off →
    ∃ t, exec .graverUnitEnd s = .next t ∧ chState t c = 0 ∧ isSet t (MCH_CH_CTL_GO c) = false ∧ getFld t (CH_DESC c 1) = 1 ∧
      (getFld t (PG_EVT_EVT (0xE0 + c))).testBit MCH_EVT_END = true ∧ getFld t (MCH_CH_DONE_COUNT c) = (getFld s (MCH_CH_DONE_COUNT c) + 1) % 2 ^ 32)

/-- A rising edge of a line is latched. The offered edge source without moderation is claimed: its core enters at its vector, its latch clears and the
delivery is counted. EOI of a source its core has claimed ends the claim, and EOI of source 0 raises EOI_BAD. ICU_SWI sets the latches of its bits,
and ICU_PEND clears those of the word it selects. Moderation's end lets its source go. A deliverable source whose core has no power moves to the
fallback core and is counted. WFI is shown at its core. Rests on R363 to R371. Where the spec leaves a choice, a clause states the model's own
(notes/assumptions/80.md, notes/assumptions/81.md). -/
def Obligations.InterruptsAreClaimedAndEnded : Prop :=
  (∀ (src : Nat) (s : State), 32 ≤ src → src < 240 → drivenLine s src = some true → src ∉ s.icu.lines → sense s src = 2 →
    ∃ t, exec (.interruptSourceEdge src false) s = .next (if cclkOn s then icuHost t else t) ∧ src ∈ t.icu.lines ∧ latched t src = true) ∧
  (∀ (n src : Nat) (s : State), n < 4 → offerOf s n = some src → isEdge s src = true → getFld s (ICU_SRC_CFG_MOD src) = 0 →
    exec (.interruptClaim n false) s = .next (emit (.core n (vecAddr s src)) (setFld (MGC_STAT_WFI n) 0 (setFld (ICU_CORE_LAST n) src (incFld ICU_DELIVERED_COUNT 1 (showPrio
      (clearLatch src (updIcu (fun t => { t with claims := smSet t.claims src (n, getFld s (ICU_SRC_CFG_PRIO src)), moved := smDel t.moved src }) s)))))))) ∧
  (∀ (w : Win) (n src : Nat) (s : State), n < 4 → src < 256 → Passes w 5 s →
    (src ≠ 0 → (smGet s.icu.claims src).map Prod.fst = some n →
      exec (.eoi w n src) s = .next (showPrio (updIcu (fun t => { t with claims := smDel t.claims src }) (admitted w 5 s)))) ∧
    (src = 0 → exec (.eoi w n src) s = .next (setEvt 5 ICU_EVT_EOI_BAD (admitted w 5 s)))) ∧
  (∀ (w : Win) (v : Nat) (s : State), Passes w 5 s → exec (.softwareInterrupt w v) s = .next (icuHost ((List.range 16).foldl
    (fun t i => if v.testBit i = true then setLatch (240 + i) t else t) (admitted w 5 s)))) ∧
  (∀ (w : Win) (v : Nat) (s : State), Passes w 5 s →
    let u := admitted w 5 s
    exec (.icuPendClear w v) s = .next ((List.range 32).foldl (fun t i =>
      if v.testBit i && isEdge u (32 * getFld u ICU_PEND_SEL_WORD + i) then clearLatch (32 * getFld u ICU_PEND_SEL_WORD + i) t else t) u)) ∧
  (∀ (src : Nat) (s : State), src < 256 → exec (.moderationExpiry src) s = .next (icuHost (updIcu (fun t => { t with held := t.held.filter (· ≠ src) }) s))) ∧
  (∀ (src : Nat) (s : State), src < 256 → corePowered s (getFld s ICU_CFG_FALLBACK) = true → deliverable s src = true → corePowered s (targetOf s src) = false →
    exec (.fallbackTimeout src) s = .next (setEvt 5 ICU_EVT_FALLBACK (incFld ICU_FALLBACKS_COUNT 1
      (updIcu (fun t => { t with moved := smSet t.moved src (getFld s ICU_CFG_FALLBACK) }) s)))) ∧
  (∀ (n : Nat) (s : State), n < 4 → corePowered s n = true → exec (.waitForInterrupt n) s = .next (setFld (MGC_STAT_WFI n) 1 s))

/-- The oldest fault message is taken off the queue, logged and reacted to. FENCE_REQ by a maker enqueues kind 0x19 for its page. In factory test mode
FAULT_INJECT does what `inject` does and PG_EVT_SET sets the page's event bits. FAULT_REARM clears CAPTURED. UNFENCE of a fenced page that may be
released releases it and ends with OK. The watchdog's kick by the admin core starts it again, and its end enqueues kind 0x11, raises WDOG and halts
that core. Rests on R374 to R378, R383 to R386. Where the spec leaves a choice, a clause states the model's own (notes/assumptions/50.md,
notes/assumptions/95.md, notes/assumptions/98.md). -/
def Obligations.FaultsAreLoggedAndFenced : Prop :=
  (∀ (m : FMsg) (rest : List FMsg) (s : State), s.flt.queue = m :: rest →
    exec .faultMessage s = .next (ltrSync handleFault s) ∧ handleFault s = react m (logFault m (popFault s))) ∧
  (∀ (w : Win) (p : Nat) (s : State), p < 0x1000 → reaches s w p = true → Passes w p s → winRole s w = 2 →
    exec (.fenceReq w p) s = .next (enqueue { unit := p, kind := 0x19, sev := 2, cls := 6, addr := 0, access := 1, master := p } (admitted w p s))) ∧
  (∀ (w : Win) (s : State), Passes w 4 s → ftest s = true →
    exec (.faultInject w) s = .next (inject (admitted w 4 s))) ∧
  (∀ (w : Win) (p v : Nat) (s : State), p < 0x2000 → reaches s w p = true → Passes w p s → winRole s w = 2 → ftest s = true →
    exec (.pgEvtSet w p v) s = .next (setEvtBits p (v % 2 ^ 32 &&& evtMask p) (admitted w p s))) ∧
  (∀ (w : Win) (s : State), Passes w 4 s → exec (.faultRearm w) s = .next (setFld FLT_STAT_CAPTURED 0 (admitted w 4 s))) ∧
  (∀ (w : Win) (p : Nat) (found : List FoundNs) (media : List PlateMedia) (s : State), Passes w 4 s → mayInstall s w = true → isSet s FLT_CMD_GO = false →
    p < 2 ^ FLT_CMD_PAGE.width → fenced s p = true → unfenceOk p = true →
    exec (.unfence w p found media) s = .next (cmdEnd FLT_CMD_GO FLT_CMD_RES_STATUS FLT_CMD_RES_DONE .ok
      (unfenceUnit p found media (loaded w 4 FLT_CMD_OP 1 [(FLT_CMD_PAGE, p)] FLT_CMD_GO FLT_CMD_RES_DONE s)))) ∧
  (∀ (n : Nat) (s : State), Passes (.core n) 4 s → getFld s FLT_WDOG_ADMIN_CORE = n → exec (.watchdogKick (.core n)) s = .next (wdogStart s)) ∧
  (∀ (s : State), isSet s (MGC_STAT_POWERED (getFld s FLT_WDOG_ADMIN_CORE)) = true → 2 ≤ getFld s CHIP_DEV_STAT_PHASE →
    s.flt.kick + getFld s FLT_WDOG_TIMEOUT_MS * 1000000 ≤ devTime s → devFenced s = false → getFld s PWR_STAT_STATE ≠ 4 →
    exec .watchdogTimeout s = .next (haltCore (getFld s FLT_WDOG_ADMIN_CORE) (fltEvt FLT_EVT_WDOG (enqueue { unit := 4, kind := 0x11, sev := kindSev 0x11, cls := kindClass 0x11, addr := 0, access := 0, master := 0x110 + getFld s FLT_WDOG_ADMIN_CORE } s))))

/-- Main power after P0 starts P1 with its first enable, and each step turns on the next. A rail that does not rise starts P1 again, and the third
time stops start-up with WHY 2. The end of each phase from P0 to P7, under the condition it waits for, does what its step of Sequence POWER-1 gives:
P1's end enters P2 and starts the watchdog, P3's enters P4 or stops start-up where the sensors fail, P4's enters P5 or stops it where the memory test
fails, P5's enters P6. A phase P2 to P6 that lasts too long stops start-up with WHY 2. Rests on R390, R396, R402, R404. Where the spec leaves a
choice, a clause states the model's own (notes/assumptions/108.md, notes/assumptions/110.md). -/
def Obligations.StartUpGoesThroughItsPhases : Prop :=
  (∀ (d : Nat) (s : State), s.pwr.due = some d → getFld s PWR_STAT_STATE ≠ 3 → getFld s PWR_STAT_STATE ≠ 4 → s.pwr.p0 = true →
    ∃ t, exec .mainPowerGood s = .next t ∧ phase t = 1 ∧ getFld t PWR_RAIL_SEQ = 1 ∧ t.pwr.due = none ∧ getFld t PWR_STAT_STATE = 0) ∧
  (∀ (s : State), phase s = 1 → stopped s = false →
    (getFld s PWR_RAIL_SEQ = 1 → exec .railSequenceStep s = .next (setFld PWR_RAIL_SEQ 3 s)) ∧
    (getFld s PWR_RAIL_SEQ = 3 → exec .railSequenceStep s = .next (setFld PWR_RAIL_SEQ 7 s))) ∧
  (∀ (s : State), phase s = 1 → stopped s = false →
    (getFld s PWR_RAIL_ATTEMPTS < 2 → ∃ t, exec .railRetry s = .next t ∧ phase t = 1 ∧ getFld t PWR_RAIL_SEQ = 1 ∧
      getFld t PWR_RAIL_ATTEMPTS = getFld s PWR_RAIL_ATTEMPTS + 1) ∧
    (getFld s PWR_RAIL_ATTEMPTS = 2 → ∃ t, exec .railRetry s = .next t ∧ stopped t = true ∧ getFld t CHIP_DEV_STAT_WHY = 2 ∧ getFld t PWR_RAIL_SEQ = 0)) ∧
  (∀ (f : PhaseFacts) (s : State), stopped s = false → devFenced s = false → getFld s PWR_STAT_STATE ≠ 4 →
    (phase s = 1 → getFld s PWR_RAIL_SEQ = 7 → ∃ t, exec (.startupPhaseEnd f) s = .next t ∧ phase t = 2 ∧ isSet t PWR_RAIL_RAIL_OK = true ∧
      t.flt.kick = devTime s) ∧
    (phase s = 3 → f.sensors = true → ∃ t, exec (.startupPhaseEnd f) s = .next t ∧ phase t = 4 ∧ t.pwr.dead = f.serdes) ∧
    (phase s = 3 → f.sensors = false → ∃ t, exec (.startupPhaseEnd f) s = .next t ∧ stopped t = true ∧ phase t = 3) ∧
    (phase s = 4 → f.sram = false → ∃ t, exec (.startupPhaseEnd f) s = .next t ∧ stopped t = true ∧ phase t = 4)) ∧
  (∀ (f : PhaseFacts) (s : State), stopped s = false → devFenced s = false → getFld s PWR_STAT_STATE ≠ 4 →
    (phase s = 0 → s.pwr.p0 = false → exec (.startupPhaseEnd f) s = .next (endP0 f.xtal s)) ∧
    (phase s = 2 → (if isSet s CLK_STAT_PLL_SRC then isSet s CLK_STAT_HCLK1_OK else isSet s CLK_STAT_HCLK0_OK) = true →
      exec (.startupPhaseEnd f) s = .next (endP2 f s)) ∧
    (phase s = 4 → f.sram = true → exec (.startupPhaseEnd f) s = .next (bootPages.foldl (fun t p => enableSet p true t)
      ((List.range 64).foldl (fun t p => absorb p t) (volLoad (suspLoad (lostLoad (showNode (settingsRestore (setPhase 5 s))))))))) ∧
    (phase s = 5 → exec (.startupPhaseEnd f) s = .next (authStartup f.nonce (channels.foldl (fun t c => enableSet (0x20 + c) true (loadBoard c t)) (setPhase 6 s)))) ∧
    (phase s = 6 → exec (.startupPhaseEnd f) s = .next (endP6 s)) ∧
    (phase s = 7 → exec (.startupPhaseEnd f) s = .next (endP7 s))) ∧
  (∀ (s : State), stopped s = false → getFld s PWR_STAT_STATE ≠ 4 → 2 ≤ phase s → phase s ≤ 6 →
    ∃ t, exec .startupPhaseTimeout s = .next t ∧ stopped t = true ∧ getFld t CHIP_DEV_STAT_WHY = 2 ∧ phase t = phase s)

/-- A cold reset leaves LAST_RESET 0, P0, COLD and device time 0; a supply reset leaves 1 or 2 and P0; a pin reset 3, and a software reset 4, with
nothing to dump, leave P1. The in-flight state of each is that of reset, and device time stays over all but the cold one. The flash stays over a cold
or supply reset; before a pin or software reset the held Sketchbook records are written to it. A pin reset with data to dump dumps first. Rests on
R158, R397, R401, R406, R431. -/
def Obligations.ResetsLeaveTheirState : Prop :=
  (∀ (s : State), exec .coldReset s = .next (deviceReset 0 s) ∧ getFld (deviceReset 0 s) PWR_STAT_LAST_RESET = 0 ∧ phase (deviceReset 0 s) = 0 ∧
    isSet (deviceReset 0 s) CHIP_DEV_STAT_COLD = true ∧ (deviceReset 0 s).io = State.reset.io ∧ (deviceReset 0 s).timeQ = 0 ∧ (deviceReset 0 s).flash = s.flash) ∧
  (∀ (io : Bool) (s : State), cclkOn s = true →
    ∃ t, exec (.supplyReset io) s = .next t ∧ getFld t PWR_STAT_LAST_RESET = (if io then 2 else 1) ∧ phase t = 0 ∧ t.io = State.reset.io ∧ t.timeQ = s.timeQ ∧
      t.flash = s.flash) ∧
  (∀ (s : State), getFld s PWR_STAT_STATE ≠ 4 → s.pwr.due = none → s.cache.dumping = false →
    (dumpOk s = false → ∃ t, exec .pinReset s = .next t ∧ getFld t PWR_STAT_LAST_RESET = 3 ∧ phase t = 1 ∧ t.io = State.reset.io ∧ t.timeQ = s.timeQ ∧
      t.flash = (flushHeld s).flash ∧ (evrWrites s = false → t.flash = s.flash)) ∧
    (dumpOk s = true → exec .pinReset s = .next (startDump 3 3 s))) ∧
  (∀ (w : Win) (s : State), Passes w 1 s → mayInstall s w = true → getFld s PWR_STAT_STATE ≠ 4 → s.pwr.due = none → s.cache.dumping = false → dumpOk s = false →
    ∃ t, exec (.softwareReset w) s = .next t ∧ getFld t PWR_STAT_LAST_RESET = 4 ∧ phase t = 1 ∧ t.io = State.reset.io ∧ t.timeQ = s.timeQ ∧
      t.flash = (flushHeld (needRole w (admitted w 1 s))).flash)

/-- VDD or VDDIO below its warning level is shown, raises its flag and its event, and above its clear level the flag goes; the lowest VDD is kept. A
temperature at WARN_C raises TEMP_WARN, and at CRIT_C fences the device. The loss of the reference clock in use raises HCLK_LOST and fences the
device, that of the other one is only shown. A crystal that stops is reported, and its return is shown. An enabled alarm fires once its time has come.
An operating minute is counted. PWR_CLR_MIN sets the three lowest voltages to 0xFFFF. Rests on R391 to R396, Table POWER-2. -/
def Obligations.SupplyClockAndHeatAreWatched : Prop :=
  (∀ (mv : Nat) (s : State), cclkOn s = true → mv < 855 → isSet s PWR_STAT_VDD_WARN = false →
    ∃ t, exec (.supplyWarning false mv) s = .next t ∧ isSet t PWR_STAT_VDD_WARN = true ∧ getFld t PWR_VDD_MV = mv ∧
      getFld t PWR_VDD_MIN_MV = min (getFld s PWR_VDD_MIN_MV) mv) ∧
  (∀ (io : Bool) (mv : Nat) (s : State), cclkOn s = true →
    (mv < (if io then 1710 else 855) → isSet s (if io then PWR_STAT_VDDIO_WARN else PWR_STAT_VDD_WARN) = false →
      exec (.supplyWarning io mv) s = .next (setEvt 1 (if io then PWR_EVT_VDDIO_WARN else PWR_EVT_VDD_WARN)
        (setFld (if io then PWR_STAT_VDDIO_WARN else PWR_STAT_VDD_WARN) 1 (showMv (if io then 1 else 0) mv s)))) ∧
    ((if io then 1740 else 870) < mv → exec (.supplyWarningClear io mv) s =
      .next (setFld (if io then PWR_STAT_VDDIO_WARN else PWR_STAT_VDD_WARN) 0 (showMv (if io then 1 else 0) mv s)))) ∧
  (∀ (mv : Nat) (s : State), cclkOn s = true → 1740 < mv → mv < 65536 →
    ∃ t, exec (.supplyWarningClear true mv) s = .next t ∧ isSet t PWR_STAT_VDDIO_WARN = false ∧ getFld t PWR_VDDIO_MV = mv) ∧
  (∀ (x : Int) (s : State), sensing s = true → 10 * (getFld s PWR_TEMP_THR_WARN_C : Int) ≤ x → 13 ∉ s.icu.lines →
    exec (.tempWarning x) s = .next (lineEdge 13 true (setEvt 1 PWR_EVT_TEMP_WARN (showTemp x s)))) ∧
  (∀ (x : Int) (s : State), sensing s = true → 10 * (getFld s PWR_TEMP_THR_CRIT_C : Int) ≤ x →
    exec (.tempCritical x) s = .next (supervisorFence (lineEdge 14 true (showTemp x s)))) ∧
  (∀ (s : State), cclkOn s = true →
    (getFld s CLK_STAT_PLL_SRC = 0 → exec (.hclkLost 0 false) s = .next (supervisorFence (setEvt 2 CLK_EVT_HCLK_LOST (setFld CLK_STAT_HCLK0_OK 0 s)))) ∧
    (getFld s CLK_STAT_PLL_SRC = 1 → exec (.hclkLost 1 false) s = .next (supervisorFence (setEvt 2 CLK_EVT_HCLK_LOST (setFld CLK_STAT_HCLK1_OK 0 s)))) ∧
    (getFld s CLK_STAT_PLL_SRC = 1 → exec (.hclkLost 0 false) s = .next (setFld CLK_STAT_HCLK0_OK 0 s))) ∧
  (∀ (s : State), cclkOn s = true → isSet s CLK_STAT_XTAL_OK = true →
    exec .xtalStop s = .next (lineEdge 12 true (setEvt 2 CLK_EVT_XTAL_STOP (setFld CLK_STAT_XTAL_OK 0 s)))) ∧
  (∀ (s : State), isSet s CLK_STAT_XTAL_OK = false → s.pwr.p0 = true → cclkOn s = true → s.pwr.gap = false →
    exec .xtalResume s = .next (lineEdge 12 false (setFld CLK_STAT_XTAL_OK 1 s))) ∧
  (∀ (s : State), (isSet s CLK_ALARM_CTL_EN0 = true → alarmAt s 0 ≤ devTime s → exec (.alarmFire 0) s = .next (setFld CLK_ALARM_CTL_FIRED0 1 s)) ∧
    (isSet s CLK_ALARM_CTL_EN1 = true → alarmAt s 1 ≤ devTime s → exec (.alarmFire 1) s = .next (setFld CLK_ALARM_CTL_FIRED1 1 s))) ∧
  (∀ (s : State), s.pwr.due = none → getFld s PWR_STAT_STATE ≠ 3 → getFld s PWR_STAT_STATE ≠ 5 →
    ∃ t, exec .opMinuteTick s = .next t ∧ opMin t = (opMin s + 1) % 2 ^ 32) ∧
  (∀ (w : Win) (v : Nat) (s : State), Passes w 1 s → v % 2 = 1 →
    ∃ t, exec (.pwrClrMin w v) s = .next t ∧ getFld t PWR_VDD_MIN_MV = 0xFFFF ∧ getFld t PWR_VDDIO_MIN_MV = 0xFFFF ∧ getFld t PWR_VIN_MIN_MV = 0xFFFF)

/-- A ready device without work enters IDLE. NIGHT is entered where `nightMay` allows it, with every channel in INIT or ACTIVE sent to its speed change, and left
in mode 1 where NIGHT_REQ no longer asks for it. NIGHT_REQ takes bit 0 of the value written. STANDBY's sequence begins where `standbyMay` allows it,
and its last step leaves the power off, the in-flight state reset and device time kept; a wake from STANDBY leaves P1 and LAST_RESET 6. Rests on R398
to R400, Table POWER-3. Where the spec leaves a choice, a clause states the model's own (notes/assumptions/114.md, notes/assumptions/115.md). -/
def Obligations.PowerStatesAreEnteredAndLeft : Prop :=
  (∀ (s : State), getFld s PWR_STAT_STATE = 0 → phase s = 8 → s.cache.dumping = false → noWork s = true →
    ∃ t, exec .idleEntry s = .next t ∧ getFld t PWR_STAT_STATE = 1) ∧
  (∀ (quiet : Bool) (s : State), nightMay s quiet = true →
    ∃ t, exec (.nightEntry quiet) s = .next t ∧ getFld t PWR_STAT_STATE = 2 ∧ ∀ c < 4, dmcState s c = 2 ∨ dmcState s c = 3 → dmcState t c = 4) ∧
  (∀ (busy : Bool) (s : State), getFld s PWR_STAT_STATE = 2 → getFld s PWR_CFG_NIGHT_MODE = 1 → isSet s PWR_CTL_NIGHT_REQ = false →
    ∃ t, exec (.nightExit busy) s = .next t ∧ getFld t PWR_STAT_STATE = 0) ∧
  (∀ (w : Win) (v : Nat) (s : State), Passes w 1 s → ∃ t, exec (.nightReqWrite w v) s = .next t ∧ getFld t PWR_CTL_NIGHT_REQ = v % 2) ∧
  (∀ (s : State), s.pwr.stby = 0 → standbyMay s = true → ∃ t, exec .standbyEntry s = .next t ∧ t.pwr.stby = 1) ∧
  (∀ (s : State), s.pwr.stby = 4 → s.pwr.exit = false → (∀ p < 64, portState s p ≠ 4 ∧ portState s p ≠ 5) →
    ∃ t, exec .standbyEntry s = .next t ∧ getFld t PWR_STAT_STATE = 3 ∧ t.io = State.reset.io ∧ t.timeQ = s.timeQ ∧ t.pwr.due = some 6) ∧
  (∀ (s : State), getFld s PWR_STAT_STATE = 3 → wakeDue s = true →
    ∃ t, exec .standbyExit s = .next t ∧ getFld t PWR_STAT_STATE = 0 ∧ phase t = 1 ∧ getFld t PWR_STAT_LAST_RESET = 6)

/-- ENABLE of a Burin pipe takes the value written, and a change counts in PG_SEQ; ENABLE of the pages 0 to 4 and 8, which cannot be disabled, stays
1. CLK_REQ of a sleeping pipe is kept and wakes it. BLOCK_RESET of a pipe ends its test and clears its counters; of any other chip page it takes
nothing outside factory test mode. Rests on R437, R439, R441. Where the spec leaves a choice, a clause states the model's own
(notes/assumptions/93.md, notes/assumptions/94.md). -/
def Obligations.PageHeadersControlTheirBlocks : Prop :=
  (∀ (w : Win) (b v : Nat) (s : State), b < 8 → Passes w (0x30 + b) s → reaches s w (0x30 + b) = true →
    ∃ t, exec (.pgEnableWrite w (0x30 + b) v) s = .next t ∧ isSet t (PG_CTL_ENABLE (0x30 + b)) = decide (v % 2 = 1) ∧ t.store = s.store ∧ t.cache = s.cache ∧ t.out = s.out ∧
      getFld t (PG_SEQ_COUNT (0x30 + b)) = (if isSet s (PG_CTL_ENABLE (0x30 + b)) = decide (v % 2 = 1) then getFld s (PG_SEQ_COUNT (0x30 + b))
        else (getFld s (PG_SEQ_COUNT (0x30 + b)) + 1) % 2 ^ (PG_SEQ_COUNT (0x30 + b)).width)) ∧
  (∀ (w : Win) (p v : Nat) (s : State), p ∈ [0, 1, 2, 3, 4, 8] → Passes w p s → reaches s w p = true → isSet s (PG_CTL_ENABLE p) = true → v % 2 = 0 →
    exec (.pgEnableWrite w p v) s = .next (admitted w p s)) ∧
  (∀ (w : Win) (b : Nat) (s : State), b < 8 → Passes w (0x30 + b) s → reaches s w (0x30 + b) = true → mayInstall s w = true →
    isSet s (PG_CTL_CLK_REQ (0x30 + b)) = false → pipeAwake s b = false →
    ∃ t, exec (.clkReq w (0x30 + b) 1) s = .next t ∧ isSet t (PG_CTL_CLK_REQ (0x30 + b)) = true ∧ b ∈ t.io.waking) ∧
  (∀ (w : Win) (b : Nat) (s : State), b < 8 → Passes w (0x30 + b) s → reaches s w (0x30 + b) = true →
    ∃ t, exec (.blockReset w (0x30 + b)) s = .next t ∧ getFld t (BUR_STAT_KAT b) = 0 ∧ isSet t (BUR_KAT_START b) = false ∧ getFld t (BUR_SELFCHK_COUNT b) = 0) ∧
  (∀ (w : Win) (p : Nat) (s : State), p < 0x1000 → (p < 0x30 ∨ 0x37 < p) → Passes w p s → reaches s w p = true → ftest s = false →
    exec (.blockReset w p) s = .next (ltrSync (admitted w p) s))

/-- Writes that stand for their kinds: an RW field (CLK_ALARM0) takes the word; installer fields (RBD_CFG) take legal values from the installer on,
and from an operator stay as they are and count a denial; read-only fields (PWR_VDD) stay; event bits (PG_EVT of the rebuild page) written 1 clear; a
reserved offset of that page takes nothing. A read by a core answers what `pageRead` gives. From P5 on the settings record is written. Rests on R4,
R5, R260, R443, R444, Table PAGE-2. Where the spec leaves a choice, a clause states the model's own (notes/assumptions/99.md,
notes/assumptions/102.md, notes/assumptions/103.md). -/
def Obligations.RegistersAreWrittenAndRead : Prop :=
  (∀ (w : Win) (v : Nat) (vr : VaultRead) (s : State), Passes w 2 s →
    ∃ t, exec (.registerWrite w 2 0x48 4 v false vr) s = .next t ∧ getFld t CLK_ALARM0_LO_NS = v % 2 ^ 32) ∧
  (∀ (w : Win) (slice steps : Nat) (vr : VaultRead) (s : State), Passes w 0x39 s → mayInstall s w = true → 100 ≤ slice → slice ≤ 10000 → 1 ≤ steps → steps < 256 →
    ∃ t, exec (.registerWrite w 0x39 0x40 4 (slice + 2 ^ 16 * steps) false vr) s = .next t ∧ getFld t RBD_CFG_SLICE_US = slice ∧
      getFld t RBD_CFG_STEPS_MAX = steps) ∧
  (∀ (w : Win) (slice steps : Nat) (vr : VaultRead) (s : State), Passes w 0x39 s → mayInstall s w = false → 100 ≤ slice → slice ≤ 10000 → 1 ≤ steps → steps < 256 →
    slice ≠ getFld s RBD_CFG_SLICE_US →
    ∃ t, exec (.registerWrite w 0x39 0x40 4 (slice + 2 ^ 16 * steps) false vr) s = .next t ∧ getFld t RBD_CFG_SLICE_US = getFld s RBD_CFG_SLICE_US ∧
      getFld t RBD_CFG_STEPS_MAX = getFld s RBD_CFG_STEPS_MAX ∧ getFld t ROLE_DENY_COUNT = (getFld s ROLE_DENY_COUNT + 1) % 2 ^ ROLE_DENY_COUNT.width) ∧
  (∀ (w : Win) (v : Nat) (vr : VaultRead) (s : State), Passes w 1 s →
    ∃ t, exec (.registerWrite w 1 0x4C 4 v false vr) s = .next t ∧ getFld t PWR_VDD_MV = getFld s PWR_VDD_MV ∧ getFld t PWR_VDD_MIN_MV = getFld s PWR_VDD_MIN_MV) ∧
  (∀ (w : Win) (v : Nat) (vr : VaultRead) (s : State), Passes w 0x39 s →
    ∃ t, exec (.registerWrite w 0x39 0x10 4 v false vr) s = .next t ∧
      ∀ b < 32, (getFld t (PG_EVT_EVT 0x39)).testBit b = ((getFld s (PG_EVT_EVT 0x39)).testBit b && !v.testBit b)) ∧
  (∀ (n off v : Nat) (vr : VaultRead) (s : State), off < 4096 → off % 4 = 0 → rowsAt s 0x39 off = [] →
    exec (.registerWrite (.core n) 0x39 off 4 v false vr) s = .next (ltrSync id s)) ∧
  (∀ (n p off : Nat) (s : State), p < 0x2000 → off < 4096 → off % 4 = 0 →
    ∃ t, exec (.registerRead (.core n) p off 4) s = .next t ∧
      t.out = .read (.core n) p off (pageRead (.core n) p off s).1 :: (pageRead (.core n) p off s).2.out) ∧
  (∀ (s : State), 5 ≤ phase s →
    exec .settingsRecordWrite s = .next (flashPut (slotFor s setA setB 0x0C setValid).1 (setBytes (slotFor s setA setB 0x0C setValid).2 (setEntries s)) s))

/-- VOLUME_INFO gives the descriptor; CREATE_VOLUME lays the extents out over the plates of the mask, and completes once the catalogues are written;
ATTACH takes the lowest free place, DETACH frees the caller's; DELETE_VOLUME with nothing attached zeroes its first extent, and with none left ends
the volume; RESIZE_VOLUME adds extents, and ends a shrink with the new size once the freed ones are gone. Rests on R216, R217, R220. Where the spec
leaves a choice, a clause states the model's own (notes/assumptions/85.md, notes/assumptions/86.md). -/
def Obligations.VolumeCommandsAct : Prop :=
  (∀ (n : Nat) (x : Cmd) (v : Vol) (s : State), AdminDue n 0x80 x s → volOf s (enVol x.raw) = some v →
    exec (.volumeInfo n) s = .next (adminOk n x 0 (adminOut x (volBytes (enVol x.raw) v.seq true v) s))) ∧
  (∀ (n : Nat) (x : Cmd) (ids : List Nat) (l : List (Nat × Nat × Nat)) (s : State), AdminDue n 0x81 x s → x.tries = 0 → enAux2 x.raw % 2 = 0 →
    volOf s (enVol x.raw) = none → choosePlaces (maskPlates s (enAux x.raw)) [] 0 (enCdw x.raw) = .inr (ids, l) →
    mapFull s (enVol x.raw) (enCdw x.raw) = false →
    exec (.createVolume n) s = .next (setTries n 1 (volWrite (enVol x.raw) true
      { extents := enCdw x.raw, plates := listPlates s [] l, attach := [none, none, none, none], deleting := false, seq := 0 }
      (placeExtents (enVol x.raw) l s)))) ∧
  (∀ (n : Nat) (x : Cmd) (s : State), AdminDue n 0x81 x s → x.tries = 1 → catBusy s = false →
    exec (.createVolume n) s = .next (adminOk n x (enCdw x.raw) s)) ∧
  (∀ (n i : Nat) (x : Cmd) (v : Vol) (s : State), AdminDue n 0x84 x s → volOf s (enVol x.raw) = some v → isSet s (CTX_STAT_PAUSE_BME x.ctx) = false →
    attachedRo v (bitsOf (enCdw x.raw) 0 1) (bitsOf (enCdw x.raw) 1 10) = none →
    (List.range 4).find? (fun j => decide (v.attach[j]? = some none)) = some i →
    exec (.attach n) s = .next (adminOk n x i (volWrite (enVol x.raw) true { v with attach := v.attach.set i (some (bitsOf (enCdw x.raw) 0 1, bitsOf (enCdw x.raw) 1 10, decide (bitsOf (enCdw x.raw) 11 1 = 1))) } s))) ∧
  (∀ (n : Nat) (x : Cmd) (v : Vol) (ro : Bool) (s : State), AdminDue n 0x85 x s → volOf s (enVol x.raw) = some v →
    isSet s (CTX_STAT_PAUSE_BME x.ctx) = false →
    attachedRo v (bitsOf (enCdw x.raw) 0 1) (bitsOf (enCdw x.raw) 1 10) = some ro →
    ∃ att : List (Option (Nat × Nat × Bool)), exec (.detach n) s = .next (adminOk n x 0 (volWrite (enVol x.raw) true { v with attach := att } s)) ∧
      att.length = v.attach.length ∧ ∀ i < 4, ∀ p f r, att[i]? = some (some (p, f, r)) ↔
        v.attach[i]? = some (some (p, f, r)) ∧ ¬ (p = bitsOf (enCdw x.raw) 0 1 ∧ f = bitsOf (enCdw x.raw) 1 10)) ∧
  (∀ (n : Nat) (x : Cmd) (v : Vol) (s : State), AdminDue n 0x82 x s → volOf s (enVol x.raw) = some v → x.tries = 0 → attachedTo v = [] →
    freeBad s (enVol x.raw) 0 = none → x.waits = 0 →
    let t := setTries n 1 (volWrite (enVol x.raw) true { v with deleting := true } s)
    ∀ e q, (placedFrom t (enVol x.raw) 0).head? = some (e, q) →
      exec (.deleteVolume n) s = .next (presentZero n (enVol x.raw) e (setTries n (e + 2) t))) ∧
  (∀ (n : Nat) (x : Cmd) (v : Vol) (s : State), AdminDue n 0x82 x s → volOf s (enVol x.raw) = some v → x.tries = 1 → x.waits = 0 →
    placedFrom s (enVol x.raw) 0 = [] → catBusy s = false →
    exec (.deleteVolume n) s = .next (adminOk n x 0 (volGone (enVol x.raw) s))) ∧
  (∀ (n : Nat) (x : Cmd) (v : Vol) (ids : List Nat) (l : List (Nat × Nat × Nat)) (s : State), AdminDue n 0x83 x s → volOf s (enVol x.raw) = some v →
    x.tries = 0 → v.extents < enCdw x.raw →
    choosePlaces (s.store.plates.filter (fun q => ((enAux x.raw).testBit q.1 || decide (q.2.id ∈ v.plates)) && !q.2.gone)) v.plates v.extents (enCdw x.raw) = .inr (ids, l) →
    mapFull s (enVol x.raw) (enCdw x.raw) = false →
    exec (.resizeVolume n) s = .next (setTries n 1 (updCmd n (fun y => { y with result := enCdw x.raw - v.extents })
      (volWrite (enVol x.raw) true { v with extents := enCdw x.raw, plates := listPlates s v.plates l } (placeExtents (enVol x.raw) l s))))) ∧
  (∀ (n : Nat) (x : Cmd) (v : Vol) (s : State), AdminDue n 0x83 x s → volOf s (enVol x.raw) = some v → x.tries = 1 → x.waits = 0 →
    enCdw x.raw < v.extents → placedFrom s (enVol x.raw) (enCdw x.raw) = [] → catBusy s = false →
    exec (.resizeVolume n) s = .next (adminOk n x 0 (volWrite (enVol x.raw) true { v with extents := enCdw x.raw } (volLostDel (enVol x.raw) (enCdw x.raw) s))))

/-- CREATE_PLATE with a good page makes the plate it describes and starts its first writes; once these end it names the plate built and writes its
labels again, and once those end it answers the PLATE_ID. DELETE_PLATE marks the plate as going and waits for its work; with none left it takes the
plate and its suspect entries away and writes zeros over its labels (`wipeLabels`), and completes once those are written. BLOCK_CMD with a legal code
runs the page's operation, and completes with OK where it ended so, or waits. GET_LOST_WRITES gives the list's part it asks for. RESYNC and
CHIP_RESYNC take the summary, or wait for the one under way; its publication shows it and ends the RESYNC or CHIP_RESYNC that asked. Rests on R164,
R221, R222, R228, R448. Where the spec leaves a choice, a clause states the model's own (notes/assumptions/88.md, notes/assumptions/89.md,
notes/assumptions/90.md). -/
def Obligations.PlateAndPageCommandsAct : Prop :=
  (∀ (n : Nat) (x : Cmd) (b : List Byte) (f : PlateFacts) (s : State), AdminDue n 0x86 x s → x.tries = 0 →
    readReady s (ctxPort s x.ctx) (ctxFunc s x.ctx) (enDptr x.raw) 4096 = true →
    let u := readDone (ctxPort s x.ctx) (ctxFunc s x.ctx) (enDptr x.raw) 4096 (.data b) s
    pageBad u f.far (slice b 0 4096) = none → createBad u f (slice b 0 4096) = none →
    let p := leAt (slice b 0 4096) 3 1
    exec (.createPlate n (.data b) f) s = .next (updCmd n (fun y => { y with tries := 1, result := p }) (initPlate p (setFld (PG_STAT_READY (0x40 + p)) 1
      (updStore (fun t => { t with plates := smSet t.plates p (newPlate u f (slice b 0 4096)) }) u))))) ∧
  (∀ (n : Nat) (x : Cmd) (y : Plate) (page : HostRd) (f : PlateFacts) (s : State), AdminDue n 0x86 x s → x.tries = 2 → plateOf s x.result = some y →
    y.labelBusy = false → initBusy s x.result = false →
    let u := sendClaims x.result (plateResv x.result s)
    exec (.createPlate n page f) s = .next (adminOk n x y.id (if y.standby ≠ 0xFFFF then offer x.result y false u else u))) ∧
  (∀ (n : Nat) (x : Cmd) (y : Plate) (page : HostRd) (f : PlateFacts) (s : State), AdminDue n 0x86 x s → x.tries = 1 → plateOf s x.result = some y →
    y.labelBusy = false → initBusy s x.result = false →
    exec (.createPlate n page f) s = .next (setTries n 2 (joinPair x.result (startLabel x.result (updPlate x.result (fun z =>
      { z with building := false, latch := z.latch || decide (3 ≤ z.u) }) s))))) ∧
  (∀ (n : Nat) (x : Cmd) (y : Plate) (s : State), AdminDue n 0x87 x s → x.tries = 1 → plateOf s (enCdw x.raw) = some y → plateQuiet s (enCdw x.raw) = true →
    y.labelBusy = false → initBusy s (enCdw x.raw) = false → s.cache.slots.any (fun q => decide (q.2.plate = enCdw x.raw)) = false →
    let p := enCdw x.raw
    let t := updStore (fun u => { u with plates := smDel u.plates p, suspects := u.suspects.filter (fun e => decide (e.plateId ≠ y.id)),
                                         suspDirty := u.suspDirty || u.suspects.any (fun e => decide (e.plateId = y.id)) })
      (wipeLabels y (releaseResv p y (detach p (offerEnd p .stateConflict s))))
    exec (.deletePlate n) s = .next (setTries n 2 (setFld (PG_STAT_READY (0x40 + p)) 0 t)) ∧
      plateOf t p = none ∧ ∀ e ∈ t.store.suspects, e.plateId ≠ y.id) ∧
  (∀ (n : Nat) (x : Cmd) (y : Plate) (s : State), AdminDue n 0x87 x s → x.tries = 0 → plateOf s (enCdw x.raw) = some y → y.served = true →
    let u := setTries n 1 (abandonUnits (enCdw x.raw) (updPlate (enCdw x.raw) (fun z => { z with gone := true }) s))
    plateQuiet u (enCdw x.raw) = false → exec (.deletePlate n) s = .next u) ∧
  (∀ (n : Nat) (x : Cmd) (s : State), AdminDue n 0x87 x s → x.tries = 2 →
    s.io.nvme.any (fun q => decide (q.2.why = .other ∧ q.2.op = .write ∧ q.2.plate = 64)) = false → exec (.deletePlate n) s = .next (adminOk n x 0 s)) ∧
  (∀ (n : Nat) (x : Cmd) (md : PlateMedia) (ok1 ok2 : Bool) (rate nonce off : Nat) (op go st done : FRef) (act : State → State) (s : State),
    AdminDue n 0x88 x s → x.tries = 0 → cmdRegs (enCdw x.raw) = some (off, op, go, st, done) → 1 ≤ x.role → rightsWrite s x.role (enCdw x.raw) = true →
    isSet s go = false → (∀ r ∈ pageRows s (enCdw x.raw), r.f.key = op.key → codeOk r (enAux x.raw) = true) →
    let t0 := needRole (.pf (ctxPort s x.ctx)) (loadCmd s (enCdw x.raw) off (enAux x.raw) go)
    let t := seqIf (enCdw x.raw) s (if 0x40 ≤ enCdw x.raw ∧ enCdw x.raw ≤ 0x7F then
      setFld (PLT_CMD_PORT_PORT (enCdw x.raw - 0x40)) (bitsOf (enAux2 x.raw) 0 32) (setFld (PLT_CMD_NSID_NSID (enCdw x.raw - 0x40)) (bitsOf (enAux2 x.raw) 32 32) t0)
      else t0)
    pageOp (enCdw x.raw) (getFld t op) md ok1 ok2 rate nonce = some act →
    let u := act (setFld done 0 (setFld go 1 t))
    (isSet u done = true → getFld u st = 0 → exec (.blockCmd n md ok1 ok2 rate nonce) s = .next (endCmd n .ok 0 0x100 (roleAction x.role 5 0x88 u))) ∧
    (isSet u done = false → exec (.blockCmd n md ok1 ok2 rate nonce) s = .next (setTries n 1 u))) ∧
  (∀ (n : Nat) (x : Cmd) (s : State), AdminDue n 0x89 x s →
    exec (.getLostWrites n) s = .next (adminOk n x s.store.lostw.length
      (adminOut x (slice ((((lostwSorted s).drop (enCdw x.raw)).take (enAux x.raw)).flatMap lostwBytes) 0 (16 * enAux x.raw)) s))) ∧
  (∀ (n : Nat) (x : Cmd) (s : State), AdminDue n 0x8A x s → x.tries = 0 → s.sum.cur = none →
    ∃ t, exec (.resync n) s = .next t ∧ t.sum.seq = (s.sum.seq + 1) % 2 ^ 32 ∧ t.sum.cur = some (sumBytes (setFld ADM_STAT_FROZEN 1 (setTries n 1 s)) t.sum.seq) ∧ t.sum.curFor = [n] ∧
      isSet t SUM_STAT_PENDING = true) ∧
  (∀ (w : Win) (v : Nat) (s : State), Passes w 0 s → v % 2 = 1 → isSet s CHIP_RESYNC_GO = false → s.sum.cur = none →
    exec (.chipResync w v) s = .next (takeSnap [0] (setFld CHIP_RESYNC_GO 1 (admitted w 0 s))) ∧
    (takeSnap [0] (setFld CHIP_RESYNC_GO 1 (admitted w 0 s))).sum.seq = (s.sum.seq + 1) % 2 ^ 32) ∧
  (∀ (w : Win) (v : Nat) (s : State), Passes w 0 s → v % 2 = 1 → isSet s CHIP_RESYNC_GO = false → s.sum.cur.isSome = true →
    ∃ t, exec (.chipResync w v) s = .next t ∧ isSet t CHIP_RESYNC_GO = true ∧ t.sum.again = true ∧ t.sum.nextFor = s.sum.nextFor ++ [0] ∧ t.sum.cur = s.sum.cur) ∧
  (∀ (b : List Byte) (s : State), s.sum.cur = some b → s.sum.curFor = [0] → cmdOf s 0 = none → s.sum.again = false → fenced s 8 = false →
    ∃ t, exec .snapshotPublish s = .next t ∧ t.sum.pub = b ∧ t.sum.cur = none ∧ isSet t SUM_STAT_VALID = true ∧
      getFld t SUM_SEQ_SNAP_SEQ = leAt b 0xC 4 ∧ isSet t SUM_STAT_PENDING = false ∧ isSet t CHIP_RESYNC_GO = false) ∧
  (∀ (n : Nat) (b : List Byte) (x : Cmd) (s : State), s.sum.cur = some b → s.sum.curFor = [n] → n ≠ 0 → cmdOf s n = some x →
    let u := adminOk n x (leAt b 0xC 4) (adminOut x b s)
    u.sum.again = false → fenced u 8 = false →
    exec .snapshotPublish s = .next (setFld SUM_STAT_PENDING 0 (setFld SUM_STAT_VALID 1 (setFld SUM_SEQ_SNAP_SEQ (leAt b 0xC 4) (updSum (fun t => { t with pub := b })
      (updSum (fun t => { t with cur := none, curFor := [], again := false, nextFor := [] }) u))))))

/-- R453, R454, Tables PKG-2 to PKG-6: each leg of each SerDes lane has a ball of its own, and so has each DDR signal; no supply takes one of them. The
output pins of a device after reset hold their reset state, or are high-Z where VDD_IO feeds them (R456, R457), and the rail enables show the step
the rail sequence has reached. The array holds the number of balls that Table PKG-5 counts for each rail, no rail draws more in a power state than its
regulator gives, and that of VDD_AON gives 2.6 A. Rests on R452 to R457, R463. -/
def Obligations.EveryBallCarriesOneSignal : Prop :=
  (∀ (x y : Nat) (a b c d : Bool), x < 192 → y < 192 → serdesBall x a b = serdesBall y c d → x = y ∧ a = c ∧ b = d) ∧
  (∀ (c c' u u' : Nat) (g g' : DdrSig), c < 4 → c' < 4 → u < 2 → u' < 2 → g.valid = true → g'.valid = true → ddrBall c u g = ddrBall c' u' g' →
    c = c' ∧ g = g' ∧ (u = u' ∨ g = .alert ∨ g = .reset)) ∧
  (∀ (x : Nat) (a b : Bool), x < 192 → (serdesBall x a b).row ≤ 30 ∧ ballRail (serdesBall x a b) = none) ∧
  (∀ (c u : Nat) (g : DdrSig), c < 4 → u < 2 → g.valid = true → 30 < (ddrBall c u g).row ∧ ballRail (ddrBall c u g) = none) ∧
  (∀ (g : Pin), pinNow State.reset g = if ioOutput g then some .highZ else pinReset g) ∧
  (∀ (g : Pin) (s : State), ioOutput g = true → ioPowered s = false → pinNow s g = some .highZ) ∧
  (∀ (i : Nat) (s : State), 1 ≤ i → i ≤ 3 → pinNow s (.pwrSeq i) = some (if (getFld s PWR_RAIL_SEQ).testBit (i - 1) then .high else .low)) ∧
  (rails.map (fun g => (allBalls.filter (fun b => decide (ballRail b = some g))).length) = [345, 112, 200, 200, 72, 24, 6]) ∧
  (∀ (st : Nat) (g : Rail), st ≤ 5 → currentMax st g ≤ regulator g) ∧ regulator .vddAon = 2600
end

