-- ==== Sys2Proof/Laws/Maps.lean ====
section
/-! SUPPORT. Sorted maps: what a write and a removal leave, and that both keep the keys rising. -/

namespace Sys2Proof.Machine

variable {α : Type}

@[simp] theorem smGet_nil (a : Nat) : smGet ([] : SMap α) a = none := rfl

theorem smGet_smSet_self (m : SMap α) (a : Nat) (x : α) : smGet (smSet m a x) a = some x := by
  induction m with
  | nil => simp [smSet, smGet]
  | cons p m ih =>
    obtain ⟨k, v⟩ := p
    unfold smSet
    split
    · simp [smGet]
    · split
      · simp [smGet]
      · next h => simp [smGet, h, ih]

theorem smGet_smSet_ne (m : SMap α) {a b : Nat} (h : b ≠ a) (x : α) : smGet (smSet m a x) b = smGet m b := by
  induction m with
  | nil => simp [smSet, smGet, h]
  | cons p m ih =>
    obtain ⟨k, v⟩ := p
    unfold smSet
    split
    · simp [smGet, h]
    · split
      · next hk => subst hk; simp [smGet, h]
      · simp [smGet, ih]

theorem smGet_smDel_self (m : SMap α) (a : Nat) : smGet (smDel m a) a = none := by
  induction m with
  | nil => rfl
  | cons p m ih =>
    obtain ⟨k, v⟩ := p
    unfold smDel
    split
    · exact ih
    · next h => simp [smGet, h, ih]

theorem smGet_smDel_ne (m : SMap α) {a b : Nat} (h : b ≠ a) : smGet (smDel m a) b = smGet m b := by
  induction m with
  | nil => rfl
  | cons p m ih =>
    obtain ⟨k, v⟩ := p
    unfold smDel
    split
    · next hk => subst hk; simp [smGet, h, ih]
    · simp [smGet, ih]

theorem smSorted_cons (k : Nat) (v : α) (m : SMap α) : smSorted ((k, v) :: m) = true ↔ (∀ p ∈ m, k < p.1) ∧ smSorted m = true := by
  simp [smSorted]

theorem mem_smSet {m : SMap α} {a : Nat} {x : α} {p : Nat × α} (h : p ∈ smSet m a x) : p = (a, x) ∨ p ∈ m := by
  induction m with
  | nil => simpa [smSet] using h
  | cons q m ih =>
    obtain ⟨k, v⟩ := q
    unfold smSet at h
    split at h
    · simpa using h
    · split at h
      · rcases List.mem_cons.1 h with h | h
        · exact .inl h
        · exact .inr (List.mem_cons_of_mem _ h)
      · rcases List.mem_cons.1 h with h | h
        · exact .inr (h ▸ List.mem_cons_self)
        · exact (ih h).imp id (List.mem_cons_of_mem _)

theorem mem_smDel {m : SMap α} {a : Nat} {p : Nat × α} (h : p ∈ smDel m a) : p ∈ m := by
  induction m with
  | nil => simp [smDel] at h
  | cons q m ih =>
    obtain ⟨k, v⟩ := q
    unfold smDel at h
    split at h
    · exact List.mem_cons_of_mem _ (ih h)
    · rcases List.mem_cons.1 h with h | h
      · exact h ▸ List.mem_cons_self
      · exact List.mem_cons_of_mem _ (ih h)

theorem smSorted_smSet {m : SMap α} (h : smSorted m = true) (a : Nat) (x : α) : smSorted (smSet m a x) = true := by
  induction m with
  | nil => simp [smSet, smSorted]
  | cons q m ih =>
    obtain ⟨k, v⟩ := q
    obtain ⟨hk, hm⟩ := (smSorted_cons k v m).1 h
    unfold smSet
    split
    · next hlt =>
      refine (smSorted_cons a x _).2 ⟨fun p hp => ?_, h⟩
      rcases List.mem_cons.1 hp with rfl | hp
      · exact hlt
      · exact lt_trans hlt (hk p hp)
    · split
      · next he => subst he; exact (smSorted_cons _ x m).2 ⟨hk, hm⟩
      · next h1 h2 =>
        refine (smSorted_cons k v _).2 ⟨fun p hp => ?_, ih hm⟩
        rcases mem_smSet hp with rfl | hp
        · show k < a; omega
        · exact hk p hp

theorem smSorted_smDel {m : SMap α} (h : smSorted m = true) (a : Nat) : smSorted (smDel m a) = true := by
  induction m with
  | nil => rfl
  | cons q m ih =>
    obtain ⟨k, v⟩ := q
    obtain ⟨hk, hm⟩ := (smSorted_cons k v m).1 h
    unfold smDel
    split
    · exact ih hm
    · exact (smSorted_cons k v _).2 ⟨fun p hp => hk p (mem_smDel hp), ih hm⟩

theorem smSorted_filter {m : SMap α} (h : smSorted m = true) (f : Nat × α → Bool) : smSorted (m.filter f) = true := by
  induction m with
  | nil => rfl
  | cons q m ih =>
    obtain ⟨k, v⟩ := q
    obtain ⟨hk, hm⟩ := (smSorted_cons k v m).1 h
    rw [List.filter_cons]
    split
    · exact (smSorted_cons k v _).2 ⟨fun p hp => hk p (List.mem_filter.1 hp).1, ih hm⟩
    · exact ih hm

end Sys2Proof.Machine
end

