-- ==== Sys2Proof/Laws/State.lean ====
section
/-! SUPPORT. What each part-wise update of the state leaves of every field, and what a register field reads after a write. -/

namespace Sys2Proof.Machine

/-! ### A write of a register field changes the registers alone -/

@[simp] theorem setFld_timeQ (f : FRef) (v : Nat) (s : State) : (setFld f v s).timeQ = s.timeQ := rfl
@[simp] theorem setFld_fresh (f : FRef) (v : Nat) (s : State) : (setFld f v s).fresh = s.fresh := rfl
@[simp] theorem setFld_out (f : FRef) (v : Nat) (s : State) : (setFld f v s).out = s.out := rfl
@[simp] theorem setFld_hiLatch (f : FRef) (v : Nat) (s : State) : (setFld f v s).hiLatch = s.hiLatch := rfl
@[simp] theorem setFld_io (f : FRef) (v : Nat) (s : State) : (setFld f v s).io = s.io := rfl
@[simp] theorem setFld_store (f : FRef) (v : Nat) (s : State) : (setFld f v s).store = s.store := rfl
@[simp] theorem setFld_cache (f : FRef) (v : Nat) (s : State) : (setFld f v s).cache = s.cache := rfl
@[simp] theorem setFld_bem (f : FRef) (v : Nat) (s : State) : (setFld f v s).bem = s.bem := rfl
@[simp] theorem setFld_host (f : FRef) (v : Nat) (s : State) : (setFld f v s).host = s.host := rfl
@[simp] theorem setFld_drive (f : FRef) (v : Nat) (s : State) : (setFld f v s).drive = s.drive := rfl
@[simp] theorem setFld_dram (f : FRef) (v : Nat) (s : State) : (setFld f v s).dram = s.dram := rfl
@[simp] theorem setFld_link (f : FRef) (v : Nat) (s : State) : (setFld f v s).link = s.link := rfl
@[simp] theorem setFld_mover (f : FRef) (v : Nat) (s : State) : (setFld f v s).mover = s.mover := rfl
@[simp] theorem setFld_icu (f : FRef) (v : Nat) (s : State) : (setFld f v s).icu = s.icu := rfl
@[simp] theorem setFld_flt (f : FRef) (v : Nat) (s : State) : (setFld f v s).flt = s.flt := rfl
@[simp] theorem setFld_pwr (f : FRef) (v : Nat) (s : State) : (setFld f v s).pwr = s.pwr := rfl
@[simp] theorem setFld_role (f : FRef) (v : Nat) (s : State) : (setFld f v s).role = s.role := rfl
@[simp] theorem setFld_evr (f : FRef) (v : Nat) (s : State) : (setFld f v s).evr = s.evr := rfl
@[simp] theorem setFld_sched (f : FRef) (v : Nat) (s : State) : (setFld f v s).sched = s.sched := rfl
@[simp] theorem setFld_sum (f : FRef) (v : Nat) (s : State) : (setFld f v s).sum = s.sum := rfl
@[simp] theorem setFld_flash (f : FRef) (v : Nat) (s : State) : (setFld f v s).flash = s.flash := rfl
@[simp] theorem setFld_pending (f : FRef) (v : Nat) (s : State) : (setFld f v s).pending = s.pending := rfl

/-! ### updBem -/

@[simp] theorem updBem_regs (f : Bem → Bem) (s : State) : (updBem f s).regs = s.regs := rfl
@[simp] theorem updBem_timeQ (f : Bem → Bem) (s : State) : (updBem f s).timeQ = s.timeQ := rfl
@[simp] theorem updBem_fresh (f : Bem → Bem) (s : State) : (updBem f s).fresh = s.fresh := rfl
@[simp] theorem updBem_out (f : Bem → Bem) (s : State) : (updBem f s).out = s.out := rfl
@[simp] theorem updBem_hiLatch (f : Bem → Bem) (s : State) : (updBem f s).hiLatch = s.hiLatch := rfl
@[simp] theorem updBem_io (f : Bem → Bem) (s : State) : (updBem f s).io = s.io := rfl
@[simp] theorem updBem_store (f : Bem → Bem) (s : State) : (updBem f s).store = s.store := rfl
@[simp] theorem updBem_cache (f : Bem → Bem) (s : State) : (updBem f s).cache = s.cache := rfl
@[simp] theorem updBem_bem (f : Bem → Bem) (s : State) : (updBem f s).bem = f s.bem := rfl
@[simp] theorem updBem_host (f : Bem → Bem) (s : State) : (updBem f s).host = s.host := rfl
@[simp] theorem updBem_drive (f : Bem → Bem) (s : State) : (updBem f s).drive = s.drive := rfl
@[simp] theorem updBem_dram (f : Bem → Bem) (s : State) : (updBem f s).dram = s.dram := rfl
@[simp] theorem updBem_link (f : Bem → Bem) (s : State) : (updBem f s).link = s.link := rfl
@[simp] theorem updBem_mover (f : Bem → Bem) (s : State) : (updBem f s).mover = s.mover := rfl
@[simp] theorem updBem_icu (f : Bem → Bem) (s : State) : (updBem f s).icu = s.icu := rfl
@[simp] theorem updBem_flt (f : Bem → Bem) (s : State) : (updBem f s).flt = s.flt := rfl
@[simp] theorem updBem_pwr (f : Bem → Bem) (s : State) : (updBem f s).pwr = s.pwr := rfl
@[simp] theorem updBem_role (f : Bem → Bem) (s : State) : (updBem f s).role = s.role := rfl
@[simp] theorem updBem_evr (f : Bem → Bem) (s : State) : (updBem f s).evr = s.evr := rfl
@[simp] theorem updBem_sched (f : Bem → Bem) (s : State) : (updBem f s).sched = s.sched := rfl
@[simp] theorem updBem_sum (f : Bem → Bem) (s : State) : (updBem f s).sum = s.sum := rfl
@[simp] theorem updBem_flash (f : Bem → Bem) (s : State) : (updBem f s).flash = s.flash := rfl
@[simp] theorem updBem_pending (f : Bem → Bem) (s : State) : (updBem f s).pending = s.pending := rfl
@[simp] theorem getFld_updBem (f : Bem → Bem) (s : State) (g : FRef) : getFld (updBem f s) g = getFld s g := rfl

/-! ### updCache -/

@[simp] theorem updCache_regs (f : Cache → Cache) (s : State) : (updCache f s).regs = s.regs := rfl
@[simp] theorem updCache_timeQ (f : Cache → Cache) (s : State) : (updCache f s).timeQ = s.timeQ := rfl
@[simp] theorem updCache_fresh (f : Cache → Cache) (s : State) : (updCache f s).fresh = s.fresh := rfl
@[simp] theorem updCache_out (f : Cache → Cache) (s : State) : (updCache f s).out = s.out := rfl
@[simp] theorem updCache_hiLatch (f : Cache → Cache) (s : State) : (updCache f s).hiLatch = s.hiLatch := rfl
@[simp] theorem updCache_io (f : Cache → Cache) (s : State) : (updCache f s).io = s.io := rfl
@[simp] theorem updCache_store (f : Cache → Cache) (s : State) : (updCache f s).store = s.store := rfl
@[simp] theorem updCache_cache (f : Cache → Cache) (s : State) : (updCache f s).cache = f s.cache := rfl
@[simp] theorem updCache_bem (f : Cache → Cache) (s : State) : (updCache f s).bem = s.bem := rfl
@[simp] theorem updCache_host (f : Cache → Cache) (s : State) : (updCache f s).host = s.host := rfl
@[simp] theorem updCache_drive (f : Cache → Cache) (s : State) : (updCache f s).drive = s.drive := rfl
@[simp] theorem updCache_dram (f : Cache → Cache) (s : State) : (updCache f s).dram = s.dram := rfl
@[simp] theorem updCache_link (f : Cache → Cache) (s : State) : (updCache f s).link = s.link := rfl
@[simp] theorem updCache_mover (f : Cache → Cache) (s : State) : (updCache f s).mover = s.mover := rfl
@[simp] theorem updCache_icu (f : Cache → Cache) (s : State) : (updCache f s).icu = s.icu := rfl
@[simp] theorem updCache_flt (f : Cache → Cache) (s : State) : (updCache f s).flt = s.flt := rfl
@[simp] theorem updCache_pwr (f : Cache → Cache) (s : State) : (updCache f s).pwr = s.pwr := rfl
@[simp] theorem updCache_role (f : Cache → Cache) (s : State) : (updCache f s).role = s.role := rfl
@[simp] theorem updCache_evr (f : Cache → Cache) (s : State) : (updCache f s).evr = s.evr := rfl
@[simp] theorem updCache_sched (f : Cache → Cache) (s : State) : (updCache f s).sched = s.sched := rfl
@[simp] theorem updCache_sum (f : Cache → Cache) (s : State) : (updCache f s).sum = s.sum := rfl
@[simp] theorem updCache_flash (f : Cache → Cache) (s : State) : (updCache f s).flash = s.flash := rfl
@[simp] theorem updCache_pending (f : Cache → Cache) (s : State) : (updCache f s).pending = s.pending := rfl
@[simp] theorem getFld_updCache (f : Cache → Cache) (s : State) (g : FRef) : getFld (updCache f s) g = getFld s g := rfl

/-! ### updDram -/

@[simp] theorem updDram_regs (f : DramSt → DramSt) (s : State) : (updDram f s).regs = s.regs := rfl
@[simp] theorem updDram_timeQ (f : DramSt → DramSt) (s : State) : (updDram f s).timeQ = s.timeQ := rfl
@[simp] theorem updDram_fresh (f : DramSt → DramSt) (s : State) : (updDram f s).fresh = s.fresh := rfl
@[simp] theorem updDram_out (f : DramSt → DramSt) (s : State) : (updDram f s).out = s.out := rfl
@[simp] theorem updDram_hiLatch (f : DramSt → DramSt) (s : State) : (updDram f s).hiLatch = s.hiLatch := rfl
@[simp] theorem updDram_io (f : DramSt → DramSt) (s : State) : (updDram f s).io = s.io := rfl
@[simp] theorem updDram_store (f : DramSt → DramSt) (s : State) : (updDram f s).store = s.store := rfl
@[simp] theorem updDram_cache (f : DramSt → DramSt) (s : State) : (updDram f s).cache = s.cache := rfl
@[simp] theorem updDram_bem (f : DramSt → DramSt) (s : State) : (updDram f s).bem = s.bem := rfl
@[simp] theorem updDram_host (f : DramSt → DramSt) (s : State) : (updDram f s).host = s.host := rfl
@[simp] theorem updDram_drive (f : DramSt → DramSt) (s : State) : (updDram f s).drive = s.drive := rfl
@[simp] theorem updDram_dram (f : DramSt → DramSt) (s : State) : (updDram f s).dram = f s.dram := rfl
@[simp] theorem updDram_link (f : DramSt → DramSt) (s : State) : (updDram f s).link = s.link := rfl
@[simp] theorem updDram_mover (f : DramSt → DramSt) (s : State) : (updDram f s).mover = s.mover := rfl
@[simp] theorem updDram_icu (f : DramSt → DramSt) (s : State) : (updDram f s).icu = s.icu := rfl
@[simp] theorem updDram_flt (f : DramSt → DramSt) (s : State) : (updDram f s).flt = s.flt := rfl
@[simp] theorem updDram_pwr (f : DramSt → DramSt) (s : State) : (updDram f s).pwr = s.pwr := rfl
@[simp] theorem updDram_role (f : DramSt → DramSt) (s : State) : (updDram f s).role = s.role := rfl
@[simp] theorem updDram_evr (f : DramSt → DramSt) (s : State) : (updDram f s).evr = s.evr := rfl
@[simp] theorem updDram_sched (f : DramSt → DramSt) (s : State) : (updDram f s).sched = s.sched := rfl
@[simp] theorem updDram_sum (f : DramSt → DramSt) (s : State) : (updDram f s).sum = s.sum := rfl
@[simp] theorem updDram_flash (f : DramSt → DramSt) (s : State) : (updDram f s).flash = s.flash := rfl
@[simp] theorem updDram_pending (f : DramSt → DramSt) (s : State) : (updDram f s).pending = s.pending := rfl
@[simp] theorem getFld_updDram (f : DramSt → DramSt) (s : State) (g : FRef) : getFld (updDram f s) g = getFld s g := rfl

/-! ### updDrive -/

@[simp] theorem updDrive_regs (f : DriveSt → DriveSt) (s : State) : (updDrive f s).regs = s.regs := rfl
@[simp] theorem updDrive_timeQ (f : DriveSt → DriveSt) (s : State) : (updDrive f s).timeQ = s.timeQ := rfl
@[simp] theorem updDrive_fresh (f : DriveSt → DriveSt) (s : State) : (updDrive f s).fresh = s.fresh := rfl
@[simp] theorem updDrive_out (f : DriveSt → DriveSt) (s : State) : (updDrive f s).out = s.out := rfl
@[simp] theorem updDrive_hiLatch (f : DriveSt → DriveSt) (s : State) : (updDrive f s).hiLatch = s.hiLatch := rfl
@[simp] theorem updDrive_io (f : DriveSt → DriveSt) (s : State) : (updDrive f s).io = s.io := rfl
@[simp] theorem updDrive_store (f : DriveSt → DriveSt) (s : State) : (updDrive f s).store = s.store := rfl
@[simp] theorem updDrive_cache (f : DriveSt → DriveSt) (s : State) : (updDrive f s).cache = s.cache := rfl
@[simp] theorem updDrive_bem (f : DriveSt → DriveSt) (s : State) : (updDrive f s).bem = s.bem := rfl
@[simp] theorem updDrive_host (f : DriveSt → DriveSt) (s : State) : (updDrive f s).host = s.host := rfl
@[simp] theorem updDrive_drive (f : DriveSt → DriveSt) (s : State) : (updDrive f s).drive = f s.drive := rfl
@[simp] theorem updDrive_dram (f : DriveSt → DriveSt) (s : State) : (updDrive f s).dram = s.dram := rfl
@[simp] theorem updDrive_link (f : DriveSt → DriveSt) (s : State) : (updDrive f s).link = s.link := rfl
@[simp] theorem updDrive_mover (f : DriveSt → DriveSt) (s : State) : (updDrive f s).mover = s.mover := rfl
@[simp] theorem updDrive_icu (f : DriveSt → DriveSt) (s : State) : (updDrive f s).icu = s.icu := rfl
@[simp] theorem updDrive_flt (f : DriveSt → DriveSt) (s : State) : (updDrive f s).flt = s.flt := rfl
@[simp] theorem updDrive_pwr (f : DriveSt → DriveSt) (s : State) : (updDrive f s).pwr = s.pwr := rfl
@[simp] theorem updDrive_role (f : DriveSt → DriveSt) (s : State) : (updDrive f s).role = s.role := rfl
@[simp] theorem updDrive_evr (f : DriveSt → DriveSt) (s : State) : (updDrive f s).evr = s.evr := rfl
@[simp] theorem updDrive_sched (f : DriveSt → DriveSt) (s : State) : (updDrive f s).sched = s.sched := rfl
@[simp] theorem updDrive_sum (f : DriveSt → DriveSt) (s : State) : (updDrive f s).sum = s.sum := rfl
@[simp] theorem updDrive_flash (f : DriveSt → DriveSt) (s : State) : (updDrive f s).flash = s.flash := rfl
@[simp] theorem updDrive_pending (f : DriveSt → DriveSt) (s : State) : (updDrive f s).pending = s.pending := rfl
@[simp] theorem getFld_updDrive (f : DriveSt → DriveSt) (s : State) (g : FRef) : getFld (updDrive f s) g = getFld s g := rfl

/-! ### updEvr -/

@[simp] theorem updEvr_regs (f : EvrSt → EvrSt) (s : State) : (updEvr f s).regs = s.regs := rfl
@[simp] theorem updEvr_timeQ (f : EvrSt → EvrSt) (s : State) : (updEvr f s).timeQ = s.timeQ := rfl
@[simp] theorem updEvr_fresh (f : EvrSt → EvrSt) (s : State) : (updEvr f s).fresh = s.fresh := rfl
@[simp] theorem updEvr_out (f : EvrSt → EvrSt) (s : State) : (updEvr f s).out = s.out := rfl
@[simp] theorem updEvr_hiLatch (f : EvrSt → EvrSt) (s : State) : (updEvr f s).hiLatch = s.hiLatch := rfl
@[simp] theorem updEvr_io (f : EvrSt → EvrSt) (s : State) : (updEvr f s).io = s.io := rfl
@[simp] theorem updEvr_store (f : EvrSt → EvrSt) (s : State) : (updEvr f s).store = s.store := rfl
@[simp] theorem updEvr_cache (f : EvrSt → EvrSt) (s : State) : (updEvr f s).cache = s.cache := rfl
@[simp] theorem updEvr_bem (f : EvrSt → EvrSt) (s : State) : (updEvr f s).bem = s.bem := rfl
@[simp] theorem updEvr_host (f : EvrSt → EvrSt) (s : State) : (updEvr f s).host = s.host := rfl
@[simp] theorem updEvr_drive (f : EvrSt → EvrSt) (s : State) : (updEvr f s).drive = s.drive := rfl
@[simp] theorem updEvr_dram (f : EvrSt → EvrSt) (s : State) : (updEvr f s).dram = s.dram := rfl
@[simp] theorem updEvr_link (f : EvrSt → EvrSt) (s : State) : (updEvr f s).link = s.link := rfl
@[simp] theorem updEvr_mover (f : EvrSt → EvrSt) (s : State) : (updEvr f s).mover = s.mover := rfl
@[simp] theorem updEvr_icu (f : EvrSt → EvrSt) (s : State) : (updEvr f s).icu = s.icu := rfl
@[simp] theorem updEvr_flt (f : EvrSt → EvrSt) (s : State) : (updEvr f s).flt = s.flt := rfl
@[simp] theorem updEvr_pwr (f : EvrSt → EvrSt) (s : State) : (updEvr f s).pwr = s.pwr := rfl
@[simp] theorem updEvr_role (f : EvrSt → EvrSt) (s : State) : (updEvr f s).role = s.role := rfl
@[simp] theorem updEvr_evr (f : EvrSt → EvrSt) (s : State) : (updEvr f s).evr = f s.evr := rfl
@[simp] theorem updEvr_sched (f : EvrSt → EvrSt) (s : State) : (updEvr f s).sched = s.sched := rfl
@[simp] theorem updEvr_sum (f : EvrSt → EvrSt) (s : State) : (updEvr f s).sum = s.sum := rfl
@[simp] theorem updEvr_flash (f : EvrSt → EvrSt) (s : State) : (updEvr f s).flash = s.flash := rfl
@[simp] theorem updEvr_pending (f : EvrSt → EvrSt) (s : State) : (updEvr f s).pending = s.pending := rfl
@[simp] theorem getFld_updEvr (f : EvrSt → EvrSt) (s : State) (g : FRef) : getFld (updEvr f s) g = getFld s g := rfl

/-! ### updFlash -/

@[simp] theorem updFlash_regs (f : FlashSt → FlashSt) (s : State) : (updFlash f s).regs = s.regs := rfl
@[simp] theorem updFlash_timeQ (f : FlashSt → FlashSt) (s : State) : (updFlash f s).timeQ = s.timeQ := rfl
@[simp] theorem updFlash_fresh (f : FlashSt → FlashSt) (s : State) : (updFlash f s).fresh = s.fresh := rfl
@[simp] theorem updFlash_out (f : FlashSt → FlashSt) (s : State) : (updFlash f s).out = s.out := rfl
@[simp] theorem updFlash_hiLatch (f : FlashSt → FlashSt) (s : State) : (updFlash f s).hiLatch = s.hiLatch := rfl
@[simp] theorem updFlash_io (f : FlashSt → FlashSt) (s : State) : (updFlash f s).io = s.io := rfl
@[simp] theorem updFlash_store (f : FlashSt → FlashSt) (s : State) : (updFlash f s).store = s.store := rfl
@[simp] theorem updFlash_cache (f : FlashSt → FlashSt) (s : State) : (updFlash f s).cache = s.cache := rfl
@[simp] theorem updFlash_bem (f : FlashSt → FlashSt) (s : State) : (updFlash f s).bem = s.bem := rfl
@[simp] theorem updFlash_host (f : FlashSt → FlashSt) (s : State) : (updFlash f s).host = s.host := rfl
@[simp] theorem updFlash_drive (f : FlashSt → FlashSt) (s : State) : (updFlash f s).drive = s.drive := rfl
@[simp] theorem updFlash_dram (f : FlashSt → FlashSt) (s : State) : (updFlash f s).dram = s.dram := rfl
@[simp] theorem updFlash_link (f : FlashSt → FlashSt) (s : State) : (updFlash f s).link = s.link := rfl
@[simp] theorem updFlash_mover (f : FlashSt → FlashSt) (s : State) : (updFlash f s).mover = s.mover := rfl
@[simp] theorem updFlash_icu (f : FlashSt → FlashSt) (s : State) : (updFlash f s).icu = s.icu := rfl
@[simp] theorem updFlash_flt (f : FlashSt → FlashSt) (s : State) : (updFlash f s).flt = s.flt := rfl
@[simp] theorem updFlash_pwr (f : FlashSt → FlashSt) (s : State) : (updFlash f s).pwr = s.pwr := rfl
@[simp] theorem updFlash_role (f : FlashSt → FlashSt) (s : State) : (updFlash f s).role = s.role := rfl
@[simp] theorem updFlash_evr (f : FlashSt → FlashSt) (s : State) : (updFlash f s).evr = s.evr := rfl
@[simp] theorem updFlash_sched (f : FlashSt → FlashSt) (s : State) : (updFlash f s).sched = s.sched := rfl
@[simp] theorem updFlash_sum (f : FlashSt → FlashSt) (s : State) : (updFlash f s).sum = s.sum := rfl
@[simp] theorem updFlash_flash (f : FlashSt → FlashSt) (s : State) : (updFlash f s).flash = f s.flash := rfl
@[simp] theorem updFlash_pending (f : FlashSt → FlashSt) (s : State) : (updFlash f s).pending = s.pending := rfl
@[simp] theorem getFld_updFlash (f : FlashSt → FlashSt) (s : State) (g : FRef) : getFld (updFlash f s) g = getFld s g := rfl

/-! ### updFlt -/

@[simp] theorem updFlt_regs (f : FltSt → FltSt) (s : State) : (updFlt f s).regs = s.regs := rfl
@[simp] theorem updFlt_timeQ (f : FltSt → FltSt) (s : State) : (updFlt f s).timeQ = s.timeQ := rfl
@[simp] theorem updFlt_fresh (f : FltSt → FltSt) (s : State) : (updFlt f s).fresh = s.fresh := rfl
@[simp] theorem updFlt_out (f : FltSt → FltSt) (s : State) : (updFlt f s).out = s.out := rfl
@[simp] theorem updFlt_hiLatch (f : FltSt → FltSt) (s : State) : (updFlt f s).hiLatch = s.hiLatch := rfl
@[simp] theorem updFlt_io (f : FltSt → FltSt) (s : State) : (updFlt f s).io = s.io := rfl
@[simp] theorem updFlt_store (f : FltSt → FltSt) (s : State) : (updFlt f s).store = s.store := rfl
@[simp] theorem updFlt_cache (f : FltSt → FltSt) (s : State) : (updFlt f s).cache = s.cache := rfl
@[simp] theorem updFlt_bem (f : FltSt → FltSt) (s : State) : (updFlt f s).bem = s.bem := rfl
@[simp] theorem updFlt_host (f : FltSt → FltSt) (s : State) : (updFlt f s).host = s.host := rfl
@[simp] theorem updFlt_drive (f : FltSt → FltSt) (s : State) : (updFlt f s).drive = s.drive := rfl
@[simp] theorem updFlt_dram (f : FltSt → FltSt) (s : State) : (updFlt f s).dram = s.dram := rfl
@[simp] theorem updFlt_link (f : FltSt → FltSt) (s : State) : (updFlt f s).link = s.link := rfl
@[simp] theorem updFlt_mover (f : FltSt → FltSt) (s : State) : (updFlt f s).mover = s.mover := rfl
@[simp] theorem updFlt_icu (f : FltSt → FltSt) (s : State) : (updFlt f s).icu = s.icu := rfl
@[simp] theorem updFlt_flt (f : FltSt → FltSt) (s : State) : (updFlt f s).flt = f s.flt := rfl
@[simp] theorem updFlt_pwr (f : FltSt → FltSt) (s : State) : (updFlt f s).pwr = s.pwr := rfl
@[simp] theorem updFlt_role (f : FltSt → FltSt) (s : State) : (updFlt f s).role = s.role := rfl
@[simp] theorem updFlt_evr (f : FltSt → FltSt) (s : State) : (updFlt f s).evr = s.evr := rfl
@[simp] theorem updFlt_sched (f : FltSt → FltSt) (s : State) : (updFlt f s).sched = s.sched := rfl
@[simp] theorem updFlt_sum (f : FltSt → FltSt) (s : State) : (updFlt f s).sum = s.sum := rfl
@[simp] theorem updFlt_flash (f : FltSt → FltSt) (s : State) : (updFlt f s).flash = s.flash := rfl
@[simp] theorem updFlt_pending (f : FltSt → FltSt) (s : State) : (updFlt f s).pending = s.pending := rfl
@[simp] theorem getFld_updFlt (f : FltSt → FltSt) (s : State) (g : FRef) : getFld (updFlt f s) g = getFld s g := rfl

/-! ### updHost -/

@[simp] theorem updHost_regs (f : HostSt → HostSt) (s : State) : (updHost f s).regs = s.regs := rfl
@[simp] theorem updHost_timeQ (f : HostSt → HostSt) (s : State) : (updHost f s).timeQ = s.timeQ := rfl
@[simp] theorem updHost_fresh (f : HostSt → HostSt) (s : State) : (updHost f s).fresh = s.fresh := rfl
@[simp] theorem updHost_out (f : HostSt → HostSt) (s : State) : (updHost f s).out = s.out := rfl
@[simp] theorem updHost_hiLatch (f : HostSt → HostSt) (s : State) : (updHost f s).hiLatch = s.hiLatch := rfl
@[simp] theorem updHost_io (f : HostSt → HostSt) (s : State) : (updHost f s).io = s.io := rfl
@[simp] theorem updHost_store (f : HostSt → HostSt) (s : State) : (updHost f s).store = s.store := rfl
@[simp] theorem updHost_cache (f : HostSt → HostSt) (s : State) : (updHost f s).cache = s.cache := rfl
@[simp] theorem updHost_bem (f : HostSt → HostSt) (s : State) : (updHost f s).bem = s.bem := rfl
@[simp] theorem updHost_host (f : HostSt → HostSt) (s : State) : (updHost f s).host = f s.host := rfl
@[simp] theorem updHost_drive (f : HostSt → HostSt) (s : State) : (updHost f s).drive = s.drive := rfl
@[simp] theorem updHost_dram (f : HostSt → HostSt) (s : State) : (updHost f s).dram = s.dram := rfl
@[simp] theorem updHost_link (f : HostSt → HostSt) (s : State) : (updHost f s).link = s.link := rfl
@[simp] theorem updHost_mover (f : HostSt → HostSt) (s : State) : (updHost f s).mover = s.mover := rfl
@[simp] theorem updHost_icu (f : HostSt → HostSt) (s : State) : (updHost f s).icu = s.icu := rfl
@[simp] theorem updHost_flt (f : HostSt → HostSt) (s : State) : (updHost f s).flt = s.flt := rfl
@[simp] theorem updHost_pwr (f : HostSt → HostSt) (s : State) : (updHost f s).pwr = s.pwr := rfl
@[simp] theorem updHost_role (f : HostSt → HostSt) (s : State) : (updHost f s).role = s.role := rfl
@[simp] theorem updHost_evr (f : HostSt → HostSt) (s : State) : (updHost f s).evr = s.evr := rfl
@[simp] theorem updHost_sched (f : HostSt → HostSt) (s : State) : (updHost f s).sched = s.sched := rfl
@[simp] theorem updHost_sum (f : HostSt → HostSt) (s : State) : (updHost f s).sum = s.sum := rfl
@[simp] theorem updHost_flash (f : HostSt → HostSt) (s : State) : (updHost f s).flash = s.flash := rfl
@[simp] theorem updHost_pending (f : HostSt → HostSt) (s : State) : (updHost f s).pending = s.pending := rfl
@[simp] theorem getFld_updHost (f : HostSt → HostSt) (s : State) (g : FRef) : getFld (updHost f s) g = getFld s g := rfl

/-! ### updIcu -/

@[simp] theorem updIcu_regs (f : IcuSt → IcuSt) (s : State) : (updIcu f s).regs = s.regs := rfl
@[simp] theorem updIcu_timeQ (f : IcuSt → IcuSt) (s : State) : (updIcu f s).timeQ = s.timeQ := rfl
@[simp] theorem updIcu_fresh (f : IcuSt → IcuSt) (s : State) : (updIcu f s).fresh = s.fresh := rfl
@[simp] theorem updIcu_out (f : IcuSt → IcuSt) (s : State) : (updIcu f s).out = s.out := rfl
@[simp] theorem updIcu_hiLatch (f : IcuSt → IcuSt) (s : State) : (updIcu f s).hiLatch = s.hiLatch := rfl
@[simp] theorem updIcu_io (f : IcuSt → IcuSt) (s : State) : (updIcu f s).io = s.io := rfl
@[simp] theorem updIcu_store (f : IcuSt → IcuSt) (s : State) : (updIcu f s).store = s.store := rfl
@[simp] theorem updIcu_cache (f : IcuSt → IcuSt) (s : State) : (updIcu f s).cache = s.cache := rfl
@[simp] theorem updIcu_bem (f : IcuSt → IcuSt) (s : State) : (updIcu f s).bem = s.bem := rfl
@[simp] theorem updIcu_host (f : IcuSt → IcuSt) (s : State) : (updIcu f s).host = s.host := rfl
@[simp] theorem updIcu_drive (f : IcuSt → IcuSt) (s : State) : (updIcu f s).drive = s.drive := rfl
@[simp] theorem updIcu_dram (f : IcuSt → IcuSt) (s : State) : (updIcu f s).dram = s.dram := rfl
@[simp] theorem updIcu_link (f : IcuSt → IcuSt) (s : State) : (updIcu f s).link = s.link := rfl
@[simp] theorem updIcu_mover (f : IcuSt → IcuSt) (s : State) : (updIcu f s).mover = s.mover := rfl
@[simp] theorem updIcu_icu (f : IcuSt → IcuSt) (s : State) : (updIcu f s).icu = f s.icu := rfl
@[simp] theorem updIcu_flt (f : IcuSt → IcuSt) (s : State) : (updIcu f s).flt = s.flt := rfl
@[simp] theorem updIcu_pwr (f : IcuSt → IcuSt) (s : State) : (updIcu f s).pwr = s.pwr := rfl
@[simp] theorem updIcu_role (f : IcuSt → IcuSt) (s : State) : (updIcu f s).role = s.role := rfl
@[simp] theorem updIcu_evr (f : IcuSt → IcuSt) (s : State) : (updIcu f s).evr = s.evr := rfl
@[simp] theorem updIcu_sched (f : IcuSt → IcuSt) (s : State) : (updIcu f s).sched = s.sched := rfl
@[simp] theorem updIcu_sum (f : IcuSt → IcuSt) (s : State) : (updIcu f s).sum = s.sum := rfl
@[simp] theorem updIcu_flash (f : IcuSt → IcuSt) (s : State) : (updIcu f s).flash = s.flash := rfl
@[simp] theorem updIcu_pending (f : IcuSt → IcuSt) (s : State) : (updIcu f s).pending = s.pending := rfl
@[simp] theorem getFld_updIcu (f : IcuSt → IcuSt) (s : State) (g : FRef) : getFld (updIcu f s) g = getFld s g := rfl

/-! ### updIo -/

@[simp] theorem updIo_regs (f : Io → Io) (s : State) : (updIo f s).regs = s.regs := rfl
@[simp] theorem updIo_timeQ (f : Io → Io) (s : State) : (updIo f s).timeQ = s.timeQ := rfl
@[simp] theorem updIo_fresh (f : Io → Io) (s : State) : (updIo f s).fresh = s.fresh := rfl
@[simp] theorem updIo_out (f : Io → Io) (s : State) : (updIo f s).out = s.out := rfl
@[simp] theorem updIo_hiLatch (f : Io → Io) (s : State) : (updIo f s).hiLatch = s.hiLatch := rfl
@[simp] theorem updIo_io (f : Io → Io) (s : State) : (updIo f s).io = f s.io := rfl
@[simp] theorem updIo_store (f : Io → Io) (s : State) : (updIo f s).store = s.store := rfl
@[simp] theorem updIo_cache (f : Io → Io) (s : State) : (updIo f s).cache = s.cache := rfl
@[simp] theorem updIo_bem (f : Io → Io) (s : State) : (updIo f s).bem = s.bem := rfl
@[simp] theorem updIo_host (f : Io → Io) (s : State) : (updIo f s).host = s.host := rfl
@[simp] theorem updIo_drive (f : Io → Io) (s : State) : (updIo f s).drive = s.drive := rfl
@[simp] theorem updIo_dram (f : Io → Io) (s : State) : (updIo f s).dram = s.dram := rfl
@[simp] theorem updIo_link (f : Io → Io) (s : State) : (updIo f s).link = s.link := rfl
@[simp] theorem updIo_mover (f : Io → Io) (s : State) : (updIo f s).mover = s.mover := rfl
@[simp] theorem updIo_icu (f : Io → Io) (s : State) : (updIo f s).icu = s.icu := rfl
@[simp] theorem updIo_flt (f : Io → Io) (s : State) : (updIo f s).flt = s.flt := rfl
@[simp] theorem updIo_pwr (f : Io → Io) (s : State) : (updIo f s).pwr = s.pwr := rfl
@[simp] theorem updIo_role (f : Io → Io) (s : State) : (updIo f s).role = s.role := rfl
@[simp] theorem updIo_evr (f : Io → Io) (s : State) : (updIo f s).evr = s.evr := rfl
@[simp] theorem updIo_sched (f : Io → Io) (s : State) : (updIo f s).sched = s.sched := rfl
@[simp] theorem updIo_sum (f : Io → Io) (s : State) : (updIo f s).sum = s.sum := rfl
@[simp] theorem updIo_flash (f : Io → Io) (s : State) : (updIo f s).flash = s.flash := rfl
@[simp] theorem updIo_pending (f : Io → Io) (s : State) : (updIo f s).pending = s.pending := rfl
@[simp] theorem getFld_updIo (f : Io → Io) (s : State) (g : FRef) : getFld (updIo f s) g = getFld s g := rfl

/-! ### updLink -/

@[simp] theorem updLink_regs (f : LinkSt → LinkSt) (s : State) : (updLink f s).regs = s.regs := rfl
@[simp] theorem updLink_timeQ (f : LinkSt → LinkSt) (s : State) : (updLink f s).timeQ = s.timeQ := rfl
@[simp] theorem updLink_fresh (f : LinkSt → LinkSt) (s : State) : (updLink f s).fresh = s.fresh := rfl
@[simp] theorem updLink_out (f : LinkSt → LinkSt) (s : State) : (updLink f s).out = s.out := rfl
@[simp] theorem updLink_hiLatch (f : LinkSt → LinkSt) (s : State) : (updLink f s).hiLatch = s.hiLatch := rfl
@[simp] theorem updLink_io (f : LinkSt → LinkSt) (s : State) : (updLink f s).io = s.io := rfl
@[simp] theorem updLink_store (f : LinkSt → LinkSt) (s : State) : (updLink f s).store = s.store := rfl
@[simp] theorem updLink_cache (f : LinkSt → LinkSt) (s : State) : (updLink f s).cache = s.cache := rfl
@[simp] theorem updLink_bem (f : LinkSt → LinkSt) (s : State) : (updLink f s).bem = s.bem := rfl
@[simp] theorem updLink_host (f : LinkSt → LinkSt) (s : State) : (updLink f s).host = s.host := rfl
@[simp] theorem updLink_drive (f : LinkSt → LinkSt) (s : State) : (updLink f s).drive = s.drive := rfl
@[simp] theorem updLink_dram (f : LinkSt → LinkSt) (s : State) : (updLink f s).dram = s.dram := rfl
@[simp] theorem updLink_link (f : LinkSt → LinkSt) (s : State) : (updLink f s).link = f s.link := rfl
@[simp] theorem updLink_mover (f : LinkSt → LinkSt) (s : State) : (updLink f s).mover = s.mover := rfl
@[simp] theorem updLink_icu (f : LinkSt → LinkSt) (s : State) : (updLink f s).icu = s.icu := rfl
@[simp] theorem updLink_flt (f : LinkSt → LinkSt) (s : State) : (updLink f s).flt = s.flt := rfl
@[simp] theorem updLink_pwr (f : LinkSt → LinkSt) (s : State) : (updLink f s).pwr = s.pwr := rfl
@[simp] theorem updLink_role (f : LinkSt → LinkSt) (s : State) : (updLink f s).role = s.role := rfl
@[simp] theorem updLink_evr (f : LinkSt → LinkSt) (s : State) : (updLink f s).evr = s.evr := rfl
@[simp] theorem updLink_sched (f : LinkSt → LinkSt) (s : State) : (updLink f s).sched = s.sched := rfl
@[simp] theorem updLink_sum (f : LinkSt → LinkSt) (s : State) : (updLink f s).sum = s.sum := rfl
@[simp] theorem updLink_flash (f : LinkSt → LinkSt) (s : State) : (updLink f s).flash = s.flash := rfl
@[simp] theorem updLink_pending (f : LinkSt → LinkSt) (s : State) : (updLink f s).pending = s.pending := rfl
@[simp] theorem getFld_updLink (f : LinkSt → LinkSt) (s : State) (g : FRef) : getFld (updLink f s) g = getFld s g := rfl

/-! ### updMover -/

@[simp] theorem updMover_regs (f : MoverSt → MoverSt) (s : State) : (updMover f s).regs = s.regs := rfl
@[simp] theorem updMover_timeQ (f : MoverSt → MoverSt) (s : State) : (updMover f s).timeQ = s.timeQ := rfl
@[simp] theorem updMover_fresh (f : MoverSt → MoverSt) (s : State) : (updMover f s).fresh = s.fresh := rfl
@[simp] theorem updMover_out (f : MoverSt → MoverSt) (s : State) : (updMover f s).out = s.out := rfl
@[simp] theorem updMover_hiLatch (f : MoverSt → MoverSt) (s : State) : (updMover f s).hiLatch = s.hiLatch := rfl
@[simp] theorem updMover_io (f : MoverSt → MoverSt) (s : State) : (updMover f s).io = s.io := rfl
@[simp] theorem updMover_store (f : MoverSt → MoverSt) (s : State) : (updMover f s).store = s.store := rfl
@[simp] theorem updMover_cache (f : MoverSt → MoverSt) (s : State) : (updMover f s).cache = s.cache := rfl
@[simp] theorem updMover_bem (f : MoverSt → MoverSt) (s : State) : (updMover f s).bem = s.bem := rfl
@[simp] theorem updMover_host (f : MoverSt → MoverSt) (s : State) : (updMover f s).host = s.host := rfl
@[simp] theorem updMover_drive (f : MoverSt → MoverSt) (s : State) : (updMover f s).drive = s.drive := rfl
@[simp] theorem updMover_dram (f : MoverSt → MoverSt) (s : State) : (updMover f s).dram = s.dram := rfl
@[simp] theorem updMover_link (f : MoverSt → MoverSt) (s : State) : (updMover f s).link = s.link := rfl
@[simp] theorem updMover_mover (f : MoverSt → MoverSt) (s : State) : (updMover f s).mover = f s.mover := rfl
@[simp] theorem updMover_icu (f : MoverSt → MoverSt) (s : State) : (updMover f s).icu = s.icu := rfl
@[simp] theorem updMover_flt (f : MoverSt → MoverSt) (s : State) : (updMover f s).flt = s.flt := rfl
@[simp] theorem updMover_pwr (f : MoverSt → MoverSt) (s : State) : (updMover f s).pwr = s.pwr := rfl
@[simp] theorem updMover_role (f : MoverSt → MoverSt) (s : State) : (updMover f s).role = s.role := rfl
@[simp] theorem updMover_evr (f : MoverSt → MoverSt) (s : State) : (updMover f s).evr = s.evr := rfl
@[simp] theorem updMover_sched (f : MoverSt → MoverSt) (s : State) : (updMover f s).sched = s.sched := rfl
@[simp] theorem updMover_sum (f : MoverSt → MoverSt) (s : State) : (updMover f s).sum = s.sum := rfl
@[simp] theorem updMover_flash (f : MoverSt → MoverSt) (s : State) : (updMover f s).flash = s.flash := rfl
@[simp] theorem updMover_pending (f : MoverSt → MoverSt) (s : State) : (updMover f s).pending = s.pending := rfl
@[simp] theorem getFld_updMover (f : MoverSt → MoverSt) (s : State) (g : FRef) : getFld (updMover f s) g = getFld s g := rfl

/-! ### updPwr -/

@[simp] theorem updPwr_regs (f : PwrSt → PwrSt) (s : State) : (updPwr f s).regs = s.regs := rfl
@[simp] theorem updPwr_timeQ (f : PwrSt → PwrSt) (s : State) : (updPwr f s).timeQ = s.timeQ := rfl
@[simp] theorem updPwr_fresh (f : PwrSt → PwrSt) (s : State) : (updPwr f s).fresh = s.fresh := rfl
@[simp] theorem updPwr_out (f : PwrSt → PwrSt) (s : State) : (updPwr f s).out = s.out := rfl
@[simp] theorem updPwr_hiLatch (f : PwrSt → PwrSt) (s : State) : (updPwr f s).hiLatch = s.hiLatch := rfl
@[simp] theorem updPwr_io (f : PwrSt → PwrSt) (s : State) : (updPwr f s).io = s.io := rfl
@[simp] theorem updPwr_store (f : PwrSt → PwrSt) (s : State) : (updPwr f s).store = s.store := rfl
@[simp] theorem updPwr_cache (f : PwrSt → PwrSt) (s : State) : (updPwr f s).cache = s.cache := rfl
@[simp] theorem updPwr_bem (f : PwrSt → PwrSt) (s : State) : (updPwr f s).bem = s.bem := rfl
@[simp] theorem updPwr_host (f : PwrSt → PwrSt) (s : State) : (updPwr f s).host = s.host := rfl
@[simp] theorem updPwr_drive (f : PwrSt → PwrSt) (s : State) : (updPwr f s).drive = s.drive := rfl
@[simp] theorem updPwr_dram (f : PwrSt → PwrSt) (s : State) : (updPwr f s).dram = s.dram := rfl
@[simp] theorem updPwr_link (f : PwrSt → PwrSt) (s : State) : (updPwr f s).link = s.link := rfl
@[simp] theorem updPwr_mover (f : PwrSt → PwrSt) (s : State) : (updPwr f s).mover = s.mover := rfl
@[simp] theorem updPwr_icu (f : PwrSt → PwrSt) (s : State) : (updPwr f s).icu = s.icu := rfl
@[simp] theorem updPwr_flt (f : PwrSt → PwrSt) (s : State) : (updPwr f s).flt = s.flt := rfl
@[simp] theorem updPwr_pwr (f : PwrSt → PwrSt) (s : State) : (updPwr f s).pwr = f s.pwr := rfl
@[simp] theorem updPwr_role (f : PwrSt → PwrSt) (s : State) : (updPwr f s).role = s.role := rfl
@[simp] theorem updPwr_evr (f : PwrSt → PwrSt) (s : State) : (updPwr f s).evr = s.evr := rfl
@[simp] theorem updPwr_sched (f : PwrSt → PwrSt) (s : State) : (updPwr f s).sched = s.sched := rfl
@[simp] theorem updPwr_sum (f : PwrSt → PwrSt) (s : State) : (updPwr f s).sum = s.sum := rfl
@[simp] theorem updPwr_flash (f : PwrSt → PwrSt) (s : State) : (updPwr f s).flash = s.flash := rfl
@[simp] theorem updPwr_pending (f : PwrSt → PwrSt) (s : State) : (updPwr f s).pending = s.pending := rfl
@[simp] theorem getFld_updPwr (f : PwrSt → PwrSt) (s : State) (g : FRef) : getFld (updPwr f s) g = getFld s g := rfl

/-! ### updRole -/

@[simp] theorem updRole_regs (f : RoleSt → RoleSt) (s : State) : (updRole f s).regs = s.regs := rfl
@[simp] theorem updRole_timeQ (f : RoleSt → RoleSt) (s : State) : (updRole f s).timeQ = s.timeQ := rfl
@[simp] theorem updRole_fresh (f : RoleSt → RoleSt) (s : State) : (updRole f s).fresh = s.fresh := rfl
@[simp] theorem updRole_out (f : RoleSt → RoleSt) (s : State) : (updRole f s).out = s.out := rfl
@[simp] theorem updRole_hiLatch (f : RoleSt → RoleSt) (s : State) : (updRole f s).hiLatch = s.hiLatch := rfl
@[simp] theorem updRole_io (f : RoleSt → RoleSt) (s : State) : (updRole f s).io = s.io := rfl
@[simp] theorem updRole_store (f : RoleSt → RoleSt) (s : State) : (updRole f s).store = s.store := rfl
@[simp] theorem updRole_cache (f : RoleSt → RoleSt) (s : State) : (updRole f s).cache = s.cache := rfl
@[simp] theorem updRole_bem (f : RoleSt → RoleSt) (s : State) : (updRole f s).bem = s.bem := rfl
@[simp] theorem updRole_host (f : RoleSt → RoleSt) (s : State) : (updRole f s).host = s.host := rfl
@[simp] theorem updRole_drive (f : RoleSt → RoleSt) (s : State) : (updRole f s).drive = s.drive := rfl
@[simp] theorem updRole_dram (f : RoleSt → RoleSt) (s : State) : (updRole f s).dram = s.dram := rfl
@[simp] theorem updRole_link (f : RoleSt → RoleSt) (s : State) : (updRole f s).link = s.link := rfl
@[simp] theorem updRole_mover (f : RoleSt → RoleSt) (s : State) : (updRole f s).mover = s.mover := rfl
@[simp] theorem updRole_icu (f : RoleSt → RoleSt) (s : State) : (updRole f s).icu = s.icu := rfl
@[simp] theorem updRole_flt (f : RoleSt → RoleSt) (s : State) : (updRole f s).flt = s.flt := rfl
@[simp] theorem updRole_pwr (f : RoleSt → RoleSt) (s : State) : (updRole f s).pwr = s.pwr := rfl
@[simp] theorem updRole_role (f : RoleSt → RoleSt) (s : State) : (updRole f s).role = f s.role := rfl
@[simp] theorem updRole_evr (f : RoleSt → RoleSt) (s : State) : (updRole f s).evr = s.evr := rfl
@[simp] theorem updRole_sched (f : RoleSt → RoleSt) (s : State) : (updRole f s).sched = s.sched := rfl
@[simp] theorem updRole_sum (f : RoleSt → RoleSt) (s : State) : (updRole f s).sum = s.sum := rfl
@[simp] theorem updRole_flash (f : RoleSt → RoleSt) (s : State) : (updRole f s).flash = s.flash := rfl
@[simp] theorem updRole_pending (f : RoleSt → RoleSt) (s : State) : (updRole f s).pending = s.pending := rfl
@[simp] theorem getFld_updRole (f : RoleSt → RoleSt) (s : State) (g : FRef) : getFld (updRole f s) g = getFld s g := rfl

/-! ### updStore -/

@[simp] theorem updStore_regs (f : Store → Store) (s : State) : (updStore f s).regs = s.regs := rfl
@[simp] theorem updStore_timeQ (f : Store → Store) (s : State) : (updStore f s).timeQ = s.timeQ := rfl
@[simp] theorem updStore_fresh (f : Store → Store) (s : State) : (updStore f s).fresh = s.fresh := rfl
@[simp] theorem updStore_out (f : Store → Store) (s : State) : (updStore f s).out = s.out := rfl
@[simp] theorem updStore_hiLatch (f : Store → Store) (s : State) : (updStore f s).hiLatch = s.hiLatch := rfl
@[simp] theorem updStore_io (f : Store → Store) (s : State) : (updStore f s).io = s.io := rfl
@[simp] theorem updStore_store (f : Store → Store) (s : State) : (updStore f s).store = f s.store := rfl
@[simp] theorem updStore_cache (f : Store → Store) (s : State) : (updStore f s).cache = s.cache := rfl
@[simp] theorem updStore_bem (f : Store → Store) (s : State) : (updStore f s).bem = s.bem := rfl
@[simp] theorem updStore_host (f : Store → Store) (s : State) : (updStore f s).host = s.host := rfl
@[simp] theorem updStore_drive (f : Store → Store) (s : State) : (updStore f s).drive = s.drive := rfl
@[simp] theorem updStore_dram (f : Store → Store) (s : State) : (updStore f s).dram = s.dram := rfl
@[simp] theorem updStore_link (f : Store → Store) (s : State) : (updStore f s).link = s.link := rfl
@[simp] theorem updStore_mover (f : Store → Store) (s : State) : (updStore f s).mover = s.mover := rfl
@[simp] theorem updStore_icu (f : Store → Store) (s : State) : (updStore f s).icu = s.icu := rfl
@[simp] theorem updStore_flt (f : Store → Store) (s : State) : (updStore f s).flt = s.flt := rfl
@[simp] theorem updStore_pwr (f : Store → Store) (s : State) : (updStore f s).pwr = s.pwr := rfl
@[simp] theorem updStore_role (f : Store → Store) (s : State) : (updStore f s).role = s.role := rfl
@[simp] theorem updStore_evr (f : Store → Store) (s : State) : (updStore f s).evr = s.evr := rfl
@[simp] theorem updStore_sched (f : Store → Store) (s : State) : (updStore f s).sched = s.sched := rfl
@[simp] theorem updStore_sum (f : Store → Store) (s : State) : (updStore f s).sum = s.sum := rfl
@[simp] theorem updStore_flash (f : Store → Store) (s : State) : (updStore f s).flash = s.flash := rfl
@[simp] theorem updStore_pending (f : Store → Store) (s : State) : (updStore f s).pending = s.pending := rfl
@[simp] theorem getFld_updStore (f : Store → Store) (s : State) (g : FRef) : getFld (updStore f s) g = getFld s g := rfl

/-! ### updSum -/

@[simp] theorem updSum_regs (f : SumSt → SumSt) (s : State) : (updSum f s).regs = s.regs := rfl
@[simp] theorem updSum_timeQ (f : SumSt → SumSt) (s : State) : (updSum f s).timeQ = s.timeQ := rfl
@[simp] theorem updSum_fresh (f : SumSt → SumSt) (s : State) : (updSum f s).fresh = s.fresh := rfl
@[simp] theorem updSum_out (f : SumSt → SumSt) (s : State) : (updSum f s).out = s.out := rfl
@[simp] theorem updSum_hiLatch (f : SumSt → SumSt) (s : State) : (updSum f s).hiLatch = s.hiLatch := rfl
@[simp] theorem updSum_io (f : SumSt → SumSt) (s : State) : (updSum f s).io = s.io := rfl
@[simp] theorem updSum_store (f : SumSt → SumSt) (s : State) : (updSum f s).store = s.store := rfl
@[simp] theorem updSum_cache (f : SumSt → SumSt) (s : State) : (updSum f s).cache = s.cache := rfl
@[simp] theorem updSum_bem (f : SumSt → SumSt) (s : State) : (updSum f s).bem = s.bem := rfl
@[simp] theorem updSum_host (f : SumSt → SumSt) (s : State) : (updSum f s).host = s.host := rfl
@[simp] theorem updSum_drive (f : SumSt → SumSt) (s : State) : (updSum f s).drive = s.drive := rfl
@[simp] theorem updSum_dram (f : SumSt → SumSt) (s : State) : (updSum f s).dram = s.dram := rfl
@[simp] theorem updSum_link (f : SumSt → SumSt) (s : State) : (updSum f s).link = s.link := rfl
@[simp] theorem updSum_mover (f : SumSt → SumSt) (s : State) : (updSum f s).mover = s.mover := rfl
@[simp] theorem updSum_icu (f : SumSt → SumSt) (s : State) : (updSum f s).icu = s.icu := rfl
@[simp] theorem updSum_flt (f : SumSt → SumSt) (s : State) : (updSum f s).flt = s.flt := rfl
@[simp] theorem updSum_pwr (f : SumSt → SumSt) (s : State) : (updSum f s).pwr = s.pwr := rfl
@[simp] theorem updSum_role (f : SumSt → SumSt) (s : State) : (updSum f s).role = s.role := rfl
@[simp] theorem updSum_evr (f : SumSt → SumSt) (s : State) : (updSum f s).evr = s.evr := rfl
@[simp] theorem updSum_sched (f : SumSt → SumSt) (s : State) : (updSum f s).sched = s.sched := rfl
@[simp] theorem updSum_sum (f : SumSt → SumSt) (s : State) : (updSum f s).sum = f s.sum := rfl
@[simp] theorem updSum_flash (f : SumSt → SumSt) (s : State) : (updSum f s).flash = s.flash := rfl
@[simp] theorem updSum_pending (f : SumSt → SumSt) (s : State) : (updSum f s).pending = s.pending := rfl
@[simp] theorem getFld_updSum (f : SumSt → SumSt) (s : State) (g : FRef) : getFld (updSum f s) g = getFld s g := rfl

/-! ### Register fields -/

/-- A field reads what was written, cut to its width. -/
@[simp] theorem getFld_setFld_self (f : FRef) (v : Nat) (s : State) : getFld (setFld f v s) f = v % 2 ^ f.width := by
  unfold getFld setFld smGetD
  dsimp only
  split
  · next h => rw [smGet_smDel_self, Option.getD_none, h]
  · rw [smGet_smSet_self, Option.getD_some]

/-- A write leaves every field with another place. -/
theorem getFld_setFld_ne {f g : FRef} (h : g.key ≠ f.key) (v : Nat) (s : State) : getFld (setFld f v s) g = getFld s g := by
  unfold getFld setFld smGetD
  dsimp only
  split
  · rw [smGet_smDel_ne _ h]
  · rw [smGet_smSet_ne _ h]

/-- A write keeps the registers' canonical form. -/
theorem setFld_sorted {s : State} (h : smSorted s.regs = true) (f : FRef) (v : Nat) : smSorted (setFld f v s).regs = true := by
  unfold setFld
  dsimp only
  split
  · exact smSorted_smDel h _
  · exact smSorted_smSet h _ _

@[simp] theorem run_true (t : State) : run true t = .next t := rfl

@[simp] theorem run_false (t : State) : run false t = .fault .noSuchUnit := rfl

/-- How a command ends. -/
theorem run_next {ok : Bool} {t u : State} (h : run ok t = .next u) : ok = true ∧ u = t := by
  unfold run at h
  split at h
  · next hk => exact ⟨hk, by cases h; rfl⟩
  · cases h

end Sys2Proof.Machine
end

