-- ==== Sys2Proof/Laws/Access.lean ====
section
/-! SUPPORT. What the shared gates of a register write do: a write that passes, one that is denied, and the command registers. -/

namespace Sys2Proof.Machine
open Reg

/-- Two fields of one page and bank at different places are different. -/
theorem key_ne_of_place {f g : FRef} (hb : f.bank = g.bank) (hp : f.page = g.page) (h : f.off * 32 + f.lo ≠ g.off * 32 + g.lo) : f.key ≠ g.key := by
  unfold FRef.key; omega

@[simp] theorem roleAction_regs (role act what : Nat) (s : State) : (roleAction role act what s).regs = s.regs := by
  unfold roleAction sketchCount sketchExtreme
  dsimp only
  split <;> rfl

@[simp] theorem needRole_regs (w : Win) (s : State) : (needRole w s).regs = s.regs := by
  unfold needRole
  split <;> rfl

@[simp] theorem admitted_regs (w : Win) (p : Nat) (s : State) : (admitted w p s).regs = s.regs := by
  unfold admitted
  split
  · split
    · rfl
    · rw [needRole_regs, roleAction_regs]
  · rfl

theorem getFld_of_regs {s t : State} (h : t.regs = s.regs) (f : FRef) : getFld t f = getFld s f := by
  unfold getFld; rw [h]

@[simp] theorem getFld_admitted (w : Win) (p : Nat) (s : State) (f : FRef) : getFld (admitted w p s) f = getFld s f :=
  getFld_of_regs (admitted_regs w p s) f

@[simp] theorem getFld_needRole (w : Win) (s : State) (f : FRef) : getFld (needRole w s) f = getFld s f :=
  getFld_of_regs (needRole_regs w s) f

@[simp] theorem isSet_admitted (w : Win) (p : Nat) (s : State) (f : FRef) : isSet (admitted w p s) f = isSet s f := by
  unfold isSet; rw [getFld_admitted]

@[simp] theorem fenced_admitted (w : Win) (p q : Nat) (s : State) : fenced (admitted w p s) q = fenced s q := isSet_admitted w p s _

@[simp] theorem winRole_admitted (w v : Win) (p : Nat) (s : State) : winRole (admitted w p s) v = winRole s v := by
  cases v <;> simp [winRole]

@[simp] theorem mayInstall_admitted (w v : Win) (p : Nat) (s : State) : mayInstall (admitted w p s) v = mayInstall s v := by
  unfold mayInstall; rw [winRole_admitted]

/-- What a page's access gate does with an access that is let through. -/
theorem guardAccess_pass {w : Win} {p : Nat} {s : State} (h1 : winOpen s w = true) (h2 : winOff s w = false) (h3 : canWrite s w p = true)
    (h4 : winHas w p = true) (f : State → State) : guardAccess w p f s = f (admitted w p s) := by
  unfold guardAccess admitted
  simp only [h1, h2, h3, h4]
  cases w <;> simp
  split <;> rfl

/-- What a register write that is let through does. -/
theorem guardWrite_pass {w : Win} {p : Nat} {s : State} (h : Passes w p s) (f : State → State) : guardWrite w p f s = f (admitted w p s) := by
  unfold guardWrite
  rw [guardAccess_pass h.1 h.2.1 h.2.2.1 h.2.2.2.2]
  have : (decide (p ≤ 2) && fenced (admitted w p s) p) = false := by
    rw [fenced_admitted]
    by_cases c : p ≤ 2
    · simp [h.2.2.2.1 c]
    · simp [c]
  rw [if_neg (by rw [this]; exact Bool.false_ne_true)]

/-- A write that the rights of its page do not allow is denied (R416). -/
theorem guardWrite_denied {w : Win} {p : Nat} {s : State} (h1 : winOpen s w = true) (h2 : winOff s w = false) (h3 : canWrite s w p = false)
    (h4 : winHas w p = true) (f : State → State) : guardWrite w p f s = denied w p s := by
  unfold guardWrite guardAccess
  simp [h1, h2, h3, h4]

theorem seqIf_getFld (p : Nat) (b t : State) {f : FRef} (h : f.key ≠ (PG_SEQ_COUNT p).key) : getFld (seqIf p b t) f = getFld t f := by
  unfold seqIf
  split
  · rfl
  · exact getFld_setFld_ne h _ _

@[simp] theorem unchanged_admitted (w : Win) (p : Nat) (s : State) (l : List (FRef × Nat)) : unchanged (admitted w p s) l = unchanged s l := by
  unfold unchanged
  congr 1
  funext x
  rw [getFld_admitted]

/-- What the command register of a page does with a command whose parameters it may load (R444, R467). -/
theorem cmdWrite_pass {w : Win} {p : Nat} {s : State} {opF : FRef} {op : Nat} {pars : List (FRef × Nat)} {go stF doneF : FRef}
    (h : Passes w p s) (hi : mayInstall s w = true) (hg : isSet s go = false) (held : Nat → State → State) (act : State → State) :
    cmdWrite w p opF op pars go stF doneF held act s = act (loaded w p opF op pars go doneF s) := by
  unfold cmdWrite
  rw [guardWrite_pass h]
  simp only [isSet_admitted, hg, mayInstall_admitted, hi, Bool.true_or]
  rw [if_neg Bool.false_ne_true, if_pos trivial]
  rfl

end Sys2Proof.Machine
end

