-- ==== Sys2Proof/Laws/Bytes.lean ====
section
/-! SUPPORT. Runs of bytes: fields of a structure read back, and a structure that was given its CRC holds it. -/

namespace Sys2Proof.Laws
open Sys2Proof.Machine

theorem byteAt_append_left {a : List Byte} (b : List Byte) {n : Nat} (h : n < a.length) : byteAt (a ++ b) n = byteAt a n := by
  simp [byteAt, List.getElem?_append_left h]

theorem leAt_append_left {a : List Byte} (b : List Byte) {o w : Nat} (h : o + w ≤ a.length) : leAt (a ++ b) o w = leAt a o w := by
  simp only [leAt]
  induction w with
  | zero => rfl
  | succ w ih =>
    have hw : byteAt (a ++ b) (o + w) = byteAt a (o + w) := byteAt_append_left b (by omega)
    simp only [List.range_succ, List.foldr_append, List.foldr_cons, List.foldr_nil, hw]
    have key : ∀ (l : List Nat) (z : Nat), (∀ i ∈ l, i < w) →
        l.foldr (fun i acc => byteAt (a ++ b) (o + i) + 256 * acc) z = l.foldr (fun i acc => byteAt a (o + i) + 256 * acc) z := by
      intro l z hl
      induction l with
      | nil => rfl
      | cons x xs ihx =>
        have hx : byteAt (a ++ b) (o + x) = byteAt a (o + x) := byteAt_append_left b (by have := hl x (by simp); omega)
        simp only [List.foldr_cons, hx, ihx (fun i hi => hl i (by simp [hi]))]
    exact key _ _ (fun i hi => by simpa using hi)

/-- A 32-bit field written at the end of a structure reads back. -/
theorem leAt_append_leBytes (a : List Byte) {v : Nat} (h : v < 2 ^ 32) : leAt (a ++ leBytes v 4) a.length 4 = v := by
  have hr : List.range 4 = [0, 1, 2, 3] := by decide
  have e : ∀ i, i < 4 → byteAt (a ++ leBytes v 4) (a.length + i) = v / 256 ^ i % 256 := by
    intro i hi
    simp only [byteAt, leBytes, List.getElem?_append_right (Nat.le_add_right _ _), Nat.add_sub_cancel_left, List.getElem?_map,
      List.getElem?_range hi, Option.map_some, Option.getD_some, BitVec.toNat_ofNat]
  simp only [leAt, hr, List.foldr_cons, List.foldr_nil, e 0 (by omega), e 1 (by omega), e 2 (by omega), e 3 (by omega)]
  omega

theorem slice_append_left {a : List Byte} (b : List Byte) {o n : Nat} (h : o + n ≤ a.length) : slice (a ++ b) o n = slice a o n := by
  have h1 : ((a ++ b).drop o).take n = (a.drop o).take n := by
    rw [List.drop_append_of_le_length (by omega), List.take_append_of_le_length (by simp; omega)]
  simp only [slice, h1]

/-- The whole of a run is itself. -/
theorem slice_all (a : List Byte) : slice a 0 a.length = a := by simp [slice, zeros]

theorem byteAt_append_zeros (a : List Byte) (n : Nat) {o : Nat} (h : a.length ≤ o) : byteAt (a ++ zeros n) o = 0 := by
  simp only [byteAt, zeros, List.getElem?_append_right h, List.getElem?_replicate]
  split <;> rfl

/-- A field in the zeros behind a structure reads 0. -/
theorem leAt_append_zeros (a : List Byte) (n : Nat) {o w : Nat} (h : a.length ≤ o) : leAt (a ++ zeros n) o w = 0 := by
  have e : ∀ i, byteAt (a ++ zeros n) (o + i) = 0 := fun i => byteAt_append_zeros a n (by omega)
  simp only [leAt, e]
  generalize List.range w = l
  induction l with
  | nil => rfl
  | cons x xs ih => simp only [List.foldr_cons, ih]

theorem crcRef_lt (p : BitVec 32) (d : List Byte) : crcRef p d < 2 ^ 32 := BitVec.isLt _

@[simp] theorem leBytes_length (v w : Nat) : (leBytes v w).length = w := by simp [leBytes]

@[simp] theorem withCrc_length (d : List Byte) : (withCrc d).length = d.length + 4 := by simp [withCrc]

/-- A structure that was given its CRC passes the check of it. -/
theorem crcOk_withCrc (d : List Byte) : crcOk (withCrc d) d.length = true := by
  have h1 : slice (withCrc d) 0 d.length = d := by
    rw [withCrc, slice_append_left _ (by omega), slice_all]
  have h2 : leAt (withCrc d) d.length 4 = crc32c d := leAt_append_leBytes d (crcRef_lt _ d)
  simp only [crcOk, h1, h2, decide_true]

end Sys2Proof.Laws
end

