-- ==== Sys2Proof/Laws/Exec.lean ====
section
/-! SUPPORT. The meaning each command runs, one equation a constructor. -/

namespace Sys2Proof.Machine

theorem exec_sqTailDoorbell (w : Win) (c size v : Nat) (s : State) : exec (.sqTailDoorbell w c size v) s = execSqTailDoorbell w c size v s := rfl
theorem exec_cqHeadDoorbell (w : Win) (c size v : Nat) (s : State) : exec (.cqHeadDoorbell w c size v) s = execCqHeadDoorbell w c size v s := rfl
theorem exec_submissionFetch (c : Nat) (s : State) : exec (.submissionFetch c) s = execSubmissionFetch c s := rfl
theorem exec_submissionEntryReceived (port tag : Nat) (r : HostRd) (s : State) : exec (.submissionEntryReceived port tag r) s = execSubmissionEntryReceived port tag r s := rfl
theorem exec_read (cmd : Nat) (s : State) : exec (.read cmd) s = execRead cmd s := rfl
theorem exec_write (cmd : Nat) (s : State) : exec (.write cmd) s = execWrite cmd s := rfl
theorem exec_flush (cmd : Nat) (s : State) : exec (.flush cmd) s = execFlush cmd s := rfl
theorem exec_writeZeroes (cmd : Nat) (s : State) : exec (.writeZeroes cmd) s = execWriteZeroes cmd s := rfl
theorem exec_deallocate (cmd : Nat) (s : State) : exec (.deallocate cmd) s = execDeallocate cmd s := rfl
theorem exec_compare (cmd : Nat) (s : State) : exec (.compare cmd) s = execCompare cmd s := rfl
theorem exec_verify (cmd : Nat) (s : State) : exec (.verify cmd) s = execVerify cmd s := rfl
theorem exec_fill (cmd : Nat) (s : State) : exec (.fill cmd) s = execFill cmd s := rfl
theorem exec_copy (cmd : Nat) (s : State) : exec (.copy cmd) s = execCopy cmd s := rfl
theorem exec_volumeInfo (cmd : Nat) (s : State) : exec (.volumeInfo cmd) s = execVolumeInfo cmd s := rfl
theorem exec_createVolume (cmd : Nat) (s : State) : exec (.createVolume cmd) s = execCreateVolume cmd s := rfl
theorem exec_deleteVolume (cmd : Nat) (s : State) : exec (.deleteVolume cmd) s = execDeleteVolume cmd s := rfl
theorem exec_resizeVolume (cmd : Nat) (s : State) : exec (.resizeVolume cmd) s = execResizeVolume cmd s := rfl
theorem exec_attach (cmd : Nat) (s : State) : exec (.attach cmd) s = execAttach cmd s := rfl
theorem exec_detach (cmd : Nat) (s : State) : exec (.detach cmd) s = execDetach cmd s := rfl
theorem exec_createPlate (cmd : Nat) (page : HostRd) (facts : PlateFacts) (s : State) : exec (.createPlate cmd page facts) s = execCreatePlate cmd page facts s := rfl
theorem exec_deletePlate (cmd : Nat) (s : State) : exec (.deletePlate cmd) s = execDeletePlate cmd s := rfl
theorem exec_blockCmd (cmd : Nat) (media : PlateMedia) (ok1 ok2 : Bool) (rate nonce : Nat) (s : State) : exec (.blockCmd cmd media ok1 ok2 rate nonce) s = execBlockCmd cmd media ok1 ok2 rate nonce s := rfl
theorem exec_getLostWrites (cmd : Nat) (s : State) : exec (.getLostWrites cmd) s = execGetLostWrites cmd s := rfl
theorem exec_resync (cmd : Nat) (s : State) : exec (.resync cmd) s = execResync cmd s := rfl
theorem exec_chipResync (w : Win) (v : Nat) (s : State) : exec (.chipResync w v) s = execChipResync w v s := rfl
theorem exec_snapshotPublish (s : State) : exec (.snapshotPublish) s = execSnapshotPublish s := rfl
theorem exec_tenantInfo (cmd : Nat) (s : State) : exec (.tenantInfo cmd) s = execTenantInfo cmd s := rfl
theorem exec_setSched (cmd : Nat) (s : State) : exec (.setSched cmd) s = execSetSched cmd s := rfl
theorem exec_setClass (cmd : Nat) (s : State) : exec (.setClass cmd) s = execSetClass cmd s := rfl
theorem exec_timeAdj (cmd : Nat) (s : State) : exec (.timeAdj cmd) s = execTimeAdj cmd s := rfl
theorem exec_roleChallenge (cmd nonce : Nat) (s : State) : exec (.roleChallenge cmd nonce) s = execRoleChallenge cmd nonce s := rfl
theorem exec_roleResponse (cmd : Nat) (page : HostRd) (s : State) : exec (.roleResponse cmd page) s = execRoleResponse cmd page s := rfl
theorem exec_roleDrop (cmd : Nat) (s : State) : exec (.roleDrop cmd) s = execRoleDrop cmd s := rfl
theorem exec_firmwareStage (cmd : Nat) (page : HostRd) (s : State) : exec (.firmwareStage cmd page) s = execFirmwareStage cmd page s := rfl
theorem exec_firmwareCommit (cmd : Nat) (s : State) : exec (.firmwareCommit cmd) s = execFirmwareCommit cmd s := rfl
theorem exec_admissionDecision (ue : Bool) (s : State) : exec (.admissionDecision ue) s = execAdmissionDecision ue s := rfl
theorem exec_grantQueuedSegment (s : State) : exec (.grantQueuedSegment) s = execGrantQueuedSegment s := rfl
theorem exec_hostReadCompletion (port tag : Nat) (r : HostRd) (s : State) : exec (.hostReadCompletion port tag r) s = execHostReadCompletion port tag r s := rfl
theorem exec_dataStaged (j : Nat) (s : State) : exec (.dataStaged j) s = execDataStaged j s := rfl
theorem exec_groupCommitPoint (j : Nat) (s : State) : exec (.groupCommitPoint j) s = execGroupCommitPoint j s := rfl
theorem exec_burinJobEnd (sop : Bool) (id : Nat) (s : State) : exec (.burinJobEnd sop id) s = execBurinJobEnd sop id s := rfl
theorem exec_burinBeatMismatch (b : Nat) (again : Bool) (s : State) : exec (.burinBeatMismatch b again) s = execBurinBeatMismatch b again s := rfl
theorem exec_burinPipeAwake (b : Nat) (s : State) : exec (.burinPipeAwake b) s = execBurinPipeAwake b s := rfl
theorem exec_katStart (w : Win) (b : Nat) (s : State) : exec (.katStart w b) s = execKatStart w b s := rfl
theorem exec_katDone (b : Nat) (lanes : List (Byte × Byte)) (s : State) : exec (.katDone b lanes) s = execKatDone b lanes s := rfl
theorem exec_memberWriteComplete (id : Nat) (st : Nvme) (s : State) : exec (.memberWriteComplete id st) s = execMemberWriteComplete id st s := rfl
theorem exec_tagPageReadComplete (id : Nat) (st : Nvme) (tags : List Nat) (s : State) : exec (.tagPageReadComplete id st tags) s = execTagPageReadComplete id st tags s := rfl
theorem exec_tagWriteComplete (id : Nat) (st : Nvme) (s : State) : exec (.tagWriteComplete id st) s = execTagWriteComplete id st s := rfl
theorem exec_committed (j : Nat) (s : State) : exec (.committed j) s = execCommitted j s := rfl
theorem exec_journalEntryFreed (j : Nat) (s : State) : exec (.journalEntryFreed j) s = execJournalEntryFreed j s := rfl
theorem exec_writeSeqLabelRewrite (p : Nat) (s : State) : exec (.writeSeqLabelRewrite p) s = execWriteSeqLabelRewrite p s := rfl
theorem exec_labelUpdateComplete (p : Nat) (s : State) : exec (.labelUpdateComplete p) s = execLabelUpdateComplete p s := rfl
theorem exec_journalHeaderWriteDone (p : Nat) (s : State) : exec (.journalHeaderWriteDone p) s = execJournalHeaderWriteDone p s := rfl
theorem exec_atomicLogWriteDone (j : Nat) (s : State) : exec (.atomicLogWriteDone j) s = execAtomicLogWriteDone j s := rfl
theorem exec_journalRecordWriteDone (p blk : Nat) (s : State) : exec (.journalRecordWriteDone p blk) s = execJournalRecordWriteDone p blk s := rfl
theorem exec_remirrorCopyDone (p : Nat) (s : State) : exec (.remirrorCopyDone p) s = execRemirrorCopyDone p s := rfl
theorem exec_admProbe (w : Win) (v : Nat) (s : State) : exec (.admProbe w v) s = execAdmProbe w v s := rfl
theorem exec_admClrHwm (w : Win) (v : Nat) (s : State) : exec (.admClrHwm w v) s = execAdmClrHwm w v s := rfl
theorem exec_jnlClrHwm (w : Win) (v : Nat) (s : State) : exec (.jnlClrHwm w v) s = execJnlClrHwm w v s := rfl
theorem exec_memberReadComplete (id : Nat) (st : Nvme) (blks : List TBlk) (s : State) : exec (.memberReadComplete id st blks) s = execMemberReadComplete id st blks s := rfl
theorem exec_lbtWriteDone (sop : Nat) (s : State) : exec (.lbtWriteDone sop) s = execLbtWriteDone sop s := rfl
theorem exec_lbtRemovalWrite (p : Nat) (s : State) : exec (.lbtRemovalWrite p) s = execLbtRemovalWrite p s := rfl
theorem exec_failMember (w : Win) (p slot : Nat) (s : State) : exec (.failMember w p slot) s = execFailMember w p slot s := rfl
theorem exec_replace (w : Win) (p slot : Nat) (s : State) : exec (.replace w p slot) s = execReplace w p slot s := rfl
theorem exec_startPass (w : Win) (p : Nat) (s : State) : exec (.startPass w p) s = execStartPass w p s := rfl
theorem exec_pausePass (w : Win) (p : Nat) (s : State) : exec (.pausePass w p) s = execPausePass w p s := rfl
theorem exec_importPlate (w : Win) (p : Nat) (m : PlateMedia) (s : State) : exec (.importPlate w p m) s = execImportPlate w p m s := rfl
theorem exec_recover (w : Win) (p : Nat) (s : State) : exec (.recover w p) s = execRecover w p s := rfl
theorem exec_release (w : Win) (p : Nat) (s : State) : exec (.release w p) s = execRelease w p s := rfl
theorem exec_rbdPauseAll (w : Win) (v : Nat) (s : State) : exec (.rbdPauseAll w v) s = execRbdPauseAll w v s := rfl
theorem exec_passStart (p : Nat) (s : State) : exec (.passStart p) s = execPassStart p s := rfl
theorem exec_rebuildStepStart (p : Nat) (s : State) : exec (.rebuildStepStart p) s = execRebuildStepStart p s := rfl
theorem exec_rebuildStepDone (sop : Nat) (s : State) : exec (.rebuildStepDone sop) s = execRebuildStepDone sop s := rfl
theorem exec_progressRecord (p : Nat) (ok : Bool) (s : State) : exec (.progressRecord p ok) s = execProgressRecord p ok s := rfl
theorem exec_rebuildSliceEnd (p lenUs : Nat) (s : State) : exec (.rebuildSliceEnd p lenUs) s = execRebuildSliceEnd p lenUs s := rfl
theorem exec_assembly (found : List FoundNs) (media : List PlateMedia) (vault : VaultRead) (s : State) : exec (.assembly found media vault) s = execAssembly found media vault s := rfl
theorem exec_proofCycleStart (p : Nat) (s : State) : exec (.proofCycleStart p) s = execProofCycleStart p s := rfl
theorem exec_proofUnitStart (p : Nat) (s : State) : exec (.proofUnitStart p) s = execProofUnitStart p s := rfl
theorem exec_proofUnitDone (sop : Nat) (s : State) : exec (.proofUnitDone sop) s = execProofUnitDone sop s := rfl
theorem exec_suspectListWrite (s : State) : exec (.suspectListWrite) s = execSuspectListWrite s := rfl
theorem exec_proofProgressRecord (p : Nat) (s : State) : exec (.proofProgressRecord p) s = execProofProgressRecord p s := rfl
theorem exec_proofSliceEnd (p lenUs : Nat) (s : State) : exec (.proofSliceEnd p lenUs) s = execProofSliceEnd p lenUs s := rfl
theorem exec_proofDeadlinePassed (p : Nat) (s : State) : exec (.proofDeadlinePassed p) s = execProofDeadlinePassed p s := rfl
theorem exec_startCycle (w : Win) (p : Nat) (s : State) : exec (.startCycle w p) s = execStartCycle w p s := rfl
theorem exec_proofPause (w : Win) (p : Nat) (s : State) : exec (.proofPause w p) s = execProofPause w p s := rfl
theorem exec_proofResume (w : Win) (p : Nat) (s : State) : exec (.proofResume w p) s = execProofResume w p s := rfl
theorem exec_clearSuspect (w : Win) (s : State) : exec (.clearSuspect w) s = execClearSuspect w s := rfl
theorem exec_prfPauseAll (w : Win) (v : Nat) (s : State) : exec (.prfPauseAll w v) s = execPrfPauseAll w v s := rfl
theorem exec_destageStart (s : State) : exec (.destageStart) s = execDestageStart s := rfl
theorem exec_pmirTimeout (m : Nat) (s : State) : exec (.pmirTimeout m) s = execPmirTimeout m s := rfl
theorem exec_pmirResume (node : Nat) (s : State) : exec (.pmirResume node) s = execPmirResume node s := rfl
theorem exec_dirtyCeilRecompute (s : State) : exec (.dirtyCeilRecompute) s = execDirtyCeilRecompute s := rfl
theorem exec_backedModeReturn (s : State) : exec (.backedModeReturn) s = execBackedModeReturn s := rfl
theorem exec_writeThroughEnd (s : State) : exec (.writeThroughEnd) s = execWriteThroughEnd s := rfl
theorem exec_check (w : Win) (ok1 ok2 : Bool) (rate : Nat) (s : State) : exec (.check w ok1 ok2 rate) s = execCheck w ok1 ok2 rate s := rfl
theorem exec_brace (mv : Nat) (s : State) : exec (.brace mv) s = execBrace mv s := rfl
theorem exec_braceEnd (mv : Nat) (s : State) : exec (.braceEnd mv) s = execBraceEnd mv s := rfl
theorem exec_backupEntry (pf good : Bool) (s : State) : exec (.backupEntry pf good) s = execBackupEntry pf good s := rfl
theorem exec_vaultChunkDone (id : Nat) (good : Bool) (s : State) : exec (.vaultChunkDone id good) s = execVaultChunkDone id good s := rfl
theorem exec_replayAsmWaitExpiry (s : State) : exec (.replayAsmWaitExpiry) s = execReplayAsmWaitExpiry s := rfl
theorem exec_lostWriteListWrite (s : State) : exec (.lostWriteListWrite) s = execLostWriteListWrite s := rfl
theorem exec_cacheFlush (w : Win) (s : State) : exec (.cacheFlush w) s = execCacheFlush w s := rfl
theorem exec_clearLost (w : Win) (vol : Nat) (s : State) : exec (.clearLost w vol) s = execClearLost w vol s := rfl
theorem exec_bemSample (us cur : Nat) (v t : Option Nat) (s : State) : exec (.bemSample us cur v t) s = execBemSample us cur v t s := rfl
theorem exec_bemHibernateWake (us cur v t : Nat) (s : State) : exec (.bemHibernateWake us cur v t) s = execBemHibernateWake us cur v t s := rfl
theorem exec_restReading (s : State) : exec (.restReading) s = execRestReading s := rfl
theorem exec_bemDayBoundary (s : State) : exec (.bemDayBoundary) s = execBemDayBoundary s := rfl
theorem exec_restWindowTimeout (s : State) : exec (.restWindowTimeout) s = execRestWindowTimeout s := rfl
theorem exec_learnCycleStart (s : State) : exec (.learnCycleStart) s = execLearnCycleStart s := rfl
theorem exec_rintMeasure (s : State) : exec (.rintMeasure) s = execRintMeasure s := rfl
theorem exec_estimatorStoreWrite (ok : Bool) (s : State) : exec (.estimatorStoreWrite ok) s = execEstimatorStoreWrite ok s := rfl
theorem exec_batPresChange (present : Bool) (s : State) : exec (.batPresChange present) s = execBatPresChange present s := rfl
theorem exec_packInserted (ident : Option (List Byte)) (nonce : Nat) (s : State) : exec (.packInserted ident nonce) s = execPackInserted ident nonce s := rfl
theorem exec_authResponseRead (resp : Option (List Byte)) (s : State) : exec (.authResponseRead resp) s = execAuthResponseRead resp s := rfl
theorem exec_authRetry (ident : Option (List Byte)) (nonce : Nat) (s : State) : exec (.authRetry ident nonce) s = execAuthRetry ident nonce s := rfl
theorem exec_authPeriodic (nonce : Nat) (s : State) : exec (.authPeriodic nonce) s = execAuthPeriodic nonce s := rfl
theorem exec_learn (w : Win) (s : State) : exec (.learn w) s = execLearn w s := rfl
theorem exec_abortLearn (w : Win) (s : State) : exec (.abortLearn w) s = execAbortLearn w s := rfl
theorem exec_auth (w : Win) (nonce : Nat) (s : State) : exec (.auth w nonce) s = execAuth w nonce s := rfl
theorem exec_forget (w : Win) (s : State) : exec (.forget w) s = execForget w s := rfl
theorem exec_ctxBindWrite (w : Win) (c v : Nat) (s : State) : exec (.ctxBindWrite w c v) s = execCtxBindWrite w c v s := rfl
theorem exec_runSet (w : Win) (c : Nat) (s : State) : exec (.runSet w c) s = execRunSet w c s := rfl
theorem exec_runClear (w : Win) (c : Nat) (s : State) : exec (.runClear w c) s = execRunClear w c s := rfl
theorem exec_errClear (w : Win) (c : Nat) (s : State) : exec (.errClear w c) s = execErrClear w c s := rfl
theorem exec_retire (w : Win) (c : Nat) (s : State) : exec (.retire w c) s = execRetire w c s := rfl
theorem exec_irqAggTimer (c : Nat) (s : State) : exec (.irqAggTimer c) s = execIrqAggTimer c s := rfl
theorem exec_roundEnd (late : Nat) (s : State) : exec (.roundEnd late) s = execRoundEnd late s := rfl
theorem exec_slotSecondsTick (s : State) : exec (.slotSecondsTick) s = execSlotSecondsTick s := rfl
theorem exec_epochEnd (s : State) : exec (.epochEnd) s = execEpochEnd s := rfl
theorem exec_meteringRecordsWrite (s : State) : exec (.meteringRecordsWrite) s = execMeteringRecordsWrite s := rfl
theorem exec_mtrStep (w : Win) (s : State) : exec (.mtrStep w) s = execMtrStep w s := rfl
theorem exec_mtrSlew (w : Win) (s : State) : exec (.mtrSlew w) s = execMtrSlew w s := rfl
theorem exec_slewDone (s : State) : exec (.slewDone) s = execSlewDone s := rfl
theorem exec_mtrEnable (w : Win) (v : Nat) (s : State) : exec (.mtrEnable w v) s = execMtrEnable w v s := rfl
theorem exec_mtrHeadWrite (w : Win) (v : Nat) (s : State) : exec (.mtrHeadWrite w v) s = execMtrHeadWrite w v s := rfl
theorem exec_tscClrMax (w : Win) (v : Nat) (s : State) : exec (.tscClrMax w v) s = execTscClrMax w v s := rfl
theorem exec_hostLinkUp (port speed width : Nat) (reversed : Bool) (s : State) : exec (.hostLinkUp port speed width reversed) s = execHostLinkUp port speed width reversed s := rfl
theorem exec_hostLinkDown (port : Nat) (s : State) : exec (.hostLinkDown port) s = execHostLinkDown port s := rfl
theorem exec_perstAssert (port : Nat) (s : State) : exec (.perstAssert port) s = execPerstAssert port s := rfl
theorem exec_perstDeassert (port : Nat) (s : State) : exec (.perstDeassert port) s = execPerstDeassert port s := rfl
theorem exec_hotReset (port : Nat) (s : State) : exec (.hotReset port) s = execHotReset port s := rfl
theorem exec_functionLevelReset (port func : Nat) (s : State) : exec (.functionLevelReset port func) s = execFunctionLevelReset port func s := rfl
theorem exec_flrEnd (port func : Nat) (s : State) : exec (.flrEnd port func) s = execFlrEnd port func s := rfl
theorem exec_busMasterEnableClear (port func : Nat) (s : State) : exec (.busMasterEnableClear port func) s = execBusMasterEnableClear port func s := rfl
theorem exec_busMasterEnableSet (port func : Nat) (cfg : FnCfg) (s : State) : exec (.busMasterEnableSet port func cfg) s = execBusMasterEnableSet port func cfg s := rfl
theorem exec_vfEnableSet (port numVfs : Nat) (ctl : VfCtl) (s : State) : exec (.vfEnableSet port numVfs ctl) s = execVfEnableSet port numVfs ctl s := rfl
theorem exec_vfEnableClear (port : Nat) (s : State) : exec (.vfEnableClear port) s = execVfEnableClear port s := rfl
theorem exec_d3hotEntry (port : Nat) (s : State) : exec (.d3hotEntry port) s = execD3hotEntry port s := rfl
theorem exec_d0Return (port : Nat) (s : State) : exec (.d0Return port) s = execD0Return port s := rfl
theorem exec_pmeTurnOff (port : Nat) (s : State) : exec (.pmeTurnOff port) s = execPmeTurnOff port s := rfl
theorem exec_hostL1Entry (port : Nat) (sub : L1Sub) (s : State) : exec (.hostL1Entry port sub) s = execHostL1Entry port sub s := rfl
theorem exec_msixUnmask (port func : Nat) (entry : Option Nat) (s : State) : exec (.msixUnmask port func entry) s = execMsixUnmask port func entry s := rfl
theorem exec_completionTimeout (tag : Nat) (s : State) : exec (.completionTimeout tag) s = execCompletionTimeout tag s := rfl
theorem exec_slotPresenceDetected (p : Nat) (s : State) : exec (.slotPresenceDetected p) s = execSlotPresenceDetected p s := rfl
theorem exec_pwrGoodTimeout (p : Nat) (s : State) : exec (.pwrGoodTimeout p) s = execPwrGoodTimeout p s := rfl
theorem exec_perstReleaseTimer (p : Nat) (s : State) : exec (.perstReleaseTimer p) s = execPerstReleaseTimer p s := rfl
theorem exec_driveLinkUp (p speed width : Nat) (s : State) : exec (.driveLinkUp p speed width) s = execDriveLinkUp p speed width s := rfl
theorem exec_driveLinkTimeout (p : Nat) (s : State) : exec (.driveLinkTimeout p) s = execDriveLinkTimeout p s := rfl
theorem exec_nvmeBringUpDone (p : Nat) (id : DriveId) (found : List FoundNs) (media : List PlateMedia) (s : State) : exec (.nvmeBringUpDone p id found media) s = execNvmeBringUpDone p id found media s := rfl
theorem exec_attentionButton (p : Nat) (s : State) : exec (.attentionButton p) s = execAttentionButton p s := rfl
theorem exec_attentionWindowEnd (p : Nat) (s : State) : exec (.attentionWindowEnd p) s = execAttentionWindowEnd p s := rfl
theorem exec_presenceLost (p : Nat) (s : State) : exec (.presenceLost p) s = execPresenceLost p s := rfl
theorem exec_powerFault (p : Nat) (s : State) : exec (.powerFault p) s = execPowerFault p s := rfl
theorem exec_driveLinkDown (p : Nat) (s : State) : exec (.driveLinkDown p) s = execDriveLinkDown p s := rfl
theorem exec_nvmeCommandTimeout (p : Nat) (s : State) : exec (.nvmeCommandTimeout p) s = execNvmeCommandTimeout p s := rfl
theorem exec_controllerResetDone (p : Nat) (s : State) : exec (.controllerResetDone p) s = execControllerResetDone p s := rfl
theorem exec_smartPoll (p warn tempK : Nat) (changed : Option DriveId) (s : State) : exec (.smartPoll p warn tempK changed) s = execSmartPoll p warn tempK changed s := rfl
theorem exec_ssbFrame (chain : Nat) (ins : List Nat) (s : State) : exec (.ssbFrame chain ins) s = execSsbFrame chain ins s := rfl
theorem exec_indicatorBlinkToggle (s : State) : exec (.indicatorBlinkToggle) s = execIndicatorBlinkToggle s := rfl
theorem exec_powerOff (w : Win) (p : Nat) (s : State) : exec (.powerOff w p) s = execPowerOff w p s := rfl
theorem exec_powerOn (w : Win) (p : Nat) (s : State) : exec (.powerOn w p) s = execPowerOn w p s := rfl
theorem exec_rescan (w : Win) (p : Nat) (id : DriveId) (found : List FoundNs) (s : State) : exec (.rescan w p id found) s = execRescan w p id found s := rfl
theorem exec_driveL1Entry (p : Nat) (s : State) : exec (.driveL1Entry p) s = execDriveL1Entry p s := rfl
theorem exec_dramTrainingDone (c : Nat) (d : Option Dimm) (lanes : List (Nat × Nat)) (s : State) : exec (.dramTrainingDone c d lanes) s = execDramTrainingDone c d lanes s := rfl
theorem exec_dramInitDone (c : Nat) (s : State) : exec (.dramInitDone c) s = execDramInitDone c s := rfl
theorem exec_scrubRead (c : Nat) (errs : List DevErr) (s : State) : exec (.scrubRead c errs) s = execScrubRead c errs s := rfl
theorem exec_dramCorrectedBurst (c : Nat) (req : DramReq) (devs lo hi : List Nat) (s : State) : exec (.dramCorrectedBurst c req devs lo hi) s = execDramCorrectedBurst c req devs lo hi s := rfl
theorem exec_dramUncorrectedBurst (c : Nat) (req : DramReq) (devs lo hi : List Nat) (s : State) : exec (.dramUncorrectedBurst c req devs lo hi) s = execDramUncorrectedBurst c req devs lo hi s := rfl
theorem exec_freqChangeDone (s : State) : exec (.freqChangeDone) s = execFreqChangeDone s := rfl
theorem exec_dramRefresh (c : Nat) (waiting : Bool) (s : State) : exec (.dramRefresh c waiting) s = execDramRefresh c waiting s := rfl
theorem exec_requestUrgent (c port : Nat) (s : State) : exec (.requestUrgent c port) s = execRequestUrgent c port s := rfl
theorem exec_rowIdleClose (c sub rank group bank : Nat) (s : State) : exec (.rowIdleClose c sub rank group bank) s = execRowIdleClose c sub rank group bank s := rfl
theorem exec_diagRead (w : Win) (c hi data : Nat) (devs : List Nat) (syms : List (Nat × Nat)) (s : State) : exec (.diagRead w c hi data devs syms) s = execDiagRead w c hi data devs syms s := rfl
theorem exec_dramRelease (w : Win) (c : Nat) (s : State) : exec (.dramRelease w c) s = execDramRelease w c s := rfl
theorem exec_tlkTrainingDone (x speed width : Nat) (rev : Bool) (node link : Nat) (s : State) : exec (.tlkTrainingDone x speed width rev node link) s = execTlkTrainingDone x speed width rev node link s := rfl
theorem exec_retrainTimeout (x : Nat) (s : State) : exec (.retrainTimeout x) s = execRetrainTimeout x s := rfl
theorem exec_flitReceived (x : Nat) (raw : List Byte) (s : State) : exec (.flitReceived x raw) s = execFlitReceived x raw s := rfl
theorem exec_nakReceived (x seq : Nat) (s : State) : exec (.nakReceived x seq) s = execNakReceived x seq s := rfl
theorem exec_replayTimer (x : Nat) (s : State) : exec (.replayTimer x) s = execReplayTimer x s := rfl
theorem exec_ackTimer (x : Nat) (s : State) : exec (.ackTimer x) s = execAckTimer x s := rfl
theorem exec_messageForward (x : Nat) (k : MsgKind) (m : Msg) (s : State) : exec (.messageForward x k m) s = execMessageForward x k m s := rfl
theorem exec_leaseRenewTimer (s : State) : exec (.leaseRenewTimer) s = execLeaseRenewTimer s := rfl
theorem exec_renew (m : Msg) (s : State) : exec (.renew m) s = execRenew m s := rfl
theorem exec_renewAck (m : Msg) (s : State) : exec (.renewAck m) s = execRenewAck m s := rfl
theorem exec_leaseExpired (owner : Nat) (s : State) : exec (.leaseExpired owner) s = execLeaseExpired owner s := rfl
theorem exec_leaseDrop (node : Nat) (s : State) : exec (.leaseDrop node) s = execLeaseDrop node s := rfl
theorem exec_reservationReportComplete (p : Nat) (holder : Bool) (s : State) : exec (.reservationReportComplete p holder) s = execReservationReportComplete p holder s := rfl
theorem exec_preemptComplete (id : Nat) (md : PlateMedia) (s : State) : exec (.preemptComplete id md) s = execPreemptComplete id md s := rfl
theorem exec_preemptTimeout (id : Nat) (s : State) : exec (.preemptTimeout id) s = execPreemptTimeout id s := rfl
theorem exec_takeoverDone (id : Nat) (s : State) : exec (.takeoverDone id) s = execTakeoverDone id s := rfl
theorem exec_journalEntryMessage (m : Msg) (s : State) : exec (.journalEntryMessage m) s = execJournalEntryMessage m s := rfl
theorem exec_fenceNotice (m : Msg) (s : State) : exec (.fenceNotice m) s = execFenceNotice m s := rfl
theorem exec_progress (m : Msg) (s : State) : exec (.progress m) s = execProgress m s := rfl
theorem exec_proof (m : Msg) (s : State) : exec (.proof m) s = execProof m s := rfl
theorem exec_suspect (m : Msg) (s : State) : exec (.suspect m) s = execSuspect m s := rfl
theorem exec_attachOffer (m : Msg) (reach resvOk : Bool) (found : List FoundNs) (media : List PlateMedia) (s : State) : exec (.attachOffer m reach resvOk found media) s = execAttachOffer m reach resvOk found media s := rfl
theorem exec_attachAccept (m : Msg) (pool : Nat) (s : State) : exec (.attachAccept m pool) s = execAttachAccept m pool s := rfl
theorem exec_attachRefuse (m : Msg) (s : State) : exec (.attachRefuse m) s = execAttachRefuse m s := rfl
theorem exec_claim (m : Msg) (s : State) : exec (.claim m) s = execClaim m s := rfl
theorem exec_memberIoRead (m : Msg) (s : State) : exec (.memberIoRead m) s = execMemberIoRead m s := rfl
theorem exec_memberIoWrite (m : Msg) (s : State) : exec (.memberIoWrite m) s = execMemberIoWrite m s := rfl
theorem exec_memberIoCompletion (m : Msg) (tag : Nat) (s : State) : exec (.memberIoCompletion m tag) s = execMemberIoCompletion m tag s := rfl
theorem exec_memberIoTimeout (id : Nat) (s : State) : exec (.memberIoTimeout id) s = execMemberIoTimeout id s := rfl
theorem exec_remoteRouteTimeout (node : Nat) (s : State) : exec (.remoteRouteTimeout node) s = execRemoteRouteTimeout node s := rfl
theorem exec_mirrorWrite (m : Msg) (s : State) : exec (.mirrorWrite m) s = execMirrorWrite m s := rfl
theorem exec_mirrorAck (m : Msg) (s : State) : exec (.mirrorAck m) s = execMirrorAck m s := rfl
theorem exec_mirrorRelease (m : Msg) (s : State) : exec (.mirrorRelease m) s = execMirrorRelease m s := rfl
theorem exec_mirrorLost (m : Msg) (s : State) : exec (.mirrorLost m) s = execMirrorLost m s := rfl
theorem exec_timeSyncTimer (followers : List Nat) (s : State) : exec (.timeSyncTimer followers) s = execTimeSyncTimer followers s := rfl
theorem exec_sync (m : Msg) (s : State) : exec (.sync m) s = execSync m s := rfl
theorem exec_latencyPingTimer (x : Nat) (s : State) : exec (.latencyPingTimer x) s = execLatencyPingTimer x s := rfl
theorem exec_ping (x : Nat) (m : Msg) (s : State) : exec (.ping x m) s = execPing x m s := rfl
theorem exec_pong (x : Nat) (m : Msg) (s : State) : exec (.pong x m) s = execPong x m s := rfl
theorem exec_trtAttach (w : Win) (p node : Nat) (s : State) : exec (.trtAttach w p node) s = execTrtAttach w p node s := rfl
theorem exec_trtDetach (w : Win) (p : Nat) (s : State) : exec (.trtDetach w p) s = execTrtDetach w p s := rfl
theorem exec_tlkL1Entry (x : Nat) (s : State) : exec (.tlkL1Entry x) s = execTlkL1Entry x s := rfl
theorem exec_graverGo (w : Win) (c : Nat) (chain : Bool) (s : State) : exec (.graverGo w c chain) s = execGraverGo w c chain s := rfl
theorem exec_graverStop (w : Win) (c : Nat) (s : State) : exec (.graverStop w c) s = execGraverStop w c s := rfl
theorem exec_descriptorFetch (c : Nat) (ue : Option MoveErr) (s : State) : exec (.descriptorFetch c ue) s = execDescriptorFetch c ue s := rfl
theorem exec_graverBurst (h1 h2 : HostRd) (ue : Option MoveErr) (s : State) : exec (.graverBurst h1 h2 ue) s = execGraverBurst h1 h2 ue s := rfl
theorem exec_graverRequestPulse (src : Nat) (s : State) : exec (.graverRequestPulse src) s = execGraverRequestPulse src s := rfl
theorem exec_graverUnitEnd (s : State) : exec (.graverUnitEnd) s = execGraverUnitEnd s := rfl
theorem exec_graverHoldTimeout (s : State) : exec (.graverHoldTimeout) s = execGraverHoldTimeout s := rfl
theorem exec_interruptSourceEdge (src : Nat) (level : Bool) (s : State) : exec (.interruptSourceEdge src level) s = execInterruptSourceEdge src level s := rfl
theorem exec_interruptClaim (n : Nat) (gone : Bool) (s : State) : exec (.interruptClaim n gone) s = execInterruptClaim n gone s := rfl
theorem exec_eoi (w : Win) (n src : Nat) (s : State) : exec (.eoi w n src) s = execEoi w n src s := rfl
theorem exec_softwareInterrupt (w : Win) (v : Nat) (s : State) : exec (.softwareInterrupt w v) s = execSoftwareInterrupt w v s := rfl
theorem exec_icuPendClear (w : Win) (v : Nat) (s : State) : exec (.icuPendClear w v) s = execIcuPendClear w v s := rfl
theorem exec_moderationExpiry (src : Nat) (s : State) : exec (.moderationExpiry src) s = execModerationExpiry src s := rfl
theorem exec_fallbackTimeout (src : Nat) (s : State) : exec (.fallbackTimeout src) s = execFallbackTimeout src s := rfl
theorem exec_faultMessage (s : State) : exec (.faultMessage) s = execFaultMessage s := rfl
theorem exec_fenceReq (w : Win) (p : Nat) (s : State) : exec (.fenceReq w p) s = execFenceReq w p s := rfl
theorem exec_faultInject (w : Win) (s : State) : exec (.faultInject w) s = execFaultInject w s := rfl
theorem exec_pgEvtSet (w : Win) (p v : Nat) (s : State) : exec (.pgEvtSet w p v) s = execPgEvtSet w p v s := rfl
theorem exec_faultRearm (w : Win) (s : State) : exec (.faultRearm w) s = execFaultRearm w s := rfl
theorem exec_unfence (w : Win) (p : Nat) (found : List FoundNs) (media : List PlateMedia) (s : State) : exec (.unfence w p found media) s = execUnfence w p found media s := rfl
theorem exec_watchdogKick (w : Win) (s : State) : exec (.watchdogKick w) s = execWatchdogKick w s := rfl
theorem exec_watchdogTimeout (s : State) : exec (.watchdogTimeout) s = execWatchdogTimeout s := rfl
theorem exec_mainPowerGood (s : State) : exec (.mainPowerGood) s = execMainPowerGood s := rfl
theorem exec_railSequenceStep (s : State) : exec (.railSequenceStep) s = execRailSequenceStep s := rfl
theorem exec_railRetry (s : State) : exec (.railRetry) s = execRailRetry s := rfl
theorem exec_startupPhaseEnd (f : PhaseFacts) (s : State) : exec (.startupPhaseEnd f) s = execStartupPhaseEnd f s := rfl
theorem exec_startupPhaseTimeout (s : State) : exec (.startupPhaseTimeout) s = execStartupPhaseTimeout s := rfl
theorem exec_coldReset (s : State) : exec (.coldReset) s = execColdReset s := rfl
theorem exec_supplyReset (io : Bool) (s : State) : exec (.supplyReset io) s = execSupplyReset io s := rfl
theorem exec_pinReset (s : State) : exec (.pinReset) s = execPinReset s := rfl
theorem exec_softwareReset (w : Win) (s : State) : exec (.softwareReset w) s = execSoftwareReset w s := rfl
theorem exec_supplyWarning (io : Bool) (mv : Nat) (s : State) : exec (.supplyWarning io mv) s = execSupplyWarning io mv s := rfl
theorem exec_supplyWarningClear (io : Bool) (mv : Nat) (s : State) : exec (.supplyWarningClear io mv) s = execSupplyWarningClear io mv s := rfl
theorem exec_tempWarning (t : Int) (s : State) : exec (.tempWarning t) s = execTempWarning t s := rfl
theorem exec_tempCritical (t : Int) (s : State) : exec (.tempCritical t) s = execTempCritical t s := rfl
theorem exec_hclkLost (n : Nat) (common : Bool) (s : State) : exec (.hclkLost n common) s = execHclkLost n common s := rfl
theorem exec_xtalStop (s : State) : exec (.xtalStop) s = execXtalStop s := rfl
theorem exec_xtalResume (s : State) : exec (.xtalResume) s = execXtalResume s := rfl
theorem exec_alarmFire (n : Nat) (s : State) : exec (.alarmFire n) s = execAlarmFire n s := rfl
theorem exec_opMinuteTick (s : State) : exec (.opMinuteTick) s = execOpMinuteTick s := rfl
theorem exec_idleEntry (s : State) : exec (.idleEntry) s = execIdleEntry s := rfl
theorem exec_nightEntry (quiet : Bool) (s : State) : exec (.nightEntry quiet) s = execNightEntry quiet s := rfl
theorem exec_nightExit (busy : Bool) (s : State) : exec (.nightExit busy) s = execNightExit busy s := rfl
theorem exec_nightReqWrite (w : Win) (v : Nat) (s : State) : exec (.nightReqWrite w v) s = execNightReqWrite w v s := rfl
theorem exec_standbyEntry (s : State) : exec (.standbyEntry) s = execStandbyEntry s := rfl
theorem exec_standbyExit (s : State) : exec (.standbyExit) s = execStandbyExit s := rfl
theorem exec_pwrClrMin (w : Win) (v : Nat) (s : State) : exec (.pwrClrMin w v) s = execPwrClrMin w v s := rfl
theorem exec_sessionIdleTimeout (port : Nat) (s : State) : exec (.sessionIdleTimeout port) s = execSessionIdleTimeout port s := rfl
theorem exec_nonceLapse (port : Nat) (s : State) : exec (.nonceLapse port) s = execNonceLapse port s := rfl
theorem exec_lockoutEnd (port : Nat) (s : State) : exec (.lockoutEnd port) s = execLockoutEnd port s := rfl
theorem exec_keyProgram (w : Win) (key : Nat) (ok : Bool) (s : State) : exec (.keyProgram w key ok) s = execKeyProgram w key ok s := rfl
theorem exec_sketchbookWindowEnd (code : Nat) (s : State) : exec (.sketchbookWindowEnd code) s = execSketchbookWindowEnd code s := rfl
theorem exec_sketchbookToken (s : State) : exec (.sketchbookToken) s = execSketchbookToken s := rfl
theorem exec_sketchbookRecordWrite (ok : Bool) (s : State) : exec (.sketchbookRecordWrite ok) s = execSketchbookRecordWrite ok s := rfl
theorem exec_sketchbookSnapshotTimer (s : State) : exec (.sketchbookSnapshotTimer) s = execSketchbookSnapshotTimer s := rfl
theorem exec_snapshot (w : Win) (s : State) : exec (.snapshot w) s = execSnapshot w s := rfl
theorem exec_eraseAll (w : Win) (s : State) : exec (.eraseAll w) s = execEraseAll w s := rfl
theorem exec_pgEnableWrite (w : Win) (p v : Nat) (s : State) : exec (.pgEnableWrite w p v) s = execPgEnableWrite w p v s := rfl
theorem exec_blockReset (w : Win) (p : Nat) (s : State) : exec (.blockReset w p) s = execBlockReset w p s := rfl
theorem exec_clkReq (w : Win) (p v : Nat) (s : State) : exec (.clkReq w p v) s = execClkReq w p v s := rfl
theorem exec_registerWrite (w : Win) (p off len v : Nat) (poisoned : Bool) (vr : VaultRead) (s : State) : exec (.registerWrite w p off len v poisoned vr) s = execRegisterWrite w p off len v poisoned vr s := rfl
theorem exec_registerRead (w : Win) (p off len : Nat) (s : State) : exec (.registerRead w p off len) s = execRegisterRead w p off len s := rfl
theorem exec_settingsRecordWrite (s : State) : exec (.settingsRecordWrite) s = execSettingsRecordWrite s := rfl
theorem exec_configRetryEnd (port : Nat) (s : State) : exec (.configRetryEnd port) s = execConfigRetryEnd port s := rfl
theorem exec_linkLayerError (port func : Nat) (e : Aer) (s : State) : exec (.linkLayerError port func e) s = execLinkLayerError port func e s := rfl
theorem exec_waitForInterrupt (n : Nat) (s : State) : exec (.waitForInterrupt n) s = execWaitForInterrupt n s := rfl
theorem exec_shutdownComplete (p : Nat) (s : State) : exec (.shutdownComplete p) s = execShutdownComplete p s := rfl
theorem exec_controllerFatalStatus (p : Nat) (s : State) : exec (.controllerFatalStatus p) s = execControllerFatalStatus p s := rfl

end Sys2Proof.Machine
end

