-- ==== Sys2Proof/Laws/Kept.lean ====
section
/-! SUPPORT. How `Kept` composes. -/

namespace Sys2Proof.Machine

theorem RoleKept.refl (a : RoleSt) : RoleKept a a := ⟨rfl, le_refl _, fun _ _ h => h⟩

theorem RoleKept.trans {a b c : RoleSt} (h : RoleKept a b) (k : RoleKept b c) : RoleKept a c :=
  ⟨k.1.trans h.1, le_trans h.2.1 k.2.1, fun n v e => k.2.2 n v (h.2.2 n v e)⟩

theorem Kept.refl (s : State) : Kept s s := ⟨rfl, .inl rfl, List.suffix_refl _, le_refl _, id, RoleKept.refl _⟩

theorem Kept.trans {s t u : State} (h : Kept s t) (k : Kept t u) : Kept s u :=
  ⟨k.1.trans h.1, k.2.1.elim (fun e => h.2.1.imp (e.trans ·) (e.trans ·)) .inr, h.2.2.1.trans k.2.2.1, le_trans h.2.2.2.1 k.2.2.2.1, fun r => k.2.2.2.2.1 (h.2.2.2.2.1 r), h.2.2.2.2.2.trans k.2.2.2.2.2⟩

/-- A value on the way is kept; then what follows may start from it. -/
theorem Kept.cut {s t u : State} (h : Kept s t) (k : Kept s t → Kept s u) : Kept s u := k h

theorem Kept.ident {s t : State} (h : Kept s t) : Kept s (id t) := h

theorem Kept.ite {c : Prop} [Decidable c] {s t u : State} (h : Kept s t) (k : Kept s u) : Kept s (if c then t else u) := by
  split
  · exact h
  · exact k

theorem Kept.foldl {α : Type} {s t : State} {l : List α} {f : State → α → State} (hf : ∀ u a, Kept s u → Kept s (f u a)) (h : Kept s t) :
    Kept s (l.foldl f t) := by
  induction l generalizing t with
  | nil => exact h
  | cons a l ih => exact ih (hf t a h)

theorem Kept.foldl_fst {α β : Type} {s : State} {p : State × β} {l : List α} {f : State × β → α → State × β}
    (hf : ∀ q a, Kept s q.1 → Kept s (f q a).1) (h : Kept s p.1) : Kept s (l.foldl f p).1 := by
  induction l generalizing p with
  | nil => exact h
  | cons a l ih => exact ih (hf p a h)

/-- A change of other parts of a state that is kept. -/
theorem Kept.parts {s x : State} {hi io st ca be ho dr dm li mo ic fl pw ev sc su fs}
    (h : Kept s x) :
    Kept s { regs := x.regs, timeQ := x.timeQ, fresh := x.fresh, out := x.out, hiLatch := hi, io := io, store := st, cache := ca, bem := be,
             host := ho, drive := dr, dram := dm, link := li, mover := mo, icu := ic, flt := fl, pwr := pw, role := x.role, evr := ev, sched := sc,
             sum := su, flash := fs, pending := x.pending } := h

theorem setFld_kept (f : FRef) (v : Nat) {r s : State} (h : Kept r s) : Kept r (setFld f v s) :=
  h.trans ⟨rfl, .inl rfl, List.suffix_refl _, le_refl _, fun h => setFld_sorted h f v, RoleKept.refl _⟩

/-- A change of the key region and the sessions' memory that keeps what must be kept. -/
theorem Kept.roled {s t : State} {r : RoleSt} (hf : RoleKept t.role r) (h : Kept s t) : Kept s { t with role := r } :=
  h.trans ⟨rfl, .inl rfl, List.suffix_refl _, le_refl _, id, hf⟩

end Sys2Proof.Machine
end

