-- ==== Sys2Proof/Laws/KeptRegs.lean ====
section
/-! SUPPORT. What the operations of Machine/Regs.lean keep. -/

namespace Sys2Proof.Machine

theorem incFld_kept (f : FRef) (n : Nat) {z0 s : State} (hk : Kept z0 s) : Kept z0 (incFld f n s) := by
  unfold incFld
  repeat' (first
    | with_reducible assumption
    | with_reducible apply setFld_kept)

theorem satFld_kept (f : FRef) (n : Nat) {z0 s : State} (hk : Kept z0 s) : Kept z0 (satFld f n s) := by
  unfold satFld
  repeat' (first
    | with_reducible assumption
    | with_reducible apply setFld_kept)

theorem decFld_kept (f : FRef) (n : Nat) {z0 s : State} (hk : Kept z0 s) : Kept z0 (decFld f n s) := by
  unfold decFld
  repeat' (first
    | with_reducible assumption
    | with_reducible apply setFld_kept)

theorem hwmFld_kept (f : FRef) (v : Nat) {z0 s : State} (hk : Kept z0 s) : Kept z0 (hwmFld f v s) := by
  unfold hwmFld
  repeat' (first
    | with_reducible assumption
    | with_reducible apply setFld_kept
    | with_reducible apply Kept.ite)

theorem setFlag_kept (f : FRef) (b : Bool) {z0 s : State} (hk : Kept z0 s) : Kept z0 (setFlag f b s) := by
  unfold setFlag
  repeat' (first
    | with_reducible assumption
    | with_reducible apply setFld_kept)

theorem set64_kept (lo hi : FRef) (v : Nat) {z0 s : State} (hk : Kept z0 s) : Kept z0 (set64 lo hi v s) := by
  unfold set64
  repeat' (first
    | with_reducible assumption
    | with_reducible apply setFld_kept)

theorem add64_kept (lo hi : FRef) (n : Nat) {z0 s : State} (hk : Kept z0 s) : Kept z0 (add64 lo hi n s) := by
  unfold add64
  repeat' (first
    | with_reducible assumption
    | with_reducible apply set64_kept)

theorem setEvtBits_kept (p bits : Nat) {z0 s : State} (hk : Kept z0 s) : Kept z0 (setEvtBits p bits s) := by
  unfold setEvtBits
  repeat' (first
    | with_reducible assumption
    | with_reducible apply setFld_kept
    | with_reducible apply Kept.ite)

theorem setEvt_kept (p bit : Nat) {z0 s : State} (hk : Kept z0 s) : Kept z0 (setEvt p bit s) := by
  unfold setEvt
  repeat' (first
    | with_reducible assumption
    | with_reducible apply setEvtBits_kept)

theorem clearEvt_kept (p bits : Nat) {z0 s : State} (hk : Kept z0 s) : Kept z0 (clearEvt p bits s) := by
  unfold clearEvt
  repeat' (first
    | with_reducible assumption
    | with_reducible apply setFld_kept
    | with_reducible apply Kept.ite)

theorem leaveIdle_kept  {z0 s : State} (hk : Kept z0 s) : Kept z0 (leaveIdle s) := by
  unfold leaveIdle
  repeat' (first
    | with_reducible assumption
    | with_reducible apply setFld_kept
    | with_reducible apply setEvt_kept
    | with_reducible apply Kept.ite)

theorem emit_kept (o : Out) {z0 s : State} (h : Kept z0 s) : Kept z0 (emit o s) := by
  unfold emit
  have h1 : Kept z0 (if o.isWork then leaveIdle s else s) := by
    split
    · exact leaveIdle_kept h
    · exact h
  exact h1.trans ⟨rfl, .inl rfl, List.suffix_cons _ _, le_refl _, id, RoleKept.refl _⟩

theorem bumpFresh_kept {z0 s : State} (h : Kept z0 s) : Kept z0 (bumpFresh s) := h.trans ⟨rfl, .inl rfl, List.suffix_refl _, Nat.le_succ _, id, RoleKept.refl _⟩

theorem useFresh_kept (n : Nat) {z0 s : State} (hk : Kept z0 s) : Kept z0 (useFresh n s) := hk.trans ⟨rfl, .inl rfl, List.suffix_refl _, Nat.le_add_right _ _, id, RoleKept.refl _⟩

theorem updEvr_kept (f : EvrSt → EvrSt) {z0 s : State} (hk : Kept z0 s) : Kept z0 (updEvr f s) := Kept.parts hk

theorem showHeld_kept  {z0 s : State} (hk : Kept z0 s) : Kept z0 (showHeld s) := by
  unfold showHeld
  repeat' (first
    | with_reducible assumption
    | with_reducible apply setFld_kept)

theorem holdOcc_kept (o : Occ) {z0 s : State} (hk : Kept z0 s) : Kept z0 (holdOcc o s) := by
  unfold holdOcc
  repeat' (first
    | with_reducible assumption
    | with_reducible apply updEvr_kept
    | with_reducible apply showHeld_kept)

theorem dueOcc_kept (o : Occ) {z0 s : State} (hk : Kept z0 s) : Kept z0 (dueOcc o s) := by
  unfold dueOcc
  repeat' (first
    | with_reducible assumption
    | with_reducible apply updEvr_kept)

theorem occur_kept (o : Occ) {z0 s : State} (hk : Kept z0 s) : Kept z0 (occur o s) := by
  unfold occur
  repeat' (first
    | with_reducible assumption
    | with_reducible apply setEvt_kept
    | with_reducible apply holdOcc_kept
    | with_reducible apply dueOcc_kept
    | with_reducible apply Kept.ite)

theorem sketchEvt_kept (page bit sev : Nat) {z0 s : State} (hk : Kept z0 s) : Kept z0 (sketchEvt page bit sev s) := by
  unfold sketchEvt
  repeat' (first
    | with_reducible assumption
    | with_reducible apply updEvr_kept
    | with_reducible apply occur_kept)

theorem sketchCount_kept (code n : Nat) {z0 s : State} (hk : Kept z0 s) : Kept z0 (sketchCount code n s) := by
  unfold sketchCount
  repeat' (first
    | with_reducible assumption
    | with_reducible apply updEvr_kept)

theorem sketchHist_kept (code unit v : Nat) {z0 s : State} (hk : Kept z0 s) : Kept z0 (sketchHist code unit v s) := by
  unfold sketchHist
  repeat' (first
    | with_reducible assumption
    | with_reducible apply updEvr_kept)

theorem sketchExtreme_kept (code : Nat) (v : Int) {z0 s : State} (hk : Kept z0 s) : Kept z0 (sketchExtreme code v s) := by
  unfold sketchExtreme
  repeat' (first
    | with_reducible assumption
    | with_reducible apply updEvr_kept)

theorem updFlt_kept (f : FltSt → FltSt) {z0 s : State} (hk : Kept z0 s) : Kept z0 (updFlt f s) := Kept.parts hk

theorem showQueue_kept  {z0 s : State} (hk : Kept z0 s) : Kept z0 (showQueue s) := by
  unfold showQueue
  repeat' (first
    | with_reducible assumption
    | with_reducible apply setFld_kept)

theorem enqueue_kept (m : FMsg) {z0 s : State} (hk : Kept z0 s) : Kept z0 (enqueue m s) := by
  unfold enqueue
  repeat' (first
    | with_reducible assumption
    | with_reducible apply incFld_kept
    | with_reducible apply setEvt_kept
    | with_reducible apply updFlt_kept
    | with_reducible apply showQueue_kept
    | with_reducible apply Kept.ite)

theorem report_kept (kind page addr : Nat) {z0 s : State} (hk : Kept z0 s) : Kept z0 (report kind page addr s) := by
  unfold report
  repeat' (first
    | with_reducible assumption
    | with_reducible apply enqueue_kept)

end Sys2Proof.Machine
end

