-- ==== Sys2Proof/Laws/KeptWire.lean ====
section
/-! SUPPORT. What the operations of Machine/Wire.lean keep. -/

namespace Sys2Proof.Machine

theorem updLink_kept (f : LinkSt → LinkSt) {z0 s : State} (hk : Kept z0 s) : Kept z0 (updLink f s) := Kept.parts hk

theorem updTlk_kept (x : Nat) (f : Tlk → Tlk) {z0 s : State} (hk : Kept z0 s) : Kept z0 (updTlk x f s) := by
  unfold updTlk
  repeat' (first
    | with_reducible assumption
    | with_reducible apply updLink_kept)

theorem sendFlit_kept (x seq kind : Nat) (crd : Nat × Nat) (payload : List Byte) {z0 s : State} (hk : Kept z0 s) : Kept z0 (sendFlit x seq kind crd payload s) := by
  unfold sendFlit
  repeat' (first
    | with_reducible assumption
    | with_reducible apply setFld_kept
    | with_reducible apply add64_kept
    | with_reducible apply emit_kept
    | with_reducible apply updTlk_kept
    | with_reducible apply Kept.ite)

theorem sendSeq_kept (x : Nat) (f : TxFlit) {z0 s : State} (hk : Kept z0 s) : Kept z0 (sendSeq x f s) := by
  unfold sendSeq
  repeat' (first
    | with_reducible assumption
    | with_reducible apply updTlk_kept
    | with_reducible apply sendFlit_kept)

theorem drainCur_kept (x : Nat) {z0 s : State} (hk : Kept z0 s) : Kept z0 (drainCur x s) := by
  unfold drainCur
  repeat' (first
    | with_reducible assumption
    | with_reducible apply updTlk_kept
    | with_reducible apply sendSeq_kept
    | with_reducible apply Kept.ite
    | with_reducible apply Kept.foldl
    | intro _ _ _ _
    | intro _ _ _)

theorem startResend_kept (x : Nat) {z0 s : State} (hk : Kept z0 s) : Kept z0 (startResend x s) := by
  unfold startResend
  repeat' (first
    | with_reducible assumption
    | with_reducible apply decFld_kept
    | with_reducible apply updTlk_kept
    | with_reducible apply Kept.ite
    | with_reducible apply Kept.foldl
    | with_reducible apply Kept.foldl_fst
    | intro _ _ _ _
    | intro _ _ _
    | intro _
    | (extract_lets +onlyGivenNames x; refine Kept.cut (t := x) ?_ ?_; (on_goal 1 => subst x); (on_goal 2 => (clear_value x; intro _)))
    | (extract_lets +onlyGivenNames x; clear_value x)
    | split
    | dsimp only
    | fail_if_no_progress (with_reducible apply Kept.parts))

theorem pumpLink_kept (fuel : Nat) (x : Nat) {z0 s : State} (h : Kept z0 s) : Kept z0 (pumpLink fuel x s) := by
  induction fuel generalizing x z0 s with
  | zero => unfold pumpLink; exact h
  | succ fuel ih =>
    unfold pumpLink
    repeat' (first
      | with_reducible assumption
      | with_reducible apply ih
      | with_reducible apply decFld_kept
      | with_reducible apply emit_kept
      | with_reducible apply updTlk_kept
      | with_reducible apply startResend_kept
      | with_reducible apply drainCur_kept
      | with_reducible apply Kept.ite
      | with_reducible apply Kept.foldl
      | intro _ _ _ _
      | intro _ _ _
      | intro _
      | (extract_lets +onlyGivenNames x; clear_value x)
      | split)

theorem pump_kept (x : Nat) {z0 s : State} (hk : Kept z0 s) : Kept z0 (pump x s) := by
  unfold pump
  repeat' (first
    | with_reducible assumption
    | with_reducible apply pumpLink_kept
    | with_reducible apply Kept.ite
    | with_reducible apply Kept.foldl
    | with_reducible apply Kept.foldl_fst
    | intro _ _ _ _
    | intro _ _ _
    | intro _
    | (extract_lets +onlyGivenNames x; refine Kept.cut (t := x) ?_ ?_; (on_goal 1 => subst x); (on_goal 2 => (clear_value x; intro _)))
    | (extract_lets +onlyGivenNames x; clear_value x)
    | split
    | dsimp only
    | fail_if_no_progress (with_reducible apply Kept.parts))

theorem sendOn_kept (x : Nat) (q : QMsg) {z0 s : State} (hk : Kept z0 s) : Kept z0 (sendOn x q s) := by
  unfold sendOn
  repeat' (first
    | with_reducible assumption
    | with_reducible apply pump_kept
    | with_reducible apply updTlk_kept
    | with_reducible apply Kept.ite
    | with_reducible apply Kept.foldl
    | with_reducible apply Kept.foldl_fst
    | intro _ _ _ _
    | intro _ _ _
    | intro _
    | (extract_lets +onlyGivenNames x; refine Kept.cut (t := x) ?_ ?_; (on_goal 1 => subst x); (on_goal 2 => (clear_value x; intro _)))
    | (extract_lets +onlyGivenNames x; clear_value x)
    | split
    | dsimp only
    | fail_if_no_progress (with_reducible apply Kept.parts))

theorem routeMsg_kept (q : QMsg) (lost : State → State) {z0 s : State} (h_lost : ∀ r t, Kept r t → Kept r (lost t)) (hk : Kept z0 s) : Kept z0 (routeMsg q lost s) := by
  unfold routeMsg
  repeat' (first
    | with_reducible assumption
    | with_reducible apply h_lost
    | with_reducible apply sendOn_kept
    | with_reducible apply updLink_kept
    | with_reducible apply Kept.ite
    | with_reducible apply Kept.foldl
    | with_reducible apply Kept.foldl_fst
    | intro _ _ _ _
    | intro _ _ _
    | intro _
    | (extract_lets +onlyGivenNames x; refine Kept.cut (t := x) ?_ ?_; (on_goal 1 => subst x); (on_goal 2 => (clear_value x; intro _)))
    | (extract_lets +onlyGivenNames x; clear_value x)
    | split
    | dsimp only
    | fail_if_no_progress (with_reducible apply Kept.parts))

theorem unroutable_kept  {z0 s : State} (hk : Kept z0 s) : Kept z0 (unroutable s) := by
  unfold unroutable
  repeat' (first
    | with_reducible assumption
    | with_reducible apply incFld_kept
    | with_reducible apply setEvt_kept)

theorem sendNoted_kept (node : Nat) (k : MsgKind) (tag arg arg2 : Nat) (body : List Byte) (note : Option (Nat × Nat × Nat)) {z0 s : State} (hk : Kept z0 s) : Kept z0 (sendNoted node k tag arg arg2 body note s) := by
  unfold sendNoted
  repeat' (first
    | with_reducible assumption
    | with_reducible apply routeMsg_kept
    | with_reducible apply unroutable_kept
    | with_reducible apply Kept.ite
    | with_reducible apply Kept.foldl
    | with_reducible apply Kept.foldl_fst
    | intro _ _ _ _
    | intro _ _ _
    | intro _
    | (extract_lets +onlyGivenNames x; refine Kept.cut (t := x) ?_ ?_; (on_goal 1 => subst x); (on_goal 2 => (clear_value x; intro _)))
    | (extract_lets +onlyGivenNames x; clear_value x)
    | split
    | dsimp only
    | fail_if_no_progress (with_reducible apply Kept.parts))

theorem sendMsg_kept (node : Nat) (k : MsgKind) (tag arg arg2 : Nat) (body : List Byte) {z0 s : State} (hk : Kept z0 s) : Kept z0 (sendMsg node k tag arg arg2 body s) := by
  unfold sendMsg
  repeat' (first
    | with_reducible assumption
    | with_reducible apply sendNoted_kept)

end Sys2Proof.Machine
end

