-- ==== Sys2Proof/Laws/KeptOps.lean ====
section
/-! SUPPORT. What the operations of Machine/Ops.lean keep. -/

namespace Sys2Proof.Machine

theorem onlyIf_kept (b : Bool) (f : State → State) {z0 s : State} (h_f : ∀ r t, Kept r t → Kept r (f t)) (hk : Kept z0 s) : Kept z0 (onlyIf b f s) := by
  unfold onlyIf
  repeat' (first
    | with_reducible assumption
    | with_reducible apply h_f
    | with_reducible apply Kept.ite)

theorem updIo_kept (f : Io → Io) {z0 s : State} (hk : Kept z0 s) : Kept z0 (updIo f s) := Kept.parts hk

theorem updStore_kept (f : Store → Store) {z0 s : State} (hk : Kept z0 s) : Kept z0 (updStore f s) := Kept.parts hk

theorem updCache_kept (f : Cache → Cache) {z0 s : State} (hk : Kept z0 s) : Kept z0 (updCache f s) := Kept.parts hk

theorem updHost_kept (f : HostSt → HostSt) {z0 s : State} (hk : Kept z0 s) : Kept z0 (updHost f s) := Kept.parts hk

theorem updDrive_kept (f : DriveSt → DriveSt) {z0 s : State} (hk : Kept z0 s) : Kept z0 (updDrive f s) := Kept.parts hk

theorem clearFence_kept (p : Nat) {z0 s : State} (hk : Kept z0 s) : Kept z0 (clearFence p s) := by
  unfold clearFence
  repeat' (first
    | with_reducible assumption
    | with_reducible apply setFld_kept)

theorem updPlate_kept (p : Nat) (f : Plate → Plate) {z0 s : State} (hk : Kept z0 s) : Kept z0 (updPlate p f s) := by
  unfold updPlate
  repeat' (first
    | with_reducible assumption
    | with_reducible apply updStore_kept
    | with_reducible apply Kept.ite
    | with_reducible apply Kept.foldl
    | intro _ _ _ _
    | intro _ _ _
    | intro _
    | split)

theorem updFn_kept (port func : Nat) (f : HFn → HFn) {z0 s : State} (hk : Kept z0 s) : Kept z0 (updFn port func f s) := by
  unfold updFn
  repeat' (first
    | with_reducible assumption
    | with_reducible apply updHost_kept)

theorem leaveL1_kept (port : Nat) {z0 s : State} (hk : Kept z0 s) : Kept z0 (leaveL1 port s) := by
  unfold leaveL1
  repeat' (first
    | with_reducible assumption
    | with_reducible apply setFld_kept
    | with_reducible apply updHost_kept
    | with_reducible apply Kept.ite
    | with_reducible apply Kept.foldl
    | with_reducible apply Kept.foldl_fst
    | intro _ _ _ _
    | intro _ _ _
    | intro _
    | (extract_lets +onlyGivenNames x; refine Kept.cut (t := x) ?_ ?_; (on_goal 1 => subst x); (on_goal 2 => (clear_value x; intro _)))
    | (extract_lets +onlyGivenNames x; clear_value x)
    | split
    | dsimp only
    | fail_if_no_progress (with_reducible apply Kept.parts))

theorem sendPosted_kept (port : Nat) (o : Out) {z0 s : State} (hk : Kept z0 s) : Kept z0 (sendPosted port o s) := by
  unfold sendPosted
  repeat' (first
    | with_reducible assumption
    | with_reducible apply hostWrite_kept
    | with_reducible apply emit_kept
    | with_reducible apply leaveL1_kept
    | with_reducible apply add64_kept
    | with_reducible apply Kept.ite
    | with_reducible apply Kept.foldl
    | with_reducible apply Kept.foldl_fst
    | intro _ _ _ _
    | intro _ _ _
    | intro _
    | (extract_lets +onlyGivenNames x; refine Kept.cut (t := x) ?_ ?_; (on_goal 1 => subst x); (on_goal 2 => (clear_value x; intro _)))
    | (extract_lets +onlyGivenNames x; clear_value x)
    | split
    | dsimp only
    | fail_if_no_progress (with_reducible apply Kept.parts))

theorem wakeHost_kept (port : Nat) {z0 s : State} (hk : Kept z0 s) : Kept z0 (wakeHost port s) := by
  unfold wakeHost
  repeat' (first
    | with_reducible assumption
    | with_reducible apply emit_kept
    | with_reducible apply updFn_kept
    | with_reducible apply Kept.ite)

theorem posted_kept (port func : Nat) (o : Out) {z0 s : State} (hk : Kept z0 s) : Kept z0 (posted port func o s) := by
  unfold posted
  repeat' (first
    | with_reducible assumption
    | with_reducible apply updFn_kept
    | with_reducible apply sendPosted_kept
    | with_reducible apply Kept.ite)

theorem hostWrite_kept (port func addr : Nat) (bytes : List Byte) (relaxed : Bool) {z0 s : State} (hk : Kept z0 s) : Kept z0 (hostWrite port func addr bytes relaxed s) := by
  unfold hostWrite
  repeat' (first
    | with_reducible assumption
    | with_reducible apply posted_kept
    | with_reducible apply Kept.ite
    | with_reducible apply Kept.foldl
    | with_reducible apply Kept.foldl_fst
    | intro _ _ _ _
    | intro _ _ _)

theorem sendReqs_kept (tag : Nat) (h : HRead) (reqs : List (Nat × Nat)) {z0 s : State} (hk : Kept z0 s) : Kept z0 (sendReqs tag h reqs s) := by
  unfold sendReqs
  repeat' (first
    | with_reducible assumption
    | with_reducible apply emit_kept
    | with_reducible apply hostRead_kept
    | with_reducible apply Kept.ite
    | with_reducible apply Kept.foldl
    | with_reducible apply Kept.foldl_fst
    | intro _ _ _ _
    | intro _ _ _
    | intro _
    | (extract_lets +onlyGivenNames x; refine Kept.cut (t := x) ?_ ?_; (on_goal 1 => subst x); (on_goal 2 => (clear_value x; intro _)))
    | (extract_lets +onlyGivenNames x; clear_value x)
    | split
    | dsimp only
    | fail_if_no_progress (with_reducible apply Kept.parts))

theorem issueRead_kept (tag : Nat) (h : HRead) {z0 s : State} (hk : Kept z0 s) : Kept z0 (issueRead tag h s) := by
  unfold issueRead
  repeat' (first
    | with_reducible assumption
    | with_reducible apply sendReqs_kept
    | with_reducible apply updIo_kept
    | with_reducible apply leaveL1_kept
    | with_reducible apply Kept.ite
    | with_reducible apply Kept.foldl
    | with_reducible apply Kept.foldl_fst
    | intro _ _ _ _
    | intro _ _ _
    | intro _
    | (extract_lets +onlyGivenNames x; refine Kept.cut (t := x) ?_ ?_; (on_goal 1 => subst x); (on_goal 2 => (clear_value x; intro _)))
    | (extract_lets +onlyGivenNames x; clear_value x)
    | split
    | dsimp only
    | fail_if_no_progress (with_reducible apply Kept.parts))

theorem pumpReads_kept  {z0 s : State} (hk : Kept z0 s) : Kept z0 (pumpReads s) := by
  unfold pumpReads
  repeat' (first
    | with_reducible assumption
    | with_reducible apply issueRead_kept
    | with_reducible apply Kept.ite
    | with_reducible apply Kept.foldl
    | intro _ _ _ _
    | intro _ _ _)

theorem hostReadRuns_kept (port func : Nat) (runs : List (Nat × Nat)) (why : HPurpose) {z0 s : State} (hk : Kept z0 s) : Kept z0 (hostReadRuns port func runs why s) := by
  unfold hostReadRuns
  repeat' (first
    | with_reducible assumption
    | with_reducible apply updIo_kept
    | with_reducible apply issueRead_kept)

theorem hostRead_kept (port func addr len : Nat) (why : HPurpose) {z0 s : State} (hk : Kept z0 s) : Kept z0 (hostRead port func addr len why s) := by
  unfold hostRead
  repeat' (first
    | with_reducible assumption
    | with_reducible apply hostReadRuns_kept)

theorem hostMsg_kept (port func vector : Nat) {z0 s : State} (hk : Kept z0 s) : Kept z0 (hostMsg port func vector s) := by
  unfold hostMsg
  repeat' (first
    | with_reducible assumption
    | with_reducible apply incFld_kept
    | with_reducible apply updFn_kept
    | with_reducible apply posted_kept
    | with_reducible apply wakeHost_kept
    | with_reducible apply Kept.ite
    | with_reducible apply Kept.foldl
    | with_reducible apply Kept.foldl_fst
    | intro _ _ _ _
    | intro _ _ _
    | intro _
    | (extract_lets +onlyGivenNames x; refine Kept.cut (t := x) ?_ ?_; (on_goal 1 => subst x); (on_goal 2 => (clear_value x; intro _)))
    | (extract_lets +onlyGivenNames x; clear_value x)
    | split
    | dsimp only
    | fail_if_no_progress (with_reducible apply Kept.parts))

theorem aerLog_kept (port func : Nat) (e : Aer) {z0 s : State} (hk : Kept z0 s) : Kept z0 (aerLog port func e s) := by
  unfold aerLog
  repeat' (first
    | with_reducible assumption
    | with_reducible apply updFn_kept
    | with_reducible apply onlyIf_kept
    | with_reducible apply emit_kept
    | with_reducible apply setEvt_kept
    | with_reducible apply Kept.ite
    | with_reducible apply Kept.foldl
    | with_reducible apply Kept.foldl_fst
    | intro _ _ _ _
    | intro _ _ _
    | intro _
    | (extract_lets +onlyGivenNames x; refine Kept.cut (t := x) ?_ ?_; (on_goal 1 => subst x); (on_goal 2 => (clear_value x; intro _)))
    | (extract_lets +onlyGivenNames x; clear_value x)
    | split
    | dsimp only
    | fail_if_no_progress (with_reducible apply Kept.parts))

theorem reportTimeout_kept (port func tag : Nat) {z0 s : State} (hk : Kept z0 s) : Kept z0 (reportTimeout port func tag s) := by
  unfold reportTimeout
  repeat' (first
    | with_reducible assumption
    | with_reducible apply setEvt_kept
    | with_reducible apply incFld_kept
    | with_reducible apply aerLog_kept
    | with_reducible apply updIo_kept
    | with_reducible apply Kept.ite
    | with_reducible apply Kept.foldl
    | with_reducible apply Kept.foldl_fst
    | intro _ _ _ _
    | intro _ _ _
    | intro _
    | (extract_lets +onlyGivenNames x; refine Kept.cut (t := x) ?_ ?_; (on_goal 1 => subst x); (on_goal 2 => (clear_value x; intro _)))
    | (extract_lets +onlyGivenNames x; clear_value x)
    | split
    | dsimp only
    | fail_if_no_progress (with_reducible apply Kept.parts))

theorem readEnded_kept (port func tag n : Nat) (r : HostRd) {z0 s : State} (hk : Kept z0 s) : Kept z0 (readEnded port func tag n r s) := by
  unfold readEnded
  repeat' (first
    | with_reducible assumption
    | with_reducible apply add64_kept
    | with_reducible apply reportTimeout_kept
    | with_reducible apply aerLog_kept
    | with_reducible apply Kept.ite
    | with_reducible apply Kept.foldl
    | with_reducible apply Kept.foldl_fst
    | intro _ _ _ _
    | intro _ _ _
    | intro _
    | (extract_lets +onlyGivenNames x; refine Kept.cut (t := x) ?_ ?_; (on_goal 1 => subst x); (on_goal 2 => (clear_value x; intro _)))
    | (extract_lets +onlyGivenNames x; clear_value x)
    | split
    | dsimp only
    | fail_if_no_progress (with_reducible apply Kept.parts))

theorem readDone_kept (port func addr n : Nat) (r : HostRd) {z0 s : State} (hk : Kept z0 s) : Kept z0 (readDone port func addr n r s) := by
  unfold readDone
  repeat' (first
    | with_reducible assumption
    | with_reducible apply readEnded_kept
    | with_reducible apply sendReqs_kept
    | with_reducible apply updIo_kept
    | with_reducible apply leaveL1_kept
    | with_reducible apply Kept.ite
    | with_reducible apply Kept.foldl
    | with_reducible apply Kept.foldl_fst
    | intro _ _ _ _
    | intro _ _ _
    | intro _
    | (extract_lets +onlyGivenNames x; refine Kept.cut (t := x) ?_ ?_; (on_goal 1 => subst x); (on_goal 2 => (clear_value x; intro _)))
    | (extract_lets +onlyGivenNames x; clear_value x)
    | split
    | dsimp only
    | fail_if_no_progress (with_reducible apply Kept.parts))

theorem readNow_kept (port func addr n : Nat) (r : HostRd) (f : State → State) {z0 s : State} (h_f : ∀ r t, Kept r t → Kept r (f t)) (hk : Kept z0 s) : Kept z0 (readNow port func addr n r f s) := by
  unfold readNow
  repeat' (first
    | with_reducible assumption
    | with_reducible apply h_f
    | with_reducible apply readDone_kept
    | with_reducible apply Kept.ite
    | with_reducible apply Kept.foldl
    | with_reducible apply Kept.foldl_fst
    | intro _ _ _ _
    | intro _ _ _
    | intro _
    | (extract_lets +onlyGivenNames x; refine Kept.cut (t := x) ?_ ?_; (on_goal 1 => subst x); (on_goal 2 => (clear_value x; intro _)))
    | (extract_lets +onlyGivenNames x; clear_value x)
    | split
    | dsimp only
    | fail_if_no_progress (with_reducible apply Kept.parts))

theorem cfgWrite_kept (port func off : Nat) (f : State → State) {z0 s : State} (h_f : ∀ r t, Kept r t → Kept r (f t)) (hk : Kept z0 s) : Kept z0 (cfgWrite port func off f s) := by
  unfold cfgWrite
  repeat' (first
    | with_reducible assumption
    | with_reducible apply h_f
    | with_reducible apply emit_kept
    | with_reducible apply Kept.ite
    | with_reducible apply Kept.foldl
    | with_reducible apply Kept.foldl_fst
    | intro _ _ _ _
    | intro _ _ _
    | intro _
    | (extract_lets +onlyGivenNames x; refine Kept.cut (t := x) ?_ ?_; (on_goal 1 => subst x); (on_goal 2 => (clear_value x; intro _)))
    | (extract_lets +onlyGivenNames x; clear_value x)
    | split
    | dsimp only
    | fail_if_no_progress (with_reducible apply Kept.parts))

theorem leaveDriveL1_kept (p : Nat) {z0 s : State} (hk : Kept z0 s) : Kept z0 (leaveDriveL1 p s) := by
  unfold leaveDriveL1
  repeat' (first
    | with_reducible assumption
    | with_reducible apply setFld_kept
    | with_reducible apply Kept.ite)

theorem updDport_kept (p : Nat) (f : DPort → DPort) {z0 s : State} (hk : Kept z0 s) : Kept z0 (updDport p f s) := by
  unfold updDport
  repeat' (first
    | with_reducible assumption
    | with_reducible apply updDrive_kept
    | with_reducible apply Kept.ite
    | with_reducible apply Kept.foldl
    | with_reducible apply Kept.foldl_fst
    | intro _ _ _ _
    | intro _ _ _
    | intro _
    | (extract_lets +onlyGivenNames x; refine Kept.cut (t := x) ?_ ?_; (on_goal 1 => subst x); (on_goal 2 => (clear_value x; intro _)))
    | (extract_lets +onlyGivenNames x; clear_value x)
    | split
    | dsimp only
    | fail_if_no_progress (with_reducible apply Kept.parts))

theorem issueNv_kept (id : Nat) (c : NvCmd) {z0 s : State} (hk : Kept z0 s) : Kept z0 (issueNv id c s) := by
  unfold issueNv
  repeat' (first
    | with_reducible assumption
    | with_reducible apply emit_kept
    | with_reducible apply leaveDriveL1_kept
    | with_reducible apply updDport_kept
    | with_reducible apply updIo_kept
    | with_reducible apply Kept.ite
    | with_reducible apply Kept.ident
    | with_reducible apply Kept.foldl
    | with_reducible apply Kept.foldl_fst
    | intro _ _ _ _
    | intro _ _ _
    | intro _
    | (extract_lets +onlyGivenNames x; refine Kept.cut (t := x) ?_ ?_; (on_goal 1 => subst x); (on_goal 2 => (clear_value x; intro _)))
    | (extract_lets +onlyGivenNames x; clear_value x)
    | split
    | dsimp only
    | fail_if_no_progress (with_reducible apply Kept.parts))

theorem pumpNv_kept (p : Nat) {z0 s : State} (hk : Kept z0 s) : Kept z0 (pumpNv p s) := by
  unfold pumpNv
  repeat' (first
    | with_reducible assumption
    | with_reducible apply issueNv_kept
    | with_reducible apply Kept.ite
    | with_reducible apply Kept.foldl
    | with_reducible apply Kept.foldl_fst
    | intro _ _ _ _
    | intro _ _ _
    | intro _
    | (extract_lets +onlyGivenNames x; refine Kept.cut (t := x) ?_ ?_; (on_goal 1 => subst x); (on_goal 2 => (clear_value x; intro _)))
    | (extract_lets +onlyGivenNames x; clear_value x)
    | split
    | dsimp only
    | fail_if_no_progress (with_reducible apply Kept.parts))

theorem endNvs_kept (f : Nat × NvCmd → Bool) {z0 s : State} (hk : Kept z0 s) : Kept z0 (endNvs f s) := by
  unfold endNvs
  repeat' (first
    | with_reducible assumption
    | with_reducible apply pumpNv_kept
    | with_reducible apply updIo_kept
    | with_reducible apply Kept.ite
    | with_reducible apply Kept.foldl
    | with_reducible apply Kept.foldl_fst
    | intro _ _ _ _
    | intro _ _ _
    | intro _
    | (extract_lets +onlyGivenNames x; refine Kept.cut (t := x) ?_ ?_; (on_goal 1 => subst x); (on_goal 2 => (clear_value x; intro _)))
    | (extract_lets +onlyGivenNames x; clear_value x)
    | split
    | dsimp only
    | fail_if_no_progress (with_reducible apply Kept.parts))

theorem endNv_kept (id : Nat) {z0 s : State} (hk : Kept z0 s) : Kept z0 (endNv id s) := by
  unfold endNv
  repeat' (first
    | with_reducible assumption
    | with_reducible apply endNvs_kept
    | with_reducible apply Kept.ite
    | with_reducible apply Kept.ident
    | with_reducible apply Kept.foldl
    | with_reducible apply Kept.foldl_fst
    | intro _ _ _ _
    | intro _ _ _
    | intro _
    | (extract_lets +onlyGivenNames x; refine Kept.cut (t := x) ?_ ?_; (on_goal 1 => subst x); (on_goal 2 => (clear_value x; intro _)))
    | (extract_lets +onlyGivenNames x; clear_value x)
    | split
    | dsimp only
    | fail_if_no_progress (with_reducible apply Kept.parts))

theorem sendNv_kept (cmd : NvCmd) {z0 s : State} (hk : Kept z0 s) : Kept z0 (sendNv cmd s) := by
  unfold sendNv
  repeat' (first
    | with_reducible assumption
    | with_reducible apply updIo_kept
    | with_reducible apply pumpNv_kept
    | with_reducible apply sendMsg_kept
    | with_reducible apply memberRead_kept
    | with_reducible apply Kept.ite
    | with_reducible apply Kept.ident
    | with_reducible apply Kept.foldl
    | with_reducible apply Kept.foldl_fst
    | intro _ _ _ _
    | intro _ _ _
    | intro _
    | (extract_lets +onlyGivenNames x; refine Kept.cut (t := x) ?_ ?_; (on_goal 1 => subst x); (on_goal 2 => (clear_value x; intro _)))
    | (extract_lets +onlyGivenNames x; clear_value x)
    | split
    | dsimp only
    | fail_if_no_progress (with_reducible apply Kept.parts))

theorem memberReq_kept (p m sn pos : Nat) (op : NvOp) (lba n : Nat) (data : List Byte) (why : Nat → Purpose) {z0 s : State} (hk : Kept z0 s) : Kept z0 (memberReq p m sn pos op lba n data why s) := by
  unfold memberReq
  repeat' (first
    | with_reducible assumption
    | with_reducible apply sendNv_kept
    | with_reducible apply Kept.ite
    | with_reducible apply Kept.foldl
    | intro _ _ _ _
    | intro _ _ _
    | intro _
    | split)

end Sys2Proof.Machine
end

