-- ==== Sys2Proof/Laws/KeptRingOps.lean ====
section
/-! SUPPORT. What the operations of Machine/RingOps.lean keep. -/

namespace Sys2Proof.Machine

theorem updCtx_kept (c : Nat) (f : Ctx → Ctx) {z0 s : State} (hk : Kept z0 s) : Kept z0 (updCtx c f s) := by
  unfold updCtx
  repeat' (first
    | with_reducible assumption
    | with_reducible apply updIo_kept)

theorem discardDb_kept (c : Nat) {z0 s : State} (hk : Kept z0 s) : Kept z0 (discardDb c s) := by
  unfold discardDb
  repeat' (first
    | with_reducible assumption
    | with_reducible apply satFld_kept
    | with_reducible apply setEvt_kept)

theorem cfgBad_kept (c : Nat) {z0 s : State} (hk : Kept z0 s) : Kept z0 (cfgBad c s) := by
  unfold cfgBad
  repeat' (first
    | with_reducible assumption
    | with_reducible apply setFld_kept
    | with_reducible apply setEvt_kept)

theorem ringError_kept (c cause value : Nat) {z0 s : State} (hk : Kept z0 s) : Kept z0 (ringError c cause value s) := by
  unfold ringError
  repeat' (first
    | with_reducible assumption
    | with_reducible apply setFld_kept
    | with_reducible apply setEvt_kept
    | with_reducible apply Kept.ite)

theorem ringMsg_kept (c : Nat) {z0 s : State} (hk : Kept z0 s) : Kept z0 (ringMsg c s) := by
  unfold ringMsg
  repeat' (first
    | with_reducible assumption
    | with_reducible apply hostMsg_kept
    | with_reducible apply updCtx_kept)

theorem ringNotify_kept (c : Nat) {z0 s : State} (hk : Kept z0 s) : Kept z0 (ringNotify c s) := by
  unfold ringNotify
  repeat' (first
    | with_reducible assumption
    | with_reducible apply updCtx_kept
    | with_reducible apply ringMsg_kept
    | with_reducible apply Kept.ite)

theorem updCmd_kept (n : Nat) (f : Cmd → Cmd) {z0 s : State} (hk : Kept z0 s) : Kept z0 (updCmd n f s) := by
  unfold updCmd
  repeat' (first
    | with_reducible assumption
    | with_reducible apply updIo_kept
    | with_reducible apply Kept.ite
    | with_reducible apply Kept.foldl
    | intro _ _ _ _
    | intro _ _ _
    | intro _
    | split)

theorem unexpected_kept (port tag : Nat) {z0 s : State} (hk : Kept z0 s) : Kept z0 (unexpected port tag s) := by
  unfold unexpected
  repeat' (first
    | with_reducible assumption
    | with_reducible apply setEvt_kept
    | with_reducible apply incFld_kept
    | with_reducible apply aerLog_kept
    | with_reducible apply updIo_kept
    | with_reducible apply Kept.ite
    | with_reducible apply Kept.foldl
    | with_reducible apply Kept.foldl_fst
    | intro _ _ _ _
    | intro _ _ _
    | intro _
    | (extract_lets +onlyGivenNames x; refine Kept.cut (t := x) ?_ ?_; (on_goal 1 => subst x); (on_goal 2 => (clear_value x; intro _)))
    | (extract_lets +onlyGivenNames x; clear_value x)
    | split
    | dsimp only
    | fail_if_no_progress (with_reducible apply Kept.parts))

theorem discardRead_kept (tag : Nat) (h : HRead) {z0 s : State} (hk : Kept z0 s) : Kept z0 (discardRead tag h s) := by
  unfold discardRead
  repeat' (first
    | with_reducible assumption
    | with_reducible apply incFld_kept
    | with_reducible apply updIo_kept
    | with_reducible apply Kept.ite
    | with_reducible apply Kept.foldl
    | with_reducible apply Kept.foldl_fst
    | intro _ _ _ _
    | intro _ _ _
    | intro _
    | (extract_lets +onlyGivenNames x; refine Kept.cut (t := x) ?_ ?_; (on_goal 1 => subst x); (on_goal 2 => (clear_value x; intro _)))
    | (extract_lets +onlyGivenNames x; clear_value x)
    | split
    | dsimp only
    | fail_if_no_progress (with_reducible apply Kept.parts))

theorem completion_kept (port tag : Nat) (r : HostRd) (act : State → State) {z0 s : State} (h_act : ∀ r t, Kept r t → Kept r (act t)) (hk : Kept z0 s) : Kept z0 (completion port tag r act s) := by
  unfold completion
  repeat' (first
    | with_reducible assumption
    | with_reducible apply h_act
    | with_reducible apply unexpected_kept
    | with_reducible apply pumpReads_kept
    | with_reducible apply updIo_kept
    | with_reducible apply discardRead_kept
    | with_reducible apply readEnded_kept
    | with_reducible apply sendReqs_kept
    | with_reducible apply Kept.ite
    | with_reducible apply Kept.foldl
    | with_reducible apply Kept.foldl_fst
    | intro _ _ _ _
    | intro _ _ _
    | intro _
    | (extract_lets +onlyGivenNames x; refine Kept.cut (t := x) ?_ ?_; (on_goal 1 => subst x); (on_goal 2 => (clear_value x; intro _)))
    | (extract_lets +onlyGivenNames x; clear_value x)
    | split
    | dsimp only
    | fail_if_no_progress (with_reducible apply Kept.parts))

theorem timeout_kept (tag : Nat) (act : State → State) {z0 s : State} (h_act : ∀ r t, Kept r t → Kept r (act t)) (hk : Kept z0 s) : Kept z0 (timeout tag act s) := by
  unfold timeout
  repeat' (first
    | with_reducible assumption
    | with_reducible apply h_act
    | with_reducible apply pumpReads_kept
    | with_reducible apply updIo_kept
    | with_reducible apply discardRead_kept
    | with_reducible apply reportTimeout_kept
    | with_reducible apply Kept.ite
    | with_reducible apply Kept.foldl
    | with_reducible apply Kept.foldl_fst
    | intro _ _ _ _
    | intro _ _ _
    | intro _
    | (extract_lets +onlyGivenNames x; refine Kept.cut (t := x) ?_ ?_; (on_goal 1 => subst x); (on_goal 2 => (clear_value x; intro _)))
    | (extract_lets +onlyGivenNames x; clear_value x)
    | split
    | dsimp only
    | fail_if_no_progress (with_reducible apply Kept.parts))

theorem ltrSend_kept (port : Nat) {z0 s : State} (hk : Kept z0 s) : Kept z0 (ltrSend port s) := by
  unfold ltrSend
  repeat' (first
    | with_reducible assumption
    | with_reducible apply emit_kept
    | with_reducible apply Kept.ite
    | with_reducible apply Kept.foldl
    | with_reducible apply Kept.foldl_fst
    | intro _ _ _ _
    | intro _ _ _
    | intro _
    | (extract_lets +onlyGivenNames x; refine Kept.cut (t := x) ?_ ?_; (on_goal 1 => subst x); (on_goal 2 => (clear_value x; intro _)))
    | (extract_lets +onlyGivenNames x; clear_value x)
    | split
    | dsimp only
    | fail_if_no_progress (with_reducible apply Kept.parts))

theorem ltrPort_kept (before : State) (port : Nat) {z0 s : State} (hk : Kept z0 s) : Kept z0 (ltrPort before port s) := by
  unfold ltrPort
  repeat' (first
    | with_reducible assumption
    | with_reducible apply emit_kept
    | with_reducible apply Kept.ite)

theorem ltrSync_kept (f : State → State) {z0 s : State} (h_f : ∀ r t, Kept r t → Kept r (f t)) (hk : Kept z0 s) : Kept z0 (ltrSync f s) := by
  unfold ltrSync
  repeat' (first
    | with_reducible assumption
    | with_reducible apply h_f
    | with_reducible apply ltrPort_kept)

theorem meterCmd_kept (c : Nat) (x : Cmd) {z0 s : State} (hk : Kept z0 s) : Kept z0 (meterCmd c x s) := by
  unfold meterCmd
  repeat' (first
    | with_reducible assumption
    | with_reducible apply add64_kept
    | with_reducible apply onlyIf_kept
    | with_reducible apply Kept.ite
    | with_reducible apply Kept.foldl
    | intro _ _ _ _
    | intro _ _ _)

theorem postEntry_kept (n : Nat) (st : Status) (detail result : Nat) {z0 s : State} (hk : Kept z0 s) : Kept z0 (postEntry n st detail result s) := by
  unfold postEntry
  repeat' (first
    | with_reducible assumption
    | with_reducible apply hostWrite_kept
    | with_reducible apply setFld_kept
    | with_reducible apply decFld_kept
    | with_reducible apply meterCmd_kept
    | with_reducible apply onlyIf_kept
    | with_reducible apply incFld_kept
    | with_reducible apply sketchCount_kept
    | with_reducible apply sketchHist_kept
    | with_reducible apply ringNotify_kept
    | with_reducible apply updIo_kept
    | with_reducible apply Kept.ite
    | with_reducible apply Kept.foldl
    | with_reducible apply Kept.foldl_fst
    | intro _ _ _ _
    | intro _ _ _
    | intro _
    | (extract_lets +onlyGivenNames x; refine Kept.cut (t := x) ?_ ?_; (on_goal 1 => subst x); (on_goal 2 => (clear_value x; intro _)))
    | (extract_lets +onlyGivenNames x; clear_value x)
    | split
    | dsimp only
    | fail_if_no_progress (with_reducible apply Kept.parts))

theorem endCmd_kept (n : Nat) (st : Status) (detail result : Nat) {z0 s : State} (hk : Kept z0 s) : Kept z0 (endCmd n st detail result s) := by
  unfold endCmd
  repeat' (first
    | with_reducible assumption
    | with_reducible apply updFn_kept
    | with_reducible apply updCmd_kept
    | with_reducible apply postEntry_kept
    | with_reducible apply Kept.ite
    | with_reducible apply Kept.foldl
    | with_reducible apply Kept.foldl_fst
    | intro _ _ _ _
    | intro _ _ _
    | intro _
    | (extract_lets +onlyGivenNames x; refine Kept.cut (t := x) ?_ ?_; (on_goal 1 => subst x); (on_goal 2 => (clear_value x; intro _)))
    | (extract_lets +onlyGivenNames x; clear_value x)
    | split
    | dsimp only
    | fail_if_no_progress (with_reducible apply Kept.parts))

theorem failAt_kept (n lba : Nat) (st : Status) {z0 s : State} (hk : Kept z0 s) : Kept z0 (failAt n lba st s) := by
  unfold failAt
  repeat' (first
    | with_reducible assumption
    | with_reducible apply updCmd_kept)

theorem failHost_kept (n lba : Nat) {z0 s : State} (hk : Kept z0 s) : Kept z0 (failHost n lba s) := by
  unfold failHost
  repeat' (first
    | with_reducible assumption
    | with_reducible apply updCmd_kept
    | with_reducible apply failAt_kept)

theorem finishIo_kept (n : Nat) {z0 s : State} (hk : Kept z0 s) : Kept z0 (finishIo n s) := by
  unfold finishIo
  repeat' (first
    | with_reducible assumption
    | with_reducible apply endCmd_kept
    | with_reducible apply Kept.ite
    | with_reducible apply Kept.foldl
    | intro _ _ _ _
    | intro _ _ _
    | intro _
    | (extract_lets +onlyGivenNames x; clear_value x)
    | split)

theorem partDone_kept (n : Nat) {z0 s : State} (hk : Kept z0 s) : Kept z0 (partDone n s) := by
  unfold partDone
  repeat' (first
    | with_reducible assumption
    | with_reducible apply updCmd_kept
    | with_reducible apply finishIo_kept
    | with_reducible apply Kept.ite
    | with_reducible apply Kept.foldl
    | intro _ _ _ _
    | intro _ _ _
    | intro _
    | (extract_lets +onlyGivenNames x; refine Kept.cut (t := x) ?_ ?_; (on_goal 1 => subst x); (on_goal 2 => (clear_value x; intro _)))
    | split)

theorem addParts_kept (n k : Nat) {z0 s : State} (hk : Kept z0 s) : Kept z0 (addParts n k s) := by
  unfold addParts
  repeat' (first
    | with_reducible assumption
    | with_reducible apply updCmd_kept)

theorem toHost_kept (n off : Nat) (bytes : List Byte) {z0 s : State} (hk : Kept z0 s) : Kept z0 (toHost n off bytes s) := by
  unfold toHost
  repeat' (first
    | with_reducible assumption
    | with_reducible apply hostWrite_kept
    | with_reducible apply Kept.ite
    | with_reducible apply Kept.foldl
    | with_reducible apply Kept.foldl_fst
    | intro _ _ _ _
    | intro _ _ _
    | intro _
    | split)

theorem fromHost_kept (n off len : Nat) (why : HPurpose) {z0 s : State} (hk : Kept z0 s) : Kept z0 (fromHost n off len why s) := by
  unfold fromHost
  repeat' (first
    | with_reducible assumption
    | with_reducible apply hostReadRuns_kept
    | with_reducible apply Kept.ite
    | with_reducible apply Kept.foldl
    | intro _ _ _ _
    | intro _ _ _
    | intro _
    | split)

end Sys2Proof.Machine
end

