-- ==== Sys2Proof/Laws/KeptLocks.lean ====
section
/-! SUPPORT. What the operations of Machine/Locks.lean keep. -/

namespace Sys2Proof.Machine

theorem putLock_kept (l : Lock) {z0 s : State} (hk : Kept z0 s) : Kept z0 (putLock l s) := by
  unfold putLock
  repeat' (first
    | with_reducible assumption
    | with_reducible apply updIo_kept)

theorem tidyLocks_kept  {z0 s : State} (hk : Kept z0 s) : Kept z0 (tidyLocks  s) := by
  unfold tidyLocks
  repeat' (first
    | with_reducible assumption
    | with_reducible apply updIo_kept
    | with_reducible apply Kept.ite
    | with_reducible apply Kept.foldl
    | with_reducible apply Kept.foldl_fst
    | intro _ _ _ _
    | intro _ _ _
    | intro _
    | (extract_lets +onlyGivenNames x; refine Kept.cut (t := x) ?_ ?_; (on_goal 1 => subst x); (on_goal 2 => (clear_value x; intro _)))
    | (extract_lets +onlyGivenNames x; clear_value x)
    | split
    | dsimp only
    | fail_if_no_progress (with_reducible apply Kept.parts))

theorem keepWaits_kept (f : WaitItem → Bool) {z0 s : State} (hk : Kept z0 s) : Kept z0 (keepWaits f s) := by
  unfold keepWaits
  repeat' (first
    | with_reducible assumption
    | with_reducible apply tidyLocks_kept
    | with_reducible apply updIo_kept
    | with_reducible apply Kept.ite
    | with_reducible apply Kept.foldl
    | with_reducible apply Kept.foldl_fst
    | intro _ _ _ _
    | intro _ _ _
    | intro _
    | (extract_lets +onlyGivenNames x; refine Kept.cut (t := x) ?_ ?_; (on_goal 1 => subst x); (on_goal 2 => (clear_value x; intro _)))
    | (extract_lets +onlyGivenNames x; clear_value x)
    | split
    | dsimp only
    | fail_if_no_progress (with_reducible apply Kept.parts))

theorem takeLock_kept (p sn : Nat) (m : LMode) {z0 s : State} (hk : Kept z0 s) : Kept z0 (takeLock p sn m s) := by
  unfold takeLock
  repeat' (first
    | with_reducible assumption
    | with_reducible apply hwmFld_kept
    | with_reducible apply putLock_kept)

theorem freeLock_kept (p sn : Nat) (m : LMode) {z0 s : State} (hk : Kept z0 s) : Kept z0 (freeLock p sn m s) := by
  unfold freeLock
  repeat' (first
    | with_reducible assumption
    | with_reducible apply putLock_kept
    | with_reducible apply Kept.ite
    | with_reducible apply Kept.foldl
    | intro _ _ _ _
    | intro _ _ _
    | intro _
    | split)

theorem pinStripe_kept (p sn : Nat) (up : Bool) {z0 s : State} (hk : Kept z0 s) : Kept z0 (pinStripe p sn up s) := by
  unfold pinStripe
  repeat' (first
    | with_reducible assumption
    | with_reducible apply putLock_kept)

theorem enqueueWait_kept (i : WaitItem) {z0 s : State} (hk : Kept z0 s) : Kept z0 (enqueueWait i s) := by
  unfold enqueueWait
  repeat' (first
    | with_reducible assumption
    | with_reducible apply updIo_kept
    | with_reducible apply hwmFld_kept
    | with_reducible apply Kept.ite
    | with_reducible apply Kept.foldl
    | with_reducible apply Kept.foldl_fst
    | intro _ _ _ _
    | intro _ _ _
    | intro _
    | (extract_lets +onlyGivenNames x; refine Kept.cut (t := x) ?_ ?_; (on_goal 1 => subst x); (on_goal 2 => (clear_value x; intro _)))
    | (extract_lets +onlyGivenNames x; clear_value x)
    | split
    | dsimp only
    | fail_if_no_progress (with_reducible apply Kept.parts))

theorem updEntry_kept (j : Nat) (f : JEntry → JEntry) {z0 s : State} (hk : Kept z0 s) : Kept z0 (updEntry j f s) := by
  unfold updEntry
  repeat' (first
    | with_reducible assumption
    | with_reducible apply updIo_kept
    | with_reducible apply Kept.ite
    | with_reducible apply Kept.foldl
    | with_reducible apply Kept.foldl_fst
    | intro _ _ _ _
    | intro _ _ _
    | intro _
    | (extract_lets +onlyGivenNames x; refine Kept.cut (t := x) ?_ ?_; (on_goal 1 => subst x); (on_goal 2 => (clear_value x; intro _)))
    | (extract_lets +onlyGivenNames x; clear_value x)
    | split
    | dsimp only
    | fail_if_no_progress (with_reducible apply Kept.parts))

theorem wakeFor_kept (avoid : Nat) {z0 s : State} (hk : Kept z0 s) : Kept z0 (wakeFor avoid s) := by
  unfold wakeFor
  repeat' (first
    | with_reducible assumption
    | with_reducible apply updIo_kept
    | with_reducible apply Kept.ite
    | with_reducible apply Kept.foldl
    | with_reducible apply Kept.foldl_fst
    | intro _ _ _ _
    | intro _ _ _
    | intro _
    | (extract_lets +onlyGivenNames x; refine Kept.cut (t := x) ?_ ?_; (on_goal 1 => subst x); (on_goal 2 => (clear_value x; intro _)))
    | (extract_lets +onlyGivenNames x; clear_value x)
    | split
    | dsimp only
    | fail_if_no_progress (with_reducible apply Kept.parts))

theorem wakePipes_kept  {z0 s : State} (hk : Kept z0 s) : Kept z0 (wakePipes  s) := by
  unfold wakePipes
  repeat' (first
    | with_reducible assumption
    | with_reducible apply wakeFor_kept
    | with_reducible apply Kept.ite
    | with_reducible apply Kept.foldl
    | with_reducible apply Kept.foldl_fst
    | intro _ _ _ _
    | intro _ _ _
    | intro _
    | (extract_lets +onlyGivenNames x; refine Kept.cut (t := x) ?_ ?_; (on_goal 1 => subst x); (on_goal 2 => (clear_value x; intro _)))
    | (extract_lets +onlyGivenNames x; clear_value x)
    | split
    | dsimp only
    | fail_if_no_progress (with_reducible apply Kept.parts))

theorem assignJob_kept (b : Nat) (r : JobRef) (maint : Bool) {z0 s : State} (hk : Kept z0 s) : Kept z0 (assignJob b r maint s) := by
  unfold assignJob
  repeat' (first
    | with_reducible assumption
    | with_reducible apply leaveIdle_kept
    | with_reducible apply updIo_kept
    | with_reducible apply wakePipes_kept)

theorem pipeSleep_kept (b : Nat) {z0 s : State} (hk : Kept z0 s) : Kept z0 (pipeSleep b s) := by
  unfold pipeSleep
  repeat' (first
    | with_reducible assumption
    | with_reducible apply setFld_kept
    | with_reducible apply Kept.ite)

theorem pipesSleep_kept  {z0 s : State} (hk : Kept z0 s) : Kept z0 (pipesSleep s) := by
  unfold pipesSleep
  repeat' (first
    | with_reducible assumption
    | with_reducible apply pipeSleep_kept
    | with_reducible apply Kept.ite
    | with_reducible apply Kept.foldl
    | intro _ _ _ _
    | intro _ _ _)

theorem katKick_kept (b : Nat) {z0 s : State} (hk : Kept z0 s) : Kept z0 (katKick b s) := by
  unfold katKick
  repeat' (first
    | with_reducible assumption
    | with_reducible apply setFld_kept
    | with_reducible apply Kept.ite
    | with_reducible apply Kept.foldl
    | with_reducible apply Kept.foldl_fst
    | intro _ _ _ _
    | intro _ _ _
    | intro _
    | (extract_lets +onlyGivenNames x; refine Kept.cut (t := x) ?_ ?_; (on_goal 1 => subst x); (on_goal 2 => (clear_value x; intro _)))
    | (extract_lets +onlyGivenNames x; clear_value x)
    | split
    | dsimp only
    | fail_if_no_progress (with_reducible apply Kept.parts))

theorem setJobPipe_kept (r : JobRef) (b avoid : Nat) {z0 s : State} (hk : Kept z0 s) : Kept z0 (setJobPipe r b avoid s) := by
  unfold setJobPipe
  repeat' (first
    | with_reducible assumption
    | with_reducible apply updIo_kept
    | with_reducible apply updEntry_kept
    | with_reducible apply Kept.ite
    | with_reducible apply Kept.foldl
    | with_reducible apply Kept.foldl_fst
    | intro _ _ _ _
    | intro _ _ _
    | intro _
    | (extract_lets +onlyGivenNames x; refine Kept.cut (t := x) ?_ ?_; (on_goal 1 => subst x); (on_goal 2 => (clear_value x; intro _)))
    | (extract_lets +onlyGivenNames x; clear_value x)
    | split
    | dsimp only
    | fail_if_no_progress (with_reducible apply Kept.parts))

theorem placeJobs_kept  {z0 s : State} (hk : Kept z0 s) : Kept z0 (placeJobs  s) := by
  unfold placeJobs
  repeat' (first
    | with_reducible assumption
    | with_reducible apply setJobPipe_kept
    | with_reducible apply Kept.ite
    | with_reducible apply Kept.foldl
    | with_reducible apply Kept.foldl_fst
    | intro _ _ _ _
    | intro _ _ _
    | intro _
    | (extract_lets +onlyGivenNames x; refine Kept.cut (t := x) ?_ ?_; (on_goal 1 => subst x); (on_goal 2 => (clear_value x; intro _)))
    | (extract_lets +onlyGivenNames x; clear_value x)
    | split
    | dsimp only
    | fail_if_no_progress (with_reducible apply Kept.parts))

theorem pipesSettle_kept  {z0 s : State} (hk : Kept z0 s) : Kept z0 (pipesSettle  s) := by
  unfold pipesSettle
  repeat' (first
    | with_reducible assumption
    | with_reducible apply pipesSleep_kept
    | with_reducible apply placeJobs_kept
    | with_reducible apply katKick_kept
    | with_reducible apply Kept.ite
    | with_reducible apply Kept.foldl
    | with_reducible apply Kept.foldl_fst
    | intro _ _ _ _
    | intro _ _ _
    | intro _
    | (extract_lets +onlyGivenNames x; refine Kept.cut (t := x) ?_ ?_; (on_goal 1 => subst x); (on_goal 2 => (clear_value x; intro _)))
    | (extract_lets +onlyGivenNames x; clear_value x)
    | split
    | dsimp only
    | fail_if_no_progress (with_reducible apply Kept.parts))

theorem dropJob_kept (r : JobRef) {z0 s : State} (hk : Kept z0 s) : Kept z0 (dropJob r s) := by
  unfold dropJob
  repeat' (first
    | with_reducible assumption
    | with_reducible apply pipesSettle_kept
    | with_reducible apply updIo_kept
    | with_reducible apply Kept.ite
    | with_reducible apply Kept.foldl
    | with_reducible apply Kept.foldl_fst
    | intro _ _ _ _
    | intro _ _ _
    | intro _
    | (extract_lets +onlyGivenNames x; refine Kept.cut (t := x) ?_ ?_; (on_goal 1 => subst x); (on_goal 2 => (clear_value x; intro _)))
    | (extract_lets +onlyGivenNames x; clear_value x)
    | split
    | dsimp only
    | fail_if_no_progress (with_reducible apply Kept.parts))

end Sys2Proof.Machine
end

