-- ==== Sys2Proof/Laws/KeptStripeOps.lean ====
section
/-! SUPPORT. What the operations of Machine/StripeOps.lean keep. -/

namespace Sys2Proof.Machine

theorem tagBatch_kept (p m sn pos : Nat) {z0 s : State} (hk : Kept z0 s) : Kept z0 (tagBatch p m sn pos s) := by
  unfold tagBatch
  repeat' (first
    | with_reducible assumption
    | with_reducible apply memberReq_kept
    | with_reducible apply Kept.ite
    | with_reducible apply Kept.foldl
    | with_reducible apply Kept.foldl_fst
    | intro _ _ _ _
    | intro _ _ _
    | intro _
    | (extract_lets +onlyGivenNames x; refine Kept.cut (t := x) ?_ ?_; (on_goal 1 => subst x); (on_goal 2 => (clear_value x; intro _)))
    | (extract_lets +onlyGivenNames x; clear_value x)
    | split
    | dsimp only
    | fail_if_no_progress (with_reducible apply Kept.parts))

theorem readPos_kept (p sn pos mem : Nat) (blks : List Nat) (why : Nat → Purpose) {z0 s : State} (hk : Kept z0 s) : Kept z0 (readPos p sn pos mem blks why s) := by
  unfold readPos
  repeat' (first
    | with_reducible assumption
    | with_reducible apply tagBatch_kept
    | with_reducible apply memberReq_kept
    | with_reducible apply Kept.ite
    | with_reducible apply Kept.foldl
    | with_reducible apply Kept.foldl_fst
    | intro _ _ _ _
    | intro _ _ _
    | intro _
    | (extract_lets +onlyGivenNames x; refine Kept.cut (t := x) ?_ ?_; (on_goal 1 => subst x); (on_goal 2 => (clear_value x; intro _)))
    | (extract_lets +onlyGivenNames x; clear_value x)
    | split
    | dsimp only
    | fail_if_no_progress (with_reducible apply Kept.parts))

theorem dropTagCache_kept (p : Nat) (f : Nat → Bool) {z0 s : State} (hk : Kept z0 s) : Kept z0 (dropTagCache p f s) := by
  unfold dropTagCache
  repeat' (first
    | with_reducible assumption
    | with_reducible apply updIo_kept
    | with_reducible apply Kept.ite
    | with_reducible apply Kept.foldl
    | with_reducible apply Kept.foldl_fst
    | intro _ _ _ _
    | intro _ _ _
    | intro _
    | (extract_lets +onlyGivenNames x; refine Kept.cut (t := x) ?_ ?_; (on_goal 1 => subst x); (on_goal 2 => (clear_value x; intro _)))
    | (extract_lets +onlyGivenNames x; clear_value x)
    | split
    | dsimp only
    | fail_if_no_progress (with_reducible apply Kept.parts))

theorem checkTags_kept (c : NvCmd) (blks : List TBlk) {z0 s : State} (hk : Kept z0 s) : Kept z0 (checkTags c blks s).1 := by
  unfold checkTags
  repeat' (first
    | with_reducible assumption
    | with_reducible apply endNvs_kept
    | with_reducible apply updIo_kept
    | with_reducible apply Kept.ite
    | with_reducible apply Kept.foldl
    | with_reducible apply Kept.foldl_fst
    | intro _ _ _ _
    | intro _ _ _
    | intro _
    | (extract_lets +onlyGivenNames x; refine Kept.cut (t := x) ?_ ?_; (on_goal 1 => subst x); (on_goal 2 => (clear_value x; intro _)))
    | (extract_lets +onlyGivenNames x; clear_value x)
    | split
    | dsimp only
    | fail_if_no_progress (with_reducible apply Kept.parts))

theorem updSop_kept (id : Nat) (f : Sop → Sop) {z0 s : State} (hk : Kept z0 s) : Kept z0 (updSop id f s) := by
  unfold updSop
  repeat' (first
    | with_reducible assumption
    | with_reducible apply updIo_kept
    | with_reducible apply Kept.ite
    | with_reducible apply Kept.ident
    | with_reducible apply Kept.foldl
    | intro _ _ _ _
    | intro _ _ _
    | intro _
    | split)

theorem sopRead_kept (id : Nat) {z0 s : State} (hk : Kept z0 s) : Kept z0 (sopRead id s) := by
  unfold sopRead
  repeat' (first
    | with_reducible assumption
    | with_reducible apply updSop_kept
    | with_reducible apply readPos_kept
    | with_reducible apply Kept.ite
    | with_reducible apply Kept.ident
    | with_reducible apply Kept.foldl
    | with_reducible apply Kept.foldl_fst
    | intro _ _ _ _
    | intro _ _ _
    | intro _
    | (extract_lets +onlyGivenNames x; refine Kept.cut (t := x) ?_ ?_; (on_goal 1 => subst x); (on_goal 2 => (clear_value x; intro _)))
    | (extract_lets +onlyGivenNames x; clear_value x)
    | split
    | dsimp only
    | fail_if_no_progress (with_reducible apply Kept.parts))

theorem sopLocked_kept (id : Nat) {z0 s : State} (hk : Kept z0 s) : Kept z0 (sopLocked id s) := by
  unfold sopLocked
  repeat' (first
    | with_reducible assumption
    | with_reducible apply sopRead_kept
    | with_reducible apply assignJob_kept
    | with_reducible apply updSop_kept
    | with_reducible apply enqueueWait_kept
    | with_reducible apply wakePipes_kept
    | with_reducible apply Kept.ite
    | with_reducible apply Kept.ident
    | with_reducible apply Kept.foldl
    | with_reducible apply Kept.foldl_fst
    | intro _ _ _ _
    | intro _ _ _
    | intro _
    | (extract_lets +onlyGivenNames x; refine Kept.cut (t := x) ?_ ?_; (on_goal 1 => subst x); (on_goal 2 => (clear_value x; intro _)))
    | (extract_lets +onlyGivenNames x; clear_value x)
    | split
    | dsimp only
    | fail_if_no_progress (with_reducible apply Kept.parts))

theorem newSop_kept (kind : SopKind) (p sn first last chg : Nat) {z0 s : State} (hk : Kept z0 s) : Kept z0 (newSop kind p sn first last chg s) := by
  unfold newSop
  repeat' (first
    | with_reducible assumption
    | with_reducible apply charge_kept
    | with_reducible apply updIo_kept
    | with_reducible apply sopLocked_kept
    | with_reducible apply takeLock_kept
    | with_reducible apply enqueueWait_kept
    | with_reducible apply Kept.ite
    | with_reducible apply Kept.ident
    | with_reducible apply Kept.foldl
    | with_reducible apply Kept.foldl_fst
    | intro _ _ _ _
    | intro _ _ _
    | intro _
    | (extract_lets +onlyGivenNames x; refine Kept.cut (t := x) ?_ ?_; (on_goal 1 => subst x); (on_goal 2 => (clear_value x; intro _)))
    | (extract_lets +onlyGivenNames x; clear_value x)
    | split
    | dsimp only
    | fail_if_no_progress (with_reducible apply Kept.parts))

end Sys2Proof.Machine
end

