-- ==== Sys2Proof/Laws/KeptJournal.lean ====
section
/-! SUPPORT. What the operations of Machine/Journal.lean keep. -/

namespace Sys2Proof.Machine

theorem mirrorAs_kept (j : Nat) (e : JEntry) (code : Nat) {z0 s : State} (hk : Kept z0 s) : Kept z0 (mirrorAs j e code s) := by
  unfold mirrorAs
  repeat' (first
    | with_reducible assumption
    | with_reducible apply sendNoted_kept
    | with_reducible apply Kept.ite
    | with_reducible apply Kept.foldl
    | intro _ _ _ _
    | intro _ _ _
    | intro _
    | split)

theorem mirrorEntry_kept (j : Nat) {z0 s : State} (hk : Kept z0 s) : Kept z0 (mirrorEntry j s) := by
  unfold mirrorEntry
  repeat' (first
    | with_reducible assumption
    | with_reducible apply mirrorAs_kept
    | with_reducible apply Kept.ite
    | with_reducible apply Kept.foldl
    | intro _ _ _ _
    | intro _ _ _
    | intro _
    | split)

theorem setJState_kept (j : Nat) (st : JState) {z0 s : State} (hk : Kept z0 s) : Kept z0 (setJState j st s) := by
  unfold setJState
  repeat' (first
    | with_reducible assumption
    | with_reducible apply updEntry_kept
    | with_reducible apply mirrorEntry_kept)

theorem updJp_kept (p : Nat) (f : JPair → JPair) {z0 s : State} (hk : Kept z0 s) : Kept z0 (updJp p f s) := by
  unfold updJp
  repeat' (first
    | with_reducible assumption
    | with_reducible apply updPlate_kept)

theorem writeRecords_kept (p blk : Nat) {z0 s : State} (hk : Kept z0 s) : Kept z0 (writeRecords p blk s) := by
  unfold writeRecords
  repeat' (first
    | with_reducible assumption
    | with_reducible apply updJp_kept
    | with_reducible apply memberReq_kept
    | with_reducible apply updEntry_kept
    | with_reducible apply Kept.ite
    | with_reducible apply Kept.foldl
    | with_reducible apply Kept.foldl_fst
    | intro _ _ _ _
    | intro _ _ _
    | intro _
    | (extract_lets +onlyGivenNames x; refine Kept.cut (t := x) ?_ ?_; (on_goal 1 => subst x); (on_goal 2 => (clear_value x; intro _)))
    | (extract_lets +onlyGivenNames x; clear_value x)
    | split
    | dsimp only
    | fail_if_no_progress (with_reducible apply Kept.parts))

theorem logEntry_kept (m : Nat) (x : Plate) (e : JEntry) (why : Purpose) {z0 s : State} (hk : Kept z0 s) : Kept z0 (logEntry m x e why s) := by
  unfold logEntry
  repeat' (first
    | with_reducible assumption
    | with_reducible apply memberReq_kept
    | with_reducible apply Kept.ite
    | with_reducible apply Kept.foldl
    | with_reducible apply Kept.foldl_fst
    | intro _ _ _ _
    | intro _ _ _
    | intro _
    | (extract_lets +onlyGivenNames x; refine Kept.cut (t := x) ?_ ?_; (on_goal 1 => subst x); (on_goal 2 => (clear_value x; intro _)))
    | (extract_lets +onlyGivenNames x; clear_value x)
    | split
    | dsimp only
    | fail_if_no_progress (with_reducible apply Kept.parts))

theorem remirHeader_kept (p m : Nat) {z0 s : State} (hk : Kept z0 s) : Kept z0 (remirHeader p m s) := by
  unfold remirHeader
  repeat' (first
    | with_reducible assumption
    | with_reducible apply memberReq_kept
    | with_reducible apply updJp_kept
    | with_reducible apply Kept.ite
    | with_reducible apply Kept.foldl
    | with_reducible apply Kept.foldl_fst
    | intro _ _ _ _
    | intro _ _ _
    | intro _
    | (extract_lets +onlyGivenNames x; refine Kept.cut (t := x) ?_ ?_; (on_goal 1 => subst x); (on_goal 2 => (clear_value x; intro _)))
    | (extract_lets +onlyGivenNames x; clear_value x)
    | split
    | dsimp only
    | fail_if_no_progress (with_reducible apply Kept.parts))

theorem startRemirror_kept (p dst : Nat) {z0 s : State} (hk : Kept z0 s) : Kept z0 (startRemirror p dst s) := by
  unfold startRemirror
  repeat' (first
    | with_reducible assumption
    | with_reducible apply updJp_kept
    | with_reducible apply memberReq_kept
    | with_reducible apply logEntry_kept
    | with_reducible apply remirHeader_kept
    | with_reducible apply Kept.ite
    | with_reducible apply Kept.foldl
    | with_reducible apply Kept.foldl_fst
    | intro _ _ _ _
    | intro _ _ _
    | intro _
    | (extract_lets +onlyGivenNames x; refine Kept.cut (t := x) ?_ ?_; (on_goal 1 => subst x); (on_goal 2 => (clear_value x; intro _)))
    | (extract_lets +onlyGivenNames x; clear_value x)
    | split
    | dsimp only
    | fail_if_no_progress (with_reducible apply Kept.parts))

theorem seekPartner_kept (p : Nat) {z0 s : State} (hk : Kept z0 s) : Kept z0 (seekPartner p s) := by
  unfold seekPartner
  repeat' (first
    | with_reducible assumption
    | with_reducible apply startRemirror_kept
    | with_reducible apply Kept.ite
    | with_reducible apply Kept.foldl
    | with_reducible apply Kept.foldl_fst
    | intro _ _ _ _
    | intro _ _ _
    | intro _
    | (extract_lets +onlyGivenNames x; refine Kept.cut (t := x) ?_ ?_; (on_goal 1 => subst x); (on_goal 2 => (clear_value x; intro _)))
    | (extract_lets +onlyGivenNames x; clear_value x)
    | split
    | dsimp only
    | fail_if_no_progress (with_reducible apply Kept.parts))

theorem startPair_kept (p : Nat) {z0 s : State} (hk : Kept z0 s) : Kept z0 (startPair p s) := by
  unfold startPair
  repeat' (first
    | with_reducible assumption
    | with_reducible apply updJp_kept
    | with_reducible apply memberReq_kept
    | with_reducible apply Kept.ite
    | with_reducible apply Kept.foldl
    | with_reducible apply Kept.foldl_fst
    | intro _ _ _ _
    | intro _ _ _
    | intro _
    | (extract_lets +onlyGivenNames x; refine Kept.cut (t := x) ?_ ?_; (on_goal 1 => subst x); (on_goal 2 => (clear_value x; intro _)))
    | (extract_lets +onlyGivenNames x; clear_value x)
    | split
    | dsimp only
    | fail_if_no_progress (with_reducible apply Kept.parts))

theorem jmLost_kept (p m : Nat) {z0 s : State} (hk : Kept z0 s) : Kept z0 (jmLost p m s) := by
  unfold jmLost
  repeat' (first
    | with_reducible assumption
    | with_reducible apply updJp_kept
    | with_reducible apply startRemirror_kept
    | with_reducible apply setEvt_kept
    | with_reducible apply startPair_kept
    | with_reducible apply Kept.ite
    | with_reducible apply Kept.foldl
    | with_reducible apply Kept.foldl_fst
    | intro _ _ _ _
    | intro _ _ _
    | intro _
    | (extract_lets +onlyGivenNames x; refine Kept.cut (t := x) ?_ ?_; (on_goal 1 => subst x); (on_goal 2 => (clear_value x; intro _)))
    | (extract_lets +onlyGivenNames x; clear_value x)
    | split
    | dsimp only
    | fail_if_no_progress (with_reducible apply Kept.parts))

end Sys2Proof.Machine
end

