-- ==== Sys2Proof/Laws/KeptStrips.lean ====
section
/-! SUPPORT. What the operations of Machine/Strips.lean keep. -/

namespace Sys2Proof.Machine

theorem updTagBuf_kept (key : Nat) (f : TagBuf → TagBuf) {z0 s : State} (hk : Kept z0 s) : Kept z0 (updTagBuf key f s) := by
  unfold updTagBuf
  repeat' (first
    | with_reducible assumption
    | with_reducible apply updIo_kept
    | with_reducible apply Kept.ite
    | with_reducible apply Kept.foldl
    | with_reducible apply Kept.foldl_fst
    | intro _ _ _ _
    | intro _ _ _
    | intro _
    | (extract_lets +onlyGivenNames x; refine Kept.cut (t := x) ?_ ?_; (on_goal 1 => subst x); (on_goal 2 => (clear_value x; intro _)))
    | (extract_lets +onlyGivenNames x; clear_value x)
    | split
    | dsimp only
    | fail_if_no_progress (with_reducible apply Kept.parts))

theorem tagWrite_kept (key : Nat) {z0 s : State} (hk : Kept z0 s) : Kept z0 (tagWrite key s) := by
  unfold tagWrite
  repeat' (first
    | with_reducible assumption
    | with_reducible apply updIo_kept
    | with_reducible apply updTagBuf_kept
    | with_reducible apply memberReq_kept
    | with_reducible apply Kept.ite
    | with_reducible apply Kept.foldl
    | with_reducible apply Kept.foldl_fst
    | intro _ _ _ _
    | intro _ _ _
    | intro _
    | (extract_lets +onlyGivenNames x; refine Kept.cut (t := x) ?_ ?_; (on_goal 1 => subst x); (on_goal 2 => (clear_value x; intro _)))
    | (extract_lets +onlyGivenNames x; clear_value x)
    | split
    | dsimp only
    | fail_if_no_progress (with_reducible apply Kept.parts))

theorem tagDue_kept (p m row blk0 : Nat) (tags : List Nat) (who : Bool × Nat × Nat) {z0 s : State} (hk : Kept z0 s) : Kept z0 (tagDue p m row blk0 tags who s) := by
  unfold tagDue
  repeat' (first
    | with_reducible assumption
    | with_reducible apply updIo_kept
    | with_reducible apply memberReq_kept
    | with_reducible apply tagWrite_kept
    | with_reducible apply Kept.ite
    | with_reducible apply Kept.foldl
    | with_reducible apply Kept.foldl_fst
    | intro _ _ _ _
    | intro _ _ _
    | intro _
    | (extract_lets +onlyGivenNames x; refine Kept.cut (t := x) ?_ ?_; (on_goal 1 => subst x); (on_goal 2 => (clear_value x; intro _)))
    | (extract_lets +onlyGivenNames x; clear_value x)
    | split
    | dsimp only
    | fail_if_no_progress (with_reducible apply Kept.parts))

theorem setTagBit_kept (who : Bool × Nat × Nat) {z0 s : State} (hk : Kept z0 s) : Kept z0 (setTagBit who s) := by
  unfold setTagBit
  repeat' (first
    | with_reducible assumption
    | with_reducible apply mirrorEntry_kept
    | with_reducible apply updEntry_kept
    | with_reducible apply Kept.ite
    | with_reducible apply Kept.foldl
    | with_reducible apply Kept.foldl_fst
    | intro _ _ _ _
    | intro _ _ _
    | intro _
    | (extract_lets +onlyGivenNames x; refine Kept.cut (t := x) ?_ ?_; (on_goal 1 => subst x); (on_goal 2 => (clear_value x; intro _)))
    | (extract_lets +onlyGivenNames x; clear_value x)
    | split
    | dsimp only
    | fail_if_no_progress (with_reducible apply Kept.parts))

theorem writeTags_kept (j pos : Nat) {z0 s : State} (hk : Kept z0 s) : Kept z0 (writeTags j pos s) := by
  unfold writeTags
  repeat' (first
    | with_reducible assumption
    | with_reducible apply tagDue_kept
    | with_reducible apply Kept.ite
    | with_reducible apply Kept.foldl
    | with_reducible apply Kept.foldl_fst
    | intro _ _ _ _
    | intro _ _ _
    | intro _
    | (extract_lets +onlyGivenNames x; refine Kept.cut (t := x) ?_ ?_; (on_goal 1 => subst x); (on_goal 2 => (clear_value x; intro _)))
    | (extract_lets +onlyGivenNames x; clear_value x)
    | split
    | dsimp only
    | fail_if_no_progress (with_reducible apply Kept.parts))

theorem stripDone_kept (j pos : Nat) {z0 s : State} (hk : Kept z0 s) : Kept z0 (stripDone j pos s) := by
  unfold stripDone
  repeat' (first
    | with_reducible assumption
    | with_reducible apply writeTags_kept
    | with_reducible apply mirrorEntry_kept
    | with_reducible apply updEntry_kept
    | with_reducible apply Kept.ite
    | with_reducible apply Kept.foldl
    | with_reducible apply Kept.foldl_fst
    | intro _ _ _ _
    | intro _ _ _
    | intro _
    | (extract_lets +onlyGivenNames x; refine Kept.cut (t := x) ?_ ?_; (on_goal 1 => subst x); (on_goal 2 => (clear_value x; intro _)))
    | (extract_lets +onlyGivenNames x; clear_value x)
    | split
    | dsimp only
    | fail_if_no_progress (with_reducible apply Kept.parts))

theorem entryGoesOn_kept (j : Nat) {z0 s : State} (hk : Kept z0 s) : Kept z0 (entryGoesOn j s) := by
  unfold entryGoesOn
  repeat' (first
    | with_reducible assumption
    | with_reducible apply setTagBit_kept
    | with_reducible apply stripDone_kept
    | with_reducible apply Kept.ite
    | with_reducible apply Kept.foldl
    | with_reducible apply Kept.foldl_fst
    | intro _ _ _ _
    | intro _ _ _
    | intro _
    | (extract_lets +onlyGivenNames x; refine Kept.cut (t := x) ?_ ?_; (on_goal 1 => subst x); (on_goal 2 => (clear_value x; intro _)))
    | (extract_lets +onlyGivenNames x; clear_value x)
    | split
    | dsimp only
    | fail_if_no_progress (with_reducible apply Kept.parts))

end Sys2Proof.Machine
end

