-- ==== Sys2Proof/Laws/KeptMembers.lean ====
section
/-! SUPPORT. What the operations of Machine/Members.lean keep. -/

namespace Sys2Proof.Machine

theorem plEvt_kept (p bit sev : Nat) {z0 s : State} (hk : Kept z0 s) : Kept z0 (plEvt p bit sev s) := by
  unfold plEvt
  repeat' (first
    | with_reducible assumption
    | with_reducible apply setEvt_kept
    | with_reducible apply sketchEvt_kept)

theorem startLabel_kept (p : Nat) {z0 s : State} (hk : Kept z0 s) : Kept z0 (startLabel p s) := by
  unfold startLabel
  repeat' (first
    | with_reducible assumption
    | with_reducible apply updPlate_kept
    | with_reducible apply onlyIf_kept
    | with_reducible apply plEvt_kept
    | with_reducible apply memberReq_kept
    | with_reducible apply Kept.ite
    | with_reducible apply Kept.foldl
    | with_reducible apply Kept.foldl_fst
    | intro _ _ _ _
    | intro _ _ _
    | intro _
    | (extract_lets +onlyGivenNames x; refine Kept.cut (t := x) ?_ ?_; (on_goal 1 => subst x); (on_goal 2 => (clear_value x; intro _)))
    | (extract_lets +onlyGivenNames x; clear_value x)
    | split
    | dsimp only
    | fail_if_no_progress (with_reducible apply Kept.parts))

theorem joinPair_kept (p : Nat) {z0 s : State} (hk : Kept z0 s) : Kept z0 (joinPair p s) := by
  unfold joinPair
  repeat' (first
    | with_reducible assumption
    | with_reducible apply startLabel_kept
    | with_reducible apply startPair_kept
    | with_reducible apply Kept.ite
    | with_reducible apply Kept.foldl
    | with_reducible apply Kept.foldl_fst
    | intro _ _ _ _
    | intro _ _ _
    | intro _
    | (extract_lets +onlyGivenNames x; refine Kept.cut (t := x) ?_ ?_; (on_goal 1 => subst x); (on_goal 2 => (clear_value x; intro _)))
    | (extract_lets +onlyGivenNames x; clear_value x)
    | split
    | dsimp only
    | fail_if_no_progress (with_reducible apply Kept.parts))

theorem cycleSync_kept (p : Nat) {z0 s : State} (hk : Kept z0 s) : Kept z0 (cycleSync p s) := by
  unfold cycleSync
  repeat' (first
    | with_reducible assumption
    | with_reducible apply updPlate_kept
    | with_reducible apply Kept.ite
    | with_reducible apply Kept.foldl
    | with_reducible apply Kept.foldl_fst
    | intro _ _ _ _
    | intro _ _ _
    | intro _
    | (extract_lets +onlyGivenNames x; refine Kept.cut (t := x) ?_ ?_; (on_goal 1 => subst x); (on_goal 2 => (clear_value x; intro _)))
    | (extract_lets +onlyGivenNames x; clear_value x)
    | split
    | dsimp only
    | fail_if_no_progress (with_reducible apply Kept.parts))

theorem cyclesSync_kept  {z0 s : State} (hk : Kept z0 s) : Kept z0 (cyclesSync s) := by
  unfold cyclesSync
  repeat' (first
    | with_reducible assumption
    | with_reducible apply cycleSync_kept
    | with_reducible apply Kept.ite
    | with_reducible apply Kept.foldl
    | intro _ _ _ _
    | intro _ _ _)

theorem refreshPlate_kept (p : Nat) {z0 s : State} (hk : Kept z0 s) : Kept z0 (refreshPlate p s) := by
  unfold refreshPlate
  repeat' (first
    | with_reducible assumption
    | with_reducible apply updPlate_kept
    | with_reducible apply startLabel_kept
    | with_reducible apply cycleSync_kept
    | with_reducible apply Kept.ite
    | with_reducible apply Kept.foldl
    | intro _ _ _ _
    | intro _ _ _
    | intro _
    | split)

theorem dropNv_kept (f : NvCmd → Bool) {z0 s : State} (hk : Kept z0 s) : Kept z0 (dropNv f s) := by
  unfold dropNv
  repeat' (first
    | with_reducible assumption
    | with_reducible apply endNvs_kept
    | with_reducible apply Kept.ite
    | with_reducible apply Kept.foldl
    | with_reducible apply Kept.foldl_fst
    | intro _ _ _ _
    | intro _ _ _
    | intro _
    | (extract_lets +onlyGivenNames x; refine Kept.cut (t := x) ?_ ?_; (on_goal 1 => subst x); (on_goal 2 => (clear_value x; intro _)))
    | (extract_lets +onlyGivenNames x; clear_value x)
    | split
    | dsimp only
    | fail_if_no_progress (with_reducible apply Kept.parts))

theorem issueOld_kept (j : Nat) (x : Plate) (e : JEntry) (needs : List (Nat × List Nat)) {z0 s : State} (hk : Kept z0 s) : Kept z0 (issueOld j x e needs s) := by
  unfold issueOld
  repeat' (first
    | with_reducible assumption
    | with_reducible apply readPos_kept
    | with_reducible apply Kept.ite
    | with_reducible apply Kept.foldl
    | with_reducible apply Kept.foldl_fst
    | intro _ _ _ _
    | intro _ _ _
    | intro _
    | (extract_lets +onlyGivenNames x; refine Kept.cut (t := x) ?_ ?_; (on_goal 1 => subst x); (on_goal 2 => (clear_value x; intro _)))
    | (extract_lets +onlyGivenNames x; clear_value x)
    | split
    | dsimp only
    | fail_if_no_progress (with_reducible apply Kept.parts))

theorem forceRecon_kept (j : Nat) {z0 s : State} (hk : Kept z0 s) : Kept z0 (forceRecon j s) := by
  unfold forceRecon
  repeat' (first
    | with_reducible assumption
    | with_reducible apply updEntry_kept
    | with_reducible apply dropNv_kept
    | with_reducible apply issueOld_kept
    | with_reducible apply Kept.ite
    | with_reducible apply Kept.foldl
    | intro _ _ _ _
    | intro _ _ _
    | intro _
    | (extract_lets +onlyGivenNames x; refine Kept.cut (t := x) ?_ ?_; (on_goal 1 => subst x); (on_goal 2 => (clear_value x; intro _)))
    | (extract_lets +onlyGivenNames x; clear_value x)
    | split)

theorem startOld_kept (j : Nat) (suspect : Bool) {z0 s : State} (hk : Kept z0 s) : Kept z0 (startOld j suspect s) := by
  unfold startOld
  repeat' (first
    | with_reducible assumption
    | with_reducible apply forceRecon_kept
    | with_reducible apply issueOld_kept
    | with_reducible apply updEntry_kept
    | with_reducible apply Kept.ite
    | with_reducible apply Kept.foldl
    | with_reducible apply Kept.foldl_fst
    | intro _ _ _ _
    | intro _ _ _
    | intro _
    | (extract_lets +onlyGivenNames x; refine Kept.cut (t := x) ?_ ?_; (on_goal 1 => subst x); (on_goal 2 => (clear_value x; intro _)))
    | (extract_lets +onlyGivenNames x; clear_value x)
    | split
    | dsimp only
    | fail_if_no_progress (with_reducible apply Kept.parts))

theorem sopEnd_kept (id : Nat) {z0 s : State} (hk : Kept z0 s) : Kept z0 (sopEnd id s) := by
  unfold sopEnd
  repeat' (first
    | with_reducible assumption
    | with_reducible apply freeLock_kept
    | with_reducible apply dropJob_kept
    | with_reducible apply updIo_kept
    | with_reducible apply onlyIf_kept
    | with_reducible apply plEvt_kept
    | with_reducible apply Kept.ite
    | with_reducible apply Kept.ident
    | with_reducible apply Kept.foldl
    | with_reducible apply Kept.foldl_fst
    | intro _ _ _ _
    | intro _ _ _
    | intro _
    | (extract_lets +onlyGivenNames x; refine Kept.cut (t := x) ?_ ?_; (on_goal 1 => subst x); (on_goal 2 => (clear_value x; intro _)))
    | (extract_lets +onlyGivenNames x; clear_value x)
    | split
    | dsimp only
    | fail_if_no_progress (with_reducible apply Kept.parts))

theorem proofEnd_kept (id : Nat) {z0 s : State} (hk : Kept z0 s) : Kept z0 (proofEnd id s) := by
  unfold proofEnd
  repeat' (first
    | with_reducible assumption
    | with_reducible apply sopEnd_kept
    | with_reducible apply add64_kept
    | with_reducible apply sketchEvt_kept
    | with_reducible apply setEvt_kept
    | with_reducible apply updPlate_kept
    | with_reducible apply cycleSync_kept
    | with_reducible apply Kept.ite
    | with_reducible apply Kept.ident
    | with_reducible apply Kept.foldl
    | with_reducible apply Kept.foldl_fst
    | intro _ _ _ _
    | intro _ _ _
    | intro _
    | (extract_lets +onlyGivenNames x; refine Kept.cut (t := x) ?_ ?_; (on_goal 1 => subst x); (on_goal 2 => (clear_value x; intro _)))
    | (extract_lets +onlyGivenNames x; clear_value x)
    | split
    | dsimp only
    | fail_if_no_progress (with_reducible apply Kept.parts))

theorem sopCheck_kept (id : Nat) {z0 s : State} (hk : Kept z0 s) : Kept z0 (sopCheck id s) := by
  unfold sopCheck
  repeat' (first
    | with_reducible assumption
    | with_reducible apply sopEnd_kept
    | with_reducible apply proofEnd_kept
    | with_reducible apply Kept.ite
    | with_reducible apply Kept.ident
    | with_reducible apply Kept.foldl
    | with_reducible apply Kept.foldl_fst
    | intro _ _ _ _
    | intro _ _ _
    | intro _
    | (extract_lets +onlyGivenNames x; refine Kept.cut (t := x) ?_ ?_; (on_goal 1 => subst x); (on_goal 2 => (clear_value x; intro _)))
    | (extract_lets +onlyGivenNames x; clear_value x)
    | split
    | dsimp only
    | fail_if_no_progress (with_reducible apply Kept.parts))

theorem dropSopNv_kept (id : Nat) {z0 s : State} (hk : Kept z0 s) : Kept z0 (dropSopNv id s) := by
  unfold dropSopNv
  repeat' (first
    | with_reducible assumption
    | with_reducible apply dropNv_kept
    | with_reducible apply Kept.ite
    | with_reducible apply Kept.ident
    | with_reducible apply Kept.foldl
    | with_reducible apply Kept.foldl_fst
    | intro _ _ _ _
    | intro _ _ _
    | intro _
    | (extract_lets +onlyGivenNames x; refine Kept.cut (t := x) ?_ ?_; (on_goal 1 => subst x); (on_goal 2 => (clear_value x; intro _)))
    | (extract_lets +onlyGivenNames x; clear_value x)
    | split
    | dsimp only
    | fail_if_no_progress (with_reducible apply Kept.parts))

theorem restartSop_kept (id : Nat) {z0 s : State} (hk : Kept z0 s) : Kept z0 (restartSop id s) := by
  unfold restartSop
  repeat' (first
    | with_reducible assumption
    | with_reducible apply sopRead_kept
    | with_reducible apply dropSopNv_kept
    | with_reducible apply sopLocked_kept
    | with_reducible apply Kept.ite
    | with_reducible apply Kept.ident
    | with_reducible apply Kept.foldl
    | with_reducible apply Kept.foldl_fst
    | intro _ _ _ _
    | intro _ _ _
    | intro _
    | (extract_lets +onlyGivenNames x; refine Kept.cut (t := x) ?_ ?_; (on_goal 1 => subst x); (on_goal 2 => (clear_value x; intro _)))
    | (extract_lets +onlyGivenNames x; clear_value x)
    | split
    | dsimp only
    | fail_if_no_progress (with_reducible apply Kept.parts))

theorem sopLoses_kept (id : Nat) {z0 s : State} (hk : Kept z0 s) : Kept z0 (sopLoses id s) := by
  unfold sopLoses
  repeat' (first
    | with_reducible assumption
    | with_reducible apply sopCheck_kept
    | with_reducible apply restartSop_kept
    | with_reducible apply Kept.ite
    | with_reducible apply Kept.ident
    | with_reducible apply Kept.foldl
    | with_reducible apply Kept.foldl_fst
    | intro _ _ _ _
    | intro _ _ _
    | intro _
    | (extract_lets +onlyGivenNames x; refine Kept.cut (t := x) ?_ ?_; (on_goal 1 => subst x); (on_goal 2 => (clear_value x; intro _)))
    | (extract_lets +onlyGivenNames x; clear_value x)
    | split
    | dsimp only
    | fail_if_no_progress (with_reducible apply Kept.parts))

theorem reconRead_kept (c : NvCmd) (cmd off : Nat) {z0 s : State} (hk : Kept z0 s) : Kept z0 (reconRead c cmd off s) := by
  unfold reconRead
  repeat' (first
    | with_reducible assumption
    | with_reducible apply newSop_kept
    | with_reducible apply Kept.ite
    | with_reducible apply Kept.foldl
    | intro _ _ _ _
    | intro _ _ _
    | intro _
    | split)

theorem redirect_kept (id : Nat) (c : NvCmd) {z0 s : State} (hk : Kept z0 s) : Kept z0 (redirect id c s) := by
  unfold redirect
  repeat' (first
    | with_reducible assumption
    | with_reducible apply endNv_kept
    | with_reducible apply reconRead_kept
    | with_reducible apply forceRecon_kept
    | with_reducible apply updPlate_kept
    | with_reducible apply Kept.ite
    | with_reducible apply Kept.ident
    | with_reducible apply Kept.foldl
    | with_reducible apply Kept.foldl_fst
    | intro _ _ _ _
    | intro _ _ _
    | intro _
    | (extract_lets +onlyGivenNames x; refine Kept.cut (t := x) ?_ ?_; (on_goal 1 => subst x); (on_goal 2 => (clear_value x; intro _)))
    | (extract_lets +onlyGivenNames x; clear_value x)
    | split
    | dsimp only
    | fail_if_no_progress (with_reducible apply Kept.parts))

theorem abandonUnit_kept (id : Nat) {z0 s : State} (hk : Kept z0 s) : Kept z0 (abandonUnit id s) := by
  unfold abandonUnit
  repeat' (first
    | with_reducible assumption
    | with_reducible apply updIo_kept
    | with_reducible apply dropJob_kept
    | with_reducible apply dropSopNv_kept
    | with_reducible apply keepWaits_kept
    | with_reducible apply cycleSync_kept
    | with_reducible apply freeLock_kept
    | with_reducible apply Kept.ite
    | with_reducible apply Kept.ident
    | with_reducible apply Kept.foldl
    | with_reducible apply Kept.foldl_fst
    | intro _ _ _ _
    | intro _ _ _
    | intro _
    | (extract_lets +onlyGivenNames x; refine Kept.cut (t := x) ?_ ?_; (on_goal 1 => subst x); (on_goal 2 => (clear_value x; intro _)))
    | (extract_lets +onlyGivenNames x; clear_value x)
    | split
    | dsimp only
    | fail_if_no_progress (with_reducible apply Kept.parts))

theorem abandonUnits_kept (p : Nat) {z0 s : State} (hk : Kept z0 s) : Kept z0 (abandonUnits p s) := by
  unfold abandonUnits
  repeat' (first
    | with_reducible assumption
    | with_reducible apply abandonUnit_kept
    | with_reducible apply Kept.ite
    | with_reducible apply Kept.foldl
    | with_reducible apply Kept.foldl_fst
    | intro _ _ _ _
    | intro _ _ _
    | intro _
    | (extract_lets +onlyGivenNames x; refine Kept.cut (t := x) ?_ ?_; (on_goal 1 => subst x); (on_goal 2 => (clear_value x; intro _)))
    | (extract_lets +onlyGivenNames x; clear_value x)
    | split
    | dsimp only
    | fail_if_no_progress (with_reducible apply Kept.parts))

theorem abandonOn_kept (p m : Nat) {z0 s : State} (hk : Kept z0 s) : Kept z0 (abandonOn p m s) := by
  unfold abandonOn
  repeat' (first
    | with_reducible assumption
    | with_reducible apply abandonUnit_kept
    | with_reducible apply Kept.ite
    | with_reducible apply Kept.foldl
    | intro _ _ _ _
    | intro _ _ _
    | intro _
    | split)

theorem skipMember_kept (p m : Nat) {z0 s : State} (hk : Kept z0 s) : Kept z0 (skipMember p m s) := by
  unfold skipMember
  repeat' (first
    | with_reducible assumption
    | with_reducible apply updEntry_kept
    | with_reducible apply Kept.ite
    | with_reducible apply Kept.foldl
    | with_reducible apply Kept.foldl_fst
    | intro _ _ _ _
    | intro _ _ _
    | intro _
    | (extract_lets +onlyGivenNames x; refine Kept.cut (t := x) ?_ ?_; (on_goal 1 => subst x); (on_goal 2 => (clear_value x; intro _)))
    | (extract_lets +onlyGivenNames x; clear_value x)
    | split
    | dsimp only
    | fail_if_no_progress (with_reducible apply Kept.parts))

theorem dropTagBufs_kept (p m : Nat) {z0 s : State} (hk : Kept z0 s) : Kept z0 (dropTagBufs p m s) := by
  unfold dropTagBufs
  repeat' (first
    | with_reducible assumption
    | with_reducible apply dropTagCache_kept
    | with_reducible apply updIo_kept
    | with_reducible apply Kept.ite
    | with_reducible apply Kept.foldl
    | with_reducible apply Kept.foldl_fst
    | intro _ _ _ _
    | intro _ _ _
    | intro _
    | (extract_lets +onlyGivenNames x; refine Kept.cut (t := x) ?_ ?_; (on_goal 1 => subst x); (on_goal 2 => (clear_value x; intro _)))
    | (extract_lets +onlyGivenNames x; clear_value x)
    | split
    | dsimp only
    | fail_if_no_progress (with_reducible apply Kept.parts))

theorem memberGone_kept (p m : Nat) {z0 s : State} (hk : Kept z0 s) : Kept z0 (memberGone p m s) := by
  unfold memberGone
  repeat' (first
    | with_reducible assumption
    | with_reducible apply skipMember_kept
    | with_reducible apply jmLost_kept
    | with_reducible apply abandonOn_kept
    | with_reducible apply dropTagBufs_kept
    | with_reducible apply redirect_kept
    | with_reducible apply sopLoses_kept
    | with_reducible apply entryGoesOn_kept
    | with_reducible apply Kept.ite
    | with_reducible apply Kept.foldl
    | with_reducible apply Kept.foldl_fst
    | intro _ _ _ _
    | intro _ _ _
    | intro _
    | (extract_lets +onlyGivenNames x; refine Kept.cut (t := x) ?_ ?_; (on_goal 1 => subst x); (on_goal 2 => (clear_value x; intro _)))
    | (extract_lets +onlyGivenNames x; clear_value x)
    | split
    | dsimp only
    | fail_if_no_progress (with_reducible apply Kept.parts))

theorem declareFails_kept (p : Nat) (fs : List (Nat × MState)) {z0 s : State} (hk : Kept z0 s) : Kept z0 (declareFails p fs s) := by
  unfold declareFails
  repeat' (first
    | with_reducible assumption
    | with_reducible apply updPlate_kept
    | with_reducible apply memberGone_kept
    | with_reducible apply plEvt_kept
    | with_reducible apply cycleSync_kept
    | with_reducible apply startLabel_kept
    | with_reducible apply Kept.ite
    | with_reducible apply Kept.foldl
    | with_reducible apply Kept.foldl_fst
    | intro _ _ _ _
    | intro _ _ _
    | intro _
    | (extract_lets +onlyGivenNames x; refine Kept.cut (t := x) ?_ ?_; (on_goal 1 => subst x); (on_goal 2 => (clear_value x; intro _)))
    | (extract_lets +onlyGivenNames x; clear_value x)
    | split
    | dsimp only
    | fail_if_no_progress (with_reducible apply Kept.parts))

theorem failMembers_kept (p : Nat) (fs : List (Nat × MState)) {z0 s : State} (hk : Kept z0 s) : Kept z0 (failMembers p fs s) := by
  unfold failMembers
  repeat' (first
    | with_reducible assumption
    | with_reducible apply updPlate_kept
    | with_reducible apply declareFails_kept
    | with_reducible apply Kept.ite
    | with_reducible apply Kept.foldl
    | with_reducible apply Kept.foldl_fst
    | intro _ _ _ _
    | intro _ _ _
    | intro _
    | (extract_lets +onlyGivenNames x; refine Kept.cut (t := x) ?_ ?_; (on_goal 1 => subst x); (on_goal 2 => (clear_value x; intro _)))
    | (extract_lets +onlyGivenNames x; clear_value x)
    | split
    | dsimp only
    | fail_if_no_progress (with_reducible apply Kept.parts))

theorem failMember_kept (p m : Nat) (st : MState) {z0 s : State} (hk : Kept z0 s) : Kept z0 (failMember p m st s) := by
  unfold failMember
  repeat' (first
    | with_reducible assumption
    | with_reducible apply failMembers_kept
    | with_reducible apply Kept.ite
    | with_reducible apply Kept.foldl
    | with_reducible apply Kept.foldl_fst
    | intro _ _ _ _
    | intro _ _ _
    | intro _
    | (extract_lets +onlyGivenNames x; refine Kept.cut (t := x) ?_ ?_; (on_goal 1 => subst x); (on_goal 2 => (clear_value x; intro _)))
    | (extract_lets +onlyGivenNames x; clear_value x)
    | split
    | dsimp only
    | fail_if_no_progress (with_reducible apply Kept.parts))

theorem readError_kept (p m : Nat) {z0 s : State} (hk : Kept z0 s) : Kept z0 (readError p m s) := by
  unfold readError
  repeat' (first
    | with_reducible assumption
    | with_reducible apply updPlate_kept
    | with_reducible apply failMember_kept
    | with_reducible apply Kept.ite)

theorem resvConflict_kept (p : Nat) {z0 s : State} (hk : Kept z0 s) : Kept z0 (resvConflict p s) := by
  unfold resvConflict
  repeat' (first
    | with_reducible assumption
    | with_reducible apply cycleSync_kept
    | with_reducible apply abandonUnits_kept
    | with_reducible apply setFld_kept
    | with_reducible apply Kept.ite
    | with_reducible apply Kept.foldl
    | with_reducible apply Kept.foldl_fst
    | intro _ _ _ _
    | intro _ _ _
    | intro _
    | (extract_lets +onlyGivenNames x; refine Kept.cut (t := x) ?_ ?_; (on_goal 1 => subst x); (on_goal 2 => (clear_value x; intro _)))
    | (extract_lets +onlyGivenNames x; clear_value x)
    | split
    | dsimp only
    | fail_if_no_progress (with_reducible apply Kept.parts))

theorem writeCat_kept (p : Nat) (ms : List Nat) (pages : List Nat) {z0 s : State} (hk : Kept z0 s) : Kept z0 (writeCat p ms pages s) := by
  unfold writeCat
  repeat' (first
    | with_reducible assumption
    | with_reducible apply memberReq_kept
    | with_reducible apply Kept.ite
    | with_reducible apply Kept.foldl
    | with_reducible apply Kept.foldl_fst
    | intro _ _ _ _
    | intro _ _ _
    | intro _
    | (extract_lets +onlyGivenNames x; refine Kept.cut (t := x) ?_ ?_; (on_goal 1 => subst x); (on_goal 2 => (clear_value x; intro _)))
    | (extract_lets +onlyGivenNames x; clear_value x)
    | split
    | dsimp only
    | fail_if_no_progress (with_reducible apply Kept.parts))

theorem writeLbt_kept (p : Nat) {z0 s : State} (hk : Kept z0 s) : Kept z0 (writeLbt p s) := by
  unfold writeLbt
  repeat' (first
    | with_reducible assumption
    | with_reducible apply updPlate_kept
    | with_reducible apply memberReq_kept
    | with_reducible apply Kept.ite
    | with_reducible apply Kept.foldl
    | with_reducible apply Kept.foldl_fst
    | intro _ _ _ _
    | intro _ _ _
    | intro _
    | (extract_lets +onlyGivenNames x; refine Kept.cut (t := x) ?_ ?_; (on_goal 1 => subst x); (on_goal 2 => (clear_value x; intro _)))
    | (extract_lets +onlyGivenNames x; clear_value x)
    | split
    | dsimp only
    | fail_if_no_progress (with_reducible apply Kept.parts))

theorem replaceTables_kept (p m : Nat) {z0 s : State} (hk : Kept z0 s) : Kept z0 (replaceTables p m s) := by
  unfold replaceTables
  repeat' (first
    | with_reducible assumption
    | with_reducible apply writeLbt_kept
    | with_reducible apply writeCat_kept
    | with_reducible apply Kept.ite
    | with_reducible apply Kept.foldl
    | with_reducible apply Kept.foldl_fst
    | intro _ _ _ _
    | intro _ _ _
    | intro _
    | (extract_lets +onlyGivenNames x; refine Kept.cut (t := x) ?_ ?_; (on_goal 1 => subst x); (on_goal 2 => (clear_value x; intro _)))
    | (extract_lets +onlyGivenNames x; clear_value x)
    | split
    | dsimp only
    | fail_if_no_progress (with_reducible apply Kept.parts))

theorem replaceEnd_kept (p m : Nat) (y : Repl) {z0 s : State} (hk : Kept z0 s) : Kept z0 (replaceEnd p m y s) := by
  unfold replaceEnd
  repeat' (first
    | with_reducible assumption
    | with_reducible apply updPlate_kept
    | with_reducible apply setFld_kept
    | with_reducible apply Kept.ite
    | with_reducible apply Kept.foldl
    | with_reducible apply Kept.foldl_fst
    | intro _ _ _ _
    | intro _ _ _
    | intro _
    | (extract_lets +onlyGivenNames x; refine Kept.cut (t := x) ?_ ?_; (on_goal 1 => subst x); (on_goal 2 => (clear_value x; intro _)))
    | (extract_lets +onlyGivenNames x; clear_value x)
    | split
    | dsimp only
    | fail_if_no_progress (with_reducible apply Kept.parts))

theorem replaceGo_kept (p m : Nat) {z0 s : State} (hk : Kept z0 s) : Kept z0 (replaceGo p m s) := by
  unfold replaceGo
  repeat' (first
    | with_reducible assumption
    | with_reducible apply replaceEnd_kept
    | with_reducible apply replaceTables_kept
    | with_reducible apply updPlate_kept
    | with_reducible apply startLabel_kept
    | with_reducible apply Kept.ite
    | with_reducible apply Kept.foldl
    | with_reducible apply Kept.foldl_fst
    | intro _ _ _ _
    | intro _ _ _
    | intro _
    | (extract_lets +onlyGivenNames x; refine Kept.cut (t := x) ?_ ?_; (on_goal 1 => subst x); (on_goal 2 => (clear_value x; intro _)))
    | (extract_lets +onlyGivenNames x; clear_value x)
    | split
    | dsimp only
    | fail_if_no_progress (with_reducible apply Kept.parts))

theorem replaceStep_kept (p : Nat) {z0 s : State} (hk : Kept z0 s) : Kept z0 (replaceStep p s) := by
  unfold replaceStep
  repeat' (first
    | with_reducible assumption
    | with_reducible apply replaceGo_kept
    | with_reducible apply Kept.ite
    | with_reducible apply Kept.foldl
    | with_reducible apply Kept.foldl_fst
    | intro _ _ _ _
    | intro _ _ _
    | intro _
    | (extract_lets +onlyGivenNames x; refine Kept.cut (t := x) ?_ ?_; (on_goal 1 => subst x); (on_goal 2 => (clear_value x; intro _)))
    | (extract_lets +onlyGivenNames x; clear_value x)
    | split
    | dsimp only
    | fail_if_no_progress (with_reducible apply Kept.parts))

theorem joinHeader_kept (p : Nat) (b : List Byte) {z0 s : State} (hk : Kept z0 s) : Kept z0 (joinHeader p b s) := by
  unfold joinHeader
  repeat' (first
    | with_reducible assumption
    | with_reducible apply replaceStep_kept
    | with_reducible apply updJp_kept
    | with_reducible apply Kept.ite
    | with_reducible apply Kept.ident
    | with_reducible apply Kept.foldl
    | with_reducible apply Kept.foldl_fst
    | intro _ _ _ _
    | intro _ _ _
    | intro _
    | (extract_lets +onlyGivenNames x; refine Kept.cut (t := x) ?_ ?_; (on_goal 1 => subst x); (on_goal 2 => (clear_value x; intro _)))
    | (extract_lets +onlyGivenNames x; clear_value x)
    | split
    | dsimp only
    | fail_if_no_progress (with_reducible apply Kept.parts))

theorem importStep_kept (p : Nat) {z0 s : State} (hk : Kept z0 s) : Kept z0 (importStep p s) := by
  unfold importStep
  repeat' (first
    | with_reducible assumption
    | with_reducible apply joinPair_kept
    | with_reducible apply startLabel_kept
    | with_reducible apply updPlate_kept
    | with_reducible apply setFld_kept
    | with_reducible apply Kept.ite
    | with_reducible apply Kept.foldl
    | with_reducible apply Kept.foldl_fst
    | intro _ _ _ _
    | intro _ _ _
    | intro _
    | (extract_lets +onlyGivenNames x; refine Kept.cut (t := x) ?_ ?_; (on_goal 1 => subst x); (on_goal 2 => (clear_value x; intro _)))
    | (extract_lets +onlyGivenNames x; clear_value x)
    | split
    | dsimp only
    | fail_if_no_progress (with_reducible apply Kept.parts))

theorem labelDone_kept (p : Nat) {z0 s : State} (hk : Kept z0 s) : Kept z0 (labelDone p s) := by
  unfold labelDone
  repeat' (first
    | with_reducible assumption
    | with_reducible apply updPlate_kept
    | with_reducible apply declareFails_kept
    | with_reducible apply startLabel_kept
    | with_reducible apply seekPartner_kept
    | with_reducible apply cycleSync_kept
    | with_reducible apply importStep_kept
    | with_reducible apply replaceStep_kept
    | with_reducible apply Kept.ite
    | with_reducible apply Kept.foldl
    | with_reducible apply Kept.foldl_fst
    | intro _ _ _ _
    | intro _ _ _
    | intro _
    | (extract_lets +onlyGivenNames x; refine Kept.cut (t := x) ?_ ?_; (on_goal 1 => subst x); (on_goal 2 => (clear_value x; intro _)))
    | (extract_lets +onlyGivenNames x; clear_value x)
    | split
    | dsimp only
    | fail_if_no_progress (with_reducible apply Kept.parts))

end Sys2Proof.Machine
end

