-- ==== Sys2Proof/Laws/KeptLists.lean ====
section
/-! SUPPORT. What the operations of Machine/Lists.lean keep. -/

namespace Sys2Proof.Machine

theorem suspectChanged_kept (p : Nat) (e : Suspect) {z0 s : State} (hk : Kept z0 s) : Kept z0 (suspectChanged p e s) := by
  unfold suspectChanged
  repeat' (first
    | with_reducible assumption
    | with_reducible apply sendMsg_kept
    | with_reducible apply updStore_kept
    | with_reducible apply Kept.ite
    | with_reducible apply Kept.foldl
    | intro _ _ _ _
    | intro _ _ _
    | intro _
    | (extract_lets +onlyGivenNames x; refine Kept.cut (t := x) ?_ ?_; (on_goal 1 => subst x); (on_goal 2 => (clear_value x; intro _)))
    | split)

theorem addSuspect_kept (p sn first last why : Nat) {z0 s : State} (hk : Kept z0 s) : Kept z0 (addSuspect p sn first last why s) := by
  unfold addSuspect
  repeat' (first
    | with_reducible assumption
    | with_reducible apply suspectChanged_kept
    | with_reducible apply sketchEvt_kept
    | with_reducible apply setEvt_kept
    | with_reducible apply updStore_kept
    | with_reducible apply setFld_kept
    | with_reducible apply Kept.ite
    | with_reducible apply Kept.ident
    | with_reducible apply Kept.foldl
    | with_reducible apply Kept.foldl_fst
    | intro _ _ _ _
    | intro _ _ _
    | intro _
    | (extract_lets +onlyGivenNames x; refine Kept.cut (t := x) ?_ ?_; (on_goal 1 => subst x); (on_goal 2 => (clear_value x; intro _)))
    | (extract_lets +onlyGivenNames x; clear_value x)
    | split
    | dsimp only
    | fail_if_no_progress (with_reducible apply Kept.parts))

theorem delSuspect_kept (p : Nat) (e : Suspect) {z0 s : State} (hk : Kept z0 s) : Kept z0 (delSuspect p e s) := by
  unfold delSuspect
  repeat' (first
    | with_reducible assumption
    | with_reducible apply setFld_kept
    | with_reducible apply setEvt_kept
    | with_reducible apply updStore_kept
    | with_reducible apply suspectChanged_kept)

theorem suspectCommit_kept (p : Nat) (e : JEntry) {z0 s : State} (hk : Kept z0 s) : Kept z0 (suspectCommit p e s) := by
  unfold suspectCommit
  repeat' (first
    | with_reducible assumption
    | with_reducible apply delSuspect_kept
    | with_reducible apply Kept.ite
    | with_reducible apply Kept.foldl
    | intro _ _ _ _
    | intro _ _ _
    | intro _
    | split)

theorem addLost_kept (p sn : Nat) (ls : List (Nat × Nat)) {z0 s : State} (hk : Kept z0 s) : Kept z0 (addLost p sn ls s).1 := by
  unfold addLost
  repeat' (first
    | with_reducible assumption
    | with_reducible apply updPlate_kept
    | with_reducible apply onlyIf_kept
    | with_reducible apply refreshPlate_kept
    | with_reducible apply plEvt_kept
    | with_reducible apply Kept.ite
    | with_reducible apply Kept.foldl
    | with_reducible apply Kept.foldl_fst
    | intro _ _ _ _
    | intro _ _ _
    | intro _
    | (extract_lets +onlyGivenNames x; refine Kept.cut (t := x) ?_ ?_; (on_goal 1 => subst x); (on_goal 2 => (clear_value x; intro _)))
    | (extract_lets +onlyGivenNames x; clear_value x)
    | split
    | dsimp only
    | fail_if_no_progress (with_reducible apply Kept.parts))

theorem delLost_kept (p sn : Nat) (wset : List Nat) {z0 s : State} (hk : Kept z0 s) : Kept z0 (delLost p sn wset s) := by
  unfold delLost
  repeat' (first
    | with_reducible assumption
    | with_reducible apply updPlate_kept)

theorem lostwFit_kept (fuel : Nat)  {z0 s : State} (h : Kept z0 s) : Kept z0 (lostwFit fuel  s) := by
  induction fuel generalizing  z0 s with
  | zero => unfold lostwFit; exact h
  | succ fuel ih =>
    unfold lostwFit
    repeat' (first
      | with_reducible assumption
      | with_reducible apply ih
      | with_reducible apply setFld_kept
      | with_reducible apply updStore_kept
      | with_reducible apply Kept.ite
      | with_reducible apply Kept.foldl
      | intro _ _ _ _
      | intro _ _ _
      | intro _
      | split)

theorem lostwAdd_kept (vol lba n : Nat) {z0 s : State} (hk : Kept z0 s) : Kept z0 (lostwAdd vol lba n s) := by
  unfold lostwAdd
  repeat' (first
    | with_reducible assumption
    | with_reducible apply setEvt_kept
    | with_reducible apply updStore_kept
    | with_reducible apply lostwFit_kept
    | with_reducible apply Kept.ite)

theorem lostwDel_kept (vol lba n : Nat) {z0 s : State} (hk : Kept z0 s) : Kept z0 (lostwDel vol lba n s) := by
  unfold lostwDel
  repeat' (first
    | with_reducible assumption
    | with_reducible apply setFld_kept
    | with_reducible apply updStore_kept
    | with_reducible apply lostwFit_kept
    | with_reducible apply Kept.ite)

end Sys2Proof.Machine
end

