-- ==== Sys2Proof/Laws/KeptRights.lean ====
section
/-! SUPPORT. What the operations of Machine/Rights.lean keep. -/

namespace Sys2Proof.Machine

theorem roleAction_kept (role act what : Nat) {z0 s : State} (hk : Kept z0 s) : Kept z0 (roleAction role act what s) := by
  unfold roleAction
  repeat' (first
    | with_reducible assumption
    | with_reducible apply sketchCount_kept
    | with_reducible apply sketchExtreme_kept
    | with_reducible apply Kept.ite)

theorem denied_kept (w : Win) (p : Nat) {z0 s : State} (hk : Kept z0 s) : Kept z0 (denied w p s) := by
  unfold denied
  repeat' (first
    | with_reducible assumption
    | with_reducible apply incFld_kept
    | with_reducible apply setEvt_kept
    | with_reducible apply roleAction_kept)

theorem needRole_kept (w : Win) {z0 s : State} (hk : Kept z0 s) : Kept z0 (needRole w s) := by
  unfold needRole
  split
  · exact Kept.roled (r := { s.role with need := _ }) ⟨rfl, le_refl _, fun _ _ h => h⟩ hk
  · exact hk

theorem winLog_kept (w : Win) (e : Aer) {z0 s : State} (hk : Kept z0 s) : Kept z0 (winLog w e s) := by
  unfold winLog
  repeat' (first
    | with_reducible assumption
    | with_reducible apply aerLog_kept
    | with_reducible apply Kept.ite
    | with_reducible apply Kept.foldl
    | intro _ _ _ _
    | intro _ _ _
    | intro _
    | split)

theorem winErr_kept (w : Win) {z0 s : State} (hk : Kept z0 s) : Kept z0 (winErr w s) := by
  unfold winErr
  repeat' (first
    | with_reducible assumption
    | with_reducible apply incFld_kept
    | with_reducible apply Kept.ite
    | with_reducible apply Kept.foldl
    | with_reducible apply Kept.foldl_fst
    | intro _ _ _ _
    | intro _ _ _
    | intro _
    | (extract_lets +onlyGivenNames x; refine Kept.cut (t := x) ?_ ?_; (on_goal 1 => subst x); (on_goal 2 => (clear_value x; intro _)))
    | (extract_lets +onlyGivenNames x; clear_value x)
    | split
    | dsimp only
    | fail_if_no_progress (with_reducible apply Kept.parts))

theorem guardAccess_kept (w : Win) (p : Nat) (f : State → State) {z0 s : State} (h_f : ∀ r t, Kept r t → Kept r (f t)) (hk : Kept z0 s) : Kept z0 (guardAccess w p f s) := by
  unfold guardAccess
  repeat' (first
    | with_reducible assumption
    | with_reducible apply h_f
    | with_reducible apply roleAction_kept
    | with_reducible apply denied_kept
    | with_reducible apply needRole_kept
    | with_reducible apply winLog_kept
    | with_reducible apply Kept.ite
    | with_reducible apply Kept.foldl
    | intro _ _ _ _
    | intro _ _ _
    | intro _
    | split)

theorem guardWrite_kept (w : Win) (p : Nat) (f : State → State) {z0 s : State} (h_f : ∀ r t, Kept r t → Kept r (f t)) (hk : Kept z0 s) : Kept z0 (guardWrite w p f s) := by
  unfold guardWrite
  repeat' (first
    | with_reducible assumption
    | with_reducible apply h_f
    | with_reducible apply guardAccess_kept
    | with_reducible apply Kept.ite
    | with_reducible apply Kept.foldl
    | intro _ _ _ _
    | intro _ _ _)

theorem seqIf_kept (p : Nat) (b : State) {z0 s : State} (hk : Kept z0 s) : Kept z0 (seqIf p b s) := by
  unfold seqIf
  split
  · exact hk
  · exact incFld_kept _ _ hk

theorem seqFlds_kept (p : Nat) (l : List FRef) (b : State) {z0 s : State} (hk : Kept z0 s) : Kept z0 (seqFlds p l b s) := by
  unfold seqFlds
  split
  · exact hk
  · exact incFld_kept _ _ hk

theorem writeRwi_kept (w : Win) (p : Nat) (l : List (FRef × Nat)) {z0 s : State} (hk : Kept z0 s) : Kept z0 (writeRwi w p l s) := by
  unfold writeRwi
  repeat' (first
    | with_reducible assumption
    | with_reducible apply incFld_kept
    | with_reducible apply needRole_kept
    | with_reducible apply setFld_kept
    | with_reducible apply denied_kept
    | with_reducible apply Kept.ite
    | with_reducible apply Kept.foldl
    | with_reducible apply Kept.foldl_fst
    | intro _ _ _ _
    | intro _ _ _
    | intro _
    | (extract_lets +onlyGivenNames x; refine Kept.cut (t := x) ?_ ?_; (on_goal 1 => subst x); (on_goal 2 => (clear_value x; intro _)))
    | (extract_lets +onlyGivenNames x; clear_value x)
    | split
    | dsimp only
    | fail_if_no_progress (with_reducible apply Kept.parts))

theorem cmdWrite_kept (w : Win) (p : Nat) (opF : FRef) (op : Nat) (pars : List (FRef × Nat)) (go : FRef) (stF doneF : FRef) (held : Nat → State → State) (act : State → State) {z0 s : State} (h_held : ∀ x r t, Kept r t → Kept r (held x t)) (h_act : ∀ r t, Kept r t → Kept r (act t)) (hk : Kept z0 s) : Kept z0 (cmdWrite w p opF op pars go stF doneF held act s) := by
  unfold cmdWrite
  repeat' (first
    | with_reducible assumption
    | with_reducible apply h_held
    | with_reducible apply h_act
    | with_reducible apply guardWrite_kept
    | with_reducible apply writeRwi_kept
    | with_reducible apply setFld_kept
    | with_reducible apply Kept.ite
    | with_reducible apply Kept.foldl
    | with_reducible apply Kept.foldl_fst
    | intro _ _ _ _
    | intro _ _ _
    | intro _
    | (extract_lets +onlyGivenNames x; refine Kept.cut (t := x) ?_ ?_; (on_goal 1 => subst x); (on_goal 2 => (clear_value x; intro _)))
    | (extract_lets +onlyGivenNames x; clear_value x)
    | split
    | dsimp only
    | fail_if_no_progress (with_reducible apply Kept.parts))

theorem cmdStart_kept (go doneF : FRef) {z0 s : State} (hk : Kept z0 s) : Kept z0 (cmdStart go doneF s) := by
  unfold cmdStart
  repeat' (first
    | with_reducible assumption
    | with_reducible apply setFld_kept
    | with_reducible apply Kept.ite
    | with_reducible apply Kept.foldl
    | with_reducible apply Kept.foldl_fst
    | intro _ _ _ _
    | intro _ _ _
    | intro _
    | (extract_lets +onlyGivenNames x; refine Kept.cut (t := x) ?_ ?_; (on_goal 1 => subst x); (on_goal 2 => (clear_value x; intro _)))
    | (extract_lets +onlyGivenNames x; clear_value x)
    | split
    | dsimp only
    | fail_if_no_progress (with_reducible apply Kept.parts))

theorem cmdEnd_kept (go stF doneF : FRef) (st : Status) {z0 s : State} (hk : Kept z0 s) : Kept z0 (cmdEnd go stF doneF st s) := by
  unfold cmdEnd
  repeat' (first
    | with_reducible assumption
    | with_reducible apply setFld_kept)

end Sys2Proof.Machine
end

