-- ==== Sys2Proof/Laws/KeptAdmission.lean ====
section
/-! SUPPORT. What the operations of Machine/Admission.lean keep. -/

namespace Sys2Proof.Machine

theorem present_kept (segs : List Seg) (cmd : Nat) {z0 s : State} (hk : Kept z0 s) : Kept z0 (present segs cmd s) := by
  unfold present
  repeat' (first
    | with_reducible assumption
    | with_reducible apply updIo_kept
    | with_reducible apply addParts_kept)

theorem updSlot_kept (k : Nat) (f : Slot → Slot) {z0 s : State} (hk : Kept z0 s) : Kept z0 (updSlot k f s) := by
  unfold updSlot
  repeat' (first
    | with_reducible assumption
    | with_reducible apply updCache_kept
    | with_reducible apply Kept.ite
    | with_reducible apply Kept.foldl
    | intro _ _ _ _
    | intro _ _ _
    | intro _
    | split)

theorem freeSlot_kept (k : Nat) {z0 s : State} (hk : Kept z0 s) : Kept z0 (freeSlot k s) := by
  unfold freeSlot
  repeat' (first
    | with_reducible assumption
    | with_reducible apply updCache_kept
    | with_reducible apply Kept.ite
    | with_reducible apply Kept.foldl
    | with_reducible apply Kept.foldl_fst
    | intro _ _ _ _
    | intro _ _ _
    | intro _
    | (extract_lets +onlyGivenNames x; refine Kept.cut (t := x) ?_ ?_; (on_goal 1 => subst x); (on_goal 2 => (clear_value x; intro _)))
    | (extract_lets +onlyGivenNames x; clear_value x)
    | split
    | dsimp only
    | fail_if_no_progress (with_reducible apply Kept.parts))

theorem mirrorSlot_kept (j k : Nat) {z0 s : State} (hk : Kept z0 s) : Kept z0 (mirrorSlot j k s) := by
  unfold mirrorSlot
  repeat' (first
    | with_reducible assumption
    | with_reducible apply updCache_kept
    | with_reducible apply updEntry_kept
    | with_reducible apply sendMsg_kept
    | with_reducible apply Kept.ite
    | with_reducible apply Kept.foldl
    | with_reducible apply Kept.foldl_fst
    | intro _ _ _ _
    | intro _ _ _
    | intro _
    | (extract_lets +onlyGivenNames x; refine Kept.cut (t := x) ?_ ?_; (on_goal 1 => subst x); (on_goal 2 => (clear_value x; intro _)))
    | (extract_lets +onlyGivenNames x; clear_value x)
    | split
    | dsimp only
    | fail_if_no_progress (with_reducible apply Kept.parts))

theorem fillSlots_kept (j : Nat) {z0 s : State} (hk : Kept z0 s) : Kept z0 (fillSlots j s) := by
  unfold fillSlots
  repeat' (first
    | with_reducible assumption
    | with_reducible apply updSlot_kept
    | with_reducible apply mirrorSlot_kept
    | with_reducible apply Kept.ite
    | with_reducible apply Kept.foldl
    | intro _ _ _ _
    | intro _ _ _
    | intro _
    | split)

theorem cacheStaged_kept (j : Nat) {z0 s : State} (hk : Kept z0 s) : Kept z0 (cacheStaged j s) := by
  unfold cacheStaged
  repeat' (first
    | with_reducible assumption
    | with_reducible apply updEntry_kept
    | with_reducible apply mirrorEntry_kept
    | with_reducible apply Kept.ite
    | with_reducible apply Kept.foldl
    | intro _ _ _ _
    | intro _ _ _
    | intro _
    | split)

theorem placeEntry_kept (j : Nat) (e : JEntry) {z0 s : State} (hk : Kept z0 s) : Kept z0 (placeEntry j e s) := by
  unfold placeEntry
  repeat' (first
    | with_reducible assumption
    | with_reducible apply updIo_kept
    | with_reducible apply hwmFld_kept
    | with_reducible apply Kept.ite
    | with_reducible apply Kept.foldl
    | with_reducible apply Kept.foldl_fst
    | intro _ _ _ _
    | intro _ _ _
    | intro _
    | (extract_lets +onlyGivenNames x; refine Kept.cut (t := x) ?_ ?_; (on_goal 1 => subst x); (on_goal 2 => (clear_value x; intro _)))
    | (extract_lets +onlyGivenNames x; clear_value x)
    | split
    | dsimp only
    | fail_if_no_progress (with_reducible apply Kept.parts))

theorem joinGroup_kept (j : Nat) (e : JEntry) {z0 s : State} (hk : Kept z0 s) : Kept z0 (joinGroup j e s) := by
  unfold joinGroup
  repeat' (first
    | with_reducible assumption
    | with_reducible apply updIo_kept
    | with_reducible apply updEntry_kept
    | with_reducible apply Kept.ite
    | with_reducible apply Kept.foldl
    | with_reducible apply Kept.foldl_fst
    | intro _ _ _ _
    | intro _ _ _
    | intro _
    | (extract_lets +onlyGivenNames x; refine Kept.cut (t := x) ?_ ?_; (on_goal 1 => subst x); (on_goal 2 => (clear_value x; intro _)))
    | (extract_lets +onlyGivenNames x; clear_value x)
    | split
    | dsimp only
    | fail_if_no_progress (with_reducible apply Kept.parts))

theorem takeSlots_kept (e : JEntry) {z0 s : State} (hk : Kept z0 s) : Kept z0 (takeSlots e s) := by
  unfold takeSlots
  repeat' (first
    | with_reducible assumption
    | with_reducible apply updCache_kept
    | with_reducible apply updSlot_kept
    | with_reducible apply Kept.ite
    | with_reducible apply Kept.foldl
    | with_reducible apply Kept.foldl_fst
    | intro _ _ _ _
    | intro _ _ _
    | intro _
    | (extract_lets +onlyGivenNames x; refine Kept.cut (t := x) ?_ ?_; (on_goal 1 => subst x); (on_goal 2 => (clear_value x; intro _)))
    | (extract_lets +onlyGivenNames x; clear_value x)
    | split
    | dsimp only
    | fail_if_no_progress (with_reducible apply Kept.parts))

theorem askData_kept (j : Nat) (g : Seg) {z0 s : State} (hk : Kept z0 s) : Kept z0 (askData j g s) := by
  unfold askData
  repeat' (first
    | with_reducible assumption
    | with_reducible apply fromHost_kept
    | with_reducible apply Kept.ite
    | with_reducible apply Kept.foldl
    | with_reducible apply Kept.foldl_fst
    | intro _ _ _ _
    | intro _ _ _
    | intro _
    | (extract_lets +onlyGivenNames x; refine Kept.cut (t := x) ?_ ?_; (on_goal 1 => subst x); (on_goal 2 => (clear_value x; intro _)))
    | (extract_lets +onlyGivenNames x; clear_value x)
    | split
    | dsimp only
    | fail_if_no_progress (with_reducible apply Kept.parts))

theorem beginEntry_kept (j : Nat) (e : JEntry) {z0 s : State} (hk : Kept z0 s) : Kept z0 (beginEntry j e s) := by
  unfold beginEntry
  repeat' (first
    | with_reducible assumption
    | with_reducible apply cacheStaged_kept
    | with_reducible apply fillSlots_kept
    | with_reducible apply startOld_kept
    | with_reducible apply Kept.ite
    | with_reducible apply Kept.foldl
    | with_reducible apply Kept.foldl_fst
    | intro _ _ _ _
    | intro _ _ _
    | intro _
    | (extract_lets +onlyGivenNames x; refine Kept.cut (t := x) ?_ ?_; (on_goal 1 => subst x); (on_goal 2 => (clear_value x; intro _)))
    | (extract_lets +onlyGivenNames x; clear_value x)
    | split
    | dsimp only
    | fail_if_no_progress (with_reducible apply Kept.parts))

theorem doGrant_kept (g0 : Seg) {z0 s : State} (hk : Kept z0 s) : Kept z0 (doGrant g0 s) := by
  unfold doGrant
  repeat' (first
    | with_reducible assumption
    | with_reducible apply placeEntry_kept
    | with_reducible apply takeLock_kept
    | with_reducible apply updPlate_kept
    | with_reducible apply joinGroup_kept
    | with_reducible apply assignJob_kept
    | with_reducible apply beginEntry_kept
    | with_reducible apply askData_kept
    | with_reducible apply mirrorEntry_kept
    | with_reducible apply takeSlots_kept
    | with_reducible apply Kept.ite
    | with_reducible apply Kept.foldl
    | with_reducible apply Kept.foldl_fst
    | intro _ _ _ _
    | intro _ _ _
    | intro _
    | (extract_lets +onlyGivenNames x; refine Kept.cut (t := x) ?_ ?_; (on_goal 1 => subst x); (on_goal 2 => (clear_value x; intro _)))
    | (extract_lets +onlyGivenNames x; clear_value x)
    | split
    | dsimp only
    | fail_if_no_progress (with_reducible apply Kept.parts))

theorem noteQueued_kept (g : Seg) {z0 s : State} (hk : Kept z0 s) : Kept z0 (noteQueued g s) := by
  unfold noteQueued
  repeat' (first
    | with_reducible assumption
    | with_reducible apply onlyIf_kept
    | with_reducible apply setEvt_kept
    | with_reducible apply Kept.ite
    | with_reducible apply Kept.foldl
    | with_reducible apply Kept.foldl_fst
    | intro _ _ _ _
    | intro _ _ _
    | intro _
    | (extract_lets +onlyGivenNames x; refine Kept.cut (t := x) ?_ ?_; (on_goal 1 => subst x); (on_goal 2 => (clear_value x; intro _)))
    | (extract_lets +onlyGivenNames x; clear_value x)
    | split
    | dsimp only
    | fail_if_no_progress (with_reducible apply Kept.parts))

theorem refuseSegs_kept (g : Seg) (st : Status) {z0 s : State} (hk : Kept z0 s) : Kept z0 (refuseSegs g st s) := by
  unfold refuseSegs
  repeat' (first
    | with_reducible assumption
    | with_reducible apply incFld_kept
    | with_reducible apply setEvt_kept
    | with_reducible apply report_kept
    | with_reducible apply onlyIf_kept
    | with_reducible apply updIo_kept
    | with_reducible apply updCmd_kept
    | with_reducible apply failAt_kept
    | with_reducible apply partDone_kept
    | with_reducible apply Kept.ite
    | with_reducible apply Kept.foldl
    | intro _ _ _ _
    | intro _ _ _)

theorem decideSeg_kept (ue : Bool) {z0 s : State} (hk : Kept z0 s) : Kept z0 (decideSeg ue s) := by
  unfold decideSeg
  repeat' (first
    | with_reducible assumption
    | with_reducible apply add64_kept
    | with_reducible apply updIo_kept
    | with_reducible apply refuseSegs_kept
    | with_reducible apply onlyIf_kept
    | with_reducible apply report_kept
    | with_reducible apply doGrant_kept
    | with_reducible apply enqueueWait_kept
    | with_reducible apply incFld_kept
    | with_reducible apply wakePipes_kept
    | with_reducible apply noteQueued_kept
    | with_reducible apply Kept.ite
    | with_reducible apply Kept.foldl
    | with_reducible apply Kept.foldl_fst
    | intro _ _ _ _
    | intro _ _ _
    | intro _
    | (extract_lets +onlyGivenNames x; refine Kept.cut (t := x) ?_ ?_; (on_goal 1 => subst x); (on_goal 2 => (clear_value x; intro _)))
    | (extract_lets +onlyGivenNames x; clear_value x)
    | split
    | dsimp only
    | fail_if_no_progress (with_reducible apply Kept.parts))

theorem grantQueued_kept  {z0 s : State} (hk : Kept z0 s) : Kept z0 (grantQueued  s) := by
  unfold grantQueued
  repeat' (first
    | with_reducible assumption
    | with_reducible apply wakePipes_kept
    | with_reducible apply updIo_kept
    | with_reducible apply tidyLocks_kept
    | with_reducible apply doGrant_kept
    | with_reducible apply sopLocked_kept
    | with_reducible apply takeLock_kept
    | with_reducible apply updSop_kept
    | with_reducible apply Kept.ite
    | with_reducible apply Kept.ident
    | with_reducible apply Kept.foldl
    | with_reducible apply Kept.foldl_fst
    | intro _ _ _ _
    | intro _ _ _
    | intro _
    | (extract_lets +onlyGivenNames x; refine Kept.cut (t := x) ?_ ?_; (on_goal 1 => subst x); (on_goal 2 => (clear_value x; intro _)))
    | (extract_lets +onlyGivenNames x; clear_value x)
    | split
    | dsimp only
    | fail_if_no_progress (with_reducible apply Kept.parts))

end Sys2Proof.Machine
end

