-- ==== Sys2Proof/Laws/KeptLinkOps.lean ====
section
/-! SUPPORT. What the operations of Machine/LinkOps.lean keep. -/

namespace Sys2Proof.Machine

theorem tlkEvt_kept (x bit : Nat) {z0 s : State} (hk : Kept z0 s) : Kept z0 (tlkEvt x bit s) := by
  unfold tlkEvt
  repeat' (first
    | with_reducible assumption
    | with_reducible apply setEvt_kept)

theorem sendIdle_kept (x : Nat) {z0 s : State} (hk : Kept z0 s) : Kept z0 (sendIdle x s) := by
  unfold sendIdle
  repeat' (first
    | with_reducible assumption
    | with_reducible apply sendFlit_kept)

theorem sendNak_kept (x : Nat) {z0 s : State} (hk : Kept z0 s) : Kept z0 (sendNak x s) := by
  unfold sendNak
  repeat' (first
    | with_reducible assumption
    | with_reducible apply updTlk_kept
    | with_reducible apply sendFlit_kept
    | with_reducible apply Kept.ite)

theorem sendCtrl_kept (x : Nat) (payload : List Byte) {z0 s : State} (hk : Kept z0 s) : Kept z0 (sendCtrl x payload s) := by
  unfold sendCtrl
  repeat' (first
    | with_reducible assumption
    | with_reducible apply sendSeq_kept)

theorem returnCredits_kept (fuel : Nat) (x : Nat) {z0 s : State} (h : Kept z0 s) : Kept z0 (returnCredits fuel x s) := by
  induction fuel generalizing x z0 s with
  | zero => unfold returnCredits; exact h
  | succ fuel ih =>
    unfold returnCredits
    repeat' (first
      | with_reducible assumption
      | with_reducible apply ih
      | with_reducible apply sendCtrl_kept
      | with_reducible apply Kept.ite)

theorem replayFrom_kept (x : Nat) (fs : List TxFlit) {z0 s : State} (hk : Kept z0 s) : Kept z0 (replayFrom x fs s) := by
  unfold replayFrom
  repeat' (first
    | with_reducible assumption
    | with_reducible apply incFld_kept
    | with_reducible apply sendFlit_kept
    | with_reducible apply Kept.ite
    | with_reducible apply Kept.foldl
    | intro _ _ _ _
    | intro _ _ _)

theorem retrain_kept (x : Nat) {z0 s : State} (hk : Kept z0 s) : Kept z0 (retrain x s) := by
  unfold retrain
  repeat' (first
    | with_reducible assumption
    | with_reducible apply setFld_kept
    | with_reducible apply incFld_kept
    | with_reducible apply tlkEvt_kept)

theorem replayAgain_kept (x : Nat) (fs : List TxFlit) {z0 s : State} (hk : Kept z0 s) : Kept z0 (replayAgain x fs s) := by
  unfold replayAgain
  repeat' (first
    | with_reducible assumption
    | with_reducible apply replayFrom_kept
    | with_reducible apply updTlk_kept
    | with_reducible apply retrain_kept
    | with_reducible apply tlkEvt_kept
    | with_reducible apply Kept.ite
    | with_reducible apply Kept.foldl
    | with_reducible apply Kept.foldl_fst
    | intro _ _ _ _
    | intro _ _ _
    | intro _
    | (extract_lets +onlyGivenNames x; refine Kept.cut (t := x) ?_ ?_; (on_goal 1 => subst x); (on_goal 2 => (clear_value x; intro _)))
    | (extract_lets +onlyGivenNames x; clear_value x)
    | split
    | dsimp only
    | fail_if_no_progress (with_reducible apply Kept.parts))

theorem unlearn_kept (x : Nat) {z0 s : State} (hk : Kept z0 s) : Kept z0 (unlearn x s) := by
  unfold unlearn
  repeat' (first
    | with_reducible assumption
    | with_reducible apply setFld_kept
    | with_reducible apply Kept.ite
    | with_reducible apply Kept.foldl
    | with_reducible apply Kept.foldl_fst
    | intro _ _ _ _
    | intro _ _ _
    | intro _
    | (extract_lets +onlyGivenNames x; refine Kept.cut (t := x) ?_ ?_; (on_goal 1 => subst x); (on_goal 2 => (clear_value x; intro _)))
    | (extract_lets +onlyGivenNames x; clear_value x)
    | split
    | dsimp only
    | fail_if_no_progress (with_reducible apply Kept.parts))

theorem hopDrop_kept (x : Nat) {z0 s : State} (hk : Kept z0 s) : Kept z0 (hopDrop x s) := by
  unfold hopDrop
  repeat' (first
    | with_reducible assumption
    | with_reducible apply tlkEvt_kept
    | with_reducible apply incFld_kept
    | with_reducible apply Kept.ite
    | with_reducible apply Kept.foldl
    | with_reducible apply Kept.foldl_fst
    | intro _ _ _ _
    | intro _ _ _
    | intro _
    | (extract_lets +onlyGivenNames x; refine Kept.cut (t := x) ?_ ?_; (on_goal 1 => subst x); (on_goal 2 => (clear_value x; intro _)))
    | (extract_lets +onlyGivenNames x; clear_value x)
    | split
    | dsimp only
    | fail_if_no_progress (with_reducible apply Kept.parts))

theorem noLink_kept (q : QMsg) {z0 s : State} (hk : Kept z0 s) : Kept z0 (noLink q s) := by
  unfold noLink
  repeat' (first
    | with_reducible assumption
    | with_reducible apply hopDrop_kept
    | with_reducible apply unroutable_kept
    | with_reducible apply Kept.ite
    | with_reducible apply Kept.foldl
    | with_reducible apply Kept.foldl_fst
    | intro _ _ _ _
    | intro _ _ _
    | intro _
    | (extract_lets +onlyGivenNames x; refine Kept.cut (t := x) ?_ ?_; (on_goal 1 => subst x); (on_goal 2 => (clear_value x; intro _)))
    | (extract_lets +onlyGivenNames x; clear_value x)
    | split
    | dsimp only
    | fail_if_no_progress (with_reducible apply Kept.parts))

theorem linkDown_kept (x : Nat) {z0 s : State} (hk : Kept z0 s) : Kept z0 (linkDown x s) := by
  unfold linkDown
  repeat' (first
    | with_reducible assumption
    | with_reducible apply setFld_kept
    | with_reducible apply tlkEvt_kept
    | with_reducible apply updTlk_kept
    | with_reducible apply pump_kept
    | with_reducible apply unlearn_kept
    | with_reducible apply routeMsg_kept
    | with_reducible apply noLink_kept
    | with_reducible apply Kept.ite
    | with_reducible apply Kept.foldl
    | with_reducible apply Kept.foldl_fst
    | intro _ _ _ _
    | intro _ _ _
    | intro _
    | (extract_lets +onlyGivenNames x; refine Kept.cut (t := x) ?_ ?_; (on_goal 1 => subst x); (on_goal 2 => (clear_value x; intro _)))
    | (extract_lets +onlyGivenNames x; clear_value x)
    | split
    | dsimp only
    | fail_if_no_progress (with_reducible apply Kept.parts))

theorem sendCtrlSoon_kept (x : Nat) (payload : List Byte) {z0 s : State} (hk : Kept z0 s) : Kept z0 (sendCtrlSoon x payload s) := by
  unfold sendCtrlSoon
  repeat' (first
    | with_reducible assumption
    | with_reducible apply sendCtrl_kept
    | with_reducible apply updTlk_kept
    | with_reducible apply Kept.ite
    | with_reducible apply Kept.foldl
    | with_reducible apply Kept.foldl_fst
    | intro _ _ _ _
    | intro _ _ _
    | intro _
    | (extract_lets +onlyGivenNames x; refine Kept.cut (t := x) ?_ ?_; (on_goal 1 => subst x); (on_goal 2 => (clear_value x; intro _)))
    | (extract_lets +onlyGivenNames x; clear_value x)
    | split
    | dsimp only
    | fail_if_no_progress (with_reducible apply Kept.parts))

theorem linksOff_kept  {z0 s : State} (hk : Kept z0 s) : Kept z0 (linksOff s) := by
  unfold linksOff
  repeat' (first
    | with_reducible assumption
    | with_reducible apply setFld_kept
    | with_reducible apply updTlk_kept
    | with_reducible apply Kept.ite
    | with_reducible apply Kept.foldl
    | intro _ _ _ _
    | intro _ _ _)

theorem answerRemote_kept (src tag arg : Nat) (op : NvOp) (st : Nvme) (data : List Byte) {z0 s : State} (hk : Kept z0 s) : Kept z0 (answerRemote src tag arg op st data s) := by
  unfold answerRemote
  repeat' (first
    | with_reducible assumption
    | with_reducible apply bumpFresh_kept
    | with_reducible apply sendMsg_kept)

end Sys2Proof.Machine
end

