-- ==== Sys2Proof/Laws/KeptPortOps.lean ====
section
/-! SUPPORT. What the operations of Machine/PortOps.lean keep. -/

namespace Sys2Proof.Machine

theorem tagPageBad_kept (key : Nat) {z0 s : State} (hk : Kept z0 s) : Kept z0 (tagPageBad key s) := by
  unfold tagPageBad
  repeat' (first
    | with_reducible assumption
    | with_reducible apply updTagBuf_kept
    | with_reducible apply tagWrite_kept)

theorem readLost_kept (c : NvCmd) {z0 s : State} (hk : Kept z0 s) : Kept z0 (readLost c s) := by
  unfold readLost
  repeat' (first
    | with_reducible assumption
    | with_reducible apply updEntry_kept
    | with_reducible apply updSop_kept
    | with_reducible apply forceRecon_kept
    | with_reducible apply reconRead_kept
    | with_reducible apply answerRemote_kept
    | with_reducible apply tagPageBad_kept
    | with_reducible apply Kept.ite
    | with_reducible apply Kept.ident
    | with_reducible apply Kept.foldl
    | intro _ _ _ _
    | intro _ _ _
    | intro _
    | split)

theorem writeLost_kept (c : NvCmd) {z0 s : State} (hk : Kept z0 s) : Kept z0 (writeLost c s) := by
  unfold writeLost
  repeat' (first
    | with_reducible assumption
    | with_reducible apply sopLoses_kept
    | with_reducible apply stripDone_kept
    | with_reducible apply updPlate_kept
    | with_reducible apply answerRemote_kept
    | with_reducible apply Kept.ite
    | with_reducible apply Kept.ident
    | with_reducible apply Kept.foldl
    | with_reducible apply Kept.foldl_fst
    | intro _ _ _ _
    | intro _ _ _
    | intro _
    | (extract_lets +onlyGivenNames x; refine Kept.cut (t := x) ?_ ?_; (on_goal 1 => subst x); (on_goal 2 => (clear_value x; intro _)))
    | (extract_lets +onlyGivenNames x; clear_value x)
    | split
    | dsimp only
    | fail_if_no_progress (with_reducible apply Kept.parts))

theorem updNs_kept (port nsid : Nat) (f : Ns → Ns) {z0 s : State} (hk : Kept z0 s) : Kept z0 (updNs port nsid f s) := by
  unfold updNs
  repeat' (first
    | with_reducible assumption
    | with_reducible apply updDport_kept
    | with_reducible apply Kept.ite
    | with_reducible apply Kept.foldl
    | with_reducible apply Kept.foldl_fst
    | intro _ _ _ _
    | intro _ _ _
    | intro _
    | (extract_lets +onlyGivenNames x; refine Kept.cut (t := x) ?_ ?_; (on_goal 1 => subst x); (on_goal 2 => (clear_value x; intro _)))
    | (extract_lets +onlyGivenNames x; clear_value x)
    | split
    | dsimp only
    | fail_if_no_progress (with_reducible apply Kept.parts))

theorem failAll_kept (ms : List (Nat × Nat)) (st : MState) {z0 s : State} (hk : Kept z0 s) : Kept z0 (failAll ms st s) := by
  unfold failAll
  repeat' (first
    | with_reducible assumption
    | with_reducible apply failMembers_kept
    | with_reducible apply Kept.ite
    | with_reducible apply Kept.foldl
    | with_reducible apply Kept.foldl_fst
    | intro _ _ _ _
    | intro _ _ _
    | intro _
    | (extract_lets +onlyGivenNames x; refine Kept.cut (t := x) ?_ ?_; (on_goal 1 => subst x); (on_goal 2 => (clear_value x; intro _)))
    | (extract_lets +onlyGivenNames x; clear_value x)
    | split
    | dsimp only
    | fail_if_no_progress (with_reducible apply Kept.parts))

theorem failDrive_kept (p : Nat) (st : MState) {z0 s : State} (hk : Kept z0 s) : Kept z0 (failDrive p st s) := by
  unfold failDrive
  repeat' (first
    | with_reducible assumption
    | with_reducible apply failAll_kept
    | with_reducible apply Kept.ite
    | with_reducible apply Kept.foldl
    | with_reducible apply Kept.foldl_fst
    | intro _ _ _ _
    | intro _ _ _
    | intro _
    | (extract_lets +onlyGivenNames x; refine Kept.cut (t := x) ?_ ?_; (on_goal 1 => subst x); (on_goal 2 => (clear_value x; intro _)))
    | (extract_lets +onlyGivenNames x; clear_value x)
    | split
    | dsimp only
    | fail_if_no_progress (with_reducible apply Kept.parts))

theorem sendAdmin_kept (p : Nat) (cmds : List NvAdmin) {z0 s : State} (hk : Kept z0 s) : Kept z0 (sendAdmin p cmds s) := by
  unfold sendAdmin
  repeat' (first
    | with_reducible assumption
    | with_reducible apply emit_kept
    | with_reducible apply leaveDriveL1_kept
    | with_reducible apply Kept.ite
    | with_reducible apply Kept.foldl
    | with_reducible apply Kept.foldl_fst
    | intro _ _ _ _
    | intro _ _ _
    | intro _
    | (extract_lets +onlyGivenNames x; refine Kept.cut (t := x) ?_ ?_; (on_goal 1 => subst x); (on_goal 2 => (clear_value x; intro _)))
    | (extract_lets +onlyGivenNames x; clear_value x)
    | split
    | dsimp only
    | fail_if_no_progress (with_reducible apply Kept.parts))

theorem ctrlReset_kept (p : Nat) {z0 s : State} (hk : Kept z0 s) : Kept z0 (ctrlReset p s) := by
  unfold ctrlReset
  repeat' (first
    | with_reducible assumption
    | with_reducible apply sendAdmin_kept
    | with_reducible apply updDport_kept
    | with_reducible apply incFld_kept
    | with_reducible apply readLost_kept
    | with_reducible apply updIo_kept
    | with_reducible apply Kept.ite
    | with_reducible apply Kept.foldl
    | with_reducible apply Kept.foldl_fst
    | intro _ _ _ _
    | intro _ _ _
    | intro _
    | (extract_lets +onlyGivenNames x; refine Kept.cut (t := x) ?_ ?_; (on_goal 1 => subst x); (on_goal 2 => (clear_value x; intro _)))
    | (extract_lets +onlyGivenNames x; clear_value x)
    | split
    | dsimp only
    | fail_if_no_progress (with_reducible apply Kept.parts))

theorem portTimeout_kept (p : Nat) {z0 s : State} (hk : Kept z0 s) : Kept z0 (portTimeout p s) := by
  unfold portTimeout
  repeat' (first
    | with_reducible assumption
    | with_reducible apply incFld_kept
    | with_reducible apply setEvt_kept
    | with_reducible apply updDport_kept
    | with_reducible apply failDrive_kept
    | with_reducible apply ctrlReset_kept
    | with_reducible apply Kept.ite
    | with_reducible apply Kept.foldl
    | intro _ _ _ _
    | intro _ _ _
    | intro _
    | (extract_lets +onlyGivenNames x; refine Kept.cut (t := x) ?_ ?_; (on_goal 1 => subst x); (on_goal 2 => (clear_value x; intro _)))
    | split)

theorem portConflict_kept (p : Nat) {z0 s : State} (hk : Kept z0 s) : Kept z0 (portConflict p s) := by
  unfold portConflict
  repeat' (first
    | with_reducible assumption
    | with_reducible apply setEvt_kept
    | with_reducible apply setFld_kept
    | with_reducible apply Kept.ite
    | with_reducible apply Kept.foldl
    | with_reducible apply Kept.foldl_fst
    | intro _ _ _ _
    | intro _ _ _
    | intro _
    | (extract_lets +onlyGivenNames x; refine Kept.cut (t := x) ?_ ?_; (on_goal 1 => subst x); (on_goal 2 => (clear_value x; intro _)))
    | (extract_lets +onlyGivenNames x; clear_value x)
    | split
    | dsimp only
    | fail_if_no_progress (with_reducible apply Kept.parts))

theorem servedEnd_kept (c : NvCmd) (st : Nvme) {z0 s : State} (hk : Kept z0 s) : Kept z0 (servedEnd c st s) := by
  unfold servedEnd
  repeat' (first
    | with_reducible assumption
    | with_reducible apply portConflict_kept
    | with_reducible apply portTimeout_kept
    | with_reducible apply Kept.ite
    | with_reducible apply Kept.foldl
    | with_reducible apply Kept.foldl_fst
    | intro _ _ _ _
    | intro _ _ _
    | intro _
    | (extract_lets +onlyGivenNames x; refine Kept.cut (t := x) ?_ ?_; (on_goal 1 => subst x); (on_goal 2 => (clear_value x; intro _)))
    | (extract_lets +onlyGivenNames x; clear_value x)
    | split
    | dsimp only
    | fail_if_no_progress (with_reducible apply Kept.parts))

theorem conflictAt_kept (c : NvCmd) {z0 s : State} (hk : Kept z0 s) : Kept z0 (conflictAt c s) := by
  unfold conflictAt
  repeat' (first
    | with_reducible assumption
    | with_reducible apply portConflict_kept
    | with_reducible apply resvConflict_kept
    | with_reducible apply Kept.ite
    | with_reducible apply Kept.foldl
    | with_reducible apply Kept.foldl_fst
    | intro _ _ _ _
    | intro _ _ _
    | intro _
    | (extract_lets +onlyGivenNames x; refine Kept.cut (t := x) ?_ ?_; (on_goal 1 => subst x); (on_goal 2 => (clear_value x; intro _)))
    | (extract_lets +onlyGivenNames x; clear_value x)
    | split
    | dsimp only
    | fail_if_no_progress (with_reducible apply Kept.parts))

theorem portOk_kept (c : NvCmd) {z0 s : State} (hk : Kept z0 s) : Kept z0 (portOk c s) := by
  unfold portOk
  repeat' (first
    | with_reducible assumption
    | with_reducible apply updDport_kept
    | with_reducible apply Kept.ite)

theorem readTimed_kept (c : NvCmd) {z0 s : State} (hk : Kept z0 s) : Kept z0 (readTimed c s) := by
  unfold readTimed
  repeat' (first
    | with_reducible assumption
    | with_reducible apply onlyIf_kept
    | with_reducible apply sketchHist_kept
    | with_reducible apply Kept.ite
    | with_reducible apply Kept.foldl
    | with_reducible apply Kept.foldl_fst
    | intro _ _ _ _
    | intro _ _ _
    | intro _
    | (extract_lets +onlyGivenNames x; refine Kept.cut (t := x) ?_ ?_; (on_goal 1 => subst x); (on_goal 2 => (clear_value x; intro _)))
    | (extract_lets +onlyGivenNames x; clear_value x)
    | split
    | dsimp only
    | fail_if_no_progress (with_reducible apply Kept.parts))

theorem resvSend_kept (p : Nat) (m : Nat × Member) (action key other : Nat) {z0 s : State} (hk : Kept z0 s) : Kept z0 (resvSend p m action key other s) := by
  unfold resvSend
  repeat' (first
    | with_reducible assumption
    | with_reducible apply sendNv_kept)

theorem memberResv_kept (p : Nat) (x : Plate) (m : Nat × Member) {z0 s : State} (hk : Kept z0 s) : Kept z0 (memberResv p x m s) := by
  unfold memberResv
  repeat' (first
    | with_reducible assumption
    | with_reducible apply resvSend_kept
    | with_reducible apply Kept.ite
    | with_reducible apply Kept.foldl
    | with_reducible apply Kept.foldl_fst
    | intro _ _ _ _
    | intro _ _ _
    | intro _
    | (extract_lets +onlyGivenNames x; refine Kept.cut (t := x) ?_ ?_; (on_goal 1 => subst x); (on_goal 2 => (clear_value x; intro _)))
    | (extract_lets +onlyGivenNames x; clear_value x)
    | split
    | dsimp only
    | fail_if_no_progress (with_reducible apply Kept.parts))

theorem plateResv_kept (p : Nat) {z0 s : State} (hk : Kept z0 s) : Kept z0 (plateResv p s) := by
  unfold plateResv
  repeat' (first
    | with_reducible assumption
    | with_reducible apply memberResv_kept
    | with_reducible apply updPlate_kept
    | with_reducible apply Kept.ite
    | with_reducible apply Kept.foldl
    | with_reducible apply Kept.foldl_fst
    | intro _ _ _ _
    | intro _ _ _
    | intro _
    | (extract_lets +onlyGivenNames x; refine Kept.cut (t := x) ?_ ?_; (on_goal 1 => subst x); (on_goal 2 => (clear_value x; intro _)))
    | (extract_lets +onlyGivenNames x; clear_value x)
    | split
    | dsimp only
    | fail_if_no_progress (with_reducible apply Kept.parts))

theorem joinResv_kept (p i : Nat) {z0 s : State} (hk : Kept z0 s) : Kept z0 (joinResv p i s) := by
  unfold joinResv
  repeat' (first
    | with_reducible assumption
    | with_reducible apply memberResv_kept
    | with_reducible apply Kept.ite
    | with_reducible apply Kept.foldl
    | with_reducible apply Kept.foldl_fst
    | intro _ _ _ _
    | intro _ _ _
    | intro _
    | (extract_lets +onlyGivenNames x; refine Kept.cut (t := x) ?_ ?_; (on_goal 1 => subst x); (on_goal 2 => (clear_value x; intro _)))
    | (extract_lets +onlyGivenNames x; clear_value x)
    | split
    | dsimp only
    | fail_if_no_progress (with_reducible apply Kept.parts))

theorem releaseResv_kept (p : Nat) (x : Plate) {z0 s : State} (hk : Kept z0 s) : Kept z0 (releaseResv p x s) := by
  unfold releaseResv
  repeat' (first
    | with_reducible assumption
    | with_reducible apply resvSend_kept
    | with_reducible apply Kept.ite
    | with_reducible apply Kept.foldl
    | with_reducible apply Kept.foldl_fst
    | intro _ _ _ _
    | intro _ _ _
    | intro _
    | (extract_lets +onlyGivenNames x; refine Kept.cut (t := x) ?_ ?_; (on_goal 1 => subst x); (on_goal 2 => (clear_value x; intro _)))
    | (extract_lets +onlyGivenNames x; clear_value x)
    | split
    | dsimp only
    | fail_if_no_progress (with_reducible apply Kept.parts))

theorem resvDone_kept (c : NvCmd) (action : Nat) (st : Nvme) {z0 s : State} (hk : Kept z0 s) : Kept z0 (resvDone c action st s) := by
  unfold resvDone
  repeat' (first
    | with_reducible assumption
    | with_reducible apply setFld_kept
    | with_reducible apply conflictAt_kept
    | with_reducible apply Kept.ite
    | with_reducible apply Kept.foldl
    | intro _ _ _ _
    | intro _ _ _
    | intro _
    | split)

theorem hostBytes_kept (c : NvCmd) {z0 s : State} (hk : Kept z0 s) : Kept z0 (hostBytes c s) := by
  unfold hostBytes
  repeat' (first
    | with_reducible assumption
    | with_reducible apply updPlate_kept
    | with_reducible apply Kept.ite)

theorem badStatus_kept (c : NvCmd) (st : Nvme) {z0 s : State} (hk : Kept z0 s) : Kept z0 (badStatus c st s) := by
  unfold badStatus
  repeat' (first
    | with_reducible assumption
    | with_reducible apply conflictAt_kept
    | with_reducible apply portTimeout_kept
    | with_reducible apply readLost_kept
    | with_reducible apply readError_kept
    | with_reducible apply writeLost_kept
    | with_reducible apply failMember_kept
    | with_reducible apply Kept.ite
    | with_reducible apply Kept.foldl
    | with_reducible apply Kept.foldl_fst
    | intro _ _ _ _
    | intro _ _ _
    | intro _
    | (extract_lets +onlyGivenNames x; refine Kept.cut (t := x) ?_ ?_; (on_goal 1 => subst x); (on_goal 2 => (clear_value x; intro _)))
    | (extract_lets +onlyGivenNames x; clear_value x)
    | split
    | dsimp only
    | fail_if_no_progress (with_reducible apply Kept.parts))

end Sys2Proof.Machine
end

