-- ==== Sys2Proof/Laws/KeptWriteOps.lean ====
section
/-! SUPPORT. What the operations of Machine/WriteOps.lean keep. -/

namespace Sys2Proof.Machine

theorem dropSlot_kept (k : Nat) {z0 s : State} (hk : Kept z0 s) : Kept z0 (dropSlot k s) := by
  unfold dropSlot
  repeat' (first
    | with_reducible assumption
    | with_reducible apply sendMsg_kept
    | with_reducible apply freeSlot_kept
    | with_reducible apply Kept.ite
    | with_reducible apply Kept.foldl
    | with_reducible apply Kept.foldl_fst
    | intro _ _ _ _
    | intro _ _ _
    | intro _
    | (extract_lets +onlyGivenNames x; refine Kept.cut (t := x) ?_ ?_; (on_goal 1 => subst x); (on_goal 2 => (clear_value x; intro _)))
    | (extract_lets +onlyGivenNames x; clear_value x)
    | split
    | dsimp only
    | fail_if_no_progress (with_reducible apply Kept.parts))

theorem retireSlot_kept (k : Nat) {z0 s : State} (hk : Kept z0 s) : Kept z0 (retireSlot k s) := by
  unfold retireSlot
  repeat' (first
    | with_reducible assumption
    | with_reducible apply updSlot_kept
    | with_reducible apply dropSlot_kept
    | with_reducible apply Kept.ite
    | with_reducible apply Kept.foldl
    | intro _ _ _ _
    | intro _ _ _
    | intro _
    | split)

theorem supersede_kept (e : JEntry) {z0 s : State} (hk : Kept z0 s) : Kept z0 (supersede e s) := by
  unfold supersede
  repeat' (first
    | with_reducible assumption
    | with_reducible apply retireSlot_kept
    | with_reducible apply Kept.ite
    | with_reducible apply Kept.foldl
    | with_reducible apply Kept.foldl_fst
    | intro _ _ _ _
    | intro _ _ _
    | intro _
    | (extract_lets +onlyGivenNames x; refine Kept.cut (t := x) ?_ ?_; (on_goal 1 => subst x); (on_goal 2 => (clear_value x; intro _)))
    | (extract_lets +onlyGivenNames x; clear_value x)
    | split
    | dsimp only
    | fail_if_no_progress (with_reducible apply Kept.parts))

theorem enterSlots_kept (e : JEntry) {z0 s : State} (hk : Kept z0 s) : Kept z0 (enterSlots e s) := by
  unfold enterSlots
  repeat' (first
    | with_reducible assumption
    | with_reducible apply dropSlot_kept
    | with_reducible apply updSlot_kept
    | with_reducible apply retireSlot_kept
    | with_reducible apply Kept.ite
    | with_reducible apply Kept.foldl
    | with_reducible apply Kept.foldl_fst
    | intro _ _ _ _
    | intro _ _ _
    | intro _
    | (extract_lets +onlyGivenNames x; refine Kept.cut (t := x) ?_ ?_; (on_goal 1 => subst x); (on_goal 2 => (clear_value x; intro _)))
    | (extract_lets +onlyGivenNames x; clear_value x)
    | split
    | dsimp only
    | fail_if_no_progress (with_reducible apply Kept.parts))

theorem complete_kept (j : Nat) (ok : Bool) {z0 s : State} (hk : Kept z0 s) : Kept z0 (complete j ok s) := by
  unfold complete
  repeat' (first
    | with_reducible assumption
    | with_reducible apply updEntry_kept
    | with_reducible apply posted_kept
    | with_reducible apply updCmd_kept
    | with_reducible apply partDone_kept
    | with_reducible apply onlyIf_kept
    | with_reducible apply Kept.ite
    | with_reducible apply Kept.foldl
    | with_reducible apply Kept.foldl_fst
    | intro _ _ _ _
    | intro _ _ _
    | intro _
    | (extract_lets +onlyGivenNames x; refine Kept.cut (t := x) ?_ ?_; (on_goal 1 => subst x); (on_goal 2 => (clear_value x; intro _)))
    | (extract_lets +onlyGivenNames x; clear_value x)
    | split
    | dsimp only
    | fail_if_no_progress (with_reducible apply Kept.parts))

theorem flushed_kept (p sn : Nat) (ls : List (Nat × Nat)) {z0 s : State} (hk : Kept z0 s) : Kept z0 (flushed p sn ls s) := by
  unfold flushed
  repeat' (first
    | with_reducible assumption
    | with_reducible apply cmdEnd_kept
    | with_reducible apply updCache_kept
    | with_reducible apply updIo_kept
    | with_reducible apply updCmd_kept
    | with_reducible apply partDone_kept
    | with_reducible apply Kept.ite
    | with_reducible apply Kept.foldl
    | with_reducible apply Kept.foldl_fst
    | intro _ _ _ _
    | intro _ _ _
    | intro _
    | (extract_lets +onlyGivenNames x; refine Kept.cut (t := x) ?_ ?_; (on_goal 1 => subst x); (on_goal 2 => (clear_value x; intro _)))
    | (extract_lets +onlyGivenNames x; clear_value x)
    | split
    | dsimp only
    | fail_if_no_progress (with_reducible apply Kept.parts))

theorem writeLog_kept (j : Nat) {z0 s : State} (hk : Kept z0 s) : Kept z0 (writeLog j s) := by
  unfold writeLog
  repeat' (first
    | with_reducible assumption
    | with_reducible apply memberReq_kept
    | with_reducible apply Kept.ite
    | with_reducible apply Kept.foldl
    | with_reducible apply Kept.foldl_fst
    | intro _ _ _ _
    | intro _ _ _
    | intro _
    | (extract_lets +onlyGivenNames x; refine Kept.cut (t := x) ?_ ?_; (on_goal 1 => subst x); (on_goal 2 => (clear_value x; intro _)))
    | (extract_lets +onlyGivenNames x; clear_value x)
    | split
    | dsimp only
    | fail_if_no_progress (with_reducible apply Kept.parts))

theorem refillCheck_kept (p : Nat) {z0 s : State} (hk : Kept z0 s) : Kept z0 (refillCheck p s) := by
  unfold refillCheck
  repeat' (first
    | with_reducible assumption
    | with_reducible apply updJp_kept
    | with_reducible apply Kept.ite
    | with_reducible apply Kept.foldl
    | with_reducible apply Kept.foldl_fst
    | intro _ _ _ _
    | intro _ _ _
    | intro _
    | (extract_lets +onlyGivenNames x; refine Kept.cut (t := x) ?_ ?_; (on_goal 1 => subst x); (on_goal 2 => (clear_value x; intro _)))
    | (extract_lets +onlyGivenNames x; clear_value x)
    | split
    | dsimp only
    | fail_if_no_progress (with_reducible apply Kept.parts))

theorem refillRecords_kept (p : Nat) {z0 s : State} (hk : Kept z0 s) : Kept z0 (refillRecords p s) := by
  unfold refillRecords
  repeat' (first
    | with_reducible assumption
    | with_reducible apply writeRecords_kept
    | with_reducible apply logEntry_kept
    | with_reducible apply refillCheck_kept
    | with_reducible apply Kept.ite
    | with_reducible apply Kept.foldl
    | with_reducible apply Kept.foldl_fst
    | intro _ _ _ _
    | intro _ _ _
    | intro _
    | (extract_lets +onlyGivenNames x; refine Kept.cut (t := x) ?_ ?_; (on_goal 1 => subst x); (on_goal 2 => (clear_value x; intro _)))
    | (extract_lets +onlyGivenNames x; clear_value x)
    | split
    | dsimp only
    | fail_if_no_progress (with_reducible apply Kept.parts))

theorem dataStaged_kept (j : Nat) {z0 s : State} (hk : Kept z0 s) : Kept z0 (dataStaged j s) := by
  unfold dataStaged
  repeat' (first
    | with_reducible assumption
    | with_reducible apply setJState_kept
    | with_reducible apply onlyIf_kept
    | with_reducible apply lostwDel_kept
    | with_reducible apply supersede_kept
    | with_reducible apply putLock_kept
    | with_reducible apply complete_kept
    | with_reducible apply Kept.ite
    | with_reducible apply Kept.foldl
    | with_reducible apply Kept.foldl_fst
    | intro _ _ _ _
    | intro _ _ _
    | intro _
    | (extract_lets +onlyGivenNames x; refine Kept.cut (t := x) ?_ ?_; (on_goal 1 => subst x); (on_goal 2 => (clear_value x; intro _)))
    | (extract_lets +onlyGivenNames x; clear_value x)
    | split
    | dsimp only
    | fail_if_no_progress (with_reducible apply Kept.parts))

theorem cacheCommit_kept (j : Nat) {z0 s : State} (hk : Kept z0 s) : Kept z0 (cacheCommit j s) := by
  unfold cacheCommit
  repeat' (first
    | with_reducible assumption
    | with_reducible apply complete_kept
    | with_reducible apply delLost_kept
    | with_reducible apply lostwDel_kept
    | with_reducible apply enterSlots_kept
    | with_reducible apply setJState_kept
    | with_reducible apply Kept.ite
    | with_reducible apply Kept.foldl
    | with_reducible apply Kept.foldl_fst
    | intro _ _ _ _
    | intro _ _ _
    | intro _
    | (extract_lets +onlyGivenNames x; refine Kept.cut (t := x) ?_ ?_; (on_goal 1 => subst x); (on_goal 2 => (clear_value x; intro _)))
    | (extract_lets +onlyGivenNames x; clear_value x)
    | split
    | dsimp only
    | fail_if_no_progress (with_reducible apply Kept.parts))

theorem writeStrip_kept (pos mem : Nat) (why : Purpose) (x : Plate) (e : JEntry) {z0 s : State} (hk : Kept z0 s) : Kept z0 (writeStrip pos mem why x e s) := by
  unfold writeStrip
  repeat' (first
    | with_reducible assumption
    | with_reducible apply memberReq_kept
    | with_reducible apply Kept.ite
    | with_reducible apply Kept.foldl
    | intro _ _ _ _
    | intro _ _ _)

theorem startWrites_kept (j : Nat) {z0 s : State} (hk : Kept z0 s) : Kept z0 (startWrites j s) := by
  unfold startWrites
  repeat' (first
    | with_reducible assumption
    | with_reducible apply updEntry_kept
    | with_reducible apply writeStrip_kept
    | with_reducible apply stripDone_kept
    | with_reducible apply Kept.ite
    | with_reducible apply Kept.foldl
    | with_reducible apply Kept.foldl_fst
    | intro _ _ _ _
    | intro _ _ _
    | intro _
    | (extract_lets +onlyGivenNames x; refine Kept.cut (t := x) ?_ ?_; (on_goal 1 => subst x); (on_goal 2 => (clear_value x; intro _)))
    | (extract_lets +onlyGivenNames x; clear_value x)
    | split
    | dsimp only
    | fail_if_no_progress (with_reducible apply Kept.parts))

theorem recordDue_kept (j : Nat) {z0 s : State} (hk : Kept z0 s) : Kept z0 (recordDue j s) := by
  unfold recordDue
  repeat' (first
    | with_reducible assumption
    | with_reducible apply updEntry_kept
    | with_reducible apply writeRecords_kept
    | with_reducible apply Kept.ite
    | with_reducible apply Kept.foldl
    | intro _ _ _ _
    | intro _ _ _
    | intro _
    | split)

theorem recordsOn_kept (j : Nat) {z0 s : State} (hk : Kept z0 s) : Kept z0 (recordsOn j s) := by
  unfold recordsOn
  repeat' (first
    | with_reducible assumption
    | with_reducible apply startWrites_kept
    | with_reducible apply recordDue_kept
    | with_reducible apply Kept.ite
    | with_reducible apply Kept.foldl
    | intro _ _ _ _
    | intro _ _ _
    | intro _
    | (extract_lets +onlyGivenNames x; clear_value x)
    | split)

theorem parityDone_kept (j : Nat) {z0 s : State} (hk : Kept z0 s) : Kept z0 (parityDone j s) := by
  unfold parityDone
  repeat' (first
    | with_reducible assumption
    | with_reducible apply updEntry_kept
    | with_reducible apply setJState_kept
    | with_reducible apply startWrites_kept
    | with_reducible apply recordDue_kept
    | with_reducible apply recordsOn_kept
    | with_reducible apply Kept.ite
    | with_reducible apply Kept.foldl
    | intro _ _ _ _
    | intro _ _ _
    | intro _
    | split)

theorem releaseEntry_kept (j : Nat) (done : Bool) {z0 s : State} (hk : Kept z0 s) : Kept z0 (releaseEntry j done s) := by
  unfold releaseEntry
  repeat' (first
    | with_reducible assumption
    | with_reducible apply mirrorAs_kept
    | with_reducible apply dropJob_kept
    | with_reducible apply updIo_kept
    | with_reducible apply dropNv_kept
    | with_reducible apply dropSlot_kept
    | with_reducible apply incFld_kept
    | with_reducible apply updSlot_kept
    | with_reducible apply freeLock_kept
    | with_reducible apply onlyIf_kept
    | with_reducible apply writeRecords_kept
    | with_reducible apply startLabel_kept
    | with_reducible apply updJp_kept
    | with_reducible apply Kept.ite
    | with_reducible apply Kept.foldl
    | with_reducible apply Kept.foldl_fst
    | intro _ _ _ _
    | intro _ _ _
    | intro _
    | (extract_lets +onlyGivenNames x; refine Kept.cut (t := x) ?_ ?_; (on_goal 1 => subst x); (on_goal 2 => (clear_value x; intro _)))
    | (extract_lets +onlyGivenNames x; clear_value x)
    | split
    | dsimp only
    | fail_if_no_progress (with_reducible apply Kept.parts))

theorem loseSegment_kept (j : Nat) {z0 s : State} (hk : Kept z0 s) : Kept z0 (loseSegment j s) := by
  unfold loseSegment
  repeat' (first
    | with_reducible assumption
    | with_reducible apply keepWaits_kept
    | with_reducible apply updIo_kept
    | with_reducible apply failAt_kept
    | with_reducible apply partDone_kept
    | with_reducible apply releaseEntry_kept
    | with_reducible apply complete_kept
    | with_reducible apply newSop_kept
    | with_reducible apply Kept.ite
    | with_reducible apply Kept.foldl
    | with_reducible apply Kept.foldl_fst
    | intro _ _ _ _
    | intro _ _ _
    | intro _
    | (extract_lets +onlyGivenNames x; refine Kept.cut (t := x) ?_ ?_; (on_goal 1 => subst x); (on_goal 2 => (clear_value x; intro _)))
    | (extract_lets +onlyGivenNames x; clear_value x)
    | split
    | dsimp only
    | fail_if_no_progress (with_reducible apply Kept.parts))

end Sys2Proof.Machine
end

