-- ==== Sys2Proof/Laws/KeptReadOps.lean ====
section
/-! SUPPORT. What the operations of Machine/ReadOps.lean keep. -/

namespace Sys2Proof.Machine

theorem deliver_kept (n off : Nat) (b : Block) {z0 s : State} (hk : Kept z0 s) : Kept z0 (deliver n off b s) := by
  unfold deliver
  repeat' (first
    | with_reducible assumption
    | with_reducible apply updCmd_kept
    | with_reducible apply toHost_kept
    | with_reducible apply Kept.ite
    | with_reducible apply Kept.foldl
    | intro _ _ _ _
    | intro _ _ _
    | intro _
    | (extract_lets +onlyGivenNames x; refine Kept.cut (t := x) ?_ ?_; (on_goal 1 => subst x); (on_goal 2 => (clear_value x; intro _)))
    | split)

theorem failRead_kept (n off : Nat) (st : Status) {z0 s : State} (hk : Kept z0 s) : Kept z0 (failRead n off st s) := by
  unfold failRead
  repeat' (first
    | with_reducible assumption
    | with_reducible apply failAt_kept
    | with_reducible apply Kept.ite
    | with_reducible apply Kept.foldl
    | intro _ _ _ _
    | intro _ _ _
    | intro _
    | split)

theorem deliverStaged_kept (n off p sn : Nat) (b : Block) {z0 s : State} (hk : Kept z0 s) : Kept z0 (deliverStaged n off p sn b s) := by
  unfold deliverStaged
  repeat' (first
    | with_reducible assumption
    | with_reducible apply deliver_kept
    | with_reducible apply updIo_kept
    | with_reducible apply pinStripe_kept
    | with_reducible apply Kept.ite
    | with_reducible apply Kept.foldl
    | with_reducible apply Kept.foldl_fst
    | intro _ _ _ _
    | intro _ _ _
    | intro _
    | (extract_lets +onlyGivenNames x; refine Kept.cut (t := x) ?_ ?_; (on_goal 1 => subst x); (on_goal 2 => (clear_value x; intro _)))
    | (extract_lets +onlyGivenNames x; clear_value x)
    | split
    | dsimp only
    | fail_if_no_progress (with_reducible apply Kept.parts))

theorem deferBlock_kept (n off : Nat) {z0 s : State} (hk : Kept z0 s) : Kept z0 (deferBlock n off s) := by
  unfold deferBlock
  repeat' (first
    | with_reducible assumption
    | with_reducible apply addParts_kept
    | with_reducible apply updCmd_kept
    | with_reducible apply Kept.ite
    | with_reducible apply Kept.foldl
    | with_reducible apply Kept.foldl_fst
    | intro _ _ _ _
    | intro _ _ _
    | intro _
    | (extract_lets +onlyGivenNames x; refine Kept.cut (t := x) ?_ ?_; (on_goal 1 => subst x); (on_goal 2 => (clear_value x; intro _)))
    | (extract_lets +onlyGivenNames x; clear_value x)
    | split
    | dsimp only
    | fail_if_no_progress (with_reducible apply Kept.parts))

theorem serveBlocks_kept (n : Nat) (offs : List Nat) {z0 s : State} (hk : Kept z0 s) : Kept z0 (serveBlocks n offs s) := by
  unfold serveBlocks
  repeat' (first
    | with_reducible assumption
    | with_reducible apply failRead_kept
    | with_reducible apply deliver_kept
    | with_reducible apply deliverStaged_kept
    | with_reducible apply deferBlock_kept
    | with_reducible apply newSop_kept
    | with_reducible apply addParts_kept
    | with_reducible apply readPos_kept
    | with_reducible apply Kept.ite
    | with_reducible apply Kept.foldl
    | with_reducible apply Kept.foldl_fst
    | intro _ _ _ _
    | intro _ _ _
    | intro _
    | (extract_lets +onlyGivenNames x; refine Kept.cut (t := x) ?_ ?_; (on_goal 1 => subst x); (on_goal 2 => (clear_value x; intro _)))
    | (extract_lets +onlyGivenNames x; clear_value x)
    | split
    | dsimp only
    | fail_if_no_progress (with_reducible apply Kept.parts))

theorem readPart_kept (n : Nat) (offs : List Nat) {z0 s : State} (hk : Kept z0 s) : Kept z0 (readPart n offs s) := by
  unfold readPart
  repeat' (first
    | with_reducible assumption
    | with_reducible apply partDone_kept
    | with_reducible apply addParts_kept
    | with_reducible apply serveBlocks_kept)

theorem resumeDeferred_kept  {z0 s : State} (hk : Kept z0 s) : Kept z0 (resumeDeferred s) := by
  unfold resumeDeferred
  repeat' (first
    | with_reducible assumption
    | with_reducible apply updCmd_kept
    | with_reducible apply partDone_kept
    | with_reducible apply serveBlocks_kept
    | with_reducible apply Kept.ite
    | with_reducible apply Kept.foldl
    | intro _ _ _ _
    | intro _ _ _)

theorem unpinFn_kept (port func : Nat) {z0 s : State} (hk : Kept z0 s) : Kept z0 (unpinFn port func s) := by
  unfold unpinFn
  repeat' (first
    | with_reducible assumption
    | with_reducible apply resumeDeferred_kept
    | with_reducible apply pinStripe_kept
    | with_reducible apply updIo_kept
    | with_reducible apply Kept.ite
    | with_reducible apply Kept.foldl
    | with_reducible apply Kept.foldl_fst
    | intro _ _ _ _
    | intro _ _ _
    | intro _
    | (extract_lets +onlyGivenNames x; refine Kept.cut (t := x) ?_ ?_; (on_goal 1 => subst x); (on_goal 2 => (clear_value x; intro _)))
    | (extract_lets +onlyGivenNames x; clear_value x)
    | split
    | dsimp only
    | fail_if_no_progress (with_reducible apply Kept.parts))

theorem memberAnswer_kept (c : NvCmd) (n off : Nat) (blks : List TBlk) {z0 s : State} (hk : Kept z0 s) : Kept z0 (memberAnswer c n off blks s) := by
  unfold memberAnswer
  repeat' (first
    | with_reducible assumption
    | with_reducible apply deliverStaged_kept
    | with_reducible apply deferBlock_kept
    | with_reducible apply deliver_kept
    | with_reducible apply onlyIf_kept
    | with_reducible apply incFld_kept
    | with_reducible apply newSop_kept
    | with_reducible apply addParts_kept
    | with_reducible apply partDone_kept
    | with_reducible apply Kept.ite
    | with_reducible apply Kept.foldl
    | with_reducible apply Kept.foldl_fst
    | intro _ _ _ _
    | intro _ _ _
    | intro _
    | (extract_lets +onlyGivenNames x; refine Kept.cut (t := x) ?_ ?_; (on_goal 1 => subst x); (on_goal 2 => (clear_value x; intro _)))
    | (extract_lets +onlyGivenNames x; clear_value x)
    | split
    | dsimp only
    | fail_if_no_progress (with_reducible apply Kept.parts))

theorem pipeBytes_kept (b n : Nat) (maint : Bool) (ctx : Option Nat) {z0 s : State} (hk : Kept z0 s) : Kept z0 (pipeBytes b n maint ctx s) := by
  unfold pipeBytes
  repeat' (first
    | with_reducible assumption
    | with_reducible apply add64_kept
    | with_reducible apply onlyIf_kept
    | with_reducible apply Kept.ite
    | with_reducible apply Kept.foldl
    | with_reducible apply Kept.foldl_fst
    | intro _ _ _ _
    | intro _ _ _
    | intro _
    | (extract_lets +onlyGivenNames x; refine Kept.cut (t := x) ?_ ?_; (on_goal 1 => subst x); (on_goal 2 => (clear_value x; intro _)))
    | (extract_lets +onlyGivenNames x; clear_value x)
    | split
    | dsimp only
    | fail_if_no_progress (with_reducible apply Kept.parts))

theorem sopWrite_kept (id : Nat) (keys : List Nat) (home : Nat → Option Nat) {z0 s : State} (hk : Kept z0 s) : Kept z0 (sopWrite id keys home s) := by
  unfold sopWrite
  repeat' (first
    | with_reducible assumption
    | with_reducible apply memberReq_kept
    | with_reducible apply graverMoved_kept
    | with_reducible apply Kept.ite
    | with_reducible apply Kept.ident
    | with_reducible apply Kept.foldl
    | with_reducible apply Kept.foldl_fst
    | intro _ _ _ _
    | intro _ _ _
    | intro _
    | (extract_lets +onlyGivenNames x; refine Kept.cut (t := x) ?_ ?_; (on_goal 1 => subst x); (on_goal 2 => (clear_value x; intro _)))
    | (extract_lets +onlyGivenNames x; clear_value x)
    | split
    | dsimp only
    | fail_if_no_progress (with_reducible apply Kept.parts))

theorem sopTags_kept (id pos : Nat) (mem : Nat) {z0 s : State} (hk : Kept z0 s) : Kept z0 (sopTags id pos mem s) := by
  unfold sopTags
  repeat' (first
    | with_reducible assumption
    | with_reducible apply tagDue_kept
    | with_reducible apply Kept.ite
    | with_reducible apply Kept.ident
    | with_reducible apply Kept.foldl
    | intro _ _ _ _
    | intro _ _ _
    | intro _
    | (extract_lets +onlyGivenNames x; clear_value x)
    | split)

theorem sopWrote_kept (id pos mem : Nat) {z0 s : State} (hk : Kept z0 s) : Kept z0 (sopWrote id pos mem s) := by
  unfold sopWrote
  repeat' (first
    | with_reducible assumption
    | with_reducible apply sopCheck_kept
    | with_reducible apply sopTags_kept
    | with_reducible apply Kept.ite)

theorem loseBlocks_kept (id : Nat) {z0 s : State} (hk : Kept z0 s) : Kept z0 (loseBlocks id s) := by
  unfold loseBlocks
  repeat' (first
    | with_reducible assumption
    | with_reducible apply updSop_kept
    | with_reducible apply addLost_kept
    | with_reducible apply writeLbt_kept
    | with_reducible apply Kept.ite
    | with_reducible apply Kept.ident
    | with_reducible apply Kept.foldl
    | with_reducible apply Kept.foldl_fst
    | intro _ _ _ _
    | intro _ _ _
    | intro _
    | (extract_lets +onlyGivenNames x; refine Kept.cut (t := x) ?_ ?_; (on_goal 1 => subst x); (on_goal 2 => (clear_value x; intro _)))
    | (extract_lets +onlyGivenNames x; clear_value x)
    | split
    | dsimp only
    | fail_if_no_progress (with_reducible apply Kept.parts))

theorem reconDone_kept (id cmd off : Nat) {z0 s : State} (hk : Kept z0 s) : Kept z0 (reconDone id cmd off s) := by
  unfold reconDone
  repeat' (first
    | with_reducible assumption
    | with_reducible apply deliver_kept
    | with_reducible apply incFld_kept
    | with_reducible apply failRead_kept
    | with_reducible apply addSuspect_kept
    | with_reducible apply onlyIf_kept
    | with_reducible apply updCmd_kept
    | with_reducible apply updSop_kept
    | with_reducible apply plEvt_kept
    | with_reducible apply sopWrite_kept
    | with_reducible apply partDone_kept
    | with_reducible apply sopCheck_kept
    | with_reducible apply loseBlocks_kept
    | with_reducible apply Kept.ite
    | with_reducible apply Kept.ident
    | with_reducible apply Kept.foldl
    | with_reducible apply Kept.foldl_fst
    | intro _ _ _ _
    | intro _ _ _
    | intro _
    | (extract_lets +onlyGivenNames x; refine Kept.cut (t := x) ?_ ?_; (on_goal 1 => subst x); (on_goal 2 => (clear_value x; intro _)))
    | (extract_lets +onlyGivenNames x; clear_value x)
    | split
    | dsimp only
    | fail_if_no_progress (with_reducible apply Kept.parts))

theorem lossDone_kept (id : Nat) {z0 s : State} (hk : Kept z0 s) : Kept z0 (lossDone id s) := by
  unfold lossDone
  repeat' (first
    | with_reducible assumption
    | with_reducible apply updSop_kept
    | with_reducible apply sopCheck_kept
    | with_reducible apply loseBlocks_kept
    | with_reducible apply Kept.ite
    | with_reducible apply Kept.ident
    | with_reducible apply Kept.foldl
    | intro _ _ _ _
    | intro _ _ _
    | intro _
    | (extract_lets +onlyGivenNames x; clear_value x)
    | split)

theorem rebuildDone_kept (id : Nat) {z0 s : State} (hk : Kept z0 s) : Kept z0 (rebuildDone id s) := by
  unfold rebuildDone
  repeat' (first
    | with_reducible assumption
    | with_reducible apply restartSop_kept
    | with_reducible apply updSop_kept
    | with_reducible apply onlyIf_kept
    | with_reducible apply plEvt_kept
    | with_reducible apply incFld_kept
    | with_reducible apply loseBlocks_kept
    | with_reducible apply sopWrite_kept
    | with_reducible apply Kept.ite
    | with_reducible apply Kept.ident
    | with_reducible apply Kept.foldl
    | with_reducible apply Kept.foldl_fst
    | intro _ _ _ _
    | intro _ _ _
    | intro _
    | (extract_lets +onlyGivenNames x; refine Kept.cut (t := x) ?_ ?_; (on_goal 1 => subst x); (on_goal 2 => (clear_value x; intro _)))
    | (extract_lets +onlyGivenNames x; clear_value x)
    | split
    | dsimp only
    | fail_if_no_progress (with_reducible apply Kept.parts))

end Sys2Proof.Machine
end

