-- ==== Sys2Proof/Laws/KeptRings.lean ====
section
/-! SUPPORT. What the operations of Machine/Rings.lean keep. -/

namespace Sys2Proof.Machine

theorem sqTail_kept (c v : Nat) {z0 s : State} (hk : Kept z0 s) : Kept z0 (sqTail c v s) := by
  unfold sqTail
  repeat' (first
    | with_reducible assumption
    | with_reducible apply setFld_kept
    | with_reducible apply updCtx_kept
    | with_reducible apply ringError_kept
    | with_reducible apply Kept.ite)

theorem cqHead_kept (c v : Nat) {z0 s : State} (hk : Kept z0 s) : Kept z0 (cqHead c v s) := by
  unfold cqHead
  repeat' (first
    | with_reducible assumption
    | with_reducible apply setFld_kept
    | with_reducible apply updCtx_kept
    | with_reducible apply ringError_kept
    | with_reducible apply Kept.ite)

theorem doorbell_kept (w : Win) (c size : Nat) (f : State → State) {z0 s : State} (h_f : ∀ r t, Kept r t → Kept r (f t)) (hk : Kept z0 s) : Kept z0 (doorbell w c size f s) := by
  unfold doorbell
  repeat' (first
    | with_reducible assumption
    | with_reducible apply h_f
    | with_reducible apply winLog_kept
    | with_reducible apply discardDb_kept
    | with_reducible apply Kept.ite
    | with_reducible apply Kept.foldl
    | with_reducible apply Kept.foldl_fst
    | intro _ _ _ _
    | intro _ _ _
    | intro _
    | (extract_lets +onlyGivenNames x; refine Kept.cut (t := x) ?_ ?_; (on_goal 1 => subst x); (on_goal 2 => (clear_value x; intro _)))
    | (extract_lets +onlyGivenNames x; clear_value x)
    | split
    | dsimp only
    | fail_if_no_progress (with_reducible apply Kept.parts))

theorem setCredit_kept (c : Nat) (v : Int) {z0 s : State} (hk : Kept z0 s) : Kept z0 (setCredit c v s) := by
  unfold setCredit
  repeat' (first
    | with_reducible assumption
    | with_reducible apply setFld_kept)

theorem fetchEntry_kept (c : Nat) {z0 s : State} (hk : Kept z0 s) : Kept z0 (fetchEntry c s) := by
  unfold fetchEntry
  repeat' (first
    | with_reducible assumption
    | with_reducible apply hostRead_kept
    | with_reducible apply updCtx_kept)

theorem charge_kept (c n : Nat) {z0 s : State} (hk : Kept z0 s) : Kept z0 (charge c n s) := by
  unfold charge
  repeat' (first
    | with_reducible assumption
    | with_reducible apply setCredit_kept
    | with_reducible apply Kept.ite)

theorem chargeOne_kept (x : Cmd) {z0 s : State} (hk : Kept z0 s) : Kept z0 (chargeOne x s) := by
  unfold chargeOne
  repeat' (first
    | with_reducible assumption
    | with_reducible apply setCredit_kept
    | with_reducible apply Kept.ite
    | with_reducible apply Kept.foldl
    | with_reducible apply Kept.foldl_fst
    | intro _ _ _ _
    | intro _ _ _
    | intro _
    | (extract_lets +onlyGivenNames x; refine Kept.cut (t := x) ?_ ?_; (on_goal 1 => subst x); (on_goal 2 => (clear_value x; intro _)))
    | (extract_lets +onlyGivenNames x; clear_value x)
    | split
    | dsimp only
    | fail_if_no_progress (with_reducible apply Kept.parts))

theorem consume_kept (c : Nat) (r : List Byte) {z0 s : State} (hk : Kept z0 s) : Kept z0 (consume c r s) := by
  unfold consume
  repeat' (first
    | with_reducible assumption
    | with_reducible apply incFld_kept
    | with_reducible apply setFld_kept
    | with_reducible apply updCtx_kept
    | with_reducible apply updIo_kept
    | with_reducible apply charge_kept
    | with_reducible apply endCmd_kept
    | with_reducible apply needRole_kept
    | with_reducible apply hostRead_kept
    | with_reducible apply Kept.ite
    | with_reducible apply Kept.foldl
    | with_reducible apply Kept.foldl_fst
    | intro _ _ _ _
    | intro _ _ _
    | intro _
    | (extract_lets +onlyGivenNames x; refine Kept.cut (t := x) ?_ ?_; (on_goal 1 => subst x); (on_goal 2 => (clear_value x; intro _)))
    | (extract_lets +onlyGivenNames x; clear_value x)
    | split
    | dsimp only
    | fail_if_no_progress (with_reducible apply Kept.parts))

theorem dropFetches_kept (c : Nat) {z0 s : State} (hk : Kept z0 s) : Kept z0 (dropFetches c s) := by
  unfold dropFetches
  repeat' (first
    | with_reducible assumption
    | with_reducible apply updCtx_kept
    | with_reducible apply updIo_kept
    | with_reducible apply Kept.ite
    | with_reducible apply Kept.foldl
    | with_reducible apply Kept.foldl_fst
    | intro _ _ _ _
    | intro _ _ _
    | intro _
    | (extract_lets +onlyGivenNames x; refine Kept.cut (t := x) ?_ ?_; (on_goal 1 => subst x); (on_goal 2 => (clear_value x; intro _)))
    | (extract_lets +onlyGivenNames x; clear_value x)
    | split
    | dsimp only
    | fail_if_no_progress (with_reducible apply Kept.parts))

theorem takeEntries_kept (c n : Nat) {z0 s : State} (hk : Kept z0 s) : Kept z0 (takeEntries c n s) := by
  induction n generalizing s with
  | zero => exact hk
  | succ n ih =>
    unfold takeEntries
    repeat' (first
      | with_reducible assumption
      | with_reducible apply ih
      | with_reducible apply consume_kept
      | with_reducible apply updCtx_kept
      | with_reducible apply ringError_kept
      | with_reducible apply dropFetches_kept
      | dsimp only
      | split)

theorem entryReceived_kept (tag : Nat) (r : HostRd) {z0 s : State} (hk : Kept z0 s) : Kept z0 (entryReceived tag r s) := by
  unfold entryReceived
  repeat' (first
    | with_reducible assumption
    | with_reducible apply takeEntries_kept
    | with_reducible apply updIo_kept
    | with_reducible apply updCtx_kept
    | with_reducible apply Kept.ite
    | with_reducible apply Kept.foldl
    | with_reducible apply Kept.foldl_fst
    | intro _ _ _ _
    | intro _ _ _
    | intro _
    | (extract_lets +onlyGivenNames x; refine Kept.cut (t := x) ?_ ?_; (on_goal 1 => subst x); (on_goal 2 => (clear_value x; intro _)))
    | (extract_lets +onlyGivenNames x; clear_value x)
    | split
    | dsimp only
    | fail_if_no_progress (with_reducible apply Kept.parts))

theorem sglArrived_kept (n : Nat) (r : HostRd) {z0 s : State} (hk : Kept z0 s) : Kept z0 (sglArrived n r s) := by
  unfold sglArrived
  repeat' (first
    | with_reducible assumption
    | with_reducible apply endCmd_kept
    | with_reducible apply chargeOne_kept
    | with_reducible apply updCmd_kept
    | with_reducible apply Kept.ite
    | with_reducible apply Kept.foldl
    | with_reducible apply Kept.foldl_fst
    | intro _ _ _ _
    | intro _ _ _
    | intro _
    | (extract_lets +onlyGivenNames x; refine Kept.cut (t := x) ?_ ?_; (on_goal 1 => subst x); (on_goal 2 => (clear_value x; intro _)))
    | (extract_lets +onlyGivenNames x; clear_value x)
    | split
    | dsimp only
    | fail_if_no_progress (with_reducible apply Kept.parts))

theorem cfgGood_kept (c : Nat) {z0 s : State} (hk : Kept z0 s) : Kept z0 (cfgGood c s) := by
  unfold cfgGood
  repeat' (first
    | with_reducible assumption
    | with_reducible apply setFld_kept)

theorem zeroCounters_kept (c : Nat) {z0 s : State} (hk : Kept z0 s) : Kept z0 (zeroCounters c s) := by
  unfold zeroCounters
  repeat' (first
    | with_reducible assumption
    | with_reducible apply setFld_kept
    | with_reducible apply Kept.ite
    | with_reducible apply Kept.foldl
    | intro _ _ _ _
    | intro _ _ _)

theorem dropWriter_kept (c : Nat) {z0 s : State} (hk : Kept z0 s) : Kept z0 (dropWriter c s) := by
  unfold dropWriter
  repeat' (first
    | with_reducible assumption
    | with_reducible apply updCache_kept
    | with_reducible apply Kept.ite
    | with_reducible apply Kept.foldl
    | with_reducible apply Kept.foldl_fst
    | intro _ _ _ _
    | intro _ _ _
    | intro _
    | (extract_lets +onlyGivenNames x; refine Kept.cut (t := x) ?_ ?_; (on_goal 1 => subst x); (on_goal 2 => (clear_value x; intro _)))
    | (extract_lets +onlyGivenNames x; clear_value x)
    | split
    | dsimp only
    | fail_if_no_progress (with_reducible apply Kept.parts))

theorem bindWrite_kept (c v : Nat) {z0 s : State} (hk : Kept z0 s) : Kept z0 (bindWrite c v s) := by
  unfold bindWrite
  repeat' (first
    | with_reducible assumption
    | with_reducible apply cfgBad_kept
    | with_reducible apply cfgGood_kept
    | with_reducible apply setFld_kept
    | with_reducible apply zeroCounters_kept
    | with_reducible apply dropWriter_kept
    | with_reducible apply Kept.ite
    | with_reducible apply Kept.ident
    | with_reducible apply Kept.foldl
    | with_reducible apply Kept.foldl_fst
    | intro _ _ _ _
    | intro _ _ _
    | intro _
    | (extract_lets +onlyGivenNames x; refine Kept.cut (t := x) ?_ ?_; (on_goal 1 => subst x); (on_goal 2 => (clear_value x; intro _)))
    | (extract_lets +onlyGivenNames x; clear_value x)
    | split
    | dsimp only
    | fail_if_no_progress (with_reducible apply Kept.parts))

theorem settle_kept (c : Nat) {z0 s : State} (hk : Kept z0 s) : Kept z0 (settle c s) := by
  unfold settle
  repeat' (first
    | with_reducible assumption
    | with_reducible apply setFld_kept
    | with_reducible apply setEvt_kept
    | with_reducible apply onlyIf_kept
    | with_reducible apply Kept.ite)

theorem pauseCause_kept (c : Nat) (f : FRef) {z0 s : State} (hk : Kept z0 s) : Kept z0 (pauseCause c f s) := by
  unfold pauseCause
  repeat' (first
    | with_reducible assumption
    | with_reducible apply setFld_kept
    | with_reducible apply settle_kept
    | with_reducible apply Kept.ite)

theorem unpauseCause_kept (c : Nat) (f : FRef) {z0 s : State} (hk : Kept z0 s) : Kept z0 (unpauseCause c f s) := by
  unfold unpauseCause
  repeat' (first
    | with_reducible assumption
    | with_reducible apply setFld_kept
    | with_reducible apply settle_kept
    | with_reducible apply Kept.ite)

theorem runSet_kept (c : Nat) {z0 s : State} (hk : Kept z0 s) : Kept z0 (runSet c s) := by
  unfold runSet
  repeat' (first
    | with_reducible assumption
    | with_reducible apply setFld_kept
    | with_reducible apply updCtx_kept
    | with_reducible apply cfgGood_kept
    | with_reducible apply settle_kept
    | with_reducible apply setFlag_kept
    | with_reducible apply cfgBad_kept
    | with_reducible apply unpauseCause_kept
    | with_reducible apply Kept.ite
    | with_reducible apply Kept.foldl
    | with_reducible apply Kept.foldl_fst
    | intro _ _ _ _
    | intro _ _ _
    | intro _
    | (extract_lets +onlyGivenNames x; refine Kept.cut (t := x) ?_ ?_; (on_goal 1 => subst x); (on_goal 2 => (clear_value x; intro _)))
    | (extract_lets +onlyGivenNames x; clear_value x)
    | split
    | dsimp only
    | fail_if_no_progress (with_reducible apply Kept.parts))

theorem runClear_kept (c : Nat) {z0 s : State} (hk : Kept z0 s) : Kept z0 (runClear c s) := by
  unfold runClear
  repeat' (first
    | with_reducible assumption
    | with_reducible apply setFld_kept
    | with_reducible apply pauseCause_kept
    | with_reducible apply Kept.ite)

theorem errClear_kept (c : Nat) {z0 s : State} (hk : Kept z0 s) : Kept z0 (errClear c s) := by
  unfold errClear
  repeat' (first
    | with_reducible assumption
    | with_reducible apply setFld_kept
    | with_reducible apply updCtx_kept
    | with_reducible apply settle_kept
    | with_reducible apply Kept.ite)

theorem retire_kept (c : Nat) {z0 s : State} (hk : Kept z0 s) : Kept z0 (retire c s) := by
  unfold retire
  repeat' (first
    | with_reducible assumption
    | with_reducible apply cfgGood_kept
    | with_reducible apply setFld_kept
    | with_reducible apply dropFetches_kept
    | with_reducible apply cfgBad_kept
    | with_reducible apply Kept.ite
    | with_reducible apply Kept.foldl
    | with_reducible apply Kept.foldl_fst
    | intro _ _ _ _
    | intro _ _ _
    | intro _
    | (extract_lets +onlyGivenNames x; refine Kept.cut (t := x) ?_ ?_; (on_goal 1 => subst x); (on_goal 2 => (clear_value x; intro _)))
    | (extract_lets +onlyGivenNames x; clear_value x)
    | split
    | dsimp only
    | fail_if_no_progress (with_reducible apply Kept.parts))

theorem ringWrite_kept (w : Win) (c : Nat) (f : State → State) {z0 s : State} (h_f : ∀ r t, Kept r t → Kept r (f t)) (hk : Kept z0 s) : Kept z0 (ringWrite w c f s) := by
  unfold ringWrite
  repeat' (first
    | with_reducible assumption
    | with_reducible apply h_f
    | with_reducible apply guardWrite_kept
    | with_reducible apply seqFlds_kept
    | with_reducible apply discardDb_kept
    | with_reducible apply Kept.ite
    | with_reducible apply Kept.foldl
    | with_reducible apply Kept.foldl_fst
    | intro _ _ _ _
    | intro _ _ _
    | intro _
    | (extract_lets +onlyGivenNames x; refine Kept.cut (t := x) ?_ ?_; (on_goal 1 => subst x); (on_goal 2 => (clear_value x; intro _)))
    | (extract_lets +onlyGivenNames x; clear_value x)
    | split
    | dsimp only
    | fail_if_no_progress (with_reducible apply Kept.parts))

end Sys2Proof.Machine
end

