-- ==== Sys2Proof/Laws/KeptFlashOps.lean ====
section
/-! SUPPORT. What the operations of Machine/FlashOps.lean keep. -/

namespace Sys2Proof.Machine

theorem updFlash_kept (f : FlashSt → FlashSt) {z0 s : State} (hk : Kept z0 s) : Kept z0 (updFlash f s) := Kept.parts hk

theorem flashPut_kept (off : Nat) (bytes : List Byte) {z0 s : State} (hk : Kept z0 s) : Kept z0 (flashPut off bytes s) := by
  unfold flashPut
  repeat' (first
    | with_reducible assumption
    | with_reducible apply updFlash_kept)

theorem flashErase_kept (off : Nat) {z0 s : State} (hk : Kept z0 s) : Kept z0 (flashErase off s) := by
  unfold flashErase
  repeat' (first
    | with_reducible assumption
    | with_reducible apply updFlash_kept)

theorem listWrite_kept (magic a b count : Nat) (entries : List Byte) {z0 s : State} (hk : Kept z0 s) : Kept z0 (listWrite magic a b count entries s) := by
  unfold listWrite
  repeat' (first
    | with_reducible assumption
    | with_reducible apply flashPut_kept)

theorem progPut_kept (b : List Byte) {z0 s : State} (hk : Kept z0 s) : Kept z0 (progPut b s) := by
  unfold progPut
  repeat' (first
    | with_reducible assumption
    | with_reducible apply updFlash_kept
    | with_reducible apply flashPut_kept)

theorem progAppend_kept (b : List Byte) {z0 s : State} (hk : Kept z0 s) : Kept z0 (progAppend b s) := by
  unfold progAppend
  repeat' (first
    | with_reducible assumption
    | with_reducible apply flashErase_kept
    | with_reducible apply progPut_kept
    | with_reducible apply Kept.ite
    | with_reducible apply Kept.foldl
    | intro _ _ _ _
    | intro _ _ _)

end Sys2Proof.Machine
end

