-- ==== Sys2Proof/Laws/KeptVolOps.lean ====
section
/-! SUPPORT. What the operations of Machine/VolOps.lean keep. -/

namespace Sys2Proof.Machine

theorem volWrite_kept (v : Nat) (valid : Bool) (x : Vol) {z0 s : State} (hk : Kept z0 s) : Kept z0 (volWrite v valid x s) := by
  unfold volWrite
  repeat' (first
    | with_reducible assumption
    | with_reducible apply updStore_kept
    | with_reducible apply flashPut_kept)

theorem volLoad_kept  {z0 s : State} (hk : Kept z0 s) : Kept z0 (volLoad s) := by
  unfold volLoad
  repeat' (first
    | with_reducible assumption
    | with_reducible apply updStore_kept)

theorem catChange_kept (p : Nat) (f : SMap (Nat × Nat) → SMap (Nat × Nat)) (pages : List Nat) {z0 s : State} (hk : Kept z0 s) : Kept z0 (catChange p f pages s) := by
  unfold catChange
  repeat' (first
    | with_reducible assumption
    | with_reducible apply updPlate_kept
    | with_reducible apply writeCat_kept)

theorem clearSlot_kept (p e : Nat) {z0 s : State} (hk : Kept z0 s) : Kept z0 (clearSlot p e s) := by
  unfold clearSlot
  repeat' (first
    | with_reducible assumption
    | with_reducible apply catChange_kept)

theorem presentZero_kept (cmd v x : Nat) {z0 s : State} (hk : Kept z0 s) : Kept z0 (presentZero cmd v x s) := by
  unfold presentZero
  repeat' (first
    | with_reducible assumption
    | with_reducible apply present_kept)

theorem volLostDel_kept (v x0 : Nat) {z0 s : State} (hk : Kept z0 s) : Kept z0 (volLostDel v x0 s) := by
  unfold volLostDel
  repeat' (first
    | with_reducible assumption
    | with_reducible apply lostwDel_kept)

theorem volGone_kept (v : Nat) {z0 s : State} (hk : Kept z0 s) : Kept z0 (volGone v s) := by
  unfold volGone
  repeat' (first
    | with_reducible assumption
    | with_reducible apply volWrite_kept
    | with_reducible apply volLostDel_kept
    | with_reducible apply Kept.ite
    | with_reducible apply Kept.foldl
    | intro _ _ _ _
    | intro _ _ _
    | intro _
    | split)

theorem purgeNext_kept (v : Nat) {z0 s : State} (hk : Kept z0 s) : Kept z0 (purgeNext v s) := by
  unfold purgeNext
  repeat' (first
    | with_reducible assumption
    | with_reducible apply updStore_kept
    | with_reducible apply presentZero_kept
    | with_reducible apply volGone_kept
    | with_reducible apply Kept.ite
    | with_reducible apply Kept.foldl
    | intro _ _ _ _
    | intro _ _ _
    | intro _
    | split)

theorem purgeOne_kept (v x : Nat) {z0 s : State} (hk : Kept z0 s) : Kept z0 (purgeOne v x s) := by
  unfold purgeOne
  repeat' (first
    | with_reducible assumption
    | with_reducible apply clearSlot_kept
    | with_reducible apply purgeNext_kept
    | with_reducible apply Kept.ite
    | with_reducible apply Kept.foldl
    | intro _ _ _ _
    | intro _ _ _
    | intro _
    | split)

theorem purgeStep_kept  {z0 s : State} (hk : Kept z0 s) : Kept z0 (purgeStep s) := by
  unfold purgeStep
  repeat' (first
    | with_reducible assumption
    | with_reducible apply purgeOne_kept
    | with_reducible apply Kept.ite
    | with_reducible apply Kept.foldl
    | intro _ _ _ _
    | intro _ _ _)

theorem purgeStart_kept  {z0 s : State} (hk : Kept z0 s) : Kept z0 (purgeStart s) := by
  unfold purgeStart
  repeat' (first
    | with_reducible assumption
    | with_reducible apply purgeNext_kept
    | with_reducible apply Kept.ite
    | with_reducible apply Kept.foldl
    | intro _ _ _ _
    | intro _ _ _)

end Sys2Proof.Machine
end

