-- ==== Sys2Proof/Laws/KeptWritePath.lean ====
section
/-! SUPPORT. What the operations of Machine/WritePath.lean keep. -/

namespace Sys2Proof.Machine

theorem hostData_kept (j : Nat) (bytes : List Byte) {z0 s : State} (hk : Kept z0 s) : Kept z0 (hostData j bytes s) := by
  unfold hostData
  repeat' (first
    | with_reducible assumption
    | with_reducible apply updEntry_kept
    | with_reducible apply fillSlots_kept
    | with_reducible apply cacheStaged_kept
    | with_reducible apply Kept.ite
    | with_reducible apply Kept.foldl
    | intro _ _ _ _
    | intro _ _ _
    | intro _
    | split)

theorem dropUnstaged_kept (n : Nat) {z0 s : State} (hk : Kept z0 s) : Kept z0 (dropUnstaged n s) := by
  unfold dropUnstaged
  repeat' (first
    | with_reducible assumption
    | with_reducible apply keepWaits_kept
    | with_reducible apply updIo_kept
    | with_reducible apply updCmd_kept
    | with_reducible apply releaseEntry_kept
    | with_reducible apply complete_kept
    | with_reducible apply Kept.ite
    | with_reducible apply Kept.foldl
    | with_reducible apply Kept.foldl_fst
    | intro _ _ _ _
    | intro _ _ _
    | intro _
    | (extract_lets +onlyGivenNames x; refine Kept.cut (t := x) ?_ ?_; (on_goal 1 => subst x); (on_goal 2 => (clear_value x; intro _)))
    | (extract_lets +onlyGivenNames x; clear_value x)
    | split
    | dsimp only
    | fail_if_no_progress (with_reducible apply Kept.parts))

theorem hostDataBad_kept (j : Nat) {z0 s : State} (hk : Kept z0 s) : Kept z0 (hostDataBad j s) := by
  unfold hostDataBad
  repeat' (first
    | with_reducible assumption
    | with_reducible apply addParts_kept
    | with_reducible apply failHost_kept
    | with_reducible apply partDone_kept
    | with_reducible apply dropUnstaged_kept
    | with_reducible apply Kept.ite
    | with_reducible apply Kept.foldl
    | with_reducible apply Kept.foldl_fst
    | intro _ _ _ _
    | intro _ _ _
    | intro _
    | (extract_lets +onlyGivenNames x; refine Kept.cut (t := x) ?_ ?_; (on_goal 1 => subst x); (on_goal 2 => (clear_value x; intro _)))
    | (extract_lets +onlyGivenNames x; clear_value x)
    | split
    | dsimp only
    | fail_if_no_progress (with_reducible apply Kept.parts))

theorem hostReadDone_kept (tag : Nat) (r : HostRd) {z0 s : State} (hk : Kept z0 s) : Kept z0 (hostReadDone tag r s) := by
  unfold hostReadDone
  repeat' (first
    | with_reducible assumption
    | with_reducible apply updIo_kept
    | with_reducible apply updCmd_kept
    | with_reducible apply partDone_kept
    | with_reducible apply entryReceived_kept
    | with_reducible apply sglArrived_kept
    | with_reducible apply hostData_kept
    | with_reducible apply hostDataBad_kept
    | with_reducible apply Kept.ite
    | with_reducible apply Kept.foldl
    | intro _ _ _ _
    | intro _ _ _
    | intro _
    | (extract_lets +onlyGivenNames x; refine Kept.cut (t := x) ?_ ?_; (on_goal 1 => subst x); (on_goal 2 => (clear_value x; intro _)))
    | split)

theorem dataStagedCmd_kept (j : Nat) {z0 s : State} (hk : Kept z0 s) : Kept z0 (dataStagedCmd j s) := by
  unfold dataStagedCmd
  repeat' (first
    | with_reducible assumption
    | with_reducible apply updEntry_kept
    | with_reducible apply mirrorEntry_kept
    | with_reducible apply forceRecon_kept
    | with_reducible apply dataStaged_kept
    | with_reducible apply loseSegment_kept
    | with_reducible apply Kept.ite
    | with_reducible apply Kept.foldl
    | intro _ _ _ _
    | intro _ _ _
    | intro _
    | (extract_lets +onlyGivenNames x; clear_value x)
    | split)

theorem groupCommit_kept (j : Nat) {z0 s : State} (hk : Kept z0 s) : Kept z0 (groupCommit j s) := by
  unfold groupCommit
  repeat' (first
    | with_reducible assumption
    | with_reducible apply updIo_kept
    | with_reducible apply cacheCommit_kept
    | with_reducible apply dataStaged_kept
    | with_reducible apply writeLog_kept
    | with_reducible apply Kept.ite
    | with_reducible apply Kept.foldl
    | with_reducible apply Kept.foldl_fst
    | intro _ _ _ _
    | intro _ _ _
    | intro _
    | (extract_lets +onlyGivenNames x; refine Kept.cut (t := x) ?_ ?_; (on_goal 1 => subst x); (on_goal 2 => (clear_value x; intro _)))
    | (extract_lets +onlyGivenNames x; clear_value x)
    | split
    | dsimp only
    | fail_if_no_progress (with_reducible apply Kept.parts))

theorem logDone_kept (j : Nat) {z0 s : State} (hk : Kept z0 s) : Kept z0 (logDone j s) := by
  unfold logDone
  repeat' (first
    | with_reducible assumption
    | with_reducible apply updEntry_kept
    | with_reducible apply Kept.ite
    | with_reducible apply Kept.foldl
    | intro _ _ _ _
    | intro _ _ _
    | intro _
    | split)

theorem proofChecked_kept (id : Nat) {z0 s : State} (hk : Kept z0 s) : Kept z0 (proofChecked id s) := by
  unfold proofChecked
  repeat' (first
    | with_reducible assumption
    | with_reducible apply updSop_kept)

theorem jobEnd_kept (sop : Bool) (id : Nat) {z0 s : State} (hk : Kept z0 s) : Kept z0 (jobEnd sop id s) := by
  unfold jobEnd
  repeat' (first
    | with_reducible assumption
    | with_reducible apply graverAsk_kept
    | with_reducible apply dropJob_kept
    | with_reducible apply pipeBytes_kept
    | with_reducible apply reconDone_kept
    | with_reducible apply rebuildDone_kept
    | with_reducible apply proofChecked_kept
    | with_reducible apply lossDone_kept
    | with_reducible apply dataStaged_kept
    | with_reducible apply onlyIf_kept
    | with_reducible apply updEntry_kept
    | with_reducible apply parityDone_kept
    | with_reducible apply Kept.ite
    | with_reducible apply Kept.ident
    | with_reducible apply Kept.foldl
    | with_reducible apply Kept.foldl_fst
    | intro _ _ _ _
    | intro _ _ _
    | intro _
    | (extract_lets +onlyGivenNames x; refine Kept.cut (t := x) ?_ ?_; (on_goal 1 => subst x); (on_goal 2 => (clear_value x; intro _)))
    | (extract_lets +onlyGivenNames x; clear_value x)
    | split
    | dsimp only
    | fail_if_no_progress (with_reducible apply Kept.parts))

theorem restartJobs_kept (b : Nat) {z0 s : State} (hk : Kept z0 s) : Kept z0 (restartJobs b s) := by
  unfold restartJobs
  repeat' (first
    | with_reducible assumption
    | with_reducible apply setJobPipe_kept
    | with_reducible apply wakeFor_kept
    | with_reducible apply pipesSleep_kept
    | with_reducible apply katKick_kept
    | with_reducible apply Kept.ite
    | with_reducible apply Kept.foldl
    | with_reducible apply Kept.foldl_fst
    | intro _ _ _ _
    | intro _ _ _
    | intro _
    | (extract_lets +onlyGivenNames x; refine Kept.cut (t := x) ?_ ?_; (on_goal 1 => subst x); (on_goal 2 => (clear_value x; intro _)))
    | (extract_lets +onlyGivenNames x; clear_value x)
    | split
    | dsimp only
    | fail_if_no_progress (with_reducible apply Kept.parts))

theorem beatMismatch_kept (b : Nat) (again : Bool) {z0 s : State} (hk : Kept z0 s) : Kept z0 (beatMismatch b again s) := by
  unfold beatMismatch
  repeat' (first
    | with_reducible assumption
    | with_reducible apply setFld_kept
    | with_reducible apply incFld_kept
    | with_reducible apply setEvt_kept
    | with_reducible apply report_kept
    | with_reducible apply restartJobs_kept
    | with_reducible apply Kept.ite)

theorem pipeUp_kept (b : Nat) {z0 s : State} (hk : Kept z0 s) : Kept z0 (pipeUp b s) := by
  unfold pipeUp
  repeat' (first
    | with_reducible assumption
    | with_reducible apply placeJobs_kept
    | with_reducible apply setEvt_kept
    | with_reducible apply setFld_kept
    | with_reducible apply updIo_kept
    | with_reducible apply Kept.ite
    | with_reducible apply Kept.foldl
    | with_reducible apply Kept.foldl_fst
    | intro _ _ _ _
    | intro _ _ _
    | intro _
    | (extract_lets +onlyGivenNames x; refine Kept.cut (t := x) ?_ ?_; (on_goal 1 => subst x); (on_goal 2 => (clear_value x; intro _)))
    | (extract_lets +onlyGivenNames x; clear_value x)
    | split
    | dsimp only
    | fail_if_no_progress (with_reducible apply Kept.parts))

theorem katDone_kept (b : Nat) (lanes : List (Byte × Byte)) {z0 s : State} (hk : Kept z0 s) : Kept z0 (katDone b lanes s) := by
  unfold katDone
  repeat' (first
    | with_reducible assumption
    | with_reducible apply pipesSettle_kept
    | with_reducible apply setEvt_kept
    | with_reducible apply setFld_kept
    | with_reducible apply Kept.ite
    | with_reducible apply Kept.foldl
    | with_reducible apply Kept.foldl_fst
    | intro _ _ _ _
    | intro _ _ _
    | intro _
    | (extract_lets +onlyGivenNames x; refine Kept.cut (t := x) ?_ ?_; (on_goal 1 => subst x); (on_goal 2 => (clear_value x; intro _)))
    | (extract_lets +onlyGivenNames x; clear_value x)
    | split
    | dsimp only
    | fail_if_no_progress (with_reducible apply Kept.parts))

theorem labelWritten_kept (p m lba : Nat) {z0 s : State} (hk : Kept z0 s) : Kept z0 (labelWritten p m lba s) := by
  unfold labelWritten
  repeat' (first
    | with_reducible assumption
    | with_reducible apply updPlate_kept
    | with_reducible apply onlyIf_kept
    | with_reducible apply updNs_kept
    | with_reducible apply Kept.ite
    | with_reducible apply Kept.ident
    | with_reducible apply Kept.foldl
    | with_reducible apply Kept.foldl_fst
    | intro _ _ _ _
    | intro _ _ _
    | intro _
    | (extract_lets +onlyGivenNames x; refine Kept.cut (t := x) ?_ ?_; (on_goal 1 => subst x); (on_goal 2 => (clear_value x; intro _)))
    | (extract_lets +onlyGivenNames x; clear_value x)
    | split
    | dsimp only
    | fail_if_no_progress (with_reducible apply Kept.parts))

theorem remirWrote_kept (p m lba : Nat) {z0 s : State} (hk : Kept z0 s) : Kept z0 (remirWrote p m lba s) := by
  unfold remirWrote
  repeat' (first
    | with_reducible assumption
    | with_reducible apply updJp_kept
    | with_reducible apply writeRecords_kept
    | with_reducible apply Kept.ite
    | with_reducible apply Kept.foldl
    | with_reducible apply Kept.foldl_fst
    | intro _ _ _ _
    | intro _ _ _
    | intro _
    | (extract_lets +onlyGivenNames x; refine Kept.cut (t := x) ?_ ?_; (on_goal 1 => subst x); (on_goal 2 => (clear_value x; intro _)))
    | (extract_lets +onlyGivenNames x; clear_value x)
    | split
    | dsimp only
    | fail_if_no_progress (with_reducible apply Kept.parts))

theorem writeOk_kept (c : NvCmd) {z0 s : State} (hk : Kept z0 s) : Kept z0 (writeOk c s) := by
  unfold writeOk
  repeat' (first
    | with_reducible assumption
    | with_reducible apply stripDone_kept
    | with_reducible apply sopWrote_kept
    | with_reducible apply refillCheck_kept
    | with_reducible apply updJp_kept
    | with_reducible apply remirHeader_kept
    | with_reducible apply remirWrote_kept
    | with_reducible apply labelWritten_kept
    | with_reducible apply replaceStep_kept
    | with_reducible apply Kept.ite
    | with_reducible apply Kept.ident
    | with_reducible apply Kept.foldl
    | with_reducible apply Kept.foldl_fst
    | intro _ _ _ _
    | intro _ _ _
    | intro _
    | (extract_lets +onlyGivenNames x; refine Kept.cut (t := x) ?_ ?_; (on_goal 1 => subst x); (on_goal 2 => (clear_value x; intro _)))
    | (extract_lets +onlyGivenNames x; clear_value x)
    | split
    | dsimp only
    | fail_if_no_progress (with_reducible apply Kept.parts))

theorem memberWrote_kept (id : Nat) (st : Nvme) {z0 s : State} (hk : Kept z0 s) : Kept z0 (memberWrote id st s) := by
  unfold memberWrote
  repeat' (first
    | with_reducible assumption
    | with_reducible apply endNv_kept
    | with_reducible apply servedEnd_kept
    | with_reducible apply answerRemote_kept
    | with_reducible apply onlyIf_kept
    | with_reducible apply portOk_kept
    | with_reducible apply resvDone_kept
    | with_reducible apply writeOk_kept
    | with_reducible apply hostBytes_kept
    | with_reducible apply badStatus_kept
    | with_reducible apply Kept.ite
    | with_reducible apply Kept.ident
    | with_reducible apply Kept.foldl
    | with_reducible apply Kept.foldl_fst
    | intro _ _ _ _
    | intro _ _ _
    | intro _
    | (extract_lets +onlyGivenNames x; refine Kept.cut (t := x) ?_ ?_; (on_goal 1 => subst x); (on_goal 2 => (clear_value x; intro _)))
    | (extract_lets +onlyGivenNames x; clear_value x)
    | split
    | dsimp only
    | fail_if_no_progress (with_reducible apply Kept.parts))

theorem tagRead_kept (id : Nat) (st : Nvme) (tags : List Nat) {z0 s : State} (hk : Kept z0 s) : Kept z0 (tagRead id st tags s) := by
  unfold tagRead
  repeat' (first
    | with_reducible assumption
    | with_reducible apply endNv_kept
    | with_reducible apply tagWrite_kept
    | with_reducible apply updTagBuf_kept
    | with_reducible apply readTimed_kept
    | with_reducible apply portOk_kept
    | with_reducible apply badStatus_kept
    | with_reducible apply Kept.ite
    | with_reducible apply Kept.ident
    | with_reducible apply Kept.foldl
    | with_reducible apply Kept.foldl_fst
    | intro _ _ _ _
    | intro _ _ _
    | intro _
    | (extract_lets +onlyGivenNames x; refine Kept.cut (t := x) ?_ ?_; (on_goal 1 => subst x); (on_goal 2 => (clear_value x; intro _)))
    | (extract_lets +onlyGivenNames x; clear_value x)
    | split
    | dsimp only
    | fail_if_no_progress (with_reducible apply Kept.parts))

theorem tagWrote_kept (id : Nat) (st : Nvme) {z0 s : State} (hk : Kept z0 s) : Kept z0 (tagWrote id st s) := by
  unfold tagWrote
  repeat' (first
    | with_reducible assumption
    | with_reducible apply endNv_kept
    | with_reducible apply updIo_kept
    | with_reducible apply tagWrite_kept
    | with_reducible apply updTagBuf_kept
    | with_reducible apply setTagBit_kept
    | with_reducible apply portOk_kept
    | with_reducible apply sopCheck_kept
    | with_reducible apply badStatus_kept
    | with_reducible apply Kept.ite
    | with_reducible apply Kept.ident
    | with_reducible apply Kept.foldl
    | with_reducible apply Kept.foldl_fst
    | intro _ _ _ _
    | intro _ _ _
    | intro _
    | (extract_lets +onlyGivenNames x; refine Kept.cut (t := x) ?_ ?_; (on_goal 1 => subst x); (on_goal 2 => (clear_value x; intro _)))
    | (extract_lets +onlyGivenNames x; clear_value x)
    | split
    | dsimp only
    | fail_if_no_progress (with_reducible apply Kept.parts))

theorem deallocStrips_kept (x : Plate) (e : JEntry) {z0 s : State} (hk : Kept z0 s) : Kept z0 (deallocStrips x e s) := by
  unfold deallocStrips
  repeat' (first
    | with_reducible assumption
    | with_reducible apply memberReq_kept
    | with_reducible apply Kept.ite
    | with_reducible apply Kept.foldl
    | with_reducible apply Kept.foldl_fst
    | intro _ _ _ _
    | intro _ _ _
    | intro _
    | (extract_lets +onlyGivenNames x; refine Kept.cut (t := x) ?_ ?_; (on_goal 1 => subst x); (on_goal 2 => (clear_value x; intro _)))
    | (extract_lets +onlyGivenNames x; clear_value x)
    | split
    | dsimp only
    | fail_if_no_progress (with_reducible apply Kept.parts))

theorem payOwed_kept (e : JEntry) {z0 s : State} (hk : Kept z0 s) : Kept z0 (payOwed e s) := by
  unfold payOwed
  repeat' (first
    | with_reducible assumption
    | with_reducible apply add64_kept
    | with_reducible apply Kept.ite
    | with_reducible apply Kept.foldl
    | with_reducible apply Kept.foldl_fst
    | intro _ _ _ _
    | intro _ _ _
    | intro _
    | (extract_lets +onlyGivenNames x; refine Kept.cut (t := x) ?_ ?_; (on_goal 1 => subst x); (on_goal 2 => (clear_value x; intro _)))
    | (extract_lets +onlyGivenNames x; clear_value x)
    | split
    | dsimp only
    | fail_if_no_progress (with_reducible apply Kept.parts))

theorem commit_kept (j : Nat) {z0 s : State} (hk : Kept z0 s) : Kept z0 (commit j s) := by
  unfold commit
  repeat' (first
    | with_reducible assumption
    | with_reducible apply cacheCommit_kept
    | with_reducible apply parityDone_kept
    | with_reducible apply setJState_kept
    | with_reducible apply delLost_kept
    | with_reducible apply deallocStrips_kept
    | with_reducible apply suspectCommit_kept
    | with_reducible apply payOwed_kept
    | with_reducible apply complete_kept
    | with_reducible apply flushed_kept
    | with_reducible apply writeRecords_kept
    | with_reducible apply Kept.ite
    | with_reducible apply Kept.foldl
    | with_reducible apply Kept.foldl_fst
    | intro _ _ _ _
    | intro _ _ _
    | intro _
    | (extract_lets +onlyGivenNames x; refine Kept.cut (t := x) ?_ ?_; (on_goal 1 => subst x); (on_goal 2 => (clear_value x; intro _)))
    | (extract_lets +onlyGivenNames x; clear_value x)
    | split
    | dsimp only
    | fail_if_no_progress (with_reducible apply Kept.parts))

theorem sharePar_kept (s0 : State) (k n : Nat) {z0 s : State} (hk : Kept z0 s) : Kept z0 (sharePar s0 k n s) := by
  unfold sharePar
  repeat' (first
    | with_reducible assumption
    | with_reducible apply onlyIf_kept
    | with_reducible apply add64_kept
    | with_reducible apply Kept.ite
    | with_reducible apply Kept.foldl
    | with_reducible apply Kept.foldl_fst
    | intro _ _ _ _
    | intro _ _ _
    | intro _
    | (extract_lets +onlyGivenNames x; refine Kept.cut (t := x) ?_ ?_; (on_goal 1 => subst x); (on_goal 2 => (clear_value x; intro _)))
    | (extract_lets +onlyGivenNames x; clear_value x)
    | split
    | dsimp only
    | fail_if_no_progress (with_reducible apply Kept.parts))

theorem shareDestage_kept (e : JEntry) {z0 s : State} (hk : Kept z0 s) : Kept z0 (shareDestage e s) := by
  unfold shareDestage
  repeat' (first
    | with_reducible assumption
    | with_reducible apply sharePar_kept
    | with_reducible apply Kept.ite
    | with_reducible apply Kept.foldl
    | with_reducible apply Kept.foldl_fst
    | intro _ _ _ _
    | intro _ _ _
    | intro _
    | (extract_lets +onlyGivenNames x; refine Kept.cut (t := x) ?_ ?_; (on_goal 1 => subst x); (on_goal 2 => (clear_value x; intro _)))
    | (extract_lets +onlyGivenNames x; clear_value x)
    | split
    | dsimp only
    | fail_if_no_progress (with_reducible apply Kept.parts))

theorem entryFreed_kept (j : Nat) {z0 s : State} (hk : Kept z0 s) : Kept z0 (entryFreed j s) := by
  unfold entryFreed
  repeat' (first
    | with_reducible assumption
    | with_reducible apply resumeDeferred_kept
    | with_reducible apply releaseEntry_kept
    | with_reducible apply onlyIf_kept
    | with_reducible apply shareDestage_kept
    | with_reducible apply sopCheck_kept
    | with_reducible apply purgeStep_kept
    | with_reducible apply Kept.ite
    | with_reducible apply Kept.foldl
    | with_reducible apply Kept.foldl_fst
    | intro _ _ _ _
    | intro _ _ _
    | intro _
    | (extract_lets +onlyGivenNames x; refine Kept.cut (t := x) ?_ ?_; (on_goal 1 => subst x); (on_goal 2 => (clear_value x; intro _)))
    | (extract_lets +onlyGivenNames x; clear_value x)
    | split
    | dsimp only
    | fail_if_no_progress (with_reducible apply Kept.parts))

theorem headersDone_kept (p : Nat) {z0 s : State} (hk : Kept z0 s) : Kept z0 (headersDone p s) := by
  unfold headersDone
  repeat' (first
    | with_reducible assumption
    | with_reducible apply refillRecords_kept
    | with_reducible apply updJp_kept
    | with_reducible apply writeRecords_kept
    | with_reducible apply Kept.ite
    | with_reducible apply Kept.foldl
    | with_reducible apply Kept.foldl_fst
    | intro _ _ _ _
    | intro _ _ _
    | intro _
    | (extract_lets +onlyGivenNames x; refine Kept.cut (t := x) ?_ ?_; (on_goal 1 => subst x); (on_goal 2 => (clear_value x; intro _)))
    | (extract_lets +onlyGivenNames x; clear_value x)
    | split
    | dsimp only
    | fail_if_no_progress (with_reducible apply Kept.parts))

theorem recordsDone_kept (p blk : Nat) {z0 s : State} (hk : Kept z0 s) : Kept z0 (recordsDone p blk s) := by
  unfold recordsDone
  repeat' (first
    | with_reducible assumption
    | with_reducible apply updEntry_kept
    | with_reducible apply recordsOn_kept
    | with_reducible apply writeRecords_kept
    | with_reducible apply Kept.ite
    | with_reducible apply Kept.foldl
    | with_reducible apply Kept.foldl_fst
    | intro _ _ _ _
    | intro _ _ _
    | intro _
    | (extract_lets +onlyGivenNames x; refine Kept.cut (t := x) ?_ ?_; (on_goal 1 => subst x); (on_goal 2 => (clear_value x; intro _)))
    | (extract_lets +onlyGivenNames x; clear_value x)
    | split
    | dsimp only
    | fail_if_no_progress (with_reducible apply Kept.parts))

theorem remirrorDone_kept (p : Nat) {z0 s : State} (hk : Kept z0 s) : Kept z0 (remirrorDone p s) := by
  unfold remirrorDone
  repeat' (first
    | with_reducible assumption
    | with_reducible apply updJp_kept
    | with_reducible apply startLabel_kept
    | with_reducible apply setEvt_kept
    | with_reducible apply Kept.ite
    | with_reducible apply Kept.foldl
    | with_reducible apply Kept.foldl_fst
    | intro _ _ _ _
    | intro _ _ _
    | intro _
    | (extract_lets +onlyGivenNames x; refine Kept.cut (t := x) ?_ ?_; (on_goal 1 => subst x); (on_goal 2 => (clear_value x; intro _)))
    | (extract_lets +onlyGivenNames x; clear_value x)
    | split
    | dsimp only
    | fail_if_no_progress (with_reducible apply Kept.parts))

theorem admProbe_kept (v : Nat) {z0 s : State} (hk : Kept z0 s) : Kept z0 (admProbe v s) := by
  unfold admProbe
  repeat' (first
    | with_reducible assumption
    | with_reducible apply setFld_kept)

end Sys2Proof.Machine
end

