-- ==== Sys2Proof/Laws/KeptReads.lean ====
section
/-! SUPPORT. What the operations of Machine/Reads.lean keep. -/

namespace Sys2Proof.Machine

theorem startIo_kept (n op : Nat) (f : Cmd → State → State) {z0 s : State} (h_f : ∀ x r t, Kept r t → Kept r (f x t)) (hk : Kept z0 s) : Kept z0 (startIo n op f s) := by
  unfold startIo
  repeat' (first
    | with_reducible assumption
    | with_reducible apply h_f
    | with_reducible apply updCmd_kept
    | with_reducible apply Kept.ite
    | with_reducible apply Kept.foldl
    | intro _ _ _ _
    | intro _ _ _
    | intro _
    | split)

theorem startRead_kept (n op : Nat) {z0 s : State} (hk : Kept z0 s) : Kept z0 (startRead n op s) := by
  unfold startRead
  repeat' (first
    | with_reducible assumption
    | with_reducible apply updCmd_kept
    | with_reducible apply partDone_kept
    | with_reducible apply addParts_kept
    | with_reducible apply fromHost_kept
    | with_reducible apply serveBlocks_kept
    | with_reducible apply startIo_kept
    | with_reducible apply Kept.ite
    | with_reducible apply Kept.foldl
    | intro _ _ _ _)

theorem startWrite_kept (n op : Nat) {z0 s : State} (hk : Kept z0 s) : Kept z0 (startWrite n op s) := by
  unfold startWrite
  repeat' (first
    | with_reducible assumption
    | with_reducible apply updCmd_kept
    | with_reducible apply present_kept
    | with_reducible apply startIo_kept
    | with_reducible apply Kept.ite
    | with_reducible apply Kept.foldl
    | intro _ _ _ _)

theorem startFlush_kept (n : Nat) {z0 s : State} (hk : Kept z0 s) : Kept z0 (startFlush n s) := by
  unfold startFlush
  repeat' (first
    | with_reducible assumption
    | with_reducible apply startIo_kept
    | with_reducible apply addParts_kept
    | with_reducible apply updCmd_kept
    | with_reducible apply partDone_kept
    | with_reducible apply Kept.ite
    | with_reducible apply Kept.foldl
    | with_reducible apply Kept.foldl_fst
    | intro _ _ _ _
    | intro _ _ _
    | intro _
    | (extract_lets +onlyGivenNames x; refine Kept.cut (t := x) ?_ ?_; (on_goal 1 => subst x); (on_goal 2 => (clear_value x; intro _)))
    | (extract_lets +onlyGivenNames x; clear_value x)
    | split
    | dsimp only
    | fail_if_no_progress (with_reducible apply Kept.parts))

theorem bulkPaced_kept (c n : Nat) {z0 s : State} (hk : Kept z0 s) : Kept z0 (bulkPaced c n s) := by
  unfold bulkPaced
  repeat' (first
    | with_reducible assumption
    | with_reducible apply updCtx_kept
    | with_reducible apply Kept.ite
    | with_reducible apply Kept.foldl
    | with_reducible apply Kept.foldl_fst
    | intro _ _ _ _
    | intro _ _ _
    | intro _
    | (extract_lets +onlyGivenNames x; refine Kept.cut (t := x) ?_ ?_; (on_goal 1 => subst x); (on_goal 2 => (clear_value x; intro _)))
    | (extract_lets +onlyGivenNames x; clear_value x)
    | split
    | dsimp only
    | fail_if_no_progress (with_reducible apply Kept.parts))

theorem presentPiece_kept (n : Nat) (x : Cmd) (data : Nat → Option Block) {z0 s : State} (hk : Kept z0 s) : Kept z0 (presentPiece n x data s) := by
  unfold presentPiece
  repeat' (first
    | with_reducible assumption
    | with_reducible apply updCmd_kept
    | with_reducible apply graverMoved_kept
    | with_reducible apply bulkPaced_kept
    | with_reducible apply present_kept
    | with_reducible apply Kept.ite
    | with_reducible apply Kept.foldl
    | with_reducible apply Kept.foldl_fst
    | intro _ _ _ _
    | intro _ _ _
    | intro _
    | (extract_lets +onlyGivenNames x; refine Kept.cut (t := x) ?_ ?_; (on_goal 1 => subst x); (on_goal 2 => (clear_value x; intro _)))
    | (extract_lets +onlyGivenNames x; clear_value x)
    | split
    | dsimp only
    | fail_if_no_progress (with_reducible apply Kept.parts))

theorem fillStep_kept (n : Nat) {z0 s : State} (hk : Kept z0 s) : Kept z0 (fillStep n s) := by
  unfold fillStep
  repeat' (first
    | with_reducible assumption
    | with_reducible apply graverAsk_kept
    | with_reducible apply presentPiece_kept
    | with_reducible apply updCmd_kept
    | with_reducible apply Kept.ite
    | with_reducible apply Kept.foldl
    | with_reducible apply Kept.foldl_fst
    | intro _ _ _ _
    | intro _ _ _
    | intro _
    | (extract_lets +onlyGivenNames x; refine Kept.cut (t := x) ?_ ?_; (on_goal 1 => subst x); (on_goal 2 => (clear_value x; intro _)))
    | (extract_lets +onlyGivenNames x; clear_value x)
    | split
    | dsimp only
    | fail_if_no_progress (with_reducible apply Kept.parts))

theorem copyStep_kept (n : Nat) {z0 s : State} (hk : Kept z0 s) : Kept z0 (copyStep n s) := by
  unfold copyStep
  repeat' (first
    | with_reducible assumption
    | with_reducible apply endCmd_kept
    | with_reducible apply graverAsk_kept
    | with_reducible apply serveBlocks_kept
    | with_reducible apply updCmd_kept
    | with_reducible apply finishIo_kept
    | with_reducible apply presentPiece_kept
    | with_reducible apply Kept.ite
    | with_reducible apply Kept.foldl
    | with_reducible apply Kept.foldl_fst
    | intro _ _ _ _
    | intro _ _ _
    | intro _
    | (extract_lets +onlyGivenNames x; refine Kept.cut (t := x) ?_ ?_; (on_goal 1 => subst x); (on_goal 2 => (clear_value x; intro _)))
    | (extract_lets +onlyGivenNames x; clear_value x)
    | split
    | dsimp only
    | fail_if_no_progress (with_reducible apply Kept.parts))

theorem oldAnswer_kept (c : NvCmd) (j pos : Nat) (blks : List TBlk) {z0 s : State} (hk : Kept z0 s) : Kept z0 (oldAnswer c j pos blks s) := by
  unfold oldAnswer
  repeat' (first
    | with_reducible assumption
    | with_reducible apply incFld_kept
    | with_reducible apply onlyIf_kept
    | with_reducible apply updEntry_kept
    | with_reducible apply Kept.ite
    | with_reducible apply Kept.foldl
    | intro _ _ _ _
    | intro _ _ _
    | intro _
    | split)

theorem sopAnswer_kept (c : NvCmd) (id pos : Nat) (blks : List TBlk) {z0 s : State} (hk : Kept z0 s) : Kept z0 (sopAnswer c id pos blks s) := by
  unfold sopAnswer
  repeat' (first
    | with_reducible assumption
    | with_reducible apply incFld_kept
    | with_reducible apply onlyIf_kept
    | with_reducible apply updSop_kept
    | with_reducible apply Kept.ite
    | with_reducible apply Kept.ident
    | with_reducible apply Kept.foldl
    | intro _ _ _ _
    | intro _ _ _
    | intro _
    | split)

theorem memberRead_kept (id : Nat) (st : Nvme) (blks : List TBlk) {z0 s : State} (hk : Kept z0 s) : Kept z0 (memberRead id st blks s) := by
  unfold memberRead
  repeat' (first
    | with_reducible assumption
    | with_reducible apply endNv_kept
    | with_reducible apply servedEnd_kept
    | with_reducible apply answerRemote_kept
    | with_reducible apply onlyIf_kept
    | with_reducible apply portOk_kept
    | with_reducible apply badStatus_kept
    | with_reducible apply readTimed_kept
    | with_reducible apply hostBytes_kept
    | with_reducible apply memberAnswer_kept
    | with_reducible apply checkTags_kept
    | with_reducible apply oldAnswer_kept
    | with_reducible apply sopAnswer_kept
    | with_reducible apply joinHeader_kept
    | with_reducible apply Kept.ite
    | with_reducible apply Kept.ident
    | with_reducible apply Kept.foldl
    | with_reducible apply Kept.foldl_fst
    | intro _ _ _ _
    | intro _ _ _
    | intro _
    | (extract_lets +onlyGivenNames x; refine Kept.cut (t := x) ?_ ?_; (on_goal 1 => subst x); (on_goal 2 => (clear_value x; intro _)))
    | (extract_lets +onlyGivenNames x; clear_value x)
    | split
    | dsimp only
    | fail_if_no_progress (with_reducible apply Kept.parts))

theorem lbtDone_kept (id : Nat) {z0 s : State} (hk : Kept z0 s) : Kept z0 (lbtDone id s) := by
  unfold lbtDone
  repeat' (first
    | with_reducible assumption
    | with_reducible apply updIo_kept
    | with_reducible apply updSop_kept
    | with_reducible apply sopCheck_kept
    | with_reducible apply Kept.ite
    | with_reducible apply Kept.ident
    | with_reducible apply Kept.foldl
    | intro _ _ _ _
    | intro _ _ _
    | intro _
    | (extract_lets +onlyGivenNames x; clear_value x)
    | split)

end Sys2Proof.Machine
end

