-- ==== Sys2Proof/Laws/KeptRebuild.lean ====
section
/-! SUPPORT. What the operations of Machine/Rebuild.lean keep. -/

namespace Sys2Proof.Machine

theorem passEnd_kept (p : Nat) {z0 s : State} (hk : Kept z0 s) : Kept z0 (passEnd p s) := by
  unfold passEnd
  repeat' (first
    | with_reducible assumption
    | with_reducible apply updPlate_kept
    | with_reducible apply plEvt_kept
    | with_reducible apply seekPartner_kept
    | with_reducible apply refreshPlate_kept
    | with_reducible apply startLabel_kept
    | with_reducible apply cycleSync_kept
    | with_reducible apply Kept.ite
    | with_reducible apply Kept.foldl
    | with_reducible apply Kept.foldl_fst
    | intro _ _ _ _
    | intro _ _ _
    | intro _
    | (extract_lets +onlyGivenNames x; refine Kept.cut (t := x) ?_ ?_; (on_goal 1 => subst x); (on_goal 2 => (clear_value x; intro _)))
    | (extract_lets +onlyGivenNames x; clear_value x)
    | split
    | dsimp only
    | fail_if_no_progress (with_reducible apply Kept.parts))

theorem resumeCycle_kept (p : Nat) {z0 s : State} (hk : Kept z0 s) : Kept z0 (resumeCycle p s) := by
  unfold resumeCycle
  repeat' (first
    | with_reducible assumption
    | with_reducible apply cycleSync_kept
    | with_reducible apply updPlate_kept
    | with_reducible apply Kept.ite
    | with_reducible apply Kept.foldl
    | with_reducible apply Kept.foldl_fst
    | intro _ _ _ _
    | intro _ _ _
    | intro _
    | (extract_lets +onlyGivenNames x; refine Kept.cut (t := x) ?_ ?_; (on_goal 1 => subst x); (on_goal 2 => (clear_value x; intro _)))
    | (extract_lets +onlyGivenNames x; clear_value x)
    | split
    | dsimp only
    | fail_if_no_progress (with_reducible apply Kept.parts))

theorem showBudget_kept (p b : Nat) {z0 s : State} (hk : Kept z0 s) : Kept z0 (showBudget p b s) := by
  unfold showBudget
  repeat' (first
    | with_reducible assumption
    | with_reducible apply setFld_kept
    | with_reducible apply Kept.ite
    | with_reducible apply Kept.foldl
    | with_reducible apply Kept.foldl_fst
    | intro _ _ _ _
    | intro _ _ _
    | intro _
    | (extract_lets +onlyGivenNames x; refine Kept.cut (t := x) ?_ ?_; (on_goal 1 => subst x); (on_goal 2 => (clear_value x; intro _)))
    | (extract_lets +onlyGivenNames x; clear_value x)
    | split
    | dsimp only
    | fail_if_no_progress (with_reducible apply Kept.parts))

theorem passStart_kept (p : Nat) {z0 s : State} (hk : Kept z0 s) : Kept z0 (passStart p s) := by
  unfold passStart
  repeat' (first
    | with_reducible assumption
    | with_reducible apply showBudget_kept
    | with_reducible apply updPlate_kept
    | with_reducible apply sketchEvt_kept
    | with_reducible apply setEvt_kept
    | with_reducible apply passEnd_kept
    | with_reducible apply refreshPlate_kept
    | with_reducible apply Kept.ite
    | with_reducible apply Kept.foldl
    | with_reducible apply Kept.foldl_fst
    | intro _ _ _ _
    | intro _ _ _
    | intro _
    | (extract_lets +onlyGivenNames x; refine Kept.cut (t := x) ?_ ?_; (on_goal 1 => subst x); (on_goal 2 => (clear_value x; intro _)))
    | (extract_lets +onlyGivenNames x; clear_value x)
    | split
    | dsimp only
    | fail_if_no_progress (with_reducible apply Kept.parts))

theorem resumePass_kept (p : Nat) {z0 s : State} (hk : Kept z0 s) : Kept z0 (resumePass p s) := by
  unfold resumePass
  repeat' (first
    | with_reducible assumption
    | with_reducible apply passStart_kept
    | with_reducible apply Kept.ite
    | split)

theorem stepStart_kept (p : Nat) {z0 s : State} (hk : Kept z0 s) : Kept z0 (stepStart p s) := by
  unfold stepStart
  repeat' (first
    | with_reducible assumption
    | with_reducible apply updPlate_kept
    | with_reducible apply passEnd_kept
    | with_reducible apply charge_kept
    | with_reducible apply newSop_kept
    | with_reducible apply Kept.ite
    | with_reducible apply Kept.foldl
    | with_reducible apply Kept.foldl_fst
    | intro _ _ _ _
    | intro _ _ _
    | intro _
    | (extract_lets +onlyGivenNames x; refine Kept.cut (t := x) ?_ ?_; (on_goal 1 => subst x); (on_goal 2 => (clear_value x; intro _)))
    | (extract_lets +onlyGivenNames x; clear_value x)
    | split
    | dsimp only
    | fail_if_no_progress (with_reducible apply Kept.parts))

theorem stepDone_kept (id : Nat) {z0 s : State} (hk : Kept z0 s) : Kept z0 (stepDone id s) := by
  unfold stepDone
  repeat' (first
    | with_reducible assumption
    | with_reducible apply add64_kept
    | with_reducible apply updPlate_kept
    | with_reducible apply refreshPlate_kept
    | with_reducible apply sopEnd_kept
    | with_reducible apply passEnd_kept
    | with_reducible apply Kept.ite
    | with_reducible apply Kept.ident
    | with_reducible apply Kept.foldl
    | intro _ _ _ _
    | intro _ _ _
    | intro _
    | split)

theorem sliceEnd_kept (p lenUs : Nat) {z0 s : State} (hk : Kept z0 s) : Kept z0 (sliceEnd p lenUs s) := by
  unfold sliceEnd
  repeat' (first
    | with_reducible assumption
    | with_reducible apply updPlate_kept
    | with_reducible apply showBudget_kept
    | with_reducible apply onlyIf_kept
    | with_reducible apply setEvt_kept
    | with_reducible apply incFld_kept
    | with_reducible apply Kept.ite
    | with_reducible apply Kept.foldl
    | with_reducible apply Kept.foldl_fst
    | intro _ _ _ _
    | intro _ _ _
    | intro _
    | (extract_lets +onlyGivenNames x; refine Kept.cut (t := x) ?_ ?_; (on_goal 1 => subst x); (on_goal 2 => (clear_value x; intro _)))
    | (extract_lets +onlyGivenNames x; clear_value x)
    | split
    | dsimp only
    | fail_if_no_progress (with_reducible apply Kept.parts))

theorem progressRecord_kept (p : Nat) (ok : Bool) {z0 s : State} (hk : Kept z0 s) : Kept z0 (progressRecord p ok s) := by
  unfold progressRecord
  repeat' (first
    | with_reducible assumption
    | with_reducible apply setEvt_kept
    | with_reducible apply updPlate_kept
    | with_reducible apply progAppend_kept
    | with_reducible apply sendMsg_kept
    | with_reducible apply Kept.ite
    | with_reducible apply Kept.ident
    | with_reducible apply Kept.foldl
    | with_reducible apply Kept.foldl_fst
    | intro _ _ _ _
    | intro _ _ _
    | intro _
    | (extract_lets +onlyGivenNames x; refine Kept.cut (t := x) ?_ ?_; (on_goal 1 => subst x); (on_goal 2 => (clear_value x; intro _)))
    | (extract_lets +onlyGivenNames x; clear_value x)
    | split
    | dsimp only
    | fail_if_no_progress (with_reducible apply Kept.parts))

theorem pltEnd_kept (p : Nat) (st : Status) {z0 s : State} (hk : Kept z0 s) : Kept z0 (pltEnd p st s) := by
  unfold pltEnd
  repeat' (first
    | with_reducible assumption
    | with_reducible apply cmdEnd_kept)

theorem failMemberCmd_kept (p slot : Nat) {z0 s : State} (hk : Kept z0 s) : Kept z0 (failMemberCmd p slot s) := by
  unfold failMemberCmd
  repeat' (first
    | with_reducible assumption
    | with_reducible apply failMember_kept
    | with_reducible apply pltEnd_kept
    | with_reducible apply Kept.ite
    | with_reducible apply Kept.foldl
    | intro _ _ _ _
    | intro _ _ _
    | intro _
    | split)

theorem replaceAccept_kept (p m port nsid : Nat) (cmd : Bool) {z0 s : State} (hk : Kept z0 s) : Kept z0 (replaceAccept p m port nsid cmd s) := by
  unfold replaceAccept
  repeat' (first
    | with_reducible assumption
    | with_reducible apply updPlate_kept
    | with_reducible apply memberReq_kept
    | with_reducible apply joinResv_kept
    | with_reducible apply startLabel_kept
    | with_reducible apply updNs_kept
    | with_reducible apply Kept.ite
    | with_reducible apply Kept.foldl
    | with_reducible apply Kept.foldl_fst
    | intro _ _ _ _
    | intro _ _ _
    | intro _
    | (extract_lets +onlyGivenNames x; refine Kept.cut (t := x) ?_ ?_; (on_goal 1 => subst x); (on_goal 2 => (clear_value x; intro _)))
    | (extract_lets +onlyGivenNames x; clear_value x)
    | split
    | dsimp only
    | fail_if_no_progress (with_reducible apply Kept.parts))

theorem replaceCmd_kept (p slot : Nat) {z0 s : State} (hk : Kept z0 s) : Kept z0 (replaceCmd p slot s) := by
  unfold replaceCmd
  repeat' (first
    | with_reducible assumption
    | with_reducible apply pltEnd_kept
    | with_reducible apply replaceAccept_kept
    | with_reducible apply Kept.ite
    | with_reducible apply Kept.foldl
    | with_reducible apply Kept.foldl_fst
    | intro _ _ _ _
    | intro _ _ _
    | intro _
    | (extract_lets +onlyGivenNames x; refine Kept.cut (t := x) ?_ ?_; (on_goal 1 => subst x); (on_goal 2 => (clear_value x; intro _)))
    | (extract_lets +onlyGivenNames x; clear_value x)
    | split
    | dsimp only
    | fail_if_no_progress (with_reducible apply Kept.parts))

theorem startPassCmd_kept (p : Nat) {z0 s : State} (hk : Kept z0 s) : Kept z0 (startPassCmd p s) := by
  unfold startPassCmd
  repeat' (first
    | with_reducible assumption
    | with_reducible apply updPlate_kept
    | with_reducible apply startLabel_kept
    | with_reducible apply passStart_kept
    | with_reducible apply pltEnd_kept
    | with_reducible apply Kept.ite
    | with_reducible apply Kept.foldl
    | intro _ _ _ _
    | intro _ _ _
    | intro _
    | split)

theorem pausePassCmd_kept (p : Nat) {z0 s : State} (hk : Kept z0 s) : Kept z0 (pausePassCmd p s) := by
  unfold pausePassCmd
  repeat' (first
    | with_reducible assumption
    | with_reducible apply updPlate_kept
    | with_reducible apply pltEnd_kept
    | with_reducible apply Kept.ite
    | with_reducible apply Kept.foldl
    | intro _ _ _ _
    | intro _ _ _
    | intro _
    | split)

theorem recoverCmd_kept (p : Nat) {z0 s : State} (hk : Kept z0 s) : Kept z0 (recoverCmd p s) := by
  unfold recoverCmd
  repeat' (first
    | with_reducible assumption
    | with_reducible apply updPlate_kept
    | with_reducible apply refreshPlate_kept
    | with_reducible apply pltEnd_kept
    | with_reducible apply Kept.ite
    | with_reducible apply Kept.foldl
    | intro _ _ _ _
    | intro _ _ _
    | intro _
    | split)

theorem releaseCmd_kept (p : Nat) {z0 s : State} (hk : Kept z0 s) : Kept z0 (releaseCmd p s) := by
  unfold releaseCmd
  repeat' (first
    | with_reducible assumption
    | with_reducible apply pltEnd_kept
    | with_reducible apply sendNv_kept
    | with_reducible apply updNs_kept
    | with_reducible apply updStore_kept
    | with_reducible apply Kept.ite
    | with_reducible apply Kept.foldl
    | with_reducible apply Kept.foldl_fst
    | intro _ _ _ _
    | intro _ _ _
    | intro _
    | (extract_lets +onlyGivenNames x; refine Kept.cut (t := x) ?_ ?_; (on_goal 1 => subst x); (on_goal 2 => (clear_value x; intro _)))
    | (extract_lets +onlyGivenNames x; clear_value x)
    | split
    | dsimp only
    | fail_if_no_progress (with_reducible apply Kept.parts))

end Sys2Proof.Machine
end

