-- ==== Sys2Proof/Laws/KeptAssembly.lean ====
section
/-! SUPPORT. What the operations of Machine/Assembly.lean keep. -/

namespace Sys2Proof.Machine

theorem mediaRecords_kept (p : Nat) (on : List Nat) (md : PlateMedia) {z0 s : State} (hk : Kept z0 s) : Kept z0 (mediaRecords p on md s) := by
  unfold mediaRecords
  repeat' (first
    | with_reducible assumption
    | with_reducible apply sketchEvt_kept
    | with_reducible apply onlyIf_kept
    | with_reducible apply Kept.ite
    | with_reducible apply Kept.foldl
    | with_reducible apply Kept.foldl_fst
    | intro _ _ _ _
    | intro _ _ _
    | intro _
    | (extract_lets +onlyGivenNames x; refine Kept.cut (t := x) ?_ ?_; (on_goal 1 => subst x); (on_goal 2 => (clear_value x; intro _)))
    | (extract_lets +onlyGivenNames x; clear_value x)
    | split
    | dsimp only
    | fail_if_no_progress (with_reducible apply Kept.parts))

theorem claimAs_kept (p gen : Nat) {z0 s : State} (hk : Kept z0 s) : Kept z0 (claimAs p gen s) := by
  unfold claimAs
  repeat' (first
    | with_reducible assumption
    | with_reducible apply sendMsg_kept
    | with_reducible apply Kept.ite
    | with_reducible apply Kept.ident
    | with_reducible apply Kept.foldl
    | with_reducible apply Kept.foldl_fst
    | intro _ _ _ _
    | intro _ _ _
    | intro _
    | (extract_lets +onlyGivenNames x; refine Kept.cut (t := x) ?_ ?_; (on_goal 1 => subst x); (on_goal 2 => (clear_value x; intro _)))
    | (extract_lets +onlyGivenNames x; clear_value x)
    | split
    | dsimp only
    | fail_if_no_progress (with_reducible apply Kept.parts))

theorem sendClaims_kept (p : Nat) {z0 s : State} (hk : Kept z0 s) : Kept z0 (sendClaims p s) := by
  unfold sendClaims
  repeat' (first
    | with_reducible assumption
    | with_reducible apply claimAs_kept
    | with_reducible apply Kept.ite
    | with_reducible apply Kept.foldl
    | with_reducible apply Kept.foldl_fst
    | intro _ _ _ _
    | intro _ _ _
    | intro _
    | (extract_lets +onlyGivenNames x; refine Kept.cut (t := x) ?_ ?_; (on_goal 1 => subst x); (on_goal 2 => (clear_value x; intro _)))
    | (extract_lets +onlyGivenNames x; clear_value x)
    | split
    | dsimp only
    | fail_if_no_progress (with_reducible apply Kept.parts))

theorem markForeign_kept (x : Plate) (found : List FoundNs) {z0 s : State} (hk : Kept z0 s) : Kept z0 (markForeign x found s) := by
  unfold markForeign
  repeat' (first
    | with_reducible assumption
    | with_reducible apply updNs_kept
    | with_reducible apply Kept.ite
    | with_reducible apply Kept.foldl
    | with_reducible apply Kept.foldl_fst
    | intro _ _ _ _
    | intro _ _ _
    | intro _
    | (extract_lets +onlyGivenNames x; refine Kept.cut (t := x) ?_ ?_; (on_goal 1 => subst x); (on_goal 2 => (clear_value x; intro _)))
    | (extract_lets +onlyGivenNames x; clear_value x)
    | split
    | dsimp only
    | fail_if_no_progress (with_reducible apply Kept.parts))

theorem autoReturn_kept (f : FoundNs) {z0 s : State} (hk : Kept z0 s) : Kept z0 (autoReturn f s) := by
  unfold autoReturn
  repeat' (first
    | with_reducible assumption
    | with_reducible apply replaceAccept_kept
    | with_reducible apply Kept.ite
    | with_reducible apply Kept.ident
    | with_reducible apply Kept.foldl
    | with_reducible apply Kept.foldl_fst
    | intro _ _ _ _
    | intro _ _ _
    | intro _
    | (extract_lets +onlyGivenNames x; refine Kept.cut (t := x) ?_ ?_; (on_goal 1 => subst x); (on_goal 2 => (clear_value x; intro _)))
    | (extract_lets +onlyGivenNames x; clear_value x)
    | split
    | dsimp only
    | fail_if_no_progress (with_reducible apply Kept.parts))

theorem settlePlate_kept (ix : Nat) (found : List FoundNs) (slots : List (Member × Bool × Bool)) (md : PlateMedia) (x : Plate) {z0 s : State} (hk : Kept z0 s) : Kept z0 (settlePlate ix found slots md x s) := by
  unfold settlePlate
  repeat' (first
    | with_reducible assumption
    | with_reducible apply dropTagCache_kept
    | with_reducible apply mediaRecords_kept
    | with_reducible apply setFld_kept
    | with_reducible apply refreshPlate_kept
    | with_reducible apply declareFails_kept
    | with_reducible apply resumeCycle_kept
    | with_reducible apply resumePass_kept
    | with_reducible apply joinPair_kept
    | with_reducible apply sendClaims_kept
    | with_reducible apply plateResv_kept
    | with_reducible apply markForeign_kept
    | with_reducible apply Kept.ite
    | with_reducible apply Kept.foldl
    | with_reducible apply Kept.foldl_fst
    | intro _ _ _ _
    | intro _ _ _
    | intro _
    | (extract_lets +onlyGivenNames x; refine Kept.cut (t := x) ?_ ?_; (on_goal 1 => subst x); (on_goal 2 => (clear_value x; intro _)))
    | (extract_lets +onlyGivenNames x; clear_value x)
    | split
    | dsimp only
    | fail_if_no_progress (with_reducible apply Kept.parts))

theorem keySuspects_kept (ix id : Nat) {z0 s : State} (hk : Kept z0 s) : Kept z0 (keySuspects ix id s) := by
  unfold keySuspects
  repeat' (first
    | with_reducible assumption
    | with_reducible apply updStore_kept
    | with_reducible apply Kept.ite
    | with_reducible apply Kept.ident
    | with_reducible apply Kept.foldl
    | with_reducible apply Kept.foldl_fst
    | intro _ _ _ _
    | intro _ _ _
    | intro _
    | (extract_lets +onlyGivenNames x; refine Kept.cut (t := x) ?_ ?_; (on_goal 1 => subst x); (on_goal 2 => (clear_value x; intro _)))
    | (extract_lets +onlyGivenNames x; clear_value x)
    | split
    | dsimp only
    | fail_if_no_progress (with_reducible apply Kept.parts))

theorem takePlate_kept (found : List FoundNs) (media : List PlateMedia) (id : Nat) {z0 s : State} (hk : Kept z0 s) : Kept z0 (takePlate found media id s) := by
  unfold takePlate
  repeat' (first
    | with_reducible assumption
    | with_reducible apply updStore_kept
    | with_reducible apply updCache_kept
    | with_reducible apply keySuspects_kept
    | with_reducible apply settlePlate_kept
    | with_reducible apply markForeign_kept
    | with_reducible apply updLink_kept
    | with_reducible apply Kept.ite
    | with_reducible apply Kept.ident
    | with_reducible apply Kept.foldl
    | with_reducible apply Kept.foldl_fst
    | intro _ _ _ _
    | intro _ _ _
    | intro _
    | (extract_lets +onlyGivenNames x; refine Kept.cut (t := x) ?_ ?_; (on_goal 1 => subst x); (on_goal 2 => (clear_value x; intro _)))
    | (extract_lets +onlyGivenNames x; clear_value x)
    | split
    | dsimp only
    | fail_if_no_progress (with_reducible apply Kept.parts))

theorem assemble_kept (found : List FoundNs) (media : List PlateMedia) {z0 s : State} (hk : Kept z0 s) : Kept z0 (assemble found media s) := by
  unfold assemble
  repeat' (first
    | with_reducible assumption
    | with_reducible apply updNs_kept
    | with_reducible apply takePlate_kept
    | with_reducible apply updStore_kept
    | with_reducible apply updLink_kept
    | with_reducible apply autoReturn_kept
    | with_reducible apply Kept.ite
    | with_reducible apply Kept.ident
    | with_reducible apply Kept.foldl
    | with_reducible apply Kept.foldl_fst
    | intro _ _ _ _
    | intro _ _ _
    | intro _
    | (extract_lets +onlyGivenNames x; refine Kept.cut (t := x) ?_ ?_; (on_goal 1 => subst x); (on_goal 2 => (clear_value x; intro _)))
    | (extract_lets +onlyGivenNames x; clear_value x)
    | split
    | dsimp only
    | fail_if_no_progress (with_reducible apply Kept.parts))

theorem importStrays_kept (f : Foreign) (slots : List (Member × Bool × Bool)) {z0 s : State} (hk : Kept z0 s) : Kept z0 (importStrays f slots s) := by
  unfold importStrays
  repeat' (first
    | with_reducible assumption
    | with_reducible apply updNs_kept
    | with_reducible apply Kept.ite
    | with_reducible apply Kept.foldl
    | with_reducible apply Kept.foldl_fst
    | intro _ _ _ _
    | intro _ _ _
    | intro _
    | (extract_lets +onlyGivenNames x; refine Kept.cut (t := x) ?_ ?_; (on_goal 1 => subst x); (on_goal 2 => (clear_value x; intro _)))
    | (extract_lets +onlyGivenNames x; clear_value x)
    | split
    | dsimp only
    | fail_if_no_progress (with_reducible apply Kept.parts))

theorem importCmd_kept (p : Nat) (md : PlateMedia) {z0 s : State} (hk : Kept z0 s) : Kept z0 (importCmd p md s) := by
  unfold importCmd
  repeat' (first
    | with_reducible assumption
    | with_reducible apply pltEnd_kept
    | with_reducible apply setFld_kept
    | with_reducible apply updStore_kept
    | with_reducible apply importStrays_kept
    | with_reducible apply dropTagCache_kept
    | with_reducible apply mediaRecords_kept
    | with_reducible apply resumeCycle_kept
    | with_reducible apply sendClaims_kept
    | with_reducible apply startLabel_kept
    | with_reducible apply declareFails_kept
    | with_reducible apply Kept.ite
    | with_reducible apply Kept.ident
    | with_reducible apply Kept.foldl
    | with_reducible apply Kept.foldl_fst
    | intro _ _ _ _
    | intro _ _ _
    | intro _
    | (extract_lets +onlyGivenNames x; refine Kept.cut (t := x) ?_ ?_; (on_goal 1 => subst x); (on_goal 2 => (clear_value x; intro _)))
    | (extract_lets +onlyGivenNames x; clear_value x)
    | split
    | dsimp only
    | fail_if_no_progress (with_reducible apply Kept.parts))

theorem pltHeld_kept (p op : Nat) {z0 s : State} (hk : Kept z0 s) : Kept z0 (pltHeld p op s) := by
  unfold pltHeld
  repeat' (first
    | with_reducible assumption
    | with_reducible apply cmdStart_kept
    | with_reducible apply failMemberCmd_kept
    | with_reducible apply replaceCmd_kept
    | with_reducible apply startPassCmd_kept
    | with_reducible apply pausePassCmd_kept
    | with_reducible apply recoverCmd_kept
    | with_reducible apply releaseCmd_kept
    | with_reducible apply Kept.ite
    | with_reducible apply Kept.foldl
    | with_reducible apply Kept.foldl_fst
    | intro _ _ _ _
    | intro _ _ _
    | intro _
    | (extract_lets +onlyGivenNames x; refine Kept.cut (t := x) ?_ ?_; (on_goal 1 => subst x); (on_goal 2 => (clear_value x; intro _)))
    | (extract_lets +onlyGivenNames x; clear_value x)
    | split
    | dsimp only
    | fail_if_no_progress (with_reducible apply Kept.parts))

theorem pltCmd_kept (w : Win) (p op : Nat) (pars : List (FRef × Nat)) (act : State → State) {z0 s : State} (h_act : ∀ r t, Kept r t → Kept r (act t)) (hk : Kept z0 s) : Kept z0 (pltCmd w p op pars act s) := by
  unfold pltCmd
  repeat' (first
    | with_reducible assumption
    | with_reducible apply h_act
    | with_reducible apply cmdWrite_kept
    | with_reducible apply pltHeld_kept
    | with_reducible apply Kept.ite
    | with_reducible apply Kept.foldl
    | with_reducible apply Kept.foldl_fst
    | intro _ _ _ _
    | intro _ _ _
    | intro _
    | (extract_lets +onlyGivenNames x; refine Kept.cut (t := x) ?_ ?_; (on_goal 1 => subst x); (on_goal 2 => (clear_value x; intro _)))
    | (extract_lets +onlyGivenNames x; clear_value x)
    | split
    | dsimp only
    | fail_if_no_progress (with_reducible apply Kept.parts))

end Sys2Proof.Machine
end

