-- ==== Sys2Proof/Laws/KeptProof.lean ====
section
/-! SUPPORT. What the operations of Machine/Proof.lean keep. -/

namespace Sys2Proof.Machine

theorem cycleStart_kept (p : Nat) {z0 s : State} (hk : Kept z0 s) : Kept z0 (cycleStart p s) := by
  unfold cycleStart
  repeat' (first
    | with_reducible assumption
    | with_reducible apply updPlate_kept
    | with_reducible apply cycleSync_kept
    | with_reducible apply Kept.ite
    | with_reducible apply Kept.foldl
    | intro _ _ _ _
    | intro _ _ _
    | intro _
    | (extract_lets +onlyGivenNames x; clear_value x)
    | split)

theorem cycleSlice_kept (p lenUs : Nat) {z0 s : State} (hk : Kept z0 s) : Kept z0 (cycleSlice p lenUs s) := by
  unfold cycleSlice
  repeat' (first
    | with_reducible assumption
    | with_reducible apply incFld_kept
    | with_reducible apply setEvt_kept
    | with_reducible apply onlyIf_kept
    | with_reducible apply updPlate_kept
    | with_reducible apply Kept.ite
    | with_reducible apply Kept.foldl
    | intro _ _ _ _
    | intro _ _ _
    | intro _
    | split)

theorem deadlinePassed_kept (p : Nat) {z0 s : State} (hk : Kept z0 s) : Kept z0 (deadlinePassed p s) := by
  unfold deadlinePassed
  repeat' (first
    | with_reducible assumption
    | with_reducible apply setEvt_kept
    | with_reducible apply sketchEvt_kept
    | with_reducible apply updPlate_kept
    | with_reducible apply Kept.ite
    | with_reducible apply Kept.foldl
    | intro _ _ _ _
    | intro _ _ _
    | intro _
    | split)

theorem proofRecord_kept (p : Nat) {z0 s : State} (hk : Kept z0 s) : Kept z0 (proofRecord p s) := by
  unfold proofRecord
  repeat' (first
    | with_reducible assumption
    | with_reducible apply progAppend_kept
    | with_reducible apply updPlate_kept
    | with_reducible apply sendMsg_kept
    | with_reducible apply Kept.ite
    | with_reducible apply Kept.ident
    | with_reducible apply Kept.foldl
    | with_reducible apply Kept.foldl_fst
    | intro _ _ _ _
    | intro _ _ _
    | intro _
    | (extract_lets +onlyGivenNames x; refine Kept.cut (t := x) ?_ ?_; (on_goal 1 => subst x); (on_goal 2 => (clear_value x; intro _)))
    | (extract_lets +onlyGivenNames x; clear_value x)
    | split
    | dsimp only
    | fail_if_no_progress (with_reducible apply Kept.parts))

theorem unitStart_kept (p : Nat) {z0 s : State} (hk : Kept z0 s) : Kept z0 (unitStart p s) := by
  unfold unitStart
  repeat' (first
    | with_reducible assumption
    | with_reducible apply updPlate_kept
    | with_reducible apply newSop_kept
    | with_reducible apply Kept.ite
    | with_reducible apply Kept.foldl
    | intro _ _ _ _
    | intro _ _ _
    | intro _
    | (extract_lets +onlyGivenNames x; clear_value x)
    | split)

theorem unitClears_kept (p sn : Nat) (good : List Nat) {z0 s : State} (hk : Kept z0 s) : Kept z0 (unitClears p sn good s) := by
  unfold unitClears
  repeat' (first
    | with_reducible assumption
    | with_reducible apply delSuspect_kept
    | with_reducible apply Kept.ite
    | with_reducible apply Kept.foldl
    | intro _ _ _ _
    | intro _ _ _
    | intro _
    | split)

theorem repairEvents_kept (n : Nat) {z0 s : State} (hk : Kept z0 s) : Kept z0 (repairEvents n s) := by
  unfold repairEvents
  repeat' (first
    | with_reducible assumption
    | with_reducible apply sketchEvt_kept
    | with_reducible apply setEvt_kept
    | with_reducible apply Kept.ite
    | with_reducible apply Kept.foldl
    | with_reducible apply Kept.foldl_fst
    | intro _ _ _ _
    | intro _ _ _
    | intro _
    | (extract_lets +onlyGivenNames x; refine Kept.cut (t := x) ?_ ?_; (on_goal 1 => subst x); (on_goal 2 => (clear_value x; intro _)))
    | (extract_lets +onlyGivenNames x; clear_value x)
    | split
    | dsimp only
    | fail_if_no_progress (with_reducible apply Kept.parts))

theorem unitDone_kept (id : Nat) {z0 s : State} (hk : Kept z0 s) : Kept z0 (unitDone id s) := by
  unfold unitDone
  repeat' (first
    | with_reducible assumption
    | with_reducible apply graverAsk_kept
    | with_reducible apply onlyIf_kept
    | with_reducible apply incFld_kept
    | with_reducible apply updSop_kept
    | with_reducible apply repairEvents_kept
    | with_reducible apply addSuspect_kept
    | with_reducible apply sopCheck_kept
    | with_reducible apply loseBlocks_kept
    | with_reducible apply sopWrite_kept
    | with_reducible apply unitClears_kept
    | with_reducible apply Kept.ite
    | with_reducible apply Kept.ident
    | with_reducible apply Kept.foldl
    | with_reducible apply Kept.foldl_fst
    | intro _ _ _ _
    | intro _ _ _
    | intro _
    | (extract_lets +onlyGivenNames x; refine Kept.cut (t := x) ?_ ?_; (on_goal 1 => subst x); (on_goal 2 => (clear_value x; intro _)))
    | (extract_lets +onlyGivenNames x; clear_value x)
    | split
    | dsimp only
    | fail_if_no_progress (with_reducible apply Kept.parts))

theorem prfEnd_kept (st : Status) {z0 s : State} (hk : Kept z0 s) : Kept z0 (prfEnd st s) := by
  unfold prfEnd
  repeat' (first
    | with_reducible assumption
    | with_reducible apply cmdEnd_kept)

theorem startCycleCmd_kept (p : Nat) {z0 s : State} (hk : Kept z0 s) : Kept z0 (startCycleCmd p s) := by
  unfold startCycleCmd
  repeat' (first
    | with_reducible assumption
    | with_reducible apply cycleStart_kept
    | with_reducible apply prfEnd_kept
    | with_reducible apply Kept.ite
    | with_reducible apply Kept.foldl
    | intro _ _ _ _
    | intro _ _ _
    | intro _
    | split)

theorem pauseCycleCmd_kept (p : Nat) (on : Bool) {z0 s : State} (hk : Kept z0 s) : Kept z0 (pauseCycleCmd p on s) := by
  unfold pauseCycleCmd
  repeat' (first
    | with_reducible assumption
    | with_reducible apply updPlate_kept
    | with_reducible apply cycleSync_kept
    | with_reducible apply prfEnd_kept
    | with_reducible apply Kept.ite
    | with_reducible apply Kept.foldl
    | intro _ _ _ _
    | intro _ _ _
    | intro _
    | split)

theorem clearSuspectCmd_kept  {z0 s : State} (hk : Kept z0 s) : Kept z0 (clearSuspectCmd s) := by
  unfold clearSuspectCmd
  repeat' (first
    | with_reducible assumption
    | with_reducible apply delSuspect_kept
    | with_reducible apply prfEnd_kept
    | with_reducible apply Kept.ite
    | with_reducible apply Kept.foldl
    | intro _ _ _ _
    | intro _ _ _
    | intro _
    | split)

theorem prfHeld_kept (op : Nat) {z0 s : State} (hk : Kept z0 s) : Kept z0 (prfHeld op s) := by
  unfold prfHeld
  repeat' (first
    | with_reducible assumption
    | with_reducible apply cmdStart_kept
    | with_reducible apply startCycleCmd_kept
    | with_reducible apply clearSuspectCmd_kept
    | with_reducible apply pauseCycleCmd_kept
    | with_reducible apply Kept.ite
    | with_reducible apply Kept.foldl
    | with_reducible apply Kept.foldl_fst
    | intro _ _ _ _
    | intro _ _ _
    | intro _
    | (extract_lets +onlyGivenNames x; refine Kept.cut (t := x) ?_ ?_; (on_goal 1 => subst x); (on_goal 2 => (clear_value x; intro _)))
    | (extract_lets +onlyGivenNames x; clear_value x)
    | split
    | dsimp only
    | fail_if_no_progress (with_reducible apply Kept.parts))

theorem prfCmd_kept (w : Win) (op : Nat) (pars : List (FRef × Nat)) (act : State → State) {z0 s : State} (h_act : ∀ r t, Kept r t → Kept r (act t)) (hk : Kept z0 s) : Kept z0 (prfCmd w op pars act s) := by
  unfold prfCmd
  repeat' (first
    | with_reducible assumption
    | with_reducible apply h_act
    | with_reducible apply cmdWrite_kept
    | with_reducible apply prfHeld_kept
    | with_reducible apply Kept.ite
    | with_reducible apply Kept.foldl
    | with_reducible apply Kept.foldl_fst
    | intro _ _ _ _
    | intro _ _ _
    | intro _
    | (extract_lets +onlyGivenNames x; refine Kept.cut (t := x) ?_ ?_; (on_goal 1 => subst x); (on_goal 2 => (clear_value x; intro _)))
    | (extract_lets +onlyGivenNames x; clear_value x)
    | split
    | dsimp only
    | fail_if_no_progress (with_reducible apply Kept.parts))

end Sys2Proof.Machine
end

