-- ==== Sys2Proof/Laws/KeptCache.lean ====
section
/-! SUPPORT. What the operations of Machine/Cache.lean keep. -/

namespace Sys2Proof.Machine

theorem destageStart_kept  {z0 s : State} (hk : Kept z0 s) : Kept z0 (destageStart s) := by
  unfold destageStart
  repeat' (first
    | with_reducible assumption
    | with_reducible apply updIo_kept
    | with_reducible apply Kept.ite
    | with_reducible apply Kept.foldl
    | intro _ _ _ _
    | intro _ _ _
    | intro _
    | split)

theorem pmirShow_kept  {z0 s : State} (hk : Kept z0 s) : Kept z0 (pmirShow s) := by
  unfold pmirShow
  repeat' (first
    | with_reducible assumption
    | with_reducible apply setFlag_kept)

theorem pmirSuspend_kept (node : Nat) {z0 s : State} (hk : Kept z0 s) : Kept z0 (pmirSuspend node s) := by
  unfold pmirSuspend
  repeat' (first
    | with_reducible assumption
    | with_reducible apply updCache_kept
    | with_reducible apply cacheStaged_kept
    | with_reducible apply updEntry_kept
    | with_reducible apply sketchEvt_kept
    | with_reducible apply setEvt_kept
    | with_reducible apply pmirShow_kept
    | with_reducible apply Kept.ite
    | with_reducible apply Kept.foldl
    | with_reducible apply Kept.foldl_fst
    | intro _ _ _ _
    | intro _ _ _
    | intro _
    | (extract_lets +onlyGivenNames x; refine Kept.cut (t := x) ?_ ?_; (on_goal 1 => subst x); (on_goal 2 => (clear_value x; intro _)))
    | (extract_lets +onlyGivenNames x; clear_value x)
    | split
    | dsimp only
    | fail_if_no_progress (with_reducible apply Kept.parts))

theorem pmirSend_kept (node : Nat) {z0 s : State} (hk : Kept z0 s) : Kept z0 (pmirSend node s) := by
  unfold pmirSend
  repeat' (first
    | with_reducible assumption
    | with_reducible apply sendMsg_kept
    | with_reducible apply updCache_kept
    | with_reducible apply Kept.ite
    | with_reducible apply Kept.foldl
    | with_reducible apply Kept.foldl_fst
    | intro _ _ _ _
    | intro _ _ _
    | intro _
    | (extract_lets +onlyGivenNames x; refine Kept.cut (t := x) ?_ ?_; (on_goal 1 => subst x); (on_goal 2 => (clear_value x; intro _)))
    | (extract_lets +onlyGivenNames x; clear_value x)
    | split
    | dsimp only
    | fail_if_no_progress (with_reducible apply Kept.parts))

theorem pmirReady_kept (node : Nat) {z0 s : State} (hk : Kept z0 s) : Kept z0 (pmirReady node s) := by
  unfold pmirReady
  repeat' (first
    | with_reducible assumption
    | with_reducible apply updCache_kept
    | with_reducible apply updPlate_kept
    | with_reducible apply onlyIf_kept
    | with_reducible apply setEvt_kept
    | with_reducible apply pmirShow_kept
    | with_reducible apply Kept.ite
    | with_reducible apply Kept.foldl
    | with_reducible apply Kept.foldl_fst
    | intro _ _ _ _
    | intro _ _ _
    | intro _
    | (extract_lets +onlyGivenNames x; refine Kept.cut (t := x) ?_ ?_; (on_goal 1 => subst x); (on_goal 2 => (clear_value x; intro _)))
    | (extract_lets +onlyGivenNames x; clear_value x)
    | split
    | dsimp only
    | fail_if_no_progress (with_reducible apply Kept.parts))

theorem pmirAcked_kept (m node : Nat) {z0 s : State} (hk : Kept z0 s) : Kept z0 (pmirAcked m node s) := by
  unfold pmirAcked
  repeat' (first
    | with_reducible assumption
    | with_reducible apply pmirReady_kept
    | with_reducible apply updCache_kept
    | with_reducible apply Kept.ite
    | with_reducible apply Kept.foldl
    | with_reducible apply Kept.foldl_fst
    | intro _ _ _ _
    | intro _ _ _
    | intro _
    | (extract_lets +onlyGivenNames x; refine Kept.cut (t := x) ?_ ?_; (on_goal 1 => subst x); (on_goal 2 => (clear_value x; intro _)))
    | (extract_lets +onlyGivenNames x; clear_value x)
    | split
    | dsimp only
    | fail_if_no_progress (with_reducible apply Kept.parts))

theorem pmirResume_kept (node : Nat) {z0 s : State} (hk : Kept z0 s) : Kept z0 (pmirResume node s) := by
  unfold pmirResume
  repeat' (first
    | with_reducible assumption
    | with_reducible apply pmirReady_kept
    | with_reducible apply pmirSend_kept
    | with_reducible apply Kept.ite
    | with_reducible apply Kept.foldl
    | with_reducible apply Kept.foldl_fst
    | intro _ _ _ _
    | intro _ _ _
    | intro _
    | (extract_lets +onlyGivenNames x; refine Kept.cut (t := x) ?_ ?_; (on_goal 1 => subst x); (on_goal 2 => (clear_value x; intro _)))
    | (extract_lets +onlyGivenNames x; clear_value x)
    | split
    | dsimp only
    | fail_if_no_progress (with_reducible apply Kept.parts))

theorem modeChange_kept (unb : Bool) {z0 s : State} (hk : Kept z0 s) : Kept z0 (modeChange unb s) := by
  unfold modeChange
  repeat' (first
    | with_reducible assumption
    | with_reducible apply incFld_kept
    | with_reducible apply setFlag_kept
    | with_reducible apply setEvt_kept
    | with_reducible apply sketchEvt_kept)

theorem enterUnbacked_kept  {z0 s : State} (hk : Kept z0 s) : Kept z0 (enterUnbacked  s) := by
  unfold enterUnbacked
  repeat' (first
    | with_reducible assumption
    | with_reducible apply onlyIf_kept
    | with_reducible apply startLabel_kept
    | with_reducible apply startPair_kept
    | with_reducible apply modeChange_kept
    | with_reducible apply Kept.ite
    | with_reducible apply Kept.foldl
    | with_reducible apply Kept.foldl_fst
    | intro _ _ _ _
    | intro _ _ _
    | intro _
    | (extract_lets +onlyGivenNames x; refine Kept.cut (t := x) ?_ ?_; (on_goal 1 => subst x); (on_goal 2 => (clear_value x; intro _)))
    | (extract_lets +onlyGivenNames x; clear_value x)
    | split
    | dsimp only
    | fail_if_no_progress (with_reducible apply Kept.parts))

theorem leaveUnbacked_kept  {z0 s : State} (hk : Kept z0 s) : Kept z0 (leaveUnbacked  s) := by
  unfold leaveUnbacked
  repeat' (first
    | with_reducible assumption
    | with_reducible apply setFld_kept
    | with_reducible apply modeChange_kept
    | with_reducible apply startLabel_kept
    | with_reducible apply updJp_kept
    | with_reducible apply Kept.ite
    | with_reducible apply Kept.foldl
    | with_reducible apply Kept.foldl_fst
    | intro _ _ _ _
    | intro _ _ _
    | intro _
    | (extract_lets +onlyGivenNames x; refine Kept.cut (t := x) ?_ ?_; (on_goal 1 => subst x); (on_goal 2 => (clear_value x; intro _)))
    | (extract_lets +onlyGivenNames x; clear_value x)
    | split
    | dsimp only
    | fail_if_no_progress (with_reducible apply Kept.parts))

theorem ceilRecompute_kept  {z0 s : State} (hk : Kept z0 s) : Kept z0 (ceilRecompute s) := by
  unfold ceilRecompute
  repeat' (first
    | with_reducible assumption
    | with_reducible apply setFld_kept
    | with_reducible apply updCache_kept
    | with_reducible apply enterUnbacked_kept
    | with_reducible apply Kept.ite)

theorem writeThroughOn_kept  {z0 s : State} (hk : Kept z0 s) : Kept z0 (writeThroughOn s) := by
  unfold writeThroughOn
  repeat' (first
    | with_reducible assumption
    | with_reducible apply setFld_kept
    | with_reducible apply setEvt_kept
    | with_reducible apply Kept.ite)

theorem brace_kept  {z0 s : State} (hk : Kept z0 s) : Kept z0 (brace s) := by
  unfold brace
  repeat' (first
    | with_reducible assumption
    | with_reducible apply setFld_kept
    | with_reducible apply setEvt_kept
    | with_reducible apply Kept.ite)

theorem braceEnd_kept  {z0 s : State} (hk : Kept z0 s) : Kept z0 (braceEnd s) := by
  unfold braceEnd
  repeat' (first
    | with_reducible assumption
    | with_reducible apply setFld_kept
    | with_reducible apply Kept.ite)

theorem cchEnd_kept (st : Status) {z0 s : State} (hk : Kept z0 s) : Kept z0 (cchEnd st s) := by
  unfold cchEnd
  repeat' (first
    | with_reducible assumption
    | with_reducible apply cmdEnd_kept)

theorem cacheFlush_kept  {z0 s : State} (hk : Kept z0 s) : Kept z0 (cacheFlush s) := by
  unfold cacheFlush
  repeat' (first
    | with_reducible assumption
    | with_reducible apply updCache_kept
    | with_reducible apply cchEnd_kept
    | with_reducible apply Kept.ite)

theorem clearLost_kept (vol : Nat) {z0 s : State} (hk : Kept z0 s) : Kept z0 (clearLost vol s) := by
  unfold clearLost
  repeat' (first
    | with_reducible assumption
    | with_reducible apply setFld_kept
    | with_reducible apply updStore_kept
    | with_reducible apply cchEnd_kept
    | with_reducible apply Kept.ite)

theorem cchCmd_kept (w : Win) (op : Nat) (pars : List (FRef × Nat)) (act : State → State) {z0 s : State} (h_act : ∀ r t, Kept r t → Kept r (act t)) (hk : Kept z0 s) : Kept z0 (cchCmd w op pars act s) := by
  unfold cchCmd
  repeat' (first
    | with_reducible assumption
    | with_reducible apply h_act
    | with_reducible apply cmdWrite_kept
    | with_reducible apply cmdStart_kept
    | with_reducible apply cacheFlush_kept
    | with_reducible apply clearLost_kept
    | with_reducible apply Kept.ite
    | with_reducible apply Kept.foldl
    | with_reducible apply Kept.foldl_fst
    | intro _ _ _ _
    | intro _ _ _
    | intro _
    | (extract_lets +onlyGivenNames x; refine Kept.cut (t := x) ?_ ?_; (on_goal 1 => subst x); (on_goal 2 => (clear_value x; intro _)))
    | (extract_lets +onlyGivenNames x; clear_value x)
    | split
    | dsimp only
    | fail_if_no_progress (with_reducible apply Kept.parts))

theorem lostwWrite_kept  {z0 s : State} (hk : Kept z0 s) : Kept z0 (lostwWrite s) := by
  unfold lostwWrite
  repeat' (first
    | with_reducible assumption
    | with_reducible apply updStore_kept
    | with_reducible apply listWrite_kept)

end Sys2Proof.Machine
end

