-- ==== Sys2Proof/Laws/KeptBem.lean ====
section
/-! SUPPORT. What the operations of Machine/Bem.lean keep. -/

namespace Sys2Proof.Machine

theorem updBem_kept (f : Bem → Bem) {z0 s : State} (hk : Kept z0 s) : Kept z0 (updBem f s) := Kept.parts hk

theorem restWinEnd_kept  {z0 s : State} (hk : Kept z0 s) : Kept z0 (restWinEnd  s) := by
  unfold restWinEnd
  repeat' (first
    | with_reducible assumption
    | with_reducible apply setFld_kept
    | with_reducible apply setFlag_kept
    | with_reducible apply Kept.ite
    | with_reducible apply Kept.foldl
    | with_reducible apply Kept.foldl_fst
    | intro _ _ _ _
    | intro _ _ _
    | intro _
    | (extract_lets +onlyGivenNames x; refine Kept.cut (t := x) ?_ ?_; (on_goal 1 => subst x); (on_goal 2 => (clear_value x; intro _)))
    | (extract_lets +onlyGivenNames x; clear_value x)
    | split
    | dsimp only
    | fail_if_no_progress (with_reducible apply Kept.parts))

theorem restWinFail_kept  {z0 s : State} (hk : Kept z0 s) : Kept z0 (restWinFail  s) := by
  unfold restWinFail
  repeat' (first
    | with_reducible assumption
    | with_reducible apply setEvt_kept
    | with_reducible apply restWinEnd_kept
    | with_reducible apply Kept.ite
    | with_reducible apply Kept.foldl
    | with_reducible apply Kept.foldl_fst
    | intro _ _ _ _
    | intro _ _ _
    | intro _
    | (extract_lets +onlyGivenNames x; refine Kept.cut (t := x) ?_ ?_; (on_goal 1 => subst x); (on_goal 2 => (clear_value x; intro _)))
    | (extract_lets +onlyGivenNames x; clear_value x)
    | split
    | dsimp only
    | fail_if_no_progress (with_reducible apply Kept.parts))

theorem boundUpdate_kept  {z0 s : State} (hk : Kept z0 s) : Kept z0 (boundUpdate s) := by
  unfold boundUpdate
  repeat' (first
    | with_reducible assumption
    | with_reducible apply setFld_kept
    | with_reducible apply setFlag_kept
    | with_reducible apply set64_kept
    | with_reducible apply ceilRecompute_kept
    | with_reducible apply updBem_kept
    | with_reducible apply restWinFail_kept
    | with_reducible apply Kept.ite)

theorem setConf_kept (v : Nat) {z0 s : State} (hk : Kept z0 s) : Kept z0 (setConf v s) := by
  unfold setConf
  repeat' (first
    | with_reducible assumption
    | with_reducible apply setFld_kept
    | with_reducible apply updBem_kept
    | with_reducible apply Kept.ite)

theorem setSoc_kept (ppm src : Nat) {z0 s : State} (hk : Kept z0 s) : Kept z0 (setSoc ppm src s) := by
  unfold setSoc
  repeat' (first
    | with_reducible assumption
    | with_reducible apply setFld_kept
    | with_reducible apply charge_kept
    | with_reducible apply updBem_kept)

theorem setLearn_kept (mah : Nat) {z0 s : State} (hk : Kept z0 s) : Kept z0 (setLearn mah s) := by
  unfold setLearn
  repeat' (first
    | with_reducible assumption
    | with_reducible apply setFld_kept
    | with_reducible apply charge_kept
    | with_reducible apply updBem_kept)

theorem countCharge_kept (us : Nat) {z0 s : State} (hk : Kept z0 s) : Kept z0 (countCharge us s) := by
  unfold countCharge
  repeat' (first
    | with_reducible assumption
    | with_reducible apply setFld_kept
    | with_reducible apply charge_kept
    | with_reducible apply updBem_kept
    | with_reducible apply Kept.ite)

theorem countCycles_kept (us : Nat) {z0 s : State} (hk : Kept z0 s) : Kept z0 (countCycles us s) := by
  unfold countCycles
  repeat' (first
    | with_reducible assumption
    | with_reducible apply incFld_kept
    | with_reducible apply updBem_kept
    | with_reducible apply Kept.ite)

theorem loadedEst_kept  {z0 s : State} (hk : Kept z0 s) : Kept z0 (loadedEst s) := by
  unfold loadedEst
  repeat' (first
    | with_reducible assumption
    | with_reducible apply updBem_kept
    | with_reducible apply setConf_kept
    | with_reducible apply setSoc_kept
    | with_reducible apply Kept.ite)

theorem learnDq_kept (cause : Nat) {z0 s : State} (hk : Kept z0 s) : Kept z0 (learnDq cause s) := by
  unfold learnDq
  repeat' (first
    | with_reducible assumption
    | with_reducible apply setEvt_kept
    | with_reducible apply setFld_kept
    | with_reducible apply setFlag_kept
    | with_reducible apply updBem_kept
    | with_reducible apply Kept.ite
    | with_reducible apply Kept.foldl
    | with_reducible apply Kept.foldl_fst
    | intro _ _ _ _
    | intro _ _ _
    | intro _
    | (extract_lets +onlyGivenNames x; refine Kept.cut (t := x) ?_ ?_; (on_goal 1 => subst x); (on_goal 2 => (clear_value x; intro _)))
    | (extract_lets +onlyGivenNames x; clear_value x)
    | split
    | dsimp only
    | fail_if_no_progress (with_reducible apply Kept.parts))

theorem learnStart_kept (auto : Bool) {z0 s : State} (hk : Kept z0 s) : Kept z0 (learnStart auto s) := by
  unfold learnStart
  repeat' (first
    | with_reducible assumption
    | with_reducible apply setFld_kept
    | with_reducible apply updBem_kept
    | with_reducible apply Kept.ite
    | with_reducible apply Kept.foldl
    | with_reducible apply Kept.foldl_fst
    | intro _ _ _ _
    | intro _ _ _
    | intro _
    | (extract_lets +onlyGivenNames x; refine Kept.cut (t := x) ?_ ?_; (on_goal 1 => subst x); (on_goal 2 => (clear_value x; intro _)))
    | (extract_lets +onlyGivenNames x; clear_value x)
    | split
    | dsimp only
    | fail_if_no_progress (with_reducible apply Kept.parts))

theorem learnSample_kept (us : Nat) {z0 s : State} (hk : Kept z0 s) : Kept z0 (learnSample us s) := by
  unfold learnSample
  repeat' (first
    | with_reducible assumption
    | with_reducible apply setFld_kept
    | with_reducible apply updBem_kept
    | with_reducible apply learnDq_kept
    | with_reducible apply Kept.ite)

theorem rintStep_kept  {z0 s : State} (hk : Kept z0 s) : Kept z0 (rintStep s) := by
  unfold rintStep
  repeat' (first
    | with_reducible assumption
    | with_reducible apply updBem_kept)

theorem bemSample_kept (us i : Nat) (v t : Option Nat) {z0 s : State} (hk : Kept z0 s) : Kept z0 (bemSample us i v t s) := by
  unfold bemSample
  repeat' (first
    | with_reducible assumption
    | with_reducible apply setFld_kept
    | with_reducible apply setFlag_kept
    | with_reducible apply setEvt_kept
    | with_reducible apply sketchExtreme_kept
    | with_reducible apply updBem_kept
    | with_reducible apply boundUpdate_kept
    | with_reducible apply countCharge_kept
    | with_reducible apply countCycles_kept
    | with_reducible apply loadedEst_kept
    | with_reducible apply learnSample_kept
    | with_reducible apply Kept.ite
    | with_reducible apply Kept.foldl
    | intro _ _ _ _
    | intro _ _ _
    | intro _
    | split)

theorem bemFollow_kept  {z0 s : State} (hk : Kept z0 s) : Kept z0 (bemFollow s) := by
  unfold bemFollow
  repeat' (first
    | with_reducible assumption
    | with_reducible apply setFld_kept
    | with_reducible apply setFlag_kept
    | with_reducible apply updBem_kept
    | with_reducible apply rintStep_kept
    | with_reducible apply Kept.ite)

theorem learnEnd_kept (soc2 : Nat) {z0 s : State} (hk : Kept z0 s) : Kept z0 (learnEnd soc2 s) := by
  unfold learnEnd
  repeat' (first
    | with_reducible assumption
    | with_reducible apply learnDq_kept
    | with_reducible apply setEvt_kept
    | with_reducible apply setFld_kept
    | with_reducible apply updBem_kept
    | with_reducible apply setLearn_kept
    | with_reducible apply Kept.ite
    | with_reducible apply Kept.foldl
    | with_reducible apply Kept.foldl_fst
    | intro _ _ _ _
    | intro _ _ _
    | intro _
    | (extract_lets +onlyGivenNames x; refine Kept.cut (t := x) ?_ ?_; (on_goal 1 => subst x); (on_goal 2 => (clear_value x; intro _)))
    | (extract_lets +onlyGivenNames x; clear_value x)
    | split
    | dsimp only
    | fail_if_no_progress (with_reducible apply Kept.parts))

theorem restReading_kept  {z0 s : State} (hk : Kept z0 s) : Kept z0 (restReading  s) := by
  unfold restReading
  repeat' (first
    | with_reducible assumption
    | with_reducible apply setFld_kept
    | with_reducible apply setSoc_kept
    | with_reducible apply updBem_kept
    | with_reducible apply setConf_kept
    | with_reducible apply setEvt_kept
    | with_reducible apply restWinEnd_kept
    | with_reducible apply learnDq_kept
    | with_reducible apply rintStep_kept
    | with_reducible apply learnEnd_kept
    | with_reducible apply boundUpdate_kept
    | with_reducible apply Kept.ite
    | with_reducible apply Kept.foldl
    | with_reducible apply Kept.foldl_fst
    | intro _ _ _ _
    | intro _ _ _
    | intro _
    | (extract_lets +onlyGivenNames x; refine Kept.cut (t := x) ?_ ?_; (on_goal 1 => subst x); (on_goal 2 => (clear_value x; intro _)))
    | (extract_lets +onlyGivenNames x; clear_value x)
    | split
    | dsimp only
    | fail_if_no_progress (with_reducible apply Kept.parts))

theorem restWindow_kept  {z0 s : State} (hk : Kept z0 s) : Kept z0 (restWindow s) := by
  unfold restWindow
  repeat' (first
    | with_reducible assumption
    | with_reducible apply setFld_kept
    | with_reducible apply setEvt_kept
    | with_reducible apply Kept.ite)

theorem newPack_kept  {z0 s : State} (hk : Kept z0 s) : Kept z0 (newPack s) := by
  unfold newPack
  repeat' (first
    | with_reducible assumption
    | with_reducible apply setFld_kept
    | with_reducible apply updBem_kept
    | with_reducible apply setConf_kept
    | with_reducible apply setLearn_kept
    | with_reducible apply Kept.ite
    | with_reducible apply Kept.foldl
    | intro _ _ _ _
    | intro _ _ _)

theorem loadModel_kept (r : List Byte) {z0 s : State} (hk : Kept z0 s) : Kept z0 (loadModel r s) := by
  unfold loadModel
  repeat' (first
    | with_reducible assumption
    | with_reducible apply setFld_kept
    | with_reducible apply updBem_kept
    | with_reducible apply setLearn_kept
    | with_reducible apply Kept.ite
    | with_reducible apply Kept.foldl
    | intro _ _ _ _
    | intro _ _ _)

theorem takeIdent_kept (d : List Byte) {z0 s : State} (hk : Kept z0 s) : Kept z0 (takeIdent d s) := by
  unfold takeIdent
  repeat' (first
    | with_reducible assumption
    | with_reducible apply setFld_kept
    | with_reducible apply updBem_kept
    | with_reducible apply newPack_kept
    | with_reducible apply loadModel_kept
    | with_reducible apply Kept.ite
    | with_reducible apply Kept.ident
    | with_reducible apply Kept.foldl
    | intro _ _ _ _
    | intro _ _ _
    | intro _
    | (extract_lets +onlyGivenNames x; refine Kept.cut (t := x) ?_ ?_; (on_goal 1 => subst x); (on_goal 2 => (clear_value x; intro _)))
    | split)

theorem authEnd_kept (auth : Nat) {z0 s : State} (hk : Kept z0 s) : Kept z0 (authEnd auth s) := by
  unfold authEnd
  repeat' (first
    | with_reducible assumption
    | with_reducible apply setFld_kept
    | with_reducible apply cmdEnd_kept
    | with_reducible apply updBem_kept
    | with_reducible apply boundUpdate_kept
    | with_reducible apply Kept.ite)

theorem authFail_kept  {z0 s : State} (hk : Kept z0 s) : Kept z0 (authFail s) := by
  unfold authFail
  repeat' (first
    | with_reducible assumption
    | with_reducible apply setEvt_kept
    | with_reducible apply sketchEvt_kept
    | with_reducible apply updBem_kept
    | with_reducible apply learnDq_kept
    | with_reducible apply authEnd_kept
    | with_reducible apply Kept.ite)

theorem packSend_kept (code : Nat) (bytes : List Byte) {z0 s : State} (hk : Kept z0 s) : Kept z0 (packSend code bytes s) := by
  unfold packSend
  repeat' (first
    | with_reducible assumption
    | with_reducible apply frame_kept
    | with_reducible apply emit_kept
    | with_reducible apply Kept.ite
    | with_reducible apply Kept.foldl
    | with_reducible apply Kept.foldl_fst
    | intro _ _ _ _
    | intro _ _ _
    | intro _
    | (extract_lets +onlyGivenNames x; refine Kept.cut (t := x) ?_ ?_; (on_goal 1 => subst x); (on_goal 2 => (clear_value x; intro _)))
    | (extract_lets +onlyGivenNames x; clear_value x)
    | split
    | dsimp only
    | fail_if_no_progress (with_reducible apply Kept.parts))

theorem readIdent_kept (ident : Option (List Byte)) {z0 s : State} (hk : Kept z0 s) : Kept z0 (readIdent ident s) := by
  unfold readIdent
  repeat' (first
    | with_reducible assumption
    | with_reducible apply takeIdent_kept
    | with_reducible apply packSend_kept
    | with_reducible apply Kept.ite
    | with_reducible apply Kept.foldl
    | with_reducible apply Kept.foldl_fst
    | intro _ _ _ _
    | intro _ _ _
    | intro _
    | (extract_lets +onlyGivenNames x; refine Kept.cut (t := x) ?_ ?_; (on_goal 1 => subst x); (on_goal 2 => (clear_value x; intro _)))
    | (extract_lets +onlyGivenNames x; clear_value x)
    | split
    | dsimp only
    | fail_if_no_progress (with_reducible apply Kept.parts))

theorem authAttempt_kept (ident : Option (List Byte)) (nonce : Nat) {z0 s : State} (hk : Kept z0 s) : Kept z0 (authAttempt ident nonce s) := by
  unfold authAttempt
  repeat' (first
    | with_reducible assumption
    | with_reducible apply readIdent_kept
    | with_reducible apply authFail_kept
    | with_reducible apply packSend_kept
    | with_reducible apply updBem_kept
    | with_reducible apply Kept.ite
    | with_reducible apply Kept.foldl
    | with_reducible apply Kept.foldl_fst
    | intro _ _ _ _
    | intro _ _ _
    | intro _
    | (extract_lets +onlyGivenNames x; refine Kept.cut (t := x) ?_ ?_; (on_goal 1 => subst x); (on_goal 2 => (clear_value x; intro _)))
    | (extract_lets +onlyGivenNames x; clear_value x)
    | split
    | dsimp only
    | fail_if_no_progress (with_reducible apply Kept.parts))

theorem authStart_kept (ident : Option (List Byte)) (nonce : Nat) {z0 s : State} (hk : Kept z0 s) : Kept z0 (authStart ident nonce s) := by
  unfold authStart
  repeat' (first
    | with_reducible assumption
    | with_reducible apply boundUpdate_kept
    | with_reducible apply authAttempt_kept
    | with_reducible apply setFld_kept
    | with_reducible apply updBem_kept
    | with_reducible apply authEnd_kept
    | with_reducible apply readIdent_kept
    | with_reducible apply Kept.ite
    | with_reducible apply Kept.foldl
    | with_reducible apply Kept.foldl_fst
    | intro _ _ _ _
    | intro _ _ _
    | intro _
    | (extract_lets +onlyGivenNames x; refine Kept.cut (t := x) ?_ ?_; (on_goal 1 => subst x); (on_goal 2 => (clear_value x; intro _)))
    | (extract_lets +onlyGivenNames x; clear_value x)
    | split
    | dsimp only
    | fail_if_no_progress (with_reducible apply Kept.parts))

theorem authSwitch_kept (before : State) {z0 s : State} (hk : Kept z0 s) : Kept z0 (authSwitch before s) := by
  unfold authSwitch
  exact Kept.ite hk (authEnd_kept _ hk)

theorem authStartup_kept (nonce : Nat) {z0 s : State} (hk : Kept z0 s) : Kept z0 (authStartup nonce s) := by
  unfold authStartup
  repeat' (first
    | with_reducible assumption
    | with_reducible apply authStart_kept
    | with_reducible apply Kept.ite
    | with_reducible apply Kept.foldl
    | with_reducible apply Kept.foldl_fst
    | intro _ _ _ _
    | intro _ _ _
    | intro _
    | (extract_lets +onlyGivenNames x; refine Kept.cut (t := x) ?_ ?_; (on_goal 1 => subst x); (on_goal 2 => (clear_value x; intro _)))
    | (extract_lets +onlyGivenNames x; clear_value x)
    | split
    | dsimp only
    | fail_if_no_progress (with_reducible apply Kept.parts))

theorem bemEnd_kept (st : Status) {z0 s : State} (hk : Kept z0 s) : Kept z0 (bemEnd st s) := by
  unfold bemEnd
  repeat' (first
    | with_reducible assumption
    | with_reducible apply cmdEnd_kept)

theorem learnCmd_kept  {z0 s : State} (hk : Kept z0 s) : Kept z0 (learnCmd  s) := by
  unfold learnCmd
  repeat' (first
    | with_reducible assumption
    | with_reducible apply bemEnd_kept
    | with_reducible apply learnStart_kept
    | with_reducible apply Kept.ite
    | with_reducible apply Kept.foldl
    | with_reducible apply Kept.foldl_fst
    | intro _ _ _ _
    | intro _ _ _
    | intro _
    | (extract_lets +onlyGivenNames x; refine Kept.cut (t := x) ?_ ?_; (on_goal 1 => subst x); (on_goal 2 => (clear_value x; intro _)))
    | (extract_lets +onlyGivenNames x; clear_value x)
    | split
    | dsimp only
    | fail_if_no_progress (with_reducible apply Kept.parts))

theorem abortLearnCmd_kept  {z0 s : State} (hk : Kept z0 s) : Kept z0 (abortLearnCmd  s) := by
  unfold abortLearnCmd
  repeat' (first
    | with_reducible assumption
    | with_reducible apply bemEnd_kept
    | with_reducible apply learnDq_kept
    | with_reducible apply Kept.ite
    | with_reducible apply Kept.foldl
    | with_reducible apply Kept.foldl_fst
    | intro _ _ _ _
    | intro _ _ _
    | intro _
    | (extract_lets +onlyGivenNames x; refine Kept.cut (t := x) ?_ ?_; (on_goal 1 => subst x); (on_goal 2 => (clear_value x; intro _)))
    | (extract_lets +onlyGivenNames x; clear_value x)
    | split
    | dsimp only
    | fail_if_no_progress (with_reducible apply Kept.parts))

theorem forgetCmd_kept  {z0 s : State} (hk : Kept z0 s) : Kept z0 (forgetCmd  s) := by
  unfold forgetCmd
  repeat' (first
    | with_reducible assumption
    | with_reducible apply boundUpdate_kept
    | with_reducible apply bemEnd_kept
    | with_reducible apply newPack_kept
    | with_reducible apply Kept.ite
    | with_reducible apply Kept.foldl
    | with_reducible apply Kept.foldl_fst
    | intro _ _ _ _
    | intro _ _ _
    | intro _
    | (extract_lets +onlyGivenNames x; refine Kept.cut (t := x) ?_ ?_; (on_goal 1 => subst x); (on_goal 2 => (clear_value x; intro _)))
    | (extract_lets +onlyGivenNames x; clear_value x)
    | split
    | dsimp only
    | fail_if_no_progress (with_reducible apply Kept.parts))

theorem bemHeld_kept (op : Nat) {z0 s : State} (hk : Kept z0 s) : Kept z0 (bemHeld op s) := by
  unfold bemHeld
  repeat' (first
    | with_reducible assumption
    | with_reducible apply cmdStart_kept
    | with_reducible apply learnCmd_kept
    | with_reducible apply abortLearnCmd_kept
    | with_reducible apply forgetCmd_kept
    | with_reducible apply Kept.ite
    | with_reducible apply Kept.foldl
    | with_reducible apply Kept.foldl_fst
    | intro _ _ _ _
    | intro _ _ _
    | intro _
    | (extract_lets +onlyGivenNames x; refine Kept.cut (t := x) ?_ ?_; (on_goal 1 => subst x); (on_goal 2 => (clear_value x; intro _)))
    | (extract_lets +onlyGivenNames x; clear_value x)
    | split
    | dsimp only
    | fail_if_no_progress (with_reducible apply Kept.parts))

theorem bemCmd_kept (w : Win) (op : Nat) (act : State → State) {z0 s : State} (h_act : ∀ r t, Kept r t → Kept r (act t)) (hk : Kept z0 s) : Kept z0 (bemCmd w op act s) := by
  unfold bemCmd
  repeat' (first
    | with_reducible assumption
    | with_reducible apply h_act
    | with_reducible apply cmdWrite_kept
    | with_reducible apply bemHeld_kept
    | with_reducible apply Kept.ite
    | with_reducible apply Kept.foldl
    | with_reducible apply Kept.foldl_fst
    | intro _ _ _ _
    | intro _ _ _
    | intro _
    | (extract_lets +onlyGivenNames x; refine Kept.cut (t := x) ?_ ?_; (on_goal 1 => subst x); (on_goal 2 => (clear_value x; intro _)))
    | (extract_lets +onlyGivenNames x; clear_value x)
    | split
    | dsimp only
    | fail_if_no_progress (with_reducible apply Kept.parts))

theorem bemFence_kept  {z0 s : State} (hk : Kept z0 s) : Kept z0 (bemFence  s) := by
  unfold bemFence
  repeat' (first
    | with_reducible assumption
    | with_reducible apply setFld_kept
    | with_reducible apply boundUpdate_kept
    | with_reducible apply learnDq_kept
    | with_reducible apply Kept.ite
    | with_reducible apply Kept.foldl
    | with_reducible apply Kept.foldl_fst
    | intro _ _ _ _
    | intro _ _ _
    | intro _
    | (extract_lets +onlyGivenNames x; refine Kept.cut (t := x) ?_ ?_; (on_goal 1 => subst x); (on_goal 2 => (clear_value x; intro _)))
    | (extract_lets +onlyGivenNames x; clear_value x)
    | split
    | dsimp only
    | fail_if_no_progress (with_reducible apply Kept.parts))

end Sys2Proof.Machine
end

