-- ==== Sys2Proof/Laws/KeptTenants.lean ====
section
/-! SUPPORT. What the operations of Machine/Tenants.lean keep. -/

namespace Sys2Proof.Machine

theorem roundCredit_kept (lenNs : Nat) {z0 s : State} (hk : Kept z0 s) : Kept z0 (roundCredit lenNs s) := by
  unfold roundCredit
  repeat' (first
    | with_reducible assumption
    | with_reducible apply updCtx_kept
    | with_reducible apply setCredit_kept
    | with_reducible apply setFld_kept
    | with_reducible apply Kept.ite
    | with_reducible apply Kept.foldl
    | with_reducible apply Kept.foldl_fst
    | intro _ _ _ _
    | intro _ _ _
    | intro _
    | (extract_lets +onlyGivenNames x; refine Kept.cut (t := x) ?_ ?_; (on_goal 1 => subst x); (on_goal 2 => (clear_value x; intro _)))
    | (extract_lets +onlyGivenNames x; clear_value x)
    | split
    | dsimp only
    | fail_if_no_progress (with_reducible apply Kept.parts))

theorem roundTurn_kept (late : Nat) {z0 s : State} (hk : Kept z0 s) : Kept z0 (roundTurn late s) := by
  unfold roundTurn
  repeat' (first
    | with_reducible assumption
    | with_reducible apply incFld_kept
    | with_reducible apply onlyIf_kept
    | with_reducible apply hwmFld_kept
    | with_reducible apply setEvt_kept
    | with_reducible apply setFld_kept
    | with_reducible apply add64_kept
    | with_reducible apply roundCredit_kept
    | with_reducible apply Kept.ite
    | with_reducible apply Kept.foldl
    | with_reducible apply Kept.foldl_fst
    | intro _ _ _ _
    | intro _ _ _
    | intro _
    | (extract_lets +onlyGivenNames x; refine Kept.cut (t := x) ?_ ?_; (on_goal 1 => subst x); (on_goal 2 => (clear_value x; intro _)))
    | (extract_lets +onlyGivenNames x; clear_value x)
    | split
    | dsimp only
    | fail_if_no_progress (with_reducible apply Kept.parts))

theorem roundEnd_kept (late : Nat) {z0 s : State} (hk : Kept z0 s) : Kept z0 (roundEnd late s) := by
  unfold roundEnd
  repeat' (first
    | with_reducible assumption
    | with_reducible apply onlyIf_kept
    | with_reducible apply roundTurn_kept
    | with_reducible apply Kept.ite
    | with_reducible apply Kept.foldl
    | with_reducible apply Kept.foldl_fst
    | intro _ _ _ _
    | intro _ _ _
    | intro _
    | (extract_lets +onlyGivenNames x; refine Kept.cut (t := x) ?_ ?_; (on_goal 1 => subst x); (on_goal 2 => (clear_value x; intro _)))
    | (extract_lets +onlyGivenNames x; clear_value x)
    | split
    | dsimp only
    | fail_if_no_progress (with_reducible apply Kept.parts))

theorem slotSeconds_kept  {z0 s : State} (hk : Kept z0 s) : Kept z0 (slotSeconds s) := by
  unfold slotSeconds
  repeat' (first
    | with_reducible assumption
    | with_reducible apply add64_kept
    | with_reducible apply Kept.ite
    | with_reducible apply Kept.foldl
    | intro _ _ _ _
    | intro _ _ _)

theorem setMtrOff_kept (v : Int) {z0 s : State} (hk : Kept z0 s) : Kept z0 (setMtrOff v s) := by
  unfold setMtrOff
  repeat' (first
    | with_reducible assumption
    | with_reducible apply set64_kept)

theorem slewStop_kept {z0 s : State} (hk : Kept z0 s) : Kept z0 (slewStop s) := by
  unfold slewStop
  exact setMtrOff_kept _ (Kept.parts hk)

theorem mtrOne_kept (c : Nat) (final : Bool) {z0 s : State} (hk : Kept z0 s) : Kept z0 (mtrOne c final s) := by
  unfold mtrOne
  repeat' (first
    | with_reducible assumption
    | with_reducible apply onlyIf_kept
    | with_reducible apply setFld_kept
    | with_reducible apply setEvt_kept
    | with_reducible apply incFld_kept
    | with_reducible apply hostWrite_kept
    | with_reducible apply Kept.ite
    | with_reducible apply Kept.foldl
    | with_reducible apply Kept.foldl_fst
    | intro _ _ _ _
    | intro _ _ _
    | intro _
    | (extract_lets +onlyGivenNames x; refine Kept.cut (t := x) ?_ ?_; (on_goal 1 => subst x); (on_goal 2 => (clear_value x; intro _)))
    | (extract_lets +onlyGivenNames x; clear_value x)
    | split
    | dsimp only
    | fail_if_no_progress (with_reducible apply Kept.parts))

theorem mtrRecords_kept  {z0 s : State} (hk : Kept z0 s) : Kept z0 (mtrRecords  s) := by
  unfold mtrRecords
  repeat' (first
    | with_reducible assumption
    | with_reducible apply mtrOne_kept
    | with_reducible apply setEvt_kept
    | with_reducible apply Kept.ite
    | with_reducible apply Kept.foldl
    | with_reducible apply Kept.foldl_fst
    | intro _ _ _ _
    | intro _ _ _
    | intro _
    | (extract_lets +onlyGivenNames x; refine Kept.cut (t := x) ?_ ?_; (on_goal 1 => subst x); (on_goal 2 => (clear_value x; intro _)))
    | (extract_lets +onlyGivenNames x; clear_value x)
    | split
    | dsimp only
    | fail_if_no_progress (with_reducible apply Kept.parts))

theorem epochEnd_kept  {z0 s : State} (hk : Kept z0 s) : Kept z0 (epochEnd  s) := by
  unfold epochEnd
  repeat' (first
    | with_reducible assumption
    | with_reducible apply onlyIf_kept
    | with_reducible apply mtrRecords_kept
    | with_reducible apply updCtx_kept
    | with_reducible apply Kept.ite
    | with_reducible apply Kept.foldl
    | with_reducible apply Kept.foldl_fst
    | intro _ _ _ _
    | intro _ _ _
    | intro _
    | (extract_lets +onlyGivenNames x; refine Kept.cut (t := x) ?_ ?_; (on_goal 1 => subst x); (on_goal 2 => (clear_value x; intro _)))
    | (extract_lets +onlyGivenNames x; clear_value x)
    | split
    | dsimp only
    | fail_if_no_progress (with_reducible apply Kept.parts))

theorem mtrStep_kept (v : Int) {z0 s : State} (hk : Kept z0 s) : Kept z0 (mtrStep v s) := by
  unfold mtrStep
  repeat' (first
    | with_reducible assumption
    | with_reducible apply setFld_kept
    | with_reducible apply setEvt_kept
    | with_reducible apply setMtrOff_kept
    | with_reducible apply epochEnd_kept
    | with_reducible apply Kept.ite
    | with_reducible apply Kept.foldl
    | intro _ _ _ _
    | intro _ _ _
    | intro _
    | (extract_lets +onlyGivenNames x; clear_value x)
    | split
    | dsimp only
    | fail_if_no_progress (with_reducible apply Kept.parts))

theorem mtrSlew_kept (v : Int) {z0 s : State} (hk : Kept z0 s) : Kept z0 (mtrSlew v s) := by
  unfold mtrSlew
  repeat' (first
    | with_reducible assumption
    | with_reducible apply setEvt_kept
    | with_reducible apply onlyIf_kept
    | with_reducible apply setMtrOff_kept
    | with_reducible apply Kept.ite
    | with_reducible apply Kept.foldl
    | intro _ _ _ _
    | intro _ _ _
    | intro _
    | (extract_lets +onlyGivenNames x; clear_value x)
    | split
    | dsimp only
    | fail_if_no_progress (with_reducible apply Kept.parts))

theorem slewDone_kept  {z0 s : State} (hk : Kept z0 s) : Kept z0 (slewDone s) := by
  unfold slewDone
  repeat' (first
    | with_reducible assumption
    | with_reducible apply setFld_kept
    | with_reducible apply setEvt_kept
    | with_reducible apply setMtrOff_kept
    | with_reducible apply Kept.ite
    | with_reducible apply Kept.foldl
    | intro _ _ _ _
    | intro _ _ _
    | intro _
    | (extract_lets +onlyGivenNames x; clear_value x)
    | split
    | dsimp only
    | fail_if_no_progress (with_reducible apply Kept.parts))

theorem hostAdjust_kept (f : State → State) {z0 s : State} (h_f : ∀ r t, Kept r t → Kept r (f t)) (hk : Kept z0 s) : Kept z0 (hostAdjust f s) := by
  unfold hostAdjust
  repeat' (first
    | with_reducible assumption
    | with_reducible apply h_f
    | with_reducible apply Kept.ite)

theorem mtrWrite_kept (w : Win) (f : State → State) {z0 s : State} (h_f : ∀ r t, Kept r t → Kept r (f t)) (hk : Kept z0 s) : Kept z0 (mtrWrite w f s) := by
  unfold mtrWrite
  repeat' (first
    | with_reducible assumption
    | with_reducible apply h_f
    | with_reducible apply guardWrite_kept
    | with_reducible apply seqFlds_kept
    | with_reducible apply Kept.ite
    | with_reducible apply Kept.foldl
    | with_reducible apply Kept.foldl_fst
    | intro _ _ _ _
    | intro _ _ _
    | intro _
    | (extract_lets +onlyGivenNames x; refine Kept.cut (t := x) ?_ ?_; (on_goal 1 => subst x); (on_goal 2 => (clear_value x; intro _)))
    | (extract_lets +onlyGivenNames x; clear_value x)
    | split
    | dsimp only
    | fail_if_no_progress (with_reducible apply Kept.parts))

theorem mtrEnable_kept (v : Nat) {z0 s : State} (hk : Kept z0 s) : Kept z0 (mtrEnable v s) := by
  unfold mtrEnable
  repeat' (first
    | with_reducible assumption
    | with_reducible apply setFld_kept
    | with_reducible apply Kept.ite
    | with_reducible apply Kept.foldl
    | intro _ _ _ _
    | intro _ _ _
    | intro _
    | (extract_lets +onlyGivenNames x; clear_value x)
    | split
    | dsimp only
    | fail_if_no_progress (with_reducible apply Kept.parts))

theorem mtrHead_kept (v : Nat) {z0 s : State} (hk : Kept z0 s) : Kept z0 (mtrHead v s) := by
  unfold mtrHead
  repeat' (first
    | with_reducible assumption
    | with_reducible apply setFld_kept
    | with_reducible apply Kept.ite)

theorem adminDo_kept (n op : Nat) (f : Cmd → State → State) {z0 s : State} (h_f : ∀ x r t, Kept r t → Kept r (f x t)) (hk : Kept z0 s) : Kept z0 (adminDo n op f s) := by
  unfold adminDo
  repeat' (first
    | with_reducible assumption
    | with_reducible apply h_f
    | with_reducible apply Kept.ite
    | with_reducible apply Kept.foldl
    | intro _ _ _ _
    | intro _ _ _
    | intro _
    | split)

theorem adminPage_kept (x : Cmd) (n : Nat) (r : HostRd) (f : State → State) {z0 s : State} (h_f : ∀ r t, Kept r t → Kept r (f t)) (hk : Kept z0 s) : Kept z0 (adminPage x n r f s) := by
  unfold adminPage
  repeat' (first
    | with_reducible assumption
    | with_reducible apply h_f
    | with_reducible apply readNow_kept
    | with_reducible apply Kept.ite
    | with_reducible apply Kept.foldl
    | with_reducible apply Kept.foldl_fst
    | intro _ _ _ _
    | intro _ _ _
    | intro _
    | (extract_lets +onlyGivenNames x; refine Kept.cut (t := x) ?_ ?_; (on_goal 1 => subst x); (on_goal 2 => (clear_value x; intro _)))
    | (extract_lets +onlyGivenNames x; clear_value x)
    | split
    | dsimp only
    | fail_if_no_progress (with_reducible apply Kept.parts))

theorem adminOut_kept (x : Cmd) (bytes : List Byte) {z0 s : State} (hk : Kept z0 s) : Kept z0 (adminOut x bytes s) := by
  unfold adminOut
  repeat' (first
    | with_reducible assumption
    | with_reducible apply hostWrite_kept)

theorem adminOk_kept (n : Nat) (x : Cmd) (result : Nat) {z0 s : State} (hk : Kept z0 s) : Kept z0 (adminOk n x result s) := by
  unfold adminOk
  repeat' (first
    | with_reducible assumption
    | with_reducible apply onlyIf_kept
    | with_reducible apply endCmd_kept
    | with_reducible apply roleAction_kept)

theorem tenantInfo_kept (n : Nat) (x : Cmd) {z0 s : State} (hk : Kept z0 s) : Kept z0 (tenantInfo n x s) := by
  unfold tenantInfo
  repeat' (first
    | with_reducible assumption
    | with_reducible apply endCmd_kept
    | with_reducible apply adminOut_kept
    | with_reducible apply adminOk_kept
    | with_reducible apply Kept.ite)

theorem setSched_kept (n : Nat) (x : Cmd) {z0 s : State} (hk : Kept z0 s) : Kept z0 (setSched n x s) := by
  unfold setSched
  repeat' (first
    | with_reducible assumption
    | with_reducible apply endCmd_kept
    | with_reducible apply setFld_kept
    | with_reducible apply adminOk_kept
    | with_reducible apply cfgGood_kept
    | with_reducible apply seqIf_kept
    | with_reducible apply Kept.ite
    | with_reducible apply Kept.foldl
    | with_reducible apply Kept.foldl_fst
    | intro _ _ _ _
    | intro _ _ _
    | intro _
    | (extract_lets +onlyGivenNames x; refine Kept.cut (t := x) ?_ ?_; (on_goal 1 => subst x); (on_goal 2 => (clear_value x; intro _)))
    | (extract_lets +onlyGivenNames x; clear_value x)
    | split
    | dsimp only
    | fail_if_no_progress (with_reducible apply Kept.parts))

theorem setClass_kept (n : Nat) (x : Cmd) {z0 s : State} (hk : Kept z0 s) : Kept z0 (setClass n x s) := by
  unfold setClass
  repeat' (first
    | with_reducible assumption
    | with_reducible apply setFld_kept
    | with_reducible apply seqIf_kept
    | with_reducible apply adminOk_kept)

theorem timeAdj_kept (n : Nat) (x : Cmd) {z0 s : State} (hk : Kept z0 s) : Kept z0 (timeAdj n x s) := by
  unfold timeAdj
  repeat' (first
    | with_reducible assumption
    | with_reducible apply endCmd_kept
    | with_reducible apply mtrStep_kept
    | with_reducible apply mtrSlew_kept
    | with_reducible apply adminOk_kept
    | with_reducible apply Kept.ite)

end Sys2Proof.Machine
end

