-- ==== Sys2Proof/Laws/KeptEvr.lean ====
section
/-! SUPPORT. What the operations of Machine/Evr.lean keep. -/

namespace Sys2Proof.Machine

theorem showStore_kept  {z0 s : State} (hk : Kept z0 s) : Kept z0 (showStore s) := by
  unfold showStore
  repeat' (first
    | with_reducible assumption
    | with_reducible apply setFld_kept)

theorem retirePage_kept (p : Nat) {z0 s : State} (hk : Kept z0 s) : Kept z0 (retirePage p s) := by
  unfold retirePage
  repeat' (first
    | with_reducible assumption
    | with_reducible apply setEvt_kept
    | with_reducible apply updFlash_kept
    | with_reducible apply showStore_kept)

theorem recPut_kept (o : Occ) (ok : Bool) (again : State → State) {z0 s : State} (h_again : ∀ r t, Kept r t → Kept r (again t)) (hk : Kept z0 s) : Kept z0 (recPut o ok again s) := by
  unfold recPut
  repeat' (first
    | with_reducible assumption
    | with_reducible apply h_again
    | with_reducible apply incFld_kept
    | with_reducible apply decFld_kept
    | with_reducible apply setEvt_kept
    | with_reducible apply flashPut_kept
    | with_reducible apply flashErase_kept
    | with_reducible apply showStore_kept
    | with_reducible apply retirePage_kept
    | with_reducible apply Kept.ite
    | with_reducible apply Kept.foldl
    | intro _ _ _ _
    | intro _ _ _
    | intro _
    | (extract_lets +onlyGivenNames x; clear_value x)
    | split)

theorem recWrite_kept (fuel : Nat) (o : Occ) (b : Bool) {z0 s : State} (h : Kept z0 s) : Kept z0 (recWrite fuel o b s) := by
  induction fuel generalizing o b z0 s with
  | zero => unfold recWrite; exact h
  | succ fuel ih =>
    unfold recWrite
    repeat' (first
      | with_reducible assumption
      | with_reducible apply ih
      | with_reducible apply recPut_kept)

theorem writeDue_kept (ok : Bool) {z0 s : State} (hk : Kept z0 s) : Kept z0 (writeDue ok s) := by
  unfold writeDue
  repeat' (first
    | with_reducible assumption
    | with_reducible apply updEvr_kept
    | with_reducible apply recWrite_kept
    | with_reducible apply Kept.ite
    | with_reducible apply Kept.foldl
    | intro _ _ _ _
    | intro _ _ _
    | intro _
    | split)

theorem releaseHeld_kept (code : Nat) {z0 s : State} (hk : Kept z0 s) : Kept z0 (releaseHeld code s) := by
  unfold releaseHeld
  repeat' (first
    | with_reducible assumption
    | with_reducible apply updEvr_kept
    | with_reducible apply showHeld_kept
    | with_reducible apply dueOcc_kept
    | with_reducible apply Kept.ite
    | with_reducible apply Kept.foldl
    | intro _ _ _ _
    | intro _ _ _
    | intro _
    | split)

theorem flushHeld_kept  {z0 s : State} (hk : Kept z0 s) : Kept z0 (flushHeld s) := by
  unfold flushHeld
  repeat' (first
    | with_reducible assumption
    | with_reducible apply writeDue_kept
    | with_reducible apply releaseHeld_kept
    | with_reducible apply Kept.ite
    | with_reducible apply Kept.foldl
    | intro _ _ _ _
    | intro _ _ _)

theorem snapshotRecs_kept  {z0 s : State} (hk : Kept z0 s) : Kept z0 (snapshotRecs s) := by
  unfold snapshotRecs
  repeat' (first
    | with_reducible assumption
    | with_reducible apply occur_kept
    | with_reducible apply Kept.ite
    | with_reducible apply Kept.foldl
    | intro _ _ _ _
    | intro _ _ _)

theorem resumeMeasures_kept  {z0 s : State} (hk : Kept z0 s) : Kept z0 (resumeMeasures s) := by
  unfold resumeMeasures
  repeat' (first
    | with_reducible assumption
    | with_reducible apply setFld_kept
    | with_reducible apply updEvr_kept
    | with_reducible apply showStore_kept)

theorem evrEnd_kept (st : Status) {z0 s : State} (hk : Kept z0 s) : Kept z0 (evrEnd st s) := by
  unfold evrEnd
  repeat' (first
    | with_reducible assumption
    | with_reducible apply cmdEnd_kept)

theorem snapshotCmd_kept  {z0 s : State} (hk : Kept z0 s) : Kept z0 (snapshotCmd  s) := by
  unfold snapshotCmd
  repeat' (first
    | with_reducible assumption
    | with_reducible apply evrEnd_kept
    | with_reducible apply snapshotRecs_kept
    | with_reducible apply Kept.ite
    | with_reducible apply Kept.foldl
    | with_reducible apply Kept.foldl_fst
    | intro _ _ _ _
    | intro _ _ _
    | intro _
    | (extract_lets +onlyGivenNames x; refine Kept.cut (t := x) ?_ ?_; (on_goal 1 => subst x); (on_goal 2 => (clear_value x; intro _)))
    | (extract_lets +onlyGivenNames x; clear_value x)
    | split
    | dsimp only
    | fail_if_no_progress (with_reducible apply Kept.parts))

theorem eraseAll_kept  {z0 s : State} (hk : Kept z0 s) : Kept z0 (eraseAll s) := by
  unfold eraseAll
  repeat' (first
    | with_reducible assumption
    | with_reducible apply updFlash_kept
    | with_reducible apply showStore_kept)

theorem eraseAllCmd_kept  {z0 s : State} (hk : Kept z0 s) : Kept z0 (eraseAllCmd  s) := by
  unfold eraseAllCmd
  repeat' (first
    | with_reducible assumption
    | with_reducible apply evrEnd_kept
    | with_reducible apply eraseAll_kept
    | with_reducible apply Kept.ite
    | with_reducible apply Kept.foldl
    | with_reducible apply Kept.foldl_fst
    | intro _ _ _ _
    | intro _ _ _
    | intro _
    | (extract_lets +onlyGivenNames x; refine Kept.cut (t := x) ?_ ?_; (on_goal 1 => subst x); (on_goal 2 => (clear_value x; intro _)))
    | (extract_lets +onlyGivenNames x; clear_value x)
    | split
    | dsimp only
    | fail_if_no_progress (with_reducible apply Kept.parts))

theorem evrCmd_kept (w : Win) (op : Nat) (act : State → State) {z0 s : State} (h_act : ∀ r t, Kept r t → Kept r (act t)) (hk : Kept z0 s) : Kept z0 (evrCmd w op act s) := by
  unfold evrCmd
  repeat' (first
    | with_reducible assumption
    | with_reducible apply h_act
    | with_reducible apply cmdWrite_kept
    | with_reducible apply cmdStart_kept
    | with_reducible apply snapshotCmd_kept
    | with_reducible apply eraseAllCmd_kept
    | with_reducible apply Kept.ite
    | with_reducible apply Kept.foldl
    | with_reducible apply Kept.foldl_fst
    | intro _ _ _ _
    | intro _ _ _
    | intro _
    | (extract_lets +onlyGivenNames x; refine Kept.cut (t := x) ?_ ?_; (on_goal 1 => subst x); (on_goal 2 => (clear_value x; intro _)))
    | (extract_lets +onlyGivenNames x; clear_value x)
    | split
    | dsimp only
    | fail_if_no_progress (with_reducible apply Kept.parts))

end Sys2Proof.Machine
end

