-- ==== Sys2Proof/Laws/KeptRoles.lean ====
section
/-! SUPPORT. What the operations of Machine/Roles.lean keep. -/

namespace Sys2Proof.Machine

theorem updRole_kept (f : RoleSt → RoleSt) {z0 s : State} (hf : RoleKept s.role (f s.role)) (hk : Kept z0 s) : Kept z0 (updRole f s) :=
  Kept.roled hf hk

theorem showSessions_kept  {z0 s : State} (hk : Kept z0 s) : Kept z0 (showSessions s) := by
  unfold showSessions
  repeat' (first
    | with_reducible assumption
    | with_reducible apply setFlag_kept
    | with_reducible apply Kept.ite
    | with_reducible apply Kept.foldl
    | intro _ _ _ _
    | intro _ _ _)

theorem dropNonce_kept (port : Nat) {z0 s : State} (hk : Kept z0 s) : Kept z0 (dropNonce port s) := by
  unfold dropNonce
  repeat' (first
    | with_reducible assumption
    | exact ⟨rfl, le_refl _, fun _ _ h => h⟩
    | with_reducible apply setFld_kept
    | with_reducible apply updRole_kept)

theorem sessionEnd_kept (port act : Nat) {z0 s : State} (hk : Kept z0 s) : Kept z0 (sessionEnd port act s) := by
  unfold sessionEnd
  repeat' (first
    | with_reducible assumption
    | with_reducible apply setFld_kept
    | with_reducible apply setEvt_kept
    | with_reducible apply roleAction_kept
    | with_reducible apply showSessions_kept
    | with_reducible apply Kept.ite)

theorem challenge_kept (n nonce : Nat) (x : Cmd) {z0 s : State} (hk : Kept z0 s) : Kept z0 (challenge n nonce x s) := by
  unfold challenge
  repeat' (first
    | with_reducible assumption
    | exact ⟨rfl, le_refl _, fun _ _ h => h⟩
    | with_reducible apply setFld_kept
    | with_reducible apply endCmd_kept
    | with_reducible apply adminOut_kept
    | with_reducible apply adminOk_kept
    | with_reducible apply updRole_kept
    | with_reducible apply Kept.ite)

theorem response_kept (n : Nat) (page : HostRd) (x : Cmd) {z0 s : State} (hk : Kept z0 s) : Kept z0 (response n page x s) := by
  unfold response
  repeat' (first
    | with_reducible assumption
    | with_reducible apply setFld_kept
    | with_reducible apply setEvt_kept
    | with_reducible apply endCmd_kept
    | with_reducible apply roleAction_kept
    | with_reducible apply needRole_kept
    | with_reducible apply adminOk_kept
    | with_reducible apply showSessions_kept
    | with_reducible apply dropNonce_kept
    | with_reducible apply Kept.ite
    | with_reducible apply Kept.foldl
    | intro _ _ _ _
    | intro _ _ _
    | intro _
    | (extract_lets +onlyGivenNames x; refine Kept.cut (t := x) ?_ ?_; (on_goal 1 => subst x); (on_goal 2 => (clear_value x; intro _)))
    | (extract_lets +onlyGivenNames x; clear_value x)
    | split)

theorem showKeys_kept  {z0 s : State} (hk : Kept z0 s) : Kept z0 (showKeys s) := by
  unfold showKeys
  repeat' (first
    | with_reducible assumption
    | with_reducible apply setFld_kept)

theorem keyEnd_kept (st : Status) {z0 s : State} (hk : Kept z0 s) : Kept z0 (keyEnd st s) := by
  unfold keyEnd
  repeat' (first
    | with_reducible assumption
    | with_reducible apply cmdEnd_kept)

theorem keyProgram_kept (w : Win) (ok : Bool) {z0 s : State} (hk : Kept z0 s) : Kept z0 (keyProgram w ok s) := by
  unfold keyProgram
  extract_lets k may clr s1
  have hc : ∀ {t}, Kept z0 t → Kept z0 (clr t) := fun h => Kept.foldl (fun _ _ h => setFld_kept _ _ h) h
  refine Kept.ite (keyEnd_kept _ hk) ?_
  split
  · exact keyEnd_kept _ hk
  next hn =>
    refine Kept.ite (keyEnd_kept _ (hc hk)) (keyEnd_kept _ (showKeys_kept (setEvt_kept _ _ (roleAction_kept _ _ _ (hc (updRole_kept _ ?_ hk))))))
    refine ⟨rfl, le_refl _, fun n v e => ?_⟩
    by_cases c : n = k
    · subst c; simp [e] at hn
    · simpa [smGet_smSet_ne _ c] using e

theorem showFw_kept  {z0 s : State} (hk : Kept z0 s) : Kept z0 (showFw s) := by
  unfold showFw
  repeat' (first
    | with_reducible assumption
    | with_reducible apply setFld_kept
    | with_reducible apply setFlag_kept)

theorem fwBoot_kept {z0 s t : State} (hk : Kept z0 s) (h : fwBoot s = some t) : Kept z0 t := by
  unfold fwBoot at h
  obtain ⟨slot, -, rfl⟩ := Option.map_eq_some_iff.1 h
  exact Kept.ite (showKeys_kept (updRole_kept _ ⟨rfl, le_max_left _ _, fun _ _ h => h⟩ (setFld_kept _ _ (setFld_kept _ _ (showFw_kept hk))))) (setFld_kept _ _ (setFld_kept _ _ (showFw_kept hk)))

theorem fwStage_kept (n : Nat) (page : HostRd) (x : Cmd) {z0 s : State} (hk : Kept z0 s) : Kept z0 (fwStage n page x s) := by
  unfold fwStage
  repeat' (first
    | with_reducible assumption
    | with_reducible apply endCmd_kept
    | with_reducible apply flashPut_kept
    | with_reducible apply adminOk_kept
    | with_reducible apply showFw_kept
    | with_reducible apply Kept.ite
    | with_reducible apply Kept.foldl
    | intro _ _ _ _
    | intro _ _ _
    | intro _
    | (extract_lets +onlyGivenNames x; clear_value x)
    | split)

theorem fwCommit_kept (n : Nat) (x : Cmd) {z0 s : State} (hk : Kept z0 s) : Kept z0 (fwCommit n x s) := by
  unfold fwCommit
  repeat' (first
    | with_reducible assumption
    | with_reducible apply endCmd_kept
    | with_reducible apply roleAction_kept
    | with_reducible apply flashPut_kept
    | with_reducible apply adminOk_kept
    | with_reducible apply showFw_kept
    | with_reducible apply Kept.ite)

end Sys2Proof.Machine
end

