-- ==== Sys2Proof/Laws/KeptReset.lean ====
section
/-! SUPPORT. What the operations of Machine/Reset.lean keep. -/

namespace Sys2Proof.Machine

theorem counterWrite_kept  {z0 s : State} (hk : Kept z0 s) : Kept z0 (counterWrite s) := by
  unfold counterWrite
  repeat' (first
    | with_reducible assumption
    | with_reducible apply flashPut_kept
    | with_reducible apply Kept.ite
    | with_reducible apply Kept.foldl
    | intro _ _ _ _
    | intro _ _ _
    | intro _
    | (extract_lets +onlyGivenNames x; clear_value x)
    | split
    | dsimp only
    | fail_if_no_progress (with_reducible apply Kept.parts))

theorem counterLoad_kept  {z0 s : State} (hk : Kept z0 s) : Kept z0 (counterLoad s) := by
  unfold counterLoad
  repeat' (first
    | with_reducible assumption
    | with_reducible apply setFld_kept
    | with_reducible apply Kept.ite
    | with_reducible apply Kept.foldl
    | intro _ _ _ _
    | intro _ _ _
    | intro _
    | (extract_lets +onlyGivenNames x; clear_value x)
    | split
    | dsimp only
    | fail_if_no_progress (with_reducible apply Kept.parts))

theorem setPower_kept (st : Nat) {z0 s : State} (hk : Kept z0 s) : Kept z0 (setPower st s) := by
  unfold setPower
  repeat' (first
    | with_reducible assumption
    | with_reducible apply setFld_kept
    | with_reducible apply setEvt_kept
    | with_reducible apply bemFollow_kept
    | with_reducible apply Kept.ite)

theorem resetState_kept (code : Nat) {z0 s : State} (hk : Kept z0 s) : Kept z0 (resetState code s) := by
  refine hk.trans ⟨rfl, ?_, List.suffix_refl _, le_refl _, fun h => ?_, rfl, le_refl _, fun _ _ h => h⟩
  · by_cases c : code = 0
    · exact .inr (by simp [resetState, c])
    · exact .inl (by simp [resetState, c])
  · unfold State.regsOk
    by_cases c : code = 0
    · subst c; exact (show smSorted State.reset.regs = true by decide)
    · simpa [resetState, c] using smSorted_filter h _

theorem strapState_kept (inst ft : Bool) (node : Nat) {z0 s : State} (hk : Kept z0 s) : Kept z0 (strapState inst ft node s) := by
  unfold strapState
  repeat' (first
    | with_reducible assumption
    | with_reducible apply setFld_kept
    | with_reducible apply setFlag_kept
    | with_reducible apply roleAction_kept
    | with_reducible apply showSessions_kept
    | with_reducible apply showKeys_kept
    | with_reducible apply Kept.ite
    | with_reducible apply Kept.foldl
    | intro _ _ _ _
    | intro _ _ _
    | intro _
    | (extract_lets +onlyGivenNames x; clear_value x)
    | split
    | dsimp only
    | fail_if_no_progress (with_reducible apply Kept.parts))

theorem startP1_kept  {z0 s : State} (hk : Kept z0 s) : Kept z0 (startP1 s) := by
  unfold startP1
  repeat' (first
    | with_reducible assumption
    | with_reducible apply setFld_kept
    | with_reducible apply incFld_kept
    | with_reducible apply setPower_kept
    | with_reducible apply Kept.ite
    | with_reducible apply Kept.foldl
    | intro _ _ _ _
    | intro _ _ _
    | intro _
    | (extract_lets +onlyGivenNames x; clear_value x)
    | split
    | dsimp only
    | fail_if_no_progress (with_reducible apply Kept.parts))

theorem deviceReset_kept (code : Nat) {z0 s : State} (hk : Kept z0 s) : Kept z0 (deviceReset code s) := by
  unfold deviceReset
  repeat' (first
    | with_reducible assumption
    | with_reducible apply resetState_kept
    | with_reducible apply slewStop_kept
    | with_reducible apply onlyIf_kept
    | with_reducible apply flushHeld_kept
    | with_reducible apply counterLoad_kept
    | with_reducible apply resumeMeasures_kept
    | with_reducible apply showStore_kept
    | with_reducible apply setFld_kept
    | with_reducible apply showKeys_kept
    | with_reducible apply setFlag_kept
    | with_reducible apply bemFollow_kept
    | with_reducible apply startP1_kept
    | with_reducible apply Kept.ite
    | with_reducible apply Kept.foldl
    | with_reducible apply Kept.foldl_fst
    | intro _ _ _ _
    | intro _ _ _
    | intro _
    | (extract_lets +onlyGivenNames x; refine Kept.cut (t := x) ?_ ?_; (on_goal 1 => subst x); (on_goal 2 => (clear_value x; intro _)))
    | (extract_lets +onlyGivenNames x; clear_value x)
    | split
    | dsimp only
    | fail_if_no_progress (with_reducible apply Kept.parts))

theorem mainOff_kept (st : Nat) {z0 s : State} (hk : Kept z0 s) : Kept z0 (mainOff st s) := by
  unfold mainOff
  repeat' (first
    | with_reducible assumption
    | with_reducible apply resetState_kept
    | with_reducible apply slewStop_kept
    | with_reducible apply counterWrite_kept
    | with_reducible apply updHost_kept
    | with_reducible apply setFld_kept
    | with_reducible apply setPower_kept
    | with_reducible apply Kept.ite
    | with_reducible apply Kept.foldl
    | with_reducible apply Kept.foldl_fst
    | intro _ _ _ _
    | intro _ _ _
    | intro _
    | (extract_lets +onlyGivenNames x; refine Kept.cut (t := x) ?_ ?_; (on_goal 1 => subst x); (on_goal 2 => (clear_value x; intro _)))
    | (extract_lets +onlyGivenNames x; clear_value x)
    | split
    | dsimp only
    | fail_if_no_progress (with_reducible apply Kept.parts))

end Sys2Proof.Machine
end

