-- ==== Sys2Proof/Laws/KeptVault.lean ====
section
/-! SUPPORT. What the operations of Machine/Vault.lean keep. -/

namespace Sys2Proof.Machine

theorem vaultCheck_kept  {z0 s : State} (hk : Kept z0 s) : Kept z0 (vaultCheck s) := by
  unfold vaultCheck
  repeat' (first
    | with_reducible assumption
    | with_reducible apply setFld_kept
    | with_reducible apply setFlag_kept
    | with_reducible apply setEvt_kept
    | with_reducible apply boundUpdate_kept
    | with_reducible apply Kept.ite)

theorem vaultTest_kept (ok1 ok2 : Bool) (rate : Nat) {z0 s : State} (hk : Kept z0 s) : Kept z0 (vaultTest ok1 ok2 rate s) := by
  unfold vaultTest
  repeat' (first
    | with_reducible assumption
    | with_reducible apply setFld_kept
    | with_reducible apply setEvt_kept
    | with_reducible apply updCache_kept
    | with_reducible apply vaultCheck_kept
    | with_reducible apply Kept.ite)

theorem chunkWrite_kept (im : Image) (c : Nat) {z0 s : State} (hk : Kept z0 s) : Kept z0 (chunkWrite im c s) := by
  unfold chunkWrite
  repeat' (first
    | with_reducible assumption
    | with_reducible apply sendNv_kept
    | with_reducible apply Kept.ite
    | with_reducible apply Kept.foldl
    | with_reducible apply Kept.foldl_fst
    | intro _ _ _ _
    | intro _ _ _
    | intro _
    | (extract_lets +onlyGivenNames x; refine Kept.cut (t := x) ?_ ?_; (on_goal 1 => subst x); (on_goal 2 => (clear_value x; intro _)))
    | (extract_lets +onlyGivenNames x; clear_value x)
    | split
    | dsimp only
    | fail_if_no_progress (with_reducible apply Kept.parts))

theorem chunkIssue_kept (fuel : Nat)  {z0 s : State} (h : Kept z0 s) : Kept z0 (chunkIssue fuel  s) := by
  induction fuel generalizing  z0 s with
  | zero => unfold chunkIssue; exact h
  | succ fuel ih =>
    unfold chunkIssue
    repeat' (first
      | with_reducible assumption
      | with_reducible apply ih
      | with_reducible apply updCache_kept
      | with_reducible apply chunkWrite_kept
      | with_reducible apply Kept.ite
      | with_reducible apply Kept.foldl
      | intro _ _ _ _
      | intro _ _ _
      | intro _
      | split)

theorem freeze_kept  {z0 s : State} (hk : Kept z0 s) : Kept z0 (freeze s) := by
  unfold freeze
  repeat' (first
    | with_reducible assumption
    | with_reducible apply setFld_kept
    | with_reducible apply Kept.ite
    | with_reducible apply Kept.foldl
    | intro _ _ _ _
    | intro _ _ _
    | intro _
    | (extract_lets +onlyGivenNames x; clear_value x)
    | split
    | dsimp only
    | fail_if_no_progress (with_reducible apply Kept.parts))

theorem startDump_kept (cause thenDo : Nat) {z0 s : State} (hk : Kept z0 s) : Kept z0 (startDump cause thenDo s) := by
  unfold startDump
  repeat' (first
    | with_reducible assumption
    | with_reducible apply setFld_kept
    | with_reducible apply updCache_kept
    | with_reducible apply chunkIssue_kept
    | with_reducible apply freeze_kept)

theorem backupEnd_kept (good : Bool) {z0 s : State} (hk : Kept z0 s) : Kept z0 (backupEnd good s) := by
  unfold backupEnd
  repeat' (first
    | with_reducible assumption
    | with_reducible apply deviceReset_kept
    | with_reducible apply mainOff_kept
    | with_reducible apply Kept.ite)

theorem dumpEnd_kept (good : Bool) {z0 s : State} (hk : Kept z0 s) : Kept z0 (dumpEnd good s) := by
  unfold dumpEnd
  repeat' (first
    | with_reducible assumption
    | with_reducible apply updCache_kept
    | with_reducible apply deviceReset_kept
    | with_reducible apply backupEnd_kept
    | with_reducible apply Kept.ite)

theorem chunkEnd_kept (id c : Nat) (good : Bool) {z0 s : State} (hk : Kept z0 s) : Kept z0 (chunkEnd id c good s) := by
  unfold chunkEnd
  repeat' (first
    | with_reducible assumption
    | with_reducible apply endNv_kept
    | with_reducible apply chunkIssue_kept
    | with_reducible apply onlyIf_kept
    | with_reducible apply updCache_kept
    | with_reducible apply dumpEnd_kept
    | with_reducible apply Kept.ite
    | with_reducible apply Kept.ident
    | with_reducible apply Kept.foldl
    | with_reducible apply Kept.foldl_fst
    | intro _ _ _ _
    | intro _ _ _
    | intro _
    | (extract_lets +onlyGivenNames x; refine Kept.cut (t := x) ?_ ?_; (on_goal 1 => subst x); (on_goal 2 => (clear_value x; intro _)))
    | (extract_lets +onlyGivenNames x; clear_value x)
    | split
    | dsimp only
    | fail_if_no_progress (with_reducible apply Kept.parts))

theorem portOff_kept (p : Nat) {z0 s : State} (hk : Kept z0 s) : Kept z0 (portOff p s) := by
  unfold portOff
  repeat' (first
    | with_reducible assumption
    | with_reducible apply updDrive_kept
    | with_reducible apply onlyIf_kept
    | with_reducible apply setFld_kept
    | with_reducible apply Kept.ite
    | with_reducible apply Kept.foldl
    | with_reducible apply Kept.foldl_fst
    | intro _ _ _ _
    | intro _ _ _
    | intro _
    | (extract_lets +onlyGivenNames x; refine Kept.cut (t := x) ?_ ?_; (on_goal 1 => subst x); (on_goal 2 => (clear_value x; intro _)))
    | (extract_lets +onlyGivenNames x; clear_value x)
    | split
    | dsimp only
    | fail_if_no_progress (with_reducible apply Kept.parts))

theorem dropLinks_kept  {z0 s : State} (hk : Kept z0 s) : Kept z0 (dropLinks  s) := by
  unfold dropLinks
  repeat' (first
    | with_reducible assumption
    | with_reducible apply linksOff_kept
    | with_reducible apply portOff_kept
    | with_reducible apply setFld_kept
    | with_reducible apply Kept.ite
    | with_reducible apply Kept.foldl
    | with_reducible apply Kept.foldl_fst
    | intro _ _ _ _
    | intro _ _ _
    | intro _
    | (extract_lets +onlyGivenNames x; refine Kept.cut (t := x) ?_ ?_; (on_goal 1 => subst x); (on_goal 2 => (clear_value x; intro _)))
    | (extract_lets +onlyGivenNames x; clear_value x)
    | split
    | dsimp only
    | fail_if_no_progress (with_reducible apply Kept.parts))

theorem backupEntry_kept (pf good : Bool) {z0 s : State} (hk : Kept z0 s) : Kept z0 (backupEntry pf good s) := by
  unfold backupEntry
  repeat' (first
    | with_reducible assumption
    | with_reducible apply setFld_kept
    | with_reducible apply setFlag_kept
    | with_reducible apply updCache_kept
    | with_reducible apply restWinFail_kept
    | with_reducible apply learnDq_kept
    | with_reducible apply setPower_kept
    | with_reducible apply mainOff_kept
    | with_reducible apply freeze_kept
    | with_reducible apply startDump_kept
    | with_reducible apply backupEnd_kept
    | with_reducible apply dropLinks_kept
    | with_reducible apply Kept.ite)

theorem loseBlock_kept (p sn lin : Nat) {z0 s : State} (hk : Kept z0 s) : Kept z0 (loseBlock p sn lin s) := by
  unfold loseBlock
  repeat' (first
    | with_reducible assumption
    | with_reducible apply lostwAdd_kept
    | with_reducible apply Kept.ite
    | with_reducible apply Kept.foldl
    | with_reducible apply Kept.foldl_fst
    | intro _ _ _ _
    | intro _ _ _
    | intro _
    | (extract_lets +onlyGivenNames x; refine Kept.cut (t := x) ?_ ?_; (on_goal 1 => subst x); (on_goal 2 => (clear_value x; intro _)))
    | (extract_lets +onlyGivenNames x; clear_value x)
    | split
    | dsimp only
    | fail_if_no_progress (with_reducible apply Kept.parts))

theorem loseBlockOf_kept (id sn lin : Nat) {z0 s : State} (hk : Kept z0 s) : Kept z0 (loseBlockOf id sn lin s) := by
  unfold loseBlockOf
  repeat' (first
    | with_reducible assumption
    | with_reducible apply lostwAdd_kept
    | with_reducible apply Kept.ite
    | with_reducible apply Kept.ident
    | with_reducible apply Kept.foldl
    | with_reducible apply Kept.foldl_fst
    | intro _ _ _ _
    | intro _ _ _
    | intro _
    | (extract_lets +onlyGivenNames x; refine Kept.cut (t := x) ?_ ?_; (on_goal 1 => subst x); (on_goal 2 => (clear_value x; intro _)))
    | (extract_lets +onlyGivenNames x; clear_value x)
    | split
    | dsimp only
    | fail_if_no_progress (with_reducible apply Kept.parts))

theorem loseEntry_kept (e : JEntry) {z0 s : State} (hk : Kept z0 s) : Kept z0 (loseEntry e s) := by
  unfold loseEntry
  repeat' (first
    | with_reducible assumption
    | with_reducible apply lostwAdd_kept
    | with_reducible apply loseBlock_kept
    | with_reducible apply Kept.ite
    | with_reducible apply Kept.foldl
    | intro _ _ _ _
    | intro _ _ _)

theorem loseAbsent_kept (e : JEntry) {z0 s : State} (hk : Kept z0 s) : Kept z0 (loseAbsent e s) := by
  unfold loseAbsent
  repeat' (first
    | with_reducible assumption
    | with_reducible apply lostwAdd_kept
    | with_reducible apply Kept.ite
    | with_reducible apply Kept.foldl
    | with_reducible apply Kept.foldl_fst
    | intro _ _ _ _
    | intro _ _ _
    | intro _
    | (extract_lets +onlyGivenNames x; refine Kept.cut (t := x) ?_ ?_; (on_goal 1 => subst x); (on_goal 2 => (clear_value x; intro _)))
    | (extract_lets +onlyGivenNames x; clear_value x)
    | split
    | dsimp only
    | fail_if_no_progress (with_reducible apply Kept.parts))

theorem presentReplay_kept (g : Seg) {z0 s : State} (hk : Kept z0 s) : Kept z0 (presentReplay g s) := by
  unfold presentReplay
  repeat' (first
    | with_reducible assumption
    | with_reducible apply updIo_kept)

theorem replayPq_kept (p sn first last : Nat) {z0 s : State} (hk : Kept z0 s) : Kept z0 (replayPq p sn first last s) := by
  unfold replayPq
  repeat' (first
    | with_reducible assumption
    | with_reducible apply presentReplay_kept
    | with_reducible apply Kept.ite
    | with_reducible apply Kept.foldl
    | with_reducible apply Kept.foldl_fst
    | intro _ _ _ _
    | intro _ _ _
    | intro _
    | (extract_lets +onlyGivenNames x; refine Kept.cut (t := x) ?_ ?_; (on_goal 1 => subst x); (on_goal 2 => (clear_value x; intro _)))
    | (extract_lets +onlyGivenNames x; clear_value x)
    | split
    | dsimp only
    | fail_if_no_progress (with_reducible apply Kept.parts))

theorem replayEntry_kept (ids : List (Nat × Nat)) (j : Nat) (e : JEntry) {z0 s : State} (hk : Kept z0 s) : Kept z0 (replayEntry ids j e s) := by
  unfold replayEntry
  repeat' (first
    | with_reducible assumption
    | with_reducible apply loseEntry_kept
    | with_reducible apply loseAbsent_kept
    | with_reducible apply dataStaged_kept
    | with_reducible apply presentReplay_kept
    | with_reducible apply replayPq_kept
    | with_reducible apply Kept.ite
    | with_reducible apply Kept.ident
    | with_reducible apply Kept.foldl
    | with_reducible apply Kept.foldl_fst
    | intro _ _ _ _
    | intro _ _ _
    | intro _
    | (extract_lets +onlyGivenNames x; refine Kept.cut (t := x) ?_ ?_; (on_goal 1 => subst x); (on_goal 2 => (clear_value x; intro _)))
    | (extract_lets +onlyGivenNames x; clear_value x)
    | split
    | dsimp only
    | fail_if_no_progress (with_reducible apply Kept.parts))

theorem replaySlot_kept (ids : List (Nat × Nat)) (dn : Nat) (d : Nat) (x : Slot) {z0 s : State} (hk : Kept z0 s) : Kept z0 (replaySlot ids dn d x s) := by
  unfold replaySlot
  repeat' (first
    | with_reducible assumption
    | with_reducible apply presentReplay_kept
    | with_reducible apply incFld_kept
    | with_reducible apply loseBlockOf_kept
    | with_reducible apply Kept.ite
    | with_reducible apply Kept.ident
    | with_reducible apply Kept.foldl
    | with_reducible apply Kept.foldl_fst
    | intro _ _ _ _
    | intro _ _ _
    | intro _
    | (extract_lets +onlyGivenNames x; refine Kept.cut (t := x) ?_ ?_; (on_goal 1 => subst x); (on_goal 2 => (clear_value x; intro _)))
    | (extract_lets +onlyGivenNames x; clear_value x)
    | split
    | dsimp only
    | fail_if_no_progress (with_reducible apply Kept.parts))

theorem replayMembers_kept (p : Nat) (j : List (Nat × List Byte) × List (Nat × Block)) {z0 s : State} (hk : Kept z0 s) : Kept z0 (replayMembers p j s) := by
  unfold replayMembers
  repeat' (first
    | with_reducible assumption
    | with_reducible apply replayPq_kept
    | with_reducible apply presentReplay_kept
    | with_reducible apply Kept.ite
    | with_reducible apply Kept.foldl
    | with_reducible apply Kept.foldl_fst
    | intro _ _ _ _
    | intro _ _ _
    | intro _
    | (extract_lets +onlyGivenNames x; refine Kept.cut (t := x) ?_ ?_; (on_goal 1 => subst x); (on_goal 2 => (clear_value x; intro _)))
    | (extract_lets +onlyGivenNames x; clear_value x)
    | split
    | dsimp only
    | fail_if_no_progress (with_reducible apply Kept.parts))

theorem imageLost_kept  {z0 s : State} (hk : Kept z0 s) : Kept z0 (imageLost s) := by
  unfold imageLost
  repeat' (first
    | with_reducible assumption
    | with_reducible apply setFld_kept
    | with_reducible apply setEvt_kept
    | with_reducible apply sketchEvt_kept
    | with_reducible apply cycleStart_kept
    | with_reducible apply Kept.ite
    | with_reducible apply Kept.foldl
    | intro _ _ _ _
    | intro _ _ _)

theorem replayRun_kept  {z0 s : State} (hk : Kept z0 s) : Kept z0 (replayRun  s) := by
  unfold replayRun
  repeat' (first
    | with_reducible assumption
    | with_reducible apply updCache_kept
    | with_reducible apply onlyIf_kept
    | with_reducible apply imageLost_kept
    | with_reducible apply replayEntry_kept
    | with_reducible apply setFld_kept
    | with_reducible apply replaySlot_kept
    | with_reducible apply cycleStart_kept
    | with_reducible apply sketchEvt_kept
    | with_reducible apply setEvt_kept
    | with_reducible apply replayMembers_kept
    | with_reducible apply Kept.ite
    | with_reducible apply Kept.ident
    | with_reducible apply Kept.foldl
    | with_reducible apply Kept.foldl_fst
    | intro _ _ _ _
    | intro _ _ _
    | intro _
    | (extract_lets +onlyGivenNames x; refine Kept.cut (t := x) ?_ ?_; (on_goal 1 => subst x); (on_goal 2 => (clear_value x; intro _)))
    | (extract_lets +onlyGivenNames x; clear_value x)
    | split
    | dsimp only
    | fail_if_no_progress (with_reducible apply Kept.parts))

theorem replayBegin_kept (bad : List Nat) {z0 s : State} (hk : Kept z0 s) : Kept z0 (replayBegin bad s) := by
  unfold replayBegin
  repeat' (first
    | with_reducible assumption
    | with_reducible apply setFld_kept
    | with_reducible apply setFlag_kept
    | with_reducible apply setEvt_kept
    | with_reducible apply updCache_kept
    | with_reducible apply replayRun_kept
    | with_reducible apply Kept.ite
    | with_reducible apply Kept.foldl
    | intro _ _ _ _
    | intro _ _ _
    | intro _
    | (extract_lets +onlyGivenNames x; refine Kept.cut (t := x) ?_ ?_; (on_goal 1 => subst x); (on_goal 2 => (clear_value x; intro _)))
    | split)

theorem replayEnd_kept  {z0 s : State} (hk : Kept z0 s) : Kept z0 (replayEnd  s) := by
  unfold replayEnd
  repeat' (first
    | with_reducible assumption
    | with_reducible apply lostwWrite_kept
    | with_reducible apply chunkWrite_kept
    | with_reducible apply updCache_kept
    | with_reducible apply setEvt_kept
    | with_reducible apply setFld_kept
    | with_reducible apply Kept.ite
    | with_reducible apply Kept.foldl
    | with_reducible apply Kept.foldl_fst
    | intro _ _ _ _
    | intro _ _ _
    | intro _
    | (extract_lets +onlyGivenNames x; refine Kept.cut (t := x) ?_ ?_; (on_goal 1 => subst x); (on_goal 2 => (clear_value x; intro _)))
    | (extract_lets +onlyGivenNames x; clear_value x)
    | split
    | dsimp only
    | fail_if_no_progress (with_reducible apply Kept.parts))

end Sys2Proof.Machine
end

