-- ==== Sys2Proof/Laws/KeptDram.lean ====
section
/-! SUPPORT. What the operations of Machine/Dram.lean keep. -/

namespace Sys2Proof.Machine

theorem updDram_kept (f : DramSt → DramSt) {z0 s : State} (hk : Kept z0 s) : Kept z0 (updDram f s) := Kept.parts hk

theorem setDmc_kept (c st : Nat) {z0 s : State} (hk : Kept z0 s) : Kept z0 (setDmc c st s) := by
  unfold setDmc
  repeat' (first
    | with_reducible assumption
    | with_reducible apply setFld_kept)

theorem dmcEvt_kept (c bit : Nat) {z0 s : State} (hk : Kept z0 s) : Kept z0 (dmcEvt c bit s) := by
  unfold dmcEvt
  repeat' (first
    | with_reducible assumption
    | with_reducible apply setEvt_kept)

theorem dmcEnd_kept (c : Nat) (st : Status) {z0 s : State} (hk : Kept z0 s) : Kept z0 (dmcEnd c st s) := by
  unfold dmcEnd
  repeat' (first
    | with_reducible assumption
    | with_reducible apply cmdEnd_kept)

theorem setRegion_kept (c a v : Nat) {z0 s : State} (hk : Kept z0 s) : Kept z0 (setRegion c a v s) := by
  unfold setRegion
  split
  · exact updSlot_kept _ _ hk
  · exact updLink_kept _ hk
  · exact Kept.parts hk

theorem access_kept (c addr : Nat) {z0 s : State} (hk : Kept z0 s) : Kept z0 (access c addr s) := by
  unfold access
  repeat' (first
    | with_reducible assumption
    | with_reducible apply add64_kept
    | with_reducible apply updDram_kept
    | with_reducible apply Kept.ite
    | with_reducible apply Kept.foldl
    | with_reducible apply Kept.foldl_fst
    | intro _ _ _ _
    | intro _ _ _
    | intro _
    | (extract_lets +onlyGivenNames x; refine Kept.cut (t := x) ?_ ?_; (on_goal 1 => subst x); (on_goal 2 => (clear_value x; intro _)))
    | (extract_lets +onlyGivenNames x; clear_value x)
    | split
    | dsimp only
    | fail_if_no_progress (with_reducible apply Kept.parts))

theorem loadBoard_kept (c : Nat) {z0 s : State} (hk : Kept z0 s) : Kept z0 (loadBoard c s) := by
  unfold loadBoard
  repeat' (first
    | with_reducible assumption
    | with_reducible apply updDram_kept
    | with_reducible apply setFld_kept
    | with_reducible apply seqIf_kept
    | with_reducible apply Kept.ite
    | with_reducible apply Kept.foldl
    | with_reducible apply Kept.foldl_fst
    | intro _ _ _ _
    | intro _ _ _
    | intro _
    | (extract_lets +onlyGivenNames x; refine Kept.cut (t := x) ?_ ?_; (on_goal 1 => subst x); (on_goal 2 => (clear_value x; intro _)))
    | (extract_lets +onlyGivenNames x; clear_value x)
    | split
    | dsimp only
    | fail_if_no_progress (with_reducible apply Kept.parts))

theorem showSpeed_kept (c : Nat) {z0 s : State} (hk : Kept z0 s) : Kept z0 (showSpeed c s) := by
  unfold showSpeed
  repeat' (first
    | with_reducible assumption
    | with_reducible apply setFlag_kept
    | with_reducible apply setFld_kept
    | with_reducible apply Kept.ite
    | with_reducible apply Kept.foldl
    | with_reducible apply Kept.foldl_fst
    | intro _ _ _ _
    | intro _ _ _
    | intro _
    | (extract_lets +onlyGivenNames x; refine Kept.cut (t := x) ?_ ?_; (on_goal 1 => subst x); (on_goal 2 => (clear_value x; intro _)))
    | (extract_lets +onlyGivenNames x; clear_value x)
    | split
    | dsimp only
    | fail_if_no_progress (with_reducible apply Kept.parts))

theorem judgeChannel_kept (c why : Nat) {z0 s : State} (hk : Kept z0 s) : Kept z0 (judgeChannel c why s) := by
  unfold judgeChannel
  repeat' (first
    | with_reducible assumption
    | with_reducible apply setFld_kept
    | with_reducible apply setDmc_kept
    | with_reducible apply dmcEvt_kept
    | with_reducible apply Kept.ite
    | with_reducible apply Kept.foldl
    | with_reducible apply Kept.foldl_fst
    | intro _ _ _ _
    | intro _ _ _
    | intro _
    | (extract_lets +onlyGivenNames x; refine Kept.cut (t := x) ?_ ?_; (on_goal 1 => subst x); (on_goal 2 => (clear_value x; intro _)))
    | (extract_lets +onlyGivenNames x; clear_value x)
    | split
    | dsimp only
    | fail_if_no_progress (with_reducible apply Kept.parts))

theorem rejudge_kept (c : Nat) {z0 s : State} (hk : Kept z0 s) : Kept z0 (rejudge c s) := by
  unfold rejudge
  repeat' (first
    | with_reducible assumption
    | with_reducible apply onlyIf_kept
    | with_reducible apply judgeChannel_kept
    | with_reducible apply Kept.ite
    | with_reducible apply Kept.foldl
    | with_reducible apply Kept.foldl_fst
    | intro _ _ _ _
    | intro _ _ _
    | intro _
    | (extract_lets +onlyGivenNames x; refine Kept.cut (t := x) ?_ ?_; (on_goal 1 => subst x); (on_goal 2 => (clear_value x; intro _)))
    | (extract_lets +onlyGivenNames x; clear_value x)
    | split
    | dsimp only
    | fail_if_no_progress (with_reducible apply Kept.parts))

theorem trainingDone_kept (c : Nat) (d : Option Dimm) (lanes : List (Nat × Nat)) {z0 s : State} (hk : Kept z0 s) : Kept z0 (trainingDone c d lanes s) := by
  unfold trainingDone
  repeat' (first
    | with_reducible assumption
    | with_reducible apply updDram_kept
    | with_reducible apply setFld_kept
    | with_reducible apply setFlag_kept
    | with_reducible apply rejudge_kept
    | with_reducible apply judgeChannel_kept
    | with_reducible apply dmcEnd_kept
    | with_reducible apply onlyIf_kept
    | with_reducible apply showSpeed_kept
    | with_reducible apply report_kept
    | with_reducible apply Kept.ite
    | with_reducible apply Kept.foldl
    | with_reducible apply Kept.foldl_fst
    | intro _ _ _ _
    | intro _ _ _
    | intro _
    | (extract_lets +onlyGivenNames x; refine Kept.cut (t := x) ?_ ?_; (on_goal 1 => subst x); (on_goal 2 => (clear_value x; intro _)))
    | (extract_lets +onlyGivenNames x; clear_value x)
    | split
    | dsimp only
    | fail_if_no_progress (with_reducible apply Kept.parts))

theorem zeroed_kept (c : Nat) {z0 s : State} (hk : Kept z0 s) : Kept z0 (zeroed c s) := by
  unfold zeroed
  repeat' (first
    | with_reducible assumption
    | with_reducible apply Kept.ite
    | with_reducible apply Kept.foldl
    | with_reducible apply Kept.foldl_fst
    | intro _ _ _ _
    | intro _ _ _
    | intro _
    | (extract_lets +onlyGivenNames x; refine Kept.cut (t := x) ?_ ?_; (on_goal 1 => subst x); (on_goal 2 => (clear_value x; intro _)))
    | (extract_lets +onlyGivenNames x; clear_value x)
    | split
    | dsimp only
    | fail_if_no_progress (with_reducible apply Kept.parts))

theorem initDone_kept (c : Nat) {z0 s : State} (hk : Kept z0 s) : Kept z0 (initDone c s) := by
  unfold initDone
  repeat' (first
    | with_reducible assumption
    | with_reducible apply dmcEvt_kept
    | with_reducible apply setFld_kept
    | with_reducible apply setDmc_kept
    | with_reducible apply zeroed_kept
    | with_reducible apply dmcEnd_kept
    | with_reducible apply updCache_kept
    | with_reducible apply clearFence_kept
    | with_reducible apply Kept.ite
    | with_reducible apply Kept.foldl
    | with_reducible apply Kept.foldl_fst
    | intro _ _ _ _
    | intro _ _ _
    | intro _
    | (extract_lets +onlyGivenNames x; refine Kept.cut (t := x) ?_ ?_; (on_goal 1 => subst x); (on_goal 2 => (clear_value x; intro _)))
    | (extract_lets +onlyGivenNames x; clear_value x)
    | split
    | dsimp only
    | fail_if_no_progress (with_reducible apply Kept.parts))

theorem losePair_kept (b : Nat) {z0 s : State} (hk : Kept z0 s) : Kept z0 (losePair b s) := by
  unfold losePair
  repeat' (first
    | with_reducible assumption
    | with_reducible apply flushed_kept
    | with_reducible apply retireSlot_kept
    | with_reducible apply loseBlock_kept
    | with_reducible apply Kept.ite
    | with_reducible apply Kept.foldl
    | with_reducible apply Kept.foldl_fst
    | intro _ _ _ _
    | intro _ _ _
    | intro _
    | (extract_lets +onlyGivenNames x; refine Kept.cut (t := x) ?_ ?_; (on_goal 1 => subst x); (on_goal 2 => (clear_value x; intro _)))
    | (extract_lets +onlyGivenNames x; clear_value x)
    | split
    | dsimp only
    | fail_if_no_progress (with_reducible apply Kept.parts))

theorem losePool_kept (c : Nat) {z0 s : State} (hk : Kept z0 s) : Kept z0 (losePool c s) := by
  unfold losePool
  repeat' (first
    | with_reducible assumption
    | with_reducible apply updLink_kept
    | with_reducible apply sendMsg_kept
    | with_reducible apply Kept.ite
    | with_reducible apply Kept.foldl
    | intro _ _ _ _
    | intro _ _ _)

theorem dmcFreeze_kept (c : Nat) {z0 s : State} (hk : Kept z0 s) : Kept z0 (dmcFreeze c s) := by
  unfold dmcFreeze
  repeat' (first
    | with_reducible assumption
    | with_reducible apply setDmc_kept
    | with_reducible apply onlyIf_kept
    | with_reducible apply dmcEnd_kept
    | with_reducible apply updCache_kept
    | with_reducible apply losePool_kept
    | with_reducible apply writeThroughOn_kept
    | with_reducible apply losePair_kept
    | with_reducible apply report_kept
    | with_reducible apply Kept.ite
    | with_reducible apply Kept.foldl
    | with_reducible apply Kept.foldl_fst
    | intro _ _ _ _
    | intro _ _ _
    | intro _
    | (extract_lets +onlyGivenNames x; refine Kept.cut (t := x) ?_ ?_; (on_goal 1 => subst x); (on_goal 2 => (clear_value x; intro _)))
    | (extract_lets +onlyGivenNames x; clear_value x)
    | split
    | dsimp only
    | fail_if_no_progress (with_reducible apply Kept.parts))

theorem fillSyn_kept (c addr dev syms : Nat) (ue : Bool) {z0 s : State} (hk : Kept z0 s) : Kept z0 (fillSyn c addr dev syms ue s) := by
  unfold fillSyn
  repeat' (first
    | with_reducible assumption
    | with_reducible apply setFld_kept
    | with_reducible apply setFlag_kept
    | with_reducible apply Kept.ite
    | with_reducible apply Kept.foldl
    | with_reducible apply Kept.foldl_fst
    | intro _ _ _ _
    | intro _ _ _
    | intro _
    | (extract_lets +onlyGivenNames x; refine Kept.cut (t := x) ?_ ?_; (on_goal 1 => subst x); (on_goal 2 => (clear_value x; intro _)))
    | (extract_lets +onlyGivenNames x; clear_value x)
    | split
    | dsimp only
    | fail_if_no_progress (with_reducible apply Kept.parts))

theorem fillEcap_kept (p addr acc master kind : Nat) {z0 s : State} (hk : Kept z0 s) : Kept z0 (fillEcap p addr acc master kind s) := by
  unfold fillEcap
  repeat' (first
    | with_reducible assumption
    | with_reducible apply setFld_kept)

theorem corrected_kept (c addr master unit syms : Nat) {z0 s : State} (hk : Kept z0 s) : Kept z0 (corrected c addr master unit syms s) := by
  unfold corrected
  repeat' (first
    | with_reducible assumption
    | with_reducible apply fillSyn_kept
    | with_reducible apply fillEcap_kept
    | with_reducible apply updDram_kept
    | with_reducible apply dmcEvt_kept
    | with_reducible apply incFld_kept
    | with_reducible apply sketchEvt_kept
    | with_reducible apply report_kept
    | with_reducible apply Kept.ite
    | with_reducible apply Kept.foldl
    | with_reducible apply Kept.foldl_fst
    | intro _ _ _ _
    | intro _ _ _
    | intro _
    | (extract_lets +onlyGivenNames x; refine Kept.cut (t := x) ?_ ?_; (on_goal 1 => subst x); (on_goal 2 => (clear_value x; intro _)))
    | (extract_lets +onlyGivenNames x; clear_value x)
    | split
    | dsimp only
    | fail_if_no_progress (with_reducible apply Kept.parts))

theorem uncorrected_kept (c addr unit syms : Nat) {z0 s : State} (hk : Kept z0 s) : Kept z0 (uncorrected c addr unit syms s) := by
  unfold uncorrected
  repeat' (first
    | with_reducible assumption
    | with_reducible apply fillSyn_kept
    | with_reducible apply report_kept
    | with_reducible apply dmcFreeze_kept
    | with_reducible apply dmcEvt_kept
    | with_reducible apply satFld_kept
    | with_reducible apply Kept.ite
    | with_reducible apply Kept.foldl
    | with_reducible apply Kept.foldl_fst
    | intro _ _ _ _
    | intro _ _ _
    | intro _
    | (extract_lets +onlyGivenNames x; refine Kept.cut (t := x) ?_ ?_; (on_goal 1 => subst x); (on_goal 2 => (clear_value x; intro _)))
    | (extract_lets +onlyGivenNames x; clear_value x)
    | split
    | dsimp only
    | fail_if_no_progress (with_reducible apply Kept.parts))

theorem burstRead_kept (c : Nat) (q : DramReq) (wb : Bool) (errs : List DevErr) {z0 s : State} (hk : Kept z0 s) : Kept z0 (burstRead c q wb errs s) := by
  unfold burstRead
  repeat' (first
    | with_reducible assumption
    | with_reducible apply corrected_kept
    | with_reducible apply onlyIf_kept
    | with_reducible apply access_kept
    | with_reducible apply uncorrected_kept
    | with_reducible apply Kept.ite
    | with_reducible apply Kept.foldl
    | with_reducible apply Kept.foldl_fst
    | intro _ _ _ _
    | intro _ _ _
    | intro _
    | (extract_lets +onlyGivenNames x; refine Kept.cut (t := x) ?_ ?_; (on_goal 1 => subst x); (on_goal 2 => (clear_value x; intro _)))
    | (extract_lets +onlyGivenNames x; clear_value x)
    | split
    | dsimp only
    | fail_if_no_progress (with_reducible apply Kept.parts))

theorem scrubRead_kept (c : Nat) (errs : List DevErr) {z0 s : State} (hk : Kept z0 s) : Kept z0 (scrubRead c errs s) := by
  unfold scrubRead
  repeat' (first
    | with_reducible assumption
    | with_reducible apply setFld_kept
    | with_reducible apply updDram_kept
    | with_reducible apply access_kept
    | with_reducible apply dmcEvt_kept
    | with_reducible apply burstRead_kept
    | with_reducible apply Kept.ite
    | with_reducible apply Kept.foldl
    | with_reducible apply Kept.foldl_fst
    | intro _ _ _ _
    | intro _ _ _
    | intro _
    | (extract_lets +onlyGivenNames x; refine Kept.cut (t := x) ?_ ?_; (on_goal 1 => subst x); (on_goal 2 => (clear_value x; intro _)))
    | (extract_lets +onlyGivenNames x; clear_value x)
    | split
    | dsimp only
    | fail_if_no_progress (with_reducible apply Kept.parts))

theorem precharge_kept (c : Nat) {z0 s : State} (hk : Kept z0 s) : Kept z0 (precharge c s) := by
  unfold precharge
  repeat' (first
    | with_reducible assumption
    | with_reducible apply updDram_kept
    | with_reducible apply Kept.ite
    | with_reducible apply Kept.foldl
    | with_reducible apply Kept.foldl_fst
    | intro _ _ _ _
    | intro _ _ _
    | intro _
    | (extract_lets +onlyGivenNames x; refine Kept.cut (t := x) ?_ ?_; (on_goal 1 => subst x); (on_goal 2 => (clear_value x; intro _)))
    | (extract_lets +onlyGivenNames x; clear_value x)
    | split
    | dsimp only
    | fail_if_no_progress (with_reducible apply Kept.parts))

theorem freqStart_kept  {z0 s : State} (hk : Kept z0 s) : Kept z0 (freqStart  s) := by
  unfold freqStart
  repeat' (first
    | with_reducible assumption
    | with_reducible apply precharge_kept
    | with_reducible apply setDmc_kept
    | with_reducible apply updDram_kept
    | with_reducible apply Kept.ite
    | with_reducible apply Kept.foldl
    | with_reducible apply Kept.foldl_fst
    | intro _ _ _ _
    | intro _ _ _
    | intro _
    | (extract_lets +onlyGivenNames x; refine Kept.cut (t := x) ?_ ?_; (on_goal 1 => subst x); (on_goal 2 => (clear_value x; intro _)))
    | (extract_lets +onlyGivenNames x; clear_value x)
    | split
    | dsimp only
    | fail_if_no_progress (with_reducible apply Kept.parts))

end Sys2Proof.Machine
end

