-- ==== Sys2Proof/Laws/KeptDrive.lean ====
section
/-! SUPPORT. What the operations of Machine/Drive.lean keep. -/

namespace Sys2Proof.Machine

theorem updBay_kept (p : Nat) (f : Bay → Bay) {z0 s : State} (hk : Kept z0 s) : Kept z0 (updBay p f s) := by
  unfold updBay
  repeat' (first
    | with_reducible assumption
    | with_reducible apply updDrive_kept)

theorem dptEvt_kept (p bit : Nat) {z0 s : State} (hk : Kept z0 s) : Kept z0 (dptEvt p bit s) := by
  unfold dptEvt
  repeat' (first
    | with_reducible assumption
    | with_reducible apply setEvt_kept)

theorem setPort_kept (p st : Nat) {z0 s : State} (hk : Kept z0 s) : Kept z0 (setPort p st s) := by
  unfold setPort
  repeat' (first
    | with_reducible assumption
    | with_reducible apply setFld_kept)

theorem showPic_kept (p : Nat) {z0 s : State} (hk : Kept z0 s) : Kept z0 (showPic p s) := by
  unfold showPic
  repeat' (first
    | with_reducible assumption
    | with_reducible apply setFld_kept)

theorem slotOff_kept (p : Nat) {z0 s : State} (hk : Kept z0 s) : Kept z0 (slotOff p s) := by
  unfold slotOff
  repeat' (first
    | with_reducible assumption
    | with_reducible apply setFld_kept
    | with_reducible apply updBay_kept)

theorem powerUp_kept (p : Nat) {z0 s : State} (hk : Kept z0 s) : Kept z0 (powerUp p s) := by
  unfold powerUp
  repeat' (first
    | with_reducible assumption
    | with_reducible apply showPic_kept
    | with_reducible apply setPort_kept
    | with_reducible apply setFld_kept
    | with_reducible apply updBay_kept
    | with_reducible apply Kept.ite
    | with_reducible apply Kept.foldl
    | with_reducible apply Kept.foldl_fst
    | intro _ _ _ _
    | intro _ _ _
    | intro _
    | (extract_lets +onlyGivenNames x; refine Kept.cut (t := x) ?_ ?_; (on_goal 1 => subst x); (on_goal 2 => (clear_value x; intro _)))
    | (extract_lets +onlyGivenNames x; clear_value x)
    | split
    | dsimp only
    | fail_if_no_progress (with_reducible apply Kept.parts))

theorem linkRegsOff_kept (p : Nat) {z0 s : State} (hk : Kept z0 s) : Kept z0 (linkRegsOff p s) := by
  unfold linkRegsOff
  repeat' (first
    | with_reducible assumption
    | with_reducible apply onlyIf_kept
    | with_reducible apply dptEvt_kept
    | with_reducible apply setFld_kept
    | with_reducible apply Kept.ite
    | with_reducible apply Kept.foldl
    | with_reducible apply Kept.foldl_fst
    | intro _ _ _ _
    | intro _ _ _
    | intro _
    | (extract_lets +onlyGivenNames x; refine Kept.cut (t := x) ?_ ?_; (on_goal 1 => subst x); (on_goal 2 => (clear_value x; intro _)))
    | (extract_lets +onlyGivenNames x; clear_value x)
    | split
    | dsimp only
    | fail_if_no_progress (with_reducible apply Kept.parts))

theorem bayFrame_kept (p v : Nat) {z0 s : State} (hk : Kept z0 s) : Kept z0 (bayFrame p v s) := by
  unfold bayFrame
  repeat' (first
    | with_reducible assumption
    | with_reducible apply setFlag_kept
    | with_reducible apply updBay_kept
    | with_reducible apply Kept.ite)

theorem frame_kept (n : Nat) (ins : List Nat) {z0 s : State} (hk : Kept z0 s) : Kept z0 (frame n ins s) := by
  unfold frame
  repeat' (first
    | with_reducible assumption
    | with_reducible apply setFld_kept
    | with_reducible apply incFld_kept
    | with_reducible apply updDrive_kept
    | with_reducible apply updBay_kept
    | with_reducible apply setEvt_kept
    | with_reducible apply bayFrame_kept
    | with_reducible apply Kept.ite
    | with_reducible apply Kept.foldl
    | with_reducible apply Kept.foldl_fst
    | intro _ _ _ _
    | intro _ _ _
    | intro _
    | (extract_lets +onlyGivenNames x; refine Kept.cut (t := x) ?_ ?_; (on_goal 1 => subst x); (on_goal 2 => (clear_value x; intro _)))
    | (extract_lets +onlyGivenNames x; clear_value x)
    | split
    | dsimp only
    | fail_if_no_progress (with_reducible apply Kept.parts))

theorem endCmds_kept (p : Nat) {z0 s : State} (hk : Kept z0 s) : Kept z0 (endCmds p s) := by
  unfold endCmds
  repeat' (first
    | with_reducible assumption
    | with_reducible apply updIo_kept
    | with_reducible apply readLost_kept
    | with_reducible apply writeLost_kept
    | with_reducible apply Kept.ite
    | with_reducible apply Kept.foldl
    | with_reducible apply Kept.foldl_fst
    | intro _ _ _ _
    | intro _ _ _
    | intro _
    | (extract_lets +onlyGivenNames x; refine Kept.cut (t := x) ?_ ?_; (on_goal 1 => subst x); (on_goal 2 => (clear_value x; intro _)))
    | (extract_lets +onlyGivenNames x; clear_value x)
    | split
    | dsimp only
    | fail_if_no_progress (with_reducible apply Kept.parts))

theorem portStill_kept (p : Nat) {z0 s : State} (hk : Kept z0 s) : Kept z0 (portStill p s) := by
  unfold portStill
  repeat' (first
    | with_reducible assumption
    | with_reducible apply updDport_kept
    | with_reducible apply Kept.ite
    | with_reducible apply Kept.foldl
    | with_reducible apply Kept.foldl_fst
    | intro _ _ _ _
    | intro _ _ _
    | intro _
    | (extract_lets +onlyGivenNames x; refine Kept.cut (t := x) ?_ ?_; (on_goal 1 => subst x); (on_goal 2 => (clear_value x; intro _)))
    | (extract_lets +onlyGivenNames x; clear_value x)
    | split
    | dsimp only
    | fail_if_no_progress (with_reducible apply Kept.parts))

theorem endChunks_kept (p : Nat) {z0 s : State} (hk : Kept z0 s) : Kept z0 (endChunks p s) := by
  unfold endChunks
  repeat' (first
    | with_reducible assumption
    | with_reducible apply chunkEnd_kept
    | with_reducible apply Kept.ite
    | with_reducible apply Kept.foldl
    | with_reducible apply Kept.foldl_fst
    | intro _ _ _ _
    | intro _ _ _
    | intro _
    | (extract_lets +onlyGivenNames x; refine Kept.cut (t := x) ?_ ?_; (on_goal 1 => subst x); (on_goal 2 => (clear_value x; intro _)))
    | (extract_lets +onlyGivenNames x; clear_value x)
    | split
    | dsimp only
    | fail_if_no_progress (with_reducible apply Kept.parts))

theorem cutCmd_kept (p : Nat) {z0 s : State} (hk : Kept z0 s) : Kept z0 (cutCmd p s) := by
  unfold cutCmd
  repeat' (first
    | with_reducible assumption
    | with_reducible apply onlyIf_kept
    | with_reducible apply cmdEnd_kept
    | with_reducible apply Kept.ite
    | with_reducible apply Kept.foldl
    | with_reducible apply Kept.foldl_fst
    | intro _ _ _ _
    | intro _ _ _
    | intro _
    | (extract_lets +onlyGivenNames x; refine Kept.cut (t := x) ?_ ?_; (on_goal 1 => subst x); (on_goal 2 => (clear_value x; intro _)))
    | (extract_lets +onlyGivenNames x; clear_value x)
    | split
    | dsimp only
    | fail_if_no_progress (with_reducible apply Kept.parts))

theorem driveGone_kept (p : Nat) {z0 s : State} (hk : Kept z0 s) : Kept z0 (driveGone p s) := by
  unfold driveGone
  repeat' (first
    | with_reducible assumption
    | with_reducible apply endCmds_kept
    | with_reducible apply failDrive_kept
    | with_reducible apply portStill_kept
    | with_reducible apply updDrive_kept
    | with_reducible apply endChunks_kept
    | with_reducible apply cutCmd_kept
    | with_reducible apply linkRegsOff_kept
    | with_reducible apply updBay_kept
    | with_reducible apply Kept.ite
    | with_reducible apply Kept.foldl
    | with_reducible apply Kept.foldl_fst
    | intro _ _ _ _
    | intro _ _ _
    | intro _
    | (extract_lets +onlyGivenNames x; refine Kept.cut (t := x) ?_ ?_; (on_goal 1 => subst x); (on_goal 2 => (clear_value x; intro _)))
    | (extract_lets +onlyGivenNames x; clear_value x)
    | split
    | dsimp only
    | fail_if_no_progress (with_reducible apply Kept.parts))

theorem identify_kept (p : Nat) (d : DriveId) (found : List FoundNs) {z0 s : State} (hk : Kept z0 s) : Kept z0 (identify p d found s) := by
  unfold identify
  repeat' (first
    | with_reducible assumption
    | with_reducible apply setFlag_kept
    | with_reducible apply setFld_kept
    | with_reducible apply updDrive_kept
    | with_reducible apply Kept.ite
    | with_reducible apply Kept.foldl
    | with_reducible apply Kept.foldl_fst
    | intro _ _ _ _
    | intro _ _ _
    | intro _
    | (extract_lets +onlyGivenNames x; refine Kept.cut (t := x) ?_ ?_; (on_goal 1 => subst x); (on_goal 2 => (clear_value x; intro _)))
    | (extract_lets +onlyGivenNames x; clear_value x)
    | split
    | dsimp only
    | fail_if_no_progress (with_reducible apply Kept.parts))

theorem detachNs_kept (p : Nat) (d : DriveId) {z0 s : State} (hk : Kept z0 s) : Kept z0 (detachNs p d s) := by
  unfold detachNs
  repeat' (first
    | with_reducible assumption
    | with_reducible apply failAll_kept
    | with_reducible apply Kept.ite
    | with_reducible apply Kept.foldl
    | with_reducible apply Kept.foldl_fst
    | intro _ _ _ _
    | intro _ _ _
    | intro _
    | (extract_lets +onlyGivenNames x; refine Kept.cut (t := x) ?_ ?_; (on_goal 1 => subst x); (on_goal 2 => (clear_value x; intro _)))
    | (extract_lets +onlyGivenNames x; clear_value x)
    | split
    | dsimp only
    | fail_if_no_progress (with_reducible apply Kept.parts))

theorem markStrays_kept (found : List FoundNs) {z0 s : State} (hk : Kept z0 s) : Kept z0 (markStrays found s) := by
  unfold markStrays
  repeat' (first
    | with_reducible assumption
    | with_reducible apply markForeign_kept
    | with_reducible apply Kept.ite
    | with_reducible apply Kept.foldl
    | with_reducible apply Kept.foldl_fst
    | intro _ _ _ _
    | intro _ _ _
    | intro _
    | (extract_lets +onlyGivenNames x; refine Kept.cut (t := x) ?_ ?_; (on_goal 1 => subst x); (on_goal 2 => (clear_value x; intro _)))
    | (extract_lets +onlyGivenNames x; clear_value x)
    | split
    | dsimp only
    | fail_if_no_progress (with_reducible apply Kept.parts))

theorem lateLabels_kept (found : List FoundNs) (media : List PlateMedia) {z0 s : State} (hk : Kept z0 s) : Kept z0 (lateLabels found media s) := by
  unfold lateLabels
  repeat' (first
    | with_reducible assumption
    | with_reducible apply autoReturn_kept
    | with_reducible apply markStrays_kept
    | with_reducible apply updStore_kept
    | with_reducible apply takePlate_kept
    | with_reducible apply Kept.ite
    | with_reducible apply Kept.ident
    | with_reducible apply Kept.foldl
    | with_reducible apply Kept.foldl_fst
    | intro _ _ _ _
    | intro _ _ _
    | intro _
    | (extract_lets +onlyGivenNames x; refine Kept.cut (t := x) ?_ ?_; (on_goal 1 => subst x); (on_goal 2 => (clear_value x; intro _)))
    | (extract_lets +onlyGivenNames x; clear_value x)
    | split
    | dsimp only
    | fail_if_no_progress (with_reducible apply Kept.parts))

theorem bringUp_kept (p : Nat) (d : DriveId) (found : List FoundNs) (media : List PlateMedia) {z0 s : State} (hk : Kept z0 s) : Kept z0 (bringUp p d found media s) := by
  unfold bringUp
  repeat' (first
    | with_reducible assumption
    | with_reducible apply dptEvt_kept
    | with_reducible apply setFld_kept
    | with_reducible apply showPic_kept
    | with_reducible apply setPort_kept
    | with_reducible apply identify_kept
    | with_reducible apply lateLabels_kept
    | with_reducible apply emit_kept
    | with_reducible apply Kept.ite
    | with_reducible apply Kept.foldl
    | with_reducible apply Kept.foldl_fst
    | intro _ _ _ _
    | intro _ _ _
    | intro _
    | (extract_lets +onlyGivenNames x; refine Kept.cut (t := x) ?_ ?_; (on_goal 1 => subst x); (on_goal 2 => (clear_value x; intro _)))
    | (extract_lets +onlyGivenNames x; clear_value x)
    | split
    | dsimp only
    | fail_if_no_progress (with_reducible apply Kept.parts))

theorem quiesce_kept (p : Nat) {z0 s : State} (hk : Kept z0 s) : Kept z0 (quiesce p s) := by
  unfold quiesce
  repeat' (first
    | with_reducible assumption
    | with_reducible apply sendNv_kept
    | with_reducible apply showPic_kept
    | with_reducible apply setPort_kept
    | with_reducible apply sendAdmin_kept
    | with_reducible apply Kept.ite
    | with_reducible apply Kept.foldl
    | with_reducible apply Kept.foldl_fst
    | intro _ _ _ _
    | intro _ _ _
    | intro _
    | (extract_lets +onlyGivenNames x; refine Kept.cut (t := x) ?_ ?_; (on_goal 1 => subst x); (on_goal 2 => (clear_value x; intro _)))
    | (extract_lets +onlyGivenNames x; clear_value x)
    | split
    | dsimp only
    | fail_if_no_progress (with_reducible apply Kept.parts))

theorem slotDown_kept (p : Nat) {z0 s : State} (hk : Kept z0 s) : Kept z0 (slotDown p s) := by
  unfold slotDown
  repeat' (first
    | with_reducible assumption
    | with_reducible apply slotOff_kept
    | with_reducible apply endCmds_kept
    | with_reducible apply portStill_kept
    | with_reducible apply showPic_kept
    | with_reducible apply setPort_kept
    | with_reducible apply linkRegsOff_kept
    | with_reducible apply updDrive_kept
    | with_reducible apply Kept.ite
    | with_reducible apply Kept.foldl
    | with_reducible apply Kept.foldl_fst
    | intro _ _ _ _
    | intro _ _ _
    | intro _
    | (extract_lets +onlyGivenNames x; refine Kept.cut (t := x) ?_ ?_; (on_goal 1 => subst x); (on_goal 2 => (clear_value x; intro _)))
    | (extract_lets +onlyGivenNames x; clear_value x)
    | split
    | dsimp only
    | fail_if_no_progress (with_reducible apply Kept.parts))

theorem shutdownDone_kept (p : Nat) {z0 s : State} (hk : Kept z0 s) : Kept z0 (shutdownDone p s) := by
  unfold shutdownDone
  repeat' (first
    | with_reducible assumption
    | with_reducible apply cmdEnd_kept
    | with_reducible apply slotDown_kept
    | with_reducible apply Kept.ite)

theorem resetDone_kept (p : Nat) {z0 s : State} (hk : Kept z0 s) : Kept z0 (resetDone p s) := by
  unfold resetDone
  repeat' (first
    | with_reducible assumption
    | with_reducible apply updIo_kept
    | with_reducible apply updDport_kept
    | with_reducible apply emit_kept
    | with_reducible apply sendNv_kept
    | with_reducible apply Kept.ite
    | with_reducible apply Kept.foldl
    | with_reducible apply Kept.foldl_fst
    | intro _ _ _ _
    | intro _ _ _
    | intro _
    | (extract_lets +onlyGivenNames x; refine Kept.cut (t := x) ?_ ?_; (on_goal 1 => subst x); (on_goal 2 => (clear_value x; intro _)))
    | (extract_lets +onlyGivenNames x; clear_value x)
    | split
    | dsimp only
    | fail_if_no_progress (with_reducible apply Kept.parts))

theorem smartPoll_kept (p warn tempK : Nat) (changed : Option DriveId) {z0 s : State} (hk : Kept z0 s) : Kept z0 (smartPoll p warn tempK changed s) := by
  unfold smartPoll
  repeat' (first
    | with_reducible assumption
    | with_reducible apply setFld_kept
    | with_reducible apply sendAdmin_kept
    | with_reducible apply dptEvt_kept
    | with_reducible apply failDrive_kept
    | with_reducible apply detachNs_kept
    | with_reducible apply identify_kept
    | with_reducible apply Kept.ite
    | with_reducible apply Kept.foldl
    | with_reducible apply Kept.foldl_fst
    | intro _ _ _ _
    | intro _ _ _
    | intro _
    | (extract_lets +onlyGivenNames x; refine Kept.cut (t := x) ?_ ?_; (on_goal 1 => subst x); (on_goal 2 => (clear_value x; intro _)))
    | (extract_lets +onlyGivenNames x; clear_value x)
    | split
    | dsimp only
    | fail_if_no_progress (with_reducible apply Kept.parts))

theorem dptEnd_kept (p : Nat) (st : Status) {z0 s : State} (hk : Kept z0 s) : Kept z0 (dptEnd p st s) := by
  unfold dptEnd
  repeat' (first
    | with_reducible assumption
    | with_reducible apply cmdEnd_kept)

theorem powerOffCmd_kept (p : Nat) {z0 s : State} (hk : Kept z0 s) : Kept z0 (powerOffCmd p s) := by
  unfold powerOffCmd
  repeat' (first
    | with_reducible assumption
    | with_reducible apply dptEnd_kept
    | with_reducible apply quiesce_kept
    | with_reducible apply slotDown_kept
    | with_reducible apply Kept.ite
    | with_reducible apply Kept.foldl
    | with_reducible apply Kept.foldl_fst
    | intro _ _ _ _
    | intro _ _ _
    | intro _
    | (extract_lets +onlyGivenNames x; refine Kept.cut (t := x) ?_ ?_; (on_goal 1 => subst x); (on_goal 2 => (clear_value x; intro _)))
    | (extract_lets +onlyGivenNames x; clear_value x)
    | split
    | dsimp only
    | fail_if_no_progress (with_reducible apply Kept.parts))

theorem powerOnCmd_kept (p : Nat) {z0 s : State} (hk : Kept z0 s) : Kept z0 (powerOnCmd p s) := by
  unfold powerOnCmd
  repeat' (first
    | with_reducible assumption
    | with_reducible apply dptEnd_kept
    | with_reducible apply powerUp_kept
    | with_reducible apply slotOff_kept
    | with_reducible apply Kept.ite
    | with_reducible apply Kept.foldl
    | with_reducible apply Kept.foldl_fst
    | intro _ _ _ _
    | intro _ _ _
    | intro _
    | (extract_lets +onlyGivenNames x; refine Kept.cut (t := x) ?_ ?_; (on_goal 1 => subst x); (on_goal 2 => (clear_value x; intro _)))
    | (extract_lets +onlyGivenNames x; clear_value x)
    | split
    | dsimp only
    | fail_if_no_progress (with_reducible apply Kept.parts))

theorem dptHeld_kept (p op : Nat) {z0 s : State} (hk : Kept z0 s) : Kept z0 (dptHeld p op s) := by
  unfold dptHeld
  repeat' (first
    | with_reducible assumption
    | with_reducible apply cmdStart_kept
    | with_reducible apply powerOffCmd_kept
    | with_reducible apply powerOnCmd_kept
    | with_reducible apply Kept.ite
    | with_reducible apply Kept.foldl
    | with_reducible apply Kept.foldl_fst
    | intro _ _ _ _
    | intro _ _ _
    | intro _
    | (extract_lets +onlyGivenNames x; refine Kept.cut (t := x) ?_ ?_; (on_goal 1 => subst x); (on_goal 2 => (clear_value x; intro _)))
    | (extract_lets +onlyGivenNames x; clear_value x)
    | split
    | dsimp only
    | fail_if_no_progress (with_reducible apply Kept.parts))

theorem dptCmd_kept (w : Win) (p op : Nat) (act : State → State) {z0 s : State} (h_act : ∀ r t, Kept r t → Kept r (act t)) (hk : Kept z0 s) : Kept z0 (dptCmd w p op act s) := by
  unfold dptCmd
  repeat' (first
    | with_reducible assumption
    | with_reducible apply h_act
    | with_reducible apply cmdWrite_kept
    | with_reducible apply dptHeld_kept
    | with_reducible apply Kept.ite
    | with_reducible apply Kept.foldl
    | with_reducible apply Kept.foldl_fst
    | intro _ _ _ _
    | intro _ _ _
    | intro _
    | (extract_lets +onlyGivenNames x; refine Kept.cut (t := x) ?_ ?_; (on_goal 1 => subst x); (on_goal 2 => (clear_value x; intro _)))
    | (extract_lets +onlyGivenNames x; clear_value x)
    | split
    | dsimp only
    | fail_if_no_progress (with_reducible apply Kept.parts))

theorem dptFence_kept (p : Nat) {z0 s : State} (hk : Kept z0 s) : Kept z0 (dptFence p s) := by
  unfold dptFence
  repeat' (first
    | with_reducible assumption
    | with_reducible apply showPic_kept
    | with_reducible apply setPort_kept
    | with_reducible apply driveGone_kept
    | with_reducible apply dptEvt_kept
    | with_reducible apply Kept.ite
    | with_reducible apply Kept.foldl
    | with_reducible apply Kept.foldl_fst
    | intro _ _ _ _
    | intro _ _ _
    | intro _
    | (extract_lets +onlyGivenNames x; refine Kept.cut (t := x) ?_ ?_; (on_goal 1 => subst x); (on_goal 2 => (clear_value x; intro _)))
    | (extract_lets +onlyGivenNames x; clear_value x)
    | split
    | dsimp only
    | fail_if_no_progress (with_reducible apply Kept.parts))

end Sys2Proof.Machine
end

