-- ==== Sys2Proof/Laws/KeptLinks.lean ====
section
/-! SUPPORT. What the operations of Machine/Links.lean keep. -/

namespace Sys2Proof.Machine

theorem trtEvt_kept (bit : Nat) {z0 s : State} (hk : Kept z0 s) : Kept z0 (trtEvt bit s) := by
  unfold trtEvt
  repeat' (first
    | with_reducible assumption
    | with_reducible apply setEvt_kept)

theorem learn_kept (x node : Nat) {z0 s : State} (hk : Kept z0 s) : Kept z0 (learn x node s) := by
  unfold learn
  repeat' (first
    | with_reducible assumption
    | with_reducible apply setFld_kept
    | with_reducible apply Kept.ite)

theorem freshLink_kept (x node : Nat) {z0 s : State} (hk : Kept z0 s) : Kept z0 (freshLink x node s) := by
  unfold freshLink
  repeat' (first
    | with_reducible assumption
    | with_reducible apply setFld_kept
    | with_reducible apply updTlk_kept
    | with_reducible apply Kept.ite
    | with_reducible apply Kept.foldl
    | intro _ _ _ _
    | intro _ _ _)

theorem trained_kept (x speed width : Nat) (rev : Bool) (node link : Nat) {z0 s : State} (hk : Kept z0 s) : Kept z0 (trained x speed width rev node link s) := by
  unfold trained
  repeat' (first
    | with_reducible assumption
    | with_reducible apply onlyIf_kept
    | with_reducible apply linkDown_kept
    | with_reducible apply tlkEvt_kept
    | with_reducible apply setFld_kept
    | with_reducible apply setFlag_kept
    | with_reducible apply sendCtrl_kept
    | with_reducible apply freshLink_kept
    | with_reducible apply learn_kept
    | with_reducible apply replayFrom_kept
    | with_reducible apply updTlk_kept
    | with_reducible apply pump_kept
    | with_reducible apply sendCtrlSoon_kept
    | with_reducible apply Kept.ite
    | with_reducible apply Kept.foldl
    | with_reducible apply Kept.foldl_fst
    | intro _ _ _ _
    | intro _ _ _
    | intro _
    | (extract_lets +onlyGivenNames x; refine Kept.cut (t := x) ?_ ?_; (on_goal 1 => subst x); (on_goal 2 => (clear_value x; intro _)))
    | (extract_lets +onlyGivenNames x; clear_value x)
    | split
    | dsimp only
    | fail_if_no_progress (with_reducible apply Kept.parts))

theorem recordAcked_kept (note : Nat × Nat × Nat) {z0 s : State} (hk : Kept z0 s) : Kept z0 (recordAcked note s) := by
  unfold recordAcked
  repeat' (first
    | with_reducible assumption
    | with_reducible apply updEntry_kept
    | with_reducible apply startWrites_kept
    | with_reducible apply Kept.ite
    | with_reducible apply Kept.foldl
    | intro _ _ _ _
    | intro _ _ _
    | intro _
    | (extract_lets +onlyGivenNames x; refine Kept.cut (t := x) ?_ ?_; (on_goal 1 => subst x); (on_goal 2 => (clear_value x; intro _)))
    | split)

theorem ackFlits_kept (x a : Nat) {z0 s : State} (hk : Kept z0 s) : Kept z0 (ackFlits x a s) := by
  unfold ackFlits
  repeat' (first
    | with_reducible assumption
    | with_reducible apply updTlk_kept
    | with_reducible apply pump_kept
    | with_reducible apply recordAcked_kept
    | with_reducible apply Kept.ite
    | with_reducible apply Kept.foldl
    | intro _ _ _ _
    | intro _ _ _
    | intro _
    | split)

theorem acceptFlit_kept (x kind : Nat) (b : List Byte) {z0 s : State} (hk : Kept z0 s) : Kept z0 (acceptFlit x kind b s) := by
  unfold acceptFlit
  repeat' (first
    | with_reducible assumption
    | with_reducible apply incFld_kept
    | with_reducible apply satFld_kept
    | with_reducible apply add64_kept
    | with_reducible apply updTlk_kept
    | with_reducible apply onlyIf_kept)

theorem flitReceived_kept (x : Nat) (b : List Byte) {z0 s : State} (hk : Kept z0 s) : Kept z0 (flitReceived x b s) := by
  unfold flitReceived
  repeat' (first
    | with_reducible assumption
    | with_reducible apply incFld_kept
    | with_reducible apply pump_kept
    | with_reducible apply sendIdle_kept
    | with_reducible apply sendNak_kept
    | with_reducible apply returnCredits_kept
    | with_reducible apply ackFlits_kept
    | with_reducible apply acceptFlit_kept
    | with_reducible apply Kept.ite)

theorem forward_kept (x : Nat) (k : MsgKind) (m : Msg) {z0 s : State} (hk : Kept z0 s) : Kept z0 (forward x k m s) := by
  unfold forward
  repeat' (first
    | with_reducible assumption
    | with_reducible apply hopDrop_kept
    | with_reducible apply routeMsg_kept
    | with_reducible apply Kept.ite
    | with_reducible apply Kept.foldl
    | with_reducible apply Kept.foldl_fst
    | intro _ _ _ _
    | intro _ _ _
    | intro _
    | (extract_lets +onlyGivenNames x; refine Kept.cut (t := x) ?_ ?_; (on_goal 1 => subst x); (on_goal 2 => (clear_value x; intro _)))
    | (extract_lets +onlyGivenNames x; clear_value x)
    | split
    | dsimp only
    | fail_if_no_progress (with_reducible apply Kept.parts))

theorem arrived_kept (m : Msg) (f : State → State) {z0 s : State} (h_f : ∀ r t, Kept r t → Kept r (f t)) (hk : Kept z0 s) : Kept z0 (arrived m f s) := by
  unfold arrived
  repeat' (first
    | with_reducible assumption
    | with_reducible apply h_f
    | with_reducible apply Kept.ite)

theorem resumeHeld_kept (p : Nat) {z0 s : State} (hk : Kept z0 s) : Kept z0 (resumeHeld p s) := by
  unfold resumeHeld
  repeat' (first
    | with_reducible assumption
    | with_reducible apply updEntry_kept
    | with_reducible apply startWrites_kept
    | with_reducible apply Kept.ite
    | with_reducible apply Kept.foldl
    | intro _ _ _ _
    | intro _ _ _)

theorem detach_kept (p : Nat) {z0 s : State} (hk : Kept z0 s) : Kept z0 (detach p s) := by
  unfold detach
  repeat' (first
    | with_reducible assumption
    | with_reducible apply updCache_kept
    | with_reducible apply updPlate_kept
    | with_reducible apply updEntry_kept
    | with_reducible apply cacheStaged_kept
    | with_reducible apply pmirShow_kept
    | with_reducible apply resumeHeld_kept
    | with_reducible apply Kept.ite
    | with_reducible apply Kept.foldl
    | intro _ _ _ _
    | intro _ _ _
    | intro _
    | (extract_lets +onlyGivenNames x; refine Kept.cut (t := x) ?_ ?_; (on_goal 1 => subst x); (on_goal 2 => (clear_value x; intro _)))
    | split)

theorem standbyLost_kept (p : Nat) (drop : Bool) {z0 s : State} (hk : Kept z0 s) : Kept z0 (standbyLost p drop s) := by
  unfold standbyLost
  repeat' (first
    | with_reducible assumption
    | with_reducible apply trtEvt_kept
    | with_reducible apply onlyIf_kept
    | with_reducible apply incFld_kept
    | with_reducible apply detach_kept
    | with_reducible apply Kept.ite
    | with_reducible apply Kept.foldl
    | with_reducible apply Kept.foldl_fst
    | intro _ _ _ _
    | intro _ _ _
    | intro _
    | (extract_lets +onlyGivenNames x; refine Kept.cut (t := x) ?_ ?_; (on_goal 1 => subst x); (on_goal 2 => (clear_value x; intro _)))
    | (extract_lets +onlyGivenNames x; clear_value x)
    | split
    | dsimp only
    | fail_if_no_progress (with_reducible apply Kept.parts))

theorem offer_kept (p : Nat) (x : Plate) (cmd : Bool) {z0 s : State} (hk : Kept z0 s) : Kept z0 (offer p x cmd s) := by
  unfold offer
  repeat' (first
    | with_reducible assumption
    | with_reducible apply sendMsg_kept
    | with_reducible apply attachOffer_kept
    | with_reducible apply updLink_kept
    | with_reducible apply plateResv_kept
    | with_reducible apply Kept.ite
    | with_reducible apply Kept.ident
    | with_reducible apply Kept.foldl
    | with_reducible apply Kept.foldl_fst
    | intro _ _ _ _
    | intro _ _ _
    | intro _
    | (extract_lets +onlyGivenNames x; refine Kept.cut (t := x) ?_ ?_; (on_goal 1 => subst x); (on_goal 2 => (clear_value x; intro _)))
    | (extract_lets +onlyGivenNames x; clear_value x)
    | split
    | dsimp only
    | fail_if_no_progress (with_reducible apply Kept.parts))

theorem trtEnd_kept (st : Status) {z0 s : State} (hk : Kept z0 s) : Kept z0 (trtEnd st s) := by
  unfold trtEnd
  repeat' (first
    | with_reducible assumption
    | with_reducible apply cmdEnd_kept)

theorem offerEnd_kept (p : Nat) (st : Status) {z0 s : State} (hk : Kept z0 s) : Kept z0 (offerEnd p st s) := by
  unfold offerEnd
  repeat' (first
    | with_reducible assumption
    | with_reducible apply updLink_kept
    | with_reducible apply trtEnd_kept
    | with_reducible apply Kept.ite
    | with_reducible apply Kept.foldl
    | intro _ _ _ _
    | intro _ _ _
    | intro _
    | (extract_lets +onlyGivenNames x; refine Kept.cut (t := x) ?_ ?_; (on_goal 1 => subst x); (on_goal 2 => (clear_value x; intro _)))
    | split)

theorem unname_kept (p : Nat) {z0 s : State} (hk : Kept z0 s) : Kept z0 (unname p s) := by
  unfold unname
  repeat' (first
    | with_reducible assumption
    | with_reducible apply updPlate_kept
    | with_reducible apply startLabel_kept)

theorem dropMirror_kept (id : Nat) {z0 s : State} (hk : Kept z0 s) : Kept z0 (dropMirror id s) := by
  unfold dropMirror
  repeat' (first
    | with_reducible assumption
    | with_reducible apply updLink_kept)

theorem dropHeld_kept (id : Nat) {z0 s : State} (hk : Kept z0 s) : Kept z0 (dropHeld id s) := by
  unfold dropHeld
  repeat' (first
    | with_reducible assumption
    | with_reducible apply updLink_kept
    | with_reducible apply dropMirror_kept)

theorem updHeld_kept (id : Nat) (f : HeldPlate → HeldPlate) {z0 s : State} (hk : Kept z0 s) : Kept z0 (updHeld id f s) := by
  unfold updHeld
  repeat' (first
    | with_reducible assumption
    | with_reducible apply updLink_kept
    | with_reducible apply Kept.ite
    | with_reducible apply Kept.ident
    | with_reducible apply Kept.foldl
    | intro _ _ _ _
    | intro _ _ _
    | intro _
    | split)

theorem takeStart_kept (id : Nat) {z0 s : State} (hk : Kept z0 s) : Kept z0 (takeStart id s) := by
  unfold takeStart
  repeat' (first
    | with_reducible assumption
    | with_reducible apply updHeld_kept
    | with_reducible apply resvSend_kept
    | with_reducible apply Kept.ite
    | with_reducible apply Kept.ident
    | with_reducible apply Kept.foldl
    | with_reducible apply Kept.foldl_fst
    | intro _ _ _ _
    | intro _ _ _
    | intro _
    | (extract_lets +onlyGivenNames x; refine Kept.cut (t := x) ?_ ?_; (on_goal 1 => subst x); (on_goal 2 => (clear_value x; intro _)))
    | (extract_lets +onlyGivenNames x; clear_value x)
    | split
    | dsimp only
    | fail_if_no_progress (with_reducible apply Kept.parts))

theorem takeEntry_kept (ix bps st : Nat) (b : List Byte) {z0 s : State} (hk : Kept z0 s) : Kept z0 (takeEntry ix bps st b s) := by
  unfold takeEntry
  repeat' (first
    | with_reducible assumption
    | with_reducible apply lostwAdd_kept
    | with_reducible apply replayPq_kept
    | with_reducible apply Kept.ite
    | with_reducible apply Kept.foldl
    | with_reducible apply Kept.foldl_fst
    | intro _ _ _ _
    | intro _ _ _
    | intro _
    | (extract_lets +onlyGivenNames x; refine Kept.cut (t := x) ?_ ?_; (on_goal 1 => subst x); (on_goal 2 => (clear_value x; intro _)))
    | (extract_lets +onlyGivenNames x; clear_value x)
    | split
    | dsimp only
    | fail_if_no_progress (with_reducible apply Kept.parts))

theorem takeReplay_kept (id : Nat) (h : HeldPlate) {z0 s : State} (hk : Kept z0 s) : Kept z0 (takeReplay id h s) := by
  unfold takeReplay
  repeat' (first
    | with_reducible assumption
    | with_reducible apply updHeld_kept
    | with_reducible apply takeEntry_kept
    | with_reducible apply replayMembers_kept
    | with_reducible apply presentReplay_kept
    | with_reducible apply Kept.ite
    | with_reducible apply Kept.ident
    | with_reducible apply Kept.foldl
    | with_reducible apply Kept.foldl_fst
    | intro _ _ _ _
    | intro _ _ _
    | intro _
    | (extract_lets +onlyGivenNames x; refine Kept.cut (t := x) ?_ ?_; (on_goal 1 => subst x); (on_goal 2 => (clear_value x; intro _)))
    | (extract_lets +onlyGivenNames x; clear_value x)
    | split
    | dsimp only
    | fail_if_no_progress (with_reducible apply Kept.parts))

theorem labelEnd_kept (p : Nat) {z0 s : State} (hk : Kept z0 s) : Kept z0 (labelEnd p s) := by
  unfold labelEnd
  repeat' (first
    | with_reducible assumption
    | with_reducible apply labelDone_kept
    | with_reducible apply takeReplay_kept
    | with_reducible apply Kept.ite
    | with_reducible apply Kept.foldl
    | intro _ _ _ _
    | intro _ _ _
    | intro _
    | (extract_lets +onlyGivenNames x; refine Kept.cut (t := x) ?_ ?_; (on_goal 1 => subst x); (on_goal 2 => (clear_value x; intro _)))
    | split)

theorem keepRecord_kept (m : Msg) (kind : Nat) {z0 s : State} (hk : Kept z0 s) : Kept z0 (keepRecord m kind s) := by
  unfold keepRecord
  repeat' (first
    | with_reducible assumption
    | with_reducible apply progAppend_kept
    | with_reducible apply arrived_kept
    | with_reducible apply Kept.ite
    | with_reducible apply Kept.foldl
    | intro _ _ _ _
    | intro _ _ _
    | intro _
    | (extract_lets +onlyGivenNames x; clear_value x)
    | split)

theorem attachOffer_kept (m : Msg) (reach resvOk : Bool) (found : List FoundNs) (media : List PlateMedia) {z0 s : State} (hk : Kept z0 s) : Kept z0 (attachOffer m reach resvOk found media s) := by
  unfold attachOffer
  repeat' (first
    | with_reducible assumption
    | with_reducible apply sendMsg_kept
    | with_reducible apply keySuspects_kept
    | with_reducible apply updLink_kept
    | with_reducible apply dropMirror_kept
    | with_reducible apply setFld_kept
    | with_reducible apply resvSend_kept
    | with_reducible apply Kept.ite
    | with_reducible apply Kept.ident
    | with_reducible apply Kept.foldl
    | with_reducible apply Kept.foldl_fst
    | intro _ _ _ _
    | intro _ _ _
    | intro _
    | (extract_lets +onlyGivenNames x; refine Kept.cut (t := x) ?_ ?_; (on_goal 1 => subst x); (on_goal 2 => (clear_value x; intro _)))
    | (extract_lets +onlyGivenNames x; clear_value x)
    | split
    | dsimp only
    | fail_if_no_progress (with_reducible apply Kept.parts))

theorem attachCmd_kept  {z0 s : State} (hk : Kept z0 s) : Kept z0 (attachCmd  s) := by
  unfold attachCmd
  repeat' (first
    | with_reducible assumption
    | with_reducible apply trtEnd_kept
    | with_reducible apply startLabel_kept
    | with_reducible apply updPlate_kept
    | with_reducible apply offer_kept
    | with_reducible apply Kept.ite
    | with_reducible apply Kept.foldl
    | with_reducible apply Kept.foldl_fst
    | intro _ _ _ _
    | intro _ _ _
    | intro _
    | (extract_lets +onlyGivenNames x; refine Kept.cut (t := x) ?_ ?_; (on_goal 1 => subst x); (on_goal 2 => (clear_value x; intro _)))
    | (extract_lets +onlyGivenNames x; clear_value x)
    | split
    | dsimp only
    | fail_if_no_progress (with_reducible apply Kept.parts))

theorem detachCmd_kept  {z0 s : State} (hk : Kept z0 s) : Kept z0 (detachCmd  s) := by
  unfold detachCmd
  repeat' (first
    | with_reducible assumption
    | with_reducible apply trtEnd_kept
    | with_reducible apply releaseResv_kept
    | with_reducible apply startLabel_kept
    | with_reducible apply updPlate_kept
    | with_reducible apply detach_kept
    | with_reducible apply offerEnd_kept
    | with_reducible apply Kept.ite
    | with_reducible apply Kept.foldl
    | with_reducible apply Kept.foldl_fst
    | intro _ _ _ _
    | intro _ _ _
    | intro _
    | (extract_lets +onlyGivenNames x; refine Kept.cut (t := x) ?_ ?_; (on_goal 1 => subst x); (on_goal 2 => (clear_value x; intro _)))
    | (extract_lets +onlyGivenNames x; clear_value x)
    | split
    | dsimp only
    | fail_if_no_progress (with_reducible apply Kept.parts))

theorem trtCmd_kept (w : Win) (op : Nat) (pars : List (FRef × Nat)) (act : State → State) {z0 s : State} (h_act : ∀ r t, Kept r t → Kept r (act t)) (hk : Kept z0 s) : Kept z0 (trtCmd w op pars act s) := by
  unfold trtCmd
  repeat' (first
    | with_reducible assumption
    | with_reducible apply h_act
    | with_reducible apply cmdWrite_kept
    | with_reducible apply cmdStart_kept
    | with_reducible apply attachCmd_kept
    | with_reducible apply detachCmd_kept
    | with_reducible apply Kept.ite
    | with_reducible apply Kept.foldl
    | with_reducible apply Kept.foldl_fst
    | intro _ _ _ _
    | intro _ _ _
    | intro _
    | (extract_lets +onlyGivenNames x; refine Kept.cut (t := x) ?_ ?_; (on_goal 1 => subst x); (on_goal 2 => (clear_value x; intro _)))
    | (extract_lets +onlyGivenNames x; clear_value x)
    | split
    | dsimp only
    | fail_if_no_progress (with_reducible apply Kept.parts))

theorem serve_kept (m : Msg) (op : NvOp) {z0 s : State} (hk : Kept z0 s) : Kept z0 (serve m op s) := by
  unfold serve
  repeat' (first
    | with_reducible assumption
    | with_reducible apply sendNv_kept
    | with_reducible apply Kept.ite)

end Sys2Proof.Machine
end

