-- ==== Sys2Proof/Laws/KeptMover.lean ====
section
/-! SUPPORT. What the operations of Machine/Mover.lean keep. -/

namespace Sys2Proof.Machine

theorem setStage_kept (j : Nat) (e : JEntry) (i o v : Nat) {z0 s : State} (hk : Kept z0 s) : Kept z0 (setStage j e i o v s) := by
  unfold setStage
  repeat' (first
    | with_reducible assumption
    | with_reducible apply updEntry_kept
    | with_reducible apply Kept.ite
    | with_reducible apply Kept.foldl
    | with_reducible apply Kept.foldl_fst
    | intro _ _ _ _
    | intro _ _ _
    | intro _
    | (extract_lets +onlyGivenNames x; refine Kept.cut (t := x) ?_ ?_; (on_goal 1 => subst x); (on_goal 2 => (clear_value x; intro _)))
    | (extract_lets +onlyGivenNames x; clear_value x)
    | split
    | dsimp only
    | fail_if_no_progress (with_reducible apply Kept.parts))

theorem writeByte_kept (space a v : Nat) {z0 s : State} (hk : Kept z0 s) : Kept z0 (writeByte space a v s) := by
  unfold writeByte
  repeat' (first
    | with_reducible assumption
    | with_reducible apply setStage_kept
    | with_reducible apply updMover_kept
    | with_reducible apply setRegion_kept
    | with_reducible apply Kept.ite
    | with_reducible apply Kept.foldl
    | with_reducible apply Kept.foldl_fst
    | intro _ _ _ _
    | intro _ _ _
    | intro _
    | (extract_lets +onlyGivenNames x; refine Kept.cut (t := x) ?_ ?_; (on_goal 1 => subst x); (on_goal 2 => (clear_value x; intro _)))
    | (extract_lets +onlyGivenNames x; clear_value x)
    | split
    | dsimp only
    | fail_if_no_progress (with_reducible apply Kept.parts))

theorem cutUnit_kept (c kind : Nat) {z0 s : State} (hk : Kept z0 s) : Kept z0 (cutUnit c kind s) := by
  unfold cutUnit
  repeat' (first
    | with_reducible assumption
    | with_reducible apply updMch_kept)

theorem stopCh_kept (c : Nat) {z0 s : State} (hk : Kept z0 s) : Kept z0 (stopCh c s) := by
  unfold stopCh
  repeat' (first
    | with_reducible assumption
    | with_reducible apply showMover_kept
    | with_reducible apply chooseUnit_kept
    | with_reducible apply idleCh_kept
    | with_reducible apply releaseMover_kept
    | with_reducible apply cutUnit_kept
    | with_reducible apply Kept.ite)

theorem moverFence_kept (p : Nat) {z0 s : State} (hk : Kept z0 s) : Kept z0 (moverFence p s) := by
  unfold moverFence
  repeat' (first
    | with_reducible assumption
    | with_reducible apply cutUnit_kept
    | with_reducible apply chooseUnit_kept
    | with_reducible apply releaseMover_kept
    | with_reducible apply setFld_kept
    | with_reducible apply ownDone_kept
    | with_reducible apply Kept.ite
    | with_reducible apply Kept.foldl
    | with_reducible apply Kept.foldl_fst
    | intro _ _ _ _
    | intro _ _ _
    | intro _
    | (extract_lets +onlyGivenNames x; refine Kept.cut (t := x) ?_ ?_; (on_goal 1 => subst x); (on_goal 2 => (clear_value x; intro _)))
    | (extract_lets +onlyGivenNames x; clear_value x)
    | split
    | dsimp only
    | fail_if_no_progress (with_reducible apply Kept.parts))

theorem touchLine_kept (wr : Bool) (a n : Nat) {z0 s : State} (hk : Kept z0 s) : Kept z0 (touchLine wr a n s) := by
  unfold touchLine
  repeat' (first
    | with_reducible assumption
    | with_reducible apply access_kept
    | with_reducible apply Kept.ite
    | with_reducible apply Kept.foldl
    | with_reducible apply Kept.foldl_fst
    | intro _ _ _ _
    | intro _ _ _
    | intro _
    | (extract_lets +onlyGivenNames x; refine Kept.cut (t := x) ?_ ?_; (on_goal 1 => subst x); (on_goal 2 => (clear_value x; intro _)))
    | (extract_lets +onlyGivenNames x; clear_value x)
    | split
    | dsimp only
    | fail_if_no_progress (with_reducible apply Kept.parts))

theorem descRead_kept (space a : Nat) {z0 s : State} (hk : Kept z0 s) : Kept z0 (descRead space a s) := by
  unfold descRead
  repeat' (first
    | with_reducible assumption
    | with_reducible apply touchLine_kept
    | with_reducible apply Kept.ite
    | with_reducible apply Kept.foldl
    | with_reducible apply Kept.foldl_fst
    | intro _ _ _ _
    | intro _ _ _
    | intro _
    | (extract_lets +onlyGivenNames x; refine Kept.cut (t := x) ?_ ?_; (on_goal 1 => subst x); (on_goal 2 => (clear_value x; intro _)))
    | (extract_lets +onlyGivenNames x; clear_value x)
    | split
    | dsimp only
    | fail_if_no_progress (with_reducible apply Kept.parts))

theorem descWrite_kept (space a : Nat) (v : List Byte) {z0 s : State} (hk : Kept z0 s) : Kept z0 (descWrite space a v s) := by
  unfold descWrite
  repeat' (first
    | with_reducible assumption
    | with_reducible apply writeByte_kept
    | with_reducible apply touchLine_kept
    | with_reducible apply Kept.ite
    | with_reducible apply Kept.foldl
    | with_reducible apply Kept.foldl_fst
    | intro _ _ _ _
    | intro _ _ _
    | intro _
    | (extract_lets +onlyGivenNames x; refine Kept.cut (t := x) ?_ ?_; (on_goal 1 => subst x); (on_goal 2 => (clear_value x; intro _)))
    | (extract_lets +onlyGivenNames x; clear_value x)
    | split
    | dsimp only
    | fail_if_no_progress (with_reducible apply Kept.parts))

theorem memErr_kept (space a c : Nat) (errs : List DevErr) {z0 s : State} (hk : Kept z0 s) : Kept z0 (memErr space a c errs s) := by
  unfold memErr
  repeat' (first
    | with_reducible assumption
    | with_reducible apply report_kept
    | with_reducible apply burstRead_kept
    | with_reducible apply Kept.ite
    | with_reducible apply Kept.foldl
    | with_reducible apply Kept.foldl_fst
    | intro _ _ _ _
    | intro _ _ _
    | intro _
    | (extract_lets +onlyGivenNames x; refine Kept.cut (t := x) ?_ ?_; (on_goal 1 => subst x); (on_goal 2 => (clear_value x; intro _)))
    | (extract_lets +onlyGivenNames x; clear_value x)
    | split
    | dsimp only
    | fail_if_no_progress (with_reducible apply Kept.parts))

theorem fetchDesc_kept (c : Nat) (ue : Option MoveErr) {z0 s : State} (hk : Kept z0 s) : Kept z0 (fetchDesc c ue s) := by
  unfold fetchDesc
  repeat' (first
    | with_reducible assumption
    | with_reducible apply descRead_kept
    | with_reducible apply memErr_kept
    | with_reducible apply setEvt_kept
    | with_reducible apply chooseUnit_kept
    | with_reducible apply releaseMover_kept
    | with_reducible apply idleCh_kept
    | with_reducible apply updMch_kept
    | with_reducible apply setDesc_kept
    | with_reducible apply useFresh_kept
    | with_reducible apply setFld_kept
    | with_reducible apply startUnit_kept
    | with_reducible apply Kept.ite
    | with_reducible apply Kept.foldl
    | with_reducible apply Kept.foldl_fst
    | intro _ _ _ _
    | intro _ _ _
    | intro _
    | (extract_lets +onlyGivenNames x; refine Kept.cut (t := x) ?_ ?_; (on_goal 1 => subst x); (on_goal 2 => (clear_value x; intro _)))
    | (extract_lets +onlyGivenNames x; clear_value x)
    | split
    | dsimp only
    | fail_if_no_progress (with_reducible apply Kept.parts))

theorem touchDram_kept (b : List Byte) (d : Side) (wr : Bool) (p n : Nat) {z0 s : State} (hk : Kept z0 s) : Kept z0 (touchDram b d wr p n s) := by
  unfold touchDram
  repeat' (first
    | with_reducible assumption
    | with_reducible apply touchLine_kept
    | with_reducible apply Kept.ite
    | with_reducible apply Kept.foldl
    | with_reducible apply Kept.foldl_fst
    | intro _ _ _ _
    | intro _ _ _
    | intro _
    | (extract_lets +onlyGivenNames x; refine Kept.cut (t := x) ?_ ?_; (on_goal 1 => subst x); (on_goal 2 => (clear_value x; intro _)))
    | (extract_lets +onlyGivenNames x; clear_value x)
    | split
    | dsimp only
    | fail_if_no_progress (with_reducible apply Kept.parts))

theorem hostFetch_kept (b : List Byte) (d : Side) (p n : Nat) (h : HostRd) {z0 s : State} (hk : Kept z0 s) : Kept z0 (hostFetch b d p n h s) := by
  unfold hostFetch
  repeat' (first
    | with_reducible assumption
    | with_reducible apply emit_kept
    | with_reducible apply hostRead_kept
    | with_reducible apply updIo_kept
    | with_reducible apply readEnded_kept
    | with_reducible apply Kept.ite
    | with_reducible apply Kept.foldl
    | with_reducible apply Kept.foldl_fst
    | intro _ _ _ _
    | intro _ _ _
    | intro _
    | (extract_lets +onlyGivenNames x; refine Kept.cut (t := x) ?_ ?_; (on_goal 1 => subst x); (on_goal 2 => (clear_value x; intro _)))
    | (extract_lets +onlyGivenNames x; clear_value x)
    | split
    | dsimp only
    | fail_if_no_progress (with_reducible apply Kept.parts))

theorem sideFetch_kept (b : List Byte) (d : Side) (p n : Nat) (h : HostRd) {z0 s : State} (hk : Kept z0 s) : Kept z0 (sideFetch b d p n h s) := by
  unfold sideFetch
  repeat' (first
    | with_reducible assumption
    | with_reducible apply touchDram_kept
    | with_reducible apply hostFetch_kept
    | with_reducible apply Kept.ite
    | with_reducible apply Kept.foldl
    | with_reducible apply Kept.foldl_fst
    | intro _ _ _ _
    | intro _ _ _
    | intro _
    | (extract_lets +onlyGivenNames x; refine Kept.cut (t := x) ?_ ?_; (on_goal 1 => subst x); (on_goal 2 => (clear_value x; intro _)))
    | (extract_lets +onlyGivenNames x; clear_value x)
    | split
    | dsimp only
    | fail_if_no_progress (with_reducible apply Kept.parts))

theorem sideWrite_kept (b : List Byte) (d : Side) (p : Nat) (v : List Nat) {z0 s : State} (hk : Kept z0 s) : Kept z0 (sideWrite b d p v s) := by
  unfold sideWrite
  repeat' (first
    | with_reducible assumption
    | with_reducible apply hostWrite_kept
    | with_reducible apply writeByte_kept
    | with_reducible apply touchDram_kept
    | with_reducible apply Kept.ite
    | with_reducible apply Kept.foldl
    | with_reducible apply Kept.foldl_fst
    | intro _ _ _ _
    | intro _ _ _
    | intro _
    | (extract_lets +onlyGivenNames x; refine Kept.cut (t := x) ?_ ?_; (on_goal 1 => subst x); (on_goal 2 => (clear_value x; intro _)))
    | (extract_lets +onlyGivenNames x; clear_value x)
    | split
    | dsimp only
    | fail_if_no_progress (with_reducible apply Kept.parts))

theorem moved_kept (c n : Nat) {z0 s : State} (hk : Kept z0 s) : Kept z0 (moved c n s) := by
  unfold moved
  repeat' (first
    | with_reducible assumption
    | with_reducible apply add64_kept
    | with_reducible apply updMch_kept)

theorem badBurst_kept (c k r : Nat) {z0 s : State} (hk : Kept z0 s) : Kept z0 (badBurst c k r s) := by
  unfold badBurst
  repeat' (first
    | with_reducible assumption
    | with_reducible apply updMch_kept)

theorem sideErr_kept (b : List Byte) (d : Side) (c p : Nat) (e : MoveErr) {z0 s : State} (hk : Kept z0 s) : Kept z0 (sideErr b d c p e s) := by
  unfold sideErr
  repeat' (first
    | with_reducible assumption
    | with_reducible apply memErr_kept
    | with_reducible apply Kept.ite
    | with_reducible apply Kept.foldl
    | with_reducible apply Kept.foldl_fst
    | intro _ _ _ _
    | intro _ _ _
    | intro _
    | (extract_lets +onlyGivenNames x; refine Kept.cut (t := x) ?_ ?_; (on_goal 1 => subst x); (on_goal 2 => (clear_value x; intro _)))
    | (extract_lets +onlyGivenNames x; clear_value x)
    | split
    | dsimp only
    | fail_if_no_progress (with_reducible apply Kept.parts))

theorem spendAllow_kept (c : Nat) (b : List Byte) (n : Nat) {z0 s : State} (hk : Kept z0 s) : Kept z0 (spendAllow c b n s) := by
  unfold spendAllow
  repeat' (first
    | with_reducible assumption
    | with_reducible apply updMover_kept
    | with_reducible apply Kept.ite
    | with_reducible apply Kept.foldl
    | with_reducible apply Kept.foldl_fst
    | intro _ _ _ _
    | intro _ _ _
    | intro _
    | (extract_lets +onlyGivenNames x; refine Kept.cut (t := x) ?_ ?_; (on_goal 1 => subst x); (on_goal 2 => (clear_value x; intro _)))
    | (extract_lets +onlyGivenNames x; clear_value x)
    | split
    | dsimp only
    | fail_if_no_progress (with_reducible apply Kept.parts))

theorem burst_kept (h1 h2 : HostRd) (ue : Option MoveErr) {z0 s : State} (hk : Kept z0 s) : Kept z0 (burst h1 h2 ue s) := by
  unfold burst
  repeat' (first
    | with_reducible assumption
    | with_reducible apply updMch_kept
    | with_reducible apply spendAllow_kept
    | with_reducible apply decFld_kept
    | with_reducible apply useFresh_kept
    | with_reducible apply sideFetch_kept
    | with_reducible apply sideErr_kept
    | with_reducible apply badBurst_kept
    | with_reducible apply moved_kept
    | with_reducible apply sideWrite_kept
    | with_reducible apply Kept.ite
    | with_reducible apply Kept.foldl
    | with_reducible apply Kept.foldl_fst
    | intro _ _ _ _
    | intro _ _ _
    | intro _
    | (extract_lets +onlyGivenNames x; refine Kept.cut (t := x) ?_ ?_; (on_goal 1 => subst x); (on_goal 2 => (clear_value x; intro _)))
    | (extract_lets +onlyGivenNames x; clear_value x)
    | split
    | dsimp only
    | fail_if_no_progress (with_reducible apply Kept.parts))

theorem moverReset_kept (port : Nat) (fs : List Nat) {z0 s : State} (hk : Kept z0 s) : Kept z0 (moverReset port fs s) := by
  unfold moverReset
  repeat' (first
    | with_reducible assumption
    | with_reducible apply cutUnit_kept
    | with_reducible apply Kept.ite
    | with_reducible apply Kept.foldl
    | intro _ _ _ _
    | intro _ _ _
    | intro _
    | (extract_lets +onlyGivenNames x; clear_value x)
    | split)

theorem unitEnd_kept  {z0 s : State} (hk : Kept z0 s) : Kept z0 (unitEnd  s) := by
  unfold unitEnd
  repeat' (first
    | with_reducible assumption
    | with_reducible apply ownDone_kept
    | with_reducible apply setFld_kept
    | with_reducible apply descWrite_kept
    | with_reducible apply incFld_kept
    | with_reducible apply setEvt_kept
    | with_reducible apply idleCh_kept
    | with_reducible apply updMch_kept
    | with_reducible apply chooseUnit_kept
    | with_reducible apply releaseMover_kept
    | with_reducible apply Kept.ite
    | with_reducible apply Kept.foldl
    | with_reducible apply Kept.foldl_fst
    | intro _ _ _ _
    | intro _ _ _
    | intro _
    | (extract_lets +onlyGivenNames x; refine Kept.cut (t := x) ?_ ?_; (on_goal 1 => subst x); (on_goal 2 => (clear_value x; intro _)))
    | (extract_lets +onlyGivenNames x; clear_value x)
    | split
    | dsimp only
    | fail_if_no_progress (with_reducible apply Kept.parts))

end Sys2Proof.Machine
end

