-- ==== Sys2Proof/Laws/KeptIcu.lean ====
section
/-! SUPPORT. What the operations of Machine/Icu.lean keep. -/

namespace Sys2Proof.Machine

theorem updIcu_kept (f : IcuSt → IcuSt) {z0 s : State} (hk : Kept z0 s) : Kept z0 (updIcu f s) := Kept.parts hk

theorem setLatch_kept (src : Nat) {z0 s : State} (hk : Kept z0 s) : Kept z0 (setLatch src s) := by
  unfold setLatch
  repeat' (first
    | with_reducible assumption
    | with_reducible apply setFld_kept
    | with_reducible apply updIcu_kept
    | with_reducible apply Kept.ite)

theorem clearLatch_kept (src : Nat) {z0 s : State} (hk : Kept z0 s) : Kept z0 (clearLatch src s) := by
  unfold clearLatch
  repeat' (first
    | with_reducible assumption
    | with_reducible apply setFld_kept
    | with_reducible apply updIcu_kept
    | with_reducible apply Kept.ite)

theorem moderate_kept (src : Nat) {z0 s : State} (hk : Kept z0 s) : Kept z0 (moderate src s) := by
  unfold moderate
  repeat' (first
    | with_reducible assumption
    | with_reducible apply updIcu_kept
    | with_reducible apply Kept.ite)

theorem sendSource_kept (src : Nat) {z0 s : State} (hk : Kept z0 s) : Kept z0 (sendSource src s) := by
  unfold sendSource
  repeat' (first
    | with_reducible assumption
    | with_reducible apply incFld_kept
    | with_reducible apply hostMsg_kept
    | with_reducible apply Kept.ite)

theorem hostSend_kept (src : Nat) {z0 s : State} (hk : Kept z0 s) : Kept z0 (hostSend src s) := by
  unfold hostSend
  repeat' (first
    | with_reducible assumption
    | with_reducible apply incFld_kept
    | with_reducible apply updIcu_kept
    | with_reducible apply clearLatch_kept
    | with_reducible apply moderate_kept
    | with_reducible apply sendSource_kept
    | with_reducible apply Kept.ite)

theorem icuHost_kept  {z0 s : State} (hk : Kept z0 s) : Kept z0 (icuHost s) := by
  unfold icuHost
  repeat' (first
    | with_reducible assumption
    | with_reducible apply hostSend_kept
    | with_reducible apply Kept.ite
    | with_reducible apply Kept.foldl
    | intro _ _ _ _
    | intro _ _ _)

theorem showPrio_kept  {z0 s : State} (hk : Kept z0 s) : Kept z0 (showPrio s) := by
  unfold showPrio
  repeat' (first
    | with_reducible assumption
    | with_reducible apply setFld_kept
    | with_reducible apply Kept.ite
    | with_reducible apply Kept.foldl
    | intro _ _ _ _
    | intro _ _ _)

theorem endClaim_kept (src : Nat) {z0 s : State} (hk : Kept z0 s) : Kept z0 (endClaim src s) := by
  unfold endClaim
  repeat' (first
    | with_reducible assumption
    | with_reducible apply updIcu_kept
    | with_reducible apply showPrio_kept)

theorem claimIrq_kept (n : Nat) (gone : Bool) {z0 s : State} (hk : Kept z0 s) : Kept z0 (claimIrq n gone s) := by
  unfold claimIrq
  repeat' (first
    | with_reducible assumption
    | with_reducible apply updIcu_kept
    | with_reducible apply moved_kept
    | with_reducible apply moderate_kept
    | with_reducible apply clearLatch_kept
    | with_reducible apply setFld_kept
    | with_reducible apply incFld_kept
    | with_reducible apply showPrio_kept
    | with_reducible apply emit_kept
    | with_reducible apply setEvt_kept
    | with_reducible apply endClaim_kept
    | with_reducible apply Kept.ite
    | with_reducible apply Kept.foldl
    | with_reducible apply Kept.foldl_fst
    | intro _ _ _ _
    | intro _ _ _
    | intro _
    | (extract_lets +onlyGivenNames x; refine Kept.cut (t := x) ?_ ?_; (on_goal 1 => subst x); (on_goal 2 => (clear_value x; intro _)))
    | (extract_lets +onlyGivenNames x; clear_value x)
    | split
    | dsimp only
    | fail_if_no_progress (with_reducible apply Kept.parts))

theorem coreOff_kept (n : Nat) {z0 s : State} (hk : Kept z0 s) : Kept z0 (coreOff n s) := by
  unfold coreOff
  repeat' (first
    | with_reducible assumption
    | with_reducible apply setFld_kept
    | with_reducible apply setLatch_kept
    | with_reducible apply endClaim_kept
    | with_reducible apply Kept.ite
    | with_reducible apply Kept.foldl
    | intro _ _ _ _
    | intro _ _ _)

theorem lineEdge_kept (src : Nat) (level : Bool) {z0 s : State} (hk : Kept z0 s) : Kept z0 (lineEdge src level s) := by
  unfold lineEdge
  repeat' (first
    | with_reducible assumption
    | with_reducible apply updIcu_kept
    | with_reducible apply setLatch_kept
    | with_reducible apply icuHost_kept
    | with_reducible apply Kept.ite)

theorem eoi_kept (n src : Nat) {z0 s : State} (hk : Kept z0 s) : Kept z0 (eoi n src s) := by
  unfold eoi
  repeat' (first
    | with_reducible assumption
    | with_reducible apply setEvt_kept
    | with_reducible apply endClaim_kept
    | with_reducible apply Kept.ite)

theorem fallback_kept (src : Nat) {z0 s : State} (hk : Kept z0 s) : Kept z0 (fallback src s) := by
  unfold fallback
  repeat' (first
    | with_reducible assumption
    | with_reducible apply incFld_kept
    | with_reducible apply setEvt_kept
    | with_reducible apply moved_kept
    | with_reducible apply updIcu_kept
    | with_reducible apply Kept.ite
    | with_reducible apply Kept.foldl
    | intro _ _ _ _
    | intro _ _ _
    | intro _
    | (extract_lets +onlyGivenNames x; clear_value x)
    | split)

end Sys2Proof.Machine
end

