-- ==== Sys2Proof/Laws/KeptVolumes.lean ====
section
/-! SUPPORT. What the operations of Machine/Volumes.lean keep. -/

namespace Sys2Proof.Machine

theorem setTries_kept (n k : Nat) {z0 s : State} (hk : Kept z0 s) : Kept z0 (setTries n k s) := by
  unfold setTries
  repeat' (first
    | with_reducible assumption
    | with_reducible apply updCmd_kept)

theorem volInfo_kept (n : Nat) (x : Cmd) {z0 s : State} (hk : Kept z0 s) : Kept z0 (volInfo n x s) := by
  unfold volInfo
  repeat' (first
    | with_reducible assumption
    | with_reducible apply endCmd_kept
    | with_reducible apply adminOut_kept
    | with_reducible apply adminOk_kept
    | with_reducible apply Kept.ite
    | with_reducible apply Kept.foldl
    | intro _ _ _ _
    | intro _ _ _
    | intro _
    | split)

theorem placeExtents_kept (v : Nat) (l : List (Nat × Nat × Nat)) {z0 s : State} (hk : Kept z0 s) : Kept z0 (placeExtents v l s) := by
  unfold placeExtents
  repeat' (first
    | with_reducible assumption
    | with_reducible apply catChange_kept
    | with_reducible apply Kept.ite
    | with_reducible apply Kept.foldl
    | intro _ _ _ _
    | intro _ _ _)

theorem adoptVolume_kept (n : Nat) (x : Cmd) {z0 s : State} (hk : Kept z0 s) : Kept z0 (adoptVolume n x s) := by
  unfold adoptVolume
  repeat' (first
    | with_reducible assumption
    | with_reducible apply endCmd_kept
    | with_reducible apply adminOk_kept
    | with_reducible apply volWrite_kept
    | with_reducible apply Kept.ite
    | with_reducible apply Kept.ident
    | with_reducible apply Kept.foldl
    | with_reducible apply Kept.foldl_fst
    | intro _ _ _ _
    | intro _ _ _
    | intro _
    | (extract_lets +onlyGivenNames x; refine Kept.cut (t := x) ?_ ?_; (on_goal 1 => subst x); (on_goal 2 => (clear_value x; intro _)))
    | (extract_lets +onlyGivenNames x; clear_value x)
    | split
    | dsimp only
    | fail_if_no_progress (with_reducible apply Kept.parts))

theorem createVolume_kept (n : Nat) (x : Cmd) {z0 s : State} (hk : Kept z0 s) : Kept z0 (createVolume n x s) := by
  unfold createVolume
  repeat' (first
    | with_reducible assumption
    | with_reducible apply adminOk_kept
    | with_reducible apply adoptVolume_kept
    | with_reducible apply endCmd_kept
    | with_reducible apply setTries_kept
    | with_reducible apply volWrite_kept
    | with_reducible apply placeExtents_kept
    | with_reducible apply Kept.ite
    | with_reducible apply Kept.foldl
    | with_reducible apply Kept.foldl_fst
    | intro _ _ _ _
    | intro _ _ _
    | intro _
    | (extract_lets +onlyGivenNames x; refine Kept.cut (t := x) ?_ ?_; (on_goal 1 => subst x); (on_goal 2 => (clear_value x; intro _)))
    | (extract_lets +onlyGivenNames x; clear_value x)
    | split
    | dsimp only
    | fail_if_no_progress (with_reducible apply Kept.parts))

theorem freeExtents_kept (n v x0 : Nat) (x : Cmd) (fin : State → State) {z0 s : State} (h_fin : ∀ r t, Kept r t → Kept r (fin t)) (hk : Kept z0 s) : Kept z0 (freeExtents n v x0 x fin s) := by
  unfold freeExtents
  repeat' (first
    | with_reducible assumption
    | with_reducible apply h_fin
    | with_reducible apply presentZero_kept
    | with_reducible apply setTries_kept
    | with_reducible apply endCmd_kept
    | with_reducible apply clearSlot_kept
    | with_reducible apply Kept.ite
    | with_reducible apply Kept.foldl
    | with_reducible apply Kept.foldl_fst
    | intro _ _ _ _
    | intro _ _ _
    | intro _
    | (extract_lets +onlyGivenNames x; refine Kept.cut (t := x) ?_ ?_; (on_goal 1 => subst x); (on_goal 2 => (clear_value x; intro _)))
    | (extract_lets +onlyGivenNames x; clear_value x)
    | split
    | dsimp only
    | fail_if_no_progress (with_reducible apply Kept.parts))

theorem deleteVolume_kept (n : Nat) (x : Cmd) {z0 s : State} (hk : Kept z0 s) : Kept z0 (deleteVolume n x s) := by
  unfold deleteVolume
  repeat' (first
    | with_reducible assumption
    | with_reducible apply endCmd_kept
    | with_reducible apply freeExtents_kept
    | with_reducible apply adminOk_kept
    | with_reducible apply volGone_kept
    | with_reducible apply setTries_kept
    | with_reducible apply volWrite_kept
    | with_reducible apply Kept.ite
    | with_reducible apply Kept.foldl
    | with_reducible apply Kept.foldl_fst
    | intro _ _ _ _
    | intro _ _ _
    | intro _
    | (extract_lets +onlyGivenNames x; refine Kept.cut (t := x) ?_ ?_; (on_goal 1 => subst x); (on_goal 2 => (clear_value x; intro _)))
    | (extract_lets +onlyGivenNames x; clear_value x)
    | split
    | dsimp only
    | fail_if_no_progress (with_reducible apply Kept.parts))

theorem shrinkEnd_kept (n v size : Nat) (x : Cmd) {z0 s : State} (hk : Kept z0 s) : Kept z0 (shrinkEnd n v size x s) := by
  unfold shrinkEnd
  repeat' (first
    | with_reducible assumption
    | with_reducible apply adminOk_kept
    | with_reducible apply volWrite_kept
    | with_reducible apply volLostDel_kept
    | with_reducible apply Kept.ite
    | with_reducible apply Kept.foldl
    | with_reducible apply Kept.foldl_fst
    | intro _ _ _ _
    | intro _ _ _
    | intro _
    | (extract_lets +onlyGivenNames x; refine Kept.cut (t := x) ?_ ?_; (on_goal 1 => subst x); (on_goal 2 => (clear_value x; intro _)))
    | (extract_lets +onlyGivenNames x; clear_value x)
    | split
    | dsimp only
    | fail_if_no_progress (with_reducible apply Kept.parts))

theorem resizeVolume_kept (n : Nat) (x : Cmd) {z0 s : State} (hk : Kept z0 s) : Kept z0 (resizeVolume n x s) := by
  unfold resizeVolume
  repeat' (first
    | with_reducible assumption
    | with_reducible apply endCmd_kept
    | with_reducible apply adminOk_kept
    | with_reducible apply freeExtents_kept
    | with_reducible apply shrinkEnd_kept
    | with_reducible apply setTries_kept
    | with_reducible apply updCmd_kept
    | with_reducible apply volWrite_kept
    | with_reducible apply placeExtents_kept
    | with_reducible apply Kept.ite
    | with_reducible apply Kept.ident
    | with_reducible apply Kept.foldl
    | with_reducible apply Kept.foldl_fst
    | intro _ _ _ _
    | intro _ _ _
    | intro _
    | (extract_lets +onlyGivenNames x; refine Kept.cut (t := x) ?_ ?_; (on_goal 1 => subst x); (on_goal 2 => (clear_value x; intro _)))
    | (extract_lets +onlyGivenNames x; clear_value x)
    | split
    | dsimp only
    | fail_if_no_progress (with_reducible apply Kept.parts))

theorem attachVolume_kept (n : Nat) (x : Cmd) {z0 s : State} (hk : Kept z0 s) : Kept z0 (attachVolume n x s) := by
  unfold attachVolume
  repeat' (first
    | with_reducible assumption
    | with_reducible apply endCmd_kept
    | with_reducible apply adminOk_kept
    | with_reducible apply volWrite_kept
    | with_reducible apply Kept.ite
    | with_reducible apply Kept.foldl
    | with_reducible apply Kept.foldl_fst
    | intro _ _ _ _
    | intro _ _ _
    | intro _
    | (extract_lets +onlyGivenNames x; refine Kept.cut (t := x) ?_ ?_; (on_goal 1 => subst x); (on_goal 2 => (clear_value x; intro _)))
    | (extract_lets +onlyGivenNames x; clear_value x)
    | split
    | dsimp only
    | fail_if_no_progress (with_reducible apply Kept.parts))

theorem detachVolume_kept (n : Nat) (x : Cmd) {z0 s : State} (hk : Kept z0 s) : Kept z0 (detachVolume n x s) := by
  unfold detachVolume
  repeat' (first
    | with_reducible assumption
    | with_reducible apply endCmd_kept
    | with_reducible apply adminOk_kept
    | with_reducible apply volWrite_kept
    | with_reducible apply Kept.ite
    | with_reducible apply Kept.foldl
    | with_reducible apply Kept.foldl_fst
    | intro _ _ _ _
    | intro _ _ _
    | intro _
    | (extract_lets +onlyGivenNames x; refine Kept.cut (t := x) ?_ ?_; (on_goal 1 => subst x); (on_goal 2 => (clear_value x; intro _)))
    | (extract_lets +onlyGivenNames x; clear_value x)
    | split
    | dsimp only
    | fail_if_no_progress (with_reducible apply Kept.parts))

theorem getLostWrites_kept (n : Nat) (x : Cmd) {z0 s : State} (hk : Kept z0 s) : Kept z0 (getLostWrites n x s) := by
  unfold getLostWrites
  repeat' (first
    | with_reducible assumption
    | with_reducible apply adminOut_kept
    | with_reducible apply adminOk_kept)

theorem zeroReq_kept (p m lba n : Nat) {z0 s : State} (hk : Kept z0 s) : Kept z0 (zeroReq p m lba n s) := by
  unfold zeroReq
  repeat' (first
    | with_reducible assumption
    | with_reducible apply sendNv_kept
    | with_reducible apply Kept.ite
    | with_reducible apply Kept.foldl
    | intro _ _ _ _
    | intro _ _ _
    | intro _
    | split)

theorem initPlate_kept (p : Nat) {z0 s : State} (hk : Kept z0 s) : Kept z0 (initPlate p s) := by
  unfold initPlate
  repeat' (first
    | with_reducible assumption
    | with_reducible apply writeLbt_kept
    | with_reducible apply startLabel_kept
    | with_reducible apply writeCat_kept
    | with_reducible apply zeroReq_kept
    | with_reducible apply Kept.ite
    | with_reducible apply Kept.foldl
    | with_reducible apply Kept.foldl_fst
    | intro _ _ _ _
    | intro _ _ _
    | intro _
    | (extract_lets +onlyGivenNames x; refine Kept.cut (t := x) ?_ ?_; (on_goal 1 => subst x); (on_goal 2 => (clear_value x; intro _)))
    | (extract_lets +onlyGivenNames x; clear_value x)
    | split
    | dsimp only
    | fail_if_no_progress (with_reducible apply Kept.parts))

theorem buildStep_kept (n : Nat) (x : Cmd) (p : Nat) {z0 s : State} (hk : Kept z0 s) : Kept z0 (buildStep n x p s) := by
  unfold buildStep
  repeat' (first
    | with_reducible assumption
    | with_reducible apply endCmd_kept
    | with_reducible apply setTries_kept
    | with_reducible apply joinPair_kept
    | with_reducible apply startLabel_kept
    | with_reducible apply updPlate_kept
    | with_reducible apply sendClaims_kept
    | with_reducible apply plateResv_kept
    | with_reducible apply adminOk_kept
    | with_reducible apply offer_kept
    | with_reducible apply Kept.ite
    | with_reducible apply Kept.ident
    | with_reducible apply Kept.foldl
    | with_reducible apply Kept.foldl_fst
    | intro _ _ _ _
    | intro _ _ _
    | intro _
    | (extract_lets +onlyGivenNames x; refine Kept.cut (t := x) ?_ ?_; (on_goal 1 => subst x); (on_goal 2 => (clear_value x; intro _)))
    | (extract_lets +onlyGivenNames x; clear_value x)
    | split
    | dsimp only
    | fail_if_no_progress (with_reducible apply Kept.parts))

theorem createPlate_kept (n : Nat) (page : HostRd) (f : PlateFacts) (x : Cmd) {z0 s : State} (hk : Kept z0 s) : Kept z0 (createPlate n page f x s) := by
  unfold createPlate
  repeat' (first
    | with_reducible assumption
    | with_reducible apply setFld_kept
    | with_reducible apply updStore_kept
    | with_reducible apply updCmd_kept
    | with_reducible apply endCmd_kept
    | with_reducible apply initPlate_kept
    | with_reducible apply buildStep_kept
    | with_reducible apply Kept.ite
    | with_reducible apply Kept.foldl
    | intro _ _ _ _
    | intro _ _ _
    | intro _
    | (extract_lets +onlyGivenNames x; refine Kept.cut (t := x) ?_ ?_; (on_goal 1 => subst x); (on_goal 2 => (clear_value x; intro _)))
    | (extract_lets +onlyGivenNames x; clear_value x)
    | split)

theorem wipeLabels_kept (x : Plate) {z0 s : State} (hk : Kept z0 s) : Kept z0 (wipeLabels x s) := by
  unfold wipeLabels
  repeat' (first
    | with_reducible assumption
    | with_reducible apply sendNv_kept
    | with_reducible apply updDport_kept
    | with_reducible apply Kept.ite
    | with_reducible apply Kept.foldl
    | with_reducible apply Kept.foldl_fst
    | intro _ _ _ _
    | intro _ _ _
    | intro _
    | (extract_lets +onlyGivenNames x; refine Kept.cut (t := x) ?_ ?_; (on_goal 1 => subst x); (on_goal 2 => (clear_value x; intro _)))
    | (extract_lets +onlyGivenNames x; clear_value x)
    | split
    | dsimp only
    | fail_if_no_progress (with_reducible apply Kept.parts))

theorem deletePlate_kept (n : Nat) (x : Cmd) {z0 s : State} (hk : Kept z0 s) : Kept z0 (deletePlate n x s) := by
  unfold deletePlate
  repeat' (first
    | with_reducible assumption
    | with_reducible apply setFld_kept
    | with_reducible apply updStore_kept
    | with_reducible apply updPlate_kept
    | with_reducible apply endCmd_kept
    | with_reducible apply abandonUnits_kept
    | with_reducible apply releaseResv_kept
    | with_reducible apply adminOk_kept
    | with_reducible apply detach_kept
    | with_reducible apply offerEnd_kept
    | with_reducible apply setTries_kept
    | with_reducible apply wipeLabels_kept
    | with_reducible apply Kept.ite
    | with_reducible apply Kept.foldl
    | intro _ _ _ _
    | intro _ _ _
    | intro _
    | (extract_lets +onlyGivenNames x; refine Kept.cut (t := x) ?_ ?_; (on_goal 1 => subst x); (on_goal 2 => (clear_value x; intro _)))
    | split)

theorem pageOp_kept {p op : Nat} {md : PlateMedia} {ok1 ok2 : Bool} {rate nonce : Nat} {f : State → State}
    (h : pageOp p op md ok1 ok2 rate nonce = some f) {z0 s : State} (hk : Kept z0 s) : Kept z0 (f s) := by
  unfold pageOp at h
  extract_lets i at h
  clear_value i
  split at h
  · split at h
    · obtain rfl := Option.some.inj h; exact failMemberCmd_kept _ _ hk
    · obtain rfl := Option.some.inj h; exact replaceCmd_kept _ _ hk
    · obtain rfl := Option.some.inj h; exact startPassCmd_kept _ hk
    · obtain rfl := Option.some.inj h; exact pausePassCmd_kept _ hk
    · obtain rfl := Option.some.inj h; exact importCmd_kept _ _ hk
    · obtain rfl := Option.some.inj h; exact recoverCmd_kept _ hk
    · obtain rfl := Option.some.inj h; exact releaseCmd_kept _ hk
    · cases h
  split at h
  · split at h
    · obtain rfl := Option.some.inj h; exact startCycleCmd_kept _ hk
    · obtain rfl := Option.some.inj h; exact pauseCycleCmd_kept _ _ hk
    · obtain rfl := Option.some.inj h; exact pauseCycleCmd_kept _ _ hk
    · obtain rfl := Option.some.inj h; exact clearSuspectCmd_kept hk
    · cases h
  split at h
  · split at h
    · obtain rfl := Option.some.inj h; exact cacheFlush_kept hk
    · obtain rfl := Option.some.inj h; exact clearLost_kept _ hk
    · cases h
  split at h
  · split at h
    · obtain rfl := Option.some.inj h; exact cmdEnd_kept _ _ _ _ (vaultTest_kept _ _ _ hk)
    · cases h
  split at h
  · obtain rfl := Option.some.inj h; exact Kept.ite (bemEnd_kept _ (learnStart_kept _ hk)) (bemEnd_kept _ hk)
  · obtain rfl := Option.some.inj h; exact bemEnd_kept _ (learnDq_kept _ hk)
  · obtain rfl := Option.some.inj h; exact Kept.ite (authStart_kept _ _ hk) (bemEnd_kept _ hk)
  · obtain rfl := Option.some.inj h; exact boundUpdate_kept (bemEnd_kept _ (newPack_kept hk))
  · cases h

theorem loadCmd_kept (p off v : Nat) (go : FRef) {z0 s : State} (hk : Kept z0 s) : Kept z0 (loadCmd s p off v go) := by
  unfold loadCmd
  exact Kept.foldl (fun _ _ h => Kept.ite (setFld_kept _ _ h) h) hk

theorem blockCmd_kept (n : Nat) (md : PlateMedia) (ok1 ok2 : Bool) (rate nonce : Nat) (x : Cmd) {z0 s : State} (hk : Kept z0 s) :
    Kept z0 (blockCmd n md ok1 ok2 rate nonce x s) := by
  unfold blockCmd
  extract_lets p
  clear_value p
  split
  · exact endCmd_kept _ _ _ _ hk
  next off op go st done _ =>
    extract_lets fin s1 s2 s3
    have hf : ∀ {t}, Kept z0 t → Kept z0 (fin t) := fun h =>
      Kept.ite (endCmd_kept _ _ _ _ (Kept.ite (roleAction_kept _ _ _ h) h)) (setTries_kept _ _ h)
    have k1 : Kept z0 s1 := needRole_kept _ (loadCmd_kept _ _ _ _ hk)
    have k2 : Kept z0 s2 := Kept.ite (setFld_kept _ _ (setFld_kept _ _ k1)) k1
    have k3 : Kept z0 s3 := seqIf_kept _ _ k2
    clear_value s1 s2 s3 fin
    refine Kept.ite (Kept.ite (hf hk) hk) (Kept.ite (endCmd_kept _ _ _ _ hk) (hf ?_))
    split
    next act h =>
      split at h
      · exact absurd h (by simp)
      · exact pageOp_kept h (setFld_kept _ _ (setFld_kept _ _ k3))
    · exact cmdEnd_kept _ _ _ _ k3

theorem updSum_kept (f : SumSt → SumSt) {z0 s : State} (hk : Kept z0 s) : Kept z0 (updSum f s) := Kept.parts hk

theorem takeSnap_kept (cs : List Nat) {z0 s : State} (hk : Kept z0 s) : Kept z0 (takeSnap cs s) := by
  unfold takeSnap
  repeat' (first
    | with_reducible assumption
    | with_reducible apply setFld_kept
    | with_reducible apply updSum_kept
    | with_reducible apply setEvt_kept
    | with_reducible apply Kept.ite
    | with_reducible apply Kept.foldl
    | with_reducible apply Kept.foldl_fst
    | intro _ _ _ _
    | intro _ _ _
    | intro _
    | (extract_lets +onlyGivenNames x; refine Kept.cut (t := x) ?_ ?_; (on_goal 1 => subst x); (on_goal 2 => (clear_value x; intro _)))
    | (extract_lets +onlyGivenNames x; clear_value x)
    | split
    | dsimp only
    | fail_if_no_progress (with_reducible apply Kept.parts))

theorem askSnap_kept (cs : List Nat) {z0 s : State} (hk : Kept z0 s) : Kept z0 (askSnap cs s) := by
  unfold askSnap
  repeat' (first
    | with_reducible assumption
    | with_reducible apply updSum_kept
    | with_reducible apply takeSnap_kept
    | with_reducible apply Kept.ite)

theorem publish_kept  {z0 s : State} (hk : Kept z0 s) : Kept z0 (publish s) := by
  unfold publish
  repeat' (first
    | with_reducible assumption
    | with_reducible apply setFld_kept
    | with_reducible apply adminOut_kept
    | with_reducible apply adminOk_kept
    | with_reducible apply updSum_kept
    | with_reducible apply takeSnap_kept
    | with_reducible apply Kept.ite
    | with_reducible apply Kept.foldl
    | intro _ _ _ _
    | intro _ _ _
    | intro _
    | split)

end Sys2Proof.Machine
end

