-- ==== Sys2Proof/Laws/KeptHost.lean ====
section
/-! SUPPORT. What the operations of Machine/Host.lean keep. -/

namespace Sys2Proof.Machine

theorem pauseFns_kept (port : Nat) (fs : List Nat) {z0 s : State} (hk : Kept z0 s) : Kept z0 (pauseFns port fs s) := by
  unfold pauseFns
  repeat' (first
    | with_reducible assumption
    | with_reducible apply pauseCause_kept
    | with_reducible apply Kept.ite
    | with_reducible apply Kept.foldl
    | intro _ _ _ _
    | intro _ _ _)

theorem postHeld_kept (n : Nat) {z0 s : State} (hk : Kept z0 s) : Kept z0 (postHeld n s) := by
  unfold postHeld
  repeat' (first
    | with_reducible assumption
    | with_reducible apply postEntry_kept
    | with_reducible apply Kept.ite
    | with_reducible apply Kept.foldl
    | intro _ _ _ _
    | intro _ _ _
    | intro _
    | split)

theorem resumeFns_kept (port : Nat) (fs : List Nat) {z0 s : State} (hk : Kept z0 s) : Kept z0 (resumeFns port fs s) := by
  unfold resumeFns
  repeat' (first
    | with_reducible assumption
    | with_reducible apply unpinFn_kept
    | with_reducible apply postHeld_kept
    | with_reducible apply sendPosted_kept
    | with_reducible apply updFn_kept
    | with_reducible apply pumpReads_kept
    | with_reducible apply unpauseCause_kept
    | with_reducible apply Kept.ite
    | with_reducible apply Kept.foldl
    | with_reducible apply Kept.foldl_fst
    | intro _ _ _ _
    | intro _ _ _
    | intro _
    | (extract_lets +onlyGivenNames x; refine Kept.cut (t := x) ?_ ?_; (on_goal 1 => subst x); (on_goal 2 => (clear_value x; intro _)))
    | (extract_lets +onlyGivenNames x; clear_value x)
    | split
    | dsimp only
    | fail_if_no_progress (with_reducible apply Kept.parts))

theorem showPf_kept (port : Nat) {z0 s : State} (hk : Kept z0 s) : Kept z0 (showPf port s) := by
  unfold showPf
  repeat' (first
    | with_reducible assumption
    | with_reducible apply setFlag_kept)

theorem bmeClear_kept (port func : Nat) {z0 s : State} (hk : Kept z0 s) : Kept z0 (bmeClear port func s) := by
  unfold bmeClear
  repeat' (first
    | with_reducible assumption
    | with_reducible apply setEvt_kept
    | with_reducible apply updFn_kept
    | with_reducible apply pauseFns_kept
    | with_reducible apply showPf_kept
    | with_reducible apply Kept.ite)

theorem sendPending_kept (port func : Nat) {z0 s : State} (hk : Kept z0 s) : Kept z0 (sendPending port func s) := by
  unfold sendPending
  repeat' (first
    | with_reducible assumption
    | with_reducible apply hostMsg_kept
    | with_reducible apply updFn_kept
    | with_reducible apply Kept.ite
    | with_reducible apply Kept.foldl
    | with_reducible apply Kept.foldl_fst
    | intro _ _ _ _
    | intro _ _ _
    | intro _
    | (extract_lets +onlyGivenNames x; refine Kept.cut (t := x) ?_ ?_; (on_goal 1 => subst x); (on_goal 2 => (clear_value x; intro _)))
    | (extract_lets +onlyGivenNames x; clear_value x)
    | split
    | dsimp only
    | fail_if_no_progress (with_reducible apply Kept.parts))

theorem bmeSet_kept (port func : Nat) (cfg : FnCfg) {z0 s : State} (hk : Kept z0 s) : Kept z0 (bmeSet port func cfg s) := by
  unfold bmeSet
  repeat' (first
    | with_reducible assumption
    | with_reducible apply sendPending_kept
    | with_reducible apply resumeFns_kept
    | with_reducible apply showPf_kept
    | with_reducible apply updFn_kept
    | with_reducible apply Kept.ite
    | with_reducible apply Kept.foldl
    | with_reducible apply Kept.foldl_fst
    | intro _ _ _ _
    | intro _ _ _
    | intro _
    | (extract_lets +onlyGivenNames x; refine Kept.cut (t := x) ?_ ?_; (on_goal 1 => subst x); (on_goal 2 => (clear_value x; intro _)))
    | (extract_lets +onlyGivenNames x; clear_value x)
    | split
    | dsimp only
    | fail_if_no_progress (with_reducible apply Kept.parts))

theorem abortCmd_kept (n : Nat) {z0 s : State} (hk : Kept z0 s) : Kept z0 (abortCmd n s) := by
  unfold abortCmd
  repeat' (first
    | with_reducible assumption
    | with_reducible apply updIo_kept
    | with_reducible apply meterCmd_kept
    | with_reducible apply dropUnstaged_kept
    | with_reducible apply satFld_kept
    | with_reducible apply decFld_kept
    | with_reducible apply Kept.ite
    | with_reducible apply Kept.foldl
    | with_reducible apply Kept.foldl_fst
    | intro _ _ _ _
    | intro _ _ _
    | intro _
    | (extract_lets +onlyGivenNames x; refine Kept.cut (t := x) ?_ ?_; (on_goal 1 => subst x); (on_goal 2 => (clear_value x; intro _)))
    | (extract_lets +onlyGivenNames x; clear_value x)
    | split
    | dsimp only
    | fail_if_no_progress (with_reducible apply Kept.parts))

theorem ctxReset_kept (c : Nat) {z0 s : State} (hk : Kept z0 s) : Kept z0 (ctxReset c s) := by
  unfold ctxReset
  repeat' (first
    | with_reducible assumption
    | with_reducible apply updCtx_kept
    | with_reducible apply abortCmd_kept
    | with_reducible apply setFld_kept
    | with_reducible apply Kept.ite
    | with_reducible apply Kept.foldl
    | with_reducible apply Kept.foldl_fst
    | intro _ _ _ _
    | intro _ _ _
    | intro _
    | (extract_lets +onlyGivenNames x; refine Kept.cut (t := x) ?_ ?_; (on_goal 1 => subst x); (on_goal 2 => (clear_value x; intro _)))
    | (extract_lets +onlyGivenNames x; clear_value x)
    | split
    | dsimp only
    | fail_if_no_progress (with_reducible apply Kept.parts))

theorem ctxRestart_kept (c : Nat) {z0 s : State} (hk : Kept z0 s) : Kept z0 (ctxRestart c s) := by
  unfold ctxRestart
  repeat' (first
    | with_reducible assumption
    | with_reducible apply setFld_kept
    | with_reducible apply setEvt_kept
    | with_reducible apply Kept.ite
    | with_reducible apply Kept.foldl
    | intro _ _ _ _
    | intro _ _ _)

theorem ctxResetEnd_kept (c : Nat) {z0 s : State} (hk : Kept z0 s) : Kept z0 (ctxResetEnd c s) := by
  unfold ctxResetEnd
  repeat' (first
    | with_reducible assumption
    | with_reducible apply clearFence_kept
    | with_reducible apply ctxRestart_kept
    | with_reducible apply Kept.ite)

theorem resetFns_kept (port : Nat) (fs : List Nat) {z0 s : State} (hk : Kept z0 s) : Kept z0 (resetFns port fs s) := by
  unfold resetFns
  repeat' (first
    | with_reducible assumption
    | with_reducible apply updFn_kept
    | with_reducible apply updIo_kept
    | with_reducible apply unpinFn_kept
    | with_reducible apply moverReset_kept
    | with_reducible apply ctxReset_kept
    | with_reducible apply satFld_kept
    | with_reducible apply sessionEnd_kept
    | with_reducible apply setFld_kept
    | with_reducible apply Kept.ite
    | with_reducible apply Kept.foldl
    | with_reducible apply Kept.foldl_fst
    | intro _ _ _ _
    | intro _ _ _
    | intro _
    | (extract_lets +onlyGivenNames x; refine Kept.cut (t := x) ?_ ?_; (on_goal 1 => subst x); (on_goal 2 => (clear_value x; intro _)))
    | (extract_lets +onlyGivenNames x; clear_value x)
    | split
    | dsimp only
    | fail_if_no_progress (with_reducible apply Kept.parts))

theorem flrStart_kept (port func : Nat) {z0 s : State} (hk : Kept z0 s) : Kept z0 (flrStart port func s) := by
  unfold flrStart
  repeat' (first
    | with_reducible assumption
    | with_reducible apply setFld_kept
    | with_reducible apply resetFns_kept
    | with_reducible apply Kept.ite)

theorem flrEnd_kept (port func : Nat) {z0 s : State} (hk : Kept z0 s) : Kept z0 (flrEnd port func s) := by
  unfold flrEnd
  repeat' (first
    | with_reducible assumption
    | with_reducible apply updFn_kept
    | with_reducible apply ctxResetEnd_kept
    | with_reducible apply onlyIf_kept
    | with_reducible apply setEvt_kept
    | with_reducible apply showPf_kept
    | with_reducible apply setFld_kept
    | with_reducible apply Kept.ite
    | with_reducible apply Kept.foldl
    | with_reducible apply Kept.foldl_fst
    | intro _ _ _ _
    | intro _ _ _
    | intro _
    | (extract_lets +onlyGivenNames x; refine Kept.cut (t := x) ?_ ?_; (on_goal 1 => subst x); (on_goal 2 => (clear_value x; intro _)))
    | (extract_lets +onlyGivenNames x; clear_value x)
    | split
    | dsimp only
    | fail_if_no_progress (with_reducible apply Kept.parts))

theorem portReset_kept (port : Nat) {z0 s : State} (hk : Kept z0 s) : Kept z0 (portReset port s) := by
  unfold portReset
  repeat' (first
    | with_reducible assumption
    | with_reducible apply updHost_kept
    | with_reducible apply clearFence_kept
    | with_reducible apply flrStart_kept
    | with_reducible apply Kept.ite)

theorem hostDown_kept (port : Nat) {z0 s : State} (hk : Kept z0 s) : Kept z0 (hostDown port s) := by
  unfold hostDown
  repeat' (first
    | with_reducible assumption
    | with_reducible apply setFld_kept
    | with_reducible apply updHost_kept
    | with_reducible apply ltrSync_kept
    | with_reducible apply portReset_kept
    | with_reducible apply setEvt_kept
    | with_reducible apply incFld_kept
    | with_reducible apply Kept.ite
    | with_reducible apply Kept.foldl
    | with_reducible apply Kept.foldl_fst
    | intro _ _ _ _
    | intro _ _ _
    | intro _
    | (extract_lets +onlyGivenNames x; refine Kept.cut (t := x) ?_ ?_; (on_goal 1 => subst x); (on_goal 2 => (clear_value x; intro _)))
    | (extract_lets +onlyGivenNames x; clear_value x)
    | split
    | dsimp only
    | fail_if_no_progress (with_reducible apply Kept.parts))

end Sys2Proof.Machine
end

