-- ==== Sys2Proof/Laws/KeptHeader.lean ====
section
/-! SUPPORT. What the operations of Machine/Header.lean keep. -/

namespace Sys2Proof.Machine

theorem headWrite_kept (w : Win) (p : Nat) (f : State → State) {z0 s : State} (h_f : ∀ r t, Kept r t → Kept r (f t)) (hk : Kept z0 s) : Kept z0 (headWrite w p f s) := by
  unfold headWrite
  repeat' (first
    | with_reducible assumption
    | with_reducible apply h_f
    | with_reducible apply guardWrite_kept
    | with_reducible apply Kept.ite)

theorem zeroFlds_kept (l : List FRef) {z0 s : State} (hk : Kept z0 s) : Kept z0 (zeroFlds l s) := by
  unfold zeroFlds
  repeat' (first
    | with_reducible assumption
    | with_reducible apply setFld_kept
    | with_reducible apply Kept.ite
    | with_reducible apply Kept.foldl
    | intro _ _ _ _
    | intro _ _ _)

theorem freeEntries_kept  {z0 s : State} (hk : Kept z0 s) : Kept z0 (freeEntries s) := by
  unfold freeEntries
  repeat' (first
    | with_reducible assumption
    | with_reducible apply releaseEntry_kept
    | with_reducible apply Kept.ite
    | with_reducible apply Kept.foldl
    | intro _ _ _ _
    | intro _ _ _)

theorem endSteps_kept  {z0 s : State} (hk : Kept z0 s) : Kept z0 (endSteps  s) := by
  unfold endSteps
  repeat' (first
    | with_reducible assumption
    | with_reducible apply dropNv_kept
    | with_reducible apply keepWaits_kept
    | with_reducible apply updIo_kept
    | with_reducible apply dropJob_kept
    | with_reducible apply freeLock_kept
    | with_reducible apply Kept.ite
    | with_reducible apply Kept.foldl
    | with_reducible apply Kept.foldl_fst
    | intro _ _ _ _
    | intro _ _ _
    | intro _
    | (extract_lets +onlyGivenNames x; refine Kept.cut (t := x) ?_ ?_; (on_goal 1 => subst x); (on_goal 2 => (clear_value x; intro _)))
    | (extract_lets +onlyGivenNames x; clear_value x)
    | split
    | dsimp only
    | fail_if_no_progress (with_reducible apply Kept.parts))

theorem resetCtx_kept (c : Nat) {z0 s : State} (hk : Kept z0 s) : Kept z0 (resetCtx c s) := by
  unfold resetCtx
  repeat' (first
    | with_reducible assumption
    | with_reducible apply updIo_kept
    | with_reducible apply ctxReset_kept
    | with_reducible apply ctxRestart_kept
    | with_reducible apply Kept.ite)

theorem blockEffect_kept (p : Nat) {z0 s : State} (hk : Kept z0 s) : Kept z0 (blockEffect p s) := by
  unfold blockEffect
  repeat' (first
    | with_reducible assumption
    | with_reducible apply updEvr_kept
    | with_reducible apply clearEvt_kept
    | with_reducible apply setFld_kept
    | with_reducible apply updFlt_kept
    | with_reducible apply endClaim_kept
    | with_reducible apply icuHost_kept
    | with_reducible apply updIcu_kept
    | with_reducible apply updSum_kept
    | with_reducible apply freeEntries_kept
    | with_reducible apply updIo_kept
    | with_reducible apply pipesSettle_kept
    | with_reducible apply restartJobs_kept
    | with_reducible apply abandonUnits_kept
    | with_reducible apply endSteps_kept
    | with_reducible apply ctrlReset_kept
    | with_reducible apply retrain_kept
    | with_reducible apply stopCh_kept
    | with_reducible apply resetCtx_kept
    | with_reducible apply Kept.ite
    | with_reducible apply Kept.foldl
    | with_reducible apply Kept.foldl_fst
    | intro _ _ _ _
    | intro _ _ _
    | intro _
    | (extract_lets +onlyGivenNames x; refine Kept.cut (t := x) ?_ ?_; (on_goal 1 => subst x); (on_goal 2 => (clear_value x; intro _)))
    | (extract_lets +onlyGivenNames x; clear_value x)
    | split
    | dsimp only
    | fail_if_no_progress (with_reducible apply Kept.parts))

theorem blockReset_kept (p : Nat) {z0 s : State} (hk : Kept z0 s) : Kept z0 (blockReset p s) := by
  unfold blockReset
  repeat' (first
    | with_reducible assumption
    | with_reducible apply zeroFlds_kept
    | with_reducible apply blockEffect_kept)

theorem enableEffect_kept (p : Nat) (v : Bool) {z0 s : State} (hk : Kept z0 s) : Kept z0 (enableEffect p v s) := by
  unfold enableEffect
  repeat' (first
    | with_reducible assumption
    | with_reducible apply cyclesSync_kept
    | with_reducible apply vaultCheck_kept
    | with_reducible apply pipesSettle_kept
    | with_reducible apply boundUpdate_kept
    | with_reducible apply icuHost_kept
    | with_reducible apply chooseUnit_kept
    | with_reducible apply setDmc_kept
    | with_reducible apply onlyIf_kept
    | with_reducible apply setFld_kept
    | with_reducible apply linkDown_kept
    | with_reducible apply powerUp_kept
    | with_reducible apply quiesce_kept
    | with_reducible apply slotDown_kept
    | with_reducible apply Kept.ite
    | with_reducible apply Kept.foldl
    | with_reducible apply Kept.foldl_fst
    | intro _ _ _ _
    | intro _ _ _
    | intro _
    | (extract_lets +onlyGivenNames x; refine Kept.cut (t := x) ?_ ?_; (on_goal 1 => subst x); (on_goal 2 => (clear_value x; intro _)))
    | (extract_lets +onlyGivenNames x; clear_value x)
    | split
    | dsimp only
    | fail_if_no_progress (with_reducible apply Kept.parts))

theorem enableSet_kept (p : Nat) (v : Bool) {z0 s : State} (hk : Kept z0 s) : Kept z0 (enableSet p v s) := by
  unfold enableSet
  repeat' (first
    | with_reducible assumption
    | with_reducible apply setFlag_kept
    | with_reducible apply enableEffect_kept
    | with_reducible apply Kept.ite)

theorem wakeBlock_kept (p : Nat) {z0 s : State} (hk : Kept z0 s) : Kept z0 (wakeBlock p s) := by
  unfold wakeBlock
  repeat' (first
    | with_reducible assumption
    | with_reducible apply setFld_kept
    | with_reducible apply updIo_kept
    | with_reducible apply leaveDriveL1_kept
    | with_reducible apply Kept.ite)

end Sys2Proof.Machine
end

