-- ==== Sys2Proof/Laws/KeptFault.lean ====
section
/-! SUPPORT. What the operations of Machine/Fault.lean keep. -/

namespace Sys2Proof.Machine

theorem fltEvt_kept (bit : Nat) {z0 s : State} (hk : Kept z0 s) : Kept z0 (fltEvt bit s) := by
  unfold fltEvt
  repeat' (first
    | with_reducible assumption
    | with_reducible apply setEvt_kept)

theorem wdogStart_kept  {z0 s : State} (hk : Kept z0 s) : Kept z0 (wdogStart s) := by
  unfold wdogStart
  repeat' (first
    | with_reducible assumption
    | with_reducible apply updFlt_kept)

theorem haltCore_kept (n : Nat) {z0 s : State} (hk : Kept z0 s) : Kept z0 (haltCore n s) := by
  unfold haltCore
  repeat' (first
    | with_reducible assumption
    | with_reducible apply setFld_kept
    | with_reducible apply setEvt_kept
    | with_reducible apply report_kept
    | with_reducible apply endCmd_kept
    | with_reducible apply coreOff_kept
    | with_reducible apply wdogStart_kept
    | with_reducible apply Kept.ite
    | with_reducible apply Kept.foldl
    | intro _ _ _ _
    | intro _ _ _
    | intro _
    | (extract_lets +onlyGivenNames x; refine Kept.cut (t := x) ?_ ?_; (on_goal 1 => subst x); (on_goal 2 => (clear_value x; intro _)))
    | split)

theorem sendNotice_kept (word : Nat) (mask : List Nat) (held : Bool) (n : Nat) {z0 s : State} (hk : Kept z0 s) : Kept z0 (sendNotice word mask held n s) := by
  unfold sendNotice
  repeat' (first
    | with_reducible assumption
    | with_reducible apply sendMsg_kept
    | with_reducible apply Kept.ite
    | with_reducible apply Kept.foldl
    | with_reducible apply Kept.foldl_fst
    | intro _ _ _ _
    | intro _ _ _
    | intro _
    | (extract_lets +onlyGivenNames x; refine Kept.cut (t := x) ?_ ?_; (on_goal 1 => subst x); (on_goal 2 => (clear_value x; intro _)))
    | (extract_lets +onlyGivenNames x; clear_value x)
    | split
    | dsimp only
    | fail_if_no_progress (with_reducible apply Kept.parts))

theorem releasePlates_kept (mask : List Nat) {z0 s : State} (hk : Kept z0 s) : Kept z0 (releasePlates mask s) := by
  unfold releasePlates
  repeat' (first
    | with_reducible assumption
    | with_reducible apply updPlate_kept
    | with_reducible apply releaseResv_kept
    | with_reducible apply Kept.ite
    | with_reducible apply Kept.foldl
    | with_reducible apply Kept.foldl_fst
    | intro _ _ _ _
    | intro _ _ _
    | intro _
    | (extract_lets +onlyGivenNames x; refine Kept.cut (t := x) ?_ ?_; (on_goal 1 => subst x); (on_goal 2 => (clear_value x; intro _)))
    | (extract_lets +onlyGivenNames x; clear_value x)
    | split
    | dsimp only
    | fail_if_no_progress (with_reducible apply Kept.parts))

theorem noticePlates_kept (word : Nat) (mask : List Nat) {z0 s : State} (hk : Kept z0 s) : Kept z0 (noticePlates word mask s) := by
  unfold noticePlates
  repeat' (first
    | with_reducible assumption
    | with_reducible apply releasePlates_kept
    | with_reducible apply sendNotice_kept
    | with_reducible apply Kept.ite
    | with_reducible apply Kept.foldl
    | with_reducible apply Kept.foldl_fst
    | intro _ _ _ _
    | intro _ _ _
    | intro _
    | (extract_lets +onlyGivenNames x; refine Kept.cut (t := x) ?_ ?_; (on_goal 1 => subst x); (on_goal 2 => (clear_value x; intro _)))
    | (extract_lets +onlyGivenNames x; clear_value x)
    | split
    | dsimp only
    | fail_if_no_progress (with_reducible apply Kept.parts))

theorem fenceEffect_kept (p : Nat) {z0 s : State} (hk : Kept z0 s) : Kept z0 (fenceEffect p s) := by
  unfold fenceEffect
  repeat' (first
    | with_reducible assumption
    | with_reducible apply bemFence_kept
    | with_reducible apply pauseFns_kept
    | with_reducible apply dmcFreeze_kept
    | with_reducible apply vaultCheck_kept
    | with_reducible apply restartJobs_kept
    | with_reducible apply report_kept
    | with_reducible apply cyclesSync_kept
    | with_reducible apply abandonUnits_kept
    | with_reducible apply cycleSync_kept
    | with_reducible apply dptFence_kept
    | with_reducible apply linkDown_kept
    | with_reducible apply moverFence_kept
    | with_reducible apply setFld_kept
    | with_reducible apply haltCore_kept
    | with_reducible apply dropUnstaged_kept
    | with_reducible apply endCmd_kept
    | with_reducible apply Kept.ite
    | with_reducible apply Kept.foldl
    | with_reducible apply Kept.foldl_fst
    | intro _ _ _ _
    | intro _ _ _
    | intro _
    | (extract_lets +onlyGivenNames x; refine Kept.cut (t := x) ?_ ?_; (on_goal 1 => subst x); (on_goal 2 => (clear_value x; intro _)))
    | (extract_lets +onlyGivenNames x; clear_value x)
    | split
    | dsimp only
    | fail_if_no_progress (with_reducible apply Kept.parts))

theorem markFenced_kept (p kind sev : Nat) {z0 s : State} (hk : Kept z0 s) : Kept z0 (markFenced p kind sev s) := by
  unfold markFenced
  repeat' (first
    | with_reducible assumption
    | with_reducible apply setFld_kept)

theorem fenceUnit_kept (p kind sev : Nat) {z0 s : State} (hk : Kept z0 s) : Kept z0 (fenceUnit p kind sev s) := by
  unfold fenceUnit
  repeat' (first
    | with_reducible assumption
    | with_reducible apply fltEvt_kept
    | with_reducible apply fenceEffect_kept
    | with_reducible apply markFenced_kept
    | with_reducible apply Kept.ite)

theorem endSessions_kept  {z0 s : State} (hk : Kept z0 s) : Kept z0 (endSessions s) := by
  unfold endSessions
  repeat' (first
    | with_reducible assumption
    | with_reducible apply setFld_kept
    | with_reducible apply showSessions_kept)

theorem releaseKeys_kept  {z0 s : State} (hk : Kept z0 s) : Kept z0 (releaseKeys  s) := by
  unfold releaseKeys
  repeat' (first
    | with_reducible assumption
    | with_reducible apply releaseResv_kept
    | with_reducible apply Kept.ite
    | with_reducible apply Kept.foldl
    | with_reducible apply Kept.foldl_fst
    | intro _ _ _ _
    | intro _ _ _
    | intro _
    | (extract_lets +onlyGivenNames x; refine Kept.cut (t := x) ?_ ?_; (on_goal 1 => subst x); (on_goal 2 => (clear_value x; intro _)))
    | (extract_lets +onlyGivenNames x; clear_value x)
    | split
    | dsimp only
    | fail_if_no_progress (with_reducible apply Kept.parts))

theorem deviceFence_kept (word : Nat) {z0 s : State} (hk : Kept z0 s) : Kept z0 (deviceFence word s) := by
  unfold deviceFence
  repeat' (first
    | with_reducible assumption
    | with_reducible apply fltEvt_kept
    | with_reducible apply releaseKeys_kept
    | with_reducible apply releasePlates_kept
    | with_reducible apply sendNotice_kept
    | with_reducible apply endCmd_kept
    | with_reducible apply setFld_kept
    | with_reducible apply setEvt_kept
    | with_reducible apply cyclesSync_kept
    | with_reducible apply startDump_kept
    | with_reducible apply freeze_kept
    | with_reducible apply Kept.ite
    | with_reducible apply Kept.foldl
    | with_reducible apply Kept.foldl_fst
    | intro _ _ _ _
    | intro _ _ _
    | intro _
    | (extract_lets +onlyGivenNames x; refine Kept.cut (t := x) ?_ ?_; (on_goal 1 => subst x); (on_goal 2 => (clear_value x; intro _)))
    | (extract_lets +onlyGivenNames x; clear_value x)
    | split
    | dsimp only
    | fail_if_no_progress (with_reducible apply Kept.parts))

theorem capture_kept (m : FMsg) {z0 s : State} (hk : Kept z0 s) : Kept z0 (capture m s) := by
  unfold capture
  repeat' (first
    | with_reducible assumption
    | with_reducible apply setFld_kept
    | with_reducible apply set64_kept
    | with_reducible apply fillEcap_kept
    | with_reducible apply fltEvt_kept
    | with_reducible apply Kept.ite)

theorem logFault_kept (m : FMsg) {z0 s : State} (hk : Kept z0 s) : Kept z0 (logFault m s) := by
  unfold logFault
  repeat' (first
    | with_reducible assumption
    | with_reducible apply incFld_kept
    | with_reducible apply satFld_kept
    | with_reducible apply updFlt_kept
    | with_reducible apply fltEvt_kept
    | with_reducible apply capture_kept
    | with_reducible apply Kept.ite)

theorem react_kept (m : FMsg) {z0 s : State} (hk : Kept z0 s) : Kept z0 (react m s) := by
  unfold react
  repeat' (first
    | with_reducible assumption
    | with_reducible apply onlyIf_kept
    | with_reducible apply haltCore_kept
    | with_reducible apply fltEvt_kept
    | with_reducible apply deviceFence_kept
    | with_reducible apply endSessions_kept
    | with_reducible apply fenceUnit_kept
    | with_reducible apply noticePlates_kept
    | with_reducible apply Kept.ite
    | with_reducible apply Kept.foldl
    | with_reducible apply Kept.foldl_fst
    | intro _ _ _ _
    | intro _ _ _
    | intro _
    | (extract_lets +onlyGivenNames x; refine Kept.cut (t := x) ?_ ?_; (on_goal 1 => subst x); (on_goal 2 => (clear_value x; intro _)))
    | (extract_lets +onlyGivenNames x; clear_value x)
    | split
    | dsimp only
    | fail_if_no_progress (with_reducible apply Kept.parts))

theorem popFault_kept  {z0 s : State} (hk : Kept z0 s) : Kept z0 (popFault s) := by
  unfold popFault
  repeat' (first
    | with_reducible assumption
    | with_reducible apply updFlt_kept
    | with_reducible apply showQueue_kept)

theorem handleFault_kept  {z0 s : State} (hk : Kept z0 s) : Kept z0 (handleFault s) := by
  unfold handleFault
  repeat' (first
    | with_reducible assumption
    | with_reducible apply logFault_kept
    | with_reducible apply react_kept
    | with_reducible apply popFault_kept
    | with_reducible apply Kept.ite
    | with_reducible apply Kept.foldl
    | intro _ _ _ _
    | intro _ _ _
    | intro _
    | split)

theorem fenceReq_kept (p : Nat) {z0 s : State} (hk : Kept z0 s) : Kept z0 (fenceReq p s) := by
  unfold fenceReq
  repeat' (first
    | with_reducible assumption
    | with_reducible apply enqueue_kept)

theorem inject_kept  {z0 s : State} (hk : Kept z0 s) : Kept z0 (inject s) := by
  unfold inject
  repeat' (first
    | with_reducible assumption
    | with_reducible apply enqueue_kept)

theorem unfenceUnit_kept (p : Nat) (found : List FoundNs) (media : List PlateMedia) {z0 s : State} (hk : Kept z0 s) : Kept z0 (unfenceUnit p found media s) := by
  unfold unfenceUnit
  repeat' (first
    | with_reducible assumption
    | with_reducible apply clearFence_kept
    | with_reducible apply cyclesSync_kept
    | with_reducible apply setFld_kept
    | with_reducible apply takePlate_kept
    | with_reducible apply updStore_kept
    | with_reducible apply blockReset_kept
    | with_reducible apply boundUpdate_kept
    | with_reducible apply pipesSettle_kept
    | with_reducible apply onlyIf_kept
    | with_reducible apply vaultCheck_kept
    | with_reducible apply chooseUnit_kept
    | with_reducible apply Kept.ite
    | with_reducible apply Kept.ident
    | with_reducible apply Kept.foldl
    | with_reducible apply Kept.foldl_fst
    | intro _ _ _ _
    | intro _ _ _
    | intro _
    | (extract_lets +onlyGivenNames x; refine Kept.cut (t := x) ?_ ?_; (on_goal 1 => subst x); (on_goal 2 => (clear_value x; intro _)))
    | (extract_lets +onlyGivenNames x; clear_value x)
    | split
    | dsimp only
    | fail_if_no_progress (with_reducible apply Kept.parts))

theorem unfenceCmd_kept (found : List FoundNs) (media : List PlateMedia) {z0 s : State} (hk : Kept z0 s) : Kept z0 (unfenceCmd found media s) := by
  unfold unfenceCmd
  repeat' (first
    | with_reducible assumption
    | with_reducible apply cmdEnd_kept
    | with_reducible apply unfenceUnit_kept
    | with_reducible apply Kept.ite
    | with_reducible apply Kept.foldl
    | with_reducible apply Kept.foldl_fst
    | intro _ _ _ _
    | intro _ _ _
    | intro _
    | (extract_lets +onlyGivenNames x; refine Kept.cut (t := x) ?_ ?_; (on_goal 1 => subst x); (on_goal 2 => (clear_value x; intro _)))
    | (extract_lets +onlyGivenNames x; clear_value x)
    | split
    | dsimp only
    | fail_if_no_progress (with_reducible apply Kept.parts))

theorem kick_kept (w : Win) {z0 s : State} (hk : Kept z0 s) : Kept z0 (kick w s) := by
  unfold kick
  repeat' (first
    | with_reducible assumption
    | with_reducible apply wdogStart_kept
    | with_reducible apply Kept.ite
    | with_reducible apply Kept.foldl
    | intro _ _ _ _
    | intro _ _ _
    | intro _
    | split)

theorem watchdog_kept  {z0 s : State} (hk : Kept z0 s) : Kept z0 (watchdog s) := by
  unfold watchdog
  repeat' (first
    | with_reducible assumption
    | with_reducible apply enqueue_kept
    | with_reducible apply access_kept
    | with_reducible apply fltEvt_kept
    | with_reducible apply haltCore_kept
    | with_reducible apply Kept.ite)

end Sys2Proof.Machine
end

