-- ==== Sys2Proof/Laws/KeptCfgSpace.lean ====
section
/-! SUPPORT. What the operations of Machine/CfgSpace.lean keep. -/

namespace Sys2Proof.Machine

theorem cfgRead_kept (w : Win) (off : Nat) {z0 s : State} (hk : Kept z0 s) : Kept z0 (cfgRead w off s) := by
  unfold cfgRead
  repeat' (first
    | with_reducible assumption
    | with_reducible apply emit_kept
    | with_reducible apply bumpFresh_kept
    | with_reducible apply Kept.ite
    | with_reducible apply Kept.foldl
    | with_reducible apply Kept.foldl_fst
    | intro _ _ _ _
    | intro _ _ _
    | intro _
    | (extract_lets +onlyGivenNames x; refine Kept.cut (t := x) ?_ ?_; (on_goal 1 => subst x); (on_goal 2 => (clear_value x; intro _)))
    | (extract_lets +onlyGivenNames x; clear_value x)
    | split
    | dsimp only
    | fail_if_no_progress (with_reducible apply Kept.parts))

end Sys2Proof.Machine
end

