-- ==== Sys2Proof/Laws/KeptRegister.lean ====
section
/-! SUPPORT. What the operations of Machine/Register.lean keep. -/

namespace Sys2Proof.Machine

theorem putRows_kept (rows : List RegRow) (v : Nat) {z0 s : State} (hk : Kept z0 s) : Kept z0 (putRows rows v s) := by
  unfold putRows
  repeat' (first
    | with_reducible assumption
    | with_reducible apply setFld_kept
    | with_reducible apply Kept.ite
    | with_reducible apply Kept.foldl
    | intro _ _ _ _
    | intro _ _ _)

theorem putFields_kept (w : Win) (p off v : Nat) {z0 s : State} (hk : Kept z0 s) : Kept z0 (putFields w p off v s) := by
  unfold putFields
  repeat' (first
    | with_reducible assumption
    | with_reducible apply denied_kept
    | with_reducible apply needRole_kept
    | with_reducible apply seqIf_kept
    | with_reducible apply putRows_kept
    | with_reducible apply Kept.ite)

theorem clearBits_kept (f : FRef) (x : Nat) {z0 s : State} (hk : Kept z0 s) : Kept z0 (clearBits f x s) := by
  unfold clearBits
  repeat' (first
    | with_reducible assumption
    | with_reducible apply setFld_kept)

theorem clearFields_kept (p off v : Nat) {z0 s : State} (hk : Kept z0 s) : Kept z0 (clearFields p off v s) := by
  unfold clearFields
  repeat' (first
    | with_reducible assumption
    | with_reducible apply clearEvt_kept
    | with_reducible apply clearBits_kept
    | with_reducible apply Kept.ite
    | with_reducible apply Kept.foldl
    | intro _ _ _ _
    | intro _ _ _)

theorem putKeyData_kept (p off v : Nat) {z0 s : State} (hk : Kept z0 s) : Kept z0 (putKeyData p off v s) := by
  unfold putKeyData
  repeat' (first
    | with_reducible assumption
    | with_reducible apply putRows_kept
    | with_reducible apply Kept.ite)

theorem ctxGate_kept {w : Win} {c off v : Nat} {s : State} {f : State → State} (h : ctxGate w c off v s = some f) {z0 t : State} (hk : Kept z0 t) :
    Kept z0 (f t) := by
  unfold ctxGate at h
  repeat' (split at h)
  all_goals first
    | (cases h; done)
    | (cases h; exact hk)
    | (cases h; exact discardDb_kept _ hk)
    | (cases h; exact cfgBad_kept _ hk)

theorem gate_kept {w : Win} {p off v : Nat} {s : State} {f : State → State} (h : gate w p off v s = some f) {z0 t : State} (hk : Kept z0 t) :
    Kept z0 (f t) := by
  unfold gate at h
  repeat' (split at h)
  all_goals first
    | (cases h; done)
    | (cases h; exact hk)
    | (cases h; exact denied_kept _ _ hk)
    | exact ctxGate_kept h hk

theorem goWrite_kept (w : Win) (p off v : Nat) (q : FRef × FRef × FRef × FRef) {z0 s : State} (hk : Kept z0 s) : Kept z0 (goWrite w p off v q s) := by
  unfold goWrite
  repeat' (first
    | with_reducible assumption
    | with_reducible apply setFld_kept
    | with_reducible apply putFields_kept
    | with_reducible apply Kept.ite)

theorem showNode_kept  {z0 s : State} (hk : Kept z0 s) : Kept z0 (showNode s) := by
  unfold showNode
  repeat' (first
    | with_reducible assumption
    | with_reducible apply setFld_kept)

theorem absorb_kept (p : Nat) {z0 s : State} (hk : Kept z0 s) : Kept z0 (absorb p s) := by
  unfold absorb
  repeat' (first
    | with_reducible assumption
    | with_reducible apply updBay_kept
    | with_reducible apply setPort_kept
    | with_reducible apply Kept.ite)

theorem holdNarrow_kept (x : Nat) {z0 s : State} (hk : Kept z0 s) : Kept z0 (holdNarrow x s) := by
  unfold holdNarrow
  repeat' (first
    | with_reducible assumption
    | with_reducible apply onlyIf_kept
    | with_reducible apply linkDown_kept
    | with_reducible apply Kept.ite
    | with_reducible apply Kept.foldl
    | with_reducible apply Kept.foldl_fst
    | intro _ _ _ _
    | intro _ _ _
    | intro _
    | (extract_lets +onlyGivenNames x; refine Kept.cut (t := x) ?_ ?_; (on_goal 1 => subst x); (on_goal 2 => (clear_value x; intro _)))
    | (extract_lets +onlyGivenNames x; clear_value x)
    | split
    | dsimp only
    | fail_if_no_progress (with_reducible apply Kept.parts))

theorem afterWrite_kept (w : Win) (p off v : Nat) (vr : VaultRead) (before : State) {z0 s : State} (hk : Kept z0 s) : Kept z0 (afterWrite w p off v vr before s) := by
  unfold afterWrite
  repeat' (first
    | with_reducible assumption
    | with_reducible apply holdNarrow_kept
    | with_reducible apply updIcu_kept
    | with_reducible apply setFld_kept
    | with_reducible apply setEvt_kept
    | with_reducible apply ltrSend_kept
    | with_reducible apply cyclesSync_kept
    | with_reducible apply cfgGood_kept
    | with_reducible apply boundUpdate_kept
    | with_reducible apply vaultTest_kept
    | with_reducible apply chooseUnit_kept
    | with_reducible apply icuHost_kept
    | with_reducible apply showNode_kept
    | with_reducible apply absorb_kept
    | with_reducible apply authSwitch_kept
    | with_reducible apply updBem_kept
    | with_reducible apply pmirShow_kept
    | with_reducible apply pipesSleep_kept
    | with_reducible apply Kept.ite)

theorem regWrite_kept (w : Win) (p off v : Nat) (vr : VaultRead) {z0 s : State} (hk : Kept z0 s) : Kept z0 (regWrite w p off v vr s) := by
  unfold regWrite
  have ha : Kept z0 (if startsAction (rowsAt s p off) v then s
      else afterWrite w p off v vr s (putKeyData p off v (clearFields p off v (putFields w p off v s)))) :=
    Kept.ite hk (afterWrite_kept _ _ _ _ _ _ (putKeyData_kept _ _ _ (clearFields_kept _ _ _ (putFields_kept _ _ _ _ hk))))
  split
  next f h => exact gate_kept h hk
  · split
    · exact Kept.ite (goWrite_kept _ _ _ _ _ hk) ha
    · exact ha

theorem msixWrite_kept (port func e k v : Nat) {z0 s : State} (hk : Kept z0 s) : Kept z0 (msixWrite port func e k v s) := by
  unfold msixWrite
  repeat' (first
    | with_reducible assumption
    | with_reducible apply updFn_kept
    | with_reducible apply Kept.ite)

theorem bellWrite_kept (w : Win) (c off len v : Nat) {z0 s : State} (hk : Kept z0 s) : Kept z0 (bellWrite w c off len v s) := by
  unfold bellWrite
  repeat' (first
    | with_reducible assumption
    | with_reducible apply doorbell_kept
    | with_reducible apply sqTail_kept
    | with_reducible apply cqHead_kept
    | with_reducible apply Kept.ite
    | with_reducible apply Kept.ident
    | with_reducible apply Kept.foldl
    | with_reducible apply Kept.foldl_fst
    | intro _ _ _ _
    | intro _ _ _
    | intro _
    | (extract_lets +onlyGivenNames x; refine Kept.cut (t := x) ?_ ?_; (on_goal 1 => subst x); (on_goal 2 => (clear_value x; intro _)))
    | (extract_lets +onlyGivenNames x; clear_value x)
    | split
    | dsimp only
    | fail_if_no_progress (with_reducible apply Kept.parts))

theorem wordWrite_kept (w : Win) (p off v : Nat) (vr : VaultRead) {z0 s : State} (hk : Kept z0 s) : Kept z0 (wordWrite w p off v vr s) := by
  unfold wordWrite
  repeat' (first
    | with_reducible assumption
    | with_reducible apply msixWrite_kept
    | with_reducible apply guardWrite_kept
    | with_reducible apply regWrite_kept
    | with_reducible apply Kept.ite
    | with_reducible apply Kept.foldl
    | with_reducible apply Kept.foldl_fst
    | intro _ _ _ _
    | intro _ _ _
    | intro _
    | (extract_lets +onlyGivenNames x; refine Kept.cut (t := x) ?_ ?_; (on_goal 1 => subst x); (on_goal 2 => (clear_value x; intro _)))
    | (extract_lets +onlyGivenNames x; clear_value x)
    | split
    | dsimp only
    | fail_if_no_progress (with_reducible apply Kept.parts))

theorem busWrite_kept (w : Win) (p off len v : Nat) (poisoned : Bool) (vr : VaultRead) {z0 s : State} (hk : Kept z0 s) : Kept z0 (busWrite w p off len v poisoned vr s) := by
  unfold busWrite
  repeat' (first
    | with_reducible assumption
    | with_reducible apply winErr_kept
    | with_reducible apply winLog_kept
    | with_reducible apply bellWrite_kept
    | with_reducible apply incFld_kept
    | with_reducible apply wordWrite_kept
    | with_reducible apply Kept.ite
    | with_reducible apply Kept.foldl
    | with_reducible apply Kept.foldl_fst
    | intro _ _ _ _
    | intro _ _ _
    | intro _
    | (extract_lets +onlyGivenNames x; refine Kept.cut (t := x) ?_ ?_; (on_goal 1 => subst x); (on_goal 2 => (clear_value x; intro _)))
    | (extract_lets +onlyGivenNames x; clear_value x)
    | split
    | dsimp only
    | fail_if_no_progress (with_reducible apply Kept.parts))

theorem pageRead_kept (w : Win) (p off : Nat) {z0 s : State} (hk : Kept z0 s) : Kept z0 (pageRead w p off s).2 := by
  unfold pageRead
  repeat' (first
    | with_reducible assumption
    | with_reducible apply denied_kept
    | with_reducible apply needRole_kept
    | with_reducible apply Kept.ite
    | with_reducible apply Kept.foldl
    | intro _ _ _ _
    | intro _ _ _
    | intro _
    | (extract_lets +onlyGivenNames x; refine Kept.cut (t := x) ?_ ?_; (on_goal 1 => subst x); (on_goal 2 => (clear_value x; intro _)))
    | split
    | dsimp only
    | fail_if_no_progress (with_reducible apply Kept.parts))

theorem wordRead_kept (w : Win) (p off : Nat) {z0 s : State} (hk : Kept z0 s) : Kept z0 (wordRead w p off s).2 := by
  unfold wordRead
  repeat' (first
    | with_reducible assumption
    | with_reducible apply pageRead_kept
    | with_reducible apply Kept.ite
    | with_reducible apply Kept.foldl
    | intro _ _ _ _
    | intro _ _ _
    | intro _
    | split)

theorem busRead_kept (w : Win) (p off len : Nat) {z0 s : State} (hk : Kept z0 s) : Kept z0 (busRead w p off len s) := by
  unfold busRead
  repeat' (first
    | with_reducible assumption
    | with_reducible apply winErr_kept
    | with_reducible apply cfgRead_kept
    | with_reducible apply emit_kept
    | with_reducible apply winLog_kept
    | with_reducible apply wordRead_kept
    | with_reducible apply bumpFresh_kept
    | with_reducible apply Kept.ite
    | split
    | dsimp only)

theorem settingsWrite_kept  {z0 s : State} (hk : Kept z0 s) : Kept z0 (settingsWrite s) := by
  unfold settingsWrite
  repeat' (first
    | with_reducible assumption
    | with_reducible apply flashPut_kept)

theorem settingPut_kept (e : List Byte) {z0 s : State} (hk : Kept z0 s) : Kept z0 (settingPut e s) := by
  unfold settingPut
  repeat' (first
    | with_reducible assumption
    | with_reducible apply seqIf_kept
    | with_reducible apply putRows_kept
    | with_reducible apply Kept.ite)

theorem settingsRestore_kept  {z0 s : State} (hk : Kept z0 s) : Kept z0 (settingsRestore s) := by
  unfold settingsRestore
  repeat' (first
    | with_reducible assumption
    | with_reducible apply settingPut_kept
    | with_reducible apply Kept.ite
    | with_reducible apply Kept.foldl
    | intro _ _ _ _
    | intro _ _ _)

end Sys2Proof.Machine
end

