-- ==== Sys2Proof/Laws/KeptPower.lean ====
section
/-! SUPPORT. What the operations of Machine/Power.lean keep. -/

namespace Sys2Proof.Machine

theorem updPwr_kept (f : PwrSt → PwrSt) {z0 s : State} (hk : Kept z0 s) : Kept z0 (updPwr f s) := Kept.parts hk

theorem pwrEvt_kept (bit : Nat) {z0 s : State} (hk : Kept z0 s) : Kept z0 (pwrEvt bit s) := by
  unfold pwrEvt
  repeat' (first
    | with_reducible assumption
    | with_reducible apply setEvt_kept)

theorem stopStart_kept (why : Nat) {z0 s : State} (hk : Kept z0 s) : Kept z0 (stopStart why s) := by
  unfold stopStart
  repeat' (first
    | with_reducible assumption
    | with_reducible apply setFld_kept
    | with_reducible apply setEvt_kept)

theorem setPhase_kept (n : Nat) {z0 s : State} (hk : Kept z0 s) : Kept z0 (setPhase n s) := by
  unfold setPhase
  repeat' (first
    | with_reducible assumption
    | with_reducible apply setFld_kept)

theorem powerGood_kept  {z0 s : State} (hk : Kept z0 s) : Kept z0 (powerGood s) := by
  unfold powerGood
  repeat' (first
    | with_reducible assumption
    | with_reducible apply setFld_kept
    | with_reducible apply bumpFresh_kept
    | with_reducible apply startP1_kept
    | with_reducible apply updPwr_kept
    | with_reducible apply Kept.ite)

theorem railRetry_kept  {z0 s : State} (hk : Kept z0 s) : Kept z0 (railRetry s) := by
  unfold railRetry
  repeat' (first
    | with_reducible assumption
    | with_reducible apply setFld_kept
    | with_reducible apply startP1_kept
    | with_reducible apply pwrEvt_kept
    | with_reducible apply stopStart_kept
    | with_reducible apply Kept.ite)

theorem endP0_kept (xtal : Bool) {z0 s : State} (hk : Kept z0 s) : Kept z0 (endP0 xtal s) := by
  unfold endP0
  repeat' (first
    | with_reducible assumption
    | with_reducible apply setFlag_kept
    | with_reducible apply startP1_kept
    | with_reducible apply updPwr_kept
    | with_reducible apply Kept.ite)

theorem endP1_kept (f : PhaseFacts) {z0 s : State} (hk : Kept z0 s) : Kept z0 (endP1 f s) := by
  unfold endP1
  repeat' (first
    | with_reducible assumption
    | with_reducible apply setFld_kept
    | with_reducible apply setFlag_kept
    | with_reducible apply counterWrite_kept
    | with_reducible apply strapState_kept
    | with_reducible apply wdogStart_kept
    | with_reducible apply updPwr_kept
    | with_reducible apply setPhase_kept)

theorem endP2_kept (f : PhaseFacts) {z0 s : State} (hk : Kept z0 s) : Kept z0 (endP2 f s) := by
  unfold endP2
  extract_lets s1
  have k1 : Kept z0 s1 := setFld_kept _ _ (setFld_kept _ _ hk)
  clear_value s1
  split
  next t h => exact setPhase_kept _ (fwBoot_kept k1 h)
  · exact stopStart_kept _ k1

theorem endP3_kept (f : PhaseFacts) {z0 s : State} (hk : Kept z0 s) : Kept z0 (endP3 f s) := by
  unfold endP3
  repeat' (first
    | with_reducible assumption
    | with_reducible apply updPwr_kept
    | with_reducible apply stopStart_kept
    | with_reducible apply setPhase_kept
    | with_reducible apply Kept.ite)

theorem lostLoad_kept  {z0 s : State} (hk : Kept z0 s) : Kept z0 (lostLoad s) := by
  unfold lostLoad
  repeat' (first
    | with_reducible assumption
    | with_reducible apply updStore_kept)

theorem suspLoad_kept  {z0 s : State} (hk : Kept z0 s) : Kept z0 (suspLoad s) := by
  unfold suspLoad
  repeat' (first
    | with_reducible assumption
    | with_reducible apply updStore_kept)

theorem endP4_kept (f : PhaseFacts) {z0 s : State} (hk : Kept z0 s) : Kept z0 (endP4 f s) := by
  unfold endP4
  repeat' (first
    | with_reducible assumption
    | with_reducible apply volLoad_kept
    | with_reducible apply enableSet_kept
    | with_reducible apply showNode_kept
    | with_reducible apply absorb_kept
    | with_reducible apply settingsRestore_kept
    | with_reducible apply stopStart_kept
    | with_reducible apply setPhase_kept
    | with_reducible apply lostLoad_kept
    | with_reducible apply suspLoad_kept
    | with_reducible apply Kept.ite
    | with_reducible apply Kept.foldl
    | intro _ _ _ _
    | intro _ _ _)

theorem endP5_kept (f : PhaseFacts) {z0 s : State} (hk : Kept z0 s) : Kept z0 (endP5 f s) := by
  unfold endP5
  repeat' (first
    | with_reducible assumption
    | with_reducible apply authStartup_kept
    | with_reducible apply enableSet_kept
    | with_reducible apply loadBoard_kept
    | with_reducible apply setPhase_kept
    | with_reducible apply updHost_kept
    | with_reducible apply Kept.ite
    | with_reducible apply Kept.foldl
    | with_reducible apply Kept.foldl_fst
    | intro _ _ _ _
    | intro _ _ _
    | intro _
    | (extract_lets +onlyGivenNames x; refine Kept.cut (t := x) ?_ ?_; (on_goal 1 => subst x); (on_goal 2 => (clear_value x; intro _)))
    | (extract_lets +onlyGivenNames x; clear_value x)
    | split
    | dsimp only
    | fail_if_no_progress (with_reducible apply Kept.parts))

theorem endP6_kept  {z0 s : State} (hk : Kept z0 s) : Kept z0 (endP6 s) := by
  unfold endP6
  repeat' (first
    | with_reducible assumption
    | with_reducible apply writeThroughOn_kept
    | with_reducible apply setFld_kept
    | with_reducible apply setDmc_kept
    | with_reducible apply stopStart_kept
    | with_reducible apply setPhase_kept
    | with_reducible apply Kept.ite
    | with_reducible apply Kept.foldl
    | intro _ _ _ _
    | intro _ _ _)

theorem geomAuto_kept  {z0 s : State} (hk : Kept z0 s) : Kept z0 (geomAuto s) := by
  unfold geomAuto
  repeat' (first
    | with_reducible assumption
    | with_reducible apply setFld_kept
    | with_reducible apply Kept.ite)

theorem endP7_kept  {z0 s : State} (hk : Kept z0 s) : Kept z0 (endP7  s) := by
  unfold endP7
  repeat' (first
    | with_reducible assumption
    | with_reducible apply setEvt_kept
    | with_reducible apply setFld_kept
    | with_reducible apply setPhase_kept
    | with_reducible apply geomAuto_kept
    | with_reducible apply replayEnd_kept
    | with_reducible apply vaultCheck_kept
    | with_reducible apply joinPair_kept
    | with_reducible apply cyclesSync_kept
    | with_reducible apply purgeStart_kept
    | with_reducible apply Kept.ite
    | with_reducible apply Kept.foldl
    | with_reducible apply Kept.foldl_fst
    | intro _ _ _ _
    | intro _ _ _
    | intro _
    | (extract_lets +onlyGivenNames x; refine Kept.cut (t := x) ?_ ?_; (on_goal 1 => subst x); (on_goal 2 => (clear_value x; intro _)))
    | (extract_lets +onlyGivenNames x; clear_value x)
    | split
    | dsimp only
    | fail_if_no_progress (with_reducible apply Kept.parts))

theorem phaseEnd_kept (f : PhaseFacts) {z0 s : State} (hk : Kept z0 s) : Kept z0 (phaseEnd f s) := by
  unfold phaseEnd
  repeat' (first
    | with_reducible assumption
    | with_reducible apply endP0_kept
    | with_reducible apply endP1_kept
    | with_reducible apply endP2_kept
    | with_reducible apply endP3_kept
    | with_reducible apply endP4_kept
    | with_reducible apply endP5_kept
    | with_reducible apply endP6_kept
    | with_reducible apply endP7_kept
    | with_reducible apply Kept.ite
    | with_reducible apply Kept.foldl
    | with_reducible apply Kept.foldl_fst
    | intro _ _ _ _
    | intro _ _ _
    | intro _
    | (extract_lets +onlyGivenNames x; refine Kept.cut (t := x) ?_ ?_; (on_goal 1 => subst x); (on_goal 2 => (clear_value x; intro _)))
    | (extract_lets +onlyGivenNames x; clear_value x)
    | split
    | dsimp only
    | fail_if_no_progress (with_reducible apply Kept.parts))

theorem phaseTimeout_kept  {z0 s : State} (hk : Kept z0 s) : Kept z0 (phaseTimeout s) := by
  unfold phaseTimeout
  repeat' (first
    | with_reducible assumption
    | with_reducible apply stopStart_kept
    | with_reducible apply endP0_kept
    | with_reducible apply Kept.ite)

theorem requestReset_kept (code : Nat) {z0 s : State} (hk : Kept z0 s) : Kept z0 (requestReset code s) := by
  unfold requestReset
  repeat' (first
    | with_reducible assumption
    | with_reducible apply updCache_kept
    | with_reducible apply deviceReset_kept
    | with_reducible apply startDump_kept
    | with_reducible apply Kept.ite)

theorem showMv_kept (input mv : Nat) {z0 s : State} (hk : Kept z0 s) : Kept z0 (showMv input mv s) := by
  unfold showMv
  repeat' (first
    | with_reducible assumption
    | with_reducible apply setFld_kept
    | with_reducible apply sketchExtreme_kept
    | with_reducible apply Kept.ite
    | with_reducible apply Kept.foldl
    | with_reducible apply Kept.foldl_fst
    | intro _ _ _ _
    | intro _ _ _
    | intro _
    | (extract_lets +onlyGivenNames x; refine Kept.cut (t := x) ?_ ?_; (on_goal 1 => subst x); (on_goal 2 => (clear_value x; intro _)))
    | (extract_lets +onlyGivenNames x; clear_value x)
    | split
    | dsimp only
    | fail_if_no_progress (with_reducible apply Kept.parts))

theorem supplyWarn_kept (io : Bool) (mv : Nat) {z0 s : State} (hk : Kept z0 s) : Kept z0 (supplyWarn io mv s) := by
  unfold supplyWarn
  repeat' (first
    | with_reducible assumption
    | with_reducible apply setFld_kept
    | with_reducible apply pwrEvt_kept
    | with_reducible apply showMv_kept
    | with_reducible apply Kept.ite)

theorem supplyClear_kept (io : Bool) (mv : Nat) {z0 s : State} (hk : Kept z0 s) : Kept z0 (supplyClear io mv s) := by
  unfold supplyClear
  repeat' (first
    | with_reducible assumption
    | with_reducible apply setFld_kept
    | with_reducible apply showMv_kept
    | with_reducible apply Kept.ite)

theorem showTemp_kept (t : Int) {z0 s : State} (hk : Kept z0 s) : Kept z0 (showTemp t s) := by
  unfold showTemp
  repeat' (first
    | with_reducible assumption
    | with_reducible apply sketchExtreme_kept
    | with_reducible apply setFld_kept
    | with_reducible apply Kept.ite
    | with_reducible apply Kept.foldl
    | with_reducible apply Kept.foldl_fst
    | intro _ _ _ _
    | intro _ _ _
    | intro _
    | (extract_lets +onlyGivenNames x; refine Kept.cut (t := x) ?_ ?_; (on_goal 1 => subst x); (on_goal 2 => (clear_value x; intro _)))
    | (extract_lets +onlyGivenNames x; clear_value x)
    | split
    | dsimp only
    | fail_if_no_progress (with_reducible apply Kept.parts))

theorem tempWarn_kept (t : Int) {z0 s : State} (hk : Kept z0 s) : Kept z0 (tempWarn t s) := by
  unfold tempWarn
  repeat' (first
    | with_reducible assumption
    | with_reducible apply showTemp_kept
    | with_reducible apply lineEdge_kept
    | with_reducible apply pwrEvt_kept
    | with_reducible apply Kept.ite
    | with_reducible apply Kept.foldl
    | with_reducible apply Kept.foldl_fst
    | intro _ _ _ _
    | intro _ _ _
    | intro _
    | (extract_lets +onlyGivenNames x; refine Kept.cut (t := x) ?_ ?_; (on_goal 1 => subst x); (on_goal 2 => (clear_value x; intro _)))
    | (extract_lets +onlyGivenNames x; clear_value x)
    | split
    | dsimp only
    | fail_if_no_progress (with_reducible apply Kept.parts))

theorem supervisorFence_kept  {z0 s : State} (hk : Kept z0 s) : Kept z0 (supervisorFence  s) := by
  unfold supervisorFence
  repeat' (first
    | with_reducible assumption
    | with_reducible apply ltrSync_kept
    | with_reducible apply deviceFence_kept
    | with_reducible apply Kept.ite
    | with_reducible apply Kept.foldl
    | with_reducible apply Kept.foldl_fst
    | intro _ _ _ _
    | intro _ _ _
    | intro _
    | (extract_lets +onlyGivenNames x; refine Kept.cut (t := x) ?_ ?_; (on_goal 1 => subst x); (on_goal 2 => (clear_value x; intro _)))
    | (extract_lets +onlyGivenNames x; clear_value x)
    | split
    | dsimp only
    | fail_if_no_progress (with_reducible apply Kept.parts))

theorem tempCritical_kept (t : Int) {z0 s : State} (hk : Kept z0 s) : Kept z0 (tempCritical t s) := by
  unfold tempCritical
  repeat' (first
    | with_reducible assumption
    | with_reducible apply showTemp_kept
    | with_reducible apply supervisorFence_kept
    | with_reducible apply lineEdge_kept
    | with_reducible apply Kept.ite
    | with_reducible apply Kept.foldl
    | with_reducible apply Kept.foldl_fst
    | intro _ _ _ _
    | intro _ _ _
    | intro _
    | (extract_lets +onlyGivenNames x; refine Kept.cut (t := x) ?_ ?_; (on_goal 1 => subst x); (on_goal 2 => (clear_value x; intro _)))
    | (extract_lets +onlyGivenNames x; clear_value x)
    | split
    | dsimp only
    | fail_if_no_progress (with_reducible apply Kept.parts))

theorem leaveNight_kept  {z0 s : State} (hk : Kept z0 s) : Kept z0 (leaveNight s) := by
  unfold leaveNight
  repeat' (first
    | with_reducible assumption
    | with_reducible apply setPower_kept
    | with_reducible apply freqStart_kept
    | with_reducible apply wakeBlock_kept
    | with_reducible apply Kept.ite
    | with_reducible apply Kept.foldl
    | intro _ _ _ _
    | intro _ _ _)

theorem hclkLost_kept (n : Nat) (common : Bool) {z0 s : State} (hk : Kept z0 s) : Kept z0 (hclkLost n common s) := by
  unfold hclkLost
  repeat' (first
    | with_reducible assumption
    | with_reducible apply setFld_kept
    | with_reducible apply setEvt_kept
    | with_reducible apply hostDown_kept
    | with_reducible apply supervisorFence_kept
    | with_reducible apply Kept.ite)

theorem opTick_kept  {z0 s : State} (hk : Kept z0 s) : Kept z0 (opTick s) := by
  unfold opTick
  repeat' (first
    | with_reducible assumption
    | with_reducible apply incFld_kept
    | with_reducible apply counterWrite_kept
    | with_reducible apply Kept.ite)

theorem setStby_kept (n : Nat) {z0 s : State} (hk : Kept z0 s) : Kept z0 (setStby n s) := by
  unfold setStby
  repeat' (first
    | with_reducible assumption
    | with_reducible apply cyclesSync_kept
    | with_reducible apply updPwr_kept)

theorem standbyRecords_kept  {z0 s : State} (hk : Kept z0 s) : Kept z0 (standbyRecords s) := by
  unfold standbyRecords
  repeat' (first
    | with_reducible assumption
    | with_reducible apply progressRecord_kept
    | with_reducible apply proofRecord_kept
    | with_reducible apply Kept.ite
    | with_reducible apply Kept.foldl
    | intro _ _ _ _
    | intro _ _ _)

theorem standbyImage_kept  {z0 s : State} (hk : Kept z0 s) : Kept z0 (standbyImage s) := by
  unfold standbyImage
  repeat' (first
    | with_reducible assumption
    | with_reducible apply updCache_kept
    | with_reducible apply chunkWrite_kept
    | with_reducible apply Kept.ite
    | with_reducible apply Kept.foldl
    | intro _ _ _ _
    | intro _ _ _
    | intro _
    | split)

theorem standbyDrives_kept  {z0 s : State} (hk : Kept z0 s) : Kept z0 (standbyDrives s) := by
  unfold standbyDrives
  repeat' (first
    | with_reducible assumption
    | with_reducible apply quiesce_kept
    | with_reducible apply Kept.ite
    | with_reducible apply Kept.foldl
    | intro _ _ _ _
    | intro _ _ _)

theorem standbyStep_kept  {z0 s : State} (hk : Kept z0 s) : Kept z0 (standbyStep  s) := by
  unfold standbyStep
  repeat' (first
    | with_reducible assumption
    | with_reducible apply setStby_kept
    | with_reducible apply standbyImage_kept
    | with_reducible apply standbyRecords_kept
    | with_reducible apply standbyDrives_kept
    | with_reducible apply mainOff_kept
    | with_reducible apply setFld_kept
    | with_reducible apply flushHeld_kept
    | with_reducible apply startP1_kept
    | with_reducible apply Kept.ite
    | with_reducible apply Kept.foldl
    | with_reducible apply Kept.foldl_fst
    | intro _ _ _ _
    | intro _ _ _
    | intro _
    | (extract_lets +onlyGivenNames x; refine Kept.cut (t := x) ?_ ?_; (on_goal 1 => subst x); (on_goal 2 => (clear_value x; intro _)))
    | (extract_lets +onlyGivenNames x; clear_value x)
    | split
    | dsimp only
    | fail_if_no_progress (with_reducible apply Kept.parts))

theorem wake_kept  {z0 s : State} (hk : Kept z0 s) : Kept z0 (wake s) := by
  unfold wake
  repeat' (first
    | with_reducible assumption
    | with_reducible apply setFld_kept
    | with_reducible apply startP1_kept
    | with_reducible apply updPwr_kept
    | with_reducible apply setStby_kept
    | with_reducible apply Kept.ite)

end Sys2Proof.Machine
end

