-- ==== Sys2Proof/Laws/PerInstr.lean ====
section
/-! SUPPORT. What the well-formedness of each command says: the units its operands name exist. -/

namespace Sys2Proof.Laws.Form

/-- A command is well formed exactly when each unit it names is one the device has and its other operands have their shape. -/
def Statement (i : Sys2Proof.Instr) : Prop := i.wf = true ↔ (∀ u ∈ i.units, u.2 < u.1.count) ∧ i.shape = true

theorem statement_of_wf (i : Sys2Proof.Instr) : Statement i := by simp [Statement, Sys2Proof.Instr.wf]

theorem sqTailDoorbell (w : Win) (c size v : Nat) : Statement (.sqTailDoorbell w c size v) := statement_of_wf _
theorem cqHeadDoorbell (w : Win) (c size v : Nat) : Statement (.cqHeadDoorbell w c size v) := statement_of_wf _
theorem submissionFetch (c : Nat) : Statement (.submissionFetch c) := statement_of_wf _
theorem submissionEntryReceived (port tag : Nat) (r : HostRd) : Statement (.submissionEntryReceived port tag r) := statement_of_wf _
theorem read (cmd : Nat) : Statement (.read cmd) := statement_of_wf _
theorem write (cmd : Nat) : Statement (.write cmd) := statement_of_wf _
theorem flush (cmd : Nat) : Statement (.flush cmd) := statement_of_wf _
theorem writeZeroes (cmd : Nat) : Statement (.writeZeroes cmd) := statement_of_wf _
theorem deallocate (cmd : Nat) : Statement (.deallocate cmd) := statement_of_wf _
theorem compare (cmd : Nat) : Statement (.compare cmd) := statement_of_wf _
theorem verify (cmd : Nat) : Statement (.verify cmd) := statement_of_wf _
theorem fill (cmd : Nat) : Statement (.fill cmd) := statement_of_wf _
theorem copy (cmd : Nat) : Statement (.copy cmd) := statement_of_wf _
theorem volumeInfo (cmd : Nat) : Statement (.volumeInfo cmd) := statement_of_wf _
theorem createVolume (cmd : Nat) : Statement (.createVolume cmd) := statement_of_wf _
theorem deleteVolume (cmd : Nat) : Statement (.deleteVolume cmd) := statement_of_wf _
theorem resizeVolume (cmd : Nat) : Statement (.resizeVolume cmd) := statement_of_wf _
theorem attach (cmd : Nat) : Statement (.attach cmd) := statement_of_wf _
theorem detach (cmd : Nat) : Statement (.detach cmd) := statement_of_wf _
theorem createPlate (cmd : Nat) (page : HostRd) (facts : PlateFacts) : Statement (.createPlate cmd page facts) := statement_of_wf _
theorem deletePlate (cmd : Nat) : Statement (.deletePlate cmd) := statement_of_wf _
theorem blockCmd (cmd : Nat) (media : PlateMedia) (ok1 ok2 : Bool) (rate nonce : Nat) : Statement (.blockCmd cmd media ok1 ok2 rate nonce) := statement_of_wf _
theorem getLostWrites (cmd : Nat) : Statement (.getLostWrites cmd) := statement_of_wf _
theorem resync (cmd : Nat) : Statement (.resync cmd) := statement_of_wf _
theorem chipResync (w : Win) (v : Nat) : Statement (.chipResync w v) := statement_of_wf _
theorem snapshotPublish : Statement (.snapshotPublish) := statement_of_wf _
theorem tenantInfo (n : Nat) : Statement (.tenantInfo n) := statement_of_wf _
theorem setSched (n : Nat) : Statement (.setSched n) := statement_of_wf _
theorem setClass (n : Nat) : Statement (.setClass n) := statement_of_wf _
theorem timeAdj (n : Nat) : Statement (.timeAdj n) := statement_of_wf _
theorem roleChallenge (cmd nonce : Nat) : Statement (.roleChallenge cmd nonce) := statement_of_wf _
theorem roleResponse (cmd : Nat) (page : HostRd) : Statement (.roleResponse cmd page) := statement_of_wf _
theorem roleDrop (cmd : Nat) : Statement (.roleDrop cmd) := statement_of_wf _
theorem firmwareStage (cmd : Nat) (page : HostRd) : Statement (.firmwareStage cmd page) := statement_of_wf _
theorem firmwareCommit (cmd : Nat) : Statement (.firmwareCommit cmd) := statement_of_wf _
theorem admissionDecision (ue : Bool) : Statement (.admissionDecision ue) := statement_of_wf _
theorem grantQueuedSegment : Statement (.grantQueuedSegment) := statement_of_wf _
theorem hostReadCompletion (port tag : Nat) (r : HostRd) : Statement (.hostReadCompletion port tag r) := statement_of_wf _
theorem dataStaged (j : Nat) : Statement (.dataStaged j) := statement_of_wf _
theorem groupCommitPoint (j : Nat) : Statement (.groupCommitPoint j) := statement_of_wf _
theorem burinJobEnd (sop : Bool) (id : Nat) : Statement (.burinJobEnd sop id) := statement_of_wf _
theorem burinBeatMismatch (b : Nat) (again : Bool) : Statement (.burinBeatMismatch b again) := statement_of_wf _
theorem burinPipeAwake (b : Nat) : Statement (.burinPipeAwake b) := statement_of_wf _
theorem katStart (w : Win) (b : Nat) : Statement (.katStart w b) := statement_of_wf _
theorem katDone (b : Nat) (lanes : List (Byte × Byte)) : Statement (.katDone b lanes) := statement_of_wf _
theorem memberWriteComplete (id : Nat) (st : Nvme) : Statement (.memberWriteComplete id st) := statement_of_wf _
theorem tagPageReadComplete (id : Nat) (st : Nvme) (tags : List Nat) : Statement (.tagPageReadComplete id st tags) := statement_of_wf _
theorem tagWriteComplete (id : Nat) (st : Nvme) : Statement (.tagWriteComplete id st) := statement_of_wf _
theorem committed (j : Nat) : Statement (.committed j) := statement_of_wf _
theorem journalEntryFreed (j : Nat) : Statement (.journalEntryFreed j) := statement_of_wf _
theorem writeSeqLabelRewrite (p : Nat) : Statement (.writeSeqLabelRewrite p) := statement_of_wf _
theorem labelUpdateComplete (p : Nat) : Statement (.labelUpdateComplete p) := statement_of_wf _
theorem journalHeaderWriteDone (p : Nat) : Statement (.journalHeaderWriteDone p) := statement_of_wf _
theorem atomicLogWriteDone (j : Nat) : Statement (.atomicLogWriteDone j) := statement_of_wf _
theorem journalRecordWriteDone (p blk : Nat) : Statement (.journalRecordWriteDone p blk) := statement_of_wf _
theorem remirrorCopyDone (p : Nat) : Statement (.remirrorCopyDone p) := statement_of_wf _
theorem admProbe (w : Win) (v : Nat) : Statement (.admProbe w v) := statement_of_wf _
theorem admClrHwm (w : Win) (v : Nat) : Statement (.admClrHwm w v) := statement_of_wf _
theorem jnlClrHwm (w : Win) (v : Nat) : Statement (.jnlClrHwm w v) := statement_of_wf _
theorem memberReadComplete (id : Nat) (st : Nvme) (blks : List TBlk) : Statement (.memberReadComplete id st blks) := statement_of_wf _
theorem lbtWriteDone (sop : Nat) : Statement (.lbtWriteDone sop) := statement_of_wf _
theorem lbtRemovalWrite (p : Nat) : Statement (.lbtRemovalWrite p) := statement_of_wf _
theorem failMember (w : Win) (p slot : Nat) : Statement (.failMember w p slot) := statement_of_wf _
theorem replace (w : Win) (p slot : Nat) : Statement (.replace w p slot) := statement_of_wf _
theorem startPass (w : Win) (p : Nat) : Statement (.startPass w p) := statement_of_wf _
theorem pausePass (w : Win) (p : Nat) : Statement (.pausePass w p) := statement_of_wf _
theorem importPlate (w : Win) (p : Nat) (m : PlateMedia) : Statement (.importPlate w p m) := statement_of_wf _
theorem recover (w : Win) (p : Nat) : Statement (.recover w p) := statement_of_wf _
theorem release (w : Win) (p : Nat) : Statement (.release w p) := statement_of_wf _
theorem rbdPauseAll (w : Win) (v : Nat) : Statement (.rbdPauseAll w v) := statement_of_wf _
theorem passStart (p : Nat) : Statement (.passStart p) := statement_of_wf _
theorem rebuildStepStart (p : Nat) : Statement (.rebuildStepStart p) := statement_of_wf _
theorem rebuildStepDone (sop : Nat) : Statement (.rebuildStepDone sop) := statement_of_wf _
theorem progressRecord (p : Nat) (ok : Bool) : Statement (.progressRecord p ok) := statement_of_wf _
theorem rebuildSliceEnd (p lenUs : Nat) : Statement (.rebuildSliceEnd p lenUs) := statement_of_wf _
theorem assembly (found : List FoundNs) (media : List PlateMedia) (vault : VaultRead) : Statement (.assembly found media vault) := statement_of_wf _
theorem proofCycleStart (p : Nat) : Statement (.proofCycleStart p) := statement_of_wf _
theorem proofUnitStart (p : Nat) : Statement (.proofUnitStart p) := statement_of_wf _
theorem proofUnitDone (sop : Nat) : Statement (.proofUnitDone sop) := statement_of_wf _
theorem suspectListWrite : Statement (.suspectListWrite) := statement_of_wf _
theorem proofProgressRecord (p : Nat) : Statement (.proofProgressRecord p) := statement_of_wf _
theorem proofSliceEnd (p lenUs : Nat) : Statement (.proofSliceEnd p lenUs) := statement_of_wf _
theorem proofDeadlinePassed (p : Nat) : Statement (.proofDeadlinePassed p) := statement_of_wf _
theorem startCycle (w : Win) (p : Nat) : Statement (.startCycle w p) := statement_of_wf _
theorem proofPause (w : Win) (p : Nat) : Statement (.proofPause w p) := statement_of_wf _
theorem proofResume (w : Win) (p : Nat) : Statement (.proofResume w p) := statement_of_wf _
theorem clearSuspect (w : Win) : Statement (.clearSuspect w) := statement_of_wf _
theorem prfPauseAll (w : Win) (v : Nat) : Statement (.prfPauseAll w v) := statement_of_wf _
theorem destageStart : Statement (.destageStart) := statement_of_wf _
theorem pmirTimeout (m : Nat) : Statement (.pmirTimeout m) := statement_of_wf _
theorem pmirResume (node : Nat) : Statement (.pmirResume node) := statement_of_wf _
theorem dirtyCeilRecompute : Statement (.dirtyCeilRecompute) := statement_of_wf _
theorem backedModeReturn : Statement (.backedModeReturn) := statement_of_wf _
theorem writeThroughEnd : Statement (.writeThroughEnd) := statement_of_wf _
theorem check (w : Win) (ok1 ok2 : Bool) (rate : Nat) : Statement (.check w ok1 ok2 rate) := statement_of_wf _
theorem brace (mv : Nat) : Statement (.brace mv) := statement_of_wf _
theorem braceEnd (mv : Nat) : Statement (.braceEnd mv) := statement_of_wf _
theorem backupEntry (pf good : Bool) : Statement (.backupEntry pf good) := statement_of_wf _
theorem vaultChunkDone (id : Nat) (good : Bool) : Statement (.vaultChunkDone id good) := statement_of_wf _
theorem replayAsmWaitExpiry : Statement (.replayAsmWaitExpiry) := statement_of_wf _
theorem lostWriteListWrite : Statement (.lostWriteListWrite) := statement_of_wf _
theorem cacheFlush (w : Win) : Statement (.cacheFlush w) := statement_of_wf _
theorem clearLost (w : Win) (vol : Nat) : Statement (.clearLost w vol) := statement_of_wf _
theorem bemSample (us i : Nat) (v t : Option Nat) : Statement (.bemSample us i v t) := statement_of_wf _
theorem bemHibernateWake (us i v t : Nat) : Statement (.bemHibernateWake us i v t) := statement_of_wf _
theorem restReading : Statement (.restReading) := statement_of_wf _
theorem bemDayBoundary : Statement (.bemDayBoundary) := statement_of_wf _
theorem restWindowTimeout : Statement (.restWindowTimeout) := statement_of_wf _
theorem learnCycleStart : Statement (.learnCycleStart) := statement_of_wf _
theorem rintMeasure : Statement (.rintMeasure) := statement_of_wf _
theorem estimatorStoreWrite (ok : Bool) : Statement (.estimatorStoreWrite ok) := statement_of_wf _
theorem batPresChange (present : Bool) : Statement (.batPresChange present) := statement_of_wf _
theorem packInserted (ident : Option (List Byte)) (nonce : Nat) : Statement (.packInserted ident nonce) := statement_of_wf _
theorem authResponseRead (resp : Option (List Byte)) : Statement (.authResponseRead resp) := statement_of_wf _
theorem authRetry (ident : Option (List Byte)) (nonce : Nat) : Statement (.authRetry ident nonce) := statement_of_wf _
theorem authPeriodic (nonce : Nat) : Statement (.authPeriodic nonce) := statement_of_wf _
theorem learn (w : Win) : Statement (.learn w) := statement_of_wf _
theorem abortLearn (w : Win) : Statement (.abortLearn w) := statement_of_wf _
theorem auth (w : Win) (nonce : Nat) : Statement (.auth w nonce) := statement_of_wf _
theorem forget (w : Win) : Statement (.forget w) := statement_of_wf _
theorem ctxBindWrite (w : Win) (c v : Nat) : Statement (.ctxBindWrite w c v) := statement_of_wf _
theorem runSet (w : Win) (c : Nat) : Statement (.runSet w c) := statement_of_wf _
theorem runClear (w : Win) (c : Nat) : Statement (.runClear w c) := statement_of_wf _
theorem errClear (w : Win) (c : Nat) : Statement (.errClear w c) := statement_of_wf _
theorem retire (w : Win) (c : Nat) : Statement (.retire w c) := statement_of_wf _
theorem irqAggTimer (c : Nat) : Statement (.irqAggTimer c) := statement_of_wf _
theorem roundEnd (late : Nat) : Statement (.roundEnd late) := statement_of_wf _
theorem slotSecondsTick : Statement (.slotSecondsTick) := statement_of_wf _
theorem epochEnd : Statement (.epochEnd) := statement_of_wf _
theorem meteringRecordsWrite : Statement (.meteringRecordsWrite) := statement_of_wf _
theorem mtrStep (w : Win) : Statement (.mtrStep w) := statement_of_wf _
theorem mtrSlew (w : Win) : Statement (.mtrSlew w) := statement_of_wf _
theorem slewDone : Statement (.slewDone) := statement_of_wf _
theorem mtrEnable (w : Win) (v : Nat) : Statement (.mtrEnable w v) := statement_of_wf _
theorem mtrHeadWrite (w : Win) (v : Nat) : Statement (.mtrHeadWrite w v) := statement_of_wf _
theorem tscClrMax (w : Win) (v : Nat) : Statement (.tscClrMax w v) := statement_of_wf _
theorem hostLinkUp (port speed width : Nat) (reversed : Bool) : Statement (.hostLinkUp port speed width reversed) := statement_of_wf _
theorem hostLinkDown (port : Nat) : Statement (.hostLinkDown port) := statement_of_wf _
theorem perstAssert (port : Nat) : Statement (.perstAssert port) := statement_of_wf _
theorem perstDeassert (port : Nat) : Statement (.perstDeassert port) := statement_of_wf _
theorem hotReset (port : Nat) : Statement (.hotReset port) := statement_of_wf _
theorem functionLevelReset (port func : Nat) : Statement (.functionLevelReset port func) := statement_of_wf _
theorem flrEnd (port func : Nat) : Statement (.flrEnd port func) := statement_of_wf _
theorem busMasterEnableClear (port func : Nat) : Statement (.busMasterEnableClear port func) := statement_of_wf _
theorem busMasterEnableSet (port func : Nat) (cfg : FnCfg) : Statement (.busMasterEnableSet port func cfg) := statement_of_wf _
theorem vfEnableSet (port numVfs : Nat) (ctl : VfCtl) : Statement (.vfEnableSet port numVfs ctl) := statement_of_wf _
theorem vfEnableClear (port : Nat) : Statement (.vfEnableClear port) := statement_of_wf _
theorem d3hotEntry (port : Nat) : Statement (.d3hotEntry port) := statement_of_wf _
theorem d0Return (port : Nat) : Statement (.d0Return port) := statement_of_wf _
theorem pmeTurnOff (port : Nat) : Statement (.pmeTurnOff port) := statement_of_wf _
theorem hostL1Entry (port : Nat) (sub : L1Sub) : Statement (.hostL1Entry port sub) := statement_of_wf _
theorem msixUnmask (port func : Nat) (entry : Option Nat) : Statement (.msixUnmask port func entry) := statement_of_wf _
theorem completionTimeout (tag : Nat) : Statement (.completionTimeout tag) := statement_of_wf _
theorem slotPresenceDetected (p : Nat) : Statement (.slotPresenceDetected p) := statement_of_wf _
theorem pwrGoodTimeout (p : Nat) : Statement (.pwrGoodTimeout p) := statement_of_wf _
theorem perstReleaseTimer (p : Nat) : Statement (.perstReleaseTimer p) := statement_of_wf _
theorem driveLinkUp (p speed width : Nat) : Statement (.driveLinkUp p speed width) := statement_of_wf _
theorem driveLinkTimeout (p : Nat) : Statement (.driveLinkTimeout p) := statement_of_wf _
theorem nvmeBringUpDone (p : Nat) (id : DriveId) (found : List FoundNs) (media : List PlateMedia) : Statement (.nvmeBringUpDone p id found media) := statement_of_wf _
theorem attentionButton (p : Nat) : Statement (.attentionButton p) := statement_of_wf _
theorem attentionWindowEnd (p : Nat) : Statement (.attentionWindowEnd p) := statement_of_wf _
theorem presenceLost (p : Nat) : Statement (.presenceLost p) := statement_of_wf _
theorem powerFault (p : Nat) : Statement (.powerFault p) := statement_of_wf _
theorem driveLinkDown (p : Nat) : Statement (.driveLinkDown p) := statement_of_wf _
theorem nvmeCommandTimeout (p : Nat) : Statement (.nvmeCommandTimeout p) := statement_of_wf _
theorem controllerResetDone (p : Nat) : Statement (.controllerResetDone p) := statement_of_wf _
theorem smartPoll (p warn tempK : Nat) (changed : Option DriveId) : Statement (.smartPoll p warn tempK changed) := statement_of_wf _
theorem ssbFrame (chain : Nat) (ins : List Nat) : Statement (.ssbFrame chain ins) := statement_of_wf _
theorem indicatorBlinkToggle : Statement (.indicatorBlinkToggle) := statement_of_wf _
theorem powerOff (w : Win) (p : Nat) : Statement (.powerOff w p) := statement_of_wf _
theorem powerOn (w : Win) (p : Nat) : Statement (.powerOn w p) := statement_of_wf _
theorem rescan (w : Win) (p : Nat) (id : DriveId) (found : List FoundNs) : Statement (.rescan w p id found) := statement_of_wf _
theorem driveL1Entry (p : Nat) : Statement (.driveL1Entry p) := statement_of_wf _
theorem dramTrainingDone (c : Nat) (d : Option Dimm) (lanes : List (Nat × Nat)) : Statement (.dramTrainingDone c d lanes) := statement_of_wf _
theorem dramInitDone (c : Nat) : Statement (.dramInitDone c) := statement_of_wf _
theorem scrubRead (c : Nat) (errs : List DevErr) : Statement (.scrubRead c errs) := statement_of_wf _
theorem dramCorrectedBurst (c : Nat) (req : DramReq) (devs lo hi : List Nat) : Statement (.dramCorrectedBurst c req devs lo hi) := statement_of_wf _
theorem dramUncorrectedBurst (c : Nat) (req : DramReq) (devs lo hi : List Nat) : Statement (.dramUncorrectedBurst c req devs lo hi) := statement_of_wf _
theorem freqChangeDone : Statement (.freqChangeDone) := statement_of_wf _
theorem dramRefresh (c : Nat) (waiting : Bool) : Statement (.dramRefresh c waiting) := statement_of_wf _
theorem requestUrgent (c port : Nat) : Statement (.requestUrgent c port) := statement_of_wf _
theorem rowIdleClose (c sub rank group bank : Nat) : Statement (.rowIdleClose c sub rank group bank) := statement_of_wf _
theorem diagRead (w : Win) (c hi data : Nat) (devs : List Nat) (syms : List (Nat × Nat)) : Statement (.diagRead w c hi data devs syms) := statement_of_wf _
theorem dramRelease (w : Win) (c : Nat) : Statement (.dramRelease w c) := statement_of_wf _
theorem tlkTrainingDone (x speed width : Nat) (rev : Bool) (node link : Nat) : Statement (.tlkTrainingDone x speed width rev node link) := statement_of_wf _
theorem retrainTimeout (x : Nat) : Statement (.retrainTimeout x) := statement_of_wf _
theorem flitReceived (x : Nat) (raw : List Byte) : Statement (.flitReceived x raw) := statement_of_wf _
theorem nakReceived (x seq : Nat) : Statement (.nakReceived x seq) := statement_of_wf _
theorem replayTimer (x : Nat) : Statement (.replayTimer x) := statement_of_wf _
theorem ackTimer (x : Nat) : Statement (.ackTimer x) := statement_of_wf _
theorem messageForward (x : Nat) (k : MsgKind) (m : Msg) : Statement (.messageForward x k m) := statement_of_wf _
theorem leaseRenewTimer : Statement (.leaseRenewTimer) := statement_of_wf _
theorem renew (m : Msg) : Statement (.renew m) := statement_of_wf _
theorem renewAck (m : Msg) : Statement (.renewAck m) := statement_of_wf _
theorem leaseExpired (owner : Nat) : Statement (.leaseExpired owner) := statement_of_wf _
theorem leaseDrop (node : Nat) : Statement (.leaseDrop node) := statement_of_wf _
theorem reservationReportComplete (p : Nat) (holder : Bool) : Statement (.reservationReportComplete p holder) := statement_of_wf _
theorem preemptComplete (id : Nat) (md : PlateMedia) : Statement (.preemptComplete id md) := statement_of_wf _
theorem preemptTimeout (id : Nat) : Statement (.preemptTimeout id) := statement_of_wf _
theorem takeoverDone (id : Nat) : Statement (.takeoverDone id) := statement_of_wf _
theorem journalEntryMessage (m : Msg) : Statement (.journalEntryMessage m) := statement_of_wf _
theorem fenceNotice (m : Msg) : Statement (.fenceNotice m) := statement_of_wf _
theorem progress (m : Msg) : Statement (.progress m) := statement_of_wf _
theorem proof (m : Msg) : Statement (.proof m) := statement_of_wf _
theorem suspect (m : Msg) : Statement (.suspect m) := statement_of_wf _
theorem attachOffer (m : Msg) (reach resvOk : Bool) (found : List FoundNs) (media : List PlateMedia) : Statement (.attachOffer m reach resvOk found media) := statement_of_wf _
theorem attachAccept (m : Msg) (pool : Nat) : Statement (.attachAccept m pool) := statement_of_wf _
theorem attachRefuse (m : Msg) : Statement (.attachRefuse m) := statement_of_wf _
theorem claim (m : Msg) : Statement (.claim m) := statement_of_wf _
theorem memberIoRead (m : Msg) : Statement (.memberIoRead m) := statement_of_wf _
theorem memberIoWrite (m : Msg) : Statement (.memberIoWrite m) := statement_of_wf _
theorem memberIoCompletion (m : Msg) (tag : Nat) : Statement (.memberIoCompletion m tag) := statement_of_wf _
theorem memberIoTimeout (id : Nat) : Statement (.memberIoTimeout id) := statement_of_wf _
theorem remoteRouteTimeout (node : Nat) : Statement (.remoteRouteTimeout node) := statement_of_wf _
theorem mirrorWrite (m : Msg) : Statement (.mirrorWrite m) := statement_of_wf _
theorem mirrorAck (m : Msg) : Statement (.mirrorAck m) := statement_of_wf _
theorem mirrorRelease (m : Msg) : Statement (.mirrorRelease m) := statement_of_wf _
theorem mirrorLost (m : Msg) : Statement (.mirrorLost m) := statement_of_wf _
theorem timeSyncTimer (followers : List Nat) : Statement (.timeSyncTimer followers) := statement_of_wf _
theorem sync (m : Msg) : Statement (.sync m) := statement_of_wf _
theorem latencyPingTimer (x : Nat) : Statement (.latencyPingTimer x) := statement_of_wf _
theorem ping (x : Nat) (m : Msg) : Statement (.ping x m) := statement_of_wf _
theorem pong (x : Nat) (m : Msg) : Statement (.pong x m) := statement_of_wf _
theorem trtAttach (w : Win) (p node : Nat) : Statement (.trtAttach w p node) := statement_of_wf _
theorem trtDetach (w : Win) (p : Nat) : Statement (.trtDetach w p) := statement_of_wf _
theorem tlkL1Entry (x : Nat) : Statement (.tlkL1Entry x) := statement_of_wf _
theorem graverGo (w : Win) (c : Nat) (chain : Bool) : Statement (.graverGo w c chain) := statement_of_wf _
theorem graverStop (w : Win) (c : Nat) : Statement (.graverStop w c) := statement_of_wf _
theorem descriptorFetch (c : Nat) (ue : Option MoveErr) : Statement (.descriptorFetch c ue) := statement_of_wf _
theorem graverBurst (h1 h2 : HostRd) (ue : Option MoveErr) : Statement (.graverBurst h1 h2 ue) := statement_of_wf _
theorem graverRequestPulse (src : Nat) : Statement (.graverRequestPulse src) := statement_of_wf _
theorem graverUnitEnd : Statement (.graverUnitEnd) := statement_of_wf _
theorem graverHoldTimeout : Statement (.graverHoldTimeout) := statement_of_wf _
theorem interruptSourceEdge (src : Nat) (level : Bool) : Statement (.interruptSourceEdge src level) := statement_of_wf _
theorem interruptClaim (n : Nat) (gone : Bool) : Statement (.interruptClaim n gone) := statement_of_wf _
theorem eoi (w : Win) (n src : Nat) : Statement (.eoi w n src) := statement_of_wf _
theorem softwareInterrupt (w : Win) (v : Nat) : Statement (.softwareInterrupt w v) := statement_of_wf _
theorem icuPendClear (w : Win) (v : Nat) : Statement (.icuPendClear w v) := statement_of_wf _
theorem moderationExpiry (src : Nat) : Statement (.moderationExpiry src) := statement_of_wf _
theorem fallbackTimeout (src : Nat) : Statement (.fallbackTimeout src) := statement_of_wf _
theorem faultMessage : Statement (.faultMessage) := statement_of_wf _
theorem fenceReq (w : Win) (p : Nat) : Statement (.fenceReq w p) := statement_of_wf _
theorem faultInject (w : Win) : Statement (.faultInject w) := statement_of_wf _
theorem pgEvtSet (w : Win) (p v : Nat) : Statement (.pgEvtSet w p v) := statement_of_wf _
theorem faultRearm (w : Win) : Statement (.faultRearm w) := statement_of_wf _
theorem unfence (w : Win) (p : Nat) (found : List FoundNs) (media : List PlateMedia) : Statement (.unfence w p found media) := statement_of_wf _
theorem watchdogKick (w : Win) : Statement (.watchdogKick w) := statement_of_wf _
theorem watchdogTimeout : Statement (.watchdogTimeout) := statement_of_wf _
theorem mainPowerGood : Statement (.mainPowerGood) := statement_of_wf _
theorem railSequenceStep : Statement (.railSequenceStep) := statement_of_wf _
theorem railRetry : Statement (.railRetry) := statement_of_wf _
theorem startupPhaseEnd (f : PhaseFacts) : Statement (.startupPhaseEnd f) := statement_of_wf _
theorem startupPhaseTimeout : Statement (.startupPhaseTimeout) := statement_of_wf _
theorem coldReset : Statement (.coldReset) := statement_of_wf _
theorem supplyReset (io : Bool) : Statement (.supplyReset io) := statement_of_wf _
theorem pinReset : Statement (.pinReset) := statement_of_wf _
theorem softwareReset (w : Win) : Statement (.softwareReset w) := statement_of_wf _
theorem supplyWarning (io : Bool) (mv : Nat) : Statement (.supplyWarning io mv) := statement_of_wf _
theorem supplyWarningClear (io : Bool) (mv : Nat) : Statement (.supplyWarningClear io mv) := statement_of_wf _
theorem tempWarning (t : Int) : Statement (.tempWarning t) := statement_of_wf _
theorem tempCritical (t : Int) : Statement (.tempCritical t) := statement_of_wf _
theorem hclkLost (n : Nat) (common : Bool) : Statement (.hclkLost n common) := statement_of_wf _
theorem xtalStop : Statement (.xtalStop) := statement_of_wf _
theorem xtalResume : Statement (.xtalResume) := statement_of_wf _
theorem alarmFire (n : Nat) : Statement (.alarmFire n) := statement_of_wf _
theorem opMinuteTick : Statement (.opMinuteTick) := statement_of_wf _
theorem idleEntry : Statement (.idleEntry) := statement_of_wf _
theorem nightEntry (quiet : Bool) : Statement (.nightEntry quiet) := statement_of_wf _
theorem nightExit (busy : Bool) : Statement (.nightExit busy) := statement_of_wf _
theorem nightReqWrite (w : Win) (v : Nat) : Statement (.nightReqWrite w v) := statement_of_wf _
theorem standbyEntry : Statement (.standbyEntry) := statement_of_wf _
theorem standbyExit : Statement (.standbyExit) := statement_of_wf _
theorem pwrClrMin (w : Win) (v : Nat) : Statement (.pwrClrMin w v) := statement_of_wf _
theorem sessionIdleTimeout (port : Nat) : Statement (.sessionIdleTimeout port) := statement_of_wf _
theorem nonceLapse (port : Nat) : Statement (.nonceLapse port) := statement_of_wf _
theorem lockoutEnd (port : Nat) : Statement (.lockoutEnd port) := statement_of_wf _
theorem keyProgram (w : Win) (key : Nat) (ok : Bool) : Statement (.keyProgram w key ok) := statement_of_wf _
theorem sketchbookWindowEnd (code : Nat) : Statement (.sketchbookWindowEnd code) := statement_of_wf _
theorem sketchbookToken : Statement (.sketchbookToken) := statement_of_wf _
theorem sketchbookRecordWrite (ok : Bool) : Statement (.sketchbookRecordWrite ok) := statement_of_wf _
theorem sketchbookSnapshotTimer : Statement (.sketchbookSnapshotTimer) := statement_of_wf _
theorem snapshot (w : Win) : Statement (.snapshot w) := statement_of_wf _
theorem eraseAll (w : Win) : Statement (.eraseAll w) := statement_of_wf _
theorem pgEnableWrite (w : Win) (p v : Nat) : Statement (.pgEnableWrite w p v) := statement_of_wf _
theorem blockReset (w : Win) (p : Nat) : Statement (.blockReset w p) := statement_of_wf _
theorem clkReq (w : Win) (p v : Nat) : Statement (.clkReq w p v) := statement_of_wf _
theorem registerWrite (w : Win) (p off len v : Nat) (poisoned : Bool) (vr : VaultRead) : Statement (.registerWrite w p off len v poisoned vr) := statement_of_wf _
theorem registerRead (w : Win) (p off len : Nat) : Statement (.registerRead w p off len) := statement_of_wf _
theorem settingsRecordWrite : Statement (.settingsRecordWrite) := statement_of_wf _
theorem configRetryEnd (port : Nat) : Statement (.configRetryEnd port) := statement_of_wf _
theorem linkLayerError (port func : Nat) (e : Aer) : Statement (.linkLayerError port func e) := statement_of_wf _
theorem waitForInterrupt (n : Nat) : Statement (.waitForInterrupt n) := statement_of_wf _
theorem shutdownComplete (p : Nat) : Statement (.shutdownComplete p) := statement_of_wf _
theorem controllerFatalStatus (p : Nat) : Statement (.controllerFatalStatus p) := statement_of_wf _

end Sys2Proof.Laws.Form
end

