-- ==== Sys2Proof/Laws/Plates.lean ====
section
/-! SUPPORT. A plate without failed members hosts nothing. -/

namespace Sys2Proof.Laws
open Sys2Proof.Machine

/-- Where no member has failed, every position of a row is at its own member (R22, R24). -/
theorem spareMap_zero (sigma : List Nat) (gw : Nat) (seq : Nat → Nat) (h : ∀ m, seq m = 0) :
    spareMap sigma gw seq = (List.range gw).map (fun p => some (((sigma.take gw)[p]?).getD 0)) := by
  simp only [spareMap, h, if_true]

theorem homeOf_of_no_failure (x : Plate) (h : ∀ m, x.failSeqOf m = 0) {sn pos : Nat} (hs : sn < x.stripes) (hp : pos < x.geom.w) :
    ∃ m, x.homeOf sn pos = some m := by
  have hg : 0 < x.geom.g := by
    rcases Nat.eq_zero_or_pos x.geom.g with h0 | h0
    · simp [Plate.stripes, h0] at hs
    · exact h0
  have hz : ∀ m, x.seqIn (x.realised sn) m = 0 := fun m => by simp [Plate.seqIn, h m]
  have hl : sn % x.geom.g * x.geom.w + pos < x.geom.g * x.geom.w := by
    have h1 : sn % x.geom.g + 1 ≤ x.geom.g := Nat.mod_lt _ hg
    have h2 := Nat.mul_le_mul_right x.geom.w h1
    rw [Nat.add_mul, Nat.one_mul] at h2
    omega
  simp only [Plate.homeOf, Plate.homesOf, Geom.homes, spareMap_zero _ _ _ hz, List.getElem?_take, hp, if_true, List.getElem?_drop,
    List.getElem?_map, List.getElem?_range hl, Option.map_some, Option.join_some, Option.some.injEq, exists_eq']

/-- No member hosts (R96). -/
theorem u_eq_zero (x : Plate) (h : ∀ m, x.failSeqOf m = 0) : x.u = 0 := by
  have hh : ∀ m, x.hosts m = false := by
    intro m
    simp only [Plate.hosts, List.any_eq_false, List.mem_range]
    intro sn hs hc
    rw [List.any_eq_true] at hc
    obtain ⟨pos, hp, hd⟩ := hc
    obtain ⟨k, hk⟩ := homeOf_of_no_failure x h hs (List.mem_range.mp hp)
    simp [Plate.hostOf, hk, h k] at hd
  simp [Plate.u, hh]

end Sys2Proof.Laws
end

