-- ==== Sys2Proof/Tests/Slice0.lean ====
section
/-! SUPPORT. The model's own tests: values worked in the spec, ill-formed commands that the check of commands refuses, single register accesses, and for
each obligation with hypotheses one theorem that shows, clause by clause, a state and operands that meet them all. Expected values are the spec's. -/

open Sys2Proof Sys2Proof.Machine Sys2Proof.Machine.Reg Sys2Proof.Laws

namespace Sys2Proof.Tests

set_option linter.unusedVariables false

/-- Set some register fields. -/
def put (l : List (FRef × Nat)) (s : State) : State := l.foldl (fun t x => setFld x.1 x.2 t) s

/-- A function that masters the bus and takes accesses of its own. -/
def fn0 : HFn := { HFn.reset with bme := true, cfg := { HFn.reset.cfg with mse := true } }

/-- A READY device with both host links up, the PFs mastering the bus. -/
def dev : State := { put [(CHIP_DEV_STAT_PHASE, 8), (CHIP_DEV_STAT_READY, 1), (BUR_STAT_POWERED 0, 1), (PG_CTL_ENABLE 0x30, 1), (PG_CTL_ENABLE 0x2A, 1), (PG_CTL_ENABLE 0x2B, 1), (PG_CTL_ENABLE 0x38, 1), (PG_CTL_ENABLE 0x39, 1), (PG_CTL_ENABLE 0x40, 1)] State.reset with host := { HostSt.reset with fns := [(fnKey 0 0, fn0), (fnKey 1 0, fn0)], up := [0, 1], perst := [], crs := [] }, pwr := { PwrSt.reset with due := none, p0 := true } }

/-- Context 0 bound to the PF of port 0 with rings of 64 entries, in a state of Table RING-2. -/
def ring (st : Nat) : State := put [(CTX_BIND_VALID 0, 1), (CTX_STAT_STATE 0, st), (CTX_RING_SIZE_SQ_M1 0, 63), (CTX_RING_SIZE_CQ_M1 0, 63)] dev

def ctx0 : Ctx := { vis := [], fetching := 0, unsig := 0, copy := [], prev := [], cfgSched := [] }

/-- A submission entry with an opcode, a volume, BLOCKS, CDW, AUX and AUX2. -/
def entry (op vol blocks cdw aux aux2 : Nat) : List Byte :=
  leBytes op 1 ++ leBytes 0 3 ++ leBytes vol 2 ++ leBytes 0 10 ++ leBytes blocks 4 ++ leBytes cdw 4 ++ leBytes 0 16 ++ leBytes aux 8 ++ leBytes aux2 8 ++ leBytes 0 8

def cmd0 (raw : List Byte) : Cmd := { ctx := 0, role := 2, raw := raw, since := 0, phase := .presented, bufs := [], fail := none, detail := 0, result := 0, todo := 0, waits := 0, rdBlks := 0, wrBlks := 0, got := [], host := [], fixed := 0, keys := [], defer := [], tries := 0 }

/-- A device with one command of an I/O or admin context. -/
def withCmd (admin : Bool) (x : Cmd) (s : State) : State := { put [(CTX_BIND_VALID 0, 1), (CTX_BIND_KIND 0, b2n admin)] s with io := { s.io with cmds := [(1, x)] } }

def io (raw : List Byte) : State := withCmd false (cmd0 raw) dev
def adm (raw : List Byte) : State := withCmd true (cmd0 raw) dev

def md0 : PlateMedia := ⟨0, [], []⟩
def vr0 : VaultRead := ⟨true, true, 0, []⟩
def hread (why : HPurpose) : HRead := { port := 0, func := 0, runs := [(0, 64)], why := why, sent := true, late := false }

/-- A plate of five members with one spare, all online, at index 0. -/
def plate0 : Plate := { id := 7, geom := { n := 5, w := 4, shift := 17, seed := 7, rows := 100 }, building := false, importing := false, impPage := none, gone := false, owner := 0, standby := 0xFFFF, attached := false, members := (List.range 5).map (fun m => { node := 0, port := m, nsid := 1, state := .online, failSeq := 0, driveKey := m + 1, errs := [], genA := none, genB := none }), labelGen := 0, labelBusy := false, labelWait := [], labelMore := false, labelSeq := 0, pendFail := [], failNext := 1, createdOp := 0, catGen := 1, cat := [], catBad := [], latch := false, ranges := [{ start := 0, set := [] }], pass := emptyPass, cycle := emptyCycle, seqNo := 0, seqBase := 0, lastRow := 0, lbt := [], lbtGen := 0, lbtFull := false, lbtDirty := false, jp := { emptyPair 0 with a := some (0, 1) }, state := .optimal, repl := [], mirrorOn := false }

def pl (x : Plate) : State := { dev with store := { Store.reset with plates := [(0, x)] } }

def seg0 : Seg := { src := .host, cmd := 1, group := 0, head := true, gBlks := 1, pBlks := 1, gWhole := false, vol := 0, lba := 0, plate := 0, sn := 0, wset := [0], zero := true, dealloc := false, refuse := none, data := [], maint := false, adm := 1 }

def ent0 : JEntry := { seg := seg0, state := .opened, staged := false, path := .direct, unbacked := false, logged := false, recon := false, forced := false, degraded := false, headIdx := 0, nextIdx := 0, writeSeq := 1, dataMask := [], doneMask := [], skipMask := [], tagMask := [], blkFirst := 0, blkLast := 0, stage := (0, 0), log := (0xFFFF, 0), pipe := 0, openUs := 0, recSeq := 0, newData := [], old := [], erased := [], zeros := [], parity := [], recStep := 0, logDone := false, posted := false, slots := [], mirWait := 0, linkAck := [], wrHeld := false }

/-- A plate at index 0 with one journal entry. -/
def jr (e : JEntry) (x : Plate) : State := { pl x with io := { Io.reset with journal := [(0, e)] } }

def slot0 : Slot := { state := .dirty, plate := 0, sn := 0, lin := 0, vol := 0, zero := true, seq := 1, since := 0, ctx := 0, data := [] }
def vol0 : Vol := { extents := 1, plates := [7], attach := [some (0, 0, false), none, none, none], deleting := false, seq := 1 }
def sop0 : Sop := { kind := .rebuild, plate := 0, sn := 0, first := 0, last := 31, phase := .lock, grid := [], erased := [], tagBad := [], lost := [], waits := 0, pipe := 8, tagWaits := 0, charge := 0, mark := false, fix := [], located := [], full := false }
def nv0 (op : NvOp) (why : Purpose) : NvCmd := { plate := 0, mem := 0, node := 0, port := 0, nsid := 1, sn := 0, pos := 0, op := op, lba := 0, n := 1, data := [], why := why, tries := 0, pair := some 0 }
/-- A stripe operation with its job on pipe 0; a device whose Graver has all its channels. -/
def movers : State := put ((PG_CTL_ENABLE 0xDF, 1) :: (List.range 16).map (fun c => (PG_CTL_ENABLE (0xE0 + c), 1))) dev
def onPipe0 (o : Sop) : State := { movers with store := { Store.reset with plates := [(0, plate0)] }, io := { Io.reset with sops := [(1, o)], jobs := [{ pipe := 0, ref := .sop 1, maint := true }] } }
def nvS (c : NvCmd) : State := { pl plate0 with io := { Io.reset with nvme := [(1, c)] } }

/-- Member 1 failed, member 1 failed with a running pass, and a running Proof pass cycle. -/
def plateF : Plate := { plate0 with members := plate0.members.set 1 { node := 0, port := 1, nsid := 1, state := .failed, failSeq := 1, driveKey := 2, errs := [], genA := none, genB := none } }
def plateR : Plate := { plateF with pass := { emptyPass with running := true, tgt := [1], budget := 2 ^ 40, len := 1000 } }
def plateC : Plate := { plate0 with cycle := { emptyCycle with running := true, started := true, budget := 2 ^ 40, len := 1000 } }

/-- A drive with one namespace at port 9, in service, which the plate's PORT and NSID registers name. -/
def ns0 : Ns := { nsid := 1, bytes := 2 ^ 40, lbaOk := true, genA := none, genB := none, plateId := 0 }
def bay (n : Ns) (x : Plate) : State := put [(PG_STAT_STATE 0x89, 4), (PLT_CMD_PORT_PORT 0, 9), (PLT_CMD_NSID_NSID 0, 1)] { pl x with drive := { DriveSt.reset with ports := [(9, { key := 9, mdts := 32, nss := [n], resets := 0, resetting := false })] } }
def fgn : Foreign := { id := 99, label := [], spots := [] }
def lw (v : Nat) : LostW := { vol := v, lba := 0, count := 1, opMin := 0 }

/-- An authenticated pack whose window for a learning cycle is open; a pack whose challenge is out. -/
def learnable : State := put [(BEM_STAT_PRESENT, 1), (BEM_STAT_AUTH, 1), (BEM_SOC_VALID, 1), (BEM_SOC_PPM, 1000000)] { dev with cache := { Cache.reset with ceil := 5 } }
def packed : State := put [(BEM_CFG_AUTH_EN, 1), (BEM_CFG_CELLS, 0)] { dev with bem := { Bem.reset with nonce := some [1], serial := [3], fails := 2 }, role := { RoleSt.reset with keys := [(1, [2])] } }

/-- An admin command of a device with an installer key and an open nonce; a port with two virtual functions. -/
def keyed (raw : List Byte) : State := { adm raw with role := { RoleSt.reset with keys := [(0, [2])], nonces := [(0, ⟨[1], 1⟩)] } }
def vfs : State := put [(HEP_FUNCS_VF_EN 0, 1), (HEP_FUNCS_NUMVFS 0, 2)] dev

/-- Drive port 0 in a state of Table DRIVE-4; DRAM channel 0 and link 0 in a state of their pages. -/
def port (st : Nat) : State := put [(PG_STAT_STATE 0x80, st), (PG_CTL_ENABLE 0x80, 1), (DPT_SLOT_STS_PDS 0, 1), (DPT_CFG_AUTO_ON 0, 1)] dev
def bay0 (b : Bay) (s : State) : State := { s with drive := { s.drive with bays := [(0, b)] } }
def drive0 (b : Bool) (s : State) : State := { s with drive := { s.drive with ports := [(0, { key := 9, mdts := 32, nss := [], resets := 0, resetting := b })] } }
def drvId (ready : Bool) : DriveId := { ready := ready, cls := 0x010802, version := 0x00010400, nvm := true, wz := true, resv := true, dsm := true, vwc := false, mdts := 0, cntlid := 0, serial := [9], nss := [] }
def chan (st : Nat) : State := put [(PG_STAT_STATE 0x20, st)] dev
def dimm0 : Dimm := { spd := true, kind := true, gib := 64, ranks := 2, x8 := false, rows := 65536, speed := 4800 }
def link0 (st : Nat) (t : Tlk) : State := put [(PG_STAT_STATE 0xC8, st), (PG_CTL_ENABLE 0xC8, 1)] { dev with link := { LinkSt.reset with tlk := [(0, t)] } }
def flit0 : List Byte := let x := leBytes 3072 4 ++ zeros 24; x ++ leBytes (crc32 x) 4
def tx0 : TxFlit := { seq := 0, kind := 3, crd := (0, 0), payload := [], note := none }

/-- A message to this node from node 5; a plate whose standby is node 5; a plate of node 5 held here. -/
def msg5 (tag arg arg2 : Nat) (body : List Byte) : Msg := { hops := 0, dst := 0, src := 5, tag := tag, arg := arg, arg2 := arg2, body := body }
def plateS (att : Bool) : Plate := { plate0 with standby := 5, attached := att }
def held0 (att : Bool) (taking : Nat) : HeldPlate := { index := 0, plate := { plate0 with owner := 5 }, attached := att, taking := taking, here := 0 }
def lnk (l : LinkSt) (s : State) : State := { s with link := l }
def heldS (att : Bool) (taking : Nat) : State := lnk { LinkSt.reset with held := [(7, held0 att taking)] } dev

/-- A channel of the Graver in a state, and the unit of 4 bytes of FILL it runs. -/
def graver (st : Nat) (l : Bool) : State := put [(MCH_CH_STAT_STATE 0, st), (MCH_CH_CTL_CHAIN 0, 1), (PG_CTL_ENABLE 0xE0, 1), (PG_CTL_ENABLE 0xDF, 1)] { dev with mover := { MoverSt.reset with ch := [(0, { loaded := l, off := 0, ended := none })], run := some 0 } }
def fill4 : State := put [(CH_DESC 0 0, 1), (CH_DESC 0 8, 0x00010004), (CH_DESC 0 9, 1)] (graver 2 true)

/-- A plate whose node has a route to node 5 over link 0. -/
def routed : State := put [(PG_STAT_STATE 0xC8, 2), (TRT_ENTRY_VALID 5, 1), (PG_CTL_ENABLE 0xD0, 1)] { pl plate0 with link := { LinkSt.reset with tlk := [(0, { Tlk.reset with nb := some 5 })] } }

/-- The bytes of a progress record of kind `k` and of a label before their CRC. -/
def rec0 (k : Nat) : List Byte := (([0x5A, 0x59, 0x4E, 0x50, 0x52, 0x4F, 0x47, 0x52] : List Nat).map (BitVec.ofNat 8)) ++ leBytes 1 1 ++ leBytes k 1 ++ zeros 6 ++ leBytes 7 8 ++ zeros 228
def labHead : List Byte := (([0x5A, 0x59, 0x4E, 0x4C, 0x41, 0x42, 0x45, 0x4C] : List Nat).map (BitVec.ofNat 8)) ++ leBytes 1 2 ++ zeros 14 ++ leBytes 7 8
def lab0 : List Byte := labHead ++ zeros 4060

theorem rec0_length (k : Nat) : (rec0 k).length = 252 := by simp only [rec0, zeros, List.length_append, List.length_map, List.length_replicate, leBytes_length, List.length_cons, List.length_nil]
theorem lab0_length : lab0.length = 4092 := by simp only [lab0, labHead, zeros, List.length_append, List.length_map, List.length_replicate, leBytes_length, List.length_cons, List.length_nil]

theorem rec0_ok (k : Nat) (hk : k < 2) : progValid (slice (withCrc (rec0 k)) 0 256) = true ∧ leAt (slice (withCrc (rec0 k)) 0 256) 0x10 8 = 7 ∧
    leAt (slice (withCrc (rec0 k)) 0 256) 9 1 = k := by
  have h1 : slice (withCrc (rec0 k)) 0 256 = withCrc (rec0 k) := by
    have h := slice_all (withCrc (rec0 k))
    rwa [withCrc_length, rec0_length] at h
  have h2 : crcOk (withCrc (rec0 k)) 252 = true := by
    have h := crcOk_withCrc (rec0 k)
    rwa [rec0_length] at h
  have h3 : ∀ o w, o + w ≤ 252 → leAt (withCrc (rec0 k)) o w = leAt (rec0 k) o w := fun o w h => leAt_append_left _ (by rw [rec0_length]; exact h)
  rw [h1, progValid, h2, h3 _ _ (by decide), h3 _ _ (by decide), h3 _ _ (by decide), h3 _ _ (by decide)]
  have : k = 0 ∨ k = 1 := by omega
  rcases this with rfl | rfl <;> decide

theorem lab0_field (o w : Nat) (h : o + w ≤ 32) : leAt (withCrc lab0) o w = leAt labHead o w := by
  rw [withCrc, leAt_append_left _ (by rw [lab0_length]; omega)]
  exact leAt_append_left _ h

theorem lab0_valid : labelValid (withCrc lab0) = true := by
  have h := crcOk_withCrc lab0
  rw [lab0_length] at h
  rw [labelValid, h, lab0_field _ _ (by decide), lab0_field _ _ (by decide)]
  decide

theorem lab0_plate : labelPlate (withCrc lab0) = 7 := by
  rw [labelPlate, lab0_field _ _ (by decide)]
  decide

theorem governing_one (l : List Byte) (hv : labelValid l = true) (hp : labelPlate l = 7) :
    governing (labelsOf [⟨3, 1, l, [], []⟩] (mediaOf [] 7)) 7 = some l := by
  have h5 : labelValid [] = false := by decide
  have h6 : bestLabel ⟨3, 1, l, [], []⟩ = some l := by simp [bestLabel, newest, labelGenOf, hv, h5]
  simp [governing, labelsOf, mediaOf, h6, hp]

theorem buildPlate_none (s : State) (gov : List Byte) (md : PlateMedia) : (buildPlate s gov [] md).members = [] := by
  simp only [buildPlate, withMedia, withProgress]
  split <;> rfl

theorem lab0_reached : (buildPlate dev (withCrc lab0) ((List.range (leAt (withCrc lab0) 0x22 1)).map
    (slotMember dev [⟨3, 1, withCrc lab0, [], []⟩] (mediaOf [] 7) (withCrc lab0))) (mediaOf [] 7)).members.all (reachesMember dev) = true := by
  have h : leAt (withCrc lab0) 0x22 1 = 0 := by
    rw [withCrc, leAt_append_left _ (by rw [lab0_length]; omega)]
    decide +kernel
  rw [h, List.range_zero, List.map_nil, buildPlate_none, List.all_nil]

/-- An interrupt source in its page; a fault message; an access in functional test; a phase of start-up. -/
def icuR : State := { dev with regs := [(2304, 1), (2308, 8), (2314, 1), (655616, 1), (137439611392, 2), (137439611395, 1), (137439611396, 5)], icu := { IcuSt.reset with latches := [64] } }
def icu0 (l : List (FRef × Nat)) : State := { put (l ++ [(PG_CTL_ENABLE 5, 1), (MGC_STAT_POWERED 0, 1), (ICU_SRC_CFG_SENSE 64, 2), (ICU_SRC_CFG_EN 64, 1), (ICU_SRC_CFG_PRIO 64, 5)]) dev with icu := { IcuSt.reset with latches := [64] } }
def fm0 : FMsg := { unit := 6, kind := 1, sev := 0, cls := 0, addr := 0, access := 0, master := 0 }
def inTest : State := put [(ROLE_STAT_FTEST_STRAP, 1), (sessFld 0, 2)] dev
def atPhase (n : Nat) : State := put [(CHIP_DEV_STAT_PHASE, n), (CHIP_DEV_STAT_READY, 0)] dev
def rails (seq tries : Nat) : State := put [(PWR_RAIL_SEQ, seq), (PWR_RAIL_ATTEMPTS, tries)] (atPhase 1)
def facts (ok : Bool) : PhaseFacts := { inst := false, ft := false, node := 0, hclk0 := true, hclk1 := true, xtal := true, wakeNs := 0, serdes := [], sensors := ok, sram := ok }

/-- A plate of some terabytes whose catalogue gives slot 0 to volume 0; a volume command of a device with that plate. -/
def plateV (cat : SMap (Nat × Nat)) : Plate := { plate0 with geom := { n := 5, w := 4, shift := 20, seed := 7, rows := 1024 }, cat := cat }
def volS (c : Cmd) (v : List (Nat × Vol)) (cat : SMap (Nat × Nat)) : State := withCmd true c { dev with store := { Store.reset with plates := [(0, plateV cat)], vols := v } }
def volD : Vol := { vol0 with attach := [none, none, none, none] }

/-- The admin page of a plate of four members at node 5, and what is known of them. -/
def page4 : List Byte := leBytes 2 1 ++ leBytes 14 1 ++ leBytes 4 1 ++ leBytes 0 1 ++ leBytes 0xFFFF 2 ++ zeros 58 ++ (List.range 4).flatMap (fun m => leBytes (5 + 2 ^ 16 * m + 2 ^ 32) 8)
def pf4 : PlateFacts := { seed := 1, id := 99, known := false, far := (List.range 4).map (fun m => { node := 5, port := m, nsid := 1, key := m + 1, bytes := 2 ^ 42, lbaOk := true, free := true }) }
def sum0 (f : List Nat) : State := { dev with sum := { SumSt.reset with cur := some [1], curFor := f } }

theorem plateV_noFail (c : SMap (Nat × Nat)) (m : Nat) : (plateV c).failSeqOf m = 0 := by
  have h : ∀ y ∈ plate0.members, y.failSeq = 0 := by decide
  show ((plate0.members[m]?).map Member.failSeq).getD 0 = 0
  cases hm : plate0.members[m]? with
  | none => rfl
  | some y => exact h y (List.mem_of_getElem? hm)

theorem plateV_places (c : SMap (Nat × Nat)) : placing (plateV c) = true := by
  have h : plateState (plateV c) = .optimal := by
    simp only [plateState, u_eq_zero _ (plateV_noFail c)]
    rfl
  simp only [placing, h]
  rfl

theorem choose_first : choosePlaces [(0, plateV [])] [] 0 1 = .inr ([7], [(0, 0, 0)]) := by
  have h : freeSlots (plateV []) = [0, 1] := by decide +kernel
  simp [choosePlaces, plateV_places, h, placeAll, takeSlot]
  rfl

theorem choose_next : choosePlaces [(0, plateV [(0, (0, 0))])] [7] 1 2 = .inr ([7], [(1, 0, 1)]) := by
  have h : freeSlots (plateV [(0, (0, 0))]) = [1] := by decide +kernel
  simp [choosePlaces, plateV_places, h, placeAll, takeSlot]
  rfl

/-- The page as the command reads it. -/
def pg4 : List Byte := page4 ++ zeros 4000
def create4 : State := adm (entry 0x86 0 0 0 0 0)
def read4 : State := readDone (ctxPort create4 0) (ctxFunc create4 0) (enDptr (entry 0x86 0 0 0 0 0)) 4096 (.data page4) create4

theorem page4_length : page4.length = 96 := by decide

theorem page4_slice : slice page4 0 4096 = pg4 := by
  have h : slice page4 0 4096 = (page4.drop 0).take 4096 ++ zeros (4096 - ((page4.drop 0).take 4096).length) := rfl
  rw [h, List.drop_zero, List.take_of_length_le (by rw [page4_length]; decide), page4_length]
  rfl

theorem pg4_low (o w : Nat) (h : o + w ≤ 96) : leAt pg4 o w = leAt page4 o w := leAt_append_left _ (by rw [page4_length]; exact h)
theorem pg4_high (o w : Nat) (h : 96 ≤ o) : leAt pg4 o w = 0 := leAt_append_zeros _ _ (by rw [page4_length]; exact h)

theorem pg4_member (m : Nat) : memberBad read4 pf4.far pg4 m = false := by
  have h2 : leAt pg4 2 1 = 4 := by rw [pg4_low _ _ (by decide)]; decide
  by_cases h : 4 ≤ m
  · have hw : leAt pg4 (0x40 + 8 * m) 8 = 0 := pg4_high _ _ (by omega)
    simp [memberBad, h2, hw, h]
  · have hm : m = 0 ∨ m = 1 ∨ m = 2 ∨ m = 3 := by omega
    rcases hm with rfl | rfl | rfl | rfl <;> decide

theorem pageBad_none (s : State) (far : List FarNs) (b : List Byte) (h0 : leAt b 0 1 = 2 ∧ leAt b 1 1 = 14 ∧ leAt b 2 1 = 4 ∧ leAt b 3 1 = 0 ∧ leAt b 4 2 = 0xFFFF)
    (h1 : firstNonZero b 6 2 = none ∧ firstNonZero b 0x18 0x28 = none) (h2 : ∀ m, memberBad s far b m = false) (h3 : firstNonZero b 0x440 0xBC0 = none) :
    pageBad s far b = none := by
  have h4 : (List.range 128).find? (memberBad s far b) = none := List.find?_eq_none.mpr (fun m _ => by rw [h2]; exact Bool.false_ne_true)
  simp [pageBad, h0, h1, h4, h3]

theorem pg4_tail : firstNonZero pg4 0x440 0xBC0 = none := by
  refine List.find?_eq_none.mpr (fun i hi => ?_)
  obtain ⟨j, -, rfl⟩ := List.mem_map.mp hi
  simp [pg4, byteAt_append_zeros page4 4000 (o := j + 0x440) (by rw [page4_length]; omega)]

theorem pg4_ok : pageBad read4 pf4.far (slice page4 0 4096) = none := by
  rw [page4_slice]
  exact pageBad_none _ _ _ (by decide) (by decide) pg4_member pg4_tail

theorem c4_h0 : leAt pg4 0 1 = 2 ∧ leAt pg4 1 1 = 14 ∧ leAt pg4 2 1 = 4 ∧ leAt pg4 3 1 = 0 ∧ leAt pg4 4 2 = 0xFFFF ∧ leAt pg4 0x10 8 = 0 := by decide

theorem c4_h1 : pageMembers pg4 = [(5, 0, 1), (5, 1, 1), (5, 2, 1), (5, 3, 1)] := by decide

theorem c4_h2 : [(5, 0, 1), (5, 1, 1), (5, 2, 1), (5, 3, 1)].map (fun q => farNs read4 pf4.far q.1 q.2.1 q.2.2) = pf4.far.map some := by decide

theorem c4_h3 : (pf4.far.map some).any (fun m => ((m.map FarNs.free).getD false) = false) = false := by decide

theorem c4_h4 : ((pf4.far.map some).filterMap (fun m => m.map FarNs.bytes)) = List.replicate 4 (2 ^ 42) := by decide

theorem c4_h5 : rowsFor 14 (2 ^ 42) = 267909440 := by simp [rowsFor, fitRows, usedBytes, roundUp, dataOffset]

theorem c4_h6 : (List.replicate 4 (2 ^ 42)).foldl min ((List.replicate 4 (2 ^ 42)).headD 0) = 2 ^ 42 := by decide

theorem c4_h7 : (plateOf read4 0).isSome = false := by decide

theorem pg4_create : createBad read4 pf4 (slice page4 0 4096) = none := by
  rw [page4_slice]
  simp only [createBad, c4_h0, c4_h1, c4_h2, c4_h3, c4_h4, c4_h5, c4_h6, c4_h7]
  simp [Geom.slots, Geom.g, Geom.e, Geom.k, Geom.s]

/-! ### Values the spec works out or states -/

/-- The check value of the flit CRC (R322). -/
theorem test_flit_crc : crc32 (asciiBytes [0x31, 0x32, 0x33, 0x34, 0x35, 0x36, 0x37, 0x38, 0x39]) = 0xCBF43926 := by decide +kernel

/-- A core writes RBD_CFG: SLICE_US 200 and STEPS_MAX 4 are taken. -/
theorem test_rbd_core : getFld (regWrite (.core 0) 0x39 0x40 (200 + 4 * 2 ^ 16) vr0 dev) RBD_CFG_SLICE_US = 200 := by decide

/-- An operator's write of the same register changes nothing and is counted (R444). -/
theorem test_rbd_operator : getFld (regWrite (.pf 0) 0x39 0x40 (200 + 4 * 2 ^ 16) vr0 dev) RBD_CFG_SLICE_US = 1000 ∧
    getFld (regWrite (.pf 0) 0x39 0x40 (200 + 4 * 2 ^ 16) vr0 dev) ROLE_DENY_COUNT = 1 := by decide

/-- An empty queue idles: device time runs on by 0.8 ns, 256 units of 1/320 ns. -/
theorem test_idle : (idleTick dev).timeQ = 256 := by decide

/-- No word spells a command. -/
theorem test_no_words (n w : Nat) : decodeTableWord n w = none := rfl

/-- Reset leaves no command waiting and start-up in P0. -/
theorem test_reset : State.reset.pending = [] ∧ getFld State.reset CHIP_DEV_STAT_PHASE = 0 ∧ isSet State.reset CHIP_DEV_STAT_COLD = true := by decide

/-- A plate of 5 members and stripes of 4 strips: 2 data strips, 1 stripe per row, 1 spare. -/
theorem test_geometry : plate0.geom.k = 2 ∧ plate0.geom.g = 1 ∧ plate0.geom.l = 1 ∧ plate0.geom.bps = 32 := by decide

/-! ### Ill-formed commands: one for each kind of unit, and one for a register offset beyond its page -/

theorem test_wf_context : (Instr.submissionFetch 4096).wf = false ∧ (Instr.submissionFetch 4095).wf = true := by decide
theorem test_wf_hostPort : (Instr.hostReadCompletion 2 0 (.data [])).wf = false := by decide
theorem test_wf_function : (Instr.flrEnd 0 1024).wf = false ∧ (Instr.flrEnd 0 1023).wf = true := by decide
theorem test_wf_entry : (Instr.dataStaged 49152).wf = false ∧ (Instr.dataStaged 49151).wf = true := by decide
theorem test_wf_pipe : (Instr.burinPipeAwake 8).wf = false ∧ (Instr.burinPipeAwake 7).wf = true := by decide
theorem test_wf_plate : (Instr.labelUpdateComplete 64).wf = false ∧ (Instr.labelUpdateComplete 63).wf = true := by decide
theorem test_wf_node : (Instr.pmirResume 512).wf = false ∧ (Instr.pmirResume 511).wf = true := by decide
theorem test_wf_drivePort : (Instr.pwrGoodTimeout 64).wf = false ∧ (Instr.pwrGoodTimeout 63).wf = true := by decide
theorem test_wf_chain : (Instr.ssbFrame 4 []).wf = false ∧ (Instr.ssbFrame 3 []).wf = true := by decide
theorem test_wf_channel : (Instr.dramInitDone 4).wf = false ∧ (Instr.dramInitDone 3).wf = true := by decide
theorem test_wf_link : (Instr.retrainTimeout 8).wf = false ∧ (Instr.retrainTimeout 7).wf = true := by decide
theorem test_wf_graver : (Instr.graverStop (.core 0) 16).wf = false ∧ (Instr.graverStop (.core 0) 15).wf = true := by decide
theorem test_wf_request : (Instr.graverRequestPulse 72).wf = false ∧ (Instr.graverRequestPulse 71).wf = true := by decide
theorem test_wf_source : (Instr.moderationExpiry 256).wf = false ∧ (Instr.moderationExpiry 255).wf = true := by decide
theorem test_wf_core : (Instr.waitForInterrupt 4).wf = false ∧ (Instr.waitForInterrupt 3).wf = true := by decide
theorem test_wf_page : (Instr.fenceReq (.core 0) 8192).wf = false ∧ (Instr.fenceReq (.core 0) 8191).wf = true := by decide
theorem test_wf_offset : (Instr.registerWrite (.core 0) 0 4096 4 0 false vr0).wf = false := by decide

/-! ### States that meet the hypotheses of the obligations -/

theorem witness_StepRunsTheFrontCommand : (∃ (i : Instr) (rest : List Instr) (s : State), s.pending = i :: rest) ∧ (∃ s : State, s.pending = []) :=
  ⟨⟨.idleEntry, [], { State.reset with pending := [.idleEntry] }, rfl⟩, ⟨State.reset, rfl⟩⟩

theorem witness_WellFormedCommandsComplete : (∃ i : Instr, i.wf = true) ∧ (∃ i : Instr, i.wf = false) :=
  ⟨⟨.idleEntry, by decide⟩, ⟨.alarmFire 2, by decide⟩⟩

theorem witness_StepKeepsTheRegistersForm : ∃ s t : State, s.regsOk ∧ step s = .next t :=
  ⟨State.reset, idleTick State.reset, by unfold State.regsOk; decide, rfl⟩

theorem witness_CommandsKeepWhatLasts : ∃ (i : Instr) (s t : State), exec i s = .next t := ⟨.idleEntry, dev, _, rfl⟩

theorem witness_ReservedOffsetsDoNothing :
    ∃ (w : Win) (p off v : Nat) (vr : VaultRead) (s : State), winOpen s w = true ∧ winOff s w = false ∧ reaches s w p = true ∧ p < 0x2000 ∧ off < 4096 ∧
      off % 4 = 0 ∧ pageOffset w p off = true ∧ isRegister s w p off = false :=
  ⟨(.pf 0), 0, 0xFFC, 5, vr0, dev, by decide⟩

theorem witness_RightsRefuseAccesses :
    (∃ (w : Win) (p off v : Nat) (vr : VaultRead) (s : State), winOpen s w = true ∧ winOff s w = false ∧ reaches s w p = true ∧ p < 0x2000 ∧ off <
      4096 ∧ off % 4 = 0 ∧ pageOffset w p off = true ∧ isRegister s w p off = true ∧ rowsAt s p off ≠ [] ∧ canWrite s w p = false) ∧
    (∃ (w : Win) (p off : Nat) (s : State), winOpen s w = true ∧ winOff s w = false ∧ reaches s w p = true ∧ p < 0x2000 ∧ off < 4096 ∧ off % 4 = 0 ∧
      pageOffset w p off = true ∧ isRegister s w p off = true ∧ canRead s w p = false) :=
  ⟨⟨(.pf 0), 0, 0x40, 1, vr0, (put [(PG_RIGHTS_OP_W 0, 0), (PG_RIGHTS_INST_W 0, 0)] dev), by decide⟩,
   ⟨(.pf 0), 0, 0x40, (put [(PG_RIGHTS_OP_R 0, 0), (PG_RIGHTS_INST_R 0, 0)] dev), by decide⟩⟩

theorem witness_EmptyAndReservedOperationsEnd :
    (∃ (n p o v : Nat) (op go st done : FRef) (vr : VaultRead) (s : State), allCmdRegs p = some (o, op, go, st, done) ∧ v < 2 ^ 32 ∧ v.testBit 31 = true ∧
      isSet s go = false ∧ (bitsOf v op.lo op.width = 0 ∨ ∀ r ∈ rowsAt s p o, r.f.key = op.key → legalFld s p v r = false)) ∧
    (∃ (n : Nat) (x : Cmd) (md : PlateMedia) (ok1 ok2 : Bool) (rate nonce off : Nat) (op go st done : FRef) (s : State), AdminDue n 0x88 x s ∧ x.tries = 0 ∧
      cmdRegs (enCdw x.raw) = some (off, op, go, st, done) ∧ 1 ≤ x.role ∧ rightsWrite s x.role (enCdw x.raw) = true ∧ isSet s go = false ∧
      (bitsOf (enAux x.raw) op.lo op.width = 0 ∨ ∃ r ∈ pageRows s (enCdw x.raw), r.f.key = op.key ∧ codeOk r (enAux x.raw) = false)) :=
  ⟨⟨0, 0x40, 0x84, (2 ^ 31), (PLT_CMD_OP 0), (PLT_CMD_GO 0), (PLT_CMD_RES_STATUS 0), (PLT_CMD_RES_DONE 0), vr0, State.reset, by decide⟩,
   ⟨1, (cmd0 (entry 0x88 0 0 0x40 8 0)), md0, true, true, 0, 0, 0x84, (PLT_CMD_OP 0), (PLT_CMD_GO 0), (PLT_CMD_RES_STATUS 0), (PLT_CMD_RES_DONE 0), (adm (entry 0x88 0 0 0x40 8 0)), by simp only [AdminDue]; decide⟩⟩

theorem witness_RegisterCommandsKeepTheRest :
    (∃ t, exec (.nightReqWrite (.core 0) 1) dev = .next t) ∧
    (∃ t, exec (.pwrClrMin (.core 0) 1) dev = .next t) ∧
    (∃ t, exec (.tscClrMax (.core 0) 1) dev = .next t) ∧
    (∃ t, exec (.admClrHwm (.core 0) 1) dev = .next t) ∧
    (∃ t, exec (.jnlClrHwm (.core 0) 1) dev = .next t) ∧
    (∃ t, exec (.faultRearm (.core 0)) dev = .next t) ∧
    (∃ t, exec (.alarmFire 0) dev = .next t) ∧
    (∃ t, exec (.mtrHeadWrite (.core 0) 0) dev = .next t) ∧
    (∃ t, exec (.rbdPauseAll (.core 0) 1) dev = .next t) :=
  ⟨⟨_, rfl⟩, ⟨_, rfl⟩, ⟨_, rfl⟩, ⟨_, rfl⟩, ⟨_, rfl⟩, ⟨_, rfl⟩, ⟨_, rfl⟩, ⟨_, rfl⟩, ⟨_, rfl⟩⟩

theorem witness_TwoMissingStripsAreRebuilt :
    ∃ (ds : List Block) (n x y : Nat), ds.length ≤ 30 ∧ (∀ d ∈ ds, d.length = n) :=
  ⟨[[1], [2]], 1, 0, 3, by decide⟩

theorem witness_SyndromesLocateAndFollow :
    (∃ (k z : Nat) (e : Byte), k ≤ 30 ∧ e ≠ 0) ∧
    (∃ (k z : Nat) (e : Byte), k ≤ 30 ∧ e ≠ 0 ∧ z < k) ∧
    (∃ (k z : Nat) (e : Byte), k ≤ 30 ∧ e ≠ 0 ∧ k ≤ z ∧ z < 255) ∧
    (∃ (ds : List Block) (n i : Nat) (old new : Block), (∀ d ∈ ds, d.length = n) ∧ ds[i]? = some old ∧ new.length = n) :=
  ⟨⟨30, 255, 1, by decide⟩,
   ⟨30, 29, 1, by decide⟩,
   ⟨30, 30, 1, by decide⟩,
   ⟨[[1], [2]], 1, 1, [2], [3], by decide⟩⟩

theorem witness_LayoutPlacesEachBlockOnce :
    (∃ (g : Geom) (sn p q : Nat), g.ok = true ∧ p < g.w ∧ q < g.w ∧ g.memberAt sn p = g.memberAt sn q) ∧
    (∃ (g : Geom) (slot within : Nat), g.ok = true ∧ within < 2 ^ 18) :=
  ⟨⟨{ n := 5, w := 4, shift := 17, seed := 7, rows := 100 }, 7, 3, 3, by decide⟩,
   ⟨{ n := 5, w := 4, shift := 17, seed := 7, rows := 100 }, 1, (2 ^ 18 - 1), by decide⟩⟩

theorem witness_DoorbellsMoveOrAreRefused :
    (∃ (w : Win) (c v : Nat) (s : State), c < 4096 ∧ Rings w c s ∧ dbOpen s c = true ∧ v < sqSize s c) ∧
    (∃ (w : Win) (c v : Nat) (s : State), c < 4096 ∧ Rings w c s ∧ dbOpen s c = true ∧ v < cqSize s c ∧
      (v + cqSize s c - getFld s (CTX_CQ_IDX_HEAD c)) % cqSize s c ≤ (getFld s (CTX_CQ_IDX_TAIL c) + cqSize s c - getFld s (CTX_CQ_IDX_HEAD c)) % cqSize s c ∧
      v ≠ getFld s (CTX_CQ_IDX_TAIL c)) ∧
    (∃ (w : Win) (c : Nat) (s : State), c < 4096 ∧ Rings w c s ∧ dbOpen s c = true ∧ getFld s (CTX_CQ_IDX_TAIL c) < cqSize s c) ∧
    (∃ (w : Win) (c size v : Nat) (s : State), c < 4096 ∧ Rings w c s ∧ (size ≠ 4 ∨ dbOpen s c = false)) ∧
    (∃ (w : Win) (c v : Nat) (s : State), c < 4096 ∧ Rings w c s ∧ dbOpen s c = true ∧ sqSize s c ≤ v) ∧
    (∃ (w : Win) (c v : Nat) (s : State), c < 4096 ∧ Rings w c s ∧ dbOpen s c = true ∧ cqSize s c ≤ v) ∧
    (∃ (w : Win) (c v : Nat) (s : State), c < 4096 ∧ Rings w c s ∧ dbOpen s c = true ∧ v < cqSize s c ∧
      (getFld s (CTX_CQ_IDX_TAIL c) + cqSize s c - getFld s (CTX_CQ_IDX_HEAD c)) % cqSize s c < (v + cqSize s c - getFld s (CTX_CQ_IDX_HEAD c)) % cqSize s c) :=
  ⟨⟨(.pf 0), 0, 63, (ring 2), by simp only [Rings]; decide⟩,
   ⟨(.pf 0), 0, 0, (put [(CTX_CQ_IDX_TAIL 0, 1)] (ring 2)), by simp only [Rings]; decide⟩,
   ⟨(.pf 0), 0, (ring 3), by simp only [Rings]; decide⟩,
   ⟨(.pf 0), 0, 2, 0, (ring 2), by simp only [Rings]; decide⟩,
   ⟨(.pf 0), 0, 64, (ring 2), by simp only [Rings]; decide⟩,
   ⟨(.pf 0), 0, 64, (ring 4), by simp only [Rings]; decide⟩,
   ⟨(.pf 0), 0, 1, (ring 2), by simp only [Rings]; decide⟩⟩

theorem witness_EntriesAreFetchedAndConsumed :
    (∃ (c : Nat) (s : State), c < 4096 ∧ releases s c = true) ∧
    (∃ (port tag c idx : Nat) (bytes : List Byte) (h : HRead) (s : State), port < 2 ∧ c < 4096 ∧ smGet s.io.hreads tag = some h ∧ h.port = port ∧
      h.sent = true ∧ h.late = false ∧ fnLive s h.port h.func = true ∧ h.why = .entry c idx ∧ ctxState s c ∈ [2, 3, 4] ∧ (ctxOf s c).got = [] ∧
      let arrived := fun (t : State) => updCtx c (fun x => { x with got := smSet x.got idx (some (slice bytes 0 64)) }) (updIo (fun i => { i with hreads := smDel i.hreads tag }) (add64 (HEP_RD_LO_COUNT port) (HEP_RD_HI_COUNT port) ((h.runs.map Prod.snd).sum) t));
      idx = getFld s (CTX_SQ_IDX_HEAD c)) ∧
    (∃ (port tag c idx : Nat) (bytes : List Byte) (h : HRead) (s : State), port < 2 ∧ c < 4096 ∧ smGet s.io.hreads tag = some h ∧ h.port = port ∧
      h.sent = true ∧ h.late = false ∧ fnLive s h.port h.func = true ∧ h.why = .entry c idx ∧ ctxState s c ∈ [2, 3, 4] ∧ (ctxOf s c).got = [] ∧
      let arrived := fun (t : State) => updCtx c (fun x => { x with got := smSet x.got idx (some (slice bytes 0 64)) }) (updIo (fun i => { i with hreads := smDel i.hreads tag }) (add64 (HEP_RD_LO_COUNT port) (HEP_RD_HI_COUNT port) ((h.runs.map Prod.snd).sum) t));
      idx ≠ getFld s (CTX_SQ_IDX_HEAD c)) ∧
    (∃ (c : Nat) (s : State), c < 4096 ∧ isSet s (CTX_IRQ_IEN c) = true ∧ (ctxOf s c).unsig ≠ 0) :=
  ⟨⟨0, { put [(CTX_BIND_KIND 0, 1), (PG_CTL_ENABLE 0x100, 1)] (ring 2) with io := { Io.reset with ctxs := [(0, { ctx0 with vis := [0], unsig := 1 })] } }, by decide⟩,
   ⟨0, 1, 0, 0, [], (hread (.entry 0 0)), { ring 2 with io := { Io.reset with hreads := [(1, hread (.entry 0 0))] } }, by dsimp only; decide⟩,
   ⟨0, 1, 0, 1, [], (hread (.entry 0 1)), { ring 4 with io := { Io.reset with hreads := [(1, hread (.entry 0 1))] } }, by dsimp only; decide⟩,
   ⟨0, (put [(CTX_IRQ_IEN 0, 1)] { put [(CTX_BIND_KIND 0, 1), (PG_CTL_ENABLE 0x100, 1)] (ring 2) with io := { Io.reset with ctxs := [(0, { ctx0 with vis := [0], unsig := 1 })] } }), by decide⟩⟩

theorem witness_RingControlsMoveStates :
    (∃ (w : Win) (c : Nat) (s : State), c < 4096 ∧ Passes w (0x1000 + c) s ∧ ringWin s w c = true ∧ ctxState s c = 1 ∧ ringCfgOk s c = true ∧
      fnOff s (ctxPort s c) (ctxFunc s c) = false ∧ isSet s (CTX_STAT_PAUSE_HOST c) = false) ∧
    (∃ (w : Win) (c : Nat) (s : State), c < 4096 ∧ Passes w (0x1000 + c) s ∧ ringWin s w c = true ∧ ctxState s c = 2) ∧
    (∃ (w : Win) (c : Nat) (s : State), c < 4096 ∧ Passes w (0x1000 + c) s ∧ ringWin s w c = true ∧ ctxState s c = 4 ∧ isSet s (CTX_STAT_PAUSE_HOST c) = false ∧
      isSet s (CTX_STAT_PAUSE_BME c) = false) ∧
    (∃ (w : Win) (c : Nat) (s : State), c < 4096 ∧ Passes w (0x1000 + c) s ∧ ringWin s w c = true ∧ ctxState s c = 3 ∧ isSet s (CTX_STAT_PAUSE_HOST c) = true ∧
      isSet s (CTX_STAT_PAUSE_BME c) = false ∧ getFld s (CTX_OUT_OUTSTANDING c) = 0 ∧ getFld s (CTX_CQ_IDX_HEAD c) = getFld s (CTX_CQ_IDX_TAIL c)) ∧
    (∃ (w : Win) (c v : Nat) (s : State), c < 4096 ∧ Passes w (0x1000 + c) s ∧ bindWin s w c = true ∧ ctxState s c = 1 ∧ isSet s (CTX_BIND_VALID c) = true ∧
      v % 2 = 0) :=
  ⟨⟨(.pf 0), 0, (ring 1), by simp only [Passes]; decide⟩,
   ⟨(.core 0), 0, (ring 2), by simp only [Passes]; decide⟩,
   ⟨(.core 0), 4095, (put [(CTX_STAT_STATE 4095, 4)] dev), by simp only [Passes]; decide⟩,
   ⟨(.core 0), 0, (put [(CTX_STAT_PAUSE_HOST 0, 1)] (ring 3)), by simp only [Passes]; decide⟩,
   ⟨(.core 0), 0, 0, (ring 1), by simp only [Passes]; decide⟩⟩

theorem witness_IoCommandsStart :
    (∃ (n : Nat) (x : Cmd) (s : State), StartsIo n 1 x s) ∧
    (∃ (n : Nat) (x : Cmd) (s : State), StartsIo n 7 x s) ∧
    (∃ (n : Nat) (x : Cmd) (s : State), StartsIo n 6 x s) ∧
    (∃ (n : Nat) (x : Cmd) (s : State), StartsIo n 2 x s) ∧
    (∃ (n : Nat) (x : Cmd) (s : State), StartsIo n 4 x s) ∧
    (∃ (n : Nat) (x : Cmd) (s : State), StartsIo n 5 x s) ∧
    (∃ (n : Nat) (x : Cmd) (s : State), StartsIo n 3 x s ∧ x.keys = []) :=
  ⟨⟨1, (cmd0 (entry 1 0 1 0 0 0)), (io (entry 1 0 1 0 0 0)), by simp only [StartsIo]; decide⟩,
   ⟨1, (cmd0 (entry 7 0 1 0 0 0)), (io (entry 7 0 1 0 0 0)), by simp only [StartsIo]; decide⟩,
   ⟨1, (cmd0 (entry 6 0 1 0 0 0)), (io (entry 6 0 1 0 0 0)), by simp only [StartsIo]; decide⟩,
   ⟨1, (cmd0 (entry 2 0 1 0 0 0)), (io (entry 2 0 1 0 0 0)), by simp only [StartsIo]; decide⟩,
   ⟨1, (cmd0 (entry 4 0 1 0 0 0)), (io (entry 4 0 1 0 0 0)), by simp only [StartsIo]; decide⟩,
   ⟨1, (cmd0 (entry 5 0 1 0 0 0)), (io (entry 5 0 1 0 0 0)), by simp only [StartsIo]; decide⟩,
   ⟨1, (cmd0 (entry 3 0 1 0 0 0)), (io (entry 3 0 1 0 0 0)), by simp only [StartsIo]; decide⟩⟩

theorem witness_FlushFillAndCopyGoOn :
    (∃ (n : Nat) (x : Cmd) (s : State), StartsIo n 3 x s ∧ x.keys ≠ []) ∧
    (∃ (n : Nat) (x : Cmd) (s : State), StartsIo n 8 x s ∧ x.todo ≠ 0 ∧ bulkDue s x.ctx = true ∧ graverFree s [8, 9, 10, 11, 12, 13] = true) ∧
    (∃ (n : Nat) (x : Cmd) (s : State), StartsIo n 9 x s ∧ x.todo ≠ 0 ∧ x.waits = 0 ∧ x.tries = 0 ∧ x.srcBad = none ∧ bulkDue s x.ctx = true ∧
      graverFree s [8, 9, 10, 11, 12, 13] = true) ∧
    (∃ (n : Nat) (x : Cmd) (st : Status) (d : Nat) (s : State), StartsIo n 9 x s ∧ x.waits = 0 ∧ x.srcBad = some (st, d)) :=
  ⟨⟨1, { cmd0 (entry 3 0 1 0 0 0) with keys := [(0, 0, 0, 1)] }, (withCmd false { cmd0 (entry 3 0 1 0 0 0) with keys := [(0, 0, 0, 1)] } dev), by simp only [StartsIo]; decide⟩,
   ⟨1, { cmd0 (entry 8 0 1 0 0 0) with todo := 1 }, (withCmd false { cmd0 (entry 8 0 1 0 0 0) with todo := 1 } movers), by simp only [StartsIo]; decide⟩,
   ⟨1, { cmd0 (entry 9 0 1 0 0 0) with todo := 1 }, { withCmd false { cmd0 (entry 9 0 1 0 0 0) with todo := 1 } movers with store := { Store.reset with vols := [(0, vol0)] } }, by simp only [StartsIo]; decide⟩,
   ⟨1, { cmd0 (entry 9 0 1 0 0 0) with srcBad := some (.invalidField, 0x30) }, .invalidField, 0x30, (withCmd false { cmd0 (entry 9 0 1 0 0 0) with srcBad := some (.invalidField, 0x30) } movers), by simp only [StartsIo]; decide⟩⟩

theorem witness_AdmissionDecidesAndGrants :
    (∃ (g : Seg) (rest : List Seg) (ue : Bool) (s : State), ∃ st, s.io.queue = g :: rest ∧ isSet s ADM_STAT_FROZEN = false ∧ enabled s 0x2B = true ∧
      g.group = 0 ∧
      let t := add64 ADM_DECIDED_LO_COUNT ADM_DECIDED_HI_COUNT 1 (updIo (fun i => { i with queue := rest, admCount := s.io.admCount + 1 }) s);
      let g1 : Seg := { g with adm := s.io.admCount + 1 };
      ((checkSet s g).filterMap (fun h => refusal s h ue)).head? = some st) ∧
    (∃ (g : Seg) (rest : List Seg) (ue : Bool) (s : State), s.io.queue = g :: rest ∧ isSet s ADM_STAT_FROZEN = false ∧ enabled s 0x2B = true ∧ g.group
      = 0 ∧
      let t := add64 ADM_DECIDED_LO_COUNT ADM_DECIDED_HI_COUNT 1 (updIo (fun i => { i with queue := rest, admCount := s.io.admCount + 1 }) s);
      let g1 : Seg := { g with adm := s.io.admCount + 1 };
      ((checkSet s g).filterMap (fun h => refusal s h ue)).head? = none ∧ segStale t g1 = false ∧ canGrant t t.io.waitl g1 = true) ∧
    (∃ (g : Seg) (rest : List Seg) (ue : Bool) (s : State), s.io.queue = g :: rest ∧ isSet s ADM_STAT_FROZEN = false ∧ enabled s 0x2B = true ∧ g.group
      = 0 ∧
      let t := add64 ADM_DECIDED_LO_COUNT ADM_DECIDED_HI_COUNT 1 (updIo (fun i => { i with queue := rest, admCount := s.io.admCount + 1 }) s);
      let g1 : Seg := { g with adm := s.io.admCount + 1 };
      ((checkSet s g).filterMap (fun h => refusal s h ue)).head? = none ∧ segStale t g1 = false ∧ canGrant t t.io.waitl g1 = false) ∧
    (∃ (before rest : List WaitItem) (g : Seg) (s : State), isSet s ADM_STAT_FROZEN = false ∧ pickWaiting s [] (waitItems s) = some (before, .seg g,
      rest) ∧ segStale s g = false) ∧
    (∃ (before rest : List WaitItem) (id : Nat) (o : Sop) (s : State), isSet s ADM_STAT_FROZEN = false ∧ pickWaiting s [] (waitItems s) = some
      (before, .sop id, rest) ∧ sopOf s id = some o ∧
      let t := updIo (fun x => { x with waitl := x.waitl.eraseIdx before.length }) s;
      o.phase = .lock ∧ sopPipeFree s before = true) ∧
    (∃ (before rest : List WaitItem) (id : Nat) (o : Sop) (s : State), isSet s ADM_STAT_FROZEN = false ∧ pickWaiting s [] (waitItems s) = some
      (before, .sop id, rest) ∧ sopOf s id = some o ∧
      let t := updIo (fun x => { x with waitl := x.waitl.eraseIdx before.length }) s;
      o.phase = .lock ∧ sopPipeFree s before = false) ∧
    (∃ (before rest : List WaitItem) (id : Nat) (o : Sop) (s : State), isSet s ADM_STAT_FROZEN = false ∧ pickWaiting s [] (waitItems s) = some
      (before, .sop id, rest) ∧ sopOf s id = some o ∧
      let t := updIo (fun x => { x with waitl := x.waitl.eraseIdx before.length }) s;
      o.phase ≠ .lock) ∧
    (∃ (w : Win) (v : Nat) (s : State), Passes w 0x2B s) ∧
    (∃ (w : Win) (v : Nat) (s : State), Passes w 0x2B s ∧ v % 2 = 1) ∧
    (∃ (w : Win) (v : Nat) (s : State), Passes w 0x2A s ∧ v % 2 = 1) :=
  ⟨⟨seg0, [], true, (put [(PG_CTL_ENABLE 0x2B, 1), (PG_CTL_ENABLE 0x2A, 1)] { pl plate0 with io := { Io.reset with queue := [seg0] } }), .internal, by dsimp only; decide⟩,
   ⟨seg0, [], false, (put [(PG_CTL_ENABLE 0x2B, 1), (PG_CTL_ENABLE 0x2A, 1)] { pl plate0 with io := { Io.reset with queue := [seg0] } }), by dsimp only; decide⟩,
   ⟨seg0, [], false, (put [(PG_CTL_ENABLE 0x2B, 1)] { pl plate0 with io := { Io.reset with queue := [seg0], locks := [{ plate := 0, sn := 0, stream := false, rmw := false, maint := true, staged := false, cache := 0, readers := 0 }] } }), by dsimp only; decide⟩,
   ⟨[], [], seg0, { pl plate0 with io := { Io.reset with waitl := [.seg seg0] } }, by decide⟩,
   ⟨[], [], 1, sop0, { pl plate0 with io := { Io.reset with waitl := [.sop 1], sops := [(1, sop0)] } }, by dsimp only; decide⟩,
   ⟨[], [], 1, sop0, put [(PG_CTL_ENABLE 0x30, 0)] { pl plate0 with io := { Io.reset with waitl := [.sop 1], sops := [(1, sop0)] } }, by dsimp only; decide⟩,
   ⟨[], [], 1, { sop0 with phase := .pipe }, { pl plate0 with io := { Io.reset with waitl := [.sop 1], sops := [(1, { sop0 with phase := .pipe })] } }, by dsimp only; decide⟩,
   ⟨(.core 0), 0, dev, by simp only [Passes]; decide⟩,
   ⟨(.core 0), 1, dev, by simp only [Passes]; decide⟩,
   ⟨(.core 0), 1, dev, by simp only [Passes]; decide⟩⟩

theorem witness_HostReadsEnd :
    (∃ (port tag j : Nat) (bytes : List Byte) (h : HRead) (s : State), port < 2 ∧ smGet s.io.hreads tag = some h ∧ h.port = port ∧ h.sent = true ∧
      h.late = false ∧ fnLive s h.port h.func = true ∧ h.why = .wdata j) ∧
    (∃ (tag j : Nat) (h : HRead) (s : State), smGet s.io.hreads tag = some h ∧ h.sent = true ∧ h.late = false ∧ fnLive s h.port h.func = true ∧
      timerOut s h = true ∧ h.why = .wdata j) ∧
    (∃ (port tag : Nat) (r : HostRd) (s : State), port < 2 ∧ smGet s.io.hreads tag = none) ∧
    (∃ (port tag n : Nat) (bytes : List Byte) (h : HRead) (s : State), port < 2 ∧ smGet s.io.hreads tag = some h ∧ h.port = port ∧ h.sent = true ∧
      h.late = false ∧ fnLive s h.port h.func = true ∧
      let ended := fun (t : State) => updIo (fun i => { i with hreads := smDel i.hreads tag }) (add64 (HEP_RD_LO_COUNT port) (HEP_RD_HI_COUNT port) ((h.runs.map Prod.snd).sum) (sendReqs tag h h.rest t));
      h.why = .cmp n) ∧
    (∃ (port tag n : Nat) (bytes : List Byte) (h : HRead) (s : State), port < 2 ∧ smGet s.io.hreads tag = some h ∧ h.port = port ∧ h.sent = true ∧
      h.late = false ∧ fnLive s h.port h.func = true ∧
      let ended := fun (t : State) => updIo (fun i => { i with hreads := smDel i.hreads tag }) (add64 (HEP_RD_LO_COUNT port) (HEP_RD_HI_COUNT port) ((h.runs.map Prod.snd).sum) (sendReqs tag h h.rest t));
      h.why = .sgl n) :=
  ⟨⟨0, 1, 0, [], (hread (.wdata 0)), { dev with io := { Io.reset with hreads := [(1, hread (.wdata 0))] } }, by decide⟩,
   ⟨1, 0, (hread (.wdata 0)), { dev with timeQ := 32000000 * 320, io := { Io.reset with hreads := [(1, hread (.wdata 0))] } }, by decide⟩,
   ⟨1, 0, .abort, dev, by decide⟩,
   ⟨0, 1, 0, [], (hread (.cmp 0)), { dev with io := { Io.reset with hreads := [(1, hread (.cmp 0))] } }, by dsimp only; decide⟩,
   ⟨0, 1, 0, [], (hread (.sgl 0)), { dev with io := { Io.reset with hreads := [(1, hread (.sgl 0))] } }, by dsimp only; decide⟩⟩

theorem witness_JournalEntriesMoveOn :
    (∃ (j : Nat) (e : JEntry) (x : Plate) (s : State), j < 49152 ∧ entryOf s j = some e ∧ plateOf s e.seg.plate = some x ∧ e.state = .opened ∧ e.path
      = .stream ∧ e.staged = false ∧ entryReady s j e = true ∧ e.seg.group = 0 ∧ linkGate s e 1 = true) ∧
    (∃ (j : Nat) (e : JEntry) (x : Plate) (s : State), j < 49152 ∧ entryOf s j = some e ∧ plateOf s e.seg.plate = some x ∧ e.state = .opened ∧ e.path
      ≠ .cache ∧ e.staged = false ∧ entryReady s j e = true ∧
      let blks := blkRange e.blkFirst e.blkLast;
      let er := if e.forced || !e.recon then applyGen x.geom.k e.old blks e.erased else e.erased;
      (e.path = .stream ∨ (e.forced = true ∧ overErased x.geom blks er = []) ∨ (e.forced = false ∧ er = [])) ∧ e.seg.group = 0 ∧ linkGate s e 1 =
      true) ∧
    (∃ (j : Nat) (e : JEntry) (x : Plate) (s : State), j < 49152 ∧ entryOf s j = some e ∧ plateOf s e.seg.plate = some x ∧ e.state = .opened ∧ e.path
      ≠ .cache ∧ e.staged = false ∧ entryReady s j e = true ∧
      let blks := blkRange e.blkFirst e.blkLast;
      let er := if e.forced || !e.recon then applyGen x.geom.k e.old blks e.erased else e.erased;
      (e.path = .stream ∨ (e.forced = true ∧ overErased x.geom blks er = []) ∨ (e.forced = false ∧ er = [])) ∧ e.seg.group ≠ 0) ∧
    (∃ (j : Nat) (h : JEntry) (s : State), j < 49152 ∧ entryOf s j = some h ∧ h.seg.group ≠ 0 ∧ h.headIdx = j ∧ h.state = .opened ∧ ((groupEntries s
      h.seg.group).map (fun q => q.2.seg.wset.length)).sum = h.seg.gBlks ∧ (groupEntries s h.seg.group).all (fun q => q.2.staged && linkGate s q.2 1)
      = true) ∧
    (∃ (j : Nat) (e : JEntry) (s : State), j < 49152 ∧ entryOf s j = some e ∧ e.logged = true ∧ 2 ≤ jstateCode e.state ∧ (∀ q ∈ s.io.nvme, ∀ i m,
      q.2.why = .log i m → ∀ r ∈ groupEntries s e.seg.group, r.2.seg.plate = e.seg.plate → r.1 ≠ i)) ∧
    (∃ (id : Nat) (e : JEntry) (x : Plate) (s : State), entryOf s id = some e ∧ plateOf s e.seg.plate = some x ∧ e.state = .dataStaged ∧ (e.seg.group
      = 0 ∨ 2 ≤ jstateCode (effState s e)) ∧ e.logDone = true ∧ onPipe s (.entry id) = true) ∧
    (∃ (id : Nat) (o : Sop) (s : State), sopOf s id = some o ∧ o.phase = .reading ∧ sopReads s id = 0 ∧ onPipe s (.sop id) = true ∧ repairHeld s o =
      false ∧ o.kind = .rebuild) ∧
    (∃ (id : Nat) (o : Sop) (s : State), sopOf s id = some o ∧ o.phase = .reading ∧ sopReads s id = 0 ∧ onPipe s (.sop id) = true ∧ repairHeld s o =
      false ∧ o.kind = .proof) ∧
    (∃ (id : Nat) (o : Sop) (s : State), sopOf s id = some o ∧ o.phase = .reading ∧ sopReads s id = 0 ∧ onPipe s (.sop id) = true ∧ repairHeld s o =
      false ∧ o.kind = .loss) ∧
    (∃ (id : Nat) (o : Sop) (s : State), ∃ c off, sopOf s id = some o ∧ o.phase = .reading ∧ sopReads s id = 0 ∧ onPipe s (.sop id) = true ∧
      repairHeld s o = false ∧ o.kind = .recon c off) ∧
    (∃ (j : Nat) (e : JEntry) (x : Plate) (s : State), j < 49152 ∧ entryOf s j = some e ∧ e.path ≠ .cache ∧ plateOf s e.seg.plate = some x ∧ e.state =
      .parityDone ∧ entryWritten x e = true) ∧
    (∃ (j : Nat) (e : JEntry) (s : State), j < 49152 ∧ entryOf s j = some e ∧ e.path = .cache ∧ e.state = .opened ∧ e.seg.group = 0 ∧ e.staged = true) ∧
    (∃ (j : Nat) (e : JEntry) (s : State), j < 49152 ∧ entryOf s j = some e ∧ mayFree s j e = true ∧ e.seg.src ≠ .lossFill) ∧
    (∃ (p : Nat) (s : State), p < 64 ∧ (∀ q ∈ s.io.nvme, ∀ m, q.2.why ≠ .header p m)) ∧
    (∃ (p blk : Nat) (x : Plate) (s : State), p < 64 ∧ blk < 1536 ∧ plateOf s p = some x ∧ x.jp.writing.any (fun q => decide (q.2 = blk)) = false ∧
      x.jp.hdrWait = 0) ∧
    (∃ (p : Nat) (x : Plate) (s : State), p < 64 ∧ plateOf s p = some x ∧ x.jp.copying = true ∧ x.jp.copyWait = 1 ∧ (∀ q ∈ s.io.nvme, ∀ m, q.2.why ≠
      .header p m ∧ q.2.why ≠ .remir p m)) :=
  ⟨⟨0, { ent0 with path := .stream }, plate0, (jr { ent0 with path := .stream } plate0), by decide⟩,
   ⟨0, { ent0 with path := .stream }, plate0, (jr { ent0 with path := .stream } plate0), by dsimp only; decide⟩,
   ⟨0, { ent0 with path := .stream, seg := { seg0 with group := 1 } }, plate0, (jr { ent0 with path := .stream, seg := { seg0 with group := 1 } } plate0), by dsimp only; decide⟩,
   ⟨0, { ent0 with seg := { seg0 with group := 1 }, staged := true }, (jr { ent0 with seg := { seg0 with group := 1 }, staged := true } plate0), by decide⟩,
   ⟨0, { ent0 with logged := true, state := .dataStaged }, (jr { ent0 with logged := true, state := .dataStaged } plate0), by decide, by decide, by decide, by decide, by intro q hq; exact nomatch (show q ∈ [] from hq)⟩,
   ⟨0, { ent0 with state := .dataStaged, logDone := true }, plate0, { jr { ent0 with state := .dataStaged, logDone := true } plate0 with io := { Io.reset with journal := [(0, { ent0 with state := .dataStaged, logDone := true })], jobs := [{ pipe := 0, ref := .entry 0, maint := false }] } }, by decide⟩,
   ⟨1, { sop0 with phase := .reading }, (onPipe0 { sop0 with phase := .reading }), by dsimp only; decide⟩,
   ⟨1, { sop0 with kind := .proof, phase := .reading }, (onPipe0 { sop0 with kind := .proof, phase := .reading }), by dsimp only; decide⟩,
   ⟨1, { sop0 with kind := .loss, phase := .reading }, (onPipe0 { sop0 with kind := .loss, phase := .reading }), by dsimp only; decide⟩,
   ⟨1, { sop0 with kind := .recon 1 0, phase := .reading }, (onPipe0 { sop0 with kind := .recon 1 0, phase := .reading }), 1, 0, by dsimp only; decide⟩,
   ⟨0, { ent0 with state := .parityDone }, plate0, (jr { ent0 with state := .parityDone } plate0), by decide⟩,
   ⟨0, { ent0 with path := .cache, staged := true }, (jr { ent0 with path := .cache, staged := true } plate0), by decide⟩,
   ⟨0, { ent0 with state := .committed, posted := true }, (jr { ent0 with state := .committed, posted := true } plate0), by decide⟩,
   ⟨63, dev, by decide, by intro q hq; exact nomatch (show q ∈ [] from hq)⟩,
   ⟨0, 1535, plate0, (pl plate0), by decide⟩,
   ⟨0, { plate0 with jp := { emptyPair 0 with a := some (0, 1), copying := true, copyWait := 1 } }, (pl { plate0 with jp := { emptyPair 0 with a := some (0, 1), copying := true, copyWait := 1 } }), by decide, by decide, by decide, by decide, by intro q hq; exact nomatch (show q ∈ [] from hq)⟩⟩

theorem witness_BurinPipesCheckThemselves :
    (∃ (b : Nat) (s : State), b < 8) ∧
    (∃ (b : Nat) (s : State), b < 8 ∧ b ∈ s.io.waking) ∧
    (∃ (w : Win) (b : Nat) (s : State), b < 8 ∧ Passes w (0x30 + b) s ∧ pipeJobs s b = 0) ∧
    (∃ (b : Nat) (lanes : List (Byte × Byte)) (s : State), b < 8 ∧ getFld s (BUR_STAT_KAT b) = 3) :=
  ⟨⟨7, dev, by decide⟩,
   ⟨7, { dev with io := { Io.reset with waking := [7] } }, by decide⟩,
   ⟨(.core 0), 7, dev, by simp only [Passes]; decide⟩,
   ⟨7, (List.replicate 32 (0xD5, 0x67)), (put [(BUR_STAT_KAT 7, 3)] dev), by decide⟩⟩

theorem witness_MemberAnswersAndLabelsGoOn :
    (∃ (id : Nat) (c : NvCmd) (j pos : Nat) (s : State), smGet s.io.nvme id = some c ∧ nvIssued s id = true ∧ c.op ≠ .read ∧ c.why = .strip j pos ∧ devFenced s = false) ∧
    (∃ (id : Nat) (c : NvCmd) (st : Nvme) (s : State), smGet s.io.nvme id = some c ∧ nvIssued s id = true ∧ c.op ≠ .read ∧ devFenced s = false ∧ (∀ a b d, c.why ≠ .remote a
      b d) ∧ (∀ a, c.why ≠ .resv a) ∧
      let u := updIo (fun i => { i with nvme := smDel i.nvme id }) s;
      st = .ok) ∧
    (∃ (id : Nat) (c : NvCmd) (st : Nvme) (s : State), smGet s.io.nvme id = some c ∧ nvIssued s id = true ∧ c.op ≠ .read ∧ devFenced s = false ∧ (∀ a b d, c.why ≠ .remote a
      b d) ∧ (∀ a, c.why ≠ .resv a) ∧
      let u := updIo (fun i => { i with nvme := smDel i.nvme id }) s;
      st ≠ .ok) ∧
    (∃ (id key : Nat) (c : NvCmd) (tags : List Nat) (s : State), smGet s.io.nvme id = some c ∧ nvIssued s id = true ∧ c.why = .tagRd key) ∧
    (∃ (id key : Nat) (c : NvCmd) (b : TagBuf) (s : State), smGet s.io.nvme id = some c ∧ nvIssued s id = true ∧ c.why = .tagWr key ∧ tagBufOf s key = some b ∧ b.due = [] ∧
      b.inWrite = []) ∧
    (∃ (id n off : Nat) (c : NvCmd) (blks : List TBlk) (s : State), smGet s.io.nvme id = some c ∧ nvIssued s id = true ∧ c.op = .read ∧ c.why = .cmdRd n off ∧ devFenced s =
      false) ∧
    (∃ (id i pos : Nat) (c : NvCmd) (blks : List TBlk) (s : State), smGet s.io.nvme id = some c ∧ nvIssued s id = true ∧ c.op = .read ∧ devFenced s = false ∧
      let t := readTimed c (hostBytes c (portOk c (updIo (fun i => { i with nvme := smDel i.nvme id }) s)));
      c.why = .old i pos) ∧
    (∃ (id i pos : Nat) (c : NvCmd) (blks : List TBlk) (s : State), smGet s.io.nvme id = some c ∧ nvIssued s id = true ∧ c.op = .read ∧ devFenced s = false ∧
      let t := readTimed c (hostBytes c (portOk c (updIo (fun i => { i with nvme := smDel i.nvme id }) s)));
      c.why = .sopRd i pos) ∧
    (∃ (id : Nat) (o : Sop) (x : Plate) (s : State), sopOf s id = some o ∧ plateOf s o.plate = some x ∧ o.phase = .listing ∧ (∀ q ∈ s.io.nvme, ∀ m,
      q.2.why ≠ .lbt o.plate m)) ∧
    (∃ (p : Nat) (x : Plate) (s : State), p < 64 ∧ plateOf s p = some x ∧ x.lbtDirty = true) ∧
    (∃ (p : Nat) (x : Plate) (s : State), p < 64 ∧ plateOf s p = some x ∧ x.labelBusy = false ∧ x.seqBase + 2 ^ 19 ≤ x.seqNo) ∧
    (∃ (p : Nat) (x : Plate) (s : State), p < 64 ∧ plateOf s p = some x ∧ x.seqNo < x.seqBase + 2 ^ 19) ∧
    (∃ (p : Nat) (s : State), p < 64 ∧ (labelDone p s).link.held = []) :=
  ⟨⟨1, (nv0 .write (.strip 0 0)), 0, 0, (nvS (nv0 .write (.strip 0 0))), by decide⟩,
   ⟨1, (nv0 .write (.strip 0 0)), .ok, (nvS (nv0 .write (.strip 0 0))), by decide, by decide, by decide, by decide, (fun _ _ _ h => by cases h), (fun _ h => by cases h), rfl⟩,
   ⟨1, (nv0 .write (.strip 0 0)), .other, (nvS (nv0 .write (.strip 0 0))), by decide, by decide, by decide, by decide, (fun _ _ _ h => by cases h), (fun _ h => by cases h), by decide⟩,
   ⟨1, 5, (nv0 .read (.tagRd 5)), [], (nvS (nv0 .read (.tagRd 5))), by decide⟩,
   ⟨1, 5, (nv0 .write (.tagWr 5)), { plate := 0, mem := 0, page := 0, loaded := true, reading := false, writing := true, tags := [], due := [], dueFor := [], inWrite := [] }, { nvS (nv0 .write (.tagWr 5)) with io := { Io.reset with nvme := [(1, nv0 .write (.tagWr 5))], tagBufs := [(5, { plate := 0, mem := 0, page := 0, loaded := true, reading := false, writing := true, tags := [], due := [], dueFor := [], inWrite := [] })] } }, by decide⟩,
   ⟨1, 1, 0, (nv0 .read (.cmdRd 1 0)), [], (nvS (nv0 .read (.cmdRd 1 0))), by decide⟩,
   ⟨1, 0, 0, (nv0 .read (.old 0 0)), [], (nvS (nv0 .read (.old 0 0))), by dsimp only; decide⟩,
   ⟨1, 0, 0, (nv0 .read (.sopRd 0 0)), [], (nvS (nv0 .read (.sopRd 0 0))), by dsimp only; decide⟩,
   ⟨1, { sop0 with kind := .loss, phase := .listing }, plate0, { pl plate0 with io := { Io.reset with sops := [(1, { sop0 with kind := .loss, phase := .listing })] } }, by decide, by decide, by decide, by intro q hq; exact nomatch (show q ∈ [] from hq)⟩,
   ⟨0, { plate0 with lbtDirty := true }, (pl { plate0 with lbtDirty := true }), by decide⟩,
   ⟨0, { plate0 with seqNo := 2 ^ 19 }, (pl { plate0 with seqNo := 2 ^ 19 }), by decide⟩,
   ⟨0, { plate0 with seqNo := 2 ^ 19 - 1 }, (pl { plate0 with seqNo := 2 ^ 19 - 1 }), by decide⟩,
   ⟨63, dev, by decide⟩⟩

theorem witness_PlateOperationsAct :
    (∃ (w : Win) (p slot : Nat) (x : Plate) (s : State), p < 64 ∧ Passes w (0x40 + p) s ∧ mayInstall s w = true ∧ isSet s (PLT_CMD_GO p) = false ∧
      plateOf s p = some x ∧ slot % 128 < x.geom.n ∧ slot % 128 ∉ x.membersIn [.missing, .failed]) ∧
    (∃ (w : Win) (p slot : Nat) (x : Plate) (n : Ns) (s : State), p < 64 ∧ Passes w (0x40 + p) s ∧ mayInstall s w = true ∧ isSet s (PLT_CMD_GO p) =
      false ∧
      let t := loaded w (0x40 + p) (PLT_CMD_OP p) 2 [(PLT_CMD_MEMBER p, slot)] (PLT_CMD_GO p) (PLT_CMD_RES_DONE p) s;
      let port := getFld t (PLT_CMD_PORT_PORT p);
      let nsid := getFld t (PLT_CMD_NSID_NSID p);
      plateOf t p = some x ∧ slot % 128 < x.geom.n ∧ portState t port = 4 ∧ nsOf t port nsid = some n ∧ unassigned t port nsid none = true ∧ (x.mem
      (slot % 128)).map (fun y => decide (y.failSeq ≠ 0 ∧ y.node = nodeId t ∧ y.port = port ∧ y.nsid = nsid)) = some false ∧ x.failSeqOf (slot % 128)
      ≠ 0 ∧ x.used ≤ n.bytes ∧ n.lbaOk = true ∧ (∀ i y, i ≠ slot % 128 → x.mem i = some y → some y.driveKey ≠ (dport t port).map DPort.key)) ∧
    (∃ (w : Win) (p : Nat) (x : Plate) (s : State), p < 64 ∧ Passes w (0x40 + p) s ∧ mayInstall s w = true ∧ isSet s (PLT_CMD_GO p) = false ∧ plateOf
      s p = some x ∧ x.membersIn [.spareHeld] = []) ∧
    (∃ (w : Win) (p : Nat) (x : Plate) (s : State), p < 64 ∧ Passes w (0x40 + p) s ∧ mayInstall s w = true ∧ isSet s (PLT_CMD_GO p) = false ∧ plateOf
      s p = some x) ∧
    (∃ (w : Win) (p : Nat) (x : Plate) (s : State), p < 64 ∧ Passes w (0x40 + p) s ∧ mayInstall s w = true ∧ isSet s (PLT_CMD_GO p) = false ∧ plateOf
      s p = some x ∧ x.u < 3 ∧ x.latch = true) ∧
    (∃ (w : Win) (p : Nat) (s : State), p < 64 ∧ Passes w (0x40 + p) s ∧ mayInstall s w = true ∧ isSet s (PLT_CMD_GO p) = false ∧
      let t := loaded w (0x40 + p) (PLT_CMD_OP p) 7 [] (PLT_CMD_GO p) (PLT_CMD_RES_DONE p) s;
      let port := getFld t (PLT_CMD_PORT_PORT p);
      let nsid := getFld t (PLT_CMD_NSID_NSID p);
      portState t port = 4 ∧ isForeignNs t port nsid = true ∧ isVaultNs t port nsid = false) ∧
    (∃ (w : Win) (p : Nat) (md : PlateMedia) (f0 : Foreign) (s : State), p < 64 ∧ Passes w (0x40 + p) s ∧ mayInstall s w = true ∧ isSet s (PLT_CMD_GO
      p) = false ∧
      let t := loaded w (0x40 + p) (PLT_CMD_OP p) 5 [] (PLT_CMD_GO p) (PLT_CMD_RES_DONE p) s;
      let f := governed f0 (md.mems.filterMap mediaLabel);
      let slots := importSlots f md t;
      plateOf s p = none ∧ t.store.foreigns.find? (fun g => decide (g.id = md.plateId)) = some f0 ∧ t.store.plates.any (fun q => decide (q.2.id =
      f.id)) = false ∧ smGet t.link.leased (leAt f.label 0x38 2) = none ∧ assemblyFails slots = []) :=
  ⟨⟨(.core 0), 0, 1, plate0, (pl plate0), by simp only [Passes]; decide⟩,
   ⟨(.core 0), 0, 1, plateF, ns0, (bay ns0 plateF), by decide, by simp only [Passes]; decide, by decide, by decide, by decide, by decide, by decide, by decide, by decide, by decide, by decide, by decide, by decide, fun i y _ h => (show ∀ z ∈ plateF.members, some z.driveKey ≠ some 9 by decide) y (List.mem_of_getElem? h)⟩,
   ⟨(.core 0), 0, plate0, (pl plate0), by simp only [Passes]; decide⟩,
   ⟨(.core 0), 0, plate0, (pl plate0), by simp only [Passes]; decide⟩,
   ⟨(.core 0), 0, { plate0 with latch := true }, (pl { plate0 with latch := true }), by simp only [Passes]; decide⟩,
   ⟨(.core 0), 0, (bay { ns0 with genA := some 1, foreign := true } plate0), by dsimp only; simp only [Passes]; decide⟩,
   ⟨(.core 0), 0, { md0 with plateId := 99 }, fgn, { dev with store := { Store.reset with foreigns := [fgn] } }, by dsimp only; simp only [Passes]; decide⟩⟩

theorem witness_PassesWalkTheirStripes :
    (∃ (p : Nat) (x : Plate) (s : State), p < 64 ∧ plateOf s p = some x ∧ isSet s (PLT_CFG_AUTO_REBUILD p) = true ∧ passHeld s p x = false) ∧
    (∃ (p sn : Nat) (x : Plate) (s : State), p < 64 ∧ plateOf s p = some x ∧ x.pass.tgt = x.target ∧ x.pass.running = true ∧ passHeld s p x = false ∧
      let busy := (stepsOf s p).map (fun q => q.2.sn);
      let y := walkPast busy x.stripes x;
      let o : Sop := { kind := .rebuild, plate := p, sn := sn, first := 0, last := y.geom.bps - 1, phase := .lock, grid := [], erased := [], tagBad := [], lost := [], waits := 0, pipe := 8, tagWaits := 0, charge := 0, mark := false, fix := [], located := [], full := false };
      y.pass.tgt = y.target ∧ nextStep y busy y.stripes y.pass.cursor = some sn ∧ stepCharge y o ≤ y.pass.budget ∧ (s.io.sops.filter (fun q => decide
      (q.2.kind = .rebuild))).length < getFld s RBD_CFG_STEPS_MAX) ∧
    (∃ (id : Nat) (o : Sop) (x : Plate) (s : State), sopOf s id = some o ∧ plateOf s o.plate = some x ∧ o.kind = .rebuild ∧ o.phase = .writing ∧
      sopBusy s id = false ∧ lossPending s o = false ∧ x.pass.cursor = o.sn) ∧
    (∃ (p : Nat) (x : Plate) (s : State), p < 64 ∧ plateOf s p = some x ∧ recordDueNow s x = true ∧ x.attached = false) ∧
    (∃ (p : Nat) (x : Plate) (s : State), p < 64 ∧ plateOf s p = some x ∧ x.pass.running = true ∧ stepsOf s p = [] ∧ 0 < x.pass.len) ∧
    (∃ (p lenUs : Nat) (x : Plate) (s : State), p < 64 ∧ plateOf s p = some x ∧ x.pass.running = true ∧ stepsOf s p = [] ∧ x.pass.len < lenUs) ∧
    (∃ (p : Nat) (x : Plate) (s : State), p < 64 ∧ plateOf s p = some x ∧ recordDueNow s x = true) ∧
    (∃ (p : Nat) (ok : Bool) (x : Plate) (s : State), p < 64 ∧ plateOf s p = some x ∧ recordDueNow s x = false) ∧
    (∃ (w : Win) (v : Nat) (s : State), Passes w 0x39 s ∧ mayInstall s w = true) ∧
    (∃ (w : Win) (v : Nat) (s : State), Passes w 0x38 s ∧ mayInstall s w = true) :=
  ⟨⟨0, plate0, (put [(PLT_CFG_AUTO_REBUILD 0, 1)] { movers with store := (pl plate0).store }), by decide⟩,
   ⟨0, 1, plateR, { movers with store := (pl plateR).store }, by dsimp only; decide +kernel⟩,
   ⟨1, { sop0 with phase := .writing }, plateR, { pl plateR with io := { Io.reset with sops := [(1, { sop0 with phase := .writing })] } }, by decide⟩,
   ⟨0, { plateR with pass := { plateR.pass with walked := 2 ^ 32 } }, (pl { plateR with pass := { plateR.pass with walked := 2 ^ 32 } }), by decide⟩,
   ⟨0, plateR, (pl plateR), by decide⟩,
   ⟨0, 2000, plateR, (pl plateR), by decide⟩,
   ⟨0, { plateR with pass := { plateR.pass with walked := 2 ^ 32 } }, (pl { plateR with pass := { plateR.pass with walked := 2 ^ 32 } }), by decide⟩,
   ⟨0, true, plate0, (pl plate0), by decide⟩,
   ⟨(.core 0), 1, dev, by simp only [Passes]; decide⟩,
   ⟨(.core 0), 1, dev, by simp only [Passes]; decide⟩⟩

theorem witness_ProofCyclesRun :
    (∃ (p : Nat) (x : Plate) (s : State), p < 64 ∧ plateOf s p = some x ∧ isSet s PRF_CFG_AUTO = true ∧ cycleDue s x = true) ∧
    (∃ (w : Win) (p : Nat) (x : Plate) (s : State), p < 64 ∧ Passes w 0x38 s ∧ mayInstall s w = true ∧ isSet s PRF_CMD_GO = false ∧ plateOf s p = some
      x ∧ x.cycle.running = false) ∧
    (∃ (w : Win) (p : Nat) (x : Plate) (s : State), p < 64 ∧ Passes w 0x38 s ∧ mayInstall s w = true ∧ isSet s PRF_CMD_GO = false ∧ plateOf s p = some
      x) ∧
    (∃ (p : Nat) (x : Plate) (s : State), p < 64 ∧ plateOf s p = some x ∧ x.cycle.running = true ∧ s.io.sops.any (fun q => decide (q.2.plate = p ∧
      q.2.kind = .proof)) = false ∧ 0 < x.cycle.len) ∧
    (∃ (p : Nat) (x : Plate) (s : State), p < 64 ∧ plateOf s p = some x ∧ x.cycle.running = true ∧ x.cycle.suspended = false ∧ x.cycle.overdue = false
      ∧ x.cycle.deadline ≤ nowS s) ∧
    (∃ (p : Nat) (x : Plate) (s : State), p < 64 ∧ plateOf s p = some x ∧ proofRecordDue s x.cycle = true ∧ x.cycle.suspended = false ∧ x.attached =
      false) ∧
    (∃ (p : Nat) (x : Plate) (s : State), p < 64 ∧ plateOf s p = some x ∧ proofRecordDue s x.cycle = false) :=
  ⟨⟨0, plate0, (put [(PRF_CFG_AUTO, 1)] (pl plate0)), by decide⟩,
   ⟨(.core 0), 0, plate0, (pl plate0), by simp only [Passes]; decide⟩,
   ⟨(.core 0), 0, plate0, (pl plate0), by simp only [Passes]; decide⟩,
   ⟨0, plateC, (pl plateC), by decide⟩,
   ⟨0, plateC, (pl plateC), by decide⟩,
   ⟨0, plateC, (pl plateC), by decide⟩,
   ⟨0, plate0, (pl plate0), by decide⟩⟩

theorem witness_ProofUnitsRun :
    (∃ (p sn u : Nat) (x : Plate) (s : State), p < 64 ∧ plateOf s p = some x ∧ x.cycle.running = true ∧ proofHeld s p x = false ∧
      let all := s.io.sops.filter (fun q => decide (q.2.kind = .proof)); let busy := (all.filter (fun q => decide (q.2.plate = p))).map (fun q => q.2.sn);
      let c := x.geom.w * unitBlks x * 4096; all.length < getFld s PRF_SLICE_UNITS_MAX ∧ c ≤ x.cycle.budget ∧
      nextUnit x busy (busy.length + x.cycle.units.length + 1) x.cycle.cursor = some (sn, u)) ∧
    (∃ (id : Nat) (o : Sop) (x : Plate) (s : State), sopOf s id = some o ∧ plateOf s o.plate = some x ∧ o.kind = .proof ∧ o.phase = .burin ∧
      (∀ b ∈ blkRange o.first o.last, proofTagBad x.geom.k o.grid o.erased b = [] ∧ proofVerdict x o.grid (applyGen x.geom.k o.grid (blkRange o.first o.last) o.erased) b = .clean)) ∧
    (∃ (s : State), s.store.suspDirty = true) ∧
    (∃ (w : Win) (e : Suspect) (s : State), Passes w 0x38 s ∧ mayInstall s w = true ∧ isSet s PRF_CMD_GO = false ∧
      s.store.suspects[getFld s PRF_SSEL_INDEX]? = some e) :=
  ⟨⟨0, 0, 0, plateC, (pl plateC), by dsimp only; decide⟩,
   ⟨1, ({ sop0 with kind := .proof, phase := .burin, last := 0, grid := [(0, ⟨[], 4⟩), (256, ⟨[], 4⟩), (512, ⟨[], 4⟩), (768, ⟨[], 4⟩)] }), plateC, { pl plateC with io := { Io.reset with sops := [(1, { sop0 with kind := .proof, phase := .burin, last := 0, grid := [(0, ⟨[], 4⟩), (256, ⟨[], 4⟩), (512, ⟨[], 4⟩), (768, ⟨[], 4⟩)] })] } }, by decide⟩,
   ⟨{ dev with store := { Store.reset with suspDirty := true } }, by decide⟩,
   ⟨(.core 0), ⟨7,0,0,1,0,0⟩, { dev with store := { Store.reset with suspects := [⟨7,0,0,1,0,0⟩] } }, by simp only [Passes]; decide⟩⟩

theorem witness_CacheFollowsItsBounds :
    (∃ (x : Slot) (s : State), destagesInFlight s < getFld s CCH_CFG_DESTAGE_MAX ∧ destageNext s = some x) ∧
    (∃ (m j node : Nat) (s : State), smGet s.cache.pmirWait m = some (node, j) ∧ node ∉ s.cache.pmirOff) ∧
    (∃ (node : Nat) (s : State), node < 512 ∧ node ∈ s.cache.pmirOff ∧ pmirPlates s node ≠ [] ∧ pmirSlots s node = []) ∧
    (∃ (node : Nat) (q : Nat × Slot) (s : State), node < 512 ∧ pmirSlots s node = [q] ∧ (node, q.1, q.2.seq) ∉ s.cache.pmirDone ∧ s.cache.pmirCopy.any
      (fun r => decide (r.2 = (node, q.1, q.2.seq))) = false) ∧
    (∃ (s : State), unbackedNow s = true ∧ s.cache.above = true) ∧
    (∃ (s : State), isSet s CCH_MODE_WRITE_THROUGH = true ∧ (∀ c ∈ [0, 1, 2, 3], dmcDown s c = false ∧ isSet s (DMC_CMD_GO c) = false)) :=
  ⟨⟨slot0, { pl plate0 with cache := { Cache.reset with slots := [(0, slot0)] } }, by decide⟩,
   ⟨1, 0, 5, { dev with cache := { Cache.reset with pmirWait := [(1, (5, 0))] } }, by decide⟩,
   ⟨5, put [(CCH_CFG_PARTNER_EN, 1)] { pl (plateS true) with cache := { Cache.reset with pmirOff := [5] } }, by decide⟩,
   ⟨5, (0, slot0), put [(CCH_CFG_PARTNER_EN, 1)] { pl (plateS true) with cache := { Cache.reset with pmirOff := [5], slots := [(0, slot0)] } }, by decide⟩,
   ⟨(put [(CCH_MODE_UNBACKED, 1)] { dev with cache := { Cache.reset with above := true } }), by decide⟩,
   ⟨(put [(CCH_MODE_WRITE_THROUGH, 1), (PG_STAT_STATE 0x20, 3), (PG_STAT_STATE 0x21, 3), (PG_STAT_STATE 0x22, 3), (PG_STAT_STATE 0x23, 3)] dev), by decide⟩⟩

theorem witness_LostWritesAndFlush :
    (∃ (s : State), s.store.lostwDirty = true) ∧
    (∃ (w : Win) (vol : Nat) (s : State), Passes w 0x28 s ∧ mayInstall s w = true ∧ isSet s CCH_CMD_GO = false ∧ vol < 2 ^ CCH_CMD_VOLUME.width ∧
      s.store.lostw.any (fun e => decide (e.vol = vol)) = true ∧ s.store.lostw.any (fun e => decide (e.vol ≠ vol)) = true) ∧
    (∃ (w : Win) (s : State), Passes w 0x28 s ∧ mayInstall s w = true ∧ isSet s CCH_CMD_GO = false) :=
  ⟨⟨{ dev with store := { Store.reset with lostwDirty := true } }, by decide⟩,
   ⟨(.core 0), 0, { dev with store := { Store.reset with lostw := [lw 0, lw 1] } }, by simp only [Passes]; decide⟩,
   ⟨(.core 0), dev, by simp only [Passes]; decide⟩⟩

theorem witness_VaultDumpsAndReplays :
    (∃ (w : Win) (ok1 ok2 : Bool) (rate : Nat) (s : State), Passes w 0x29 s ∧ mayInstall s w = true ∧ isSet s VLT_CMD_GO = false) ∧
    (∃ (mv : Nat) (s : State), supervised s = true ∧ isSet s PWR_STAT_BRACED = false ∧ mv < 1100) ∧
    (∃ (mv : Nat) (s : State), supervised s = true ∧ isSet s PWR_STAT_BRACED = true ∧ 1140 < mv) ∧
    (∃ (pf good : Bool) (s : State), getFld s PWR_STAT_STATE = 0 ∧ s.pwr.due = none ∧
      let t := setFlag PWR_STAT_PWRFAIL pf (learnDq 5 (updPwr (fun p => { p with stby := 0, exit := false }) s)); dumpOk t = true ∧
      isSet t BEM_STAT_RESTWIN = false ∧ t.cache.dumping = false) ∧
    (∃ (id c : Nat) (good : Bool) (q : NvCmd) (s : State), smGet s.io.nvme id = some q ∧ nvIssued s id = true ∧ q.why = .vault c ∧ s.cache.dumping = true) ∧
    (∃ (found : List FoundNs) (media : List PlateMedia) (v : VaultRead) (s : State), getFld s CHIP_DEV_STAT_PHASE = 7 ∧ devReady s = false ∧ s.cache.replay < 2) ∧
    (∃ (s : State), s.cache.replay = 1) :=
  ⟨⟨(.core 0), true, true, 5, dev, by simp only [Passes]; decide⟩,
   ⟨1000, dev, by decide⟩,
   ⟨1150, (put [(PWR_STAT_BRACED, 1)] dev), by decide⟩,
   ⟨true, true, (put [(VLT_STAT_READY, 1)] { dev with cache := { Cache.reset with latch := true } }), by dsimp only; decide⟩,
   ⟨1, 0, true, (nv0 .write (.vault 0)), { nvS (nv0 .write (.vault 0)) with cache := { Cache.reset with dumping := true } }, by decide⟩,
   ⟨[], [], vr0, (put [(CHIP_DEV_STAT_PHASE, 7), (CHIP_DEV_STAT_READY, 0)] dev), by decide⟩,
   ⟨{ dev with cache := { Cache.reset with replay := 1 } }, by decide⟩⟩

theorem witness_BemReadsThePack :
    (∃ (us i : Nat) (v t : Option Nat) (s : State), getFld s BEM_STAT_STATE ≠ 2) ∧
    (∃ (us i v t : Nat) (s : State), getFld s BEM_STAT_STATE = 2) ∧
    (∃ (s : State), isSet s BEM_STAT_PRESENT = true ∧ s.bem.ma ≤ getFld s BEM_REST_REST_MA ∧ -(getFld s BEM_REST_REST_MA : Int) ≤ s.bem.ma ∧
      tableBad s = false ∧ isSet s BEM_SOC_VALID = false ∧ isSet s BEM_STAT_RESTWIN = false ∧ getFld s BEM_LEARN_PHASE = 0) ∧
    (∃ (mv band : Nat) (ma : Int) (s : State), s.bem.step = some (mv, ma, band) ∧ 0 < ma - s.bem.ma ∧ (getFld s BEM_Q_LEARN_MAH : Int) ≤ (ma - s.bem.ma) * 20 ∧
      getFld s BEM_MEAS_V_PACK_MV ≤ mv) :=
  ⟨⟨1, 0, none, none, dev, by decide⟩,
   ⟨1, 0, 0, 0, (put [(BEM_STAT_STATE, 2)] dev), by decide⟩,
   ⟨(put [(BEM_STAT_PRESENT, 1)] dev), by decide⟩,
   ⟨0, 0, 1, { put [(BEM_Q_LEARN_MAH, 0)] dev with bem := { Bem.reset with step := some (0, 1, 0) } }, by decide⟩⟩

theorem witness_BemLearnsAndKnowsItsPack :
    (∃ (s : State), 7 ≤ getFld s BEM_CONF_DAYS_NO_REST ∧ getFld s BEM_CONF_DAYS_NO_REST < 2 ^ BEM_CONF_DAYS_NO_REST.width - 1 ∧ 50 < getFld s
      BEM_CONF_CONF_PCT) ∧
    (∃ (s : State), isSet s BEM_STAT_RESTWIN = true) ∧
    (∃ (s : State), isSet s BEM_CFG_LEARN_EN = true ∧ getFld s BEM_CFG_LEARN_DAYS ≠ 0 ∧ learnDue s = true ∧ windowOk s = true) ∧
    (∃ (w : Win) (s : State), Passes w 7 s ∧ mayInstall s w = true ∧ isSet s BEM_CMD_GO = false ∧ windowOk (loaded w 7 BEM_CMD_OP 1 [] BEM_CMD_GO
      BEM_CMD_RES_DONE s) = true) ∧
    (∃ (w : Win) (s : State), Passes w 7 s ∧ mayInstall s w = true ∧ isSet s BEM_CMD_GO = false ∧ getFld s BEM_LEARN_PHASE ≠ 0) ∧
    (∃ (s : State), s.bem.due = true) ∧
    (∃ (ident : Option (List Byte)) (nonce : Nat) (s : State), isSet s BEM_CFG_AUTH_EN = true ∧ s.bem.serial ≠ []) ∧
    (∃ (n : List Byte) (key : List Byte) (resp : Option (List Byte)) (s : State), s.bem.nonce = some n ∧ smGet s.role.keys 1 = some key ∧ resp = some
      (hmacSha256 key (n ++ s.bem.serial)) ∧ s.bem.cells = getFld s BEM_CFG_CELLS) ∧
    (∃ (n : List Byte) (key : List Byte) (resp : Option (List Byte)) (s : State), s.bem.nonce = some n ∧ smGet s.role.keys 1 = some key ∧ ¬ (resp =
      some (hmacSha256 key (n ++ s.bem.serial)) ∧ s.bem.cells = getFld s BEM_CFG_CELLS) ∧ s.bem.fails = 2) ∧
    (∃ (ident : Option (List Byte)) (nonce : Nat) (s : State), isSet s BEM_STAT_PRESENT = true ∧ getFld s BEM_STAT_AUTH = 0 ∧ s.bem.nonce = none ∧
      s.bem.fails ≠ 0 ∧ s.bem.serial ≠ []) ∧
    (∃ (nonce : Nat) (s : State), isSet s BEM_STAT_PRESENT = true ∧ isSet s BEM_CFG_AUTH_EN = true) ∧
    (∃ (w : Win) (nonce : Nat) (s : State), Passes w 7 s ∧ mayInstall s w = true ∧ isSet s BEM_CMD_GO = false ∧ isSet s BEM_STAT_PRESENT = true) ∧
    (∃ (w : Win) (s : State), Passes w 7 s ∧ mayInstall s w = true ∧ isSet s BEM_CMD_GO = false) :=
  ⟨⟨(put [(BEM_CONF_DAYS_NO_REST, 7), (BEM_CONF_CONF_PCT, 60)] dev), by decide⟩,
   ⟨(put [(BEM_STAT_RESTWIN, 1)] dev), by decide⟩,
   ⟨(put [(BEM_CFG_LEARN_EN, 1), (BEM_CFG_LEARN_DAYS, 30)] learnable), by decide⟩,
   ⟨(.core 0), learnable, by simp only [Passes]; decide⟩,
   ⟨(.core 0), (put [(BEM_LEARN_PHASE, 1)] dev), by simp only [Passes]; decide⟩,
   ⟨{ dev with bem := { Bem.reset with due := true } }, by decide⟩,
   ⟨none, 0, { put [(BEM_CFG_AUTH_EN, 1)] dev with bem := { Bem.reset with serial := [1] } }, by decide⟩,
   ⟨[1], [2], (some (hmacSha256 [2] ([1] ++ packed.bem.serial))), packed, by decide, by decide, ⟨rfl, by decide⟩⟩,
   ⟨[1], [2], none, packed, by decide, by decide, (by intro h; cases h.1), by decide⟩,
   ⟨none, 0, (put [(BEM_STAT_PRESENT, 1)] { dev with bem := { Bem.reset with fails := 1, serial := [1] } }), by decide⟩,
   ⟨0, (put [(BEM_STAT_PRESENT, 1), (BEM_CFG_AUTH_EN, 1)] dev), by decide⟩,
   ⟨(.core 0), 0, (put [(BEM_STAT_PRESENT, 1), (BEM_CFG_AUTH_EN, 1)] dev), by simp only [Passes]; decide⟩,
   ⟨(.core 0), dev, by simp only [Passes]; decide⟩⟩

theorem witness_MetersAndRounds :
    (∃ (late : Nat) (s : State), fetchOpen s = false ∧ late < 2 ^ 32) ∧
    (∃ (late : Nat) (s : State), fetchOpen s = true) ∧
    (∃ (w mn mx burst cap msum wsum : Nat) (cr : Int), mx ≠ 0 ∧ mx < mn + (cap - msum) * w / wsum) ∧
    (∃ (s : State), fenced s 0x101 = false) ∧
    (∃ (s : State), fenced s 0x101 = true) ∧
    (∃ (w : Win) (v : Nat) (s : State), Passes w 0x100 s ∧ v % 2 = 1) ∧
    (∃ (s : State), s.sched.recDue = true) ∧
    (∃ (s : State), s.sched.recDue = false) ∧
    (∃ (c : Nat) (final : Bool) (s : State), s.sched.recDue = true ∧ s.sched.recs = [(c, final)]) ∧
    (∃ (w : Win) (s : State), Passes w 0x101 s ∧ isSet s MTR_CFG_TSRC = false) ∧
    (∃ (w : Win) (s : State), Passes w 0x101 s ∧ isSet s MTR_CFG_TSRC = false ∧ -1000000000 ≤ mtrAdj s ∧ mtrAdj s ≤ 1000000000) ∧
    (∃ (w : Win) (s : State), Passes w 0x101 s ∧ isSet s MTR_CFG_TSRC = false ∧ (mtrAdj s < -1000000000 ∨ 1000000000 < mtrAdj s)) ∧
    (∃ (w : Win) (s : State), Passes w 0x101 s ∧ isSet s MTR_CFG_TSRC = true) ∧
    (∃ (s : State), s.sched.slew ≠ 0) ∧
    (∃ (s : State), Passes (.pf 0) 0x101 s ∧ isSet s MTR_CFG_EN = false ∧ 63 ≤ getFld s MTR_SIZE_M1) ∧
    (∃ (v : Nat) (s : State), Passes (.pf 0) 0x101 s ∧ v ≤ getFld s MTR_SIZE_M1) :=
  ⟨⟨7, { put [(CTX_SCHED_WEIGHT 0, 2), (CTX_STAT_STATE 0, 2), (CTX_SQ_IDX_TAIL 0, 1), (TSC_CFG_CAP_UNITS, 100)] dev with io := { Io.reset with ctxs := [(0, ctx0)] } }, by decide⟩,
   ⟨0, { dev with io := { Io.reset with hreads := [(1, hread (.entry 0 0))] } }, by decide⟩,
   ⟨1, 0, 1, 0, 10, 0, 1, 0, by decide⟩,
   ⟨{ put [(CTX_BIND_VALID 0, 1)] dev with cache := { Cache.reset with slots := [(0, slot0), (5, slot0)] } }, by decide⟩,
   ⟨put [(PG_STAT_FENCED 0x101, 1)] dev, by decide⟩,
   ⟨(.core 0), 1, dev, by simp only [Passes]; decide⟩,
   ⟨{ dev with sched := { SchedSt.reset with recDue := true } }, by decide⟩,
   ⟨dev, by decide⟩,
   ⟨3, true, { put [(MTR_SIZE_M1, 63), (MTR_CFG_EN, 1), (PG_CTL_ENABLE 0x101, 1), (MTR_TAIL_TAIL, 63), (MTR_HEAD_HEAD, 5)] dev with sched := { SchedSt.reset with recDue := true, recs := [(3, true)] } }, by decide⟩,
   ⟨(.core 0), (put [(MTR_CFG_TSRC, 0), (MTR_TADJ_LO_NS, 5), (MTR_TADJ_HI_NS, 100)] dev), by simp only [Passes]; decide⟩,
   ⟨(.core 0), (put [(MTR_CFG_TSRC, 0), (MTR_TADJ_LO_NS, 1000000000)] dev), by simp only [Passes]; decide⟩,
   ⟨(.core 0), (put [(MTR_CFG_TSRC, 0), (MTR_TADJ_LO_NS, 1000000001)] dev), by simp only [Passes]; decide⟩,
   ⟨(.core 0), (put [(MTR_CFG_TSRC, 1)] dev), by simp only [Passes]; decide⟩,
   ⟨{ dev with sched := { SchedSt.reset with slew := 5 } }, by decide⟩,
   ⟨(put [(MTR_SIZE_M1, 63)] dev), by simp only [Passes]; decide⟩,
   ⟨3, (put [(MTR_SIZE_M1, 63)] dev), by simp only [Passes]; decide⟩⟩

theorem witness_TenantAdminCommandsAct :
    (∃ (n : Nat) (x : Cmd) (s : State), AdminDue n 0x8B x s ∧ isSet s (CTX_BIND_VALID (enCdw x.raw)) = true) ∧
    (∃ (n : Nat) (x : Cmd) (s : State), AdminDue n 0x8C x s ∧ (isSet s (CTX_BIND_VALID (enCdw x.raw)) = true → ctxPort s (enCdw x.raw) = ctxPort s
      x.ctx ∧ minSum s (enCdw x.raw) + bitsOf (enAux x.raw) 16 16 ≤ getFld s TSC_CFG_CAP_UNITS)) ∧
    (∃ (n : Nat) (x : Cmd) (s : State), AdminDue n 0x8D x s) ∧
    (∃ (n : Nat) (x : Cmd) (s : State), AdminDue n 0x8E x s ∧ isSet s MTR_CFG_TSRC = false ∧ ctxPort s x.ctx = 0) :=
  ⟨⟨1, (cmd0 (entry 0x8B 0 0 0 0 0)), (adm (entry 0x8B 0 0 0 0 0)), by simp only [AdminDue]; decide⟩,
   ⟨1, (cmd0 (entry 0x8C 0 0 5 0 0)), (adm (entry 0x8C 0 0 5 0 0)), by simp only [AdminDue]; decide⟩,
   ⟨1, (cmd0 (entry 0x8D 0 0 0 0 0)), (adm (entry 0x8D 0 0 0 0 0)), by simp only [AdminDue]; decide⟩,
   ⟨1, (cmd0 (entry 0x8E 0 0 0 0 0)), (adm (entry 0x8E 0 0 0 0 0)), by simp only [AdminDue]; decide⟩⟩

theorem foldl_role {α : Type} (l : List α) (f : State → α → State) (hf : ∀ s x, (f s x).role = s.role) (s : State) : (l.foldl f s).role = s.role := by
  induction l generalizing s with
  | nil => rfl
  | cons a l ih => rw [List.foldl_cons, ih, hf]

/-- A read of host memory that succeeds leaves the security unit alone. -/
theorem readDone_role (port func addr n : Nat) (b : List Byte) (s : State) : (readDone port func addr n (.data b) s).role = s.role := by
  have h1 : rdError (.data b) = none := rfl
  simp only [readDone, readEnded, h1]
  rw [show ∀ (k1 k2 : FRef) (v : Nat) (u : State), (add64 k1 k2 v u).role = u.role from fun _ _ _ _ => rfl, sendReqs]
  refine (foldl_role _ _ ?_ _).trans ?_
  · intro t x
    simp only [emit, leaveIdle, setEvt, setEvtBits]
    split
    · split
      · split <;> rfl
      · rfl
    · rfl
  · show (leaveL1 port s).role = s.role
    unfold leaveL1
    split <;> rfl

theorem readDone_mac (port func addr n : Nat) (b : List Byte) (s : State) (p : Nat) (v : Nonce) (key : List Byte) :
    elevationMac (readDone port func addr n (.data b) s) p v key = elevationMac s p v key := by
  simp only [elevationMac, readDone_role]

theorem witness_SessionsElevateAndEnd :
    (∃ (n nonce : Nat) (x : Cmd) (s : State), AdminDue n 0x90 x s ∧ (roleKey s (enCdw x.raw)).isSome = true ∧ isSet s (sessLocked (ctxPort s x.ctx)) = false) ∧
    (∃ (n : Nat) (x : Cmd) (v : Nonce) (key bytes : List Byte) (s : State), AdminDue n 0x91 x s ∧ smGet s.role.nonces (ctxPort s x.ctx) = some v ∧
      v.role = enCdw x.raw ∧ roleKey s v.role = some key ∧ readReady s (ctxPort s x.ctx) (ctxFunc s x.ctx) (enDptr x.raw) 32 = true ∧
      let port := ctxPort s x.ctx; let u := readDone port (ctxFunc s x.ctx) (enDptr x.raw) 32 (.data bytes) s; let t := dropNonce port u;
      slice bytes 0 32 = elevationMac u port v key) ∧
    (∃ (n : Nat) (x : Cmd) (v : Nonce) (key bytes : List Byte) (s : State), AdminDue n 0x91 x s ∧ smGet s.role.nonces (ctxPort s x.ctx) = some v ∧
      v.role = enCdw x.raw ∧ roleKey s v.role = some key ∧ readReady s (ctxPort s x.ctx) (ctxFunc s x.ctx) (enDptr x.raw) 32 = true ∧
      let port := ctxPort s x.ctx; let u := readDone port (ctxFunc s x.ctx) (enDptr x.raw) 32 (.data bytes) s; let t := dropNonce port u;
      slice bytes 0 32 ≠ elevationMac u port v key ∧ getFld s (sessFails port) = 2) ∧
    (∃ (n : Nat) (x : Cmd) (v : Nonce) (key bytes : List Byte) (s : State), AdminDue n 0x91 x s ∧ smGet s.role.nonces (ctxPort s x.ctx) = some v ∧
      v.role = enCdw x.raw ∧ roleKey s v.role = some key ∧ readReady s (ctxPort s x.ctx) (ctxFunc s x.ctx) (enDptr x.raw) 32 = true ∧
      let port := ctxPort s x.ctx; let u := readDone port (ctxFunc s x.ctx) (enDptr x.raw) 32 (.data bytes) s; let t := dropNonce port u;
      slice bytes 0 32 ≠ elevationMac u port v key ∧ getFld s (sessFails port) < 2) ∧
    (∃ (n : Nat) (x : Cmd) (s : State), AdminDue n 0x92 x s) ∧
    (∃ (port : Nat) (s : State), port < 2 ∧ baseRole s < getFld s (sessFld port)) ∧
    (∃ (port : Nat) (s : State), port < 2) ∧
    (∃ (port : Nat) (s : State), port < 2 ∧ isSet s (sessLocked port) = true) :=
  ⟨⟨1, 0, (cmd0 (entry 0x90 0 0 1 0 0)), (keyed (entry 0x90 0 0 1 0 0)), by simp only [AdminDue]; decide⟩,
   ⟨1, (cmd0 (entry 0x91 0 0 1 0 0)), ⟨[1], 1⟩, [2], (elevationMac (keyed (entry 0x91 0 0 1 0 0)) 0 ⟨[1], 1⟩ [2]), (keyed (entry 0x91 0 0 1 0 0)), by dsimp only; simp only [AdminDue]; decide +kernel⟩,
   by
    have h : ∃ bytes : List Byte, slice bytes 0 32 ≠ elevationMac (put [(sessFails 0, 2)] (keyed (entry 0x91 0 0 1 0 0))) 0 ⟨[1], 1⟩ [2] := by
      by_cases h : slice [] 0 32 = elevationMac (put [(sessFails 0, 2)] (keyed (entry 0x91 0 0 1 0 0))) 0 ⟨[1], 1⟩ [2]
      · exact ⟨[1], h ▸ by decide⟩
      · exact ⟨[], h⟩
    obtain ⟨bytes, h⟩ := h
    exact ⟨1, cmd0 (entry 0x91 0 0 1 0 0), ⟨[1], 1⟩, [2], bytes, put [(sessFails 0, 2)] (keyed (entry 0x91 0 0 1 0 0)),
      by simp only [AdminDue]; decide, by decide, by decide, by decide, by decide, (readDone_mac _ _ _ _ _ _ _ _ _).symm ▸ h, by decide⟩,
   by
    have h : ∃ bytes : List Byte, slice bytes 0 32 ≠ elevationMac (keyed (entry 0x91 0 0 1 0 0)) 0 ⟨[1], 1⟩ [2] := by
      by_cases h : slice [] 0 32 = elevationMac (keyed (entry 0x91 0 0 1 0 0)) 0 ⟨[1], 1⟩ [2]
      · exact ⟨[1], h ▸ by decide⟩
      · exact ⟨[], h⟩
    obtain ⟨bytes, h⟩ := h
    exact ⟨1, cmd0 (entry 0x91 0 0 1 0 0), ⟨[1], 1⟩, [2], bytes, keyed (entry 0x91 0 0 1 0 0),
      by simp only [AdminDue]; decide, by decide, by decide, by decide, by decide, (readDone_mac _ _ _ _ _ _ _ _ _).symm ▸ h, by decide⟩,
   ⟨1, (cmd0 (entry 0x92 0 0 0 0 0)), (adm (entry 0x92 0 0 0 0 0)), by simp only [AdminDue]; decide⟩,
   ⟨0, (put [(sessFld 0, 1)] dev), by decide⟩,
   ⟨0, dev, by decide⟩,
   ⟨0, (put [(sessLocked 0, 1)] dev), by decide⟩⟩

theorem witness_KeysAndFirmwareAreWritten :
    (∃ (w : Win) (k : Nat) (s : State), Passes w 3 s ∧ mayInstall s w = true ∧ isSet s ROLE_KEY_CTL_GO = false ∧ k < 2 ∧
      isSet s ROLE_STAT_INSTALL_STRAP = true ∧ smGet s.role.keys k = none) ∧
    (∃ (n : Nat) (x : Cmd) (bytes : List Byte) (s : State), AdminDue n 0x93 x s ∧ enCdw x.raw % 4 = 0 ∧
      readReady s (ctxPort s x.ctx) (ctxFunc s x.ctx) (enDptr x.raw) 65536 = true) ∧
    (∃ (n : Nat) (x : Cmd) (s : State), AdminDue n 0x93 x s ∧ enCdw x.raw % 4 = 1) :=
  ⟨⟨(.core 0), 0, (put [(ROLE_STAT_INSTALL_STRAP, 1)] dev), by simp only [Passes]; decide⟩,
   ⟨1, (cmd0 (entry 0x93 0 0 0 0 0)), [], (adm (entry 0x93 0 0 0 0 0)), by simp only [AdminDue]; decide +kernel⟩,
   ⟨1, (cmd0 (entry 0x93 0 0 1 0 0)), (adm (entry 0x93 0 0 1 0 0)), by simp only [AdminDue]; decide⟩⟩

theorem witness_SketchbookWritesItsRecords :
    (∃ (ok : Bool) (s : State), evrWrites s = true) ∧
    (∃ (code : Nat) (o : Occ) (s : State), evrWrites (updEvr (fun e => { e with window := e.window.filter (· ≠ code) }) s) = true ∧ tokenLeft (updEvr
      (fun e => { e with window := e.window.filter (· ≠ code) }) s) = true ∧ s.evr.held.find? (fun h => decide (h.code = code)) = some o) ∧
    (∃ (s : State), s.evr.held = [] ∧ getFld s EVR_BUDGET_TOKENS < 3600) ∧
    (∃ (o : Occ) (s : State),
      let t := setFld EVR_BUDGET_TOKENS (min 3600 (getFld s EVR_BUDGET_TOKENS + 1)) s;
      evrWrites t = true ∧ tokenLeft t = true ∧ (heldOrder t).find? (fun h => decide (h.code ∉ t.evr.window)) = some o) ∧
    (∃ (w : Win) (s : State), Passes w 6 s ∧ mayInstall s w = true ∧ isSet s EVR_CMD_GO = false) ∧
    (∃ (w : Win) (s : State), Passes w 6 s ∧ mayInstall s w = true ∧ isSet s EVR_CMD_GO = false ∧ ftest (loaded w 6 EVR_CMD_OP 2 [] EVR_CMD_GO
      EVR_CMD_RES_DONE s) = true) :=
  ⟨⟨true, (put [(PG_CTL_ENABLE 6, 1)] dev), by decide⟩,
   ⟨5, ⟨5, 0, 0, 0, 0, 0, []⟩, (put [(PG_CTL_ENABLE 6, 1), (EVR_BUDGET_TOKENS, 1)] { dev with evr := { EvrSt.reset with held := [⟨5, 0, 0, 0, 0, 0, []⟩] } }), by decide⟩,
   ⟨(put [(EVR_BUDGET_TOKENS, 5)] dev), by decide⟩,
   ⟨⟨5, 0, 0, 0, 0, 0, []⟩, (put [(PG_CTL_ENABLE 6, 1), (EVR_BUDGET_TOKENS, 1)] { dev with evr := { EvrSt.reset with held := [⟨5, 0, 0, 0, 0, 0, []⟩] } }), by dsimp only; decide⟩,
   ⟨(.core 0), dev, by simp only [Passes]; decide⟩,
   ⟨(.core 0), (put [(ROLE_STAT_FTEST_STRAP, 1), (sessFld 0, 2)] dev), by simp only [Passes]; decide⟩⟩

theorem witness_HostLinksAndResetsAct :
    (∃ (port speed width : Nat) (rev : Bool) (s : State), port < 2 ∧ 1 ≤ speed ∧ speed ≤ 5 ∧ width ∈ [1, 4, 8, 16] ∧ linkUp s port = false ∧
      port ∉ s.host.perst ∧ (0x10 + port) ∉ s.pwr.dead ∧ 5 ≤ getFld s CHIP_DEV_STAT_PHASE) ∧
    (∃ (port : Nat) (s : State), port < 2 ∧ linkUp s port = true) ∧
    (∃ (port : Nat) (s : State), port < 2 ∧ linkUp s port = true) ∧
    (∃ (port : Nat) (sub : L1Sub) (s : State), port < 2 ∧ linkUp s port = true ∧ (fnOf s port 0).cfg.aspmL1 = true ∧ isSet s (HEP_LINK_IN_L1 port) = false) ∧
    (∃ (port : Nat) (s : State), port < 2) ∧
    (∃ (port : Nat) (s : State), port < 2 ∧ port ∈ s.host.perst) ∧
    (∃ (port : Nat) (s : State), port < 2 ∧ linkUp s port = true) ∧
    (∃ (port func : Nat) (s : State), port < 2 ∧ func < 1024 ∧ cfgRetry s port func = false ∧ func = 0) ∧
    (∃ (port func : Nat) (s : State), port < 2 ∧ func < 1024 ∧ cfgRetry s port func = false ∧ func ≠ 0 ∧ isFunction s port func = true) ∧
    (∃ (port func : Nat) (s : State), port < 2 ∧ func < 1024 ∧ isFunction s port func = true ∧ cfgRetry s port func = true) ∧
    (∃ (port func : Nat) (s : State), port < 2 ∧ func < 1024 ∧ func ≠ 0 ∧ (fnOf s port func).flr = true ∧ (fnOf s port 0).flr = false) ∧
    (∃ (port : Nat) (s : State), port < 2 ∧ isSet s (HEP_FUNCS_VF_EN port) = true ∧ cfgRetry s port 0 = false) ∧
    (∃ (port : Nat) (s : State), port < 2 ∧ port ∉ s.host.perst ∧ 6 ≤ getFld s CHIP_DEV_STAT_PHASE) :=
  ⟨⟨0, 5, 16, false, { dev with host := { dev.host with up := [] } }, by decide⟩,
   ⟨0, dev, by decide⟩,
   ⟨0, dev, by decide⟩,
   ⟨0, .l11, { dev with host := { dev.host with fns := [(fnKey 0 0, { HFn.reset with cfg := { FnCfg.reset with aspmL1 := true } })] } }, by decide⟩,
   ⟨0, dev, by decide⟩,
   ⟨0, { dev with host := { dev.host with perst := [0] } }, by decide⟩,
   ⟨0, dev, by decide⟩,
   ⟨0, 0, dev, by decide⟩,
   ⟨0, 1, vfs, by decide⟩,
   ⟨0, 0, { dev with host := { dev.host with crs := [0] } }, by decide⟩,
   ⟨0, 1, { vfs with host := { dev.host with fns := [(fnKey 0 1, { HFn.reset with flr := true })] } }, by decide⟩,
   ⟨0, vfs, by decide⟩,
   ⟨0, dev, by decide⟩⟩

theorem witness_HostFunctionsAreControlled :
    (∃ (port func : Nat) (s : State), port < 2 ∧ func < 1024 ∧ isFunction s port func = true ∧ cfgRetry s port func = false) ∧
    (∃ (port func : Nat) (cfg : FnCfg) (s : State), port < 2 ∧ func < 1024 ∧ isFunction s port func = true ∧ cfgRetry s port func = false) ∧
    (∃ (port func : Nat) (cfg : FnCfg) (s : State), port < 2 ∧ func < 1024 ∧ isFunction s port func = true ∧ cfgRetry s port func = true) ∧
    (∃ (port n : Nat) (ctl : VfCtl) (s : State), port < 2 ∧ isSet s (HEP_FUNCS_VF_EN port) = false ∧ cfgRetry s port 0 = false ∧ n ≤ 1023) ∧
    (∃ (port : Nat) (s : State), port < 2 ∧ inD3 s port = false ∧ cfgRetry s port 0 = false) ∧
    (∃ (port : Nat) (s : State), port < 2 ∧ inD3 s port = true ∧ linkUp s port = true ∧ cfgRetry s port 0 = false) ∧
    (∃ (port func v : Nat) (s : State), port < 2 ∧ func < 1024 ∧ isFunction s port func = true ∧ (fnOf s port func).flr = false) ∧
    (∃ (port func : Nat) (s : State), port < 2 ∧ func < 1024) :=
  ⟨⟨0, 0, dev, by decide⟩,
   ⟨0, 0, FnCfg.reset, dev, by decide⟩,
   ⟨0, 0, FnCfg.reset, { dev with host := { dev.host with crs := [0] } }, by decide⟩,
   ⟨0, 4, ⟨true, true⟩, dev, by decide⟩,
   ⟨0, dev, by decide⟩,
   ⟨0, (put [(HEP_FUNCS_PF_DSTATE 0, 3)] dev), by decide⟩,
   ⟨0, 1, 1, vfs, by decide⟩,
   ⟨0, 5, dev, by decide⟩⟩

theorem witness_DriveSlotsComeIntoService :
    (∃ (p : Nat) (s : State), p < 64 ∧ portState s p = 0 ∧ isSet s (DPT_SLOT_STS_PDS p) = true ∧ isSet s (DPT_CFG_AUTO_ON p) = true ∧
      enabled s (0x80 + p) = true) ∧
    (∃ (p : Nat) (s : State), p < 64 ∧ portState s p = 1 ∧ isSet s (DPT_SLOT_STS_PWR_GOOD p) = false) ∧
    (∃ (p : Nat) (s : State), p < 64 ∧ portState s p = 1 ∧ isSet s (DPT_SLOT_STS_PWR_GOOD p) = true) ∧
    (∃ (p speed width : Nat) (s : State), p < 64 ∧ 1 ≤ speed ∧ speed ≤ getFld s (DPT_CFG_MAX_SPEED p) ∧ speed ≤ 5 ∧ width ∈ [1, 2] ∧ portState s p = 2 ∧
      (bayOf s p).hold = false ∧ (0x80 + p) ∉ s.pwr.dead ∧ fenced s (0x80 + p) = false) ∧
    (∃ (p : Nat) (s : State), p < 64 ∧ portState s p = 2) ∧
    (∃ (p : Nat) (d : DriveId) (found : List FoundNs) (media : List PlateMedia) (s : State), p < 64 ∧ portState s p = 3 ∧ driveWhy s p d = 0) ∧
    (∃ (p : Nat) (d : DriveId) (found : List FoundNs) (media : List PlateMedia) (s : State), p < 64 ∧ portState s p = 3 ∧ driveWhy s p d ≠ 0) :=
  ⟨⟨0, (port 0), by decide⟩,
   ⟨0, (port 1), by decide⟩,
   ⟨0, (put [(DPT_SLOT_STS_PWR_GOOD 0, 1)] (port 1)), by decide⟩,
   ⟨0, 1, 1, (port 2), by decide⟩,
   ⟨0, (port 2), by decide⟩,
   ⟨0, (drvId true), [], [], (port 3), by decide⟩,
   ⟨0, (drvId false), [], [], (port 3), by decide⟩⟩

theorem witness_DriveSlotsLeaveService :
    (∃ (p : Nat) (s : State), p < 64 ∧ (bayOf s p).pressed = true ∧ portState s p = 4 ∧ (bayOf s p).window = false) ∧
    (∃ (p : Nat) (s : State), p < 64 ∧ (bayOf s p).pressed = true ∧ portState s p = 4 ∧ (bayOf s p).window = true) ∧
    (∃ (p : Nat) (s : State), p < 64 ∧ (bayOf s p).window = true ∧ portState s p = 4 ∧ removable s p = true) ∧
    (∃ (p : Nat) (s : State), p < 64 ∧ (bayOf s p).window = true ∧ portState s p = 4 ∧ removable s p = false) ∧
    (∃ (p : Nat) (s : State), p < 64 ∧ portState s p = 5) ∧
    (∃ (p : Nat) (s : State), p < 64 ∧ portState s p = 4 ∧ isSet s (DPT_SLOT_STS_PDS p) = false) ∧
    (∃ (p : Nat) (s : State), p < 64 ∧ powered s p = true ∧ input s p 2 = true) ∧
    (∃ (p : Nat) (s : State), p < 64 ∧ portState s p = 4) ∧
    (∃ (p : Nat) (s : State), p < 64 ∧ (dport s p).isSome = true) ∧
    (∃ (p : Nat) (s : State), p < 64 ∧ (portCmds s p).any (fun q => nvIssued s q.1) = true) ∧
    (∃ (p : Nat) (d : DPort) (s : State), p < 64 ∧ dport s p = some d ∧ d.resetting = true ∧ portCmds s p = []) ∧
    (∃ (p : Nat) (s : State), p < 64 ∧ portState s p = 4 ∧ portCmds s p = [] ∧ isSet s (PG_CTL_CLK_REQ (0x80 + p)) = false ∧ isSet s (DPT_CFG_ASPM_L1
      p) = true ∧ ((dport s p).map DPort.aspm).getD false = true) :=
  ⟨⟨0, (bay0 { Bay.reset with pressed := true } (port 4)), by decide⟩,
   ⟨0, (bay0 { Bay.reset with pressed := true, window := true } (port 4)), by decide⟩,
   ⟨0, (bay0 { Bay.reset with window := true } (port 4)), by decide⟩,
   ⟨9, { bay ns0 { plate0 with members := plate0.members.set 1 { node := 0, port := 9, nsid := 1, state := .online, failSeq := 0, driveKey := 9, errs := [], genA := none, genB := none } } with drive := { DriveSt.reset with ports := [(9, { key := 9, mdts := 32, nss := [ns0], resets := 0, resetting := false })], bays := [(9, { Bay.reset with window := true })] } }, by decide⟩,
   ⟨0, (port 5), by decide⟩,
   ⟨0, (put [(DPT_SLOT_STS_PDS 0, 0)] (port 4)), by decide⟩,
   ⟨0, (bay0 { Bay.reset with good := 4 } (put [(DPT_SLOT_CTL_PCC 0, 0)] (port 4))), by decide⟩,
   ⟨0, (port 4), by decide⟩,
   ⟨0, (drive0 false (port 4)), by decide⟩,
   ⟨0, (nvS (nv0 .read (.tagRd 5))), by decide⟩,
   ⟨0, { key := 9, mdts := 32, nss := [], resets := 0, resetting := true }, (drive0 true (port 4)), by decide⟩,
   ⟨0, (put [(DPT_CFG_ASPM_L1 0, 1)] (drive0 false (port 4))), by decide⟩⟩

theorem witness_DriveSidebandAndCommands :
    (∃ (n : Nat) (ins : List Nat) (s : State), n < 4 ∧ isSet s (SSB_CFG_EN n) = true) ∧
    (∃ (p warn temp : Nat) (s : State), p < 64 ∧ portState s p = 4 ∧ warn % 256 = 0 ∧ warn.testBit 2 = false ∧ warn.testBit 3 = false) ∧
    (∃ (w : Win) (p : Nat) (s : State), p < 64 ∧ Passes w (0x80 + p) s ∧ mayInstall s w = true ∧ isSet s (DPT_CMD_GO p) = false ∧
      let off := loaded w (0x80 + p) (DPT_CMD_OP p) 1 [] (DPT_CMD_GO p) (DPT_CMD_RES_DONE p) s;
      let on := loaded w (0x80 + p) (DPT_CMD_OP p) 2 [] (DPT_CMD_GO p) (DPT_CMD_RES_DONE p) s; portState s p = 4 ∧ removable off p = true) ∧
    (∃ (w : Win) (p : Nat) (s : State), p < 64 ∧ Passes w (0x80 + p) s ∧ mayInstall s w = true ∧ isSet s (DPT_CMD_GO p) = false ∧
      let off := loaded w (0x80 + p) (DPT_CMD_OP p) 1 [] (DPT_CMD_GO p) (DPT_CMD_RES_DONE p) s;
      let on := loaded w (0x80 + p) (DPT_CMD_OP p) 2 [] (DPT_CMD_GO p) (DPT_CMD_RES_DONE p) s; portState s p = 6 ∧ isSet s (DPT_SLOT_STS_PDS p) = true ∧ enabled s (0x80 + p) = true) ∧
    (∃ (w : Win) (p : Nat) (s : State), ∃ (d : DriveId) (found : List FoundNs), p < 64 ∧ Passes w (0x80 + p) s ∧ mayInstall s w = true ∧
      isSet s (DPT_CMD_GO p) = false ∧ let off := loaded w (0x80 + p) (DPT_CMD_OP p) 1 [] (DPT_CMD_GO p) (DPT_CMD_RES_DONE p) s;
      let on := loaded w (0x80 + p) (DPT_CMD_OP p) 2 [] (DPT_CMD_GO p) (DPT_CMD_RES_DONE p) s; portState s p = 4) :=
  ⟨⟨0, [], (put [(SSB_CFG_EN 0, 1)] dev), by decide⟩,
   ⟨0, 0, 300, (port 4), by decide⟩,
   ⟨(.core 0), 0, (port 4), by dsimp only; simp only [Passes]; decide⟩,
   ⟨(.core 0), 0, (port 6), by dsimp only; simp only [Passes]; decide⟩,
   ⟨(.core 0), 0, (port 4), (drvId true), [], by dsimp only; simp only [Passes]; decide⟩⟩

theorem witness_DramChannelsTrainAndInitialise :
    (∃ (c : Nat) (lanes : List (Nat × Nat)) (s : State), c < 4 ∧ dmcState s c = 1 ∧ isSet s (DMC_CMD_GO c) = false) ∧
    (∃ (c : Nat) (d : Dimm) (lanes : List (Nat × Nat)) (s : State), c < 4 ∧ dmcState s c = 1 ∧ d.spd = true ∧
      trainWhy (updDram (fun t => { t with lanes := smSet t.lanes c lanes, dimms := smSet t.dimms c d }) s) c (some d) lanes = 0) ∧
    (∃ (c : Nat) (s : State), c < 4 ∧ dmcState s c = 2 ∧ isSet s (DMC_INIT_WM_DONE c) = false ∧ isSet s (DMC_CMD_GO c) = false) ∧
    (∃ (w : Win) (c : Nat) (s : State), c < 4 ∧ Passes w (0x20 + c) s ∧ mayInstall s w = true ∧ isSet s (DMC_CMD_GO c) = false ∧ dmcState s c = 5) :=
  ⟨⟨0, [], (chan 1), by decide⟩,
   ⟨0, dimm0, (List.replicate 20 (0, 0)), (chan 1), by decide⟩,
   ⟨0, (chan 2), by decide⟩,
   ⟨(.core 0), 0, (chan 5), by simp only [Passes]; decide⟩⟩

theorem witness_DramErrorsAndRowsAreHandled :
    (∃ (x8 : Bool) (d e lo hi lo2 hi2 : Nat), d < 10 ∧ e < 10 ∧ d ≠ e ∧ lo % 256 ≠ 0 ∧ lo2 % 256 ≠ 0) ∧
    (∃ (x8 : Bool) (d e lo hi lo2 hi2 : Nat), d < 10 ∧ e < 10 ∧ d ≠ e ∧ lo % 256 ≠ 0 ∧ lo2 % 256 ≠ 0 ∧ d < 5 ∧ hi % 256 = 0) ∧
    (∃ (x8 : Bool) (d e lo hi lo2 hi2 : Nat), d < 10 ∧ e < 10 ∧ d ≠ e ∧ lo % 256 ≠ 0 ∧ lo2 % 256 ≠ 0 ∧ d < 5 ∧ hi % 256 ≠ 0) ∧
    (∃ (c u m : Nat) (req : DramReq) (devs lo hi : List Nat) (s : State), c < 4 ∧ serves s c = true ∧ devErrsOk (devErrs devs (lo.zip hi)) = true ∧ eccOf s c (devErrs devs (lo.zip hi)) = .corrected u m) ∧
    (∃ (c u m : Nat) (req : DramReq) (devs lo hi : List Nat) (s : State), c < 4 ∧ serves s c = true ∧ devErrsOk (devErrs devs (lo.zip hi)) = true ∧ eccOf s c (devErrs devs (lo.zip hi)) = .uncorrected u m) ∧
    (∃ (c : Nat) (s : State), c < 4 ∧ dmcState s c = 3 ∧ isSet s (DMC_INIT_WM_DONE c) = true ∧ getFld s PWR_STAT_STATE ≠ 4 ∧ smGetD s.dram.scrub c 0 + 64 < getFld s
      (DMC_DIMM_SIZE_GIB c) * 2 ^ 30) ∧
    (∃ (w : Win) (c hi data : Nat) (devs : List Nat) (syms : List (Nat × Nat)) (s : State), c < 4 ∧ Passes w (0x20 + c) s ∧ mayInstall s w = true ∧ dmcState s c = 5 ∧ data <
      2 ^ (DMC_DIAG_DATA_DATA c).width ∧ hi < 2 ^ (DMC_DIAG_ADDR_HI_ADDR c).width ∧ devErrsOk (devErrs devs syms) = true) ∧
    (∃ (s : State), channels.all (fun c => decide (dmcState s c ≠ 4)) = true) ∧
    (∃ (c : Nat) (s : State), c < 4) ∧
    (∃ (c : Nat) (s : State), c < 4 ∧ dmcState s c = 3) ∧
    (∃ (c : Nat) (s : State), c < 4 ∧ dmcState s c = 3 ∧ smGetD s.dram.post c 0 < 4) ∧
    (∃ (c : Nat) (s : State), ∃ port, c < 4 ∧ dmcState s c = 3 ∧ port < 6) ∧
    (∃ (c sub rank group bank : Nat) (b : Bank) (s : State), c < 4 ∧ sub < 2 ∧ rank < 2 ∧ group < 8 ∧ bank < 4 ∧ smGet s.dram.banks (bankKey c sub
      rank group bank) = some b) :=
  ⟨⟨true, 0, 9, 1, 0, 255, 0, by decide⟩,
   ⟨true, 4, 9, 1, 256, 255, 0, by decide⟩,
   ⟨true, 4, 9, 1, 1, 255, 0, by decide⟩,
   ⟨0, 1, 1, ⟨0, 0xDF⟩, [1], [1], [0], (chan 3), by decide⟩,
   ⟨0, 1, 1, ⟨0, 0xDF⟩, [1, 2], [1, 1], [0, 0], (chan 3), by decide⟩,
   ⟨0, (put [(DMC_INIT_WM_DONE 0, 1), (DMC_DIMM_SIZE_GIB 0, 16)] (chan 3)), by decide⟩,
   ⟨(.core 0), 0, 0, 5, [9], [(255, 0)], (chan 5), by simp only [Passes]; decide⟩,
   ⟨dev, by decide⟩,
   ⟨0, put [(PWR_STAT_STATE, 2)] dev, by decide⟩,
   ⟨0, (chan 3), by decide⟩,
   ⟨0, (chan 3), by decide⟩,
   ⟨0, (chan 3), 0, by decide⟩,
   ⟨0, 0, 0, 0, 0, ⟨some 1, [], none⟩, { dev with dram := { DramSt.reset with banks := [(0, ⟨some 1, [], none⟩)] } }, by decide⟩⟩

theorem witness_TashaopLinksCarryFlits :
    (∃ (x speed width : Nat) (rev : Bool) (node link : Nat) (s : State), x < 8 ∧ node < 512 ∧ link < 8 ∧ speed = 2 ∧ width = 4 ∧ tlkState s x ≤ 1 ∧
      enabled s (0xC8 + x) = true ∧ fenced s (0xC8 + x) = false ∧ (0xC8 + x) ∉ s.pwr.dead ∧ isSet s (TLK_CFG_MAX_32 x) = true ∧ node = nodeId s) ∧
    (∃ (x node link : Nat) (rev : Bool) (s : State), x < 8 ∧ node < 512 ∧ link < 8 ∧ tlkState s x ≤ 1 ∧ enabled s (0xC8 + x) = true ∧
      fenced s (0xC8 + x) = false ∧ (0xC8 + x) ∉ s.pwr.dead ∧ isSet s (TLK_CFG_MAX_32 x) = true ∧ node ≠ nodeId s) ∧
    (∃ (x : Nat) (s : State), x < 8 ∧ tlkState s x = 4) ∧
    (∃ (x : Nat) (b : List Byte) (s : State), x < 8 ∧ tlkState s x = 2 ∧ (b.length ≠ 32 ∨ leAt b 28 4 ≠ crc32 (slice b 0 28))) ∧
    (∃ (x : Nat) (b : List Byte) (s : State), x < 8 ∧ tlkState s x = 2 ∧ b.length = 32 ∧ leAt b 28 4 = crc32 (slice b 0 28) ∧ 2 ≤ bitsOf (leAt b 0 4) 10 3 ∧
      bitsOf (leAt b 0 4) 10 3 < 5 ∧ (leAt b 0 4).testBit 24 = false ∧ leAt b 0 4 % 1024 = (tlkOf s x).expect) ∧
    (∃ (x seq : Nat) (s : State), x < 8 ∧ seq < 1024 ∧ tlkState s x = 2 ∧ (tlkOf s x).retry.dropWhile (fun f => decide (f.seq ≠ seq)) ≠ []) ∧
    (∃ (x : Nat) (s : State), x < 8 ∧ tlkState s x = 2 ∧ (tlkOf s x).retry ≠ []) ∧
    (∃ (x : Nat) (fs : List TxFlit) (s : State), x < 8) ∧
    (∃ (x : Nat) (s : State), x < 8 ∧ tlkState s x = 2 ∧ (tlkOf s x).due ≠ 0) ∧
    (∃ (x : Nat) (m : Msg) (s : State), x < 8 ∧ m.dst < 512 ∧ m.src < 512 ∧ m.dst ≠ nodeId s ∧ tlkState s x = 2 ∧ m.hops = 0) ∧
    (∃ (x : Nat) (m : Msg) (s : State), x < 8 ∧ m.dst < 512 ∧ m.src < 512 ∧ m.dst ≠ nodeId s ∧ tlkState s x = 2 ∧ m.hops ≠ 0 ∧
      isSet s (TRT_ENTRY_VALID m.dst) = true ∧ m.src ≠ nodeId s) ∧
    (∃ (x nb : Nat) (s : State), x < 8 ∧ tlkState s x = 2 ∧ (tlkOf s x).nb = some nb) ∧
    (∃ (x : Nat) (m : Msg) (s : State), x < 8 ∧ m.src < 512 ∧ tlkState s x = 2 ∧ m.dst = nodeId s) ∧
    (∃ (x : Nat) (s : State), x < 8 ∧ tlkState s x = 2 ∧ getFld s PWR_STAT_STATE = 2 ∧ isSet s (PG_CTL_CLK_REQ (0xC8 + x)) = false ∧ (tlkOf s x).queue = [] ∧
      (tlkOf s x).cur = [] ∧ (tlkOf s x).resend = [] ∧ (tlkOf s x).retry = [] ∧ partnerLink s x = false) :=
  ⟨⟨0, 2, 4, false, 0, 0, (put [(TLK_CFG_MAX_32 0, 1)] (link0 0 Tlk.reset)), by decide⟩,
   ⟨0, 5, 0, false, (put [(TLK_CFG_MAX_32 0, 1)] (link0 0 Tlk.reset)), by decide⟩,
   ⟨0, (link0 4 Tlk.reset), by decide⟩,
   ⟨0, [], (link0 2 Tlk.reset), by decide⟩,
   ⟨0, flit0, (link0 2 Tlk.reset), by decide +kernel⟩,
   ⟨0, 0, (link0 2 { Tlk.reset with retry := [tx0] }), by decide⟩,
   ⟨0, (link0 2 { Tlk.reset with retry := [tx0] }), by decide⟩,
   ⟨7, [tx0], link0 2 Tlk.reset, by decide⟩,
   ⟨0, (link0 2 { Tlk.reset with due := 1 }), by decide⟩,
   ⟨0, { msg5 0 0 0 [] with dst := 7 }, (link0 2 Tlk.reset), by decide⟩,
   ⟨0, { msg5 0 0 0 [] with dst := 7, hops := 1 }, (put [(TRT_ENTRY_VALID 7, 1)] (link0 2 Tlk.reset)), by decide⟩,
   ⟨0, 3, (link0 2 { Tlk.reset with nb := some 3 }), by decide⟩,
   ⟨0, (msg5 0 0 0 []), (link0 2 Tlk.reset), by decide⟩,
   ⟨0, (put [(PWR_STAT_STATE, 2)] (link0 2 Tlk.reset)), by decide⟩⟩

theorem witness_LeasesAndTakeovers :
    (∃ (s : State), mute s = false) ∧
    (∃ (m : Msg) (s : State), m.src < 512 ∧ m.dst = nodeId s ∧ mute s = false) ∧
    (∃ (m : Msg) (s : State), m.src < 512 ∧ m.dst = nodeId s ∧ mute s = false ∧ m.src ∈ standbys s ∧ m.src ∈ s.link.acked ∧ (∀ q ∈ platesWith s m.src,
      q.2.attached = true)) ∧
    (∃ (owner mask : Nat) (s : State), owner < 512 ∧ smGet s.link.leased owner = some mask ∧ mute s = false) ∧
    (∃ (node : Nat) (s : State), node < 512 ∧ node ∈ standbys s ∧ devFenced s = false ∧ s.link.offers = []) ∧
    (∃ (p : Nat) (x : Plate) (s : State), p < 64 ∧ plateOf s p = some x ∧ x.attached = true ∧ x.standby ∉ s.link.acked) ∧
    (∃ (id : Nat) (md : PlateMedia) (h : HeldPlate) (s : State), smGet s.link.held id = some h ∧ h.taking = 1 ∧ md.plateId = id ∧ mute s = false ∧
      h.index < 64 ∧ plateOf s h.index = none ∧
      let r := takenPlate s h md;
      let on := r.1.membersIn [.online];
      let t := mediaRecords h.index on md (dropTagCache h.index (fun _ => true) (setFld (PG_STAT_READY (0x40 + h.index)) 1 (updStore (fun u => { u with plates := smSet u.plates h.index r.1 }) (updHeld id (fun y => { y with taking := 2, here := h.index }) (updCache (fun t => { t with jrec := smSet t.jrec h.index (mediaJournal id (readMems on md)) }) s)))));
      assemblyFails r.2 = []) ∧
    (∃ (id : Nat) (h : HeldPlate) (s : State), smGet s.link.held id = some h ∧ h.taking = 1) ∧
    (∃ (id : Nat) (h : HeldPlate) (s : State), smGet s.link.held id = some h ∧ h.taking = 3 ∧ plateQuiet s h.here = true) ∧
    (∃ (m : Msg) (s : State), m.src < 512 ∧ m.dst = nodeId s ∧ mute s = false) ∧
    (∃ (followers : List Nat) (s : State), followers.all (fun n => decide (n < 512)) = true ∧ getFld s TRT_TIME_MASTER = nodeId s ∧ mute s = false) ∧
    (∃ (m : Msg) (s : State), m.src < 512 ∧ m.dst = nodeId s ∧ mute s = false ∧ isSet s MTR_CFG_TSRC = true ∧ m.src = getFld s TRT_TIME_MASTER ∧ m.src
      ≠ nodeId s) :=
  ⟨⟨dev, by decide⟩,
   ⟨(msg5 0 0 0 []), dev, by decide⟩,
   ⟨(msg5 0 0 0 []), (lnk { LinkSt.reset with acked := [5] } (pl (plateS true))), by decide⟩,
   ⟨5, 1, (lnk { LinkSt.reset with leased := [(5, 1)] } dev), by decide⟩,
   ⟨5, (pl (plateS true)), by decide⟩,
   ⟨0, (plateS true), (pl (plateS true)), by decide⟩,
   ⟨7, { md0 with plateId := 7 }, (held0 true 1), (heldS true 1), by dsimp only; decide⟩,
   ⟨7, (held0 true 1), (heldS true 1), by decide⟩,
   ⟨7, (held0 true 3), (heldS true 3), by decide⟩,
   ⟨(msg5 0 0 0 []), dev, by decide⟩,
   ⟨[], dev, by decide⟩,
   ⟨(msg5 0 0 0 []), (put [(MTR_CFG_TSRC, 1), (TRT_TIME_MASTER, 5)] dev), by decide⟩⟩

theorem witness_StandbysAreAttached :
    (∃ (w : Win) (p node : Nat) (x : Plate) (s : State), ∃ y, Passes w 0xD0 s ∧ mayInstall s w = true ∧ isSet s TRT_CMD_GO = false ∧ p < 64 ∧ node <
      512 ∧ plateOf s p = some x ∧ x.served = true ∧ x.standby = 0xFFFF ∧
      let t := loaded w 0xD0 TRT_CMD_OP 1 [(TRT_CMD_PLATE, p), (TRT_CMD_NODE, node)] TRT_CMD_GO TRT_CMD_RES_DONE s;
      reachable t node = true ∧
      let t1 := startLabel p (updPlate p (fun y => { y with standby := node }) t);
      plateOf t1 p = some y) ∧
    (∃ (w : Win) (p : Nat) (x : Plate) (s : State), Passes w 0xD0 s ∧ mayInstall s w = true ∧ isSet s TRT_CMD_GO = false ∧ p < 64 ∧ plateOf s p = some
      x ∧ x.standby ≠ 0xFFFF) ∧
    (∃ (m : Msg) (reach resvOk : Bool) (found : List FoundNs) (media : List PlateMedia) (s : State), ∃ gov, m.src < 512 ∧ m.dst = nodeId s ∧ mute s =
      false ∧ smGet s.link.held m.arg = none ∧ governing (labelsOf found (mediaOf media m.arg)) m.arg = some gov ∧ reach = true ∧ resvOk = true ∧
      (buildPlate s gov ((List.range (leAt gov 0x22 1)).map (slotMember s found (mediaOf media m.arg) gov)) (mediaOf media m.arg)).members.all
        (reachesMember s) = true ∧
      ((s.link.held.filter (fun q => decide (q.2.plate.owner = m.src))).map (fun q => (smGetD s.link.mirror q.1 []).length)).sum < 49152) ∧
    (∃ (m : Msg) (reach resvOk : Bool) (found : List FoundNs) (media : List PlateMedia) (s : State), ∃ h, m.src < 512 ∧ m.dst = nodeId s ∧ mute s =
      false ∧ smGet s.link.held m.arg = some h ∧ h.attached = true) ∧
    (∃ (m : Msg) (pool p : Nat) (x : Plate) (s : State), m.src < 512 ∧ m.dst = nodeId s ∧ mute s = false ∧ offered s m.arg m.src = some (p, x) ∧
      plateEntries s p = [] ∧ m.src ∈ s.link.acked ∧ isSet s CCH_CFG_PARTNER_EN = false) ∧
    (∃ (m : Msg) (p : Nat) (x : Plate) (s : State), m.src < 512 ∧ m.dst = nodeId s ∧ mute s = false ∧ offered s m.arg m.src = some (p, x) ∧ (smGet
      s.link.offers p).map (fun o => o.2) = some false) ∧
    (∃ (m : Msg) (s : State), m.src < 512 ∧ m.dst = nodeId s ∧ mute s = false ∧ smGet s.link.claims m.arg = none) :=
  ⟨⟨(.core 0), 0, 5, plate0, routed, ((plateOf (startLabel 0 (updPlate 0 (fun y => { y with standby := 5 }) (loaded (.core 0) 0xD0 TRT_CMD_OP 1 [(TRT_CMD_PLATE, 0), (TRT_CMD_NODE, 5)] TRT_CMD_GO TRT_CMD_RES_DONE routed))) 0).getD plate0), by dsimp only; simp only [Passes]; decide⟩,
   ⟨(.core 0), 0, (plateS false), (pl (plateS false)), by simp only [Passes]; decide⟩,
   ⟨(msg5 0 7 0 []), true, true, [⟨3, 1, withCrc lab0, [], []⟩], [], dev, (withCrc lab0), by decide, by decide, by decide, by decide, governing_one _ lab0_valid lab0_plate, by decide, by decide, lab0_reached, by decide⟩,
   ⟨(msg5 0 7 0 []), false, false, [], [], (heldS true 0), (held0 true 0), by decide⟩,
   ⟨(msg5 0 7 0 []), 0, 0, (plateS false), (lnk { LinkSt.reset with acked := [5], offers := [(0, (5, false))] } (put [(CCH_CFG_PARTNER_EN, 0)] (pl (plateS false)))), by decide⟩,
   ⟨(msg5 0 7 0 []), 0, (plateS false), (lnk { LinkSt.reset with offers := [(0, (5, false))] } (pl (plateS false))), by decide⟩,
   ⟨(msg5 0 7 0 []), dev, by decide⟩⟩

theorem witness_PartnersKeepAndServe :
    (∃ (m : Msg) (h : HeldPlate) (s : State), m.src < 512 ∧ m.dst = nodeId s ∧ mute s = false ∧ smGet s.link.held m.arg = some h ∧ h.plate.owner =
      m.src ∧ h.attached = true) ∧
    (∃ (m : Msg) (h : HeldPlate) (s : State), m.src < 512 ∧ m.dst = nodeId s ∧ mute s = false ∧ smGet s.link.held m.arg = some h ∧ h.plate.owner =
      m.src ∧ h.attached = true ∧ progValid (slice m.body 0 256) = true ∧ leAt (slice m.body 0 256) 0x10 8 = m.arg ∧ leAt (slice m.body 0 256) 9 1 =
      0) ∧
    (∃ (m : Msg) (h : HeldPlate) (s : State), m.src < 512 ∧ m.dst = nodeId s ∧ mute s = false ∧ smGet s.link.held m.arg = some h ∧ h.plate.owner =
      m.src ∧ h.attached = true ∧ progValid (slice m.body 0 256) = true ∧ leAt (slice m.body 0 256) 0x10 8 = m.arg ∧ leAt (slice m.body 0 256) 9 1 =
      1) ∧
    (∃ (m : Msg) (h : HeldPlate) (s : State), m.src < 512 ∧ m.dst = nodeId s ∧ mute s = false ∧ smGet s.link.held m.arg = some h ∧ h.plate.owner =
      m.src ∧ h.attached = true ∧ m.arg2 % 2 = 0) ∧
    (∃ (m : Msg) (s : State), m.src < 512 ∧ m.dst = nodeId s ∧ mute s = false ∧ portState s (bitsOf m.arg 48 6) = 4) ∧
    (∃ (m : Msg) (s : State), m.src < 512 ∧ m.dst = nodeId s ∧ mute s = false ∧ portState s (bitsOf m.arg 48 6) = 4 ∧ mayWrite s m = true) ∧
    (∃ (m : Msg) (tag key : Nat) (c : NvCmd) (s : State), m.src < 512 ∧ m.dst = nodeId s ∧ mute s = false ∧ smGet s.io.nvme m.tag = some c ∧ c.node =
      m.src ∧ devFenced s = false ∧ m.arg2.testBit 16 = true) ∧
    (∃ (m : Msg) (tag key : Nat) (c : NvCmd) (s : State), m.src < 512 ∧ m.dst = nodeId s ∧ mute s = false ∧ smGet s.io.nvme m.tag = some c ∧ c.node =
      m.src ∧ devFenced s = false ∧ m.arg2.testBit 16 = false ∧ c.why = .tagRd key) ∧
    (∃ (id : Nat) (c : NvCmd) (s : State), smGet s.io.nvme id = some c ∧ c.node ≠ nodeId s) ∧
    (∃ (node : Nat) (s : State), node < 512 ∧ node ≠ nodeId s ∧ routeLinks s node = []) ∧
    (∃ (m : Msg) (id q : Nat) (h : HeldPlate) (s : State), m.src < 512 ∧ m.dst = nodeId s ∧ mute s = false ∧ (heldOf s m.src).find? (fun r => decide
      (r.2.index = bitsOf m.arg 32 6)) = some (id, h) ∧ s.link.pool.find? (fun r => decide (r.2.owner = m.src ∧ r.2.num = m.arg % 2 ^ 32)) = none ∧
      poolFree s = some q) ∧
    (∃ (m : Msg) (j : Nat) (s : State), m.src < 512 ∧ m.dst = nodeId s ∧ mute s = false ∧ smGet s.cache.pmirWait m.tag = some (m.src, j)) ∧
    (∃ (m : Msg) (s : State), m.src < 512 ∧ m.dst = nodeId s ∧ mute s = false ∧ (heldOf s m.src).any (fun q => decide (q.2.index = bitsOf m.arg 32 6))
      = true) ∧
    (∃ (m : Msg) (s : State), m.src < 512 ∧ m.dst = nodeId s ∧ mute s = false ∧ m.src ∈ standbys s) :=
  ⟨⟨(msg5 0 7 0 []), (held0 true 0), (heldS true 0), by decide⟩,
   ⟨(msg5 0 7 0 (withCrc (rec0 0))), (held0 true 0), (heldS true 0), by decide, by decide, by decide, by decide, by decide, by decide, (rec0_ok 0 (by decide)).1, (rec0_ok 0 (by decide)).2.1, (rec0_ok 0 (by decide)).2.2⟩,
   ⟨(msg5 0 7 0 (withCrc (rec0 1))), (held0 true 0), (heldS true 0), by decide, by decide, by decide, by decide, by decide, by decide, (rec0_ok 1 (by decide)).1, (rec0_ok 1 (by decide)).2.1, (rec0_ok 1 (by decide)).2.2⟩,
   ⟨(msg5 0 7 0 []), (held0 true 0), (heldS true 0), by decide⟩,
   ⟨(msg5 0 (9 * 2 ^ 48 + 2) 1 []), (bay ns0 plate0), by decide⟩,
   ⟨(msg5 0 (9 * 2 ^ 48 + 2) 1 []), (bay ns0 plate0), by decide⟩,
   ⟨(msg5 1 0 (2 ^ 16) []), 0, 0, { nv0 .read (.tagRd 5) with node := 5 }, (nvS { nv0 .read (.tagRd 5) with node := 5 }), by decide⟩,
   ⟨(msg5 1 0 0 []), 0, 5, { nv0 .read (.tagRd 5) with node := 5 }, (nvS { nv0 .read (.tagRd 5) with node := 5 }), by decide⟩,
   ⟨1, { nv0 .write (.tagWr 0) with node := 5 }, (nvS { nv0 .write (.tagWr 0) with node := 5 }), by decide⟩,
   ⟨5, dev, by decide⟩,
   ⟨(msg5 0 0 0 []), 7, 0, (held0 true 0), (put [(CCH_GEOM_PPOOL_GIB, 1), (PG_STAT_STATE 0x20, 3)] (heldS true 0)), by decide⟩,
   ⟨(msg5 1 0 0 []), 0, { dev with cache := { Cache.reset with pmirWait := [(1, (5, 0))] } }, by decide⟩,
   ⟨(msg5 0 0 0 []), (heldS true 0), by decide⟩,
   ⟨(msg5 0 0 0 []), (pl (plateS true)), by decide⟩⟩

theorem witness_GraverRunsItsUnits :
    (∃ (w : Win) (c : Nat) (s : State), c < 16 ∧ Passes w (0xE0 + c) s ∧ chState s c = 0 ∧ fenced s 0xDF = false ∧ fenced s (0xE0 + c) = false) ∧
    (∃ (w : Win) (c : Nat) (s : State), c < 16 ∧ Passes w (0xE0 + c) s ∧ chState s c = 1) ∧
    (∃ (w : Win) (c : Nat) (s : State), c < 16 ∧ Passes w (0xE0 + c) s) ∧
    (∃ (c : Nat) (s : State), c < 16 ∧ chState s c = 0) ∧
    (∃ (c : Nat) (s : State), c < 16 ∧ chState s c = 2 ∧ (mchOf s c).loaded = true) ∧
    (∃ (c : Nat) (s : State), c < 16 ∧ chState s c = 3) ∧
    (∃ (c : Nat) (s : State), c < 16 ∧ isSet s (MCH_CH_CTL_CHAIN c) = true ∧ chState s c = 1 ∧ (mchOf s c).loaded = false ∧
      let v := getFld s (MCH_CH_CUR_LO_ADDR c) + 2 ^ 32 * getFld s (MCH_CH_CUR_HI_ADDR c);
      let b := (List.range 128).map (fun i => BitVec.ofNat 8 (readByte s (v % 2) (v / 128 * 128 + i) i));
      let t := updMch c (fun _ => { loaded := true, off := 0, ended := none }) (setDesc c b (useFresh 128 (descRead (v % 2) (v / 128 * 128) s)));
      byteFail s (v % 2) (v / 128 * 128) = 0 ∧ (v % 2 = 1 → lineHeld s (v / 128 * 128) false = false) ∧ chState t c = 1) ∧
    (∃ (c : Nat) (s : State), c < 16 ∧ isSet s (MCH_CH_CTL_CHAIN c) = true ∧ chState s c = 1 ∧ (mchOf s c).loaded = false ∧
      let v := getFld s (MCH_CH_CUR_LO_ADDR c) + 2 ^ 32 * getFld s (MCH_CH_CUR_HI_ADDR c); byteFail s (v % 2) (v / 128 * 128) ≠ 0) ∧
    (∃ (c : Nat) (s : State), c < 16 ∧ isSet s (MCH_CH_CTL_CHAIN c) = true ∧ chState s c = 1 ∧ (mchOf s c).loaded = false ∧
      let v := getFld s (MCH_CH_CUR_LO_ADDR c) + 2 ^ 32 * getFld s (MCH_CH_CUR_HI_ADDR c); byteFail s (v % 2) (v / 128 * 128) = 0 ∧ v % 2 = 0) ∧
    (∃ (src : Nat) (s : State), src < 72) ∧
    (∃ (c : Nat) (h1 h2 : HostRd) (s : State), s.mover.run = some c ∧ (mchOf s c).loaded = true ∧ (mchOf s c).ended = none ∧ let b := descBytes s c;
      let p := (mchOf s c).off; p < dTotal b ∧ dPace b ≠ 2 ∧ (dPace b = 1 → 4 * burstLen b p ≤ allowance s c (dRate b)) ∧ dOp b = 1 ∧ (dstSide b).space ≠ 2 ∧
      dramHeld s b (dstSide b) true p (burstLen b p) = false ∧ sideFail s b (dstSide b) p (burstLen b p) = none) ∧
    (∃ (c : Nat) (s : State), s.mover.run = some c ∧ (mchOf s c).loaded = true ∧ hostHeld s (dstSide (descBytes s c)) = true) ∧
    (∃ (c : Nat) (s : State), s.mover.run = some c ∧ c < 16 ∧ (mchOf s c).loaded = true ∧ dTotal (descBytes s c) ≤ (mchOf s c).off) ∧
    (∃ (c : Nat) (s : State), s.mover.run = some c ∧ c < 16 ∧ (mchOf s c).loaded = true ∧ isSet s (MCH_CH_CTL_CHAIN c) = false ∧ (mchOf s c).ended = none ∧
      dTotal (descBytes s c) ≤ (mchOf s c).off) :=
  ⟨⟨(.core 0), 0, (graver 0 false), by simp only [Passes]; decide⟩,
   ⟨(.core 0), 0, (graver 1 false), by simp only [Passes]; decide⟩,
   ⟨(.core 0), 0, (graver 0 false), by simp only [Passes]; decide⟩,
   ⟨0, (graver 0 false), by decide⟩,
   ⟨0, (graver 2 true), by decide⟩,
   ⟨0, (graver 3 false), by decide⟩,
   ⟨0, (put [(MCH_CH_CUR_LO_ADDR 0, 0x02000000)] (graver 1 false)), by dsimp only; decide⟩,
   ⟨0, (put [(MCH_CH_CUR_LO_ADDR 0, 0x80000000)] (graver 1 false)), by dsimp only; decide⟩,
   ⟨0, (put [(MCH_CH_CUR_LO_ADDR 0, 0x02000000)] (graver 1 false)), by dsimp only; decide⟩,
   ⟨5, dev, by decide⟩,
   ⟨0, .abort, .abort, fill4, by dsimp only; decide⟩,
   ⟨0, (put [(CH_DESC 0 2, 0x002A0000)] (graver 2 true)), by decide⟩,
   ⟨0, (graver 2 true), by decide⟩,
   ⟨0, (put [(MCH_CH_CTL_CHAIN 0, 0)] (graver 2 true)), by decide⟩⟩

theorem witness_InterruptsAreClaimedAndEnded :
    (∃ (src : Nat) (s : State), 32 ≤ src ∧ src < 240 ∧ drivenLine s src = some true ∧ src ∉ s.icu.lines ∧ sense s src = 2) ∧
    (∃ (n src : Nat) (s : State), n < 4 ∧ offerOf s n = some src ∧ isEdge s src = true ∧ getFld s (ICU_SRC_CFG_MOD src) = 0) ∧
    (∃ (w : Win) (n src : Nat) (s : State), n < 4 ∧ src < 256 ∧ Passes w 5 s ∧ src ≠ 0 ∧ (smGet s.icu.claims src).map Prod.fst = some n) ∧
    (∃ (w : Win) (n src : Nat) (s : State), n < 4 ∧ src < 256 ∧ Passes w 5 s ∧ src = 0) ∧
    (∃ (w : Win) (v : Nat) (s : State), Passes w 5 s) ∧
    (∃ (w : Win) (v : Nat) (s : State), Passes w 5 s) ∧
    (∃ (src : Nat) (s : State), src < 256) ∧
    (∃ (src : Nat) (s : State), src < 256 ∧ corePowered s (getFld s ICU_CFG_FALLBACK) = true ∧ deliverable s src = true ∧
      corePowered s (targetOf s src) = false) ∧
    (∃ (n : Nat) (s : State), n < 4 ∧ corePowered s n = true) :=
  ⟨⟨64, (icu0 [(PG_EVT_EVT 0x80, 1), (PG_EVT_EN_EN 0x80, 1)]), by decide⟩,
   ⟨0, 64, icuR, by decide +kernel⟩,
   ⟨(.core 0), 0, 64, { dev with icu := { IcuSt.reset with claims := [(64, (0, 5))] } }, by simp only [Passes]; decide⟩,
   ⟨(.core 0), 0, 0, dev, by simp only [Passes]; decide⟩,
   ⟨(.core 0), 1, dev, by simp only [Passes]; decide⟩,
   ⟨(.core 0), 1, dev, by simp only [Passes]; decide⟩,
   ⟨64, dev, by decide⟩,
   ⟨64, (icu0 [(ICU_SRC_CFG_CORE 64, 1)]), by decide⟩,
   ⟨0, (icu0 []), by decide⟩⟩

theorem witness_FaultsAreLoggedAndFenced :
    (∃ (m : FMsg) (rest : List FMsg) (s : State), s.flt.queue = m :: rest) ∧
    (∃ (w : Win) (p : Nat) (s : State), p < 0x1000 ∧ reaches s w p = true ∧ Passes w p s ∧ winRole s w = 2) ∧
    (∃ (w : Win) (s : State), Passes w 4 s ∧ ftest s = true) ∧
    (∃ (w : Win) (p v : Nat) (s : State), p < 0x2000 ∧ reaches s w p = true ∧ Passes w p s ∧ winRole s w = 2 ∧ ftest s = true) ∧
    (∃ (w : Win) (s : State), Passes w 4 s) ∧
    (∃ (w : Win) (p : Nat) (found : List FoundNs) (media : List PlateMedia) (s : State), Passes w 4 s ∧ mayInstall s w = true ∧ isSet s FLT_CMD_GO = false ∧
      p < 2 ^ FLT_CMD_PAGE.width ∧ fenced s p = true ∧ unfenceOk p = true) ∧
    (∃ (n : Nat) (s : State), Passes (.core n) 4 s ∧ getFld s FLT_WDOG_ADMIN_CORE = n) ∧
    (∃ (s : State), isSet s (MGC_STAT_POWERED (getFld s FLT_WDOG_ADMIN_CORE)) = true ∧ 2 ≤ getFld s CHIP_DEV_STAT_PHASE ∧
      s.flt.kick + getFld s FLT_WDOG_TIMEOUT_MS * 1000000 ≤ devTime s ∧ devFenced s = false ∧ getFld s PWR_STAT_STATE ≠ 4) :=
  ⟨⟨fm0, [], { dev with flt := { FltSt.reset with queue := [fm0] } }, by decide⟩,
   ⟨(.core 0), 6, dev, by simp only [Passes]; decide⟩,
   ⟨(.core 0), inTest, by simp only [Passes]; decide⟩,
   ⟨(.core 0), 6, 1, inTest, by simp only [Passes]; decide⟩,
   ⟨(.core 0), dev, by simp only [Passes]; decide⟩,
   ⟨(.core 0), 6, [], [], (put [(PG_STAT_FENCED 6, 1)] dev), by simp only [Passes]; decide⟩,
   ⟨0, dev, by simp only [Passes]; decide⟩,
   ⟨(put [(MGC_STAT_POWERED 0, 1)] { dev with timeQ := 320 * 10 ^ 12 }), by decide⟩⟩

theorem witness_StartUpGoesThroughItsPhases :
    (∃ (d : Nat) (s : State), s.pwr.due = some d ∧ getFld s PWR_STAT_STATE ≠ 3 ∧ getFld s PWR_STAT_STATE ≠ 4 ∧ s.pwr.p0 = true) ∧
    (∃ (s : State), phase s = 1 ∧ stopped s = false ∧ getFld s PWR_RAIL_SEQ = 1) ∧
    (∃ (s : State), phase s = 1 ∧ stopped s = false ∧ getFld s PWR_RAIL_SEQ = 3) ∧
    (∃ (s : State), phase s = 1 ∧ stopped s = false ∧ getFld s PWR_RAIL_ATTEMPTS < 2) ∧
    (∃ (s : State), phase s = 1 ∧ stopped s = false ∧ getFld s PWR_RAIL_ATTEMPTS = 2) ∧
    (∃ (f : PhaseFacts) (s : State), stopped s = false ∧ devFenced s = false ∧ getFld s PWR_STAT_STATE ≠ 4 ∧ phase s = 1 ∧ getFld s PWR_RAIL_SEQ = 7) ∧
    (∃ (f : PhaseFacts) (s : State), stopped s = false ∧ devFenced s = false ∧ getFld s PWR_STAT_STATE ≠ 4 ∧ phase s = 3 ∧ f.sensors = true) ∧
    (∃ (f : PhaseFacts) (s : State), stopped s = false ∧ devFenced s = false ∧ getFld s PWR_STAT_STATE ≠ 4 ∧ phase s = 3 ∧ f.sensors = false) ∧
    (∃ (f : PhaseFacts) (s : State), stopped s = false ∧ devFenced s = false ∧ getFld s PWR_STAT_STATE ≠ 4 ∧ phase s = 4 ∧ f.sram = false) ∧
    (∃ (f : PhaseFacts) (s : State), stopped s = false ∧ devFenced s = false ∧ getFld s PWR_STAT_STATE ≠ 4 ∧ phase s = 0 ∧ s.pwr.p0 = false) ∧
    (∃ (f : PhaseFacts) (s : State), stopped s = false ∧ devFenced s = false ∧ getFld s PWR_STAT_STATE ≠ 4 ∧ phase s = 2 ∧ (if isSet s
      CLK_STAT_PLL_SRC then isSet s CLK_STAT_HCLK1_OK else isSet s CLK_STAT_HCLK0_OK) = true) ∧
    (∃ (f : PhaseFacts) (s : State), stopped s = false ∧ devFenced s = false ∧ getFld s PWR_STAT_STATE ≠ 4 ∧ phase s = 4 ∧ f.sram = true) ∧
    (∃ (f : PhaseFacts) (s : State), stopped s = false ∧ devFenced s = false ∧ getFld s PWR_STAT_STATE ≠ 4 ∧ phase s = 5) ∧
    (∃ (f : PhaseFacts) (s : State), stopped s = false ∧ devFenced s = false ∧ getFld s PWR_STAT_STATE ≠ 4 ∧ phase s = 6) ∧
    (∃ (f : PhaseFacts) (s : State), stopped s = false ∧ devFenced s = false ∧ getFld s PWR_STAT_STATE ≠ 4 ∧ phase s = 7) ∧
    (∃ (s : State), stopped s = false ∧ getFld s PWR_STAT_STATE ≠ 4 ∧ 2 ≤ phase s ∧ phase s ≤ 6) :=
  ⟨⟨0, { dev with pwr := { PwrSt.reset with p0 := true } }, by decide⟩,
   ⟨(rails 1 0), by decide⟩,
   ⟨(rails 3 0), by decide⟩,
   ⟨(rails 3 0), by decide⟩,
   ⟨(rails 3 2), by decide⟩,
   ⟨(facts true), (rails 7 0), by decide⟩,
   ⟨(facts true), (atPhase 3), by decide⟩,
   ⟨(facts false), (atPhase 3), by decide⟩,
   ⟨(facts false), (atPhase 4), by decide⟩,
   ⟨(facts true), { atPhase 0 with pwr := { PwrSt.reset with p0 := false } }, by decide⟩,
   ⟨(facts true), (put [(CLK_STAT_PLL_SRC, 0), (CLK_STAT_HCLK0_OK, 1)] (atPhase 2)), by decide⟩,
   ⟨(facts true), (atPhase 4), by decide⟩,
   ⟨(facts true), (atPhase 5), by decide⟩,
   ⟨(facts true), (atPhase 6), by decide⟩,
   ⟨(facts true), (atPhase 7), by decide⟩,
   ⟨(atPhase 4), by decide⟩⟩

theorem witness_ResetsLeaveTheirState :
    (∃ (io : Bool) (s : State), cclkOn s = true) ∧
    (∃ (s : State), getFld s PWR_STAT_STATE ≠ 4 ∧ s.pwr.due = none ∧ s.cache.dumping = false ∧ dumpOk s = false) ∧
    (∃ (s : State), getFld s PWR_STAT_STATE ≠ 4 ∧ s.pwr.due = none ∧ s.cache.dumping = false ∧ dumpOk s = true) ∧
    (∃ (w : Win) (s : State), Passes w 1 s ∧ mayInstall s w = true ∧ getFld s PWR_STAT_STATE ≠ 4 ∧ s.pwr.due = none ∧ s.cache.dumping = false ∧
      dumpOk s = false) :=
  ⟨⟨true, dev, by decide⟩,
   ⟨dev, by decide⟩,
   ⟨(put [(VLT_STAT_READY, 1)] { dev with cache := { Cache.reset with latch := true } }), by decide⟩,
   ⟨(.core 0), dev, by simp only [Passes]; decide⟩⟩

theorem witness_SupplyClockAndHeatAreWatched :
    (∃ (mv : Nat) (s : State), cclkOn s = true ∧ mv < 855 ∧ isSet s PWR_STAT_VDD_WARN = false) ∧
    (∃ (io : Bool) (mv : Nat) (s : State), cclkOn s = true ∧ mv < (if io then 1710 else 855) ∧ isSet s (if io then PWR_STAT_VDDIO_WARN else
      PWR_STAT_VDD_WARN) = false) ∧
    (∃ (io : Bool) (mv : Nat) (s : State), cclkOn s = true ∧ (if io then 1740 else 870) < mv) ∧
    (∃ (mv : Nat) (s : State), cclkOn s = true ∧ 1740 < mv ∧ mv < 65536) ∧
    (∃ (x : Int) (s : State), sensing s = true ∧ 10 * (getFld s PWR_TEMP_THR_WARN_C : Int) ≤ x ∧ 13 ∉ s.icu.lines) ∧
    (∃ (x : Int) (s : State), sensing s = true ∧ 10 * (getFld s PWR_TEMP_THR_CRIT_C : Int) ≤ x) ∧
    (∃ (s : State), cclkOn s = true ∧ getFld s CLK_STAT_PLL_SRC = 0) ∧
    (∃ (s : State), cclkOn s = true ∧ getFld s CLK_STAT_PLL_SRC = 1) ∧
    (∃ (s : State), cclkOn s = true ∧ getFld s CLK_STAT_PLL_SRC = 1) ∧
    (∃ (s : State), cclkOn s = true ∧ isSet s CLK_STAT_XTAL_OK = true) ∧
    (∃ (s : State), isSet s CLK_STAT_XTAL_OK = false ∧ s.pwr.p0 = true ∧ cclkOn s = true ∧ s.pwr.gap = false) ∧
    (∃ (s : State), isSet s CLK_ALARM_CTL_EN0 = true ∧ alarmAt s 0 ≤ devTime s) ∧
    (∃ (s : State), isSet s CLK_ALARM_CTL_EN1 = true ∧ alarmAt s 1 ≤ devTime s) ∧
    (∃ (s : State), s.pwr.due = none ∧ getFld s PWR_STAT_STATE ≠ 3 ∧ getFld s PWR_STAT_STATE ≠ 5) ∧
    (∃ (w : Win) (v : Nat) (s : State), Passes w 1 s ∧ v % 2 = 1) :=
  ⟨⟨800, dev, by decide⟩,
   ⟨true, 1709, dev, by decide⟩,
   ⟨false, 871, dev, by decide⟩,
   ⟨1750, dev, by decide⟩,
   ⟨2000, dev, by decide⟩,
   ⟨2000, dev, by decide⟩,
   ⟨(put [(CLK_STAT_PLL_SRC, 0)] dev), by decide⟩,
   ⟨(put [(CLK_STAT_PLL_SRC, 1)] dev), by decide⟩,
   ⟨(put [(CLK_STAT_PLL_SRC, 1)] dev), by decide⟩,
   ⟨(put [(CLK_STAT_XTAL_OK, 1)] dev), by decide⟩,
   ⟨(put [(CLK_STAT_XTAL_OK, 0)] dev), by decide⟩,
   ⟨(put [(CLK_ALARM_CTL_EN0, 1)] dev), by decide⟩,
   ⟨(put [(CLK_ALARM_CTL_EN1, 1)] dev), by decide⟩,
   ⟨dev, by decide⟩,
   ⟨(.core 0), 1, dev, by simp only [Passes]; decide⟩⟩

theorem witness_PowerStatesAreEnteredAndLeft :
    (∃ (s : State), getFld s PWR_STAT_STATE = 0 ∧ phase s = 8 ∧ s.cache.dumping = false ∧ noWork s = true) ∧
    (∃ (quiet : Bool) (s : State), nightMay s quiet = true) ∧
    (∃ (busy : Bool) (s : State), getFld s PWR_STAT_STATE = 2 ∧ getFld s PWR_CFG_NIGHT_MODE = 1 ∧ isSet s PWR_CTL_NIGHT_REQ = false) ∧
    (∃ (w : Win) (v : Nat) (s : State), Passes w 1 s) ∧
    (∃ (s : State), s.pwr.stby = 0 ∧ standbyMay s = true) ∧
    (∃ (s : State), s.pwr.stby = 4 ∧ s.pwr.exit = false ∧ (∀ p < 64, portState s p ≠ 4 ∧ portState s p ≠ 5)) ∧
    (∃ (s : State), getFld s PWR_STAT_STATE = 3 ∧ wakeDue s = true) :=
  ⟨⟨dev, by decide⟩,
   ⟨false, (put [(PWR_CFG_NIGHT_MODE, 1), (PWR_CTL_NIGHT_REQ, 1)] dev), by decide⟩,
   ⟨true, (put [(PWR_CFG_NIGHT_MODE, 1), (PWR_STAT_STATE, 2)] dev), by decide⟩,
   ⟨(.core 0), 1, dev, by simp only [Passes]; decide⟩,
   ⟨{ put [(PWR_CFG_STBY_EN, 1)] dev with host := HostSt.reset }, by decide⟩,
   ⟨{ dev with pwr := { dev.pwr with stby := 4 } }, by decide⟩,
   ⟨(put [(PWR_STAT_STATE, 3), (ICU_AON_LATCH_LATCH, 2), (ICU_SRC_CFG_AON_WAKE 2, 1)] dev), by decide⟩⟩

theorem witness_PageHeadersControlTheirBlocks :
    (∃ (w : Win) (b v : Nat) (s : State), b < 8 ∧ Passes w (0x30 + b) s ∧ reaches s w (0x30 + b) = true) ∧
    (∃ (w : Win) (p v : Nat) (s : State), p ∈ [0, 1, 2, 3, 4, 8] ∧ Passes w p s ∧ reaches s w p = true ∧ isSet s (PG_CTL_ENABLE p) = true ∧ v % 2 = 0) ∧
    (∃ (w : Win) (b : Nat) (s : State), b < 8 ∧ Passes w (0x30 + b) s ∧ reaches s w (0x30 + b) = true ∧ mayInstall s w = true ∧
      isSet s (PG_CTL_CLK_REQ (0x30 + b)) = false ∧ pipeAwake s b = false) ∧
    (∃ (w : Win) (b : Nat) (s : State), b < 8 ∧ Passes w (0x30 + b) s ∧ reaches s w (0x30 + b) = true) ∧
    (∃ (w : Win) (p : Nat) (s : State), p < 0x1000 ∧ (p < 0x30 ∨ 0x37 < p) ∧ Passes w p s ∧ reaches s w p = true ∧ ftest s = false) :=
  ⟨⟨(.core 0), 0, 1, dev, by simp only [Passes]; decide⟩,
   ⟨(.core 0), 0, 0, (put [(PG_CTL_ENABLE 0, 1)] dev), by simp only [Passes]; decide⟩,
   ⟨(.core 0), 1, (put [(BUR_STAT_POWERED 1, 0)] dev), by simp only [Passes]; decide⟩,
   ⟨(.core 0), 1, dev, by simp only [Passes]; decide⟩,
   ⟨(.core 0), 6, dev, by simp only [Passes]; decide⟩⟩

theorem witness_RegistersAreWrittenAndRead :
    (∃ (w : Win) (v : Nat) (vr : VaultRead) (s : State), Passes w 2 s) ∧
    (∃ (w : Win) (slice steps : Nat) (vr : VaultRead) (s : State), Passes w 0x39 s ∧ mayInstall s w = true ∧ 100 ≤ slice ∧ slice ≤ 10000 ∧ 1 ≤ steps ∧
      steps < 256) ∧
    (∃ (w : Win) (slice steps : Nat) (vr : VaultRead) (s : State), Passes w 0x39 s ∧ mayInstall s w = false ∧ 100 ≤ slice ∧ slice ≤ 10000 ∧ 1 ≤ steps ∧
      steps < 256 ∧ slice ≠ getFld s RBD_CFG_SLICE_US) ∧
    (∃ (w : Win) (v : Nat) (vr : VaultRead) (s : State), Passes w 1 s) ∧
    (∃ (w : Win) (v : Nat) (vr : VaultRead) (s : State), Passes w 0x39 s) ∧
    (∃ (n off v : Nat) (vr : VaultRead) (s : State), off < 4096 ∧ off % 4 = 0 ∧ rowsAt s 0x39 off = []) ∧
    (∃ (n p off : Nat) (s : State), p < 0x2000 ∧ off < 4096 ∧ off % 4 = 0) ∧
    (∃ (s : State), 5 ≤ phase s) :=
  ⟨⟨(.core 0), 1, vr0, dev, by simp only [Passes]; decide⟩,
   ⟨(.core 0), 200, 4, vr0, dev, by simp only [Passes]; decide⟩,
   ⟨(.pf 0), 2000, 4, vr0, dev, by simp only [Passes]; decide⟩,
   ⟨(.core 0), 1, vr0, dev, by simp only [Passes]; decide⟩,
   ⟨(.core 0), 1, vr0, dev, by simp only [Passes]; decide⟩,
   ⟨0, 0xFFC, 1, vr0, dev, by decide⟩,
   ⟨0, 6, 0x40, dev, by decide⟩,
   ⟨dev, by decide⟩⟩

theorem witness_VolumeCommandsAct :
    (∃ (n : Nat) (x : Cmd) (v : Vol) (s : State), AdminDue n 0x80 x s ∧ volOf s (enVol x.raw) = some v) ∧
    (∃ (n : Nat) (x : Cmd) (ids : List Nat) (l : List (Nat × Nat × Nat)) (s : State), AdminDue n 0x81 x s ∧ x.tries = 0 ∧ enAux2 x.raw % 2 = 0 ∧ volOf
      s (enVol x.raw) = none ∧ choosePlaces (maskPlates s (enAux x.raw)) [] 0 (enCdw x.raw) = .inr (ids, l) ∧ mapFull s (enVol x.raw) (enCdw x.raw) =
      false) ∧
    (∃ (n : Nat) (x : Cmd) (s : State), AdminDue n 0x81 x s ∧ x.tries = 1 ∧ catBusy s = false) ∧
    (∃ (n i : Nat) (x : Cmd) (v : Vol) (s : State), AdminDue n 0x84 x s ∧ volOf s (enVol x.raw) = some v ∧ isSet s (CTX_STAT_PAUSE_BME x.ctx) = false
      ∧ attachedRo v (bitsOf (enCdw x.raw) 0 1) (bitsOf (enCdw x.raw) 1 10) = none ∧ (List.range 4).find? (fun j => decide (v.attach[j]? = some none))
      = some i) ∧
    (∃ (n : Nat) (x : Cmd) (v : Vol) (ro : Bool) (s : State), AdminDue n 0x85 x s ∧ volOf s (enVol x.raw) = some v ∧ isSet s (CTX_STAT_PAUSE_BME
      x.ctx) = false ∧ attachedRo v (bitsOf (enCdw x.raw) 0 1) (bitsOf (enCdw x.raw) 1 10) = some ro) ∧
    (∃ (n : Nat) (x : Cmd) (v : Vol) (s : State), ∃ e q, AdminDue n 0x82 x s ∧ volOf s (enVol x.raw) = some v ∧ x.tries = 0 ∧ attachedTo v = [] ∧
      freeBad s (enVol x.raw) 0 = none ∧ x.waits = 0 ∧
      let t := setTries n 1 (volWrite (enVol x.raw) true { v with deleting := true } s);
      (placedFrom t (enVol x.raw) 0).head? = some (e, q)) ∧
    (∃ (n : Nat) (x : Cmd) (v : Vol) (s : State), AdminDue n 0x82 x s ∧ volOf s (enVol x.raw) = some v ∧ x.tries = 1 ∧ x.waits = 0 ∧ placedFrom s
      (enVol x.raw) 0 = [] ∧ catBusy s = false) ∧
    (∃ (n : Nat) (x : Cmd) (v : Vol) (ids : List Nat) (l : List (Nat × Nat × Nat)) (s : State), AdminDue n 0x83 x s ∧ volOf s (enVol x.raw) = some v ∧
      x.tries = 0 ∧ v.extents < enCdw x.raw ∧ choosePlaces (s.store.plates.filter (fun q => ((enAux x.raw).testBit q.1 || decide (q.2.id ∈ v.plates))
      && !q.2.gone)) v.plates v.extents (enCdw x.raw) = .inr (ids, l) ∧ mapFull s (enVol x.raw) (enCdw x.raw) = false) ∧
    (∃ (n : Nat) (x : Cmd) (v : Vol) (s : State), AdminDue n 0x83 x s ∧ volOf s (enVol x.raw) = some v ∧ x.tries = 1 ∧ x.waits = 0 ∧ enCdw x.raw <
      v.extents ∧ placedFrom s (enVol x.raw) (enCdw x.raw) = [] ∧ catBusy s = false) :=
  ⟨⟨1, (cmd0 (entry 0x80 0 0 0 0 0)), vol0, (volS (cmd0 (entry 0x80 0 0 0 0 0)) [(0, vol0)] []), by simp only [AdminDue]; decide⟩,
   ⟨1, (cmd0 (entry 0x81 1 0 1 1 0)), [7], [(0, 0, 0)], (volS (cmd0 (entry 0x81 1 0 1 1 0)) [] []), by simp only [AdminDue]; decide, by decide, by decide, by decide, choose_first, by decide⟩,
   ⟨1, { cmd0 (entry 0x81 1 0 1 1 0) with tries := 1 }, (volS { cmd0 (entry 0x81 1 0 1 1 0) with tries := 1 } [] []), by simp only [AdminDue]; decide⟩,
   ⟨1, 1, (cmd0 (entry 0x84 0 0 3 0 0)), vol0, (volS (cmd0 (entry 0x84 0 0 3 0 0)) [(0, vol0)] []), by simp only [AdminDue]; decide⟩,
   ⟨1, (cmd0 (entry 0x85 0 0 0 0 0)), vol0, false, (volS (cmd0 (entry 0x85 0 0 0 0 0)) [(0, vol0)] []), by simp only [AdminDue]; decide⟩,
   ⟨1, (cmd0 (entry 0x82 0 0 0 0 0)), volD, (volS (cmd0 (entry 0x82 0 0 0 0 0)) [(0, volD)] [(0, (0, 0))]), 0, (0, 0), by dsimp only; simp only [AdminDue]; decide +kernel⟩,
   ⟨1, { cmd0 (entry 0x82 0 0 0 0 0) with tries := 1 }, volD, (volS { cmd0 (entry 0x82 0 0 0 0 0) with tries := 1 } [(0, volD)] []), by simp only [AdminDue]; decide +kernel⟩,
   ⟨1, (cmd0 (entry 0x83 0 0 2 1 0)), volD, [7], [(1, 0, 1)], (volS (cmd0 (entry 0x83 0 0 2 1 0)) [(0, volD)] [(0, (0, 0))]), by simp only [AdminDue]; decide, by decide, by decide, by decide, choose_next, by decide⟩,
   ⟨1, { cmd0 (entry 0x83 0 0 0 0 0) with tries := 1 }, volD, (volS { cmd0 (entry 0x83 0 0 0 0 0) with tries := 1 } [(0, volD)] []), by simp only [AdminDue]; decide +kernel⟩⟩

theorem witness_PlateAndPageCommandsAct :
    (∃ (n : Nat) (x : Cmd) (b : List Byte) (f : PlateFacts) (s : State), AdminDue n 0x86 x s ∧ x.tries = 0 ∧
      readReady s (ctxPort s x.ctx) (ctxFunc s x.ctx) (enDptr x.raw) 4096 = true ∧
      let u := readDone (ctxPort s x.ctx) (ctxFunc s x.ctx) (enDptr x.raw) 4096 (.data b) s;
      pageBad u f.far (slice b 0 4096) = none ∧ createBad u f (slice b 0 4096) = none) ∧
    (∃ (n : Nat) (x : Cmd) (y : Plate) (page : HostRd) (f : PlateFacts) (s : State), AdminDue n 0x86 x s ∧ x.tries = 2 ∧ plateOf s x.result = some y ∧
      y.labelBusy = false ∧ initBusy s x.result = false) ∧
    (∃ (n : Nat) (x : Cmd) (y : Plate) (page : HostRd) (f : PlateFacts) (s : State), AdminDue n 0x86 x s ∧ x.tries = 1 ∧ plateOf s x.result = some y ∧
      y.labelBusy = false ∧ initBusy s x.result = false) ∧
    (∃ (n : Nat) (x : Cmd) (y : Plate) (s : State), AdminDue n 0x87 x s ∧ x.tries = 1 ∧ plateOf s (enCdw x.raw) = some y ∧ plateQuiet s (enCdw x.raw)
      = true ∧ y.labelBusy = false ∧ initBusy s (enCdw x.raw) = false ∧ s.cache.slots.any (fun q => decide (q.2.plate = enCdw x.raw)) = false) ∧
    (∃ (n : Nat) (x : Cmd) (y : Plate) (s : State), AdminDue n 0x87 x s ∧ x.tries = 0 ∧ plateOf s (enCdw x.raw) = some y ∧ y.served = true ∧
      let u := setTries n 1 (abandonUnits (enCdw x.raw) (updPlate (enCdw x.raw) (fun z => { z with gone := true }) s));
      plateQuiet u (enCdw x.raw) = false) ∧
    (∃ (n : Nat) (x : Cmd) (s : State), AdminDue n 0x87 x s ∧ x.tries = 2 ∧ s.io.nvme.any (fun q => decide (q.2.why = .other ∧ q.2.op = .write ∧
      q.2.plate = 64)) = false) ∧
    (∃ (n : Nat) (x : Cmd) (md : PlateMedia) (ok1 ok2 : Bool) (rate nonce off : Nat) (op go st done : FRef) (act : State → State) (s : State),
      AdminDue n 0x88 x s ∧ x.tries = 0 ∧ cmdRegs (enCdw x.raw) = some (off, op, go, st, done) ∧ 1 ≤ x.role ∧ rightsWrite s x.role (enCdw x.raw) =
      true ∧ isSet s go = false ∧ (∀ r ∈ pageRows s (enCdw x.raw), r.f.key = op.key → codeOk r (enAux x.raw) = true) ∧
      let t0 := needRole (.pf (ctxPort s x.ctx)) (loadCmd s (enCdw x.raw) off (enAux x.raw) go);
      let t := seqIf (enCdw x.raw) s (if 0x40 ≤ enCdw x.raw ∧ enCdw x.raw ≤ 0x7F then setFld (PLT_CMD_PORT_PORT (enCdw x.raw - 0x40)) (bitsOf (enAux2
        x.raw) 0 32) (setFld (PLT_CMD_NSID_NSID (enCdw x.raw - 0x40)) (bitsOf (enAux2 x.raw) 32 32) t0) else t0);
      pageOp (enCdw x.raw) (getFld t op) md ok1 ok2 rate nonce = some act ∧
      let u := act (setFld done 0 (setFld go 1 t));
      isSet u done = true ∧ getFld u st = 0) ∧
    (∃ (n : Nat) (x : Cmd) (md : PlateMedia) (ok1 ok2 : Bool) (rate nonce off : Nat) (op go st done : FRef) (act : State → State) (s : State),
      AdminDue n 0x88 x s ∧ x.tries = 0 ∧ cmdRegs (enCdw x.raw) = some (off, op, go, st, done) ∧ 1 ≤ x.role ∧ rightsWrite s x.role (enCdw x.raw) =
      true ∧ isSet s go = false ∧ (∀ r ∈ pageRows s (enCdw x.raw), r.f.key = op.key → codeOk r (enAux x.raw) = true) ∧
      let t0 := needRole (.pf (ctxPort s x.ctx)) (loadCmd s (enCdw x.raw) off (enAux x.raw) go);
      let t := seqIf (enCdw x.raw) s (if 0x40 ≤ enCdw x.raw ∧ enCdw x.raw ≤ 0x7F then setFld (PLT_CMD_PORT_PORT (enCdw x.raw - 0x40)) (bitsOf (enAux2
        x.raw) 0 32) (setFld (PLT_CMD_NSID_NSID (enCdw x.raw - 0x40)) (bitsOf (enAux2 x.raw) 32 32) t0) else t0);
      pageOp (enCdw x.raw) (getFld t op) md ok1 ok2 rate nonce = some act ∧
      let u := act (setFld done 0 (setFld go 1 t));
      isSet u done = false) ∧
    (∃ (n : Nat) (x : Cmd) (s : State), AdminDue n 0x89 x s) ∧
    (∃ (n : Nat) (x : Cmd) (s : State), AdminDue n 0x8A x s ∧ x.tries = 0 ∧ s.sum.cur = none) ∧
    (∃ (w : Win) (v : Nat) (s : State), Passes w 0 s ∧ v % 2 = 1 ∧ isSet s CHIP_RESYNC_GO = false ∧ s.sum.cur = none) ∧
    (∃ (w : Win) (v : Nat) (s : State), Passes w 0 s ∧ v % 2 = 1 ∧ isSet s CHIP_RESYNC_GO = false ∧ s.sum.cur.isSome = true) ∧
    (∃ (b : List Byte) (s : State), s.sum.cur = some b ∧ s.sum.curFor = [0] ∧ cmdOf s 0 = none ∧ s.sum.again = false ∧ fenced s 8 = false) ∧
    (∃ (n : Nat) (b : List Byte) (x : Cmd) (s : State), s.sum.cur = some b ∧ s.sum.curFor = [n] ∧ n ≠ 0 ∧ cmdOf s n = some x ∧
      let u := adminOk n x (leAt b 0xC 4) (adminOut x b s);
      u.sum.again = false ∧ fenced u 8 = false) :=
  ⟨⟨1, (cmd0 (entry 0x86 0 0 0 0 0)), page4, pf4, create4, by simp only [AdminDue]; decide, by decide, by decide, pg4_ok, pg4_create⟩,
   ⟨1, { cmd0 (entry 0x86 0 0 0 0 0) with tries := 2 }, (plateV []), .abort, pf4, (volS { cmd0 (entry 0x86 0 0 0 0 0) with tries := 2 } [] []), by simp only [AdminDue]; decide⟩,
   ⟨1, { cmd0 (entry 0x86 0 0 0 0 0) with tries := 1 }, (plateV []), .abort, pf4, (volS { cmd0 (entry 0x86 0 0 0 0 0) with tries := 1 } [] []), by simp only [AdminDue]; decide⟩,
   ⟨1, { cmd0 (entry 0x87 0 0 0 0 0) with tries := 1 }, (plateV []), (volS { cmd0 (entry 0x87 0 0 0 0 0) with tries := 1 } [] []), by simp only [AdminDue]; decide⟩,
   ⟨1, (cmd0 (entry 0x87 0 0 0 0 0)), (plateV []), { volS (cmd0 (entry 0x87 0 0 0 0 0)) [] [] with io := { (volS (cmd0 (entry 0x87 0 0 0 0 0)) [] []).io with queue := [seg0] } }, by dsimp only; simp only [AdminDue]; decide⟩,
   ⟨1, { cmd0 (entry 0x87 0 0 0 0 0) with tries := 2 }, (volS { cmd0 (entry 0x87 0 0 0 0 0) with tries := 2 } [] []), by simp only [AdminDue]; decide⟩,
   ⟨1, (cmd0 (entry 0x88 0 0 0x38 1 0)), md0, true, true, 0, 0, 0x94, PRF_CMD_OP, PRF_CMD_GO, PRF_CMD_RES_STATUS, PRF_CMD_RES_DONE, (fun t => startCycleCmd (getFld t PRF_CMD_PLATE) t), (withCmd true (cmd0 (entry 0x88 0 0 0x38 1 0)) (pl plate0)), by simp only [AdminDue]; decide, by decide, by decide, by decide, by decide, by decide, by decide, rfl, by decide, by decide⟩,
   ⟨1, (cmd0 (entry 0x88 0 0 0x28 1 0)), md0, true, true, 0, 0, 0x78, CCH_CMD_OP, CCH_CMD_GO, CCH_CMD_RES_STATUS, CCH_CMD_RES_DONE, cacheFlush, { withCmd true (cmd0 (entry 0x88 0 0 0x28 1 0)) (pl plate0) with cache := { Cache.reset with slots := [(0, slot0)] } }, by simp only [AdminDue]; decide, by decide, by decide, by decide, by decide, by decide, by decide, rfl, by decide⟩,
   ⟨1, (cmd0 (entry 0x89 0 0 0 0 0)), (adm (entry 0x89 0 0 0 0 0)), by simp only [AdminDue]; decide⟩,
   ⟨1, (cmd0 (entry 0x8A 0 0 0 0 0)), (adm (entry 0x8A 0 0 0 0 0)), by simp only [AdminDue]; decide⟩,
   ⟨(.core 0), 1, dev, by simp only [Passes]; decide⟩,
   ⟨(.core 0), 1, (sum0 []), by simp only [Passes]; decide⟩,
   ⟨[1], (sum0 [0]), by decide⟩,
   ⟨1, [1], (cmd0 (entry 0x8A 0 0 0 0 0)), { adm (entry 0x8A 0 0 0 0 0) with sum := { SumSt.reset with cur := some [1], curFor := [1] } }, by dsimp only; decide⟩⟩

/-- The worked examples of R453 and R454: DRX45_N is ball H17, HP1_TX7_P AC34, TL_RX31_P AK34 and DDR2_B_CB5 AY56. -/
theorem test_balls : (serdesBall (driveLaneIx 45) false true).name = (['H'], 17) ∧ (serdesBall (hostLaneIx 1 7) true false).name = (['A', 'C'], 34) ∧
    (serdesBall (linkLaneIx 31) false false).name = (['A', 'K'], 34) ∧ (ddrBall 2 1 (.cb 5)).name = (['A', 'Y'], 56) := by decide

theorem witness_EveryBallCarriesOneSignal :
    (∃ (x y : Nat) (a b c d : Bool), x < 192 ∧ y < 192 ∧ serdesBall x a b = serdesBall y c d) ∧
    (∃ (c c' u u' : Nat) (g g' : DdrSig), c < 4 ∧ c' < 4 ∧ u < 2 ∧ u' < 2 ∧ g.valid = true ∧ g'.valid = true ∧ ddrBall c u g = ddrBall c' u' g') ∧
    (∃ (x : Nat), x < 192) ∧
    (∃ (c u : Nat) (g : DdrSig), c < 4 ∧ u < 2 ∧ g.valid = true) ∧
    (∃ (g : Pin) (s : State), ioOutput g = true ∧ ioPowered s = false) ∧
    (∃ (i : Nat), 1 ≤ i ∧ i ≤ 3) ∧
    (∃ (st : Nat), st ≤ 5) :=
  ⟨⟨191, 191, true, true, true, true, by decide⟩, ⟨3, 3, 0, 1, .alert, .alert, by decide⟩, ⟨191, by decide⟩, ⟨3, 1, .cs 1, by decide⟩,
   ⟨.tdo, State.reset, by decide⟩, ⟨3, by decide⟩, ⟨5, by decide⟩⟩

end Sys2Proof.Tests
end

section
/-! Accesses of one word through a window, and those of a reserved offset (R5). -/

namespace Sys2Proof.Machine

/-! ### Latency messages -/

/-- Where no context began or ceased to run, a port has nothing to announce (R280). -/
theorem ltrPort_self (port : Nat) (s : State) : ltrPort s port s = s := by
  have hnew : (running s port).any (fun c => decide (c ∉ running s port)) = false := by simp
  have hold : ¬ (running s port ≠ [] ∧ running s port = []) := fun h => h.1 h.2
  simp only [ltrPort, hnew, if_neg hold, Bool.false_eq_true, if_false, ite_self]

theorem ltrSync_eq_self {f : State → State} {s : State} (hf : f s = s) : ltrSync f s = s := by
  simp only [ltrSync, hf, ltrPort_self]

/-! ### What a window shows -/

/-- A VF's window shows none but context pages (R230). -/
theorem reaches_vf_page {s : State} {n f p : Nat} (hr : reaches s (.vf n f) p = true) : 0x1000 ≤ p := by
  simp only [reaches, Bool.and_eq_true, decide_eq_true_eq] at hr
  omega

theorem winPage_of_reaches {s : State} {w : Win} {p : Nat} (hr : reaches s w p = true) : winPage s w p = p := by
  cases w with
  | pf n => rfl
  | core n => rfl
  | vf n f =>
    have hp := reaches_vf_page hr
    exact if_neg (by omega)

/-- Below 0x2000 no page that a window reaches is a doorbell page. -/
theorem isBell_of_reaches {s : State} {w : Win} {p : Nat} (hr : reaches s w p = true) (hp : p < 0x2000) : isBell w p = false := by
  cases w with
  | pf n => exact decide_eq_false (by omega)
  | core n => rfl
  | vf n f =>
    have hc := reaches_vf_page hr
    exact decide_eq_false (by omega)

theorem shapeOk_word {off : Nat} (ha : off % 4 = 0) : shapeOk off 4 = true := by simp [shapeOk, ha]

section Word
variable {w : Win} {p off : Nat} {s : State}
variable (hopen : winOpen s w = true) (hon : winOff s w = false) (hr : reaches s w p = true) (hp : p < 0x2000) (ha : off % 4 = 0)
include hopen hon hr hp ha

/-- An aligned write of one word to a page within reach is the write of that word: nothing of R260, R275 and R277 turns it away. -/
theorem busWrite_word (v : Nat) (vr : VaultRead) :
    busWrite w p off 4 v false vr s = wordWrite w p off (v % 2 ^ 32) vr s := by
  have hcfg : p ≠ 0x3000 := by omega
  simp [busWrite, hopen, hon, hcfg, isBell_of_reaches hr hp, shapeOk_word ha, winPage_of_reaches hr]

/-- An aligned read of one word of a page within reach answers with that word. -/
theorem busRead_word :
    busRead w p off 4 s = bumpFresh (emit (.read w p off (wordRead w p off s).1) (wordRead w p off s).2) := by
  have hcfg : p ≠ 0x3000 := by omega
  simp [busRead, hopen, hon, hcfg, isBell_of_reaches hr hp, shapeOk_word ha, winPage_of_reaches hr]

end Word

/-! ### Reserved offsets -/

/-- A reserved offset holds no row of the page's table, or lies past what a VF's status page shows of it (R230). -/
theorem rowsAt_eq_nil_of_not_isRegister {s : State} {w : Win} {p off : Nat} (hn : isRegister s w p off = false) :
    (isVf w = true ∧ 0x80 ≤ off) ∨ rowsAt s p off = [] := by
  simp only [isRegister, Bool.or_eq_false_iff, Bool.and_eq_false_iff, Bool.not_eq_false', Bool.and_eq_true, decide_eq_true_eq,
    List.isEmpty_iff] at hn
  exact hn.1.1

theorem pageRead_reserved {s : State} {w : Win} {p off : Nat} (hn : isRegister s w p off = false) : pageRead w p off s = (0, s) := by
  simp [pageRead, hn]

section Reserved
variable {w : Win} {p off : Nat} {s : State} (hown : pageOffset w p off = true) (hn : isRegister s w p off = false)
include hown hn

/-- The write of a word at a reserved offset is discarded. -/
theorem wordWrite_reserved (v : Nat) (vr : VaultRead) : wordWrite w p off v vr s = s := by
  have hrows := rowsAt_eq_nil_of_not_isRegister hn
  cases w with
  | core n =>
    have hnil : rowsAt s p off = [] := hrows.resolve_left (fun h => nomatch h.1)
    simp [wordWrite, hnil]
  | pf n =>
    have hnil : rowsAt s p off = [] := hrows.resolve_left (fun h => nomatch h.1)
    have htable : ¬ (0xF00 ≤ p ∧ p ≤ 0xF07) := by
      simp only [pageOffset, Bool.or_eq_true, decide_eq_true_eq] at hown
      omega
    simp only [wordWrite, if_neg htable, hnil, List.isEmpty_nil, if_true]
  | vf n f =>
    have htable : ¬ 0x800 ≤ off := Nat.not_le.2 (of_decide_eq_true hown)
    have hres : p = 1 ∨ 0x80 ≤ off ∨ (rowsAt s p off).isEmpty = true :=
      .inr (hrows.imp And.right List.isEmpty_iff.2)
    simp only [wordWrite, if_neg htable, if_pos hres, ite_self]

/-- The word read at a reserved offset is zero, and the read changes nothing. -/
theorem wordRead_reserved (hr : reaches s w p = true) : wordRead w p off s = (0, s) := by
  cases w with
  | core n => exact pageRead_reserved hn
  | pf n =>
    simp only [pageOffset, Bool.or_eq_true, decide_eq_true_eq] at hown
    have htable : ¬ (0xF00 ≤ p ∧ p ≤ 0xF07) := by omega
    have hpba : p ≠ 0xF08 := by omega
    simp only [wordRead, if_neg htable, if_neg hpba, pageRead_reserved hn]
  | vf n f =>
    have hoff : off < 0x800 := of_decide_eq_true hown
    have hpage : p ≠ 1 := by have := reaches_vf_page hr; omega
    have hpba : ¬ 0xC00 ≤ off := by omega
    have htable : ¬ 0x800 ≤ off := by omega
    simp only [wordRead, if_neg hpba, if_neg htable, if_neg hpage, pageRead_reserved hn, ite_self]

end Reserved

/-- Settles O6: the access reaches the page as one word, no field of the page stands at the offset, and no context begins or ceases to
run, so no latency message follows the write. -/
theorem reservedOffsetsDoNothing : Obligations.ReservedOffsetsDoNothing := by
  unfold Obligations.ReservedOffsetsDoNothing
  intro w p off v vr s hopen hon hr hp hlt ha hown hn
  have hunit : decide (p ≤ 0x3000 ∧ off < 4096) = true := decide_eq_true ⟨by omega, hlt⟩
  constructor
  · have hbus : busWrite w p off 4 v false vr s = s := by
      rw [busWrite_word hopen hon hr hp ha, wordWrite_reserved hown hn]
    simp only [exec_registerWrite, execRegisterWrite, run, hunit, if_true, ltrSync_eq_self hbus]
  · have hbus : busRead w p off 4 s = bumpFresh (emit (.read w p off 0) s) := by
      rw [busRead_word hopen hon hr hp ha, wordRead_reserved hown hn hr]
    simp only [exec_registerRead, execRegisterRead, run, hunit, if_true, hbus]
    rfl

end Sys2Proof.Machine
end

section
/-! Accesses that the rights of a page refuse (R416): how an access reaches the gate of its page, and what a denial changes. -/

namespace Sys2Proof.Machine
open Reg

/-! ### Effects that start and stop no ring -/

/-- Where the same contexts run as before, a port has nothing to announce (R280). -/
theorem ltrPort_of_running_eq {before s : State} {port : Nat} (h : running s port = running before port) : ltrPort before port s = s := by
  have hnew : (running s port).any (fun c => decide (c ∉ running before port)) = false := by simp [h]
  have hold : ¬ (running before port ≠ [] ∧ running s port = []) := fun ⟨hne, hnil⟩ => hne (h ▸ hnil)
  simp only [ltrPort, hnew, if_neg hold, Bool.false_eq_true, if_false, ite_self]

theorem ltrSync_of_running_eq {f : State → State} {s : State} (h : ∀ port, running (f s) port = running s port) : ltrSync f s = f s := by
  simp only [ltrSync, ltrPort_of_running_eq (h _)]

/-! ### The way of a word to its page -/

theorem pageOffset_pf {n p off : Nat} : pageOffset (.pf n) p off = true ↔ p < 0xF00 ∨ 0xF08 < p := by
  simp [pageOffset]

theorem winHas_of_reaches {s : State} {w : Win} {p : Nat} (hr : reaches s w p = true) : winHas w p = true := by
  cases w with
  | pf n => rfl
  | core n => rfl
  | vf n f => exact decide_eq_true (reaches_vf_page hr)

/-- The status page that a VF sees ends at 0x07F (R230). -/
theorem off_lt_of_isRegister_vf {s : State} {n f p off : Nat} (hp : 0x1000 ≤ p) (hreg : isRegister s (.vf n f) p off = true) : off < 0x80 := by
  have h8 : p ≠ 8 := by omega
  have h6 : p ≠ 6 := by omega
  simp only [isRegister, isVf, h8, h6, decide_false, Bool.false_and, Bool.or_false, Bool.true_and, Bool.and_eq_true,
    Bool.not_eq_true', decide_eq_false_iff_not] at hreg
  exact Nat.not_le.1 hreg.1

section Own
variable {w : Win} {p off : Nat} {s : State} (hr : reaches s w p = true) (hown : pageOffset w p off = true)
include hr hown

/-- A word written to a register of a page within reach meets the page's gate. -/
theorem wordWrite_register (hreg : isRegister s w p off = true) (hrows : rowsAt s p off ≠ []) (v : Nat) (vr : VaultRead) :
    wordWrite w p off v vr s = guardWrite w p (regWrite w p off v vr) s := by
  have hfld : (rowsAt s p off).isEmpty = false := by simpa using hrows
  cases w with
  | core n => simp [wordWrite, hfld]
  | pf n =>
    have htable : ¬ (0xF00 ≤ p ∧ p ≤ 0xF07) := by have := pageOffset_pf.1 hown; omega
    simp only [wordWrite, if_neg htable, hfld, Bool.false_eq_true, if_false]
  | vf n f =>
    have hpage := reaches_vf_page hr
    have hoff := off_lt_of_isRegister_vf hpage hreg
    have hseen : ¬ (p ≠ 1 ∧ !reaches s (.vf n f) p) := by simp [hr]
    have htable : ¬ 0x800 ≤ off := by omega
    have hshown : ¬ (p = 1 ∨ 0x80 ≤ off ∨ (rowsAt s p off).isEmpty = true) := by
      rw [hfld]; simp only [Bool.false_eq_true, or_false]; omega
    simp only [wordWrite, if_neg hseen, if_neg htable, if_neg hshown]

/-- A word read at an offset of a page's own is read from the page. -/
theorem wordRead_page : wordRead w p off s = pageRead w p off s := by
  cases w with
  | core n => rfl
  | pf n =>
    have hplace := pageOffset_pf.1 hown
    have htable : ¬ (0xF00 ≤ p ∧ p ≤ 0xF07) := by omega
    have hpba : p ≠ 0xF08 := by omega
    simp only [wordRead, if_neg htable, if_neg hpba]
  | vf n f =>
    have hoff : off < 0x800 := of_decide_eq_true hown
    have hseen : ¬ (p ≠ 1 ∧ !reaches s (.vf n f) p) := by simp [hr]
    have hpage : p ≠ 1 := by have := reaches_vf_page hr; omega
    have hpba : ¬ 0xC00 ≤ off := by omega
    have htable : ¬ 0x800 ≤ off := by omega
    simp only [wordRead, if_neg hseen, if_neg hpba, if_neg htable, if_neg hpage]

end Own

theorem pageRead_denied {s : State} {w : Win} {p off : Nat} (hreg : isRegister s w p off = true) (hrights : canRead s w p = false) :
    pageRead w p off s = (0, denied w p s) := by
  simp [pageRead, hreg, hrights]

/-! ### Events and counts -/

/-- An event of a page changes the registers alone. -/
theorem setEvtBits_frame (p bits : Nat) (s : State) : { setEvtBits p bits s with regs := s.regs } = s := by
  unfold setEvtBits
  dsimp only
  split <;> rfl

/-- Of a page's registers an event changes PG_EVT and PG_EVT_FIRST alone. -/
theorem getFld_setEvtBits_ne {p : Nat} {f : FRef} (hevt : f.key ≠ (PG_EVT_EVT p).key) (hbit : f.key ≠ (PG_EVT_FIRST_BIT p).key)
    (hvalid : f.key ≠ (PG_EVT_FIRST_VALID p).key) (bits : Nat) (s : State) : getFld (setEvtBits p bits s) f = getFld s f := by
  unfold setEvtBits
  dsimp only
  split
  · rw [getFld_setFld_ne hvalid, getFld_setFld_ne hbit, getFld_setFld_ne hevt]
  · rw [getFld_setFld_ne hevt]

/-- PG_EVT gains the bits of an event. -/
theorem getFld_setEvtBits_evt (p bits : Nat) (s : State) :
    getFld (setEvtBits p bits s) (PG_EVT_EVT p) = (getFld s (PG_EVT_EVT p) ||| bits) % 2 ^ 32 := by
  have hbit : (PG_EVT_EVT p).key ≠ (PG_EVT_FIRST_BIT p).key := key_ne_of_place rfl rfl (by simp [PG_EVT_EVT, PG_EVT_FIRST_BIT])
  have hvalid : (PG_EVT_EVT p).key ≠ (PG_EVT_FIRST_VALID p).key := key_ne_of_place rfl rfl (by simp [PG_EVT_EVT, PG_EVT_FIRST_VALID])
  unfold setEvtBits
  dsimp only
  split
  · rw [getFld_setFld_ne hvalid, getFld_setFld_ne hbit, getFld_setFld_self]; rfl
  · rw [getFld_setFld_self]; rfl

/-- A raised event reads as 1 in PG_EVT (R440). -/
theorem testBit_setEvt (p : Nat) {bit : Nat} (hb : bit < 32) (s : State) : (getFld (setEvt p bit s) (PG_EVT_EVT p)).testBit bit = true := by
  rw [setEvt, getFld_setEvtBits_evt, Nat.testBit_mod_two_pow, Nat.testBit_or, Nat.testBit_two_pow_self, Bool.or_true, Bool.and_true]
  exact decide_eq_true hb

theorem smGetD_smUpd_self {α : Type} (m : SMap α) (a : Nat) (d : α) (f : α → α) : smGetD (smUpd m a d f) a d = f (smGetD m a d) := by
  simp only [smUpd, smGetD, smGet_smSet_self, Option.getD_some]

/-- A COUNT measure grows by what is added to it (R427). -/
theorem counts_sketchCount_self (code n : Nat) (s : State) :
    smGetD (sketchCount code n s).evr.counts code 0 = smGetD s.evr.counts code 0 + n :=
  smGetD_smUpd_self s.evr.counts code 0 (· + n)

/-! ### What a denial changes -/

/-- A denial counts action 9 of Table ROLE-5, which sets no EXTREME (R425). -/
theorem denied_eq (w : Win) (p : Nat) (s : State) :
    denied w p s = sketchCount (0x4100 + 16 * winRole s w + 9) 1 (setEvt 3 ROLE_EVT_DENIED (incFld ROLE_DENY_COUNT 1 s)) := rfl

theorem getFld_denied (w : Win) (p : Nat) (s : State) (f : FRef) :
    getFld (denied w p s) f = getFld (setEvt 3 ROLE_EVT_DENIED (incFld ROLE_DENY_COUNT 1 s)) f :=
  getFld_of_regs (roleAction_regs ..) f

/-- A denial leaves everything but the registers and the Sketchbook's measures. -/
theorem denied_frame (w : Win) (p : Nat) (s : State) : { denied w p s with regs := s.regs, evr := s.evr } = s := by
  have hevt := setEvtBits_frame 3 (2 ^ ROLE_EVT_DENIED) (incFld ROLE_DENY_COUNT 1 s)
  exact congrArg (fun t => { t with regs := s.regs, evr := s.evr }) hevt

@[simp] theorem denied_io (w : Win) (p : Nat) (s : State) : (denied w p s).io = s.io := (congrArg State.io (denied_frame w p s) :)
@[simp] theorem denied_store (w : Win) (p : Nat) (s : State) : (denied w p s).store = s.store := (congrArg State.store (denied_frame w p s) :)
@[simp] theorem denied_out (w : Win) (p : Nat) (s : State) : (denied w p s).out = s.out := (congrArg State.out (denied_frame w p s) :)

/-- The fields that a denial may change: ROLE_DENY and the event fields of the role page. -/
def deniedFields : List FRef := [ROLE_DENY_COUNT, PG_EVT_EVT 3, PG_EVT_FIRST_BIT 3, PG_EVT_FIRST_VALID 3]

/-- A denial leaves every other register as it was. -/
theorem getFld_denied_ne {f : FRef} (h : ∀ g ∈ deniedFields, f.key ≠ g.key) (w : Win) (p : Nat) (s : State) :
    getFld (denied w p s) f = getFld s f := by
  obtain ⟨hdeny, hevt, hbit, hvalid⟩ : f.key ≠ ROLE_DENY_COUNT.key ∧ f.key ≠ (PG_EVT_EVT 3).key ∧ f.key ≠ (PG_EVT_FIRST_BIT 3).key ∧
      f.key ≠ (PG_EVT_FIRST_VALID 3).key := by simpa [deniedFields] using h
  rw [getFld_denied, setEvt, getFld_setEvtBits_ne hevt hbit hvalid, incFld, getFld_setFld_ne hdeny]

/-- ROLE_DENY counts a denial and wraps at its width (R416). -/
theorem getFld_denied_count (w : Win) (p : Nat) (s : State) :
    getFld (denied w p s) ROLE_DENY_COUNT = (getFld s ROLE_DENY_COUNT + 1) % 2 ^ ROLE_DENY_COUNT.width := by
  rw [getFld_denied, setEvt, getFld_setEvtBits_ne (by decide) (by decide) (by decide), incFld, getFld_setFld_self]

/-- A denial raises DENIED on the role page (R416). -/
theorem testBit_denied (w : Win) (p : Nat) (s : State) : (getFld (denied w p s) (PG_EVT_EVT 3)).testBit ROLE_EVT_DENIED = true := by
  rw [getFld_denied]
  exact testBit_setEvt 3 (by decide) _

/-- A denial is counted against the role that made it (Table ROLE-5, action 9). -/
theorem counts_denied (w : Win) (p : Nat) (s : State) :
    smGetD (denied w p s).evr.counts (0x4100 + 16 * winRole s w + 9) 0 = smGetD s.evr.counts (0x4100 + 16 * winRole s w + 9) 0 + 1 := by
  have hevr : (setEvt 3 ROLE_EVT_DENIED (incFld ROLE_DENY_COUNT 1 s)).evr = s.evr :=
    (congrArg State.evr (setEvtBits_frame 3 (2 ^ ROLE_EVT_DENIED) (incFld ROLE_DENY_COUNT 1 s)) :)
  rw [denied_eq, counts_sketchCount_self, hevr]

/-- No register of a context page is one that a denial changes. -/
theorem getFld_denied_ctx {f : FRef} (hf : 0x1000 ≤ f.page) (w : Win) (p : Nat) (s : State) : getFld (denied w p s) f = getFld s f := by
  have hkey : 2 ^ 29 ≤ f.key := by unfold FRef.key; omega
  have hrole : ∀ g ∈ deniedFields, g.key < 2 ^ 29 := by decide
  exact getFld_denied_ne (fun g hg => (lt_of_lt_of_le (hrole g hg) hkey).ne') w p s

/-- A denial starts and stops no context's rings. -/
theorem running_denied (w : Win) (p port : Nat) (s : State) : running (denied w p s) port = running s port := by
  have hvalid (c : Nat) : isSet (denied w p s) (CTX_BIND_VALID c) = isSet s (CTX_BIND_VALID c) := by
    unfold isSet
    rw [getFld_denied_ctx (Nat.le_add_right 0x1000 c)]
  have hport (c : Nat) : ctxPort (denied w p s) c = ctxPort s c := getFld_denied_ctx (Nat.le_add_right 0x1000 c) w p s
  have hstate (c : Nat) : ctxState (denied w p s) c = ctxState s c := getFld_denied_ctx (Nat.le_add_right 0x1000 c) w p s
  simp only [running, denied_io, hvalid, hport, hstate]

/-- Settles O7: the word reaches the gate of its page, where the rights turn it away; the denial changes registers of the role page and
the count of one measure alone, so no context begins or ceases to run and no latency message follows the write. -/
theorem rightsRefuseAccesses : Obligations.RightsRefuseAccesses := by
  unfold Obligations.RightsRefuseAccesses
  refine ⟨?write, ?read, ?denial⟩
  case write =>
    intro w p off v vr s hopen hon hr hp hlt ha hown hreg hrows hrights
    have hunit : decide (p ≤ 0x3000 ∧ off < 4096) = true := decide_eq_true ⟨by omega, hlt⟩
    have hbus : busWrite w p off 4 v false vr s = denied w p s := by
      rw [busWrite_word hopen hon hr hp ha, wordWrite_register hr hown hreg hrows,
        guardWrite_denied hopen hon hrights (winHas_of_reaches hr)]
    have hsync : ltrSync (busWrite w p off 4 v false vr) s = denied w p s := by
      rw [ltrSync_of_running_eq (fun port => by rw [hbus, running_denied]), hbus]
    simp only [exec_registerWrite, execRegisterWrite, hunit, run_true, hsync]
  case read =>
    intro w p off s hopen hon hr hp hlt ha hown hreg hrights
    have hunit : decide (p ≤ 0x3000 ∧ off < 4096) = true := decide_eq_true ⟨by omega, hlt⟩
    have hbus : busRead w p off 4 s = bumpFresh (emit (.read w p off 0) (denied w p s)) := by
      rw [busRead_word hopen hon hr hp ha, wordRead_page hr hown, pageRead_denied hreg hrights]
    simp only [exec_registerRead, execRegisterRead, hunit, run_true, hbus]
  case denial =>
    intro w p s
    exact ⟨getFld_denied_count w p s, testBit_denied w p s, counts_denied w p s, denied_io w p s, denied_store w p s, denied_out w p s⟩

end Sys2Proof.Machine
end

section
/-! Command registers: where they stand, how their words are laid out, and what a word written to one changes (R467). -/

namespace Sys2Proof.Machine
open Reg

/-! ### Rows of fields written from one word -/

theorem putRows_cons (r : RegRow) (rows : List RegRow) (v : Nat) (s : State) :
    putRows (r :: rows) v s = putRows rows v (setFld r.f (wordFld r v) s) := rfl

/-- Writing rows changes the registers alone. -/
theorem putRows_frame (rows : List RegRow) (v : Nat) (s : State) : { putRows rows v s with regs := s.regs } = s := by
  induction rows generalizing s with
  | nil => rfl
  | cons r rs ih => exact congrArg (fun t => { t with regs := s.regs }) (ih (setFld r.f (wordFld r v) s))

theorem getFld_putRows_ne {rows : List RegRow} {f : FRef} (h : ∀ r ∈ rows, f.key ≠ r.f.key) (v : Nat) (s : State) :
    getFld (putRows rows v s) f = getFld s f := by
  induction rows generalizing s with
  | nil => rfl
  | cons r rs ih =>
    obtain ⟨hr, hrs⟩ := List.forall_mem_cons.1 h
    rw [putRows_cons, ih hrs, getFld_setFld_ne hr]

/-- A field that is written takes its bits of the word. -/
theorem getFld_putRows_mem {rows : List RegRow} {f : FRef} (hmem : ∃ r ∈ rows, r.f = f) (huniq : ∀ r ∈ rows, r.f.key = f.key → r.f = f)
    (v : Nat) (s : State) : getFld (putRows rows v s) f = bitsOf v f.lo f.width := by
  induction rows generalizing s with
  | nil => simp at hmem
  | cons r rs ih =>
    obtain ⟨-, hrs⟩ := List.forall_mem_cons.1 huniq
    rw [putRows_cons]
    by_cases hlater : ∃ q ∈ rs, q.f = f
    · exact ih hlater hrs _
    · have hr : r.f = f := by simpa [hlater] using hmem
      have hne : ∀ q ∈ rs, f.key ≠ q.f.key := fun q hq hk => hlater ⟨q, hq, hrs q hq hk.symm⟩
      rw [getFld_putRows_ne hne, wordFld, hr, getFld_setFld_self]
      exact Nat.mod_mod _ _

/-! ### Where the command registers stand -/

/-- The pages with a command register, each with the register's offset (R467). -/
def CmdPlace (p o : Nat) : Prop :=
  (0x80 ≤ p ∧ p ≤ 0xBF ∧ o = 0x80) ∨ (0x20 ≤ p ∧ p ≤ 0x23 ∧ o = 0x98) ∨ (p = 0xD0 ∧ o = 0x6C) ∨ (p = 4 ∧ o = 0xA4) ∨ (p = 6 ∧ o = 0x6C) ∨
  (0x40 ≤ p ∧ p ≤ 0x7F ∧ o = 0x84) ∨ (p = 0x38 ∧ o = 0x94) ∨ (p = 0x28 ∧ o = 0x78) ∨ (p = 0x29 ∧ o = 0x70) ∨ (p = 7 ∧ o = 0x94)

/-- How a page lays out its command register `o` and its result register `res`: OP in the low bits, GO in the top bit and parameters
between them; STATUS and DONE (R467). -/
structure CmdLayout (s : State) (p o res : Nat) (op go st done : FRef) : Prop where
  place : CmdPlace p o
  resNe : res ≠ o
  resOff : 0x40 ≤ res ∧ res < 0x100
  opEq : op = ⟨p, o, 0, 4, 0, 0⟩
  goEq : go = ⟨p, o, 31, 1, 0, 0⟩
  stEq : st = ⟨p, res, 0, 8, 0, 0⟩
  doneEq : done = ⟨p, res, 8, 1, 0, 0⟩
  rows : ∃ m pars, rowsAt s p o = ⟨op, .rwi, 0, m⟩ :: (pars ++ [⟨go, .w1s, 0, 1⟩]) ∧
    ∀ r ∈ pars, r.f.page = p ∧ r.f.off = o ∧ r.f.bank = 0 ∧ 4 ≤ r.f.lo ∧ r.f.lo < 31

theorem runRows_cmd {p o : Nat} (hplace : CmdPlace p o) : runRows p = [] := by
  unfold CmdPlace at hplace
  simp (disch := omega) only [runRows, if_neg]

/-- Above the header an offset of a page holds fields of the page's block alone. -/
theorem rowsAt_block {s : State} {p o : Nat} {rows : List RegRow} (hplace : CmdPlace p o) (hblock : blockRows s p = some rows) :
    rowsAt s p o = rows.filter (fun r => decide (r.f.off = o)) := by
  have hhead : (rowsPG p).filter (fun r => decide (r.f.off = o)) = [] := by
    have hlow := List.all_eq_true.1 (rfl : (rowsPG p).all (fun r => decide (r.f.off < 0x40)) = true)
    refine List.filter_eq_nil_iff.2 fun r hr => ?_
    have := of_decide_eq_true (hlow r hr)
    unfold CmdPlace at hplace
    simp only [decide_eq_true_eq]
    omega
  simp [rowsAt, pageRows, hblock, hhead, runRows_cmd hplace]

theorem cmdLayout_of_block {s : State} {p o res m : Nat} {pars rows : List RegRow} (hplace : CmdPlace p o) (hne : res ≠ o)
    (hres : 0x40 ≤ res ∧ res < 0x100) (hblock : blockRows s p = some rows)
    (hrows : rows.filter (fun r => decide (r.f.off = o)) = ⟨⟨p, o, 0, 4, 0, 0⟩, .rwi, 0, m⟩ :: (pars ++ [⟨⟨p, o, 31, 1, 0, 0⟩, .w1s, 0, 1⟩]))
    (hpars : ∀ r ∈ pars, r.f.page = p ∧ r.f.off = o ∧ r.f.bank = 0 ∧ 4 ≤ r.f.lo ∧ r.f.lo < 31) :
    CmdLayout s p o res ⟨p, o, 0, 4, 0, 0⟩ ⟨p, o, 31, 1, 0, 0⟩ ⟨p, res, 0, 8, 0, 0⟩ ⟨p, res, 8, 1, 0, 0⟩ :=
  ⟨hplace, hne, hres, rfl, rfl, rfl, rfl, m, pars, (rowsAt_block hplace hblock).trans hrows, hpars⟩

theorem allCmdRegs_place {p o : Nat} {op go st done : FRef} (h : allCmdRegs p = some (o, op, go, st, done)) : CmdPlace p o := by
  unfold allCmdRegs cmdRegs at h
  unfold CmdPlace
  split_ifs at h <;> simp only [Option.some.injEq, Prod.mk.injEq] at h <;> omega

/-- Every command register has the layout of R467. -/
theorem allCmdRegs_layout (s : State) {p o : Nat} {op go st done : FRef} (h : allCmdRegs p = some (o, op, go, st, done)) :
    ∃ res, CmdLayout s p o res op go st done := by
  have hplace := allCmdRegs_place h
  unfold allCmdRegs cmdRegs at h
  split_ifs at h with hdpt hdmc htrt hflt hevr hplt hprf hcch hvlt hbem
  · obtain ⟨i, rfl⟩ := Nat.exists_eq_add_of_le hdpt.1
    have hblock : blockRows s (0x80 + i) = some (rowsDPT (0x80 + i - 0x80)) := by simp (disch := omega) only [blockRows, if_neg, if_pos]
    rw [Nat.add_sub_cancel_left] at h hblock
    cases h
    exact ⟨0x84, cmdLayout_of_block (pars := []) hplace (by decide) (by decide) hblock rfl (by simp)⟩
  · obtain ⟨i, rfl⟩ := Nat.exists_eq_add_of_le hdmc.1
    have hblock : blockRows s (0x20 + i) = some (rowsDMC (getFld s) (0x20 + i - 0x20)) := by
      simp (disch := omega) only [blockRows, if_neg, if_pos]
    rw [Nat.add_sub_cancel_left] at h hblock
    cases h
    exact ⟨0x9C, cmdLayout_of_block (pars := []) hplace (by decide) (by decide) hblock rfl (by simp)⟩
  · cases h
    subst htrt
    exact ⟨0x70, cmdLayout_of_block (pars := [⟨TRT_CMD_PLATE, .rwi, 0, 63⟩, ⟨TRT_CMD_NODE, .rwi, 0, 511⟩]) hplace (by decide) (by decide)
      rfl rfl (by decide)⟩
  · cases h
    subst hflt
    exact ⟨0xA8, cmdLayout_of_block (pars := [⟨FLT_CMD_PAGE, .rwi, 0, 1023⟩]) hplace (by decide) (by decide) rfl rfl (by decide)⟩
  · cases h
    subst hevr
    exact ⟨0x70, cmdLayout_of_block (pars := []) hplace (by decide) (by decide) rfl rfl (by simp)⟩
  · obtain ⟨i, rfl⟩ := Nat.exists_eq_add_of_le hplt.1
    have hblock : blockRows s (0x40 + i) = some (rowsPLT (getFld s) (0x40 + i - 0x40)) := by
      simp (disch := omega) only [blockRows, if_neg, if_pos]
    rw [Nat.add_sub_cancel_left] at h hblock
    cases h
    exact ⟨0x90, cmdLayout_of_block (pars := [⟨PLT_CMD_MEMBER i, .rwi, 0, 127⟩]) hplace (by decide) (by decide) hblock rfl
      (by simp [PLT_CMD_MEMBER])⟩
  · cases h
    subst hprf
    exact ⟨0x98, cmdLayout_of_block (pars := [⟨PRF_CMD_PLATE, .rwi, 0, 63⟩]) hplace (by decide) (by decide) rfl rfl (by decide)⟩
  · cases h
    subst hcch
    exact ⟨0x7C, cmdLayout_of_block (pars := [⟨CCH_CMD_VOLUME, .rwi, 0, 16383⟩]) hplace (by decide) (by decide) rfl rfl (by decide)⟩
  · cases h
    subst hvlt
    exact ⟨0x74, cmdLayout_of_block (pars := []) hplace (by decide) (by decide) rfl rfl (by simp)⟩
  · cases h
    subst hbem
    exact ⟨0x98, cmdLayout_of_block (pars := []) hplace (by decide) (by decide) rfl rfl (by simp)⟩

section Layout
variable {s : State} {p o res : Nat} {op go st done : FRef} (hl : CmdLayout s p o res op go st done)
include hl

/-- The places of the four fields and of the page's PG_SEQ. -/
theorem CmdLayout.keys : op.key = p * 2 ^ 17 + o * 32 ∧ go.key = p * 2 ^ 17 + o * 32 + 31 ∧ st.key = p * 2 ^ 17 + res * 32 ∧
    done.key = p * 2 ^ 17 + res * 32 + 8 ∧ (PG_SEQ_COUNT p).key = p * 2 ^ 17 + 0x34 * 32 ∧ p ≤ 0xD0 ∧ 0x40 ≤ o ∧ o < 0x100 := by
  obtain ⟨hplace, -, -, rfl, rfl, rfl, rfl, -⟩ := hl
  unfold CmdPlace at hplace
  simp only [FRef.key, PG_SEQ_COUNT]
  omega

theorem CmdLayout.op_ne : op.key ≠ st.key ∧ op.key ≠ done.key ∧ op.key ≠ (PG_SEQ_COUNT p).key := by
  have hkeys := hl.keys
  have hne := hl.resNe
  omega

theorem CmdLayout.go_ne : go.key ≠ st.key ∧ go.key ≠ done.key ∧ go.key ≠ (PG_SEQ_COUNT p).key := by
  have hkeys := hl.keys
  have hne := hl.resNe
  omega

theorem CmdLayout.st_ne_done : st.key ≠ done.key := by
  have hkeys := hl.keys
  omega

/-- A row of the command register is OP's, GO's, or a parameter's between them. -/
theorem CmdLayout.mem_rows {r : RegRow} (hr : r ∈ rowsAt s p o) :
    r.f = op ∨ (op.key < r.f.key ∧ r.f.key < go.key) ∨ (r.f = go ∧ r.acc = .w1s) := by
  have hkeys := hl.keys
  obtain ⟨m, pars, hrows, hpars⟩ := hl.rows
  rw [hrows] at hr
  rcases List.mem_cons.1 hr with rfl | hr
  · exact .inl rfl
  rcases List.mem_append.1 hr with hr | hr
  · obtain ⟨hpage, hoff, hbank, hlo⟩ := hpars r hr
    refine .inr (.inl ?_)
    have hkey : r.f.key = p * 2 ^ 17 + o * 32 + r.f.lo := by simp [FRef.key, hpage, hoff, hbank]
    omega
  · obtain rfl := List.mem_singleton.1 hr
    exact .inr (.inr ⟨rfl, rfl⟩)

/-- Every row of the command register lies between OP and GO. -/
theorem CmdLayout.key_bounds {r : RegRow} (hr : r ∈ rowsAt s p o) : op.key ≤ r.f.key ∧ r.f.key ≤ go.key := by
  have hkeys := hl.keys
  rcases hl.mem_rows hr with h | h | ⟨h, -⟩
  · rw [h]
    omega
  · omega
  · rw [h]
    omega

theorem CmdLayout.eq_op_of_key {r : RegRow} (hr : r ∈ rowsAt s p o) (hk : r.f.key = op.key) : r.f = op := by
  have hkeys := hl.keys
  rcases hl.mem_rows hr with h | h | ⟨h, -⟩
  · exact h
  · omega
  · rw [h] at hk; omega

theorem CmdLayout.acc_of_go {r : RegRow} (hr : r ∈ rowsAt s p o) (hk : r.f.key = go.key) : r.acc = .w1s := by
  have hkeys := hl.keys
  rcases hl.mem_rows hr with h | h | ⟨-, h⟩
  · rw [h] at hk; omega
  · omega
  · exact h

theorem CmdLayout.opRow : ∃ m, ⟨op, .rwi, 0, m⟩ ∈ rowsAt s p o := by
  obtain ⟨m, pars, hrows, -⟩ := hl.rows
  exact ⟨m, hrows ▸ List.mem_cons_self⟩

end Layout

/-! ### What a write of a command register may do -/

section Place
variable {p o : Nat} (hplace : CmdPlace p o)
include hplace

/-- No rule of its register discards a core's write of a command register. -/
theorem gate_core_cmd (n v : Nat) (s : State) : gate (.core n) p o v s = none := by
  unfold CmdPlace at hplace
  have hrights : ¬ (o = 0x30 ∧ (!isMaker s (.core n)) = true) := by omega
  have hinject : ¬ (p = 4 ∧ o ∈ [0x98, 0x9C] ∧ (!ftest s) = true) := by simp; omega
  simp (disch := omega) only [gate, if_neg hrights, if_neg hinject, if_neg]

theorem wholeOk_cmd (v : Nat) (s : State) : wholeOk s p o v = true := by
  unfold CmdPlace at hplace
  have hlease : ¬ (p = 0xD0 ∧ o ∈ [0x4C, 0x50]) := by simp; omega
  simp (disch := omega) only [wholeOk, if_neg hlease, if_neg]

/-- No field of a command register is another command's to write. -/
theorem ownField_cmd {f : FRef} (hoff : f.off = o) : ownField p f = false := by
  subst hoff
  unfold CmdPlace at hplace
  simp [ownField]
  omega

/-- 0 is a legal value of OP: the rules that the chapters add to a field's range are about fields at other places. -/
theorem legalFld_op_zero {m v : Nat} (hv : bitsOf v 0 4 = 0) (s : State) : legalFld s p v ⟨⟨p, o, 0, 4, 0, 0⟩, .rwi, 0, m⟩ = true := by
  unfold CmdPlace at hplace
  unfold legalFld wordFld
  dsimp only
  rw [hv, if_neg (by simp only [FRef.key, PLT_CFG_CEIL_PCT]; omega), if_neg (by simp only [FRef.key, PWR_TEMP_THR_CRIT_C]; omega),
    if_neg (by simp only [FRef.key, DPT_CFG_X4]; omega), if_neg (by simp only [FRef.key, DPT_CFG_QPAIRS]; omega), if_neg (by omega),
    if_neg (by omega), if_neg (by omega), if_neg (by simp only [FRef.key, TSC_CFG_CAP_UNITS]; omega),
    if_neg (by simp only [FRef.key, EVR_MSEL_CODE]; omega)]
  simp

end Place

/-- The rows whose fields a write of a register changes. -/
def writtenRows (w : Win) (p off v : Nat) (s : State) : List RegRow :=
  (taken (mayInstall s w) (rwlLocked s) s p off v).filter (fun r => !ownField p r.f)

theorem mem_writtenRows {n p off v : Nat} {s : State} {r : RegRow} (hwhole : wholeOk s p off v = true) :
    r ∈ writtenRows (.core n) p off v s ↔ r ∈ rowsAt s p off ∧ (r.acc = .rw ∨ (r.acc = .rwl ∧ rwlLocked s = false) ∨ r.acc = .rwi) ∧
      legalFld s p v r = true ∧ ownField p r.f = false := by
  have hmay : mayInstall s (.core n) = true := rfl
  simp only [writtenRows, taken, hwhole, hmay, if_true, List.mem_filter, Bool.and_eq_true, Bool.or_eq_true, decide_eq_true_eq, Bool.not_eq_true',
    Bool.and_true, and_assoc, or_assoc]

theorem putFields_core (n p off v : Nat) (s : State) : putFields (.core n) p off v s =
    if seqCounts p off then seqIf p s (putRows (writtenRows (.core n) p off v s) v s) else putRows (writtenRows (.core n) p off v s) v s := by
  have hmay : mayInstall s (.core n) = true := rfl
  have hneed : needRole (.core n) s = s := rfl
  simp only [putFields, writtenRows, hneed, ite_self, hmay, Bool.not_true, Bool.false_and, Bool.false_eq_true, if_false]

theorem getFld_putFields_core {f : FRef} {p : Nat} (hseq : f.key ≠ (PG_SEQ_COUNT p).key) (n off v : Nat) (s : State) :
    getFld (putFields (.core n) p off v s) f = getFld (putRows (writtenRows (.core n) p off v s) v s) f := by
  rw [putFields_core]
  split
  · exact seqIf_getFld p s _ hseq
  · rfl

theorem seqIf_frame (p : Nat) (b t : State) : { seqIf p b t with regs := t.regs } = t := by
  unfold seqIf
  split <;> rfl

/-- A core's write of a register's fields changes the registers alone. -/
theorem putFields_core_frame (n p off v : Nat) (s : State) : { putFields (.core n) p off v s with regs := s.regs } = s := by
  have hput := putRows_frame (writtenRows (.core n) p off v s) v s
  rw [putFields_core]
  split
  · exact (congrArg (fun t => { t with regs := s.regs }) (seqIf_frame p s _)).trans hput
  · exact hput

end Sys2Proof.Machine
end

section
/-! Command registers whose GO is written with no operation or a reserved one (R467). -/

namespace Sys2Proof.Machine
open Reg

/-! ### A core's write that ends the operation -/

section Core
variable {s : State} {p o res v : Nat} {op go st done : FRef} (hl : CmdLayout s p o res op go st done)
include hl

/-- A row that a write of the command register changes is OP's or a parameter's. -/
theorem CmdLayout.mem_written {n : Nat} {r : RegRow} (hr : r ∈ writtenRows (.core n) p o v s) :
    r ∈ rowsAt s p o ∧ r.f.key ≠ go.key ∧ legalFld s p v r = true := by
  obtain ⟨hrow, hacc, hlegal, -⟩ := (mem_writtenRows (wholeOk_cmd hl.place v s)).1 hr
  refine ⟨hrow, fun hk => ?_, hlegal⟩
  have hgo := hl.acc_of_go hrow hk
  rw [hgo] at hacc
  simp at hacc

theorem CmdLayout.getFld_op_zero (hzero : bitsOf v op.lo op.width = 0) (n : Nat) : getFld (putFields (.core n) p o v s) op = 0 := by
  obtain ⟨-, -, hseq⟩ := hl.op_ne
  obtain ⟨m, hrow⟩ := hl.opRow
  have hplace := hl.place
  have hlegal : legalFld s p v ⟨op, .rwi, 0, m⟩ = true := by
    have hop := hl.opEq
    subst hop
    exact legalFld_op_zero hplace hzero s
  have hoff : op.off = o := by rw [hl.opEq]
  have hwritten : ⟨op, .rwi, 0, m⟩ ∈ writtenRows (.core n) p o v s :=
    (mem_writtenRows (wholeOk_cmd hplace v s)).2 ⟨hrow, .inr (.inr rfl), hlegal, ownField_cmd hplace hoff⟩
  rw [getFld_putFields_core hseq, getFld_putRows_mem ⟨_, hwritten, rfl⟩ (fun r hr hk => hl.eq_op_of_key (hl.mem_written hr).1 hk), hzero]

/-- A field outside the command register is not written, and neither is GO. -/
theorem CmdLayout.getFld_putFields {f : FRef} (hf : f.key < op.key ∨ go.key ≤ f.key) (hseq : f.key ≠ (PG_SEQ_COUNT p).key) (n : Nat) :
    getFld (putFields (.core n) p o v s) f = getFld s f := by
  rw [getFld_putFields_core hseq, getFld_putRows_ne]
  intro r hr hk
  obtain ⟨hrow, hgo, -⟩ := hl.mem_written hr
  have hbounds := hl.key_bounds hrow
  omega

/-- A reserved code leaves OP as it was (R4). -/
theorem CmdLayout.getFld_op_reserved (hbad : ∀ r ∈ rowsAt s p o, r.f.key = op.key → legalFld s p v r = false) (n : Nat) :
    getFld (putFields (.core n) p o v s) op = getFld s op := by
  obtain ⟨-, -, hseq⟩ := hl.op_ne
  rw [getFld_putFields_core hseq, getFld_putRows_ne]
  intro r hr hk
  obtain ⟨hrow, -, hlegal⟩ := hl.mem_written hr
  simp [hbad r hrow hk.symm] at hlegal

/-- GO with OP 0 or a reserved code ends the operation at once (R467). -/
theorem CmdLayout.goWrite_ends (hgo : isSet s go = false)
    (hend : bitsOf v op.lo op.width = 0 ∨ ∀ r ∈ rowsAt s p o, r.f.key = op.key → legalFld s p v r = false) (n : Nat) :
    goWrite (.core n) p o v (op, go, st, done) s = setFld done 1 (setFld st 2 (putFields (.core n) p o v s)) := by
  have hbad : ((rowsAt s p o).any (fun r => decide (r.f.key = op.key) && !legalFld s p v r)) = true ∨ getFld (putFields (.core n) p o v s) op = 0 := by
    rcases hend with hzero | hbad
    · exact .inr (hl.getFld_op_zero hzero n)
    · obtain ⟨m, hrow⟩ := hl.opRow
      exact .inl (List.any_eq_true.2 ⟨_, hrow, by simp [hbad _ hrow rfl]⟩)
  simp only [goWrite, hgo, Bool.false_eq_true, if_false, if_pos hbad]
  rfl

end Core

/-- A core's write of a command register with GO is the write of GO. -/
theorem busWrite_core_cmd {s : State} {p o res v : Nat} {op go st done : FRef} (h : allCmdRegs p = some (o, op, go, st, done))
    (hl : CmdLayout s p o res op go st done) (hv : v < 2 ^ 32) (hbit : v.testBit 31 = true) (n : Nat) (vr : VaultRead) :
    busWrite (.core n) p o 4 v false vr s = goWrite (.core n) p o v (op, go, st, done) s := by
  have hplace := hl.place
  obtain ⟨m, hrow⟩ := hl.opRow
  have hrows : rowsAt s p o ≠ [] := List.ne_nil_of_mem hrow
  have hreg : isRegister s (.core n) p o = true := by simp [isRegister, isVf, hrows]
  have hreach : reaches s (.core n) p = true := by
    by_contra hno
    have hnone : blockRows s p = none := by simpa [reaches] using hno
    exact hrows (by simp [rowsAt, pageRows, hnone, runRows_cmd hplace])
  have hpass : Passes (.core n) p s := ⟨rfl, rfl, rfl, fun hp => by unfold CmdPlace at hplace; omega, rfl⟩
  have hp : p < 0x2000 := by unfold CmdPlace at hplace; omega
  have ha : o % 4 = 0 := by unfold CmdPlace at hplace; omega
  rw [busWrite_word rfl rfl hreach hp ha, Nat.mod_eq_of_lt hv, wordWrite_register hreach rfl hreg hrows, guardWrite_pass hpass]
  simp only [regWrite, admitted, gate_core_cmd hplace, h, hbit, and_self, if_true]

/-- The same contexts run where neither the contexts known nor the fields of their pages differ. -/
theorem running_congr {s t : State} (hio : t.io = s.io) (hctx : ∀ f : FRef, 0x1000 ≤ f.page → getFld t f = getFld s f) (port : Nat) :
    running t port = running s port := by
  have hvalid (c : Nat) : isSet t (CTX_BIND_VALID c) = isSet s (CTX_BIND_VALID c) := by
    unfold isSet
    rw [hctx _ (Nat.le_add_right 0x1000 c)]
  have hport (c : Nat) : ctxPort t c = ctxPort s c := hctx _ (Nat.le_add_right 0x1000 c)
  have hstate (c : Nat) : ctxState t c = ctxState s c := hctx _ (Nat.le_add_right 0x1000 c)
  simp only [running, hio, hvalid, hport, hstate]

/-- The state after an operation that ends at once: the write's fields are taken, STATUS is INVALID_FIELD and DONE is set. -/
def cmdInvalid (n p o v : Nat) (st done : FRef) (s : State) : State := setFld done 1 (setFld st 2 (putFields (.core n) p o v s))

/-- An operation that ends at once changes the registers alone. -/
theorem cmdInvalid_frame (n p o v : Nat) (st done : FRef) (s : State) : { cmdInvalid n p o v st done s with regs := s.regs } = s :=
  putFields_core_frame n p o v s

section Invalid
variable {s : State} {p o res v : Nat} {op go st done : FRef} (hl : CmdLayout s p o res op go st done) (n : Nat)

theorem getFld_cmdInvalid {f : FRef} (hst : f.key ≠ st.key) (hdone : f.key ≠ done.key) :
    getFld (cmdInvalid n p o v st done s) f = getFld (putFields (.core n) p o v s) f := by
  rw [cmdInvalid, getFld_setFld_ne hdone, getFld_setFld_ne hst]

include hl

theorem isSet_cmdInvalid_done : isSet (cmdInvalid n p o v st done s) done = true := by
  rw [isSet, cmdInvalid, getFld_setFld_self, hl.doneEq]
  rfl

theorem getFld_cmdInvalid_st : getFld (cmdInvalid n p o v st done s) st = 2 := by
  rw [cmdInvalid, getFld_setFld_ne hl.st_ne_done, getFld_setFld_self, hl.stEq]
  rfl

theorem isSet_cmdInvalid_go : isSet (cmdInvalid n p o v st done s) go = isSet s go := by
  obtain ⟨hst, hdone, hseq⟩ := hl.go_ne
  rw [isSet, getFld_cmdInvalid n hst hdone, hl.getFld_putFields (.inr le_rfl) hseq, isSet]

/-- An operation that ends at once touches no context's page. -/
theorem getFld_cmdInvalid_ctx {f : FRef} (hf : 0x1000 ≤ f.page) : getFld (cmdInvalid n p o v st done s) f = getFld s f := by
  have hkey : 2 ^ 29 ≤ f.key := by unfold FRef.key; omega
  obtain ⟨-, hgo, hst, hdone, hseq, hp, -, ho⟩ := hl.keys
  have hres := hl.resOff
  rw [getFld_cmdInvalid n (by omega) (by omega), hl.getFld_putFields (.inr (by omega)) (by omega)]

end Invalid

/-- A core's write of GO with OP 0 or a reserved code, as a command of the device. -/
theorem exec_registerWrite_cmdInvalid {n p o v : Nat} {op go st done : FRef} {vr : VaultRead} {s : State} {res : Nat}
    (h : allCmdRegs p = some (o, op, go, st, done)) (hl : CmdLayout s p o res op go st done) (hv : v < 2 ^ 32) (hbit : v.testBit 31 = true)
    (hgo : isSet s go = false)
    (hend : bitsOf v op.lo op.width = 0 ∨ ∀ r ∈ rowsAt s p o, r.f.key = op.key → legalFld s p v r = false) :
    exec (.registerWrite (.core n) p o 4 v false vr) s = .next (cmdInvalid n p o v st done s) := by
  have hbus : busWrite (.core n) p o 4 v false vr s = cmdInvalid n p o v st done s := by
    rw [busWrite_core_cmd h hl hv hbit, hl.goWrite_ends hgo hend, cmdInvalid]
  have hio : (cmdInvalid n p o v st done s).io = s.io := (congrArg State.io (cmdInvalid_frame n p o v st done s) :)
  have hsync : ltrSync (busWrite (.core n) p o 4 v false vr) s = cmdInvalid n p o v st done s := by
    rw [ltrSync_of_running_eq (fun port => by rw [hbus]; exact running_congr hio (fun f hf => getFld_cmdInvalid_ctx hl n hf) port), hbus]
  have hunit : decide (p ≤ 0x3000 ∧ o < 4096) = true := by
    have hkeys := hl.keys
    exact decide_eq_true (by omega)
  simp only [exec_registerWrite, execRegisterWrite, hunit, run_true, hsync]

/-! ### BLOCK_CMD with no operation or a reserved one -/

/-- The pages that BLOCK_CMD accepts are pages with a command register (R222). -/
theorem allCmdRegs_of_cmdRegs {p : Nat} {q : Nat × FRef × FRef × FRef × FRef} (h : cmdRegs p = some q) : allCmdRegs p = some q := by
  have hp : (0x40 ≤ p ∧ p ≤ 0x7F) ∨ p = 0x38 ∨ p = 0x28 ∨ p = 0x29 ∨ p = 7 := by
    unfold cmdRegs at h
    split_ifs at h <;> omega
  simp (disch := omega) only [allCmdRegs, if_neg]
  exact h

/-- 0 is the code of no operation. -/
theorem pageOp_zero (p : Nat) (md : PlateMedia) (ok1 ok2 : Bool) (rate nonce : Nat) : pageOp p 0 md ok1 ok2 rate nonce = none := by
  unfold pageOp
  split_ifs <;> rfl

/-- The rows that a command value loads. -/
def loadedRows (s : State) (p off v : Nat) (go : FRef) : List RegRow :=
  (pageRows s p).filter (fun r => decide (r.f.off = off ∧ r.f.key ≠ go.key ∧ codeOk r v = true))

theorem loadCmd_eq_putRows (s : State) (p off v : Nat) (go : FRef) : loadCmd s p off v go = putRows (loadedRows s p off v go) v s := by
  simp only [loadCmd, putRows, loadedRows, wordFld, List.foldl_filter, decide_eq_true_eq]

theorem mem_loadedRows {s : State} {p off v : Nat} {go : FRef} {r : RegRow} :
    r ∈ loadedRows s p off v go ↔ r ∈ pageRows s p ∧ r.f.off = off ∧ r.f.key ≠ go.key ∧ codeOk r v = true := by
  simp [loadedRows]

section Block
variable {s : State} {p o res v : Nat} {op go st done : FRef} (hl : CmdLayout s p o res op go st done)
include hl

/-- The rows of a page's table at the command register are all its rows. -/
theorem CmdLayout.mem_rowsAt_iff {r : RegRow} : r ∈ rowsAt s p o ↔ r ∈ pageRows s p ∧ r.f.off = o := by
  have hruns : runRows p = [] := runRows_cmd hl.place
  simp [rowsAt, hruns]

/-- A command value with OP 0 loads 0. -/
theorem CmdLayout.getFld_loadCmd_zero (hzero : bitsOf v op.lo op.width = 0) : getFld (loadCmd s p o v go) op = 0 := by
  obtain ⟨m, hrow⟩ := hl.opRow
  have hkeys := hl.keys
  obtain ⟨hpage, hoff⟩ := hl.mem_rowsAt_iff.1 hrow
  have hcode : codeOk ⟨op, .rwi, 0, m⟩ v = true := by simp [codeOk, hzero]
  have hloaded : ⟨op, .rwi, 0, m⟩ ∈ loadedRows s p o v go := mem_loadedRows.2 ⟨hpage, hoff, by dsimp only; omega, hcode⟩
  rw [loadCmd_eq_putRows, getFld_putRows_mem ⟨_, hloaded, rfl⟩, hzero]
  intro r hr hk
  obtain ⟨hpr, hro, -⟩ := mem_loadedRows.1 hr
  exact hl.eq_op_of_key (hl.mem_rowsAt_iff.2 ⟨hpr, hro⟩) hk

/-- The end of an operation shows DONE and its STATUS. -/
theorem CmdLayout.cmdEnd_shows (c : Status) (t : State) :
    isSet (cmdEnd go st done c t) done = true ∧ getFld (cmdEnd go st done c t) st = statusCode c := by
  obtain ⟨hst, hdone, -⟩ := hl.go_ne
  constructor
  · rw [isSet, cmdEnd, getFld_setFld_ne hdone.symm, getFld_setFld_self, hl.doneEq]
    rfl
  · rw [cmdEnd, getFld_setFld_ne hst.symm, getFld_setFld_ne hl.st_ne_done, getFld_setFld_self, hl.stEq]
    cases c <;> rfl

end Block

/-- The state in which BLOCK_CMD runs its operation: the command value is loaded, a plate's port and namespace with it, and the change
is counted (R222, R441). -/
def blockLoaded (x : Cmd) (off : Nat) (go : FRef) (s : State) : State :=
  let p := enCdw x.raw
  let t0 := needRole (.pf (ctxPort s x.ctx)) (loadCmd s p off (enAux x.raw) go)
  seqIf p s (if 0x40 ≤ p ∧ p ≤ 0x7F then
    setFld (PLT_CMD_PORT_PORT (p - 0x40)) (bitsOf (enAux2 x.raw) 0 32) (setFld (PLT_CMD_NSID_NSID (p - 0x40)) (bitsOf (enAux2 x.raw) 32 32) t0) else t0)

section Block
variable {x : Cmd} {s : State} {off res : Nat} {op go st done : FRef} (hl : CmdLayout s (enCdw x.raw) off res op go st done)
include hl

/-- OP holds what the command value loads into it. -/
theorem getFld_blockLoaded_op : getFld (blockLoaded x off go s) op = getFld (loadCmd s (enCdw x.raw) off (enAux x.raw) go) op := by
  obtain ⟨-, -, hseq⟩ := hl.op_ne
  rw [blockLoaded, seqIf_getFld _ _ _ hseq]
  split
  · next hplate =>
    have hop : op.key = enCdw x.raw * 2 ^ 17 + 0x84 * 32 := by
      have hplace := hl.place
      have hkeys := hl.keys
      unfold CmdPlace at hplace
      omega
    have hport : op.key ≠ (PLT_CMD_PORT_PORT (enCdw x.raw - 0x40)).key := by
      rw [hop]
      simp only [FRef.key, PLT_CMD_PORT_PORT]
      omega
    have hnsid : op.key ≠ (PLT_CMD_NSID_NSID (enCdw x.raw - 0x40)).key := by
      rw [hop]
      simp only [FRef.key, PLT_CMD_NSID_NSID]
      omega
    rw [getFld_setFld_ne hport, getFld_setFld_ne hnsid, getFld_needRole]
  · exact getFld_needRole ..

/-- BLOCK_CMD with OP 0 or a reserved code ends its page's operation and itself with INVALID_FIELD (R222, R467). -/
theorem blockCmd_cmdInvalid (htries : x.tries = 0) (hregs : cmdRegs (enCdw x.raw) = some (off, op, go, st, done)) (hgo : isSet s go = false)
    (hend : bitsOf (enAux x.raw) op.lo op.width = 0 ∨ ∃ r ∈ pageRows s (enCdw x.raw), r.f.key = op.key ∧ codeOk r (enAux x.raw) = false)
    (n : Nat) (md : PlateMedia) (ok1 ok2 : Bool) (rate nonce : Nat) :
    blockCmd n md ok1 ok2 rate nonce x s = endCmd n .invalidField 0 0x102 (cmdEnd go st done .invalidField (blockLoaded x off go s)) := by
  have hnone : (if (pageRows s (enCdw x.raw)).any (fun r => decide (r.f.key = op.key) && !codeOk r (enAux x.raw)) then none
      else pageOp (enCdw x.raw) (getFld (blockLoaded x off go s) op) md ok1 ok2 rate nonce) = none := by
    rcases hend with hzero | ⟨r, hr, hkey, hcode⟩
    · rw [getFld_blockLoaded_op hl, hl.getFld_loadCmd_zero hzero, pageOp_zero, ite_self]
    · exact if_pos (List.any_eq_true.2 ⟨r, hr, by simp [hkey, hcode]⟩)
  obtain ⟨hdone, hst⟩ := hl.cmdEnd_shows .invalidField (blockLoaded x off go s)
  simp only [blockLoaded] at hnone hdone hst ⊢
  simp only [blockCmd, hregs, htries, hgo, hnone, hdone, hst, zero_ne_one, Bool.false_eq_true, if_false, if_true]
  rfl

end Block

/-- Settles O8: the write of GO takes the word's other fields, OP among them unless its code is reserved, and shows the end in STATUS and
DONE alone; BLOCK_CMD meets the same end after it has loaded its command value. -/
theorem emptyAndReservedOperationsEnd : Obligations.EmptyAndReservedOperationsEnd := by
  unfold Obligations.EmptyAndReservedOperationsEnd
  refine ⟨?write, ?block⟩
  case write =>
    intro n p o v op go st done vr s hregs hv hbit hgo hend
    obtain ⟨res, hl⟩ := allCmdRegs_layout s hregs
    obtain ⟨hst, hdone, -⟩ := hl.op_ne
    have hframe := cmdInvalid_frame n p o v st done s
    refine ⟨cmdInvalid n p o v st done s, exec_registerWrite_cmdInvalid hregs hl hv hbit hgo hend, isSet_cmdInvalid_done hl n,
      getFld_cmdInvalid_st hl n, (isSet_cmdInvalid_go hl n).trans hgo, ?empty, ?reserved, (congrArg State.io hframe :),
      (congrArg State.store hframe :), (congrArg State.cache hframe :), (congrArg State.flt hframe :), (congrArg State.drive hframe :),
      (congrArg State.out hframe :)⟩
    case empty =>
      intro hzero
      rw [getFld_cmdInvalid n hst hdone, hl.getFld_op_zero hzero]
    case reserved =>
      intro hne
      rw [getFld_cmdInvalid n hst hdone, hl.getFld_op_reserved (hend.resolve_left hne)]
  case block =>
    intro n x md ok1 ok2 rate nonce off op go st done s hdue htries hregs _ _ hgo hend
    obtain ⟨hcmd, hturn⟩ := hdue
    obtain ⟨res, hl⟩ := allCmdRegs_layout s (allCmdRegs_of_cmdRegs hregs)
    have hblock := blockCmd_cmdInvalid hl htries hregs hgo hend n md ok1 ok2 rate nonce
    simp only [exec_blockCmd, execBlockCmd, run_true, adminDo, hcmd, hturn, if_true, hblock]
    rfl

end Sys2Proof.Machine
end

section
/-! What every command keeps: the effect of each is made of operations that keep it. -/

namespace Sys2Proof.Machine

theorem kept_of_run {ok : Bool} {s t u : State} (h : run ok t = .next u) (k : Kept s t) : Kept s u := (run_next h).2 ▸ k

theorem kept_of_next {s t u : State} (h : run true t = .next u) (k : Kept s t) : Kept s u := kept_of_run h k

/-- Whatever a command does, it keeps what `Kept` says. -/
theorem exec_kept (i : Instr) {s t : State} (h : exec i s = .next t) : Kept s t := by
  have hs := Kept.refl s
  cases i with
  | sqTailDoorbell _ _ _ _ => exact kept_of_run h (ltrSync_kept _ (fun _ _ hk => doorbell_kept _ _ _ _ (fun _ _ hk => sqTail_kept _ _ hk) hk) hs)
  | cqHeadDoorbell _ _ _ _ => exact kept_of_run h (ltrSync_kept _ (fun _ _ hk => doorbell_kept _ _ _ _ (fun _ _ hk => cqHead_kept _ _ hk) hk) hs)
  | submissionFetch _ => exact kept_of_run h (onlyIf_kept _ _ (fun _ _ hk => fetchEntry_kept _ hk) hs)
  | submissionEntryReceived _ _ _ =>
    exact kept_of_run h (ltrSync_kept _ (fun _ _ hk => completion_kept _ _ _ _ (fun _ _ hk => entryReceived_kept _ _ hk) hk) hs)
  | read _ => exact kept_of_next h (startRead_kept _ _ hs)
  | write _ => exact kept_of_next h (startWrite_kept _ _ hs)
  | flush _ => exact kept_of_next h (startFlush_kept _ hs)
  | writeZeroes _ => exact kept_of_next h (startWrite_kept _ _ hs)
  | deallocate _ => exact kept_of_next h (startWrite_kept _ _ hs)
  | compare _ => exact kept_of_next h (startRead_kept _ _ hs)
  | verify _ => exact kept_of_next h (startRead_kept _ _ hs)
  | fill _ => exact kept_of_next h (fillStep_kept _ hs)
  | copy _ => exact kept_of_next h (copyStep_kept _ hs)
  | volumeInfo _ => exact kept_of_next h (adminDo_kept _ _ _ (fun _ _ _ hk => volInfo_kept _ _ hk) hs)
  | createVolume _ => exact kept_of_next h (adminDo_kept _ _ _ (fun _ _ _ hk => createVolume_kept _ _ hk) hs)
  | deleteVolume _ => exact kept_of_next h (adminDo_kept _ _ _ (fun _ _ _ hk => deleteVolume_kept _ _ hk) hs)
  | resizeVolume _ => exact kept_of_next h (adminDo_kept _ _ _ (fun _ _ _ hk => resizeVolume_kept _ _ hk) hs)
  | attach _ => exact kept_of_next h (adminDo_kept _ _ _ (fun _ _ _ hk => attachVolume_kept _ _ hk) hs)
  | detach _ => exact kept_of_next h (adminDo_kept _ _ _ (fun _ _ _ hk => detachVolume_kept _ _ hk) hs)
  | createPlate _ _ _ =>
    exact kept_of_next h (adminDo_kept _ _ _ (fun _ _ _ hk => .ite (createPlate_kept _ _ _ _ hk) (adminPage_kept _ _ _ _ (fun _ _ hk =>
      createPlate_kept _ _ _ _ hk) hk)) hs)
  | deletePlate _ => exact kept_of_next h (adminDo_kept _ _ _ (fun _ _ _ hk => deletePlate_kept _ _ hk) hs)
  | blockCmd _ _ _ _ _ _ => exact kept_of_next h (adminDo_kept _ _ _ (fun _ _ _ hk => blockCmd_kept _ _ _ _ _ _ _ hk) hs)
  | getLostWrites _ => exact kept_of_next h (adminDo_kept _ _ _ (fun _ _ _ hk => getLostWrites_kept _ _ hk) hs)
  | resync _ => exact kept_of_next h (adminDo_kept _ _ _ (fun _ _ _ hk => .ite (askSnap_kept _ (setTries_kept _ _ hk)) hk) hs)
  | chipResync _ _ =>
    exact kept_of_next h (guardAccess_kept _ _ _ (fun _ _ hk => onlyIf_kept _ _ (fun _ _ hk => .ite hk (askSnap_kept _ (setFld_kept _ _ hk))) hk)
      hs)
  | snapshotPublish => exact kept_of_next h (publish_kept hs)
  | tenantInfo _ => exact kept_of_next h (adminDo_kept _ _ _ (fun _ _ _ hk => tenantInfo_kept _ _ hk) hs)
  | setSched _ => exact kept_of_next h (adminDo_kept _ _ _ (fun _ _ _ hk => setSched_kept _ _ hk) hs)
  | setClass _ => exact kept_of_next h (adminDo_kept _ _ _ (fun _ _ _ hk => setClass_kept _ _ hk) hs)
  | timeAdj _ => exact kept_of_next h (adminDo_kept _ _ _ (fun _ _ _ hk => timeAdj_kept _ _ hk) hs)
  | roleChallenge _ _ => exact kept_of_next h (adminDo_kept _ _ _ (fun _ _ _ hk => challenge_kept _ _ _ hk) hs)
  | roleResponse _ _ =>
    exact kept_of_next h (adminDo_kept _ _ _ (fun _ _ _ hk => adminPage_kept _ _ _ _ (fun _ _ hk => response_kept _ _ _ hk) hk) hs)
  | roleDrop _ => exact kept_of_next h (adminDo_kept _ _ _ (fun _ _ _ hk => adminOk_kept _ _ _ (sessionEnd_kept _ _ hk)) hs)
  | firmwareStage _ _ =>
    exact kept_of_next h (adminDo_kept _ _ _ (fun _ _ _ hk => .ite (adminPage_kept _ _ _ _ (fun _ _ hk => fwStage_kept _ _ _ hk) hk) hk) hs)
  | firmwareCommit _ => exact kept_of_next h (adminDo_kept _ _ _ (fun _ _ _ hk => .ite (fwCommit_kept _ _ hk) hk) hs)
  | admissionDecision _ => exact kept_of_next h (decideSeg_kept _ hs)
  | grantQueuedSegment => exact kept_of_next h (grantQueued_kept hs)
  | hostReadCompletion _ _ _ =>
    exact kept_of_run h (ltrSync_kept _ (fun _ _ hk => completion_kept _ _ _ _ (fun _ _ hk => hostReadDone_kept _ _ hk) hk) hs)
  | dataStaged _ => exact kept_of_run h (dataStagedCmd_kept _ hs)
  | groupCommitPoint _ => exact kept_of_run h (groupCommit_kept _ hs)
  | burinJobEnd _ _ => exact kept_of_next h (jobEnd_kept _ _ hs)
  | burinBeatMismatch _ _ => exact kept_of_run h (beatMismatch_kept _ _ hs)
  | burinPipeAwake _ => exact kept_of_run h (pipeUp_kept _ hs)
  | katStart _ _ => exact kept_of_run h (guardWrite_kept _ _ _ (fun _ _ hk => katKick_kept _ (setFld_kept _ _ hk)) hs)
  | katDone _ _ => exact kept_of_run h (katDone_kept _ _ hs)
  | memberWriteComplete _ _ => exact kept_of_next h (memberWrote_kept _ _ hs)
  | tagPageReadComplete _ _ _ => exact kept_of_next h (tagRead_kept _ _ _ hs)
  | tagWriteComplete _ _ => exact kept_of_next h (tagWrote_kept _ _ hs)
  | committed _ => exact kept_of_run h (commit_kept _ hs)
  | journalEntryFreed _ => exact kept_of_run h (entryFreed_kept _ hs)
  | writeSeqLabelRewrite _ =>
    refine kept_of_run h ?_
    split
    · exact .ite (startLabel_kept _ hs) hs
    · exact hs
  | labelUpdateComplete _ => exact kept_of_run h (labelEnd_kept _ hs)
  | journalHeaderWriteDone _ => exact kept_of_run h (headersDone_kept _ hs)
  | atomicLogWriteDone _ => exact kept_of_run h (logDone_kept _ hs)
  | journalRecordWriteDone _ _ => exact kept_of_run h (recordsDone_kept _ _ hs)
  | remirrorCopyDone _ => exact kept_of_run h (remirrorDone_kept _ hs)
  | admProbe _ _ => exact kept_of_next h (guardWrite_kept _ _ _ (fun _ _ hk => seqFlds_kept _ _ _ (admProbe_kept _ hk)) hs)
  | admClrHwm _ _ =>
    exact kept_of_next h (guardWrite_kept _ _ _ (fun _ _ hk => onlyIf_kept _ _ (fun _ _ hk => setFld_kept _ _ (setFld_kept _ _ hk)) hk) hs)
  | jnlClrHwm _ _ => exact kept_of_next h (guardWrite_kept _ _ _ (fun _ _ hk => onlyIf_kept _ _ (fun _ _ hk => setFld_kept _ _ hk) hk) hs)
  | memberReadComplete _ _ _ => exact kept_of_next h (memberRead_kept _ _ _ hs)
  | lbtWriteDone _ => exact kept_of_next h (lbtDone_kept _ hs)
  | lbtRemovalWrite _ =>
    refine kept_of_run h ?_
    split
    · exact .ite (writeLbt_kept _ hs) hs
    · exact hs
  | failMember _ _ _ => exact kept_of_run h (pltCmd_kept _ _ _ _ _ (fun _ _ hk => failMemberCmd_kept _ _ hk) hs)
  | replace _ _ _ => exact kept_of_run h (pltCmd_kept _ _ _ _ _ (fun _ _ hk => replaceCmd_kept _ _ hk) hs)
  | startPass _ _ => exact kept_of_run h (pltCmd_kept _ _ _ _ _ (fun _ _ hk => startPassCmd_kept _ hk) hs)
  | pausePass _ _ => exact kept_of_run h (pltCmd_kept _ _ _ _ _ (fun _ _ hk => pausePassCmd_kept _ hk) hs)
  | importPlate _ _ _ => exact kept_of_run h (pltCmd_kept _ _ _ _ _ (fun _ _ hk => importCmd_kept _ _ hk) hs)
  | recover _ _ => exact kept_of_run h (pltCmd_kept _ _ _ _ _ (fun _ _ hk => recoverCmd_kept _ hk) hs)
  | release _ _ => exact kept_of_run h (pltCmd_kept _ _ _ _ _ (fun _ _ hk => releaseCmd_kept _ hk) hs)
  | rbdPauseAll _ _ => exact kept_of_next h (guardWrite_kept _ _ _ (fun _ _ hk => writeRwi_kept _ _ _ hk) hs)
  | passStart _ =>
    refine kept_of_run h ?_
    split
    · exact .ite (passStart_kept _ hs) hs
    · exact hs
  | rebuildStepStart _ => exact kept_of_run h (stepStart_kept _ hs)
  | rebuildStepDone _ => exact kept_of_next h (stepDone_kept _ hs)
  | progressRecord _ _ => exact kept_of_run h (progressRecord_kept _ _ hs)
  | rebuildSliceEnd _ _ => exact kept_of_run h (sliceEnd_kept _ _ hs)
  | assembly _ _ _ => exact kept_of_next h (.ite hs (replayBegin_kept _ (vaultTest_kept _ _ _ (assemble_kept _ _ (updCache_kept _ hs)))))
  | proofCycleStart _ =>
    refine kept_of_run h ?_
    split
    · exact .ite (cycleStart_kept _ hs) hs
    · exact hs
  | proofUnitStart _ => exact kept_of_run h (unitStart_kept _ hs)
  | proofUnitDone _ => exact kept_of_next h (unitDone_kept _ hs)
  | suspectListWrite => exact kept_of_next h (.ite (updStore_kept _ (listWrite_kept _ _ _ _ _ hs)) hs)
  | proofProgressRecord _ => exact kept_of_run h (proofRecord_kept _ hs)
  | proofSliceEnd _ _ => exact kept_of_run h (cycleSlice_kept _ _ hs)
  | proofDeadlinePassed _ => exact kept_of_run h (deadlinePassed_kept _ hs)
  | startCycle _ _ => exact kept_of_run h (prfCmd_kept _ _ _ _ (fun _ _ hk => startCycleCmd_kept _ hk) hs)
  | proofPause _ _ => exact kept_of_run h (prfCmd_kept _ _ _ _ (fun _ _ hk => pauseCycleCmd_kept _ _ hk) hs)
  | proofResume _ _ => exact kept_of_run h (prfCmd_kept _ _ _ _ (fun _ _ hk => pauseCycleCmd_kept _ _ hk) hs)
  | clearSuspect _ => exact kept_of_next h (prfCmd_kept _ _ _ _ (fun _ _ hk => clearSuspectCmd_kept hk) hs)
  | prfPauseAll _ _ => exact kept_of_next h (guardWrite_kept _ _ _ (fun _ _ hk => cyclesSync_kept (writeRwi_kept _ _ _ hk)) hs)
  | destageStart => exact kept_of_next h (destageStart_kept hs)
  | pmirTimeout _ =>
    refine kept_of_next h ?_
    split
    · exact pmirSuspend_kept _ hs
    · exact hs
  | pmirResume _ => exact kept_of_run h (pmirResume_kept _ hs)
  | dirtyCeilRecompute => exact kept_of_next h (boundUpdate_kept hs)
  | backedModeReturn => exact kept_of_next h (.ite (leaveUnbacked_kept hs) hs)
  | writeThroughEnd => exact kept_of_next h (.ite (setEvt_kept _ _ (setFld_kept _ _ (updCache_kept _ hs))) hs)
  | check _ _ _ _ =>
    exact kept_of_next h (cmdWrite_kept _ _ _ _ _ _ _ _ _ _ (fun _ _ _ hk => hk) (fun _ _ hk => cmdEnd_kept _ _ _ _ (vaultTest_kept _ _ _ hk)) hs)
  | brace _ =>
    exact kept_of_next h (onlyIf_kept _ _ (fun _ _ hk => .ite (showMv_kept _ _ hk) (leaveNight_kept (learnDq_kept _ (brace_kept (showMv_kept _ _
      hk))))) hs)
  | braceEnd _ => exact kept_of_next h (onlyIf_kept _ _ (fun _ _ hk => .ite (braceEnd_kept (showMv_kept _ _ hk)) (showMv_kept _ _ hk)) hs)
  | backupEntry _ _ => exact kept_of_next h (.ite hs (backupEntry_kept _ _ (updPwr_kept _ (.ite (freqStart_kept hs) hs))))
  | vaultChunkDone _ _ =>
    refine kept_of_next h ?_
    split
    · exact onlyIf_kept _ _ (fun _ _ hk => chunkEnd_kept _ _ _ hk) hs
    · exact hs
  | replayAsmWaitExpiry => exact kept_of_next h (.ite (replayRun_kept hs) hs)
  | lostWriteListWrite => exact kept_of_next h (.ite (lostwWrite_kept hs) hs)
  | cacheFlush _ => exact kept_of_next h (cchCmd_kept _ _ _ _ (fun _ _ hk => cacheFlush_kept hk) hs)
  | clearLost _ _ => exact kept_of_next h (cchCmd_kept _ _ _ _ (fun _ _ hk => clearLost_kept _ hk) hs)
  | bemSample _ _ _ _ => exact kept_of_next h (.ite hs (bemSample_kept _ _ _ _ hs))
  | bemHibernateWake _ _ _ _ => exact kept_of_next h (.ite (bemSample_kept _ _ _ _ hs) hs)
  | restReading => exact kept_of_next h (restReading_kept hs)
  | bemDayBoundary =>
    exact kept_of_next h (boundUpdate_kept (.ite (restWindow_kept (.ite (setEvt_kept _ _ (setConf_kept _ (satFld_kept _ _ hs))) (satFld_kept _ _
      hs))) (.ite (setEvt_kept _ _ (setConf_kept _ (satFld_kept _ _ hs))) (satFld_kept _ _ hs))))
  | restWindowTimeout => exact kept_of_next h (.ite (restWinFail_kept hs) hs)
  | learnCycleStart => exact kept_of_next h (.ite (learnStart_kept _ hs) hs)
  | rintMeasure =>
    refine kept_of_next h ?_
    split
    · exact hs
    · exact .ite (updBem_kept _ hs) (boundUpdate_kept (updBem_kept _ (setFld_kept _ _ (updBem_kept _ hs))))
  | estimatorStoreWrite _ =>
    exact kept_of_next h (.ite hs (.ite (setFld_kept _ _ (updBem_kept _ (flashPut_kept _ _ hs))) (setEvt_kept _ _ (flashErase_kept _ hs))))
  | batPresChange _ =>
    exact kept_of_next h (.ite (setEvt_kept _ _ hs) (setFld_kept _ _ (setFld_kept _ _ (boundUpdate_kept (setFld_kept _ _ (setFld_kept _ _
      (setFld_kept _ _ (setFld_kept _ _ (setFld_kept _ _ (setFld_kept _ _ (updBem_kept _ (learnDq_kept _ (setEvt_kept _ _ hs)))))))))))))
  | packInserted _ _ => exact kept_of_next h (authStart_kept _ _ (setFld_kept _ _ hs))
  | authResponseRead _ =>
    refine kept_of_next h ?_
    split
    · exact hs
    · exact .ite (authEnd_kept _ (packSend_kept _ _ hs)) (authFail_kept (packSend_kept _ _ hs))
    · exact authFail_kept (packSend_kept _ _ hs)
  | authRetry _ _ => exact kept_of_next h (.ite (boundUpdate_kept (authAttempt_kept _ _ hs)) hs)
  | authPeriodic _ => exact kept_of_next h (.ite (authStart_kept _ _ hs) hs)
  | learn _ => exact kept_of_next h (bemCmd_kept _ _ _ (fun _ _ hk => learnCmd_kept hk) hs)
  | abortLearn _ => exact kept_of_next h (bemCmd_kept _ _ _ (fun _ _ hk => abortLearnCmd_kept hk) hs)
  | auth _ _ => exact kept_of_next h (bemCmd_kept _ _ _ (fun _ _ hk => .ite (authStart_kept _ _ hk) (bemEnd_kept _ hk)) hs)
  | forget _ => exact kept_of_next h (bemCmd_kept _ _ _ (fun _ _ hk => forgetCmd_kept hk) hs)
  | ctxBindWrite _ _ _ =>
    exact kept_of_run h (guardWrite_kept _ _ _ (fun _ _ hk => .ite (seqFlds_kept _ _ _ (bindWrite_kept _ _ hk)) (discardDb_kept _ hk)) hs)
  | runSet _ _ => exact kept_of_run h (ltrSync_kept _ (fun _ _ hk => ringWrite_kept _ _ _ (fun _ _ hk => runSet_kept _ hk) hk) hs)
  | runClear _ _ => exact kept_of_run h (ltrSync_kept _ (fun _ _ hk => ringWrite_kept _ _ _ (fun _ _ hk => runClear_kept _ hk) hk) hs)
  | errClear _ _ => exact kept_of_run h (ltrSync_kept _ (fun _ _ hk => ringWrite_kept _ _ _ (fun _ _ hk => errClear_kept _ hk) hk) hs)
  | retire _ _ => exact kept_of_run h (ltrSync_kept _ (fun _ _ hk => ringWrite_kept _ _ _ (fun _ _ hk => retire_kept _ hk) hk) hs)
  | irqAggTimer _ => exact kept_of_run h (onlyIf_kept _ _ (fun _ _ hk => ringMsg_kept _ hk) hs)
  | roundEnd _ => exact kept_of_next h (roundEnd_kept _ hs)
  | slotSecondsTick => exact kept_of_next h (onlyIf_kept _ _ (fun _ _ hk => slotSeconds_kept hk) hs)
  | epochEnd => exact kept_of_next h (epochEnd_kept hs)
  | meteringRecordsWrite => exact kept_of_next h (onlyIf_kept _ _ (fun _ _ hk => mtrRecords_kept hk) hs)
  | mtrStep _ => exact kept_of_next h (guardWrite_kept _ _ _ (fun _ _ hk => hostAdjust_kept _ (fun _ _ hk => mtrStep_kept _ hk) hk) hs)
  | mtrSlew _ => exact kept_of_next h (guardWrite_kept _ _ _ (fun _ _ hk => hostAdjust_kept _ (fun _ _ hk => mtrSlew_kept _ hk) hk) hs)
  | slewDone => exact kept_of_next h (onlyIf_kept _ _ (fun _ _ hk => slewDone_kept hk) hs)
  | mtrEnable _ _ => exact kept_of_next h (mtrWrite_kept _ _ (fun _ _ hk => mtrEnable_kept _ hk) hs)
  | mtrHeadWrite _ _ => exact kept_of_next h (mtrWrite_kept _ _ (fun _ _ hk => mtrHead_kept _ hk) hs)
  | tscClrMax _ _ => exact kept_of_next h (guardWrite_kept _ _ _ (fun _ _ hk => onlyIf_kept _ _ (fun _ _ hk => setFld_kept _ _ hk) hk) hs)
  | hostLinkUp _ _ _ _ =>
    exact kept_of_run h (.ite hs (.ite (setEvt_kept _ _ (updHost_kept _ (setFld_kept _ _ (setFld_kept _ _ (setFlag_kept _ _ hs))))) (.ite
      (updHost_kept _ (setFld_kept _ _ (setFld_kept _ _ (setFlag_kept _ _ hs)))) (pumpReads_kept (setEvt_kept _ _ (updHost_kept _ (setFld_kept _
      _ (setFld_kept _ _ (setFlag_kept _ _ hs)))))))))
  | hostLinkDown _ => exact kept_of_run h (hostDown_kept _ hs)
  | perstAssert _ => exact kept_of_run h (ltrSync_kept _ (fun _ _ hk => portReset_kept _ hk) (updHost_kept _ hs))
  | perstDeassert _ => exact kept_of_run h (onlyIf_kept _ _ (fun _ _ hk => wake_kept (updHost_kept _ hk)) hs)
  | hotReset _ => exact kept_of_run h (onlyIf_kept _ _ (fun _ _ hk => ltrSync_kept _ (fun _ _ hk => portReset_kept _ hk) hk) hs)
  | functionLevelReset _ _ =>
    exact kept_of_run h (onlyIf_kept _ _ (fun _ _ hk => cfgWrite_kept _ _ _ _ (fun _ _ hk => ltrSync_kept _ (fun _ _ hk => flrStart_kept _ _ hk)
      (emit_kept _ hk)) hk) hs)
  | flrEnd _ _ => exact kept_of_run h (flrEnd_kept _ _ hs)
  | busMasterEnableClear _ _ =>
    exact kept_of_run h (onlyIf_kept _ _ (fun _ _ hk => cfgWrite_kept _ _ _ _ (fun _ _ hk => ltrSync_kept _ (fun _ _ hk => bmeClear_kept _ _ hk)
      hk) hk) hs)
  | busMasterEnableSet _ _ _ =>
    exact kept_of_run h (onlyIf_kept _ _ (fun _ _ hk => cfgWrite_kept _ _ _ _ (fun _ _ hk => ltrSync_kept _ (fun _ _ hk => bmeSet_kept _ _ _ hk)
      hk) hk) hs)
  | vfEnableSet _ _ _ =>
    exact kept_of_run h (cfgWrite_kept _ _ _ _ (fun _ _ hk => .ite hk (setFld_kept _ _ (setFlag_kept _ _ (updFn_kept _ _ _ (.ite (setFld_kept _ _
      hk) hk))))) hs)
  | vfEnableClear _ =>
    exact kept_of_run h (onlyIf_kept _ _ (fun _ _ hk => cfgWrite_kept _ _ _ _ (fun _ _ hk => ltrSync_kept _ (fun _ _ hk => setFld_kept _ _
      (resetFns_kept _ _ hk)) hk) hk) hs)
  | d3hotEntry _ =>
    exact kept_of_run h (onlyIf_kept _ _ (fun _ _ hk => cfgWrite_kept _ _ _ _ (fun _ _ hk => ltrSync_kept _ (fun _ _ hk => onlyIf_kept _ _ (fun _
      _ hk => wakeHost_kept _ hk) (pauseFns_kept _ _ (setEvt_kept _ _ (setFld_kept _ _ hk)))) hk) hk) hs)
  | d0Return _ =>
    exact kept_of_run h (onlyIf_kept _ _ (fun _ _ hk => cfgWrite_kept _ _ _ _ (fun _ _ hk => ltrSync_kept _ (fun _ _ hk => resumeFns_kept _ _
      (setEvt_kept _ _ (setFld_kept _ _ hk))) hk) hk) hs)
  | pmeTurnOff _ =>
    exact kept_of_run h (onlyIf_kept _ _ (fun _ _ hk => .ite (onlyIf_kept _ _ (fun _ _ hk => emit_kept _ hk) (setEvt_kept _ _ (setFld_kept _ _
      (setFld_kept _ _ (setFld_kept _ _ (setFld_kept _ _ (setFld_kept _ _ (updHost_kept _ (emit_kept _ hk))))))))) (setFld_kept _ _ (setFld_kept
      _ _ (setFld_kept _ _ (setFld_kept _ _ (updHost_kept _ (emit_kept _ hk))))))) hs)
  | hostL1Entry _ _ => exact kept_of_run h (onlyIf_kept _ _ (fun _ _ hk => emit_kept _ (setFlag_kept _ _ (setFld_kept _ _ (updHost_kept _ hk)))) hs)
  | msixUnmask _ _ _ => exact kept_of_run h (onlyIf_kept _ _ (fun _ _ hk => sendPending_kept _ _ (updFn_kept _ _ _ hk)) hs)
  | completionTimeout _ => exact kept_of_next h (ltrSync_kept _ (fun _ _ hk => timeout_kept _ _ (fun _ _ hk => hostReadDone_kept _ _ hk) hk) hs)
  | slotPresenceDetected _ =>
    exact kept_of_run h (.ite hs (.ite (powerUp_kept _ (dptEvt_kept _ _ (setFld_kept _ _ hs))) (setPort_kept _ _ (updBay_kept _ _ (dptEvt_kept _
      _ (setFld_kept _ _ hs))))))
  | pwrGoodTimeout _ => exact kept_of_run h (.ite hs (dptEvt_kept _ _ (setFld_kept _ _ (showPic_kept _ (setPort_kept _ _ (slotOff_kept _ hs))))))
  | perstReleaseTimer _ => exact kept_of_run h (.ite hs (showPic_kept _ (setPort_kept _ _ (updBay_kept _ _ hs))))
  | driveLinkUp _ _ _ =>
    exact kept_of_run h (.ite hs (dptEvt_kept _ _ (emit_kept _ (showPic_kept _ (setPort_kept _ _ (setFld_kept _ _ (setFld_kept _ _ hs)))))))
  | driveLinkTimeout _ => exact kept_of_run h (.ite hs (dptEvt_kept _ _ (setFld_kept _ _ (showPic_kept _ (setPort_kept _ _ hs)))))
  | nvmeBringUpDone _ _ _ _ => exact kept_of_run h (onlyIf_kept _ _ (fun _ _ hk => bringUp_kept _ _ _ _ hk) hs)
  | attentionButton _ =>
    exact kept_of_run h (.ite hs (.ite (dptEvt_kept _ _ (updBay_kept _ _ hs)) (.ite (dptEvt_kept _ _ (showPic_kept _ (updBay_kept _ _
      (dptEvt_kept _ _ (updBay_kept _ _ hs))))) (showPic_kept _ (updBay_kept _ _ (dptEvt_kept _ _ (updBay_kept _ _ hs)))))))
  | attentionWindowEnd _ =>
    exact kept_of_run h (.ite hs (.ite (dptEvt_kept _ _ (showPic_kept _ (updBay_kept _ _ (updBay_kept _ _ hs)))) (.ite (quiesce_kept _
      (updBay_kept _ _ hs)) (showPic_kept _ (updBay_kept _ _ hs)))))
  | presenceLost _ =>
    exact kept_of_run h (.ite hs (setFld_kept _ _ (showPic_kept _ (setPort_kept _ _ (updBay_kept _ _ (slotOff_kept _ (driveGone_kept _
      (dptEvt_kept _ _ hs))))))))
  | powerFault _ =>
    exact kept_of_run h (.ite hs (showPic_kept _ (setPort_kept _ _ (updBay_kept _ _ (slotOff_kept _ (driveGone_kept _ (dptEvt_kept _ _ hs)))))))
  | driveLinkDown _ => exact kept_of_run h (.ite hs (showPic_kept _ (setPort_kept _ _ (driveGone_kept _ (dptEvt_kept _ _ hs)))))
  | nvmeCommandTimeout _ => exact kept_of_run h (onlyIf_kept _ _ (fun _ _ hk => portTimeout_kept _ hk) hs)
  | controllerResetDone _ => exact kept_of_run h (onlyIf_kept _ _ (fun _ _ hk => resetDone_kept _ hk) hs)
  | smartPoll _ _ _ _ => exact kept_of_run h (onlyIf_kept _ _ (fun _ _ hk => smartPoll_kept _ _ _ _ hk) hs)
  | ssbFrame _ _ => exact kept_of_run h (onlyIf_kept _ _ (fun _ _ hk => frame_kept _ _ hk) hs)
  | indicatorBlinkToggle => exact kept_of_next h (updDrive_kept _ hs)
  | powerOff _ _ => exact kept_of_run h (dptCmd_kept _ _ _ _ (fun _ _ hk => powerOffCmd_kept _ hk) hs)
  | powerOn _ _ => exact kept_of_run h (dptCmd_kept _ _ _ _ (fun _ _ hk => powerOnCmd_kept _ hk) hs)
  | rescan _ _ _ _ =>
    exact kept_of_run h (dptCmd_kept _ _ _ _ (fun _ _ hk => .ite (dptEnd_kept _ _ hk) (dptEnd_kept _ _ (markStrays_kept _ (detachNs_kept _ _
      (identify_kept _ _ _ (sendAdmin_kept _ _ hk)))))) hs)
  | driveL1Entry _ => exact kept_of_run h (.ite hs (setFld_kept _ _ (setFld_kept _ _ hs)))
  | dramTrainingDone _ _ _ => exact kept_of_run h (trainingDone_kept _ _ _ hs)
  | dramInitDone _ => exact kept_of_run h (initDone_kept _ hs)
  | scrubRead _ _ => exact kept_of_run h (scrubRead_kept _ _ hs)
  | dramCorrectedBurst _ _ _ _ _ => exact kept_of_run h (onlyIf_kept _ _ (fun _ _ hk => burstRead_kept _ _ _ _ (access_kept _ _ hk)) hs)
  | dramUncorrectedBurst _ _ _ _ _ => exact kept_of_run h (onlyIf_kept _ _ (fun _ _ hk => burstRead_kept _ _ _ _ (access_kept _ _ hk)) hs)
  | freqChangeDone => exact kept_of_next h (.foldl (fun _ _ hk => .ite hk (dmcEvt_kept _ _ (setDmc_kept _ _ (showSpeed_kept _ hk)))) hs)
  | dramRefresh _ _ => exact kept_of_run h (.ite hs (.ite (updDram_kept _ hs) (updDram_kept _ hs)))
  | requestUrgent _ _ => exact kept_of_run h (.ite (incFld_kept _ _ hs) hs)
  | rowIdleClose _ _ _ _ _ =>
    refine kept_of_run h ?_
    dsimp only
    split
    · exact updDram_kept _ hs
    · exact hs
  | diagRead _ _ _ _ _ _ =>
    exact kept_of_run h (guardWrite_kept _ _ _ (fun _ _ hk => .ite (writeRwi_kept _ _ _ hk) (.ite (setFld_kept _ _ (writeRwi_kept _ _ _ hk))
      (setFld_kept _ _ (setFld_kept _ _ (setFlag_kept _ _ (setFlag_kept _ _ (writeRwi_kept _ _ _ hk))))))) hs)
  | dramRelease _ _ =>
    exact kept_of_run h (cmdWrite_kept _ _ _ _ _ _ _ _ _ _ (fun _ _ _ hk => hk) (fun _ _ hk => .ite (dmcEnd_kept _ _ hk) (.ite (dmcEnd_kept _ _
      hk) (setDmc_kept _ _ (loadBoard_kept _ hk)))) hs)
  | tlkTrainingDone _ _ _ _ _ _ => exact kept_of_run h (trained_kept _ _ _ _ _ _ hs)
  | retrainTimeout _ => exact kept_of_run h (.ite (linkDown_kept _ hs) hs)
  | flitReceived _ _ => exact kept_of_run h (flitReceived_kept _ _ hs)
  | nakReceived _ _ => exact kept_of_run h (.ite (replayAgain_kept _ _ hs) hs)
  | replayTimer _ => exact kept_of_run h (.ite hs (replayAgain_kept _ _ hs))
  | ackTimer _ => exact kept_of_run h (.ite (sendIdle_kept _ hs) hs)
  | messageForward _ _ _ => exact kept_of_run h (forward_kept _ _ _ hs)
  | leaseRenewTimer => exact kept_of_next h (.ite hs (.foldl (fun _ _ hk => sendMsg_kept _ _ _ _ _ _ hk) (updLink_kept _ hs)))
  | renew _ =>
    exact kept_of_run h (arrived_kept _ _ (fun _ _ hk => sendMsg_kept _ _ _ _ _ _ (.foldl (fun _ _ hk => .ite (dropHeld_kept _ hk) hk)
      (updLink_kept _ hk))) hs)
  | renewAck _ =>
    exact kept_of_run h (arrived_kept _ _ (fun _ _ hk => .ite hk (.foldl (fun _ _ hk => .ite hk (offer_kept _ _ _ hk)) (updLink_kept _ hk))) hs)
  | leaseExpired _ =>
    refine kept_of_run h ?_
    split
    · exact hs
    · exact .ite hs (.foldl (fun _ _ hk => takeStart_kept _ hk) (trtEvt_kept _ (updLink_kept _ hs)))
  | leaseDrop _ =>
    exact kept_of_run h (.ite hs (.foldl (fun _ _ hk => .foldl (fun _ _ hk => resvSend_kept _ _ _ _ _ hk) hk) (.foldl (fun _ _ hk =>
      offerEnd_kept _ _ (.ite (unname_kept _ hk) hk)) (updLink_kept _ hs))))
  | reservationReportComplete _ _ =>
    refine kept_of_run h ?_
    split
    · exact hs
    · exact .ite hs (.ite (standbyLost_kept _ _ hs) (.foldl (fun _ _ hk => .ite (loseEntry_kept _ hk) hk) (resvConflict_kept _ hs)))
  | preemptComplete _ _ =>
    refine kept_of_next h ?_
    split
    · exact hs
    · dsimp only
      split
      · exact hs
      · refine .ite hs (resumeCycle_kept _ (cycleSync_kept _ (.ite (startLabel_kept _ ?_) (declareFails_kept _ _ ?_)))) <;>
          exact claimAs_kept _ _ (.foldl (fun _ _ hk => setFld_kept _ _ hk) (mediaRecords_kept _ _ _ (dropTagCache_kept _ _
            (setFld_kept _ _ (updStore_kept _ (updHeld_kept _ _ (updCache_kept _ hs)))))))
  | preemptTimeout _ =>
    refine kept_of_next h ?_
    split
    · exact hs
    · exact .ite hs (trtEvt_kept _ (releaseResv_kept _ _ (updHeld_kept _ _ hs)))
  | takeoverDone _ =>
    refine kept_of_next h ?_
    split
    · exact hs
    · exact .ite hs (resumePass_kept _ (joinPair_kept _ (refreshPlate_kept _ (trtEvt_kept _ (incFld_kept _ _ (updPlate_kept _ _ (dropHeld_kept _
        hs)))))))
  | journalEntryMessage _ =>
    refine kept_of_run h (arrived_kept _ _ (fun _ _ hk => ?_) hs)
    split
    · exact hk
    · exact .ite hk (updLink_kept _ hk)
  | fenceNotice _ =>
    exact kept_of_run h (arrived_kept _ _ (fun _ _ hk => .foldl (fun _ _ hk => standbyLost_kept _ _ hk) (.foldl (fun _ _ hk => takeStart_kept _
      hk) (trtEvt_kept _ hk))) hs)
  | progress _ => exact kept_of_run h (keepRecord_kept _ _ hs)
  | proof _ => exact kept_of_run h (keepRecord_kept _ _ hs)
  | suspect _ =>
    refine kept_of_run h (arrived_kept _ _ (fun _ _ hk => ?_) hs)
    split
    · exact hk
    · exact .ite hk (onlyIf_kept _ _ (fun _ _ hk => setFld_kept _ _ hk) (updStore_kept _ hk))
  | attachOffer _ _ _ _ _ => exact kept_of_run h (arrived_kept _ _ (fun _ _ hk => attachOffer_kept _ _ _ _ _ hk) hs)
  | attachAccept _ _ =>
    refine kept_of_run h (arrived_kept _ _ (fun _ _ hk => ?_) hs)
    split
    · exact hk
    · exact offerEnd_kept _ _ (trtEvt_kept _ (pmirShow_kept (pmirResume_kept _ (updCache_kept _ (.foldl (fun _ _ hk => mirrorEntry_kept _ hk)
        (updPlate_kept _ _ (updLink_kept _ hk)))))))
  | attachRefuse _ =>
    refine kept_of_run h (arrived_kept _ _ (fun _ _ hk => ?_) hs)
    split
    · exact hk
    · exact offerEnd_kept _ _ (.ite (unname_kept _ hk) hk)
  | claim _ =>
    refine kept_of_run h (arrived_kept _ _ (fun _ _ hk => ?_) hs)
    split
    · exact .ite (updLink_kept _ hk) hk
    · exact updLink_kept _ hk
  | memberIoRead _ => exact kept_of_run h (arrived_kept _ _ (fun _ _ hk => serve_kept _ _ hk) hs)
  | memberIoWrite _ =>
    exact kept_of_run h (arrived_kept _ _ (fun _ _ hk => .ite (sendMsg_kept _ _ _ _ _ _ hk) (serve_kept _ _ (.ite (updNs_kept _ _ _ hk) hk))) hs)
  | memberIoCompletion _ _ =>
    refine kept_of_run h (arrived_kept _ _ (fun _ _ hk => ?_) hs)
    dsimp only
    split
    · exact hk
    · refine .ite hk (.ite (conflictAt_kept _ (endNv_kept _ hk)) ?_)
      split
      · exact tagRead_kept _ _ _ hk
      · exact tagWrote_kept _ _ hk
      · exact .ite (memberRead_kept _ _ _ hk) (memberWrote_kept _ _ hk)
  | memberIoTimeout _ =>
    refine kept_of_next h ?_
    split
    · exact hs
    · exact .ite hs (failMember_kept _ _ _ (.ite (readLost_kept _ (endNv_kept _ hs)) (endNv_kept _ hs)))
  | remoteRouteTimeout _ => exact kept_of_run h (.ite hs (failAll_kept _ _ hs))
  | mirrorWrite _ =>
    refine kept_of_run h (arrived_kept _ _ (fun _ _ hk => ?_) hs)
    dsimp only
    split
    · exact hk
    · split
      · exact hk
      · exact sendMsg_kept _ _ _ _ _ _ (updLink_kept _ hk)
  | mirrorAck _ =>
    refine kept_of_run h (arrived_kept _ _ (fun _ _ hk => ?_) hs)
    split
    · exact pmirAcked_kept _ _ hk
    · exact .ite hk (cacheStaged_kept _ (updEntry_kept _ _ (updCache_kept _ hk)))
  | mirrorRelease _ => exact kept_of_run h (arrived_kept _ _ (fun _ _ hk => .ite (updLink_kept _ hk) hk) hs)
  | mirrorLost _ => exact kept_of_run h (arrived_kept _ _ (fun _ _ hk => .ite (pmirSuspend_kept _ hk) hk) hs)
  | timeSyncTimer _ => exact kept_of_run h (.ite hs (.foldl (fun _ _ hk => sendMsg_kept _ _ _ _ _ _ hk) hs))
  | sync _ =>
    exact kept_of_run h (arrived_kept _ _ (fun _ _ hk => .ite hk (.ite (mtrSlew_kept _ (setFld_kept _ _ hk)) (mtrStep_kept _ (setFld_kept _ _
      hk)))) hs)
  | latencyPingTimer _ =>
    refine kept_of_run h ?_
    split
    · exact .ite hs (sendOn_kept _ _ hs)
    · exact hs
  | ping _ _ => exact kept_of_run h (.ite hs (sendOn_kept _ _ hs))
  | pong _ _ => exact kept_of_run h (.ite hs (setFld_kept _ _ hs))
  | trtAttach _ _ _ => exact kept_of_next h (trtCmd_kept _ _ _ _ (fun _ _ hk => attachCmd_kept hk) hs)
  | trtDetach _ _ => exact kept_of_next h (trtCmd_kept _ _ _ _ (fun _ _ hk => detachCmd_kept hk) hs)
  | tlkL1Entry _ => exact kept_of_run h (.ite (setFld_kept _ _ hs) hs)
  | graverGo _ _ _ =>
    exact kept_of_run h (guardWrite_kept _ _ _ (fun _ _ hk => .ite hk (chooseUnit_kept (updMch_kept _ _ (.ite (setFld_kept _ _ (setFld_kept _ _
      (setFld_kept _ _ (setFld_kept _ _ (setFld_kept _ _ (setFld_kept _ _ (seqIf_kept _ _ (setFlag_kept _ _ hk)))))))) (setFld_kept _ _
      (setFld_kept _ _ (setFld_kept _ _ (setFld_kept _ _ (seqIf_kept _ _ (setFlag_kept _ _ hk)))))))))) hs)
  | graverStop _ _ => exact kept_of_run h (guardWrite_kept _ _ _ (fun _ _ hk => stopCh_kept _ hk) hs)
  | descriptorFetch _ _ => exact kept_of_run h (fetchDesc_kept _ _ hs)
  | graverBurst _ _ _ => exact kept_of_next h (burst_kept _ _ _ hs)
  | graverRequestPulse _ =>
    exact kept_of_run h (chooseUnit_kept (.foldl (fun _ _ hk => .ite hk (.ite (incFld_kept _ _ hk) (satFld_kept _ _ hk))) hs))
  | graverUnitEnd => exact kept_of_next h (unitEnd_kept hs)
  | graverHoldTimeout =>
    refine kept_of_next h ?_
    split
    · exact hs
    · exact .ite (cutUnit_kept _ _ hs) hs
  | interruptSourceEdge _ _ => exact kept_of_run h (lineEdge_kept _ _ hs)
  | interruptClaim _ _ => exact kept_of_run h (claimIrq_kept _ _ hs)
  | eoi _ _ _ => exact kept_of_run h (guardWrite_kept _ _ _ (fun _ _ hk => eoi_kept _ _ hk) hs)
  | softwareInterrupt _ _ =>
    exact kept_of_next h (guardWrite_kept _ _ _ (fun _ _ hk => icuHost_kept (.foldl (fun _ _ hk => .ite (setLatch_kept _ hk) hk) hk)) hs)
  | icuPendClear _ _ => exact kept_of_next h (guardWrite_kept _ _ _ (fun _ _ hk => .foldl (fun _ _ hk => .ite (clearLatch_kept _ hk) hk) hk) hs)
  | moderationExpiry _ => exact kept_of_run h (icuHost_kept (updIcu_kept _ hs))
  | fallbackTimeout _ => exact kept_of_run h (fallback_kept _ hs)
  | faultMessage => exact kept_of_next h (ltrSync_kept _ (fun _ _ hk => handleFault_kept hk) hs)
  | fenceReq _ _ => exact kept_of_run h (headWrite_kept _ _ _ (fun _ _ hk => .ite (fenceReq_kept _ hk) hk) hs)
  | faultInject _ => exact kept_of_next h (guardWrite_kept _ _ _ (fun _ _ hk => .ite (inject_kept hk) hk) hs)
  | pgEvtSet _ _ _ => exact kept_of_run h (headWrite_kept _ _ _ (fun _ _ hk => .ite (setEvtBits_kept _ _ hk) hk) hs)
  | faultRearm _ => exact kept_of_next h (guardWrite_kept _ _ _ (fun _ _ hk => setFld_kept _ _ hk) hs)
  | unfence _ _ _ _ =>
    exact kept_of_next h (cmdWrite_kept _ _ _ _ _ _ _ _ _ _ (fun _ _ _ hk => unfenceCmd_kept _ _ (cmdStart_kept _ _ hk)) (fun _ _ hk =>
      unfenceCmd_kept _ _ hk) hs)
  | watchdogKick _ => exact kept_of_next h (guardWrite_kept _ _ _ (fun _ _ hk => kick_kept _ hk) hs)
  | watchdogTimeout => exact kept_of_next h (watchdog_kept hs)
  | mainPowerGood => exact kept_of_next h (powerGood_kept hs)
  | railSequenceStep => exact kept_of_next h (.ite hs (.ite (setFld_kept _ _ hs) (.ite (setFld_kept _ _ hs) hs)))
  | railRetry => exact kept_of_next h (railRetry_kept hs)
  | startupPhaseEnd _ => exact kept_of_next h (phaseEnd_kept _ hs)
  | startupPhaseTimeout => exact kept_of_next h (phaseTimeout_kept hs)
  | coldReset => exact kept_of_next h (deviceReset_kept _ hs)
  | supplyReset _ => exact kept_of_next h (.ite (deviceReset_kept _ hs) hs)
  | pinReset => exact kept_of_next h (requestReset_kept _ hs)
  | softwareReset _ => exact kept_of_next h (guardWrite_kept _ _ _ (fun _ _ hk => .ite (requestReset_kept _ (needRole_kept _ hk)) hk) hs)
  | supplyWarning _ _ => exact kept_of_next h (onlyIf_kept _ _ (fun _ _ hk => supplyWarn_kept _ _ hk) hs)
  | supplyWarningClear _ _ => exact kept_of_next h (onlyIf_kept _ _ (fun _ _ hk => supplyClear_kept _ _ hk) hs)
  | tempWarning _ => exact kept_of_next h (onlyIf_kept _ _ (fun _ _ hk => tempWarn_kept _ hk) hs)
  | tempCritical _ => exact kept_of_next h (onlyIf_kept _ _ (fun _ _ hk => tempCritical_kept _ hk) hs)
  | hclkLost _ _ => exact kept_of_run h (onlyIf_kept _ _ (fun _ _ hk => hclkLost_kept _ _ hk) hs)
  | xtalStop => exact kept_of_next h (onlyIf_kept _ _ (fun _ _ hk => lineEdge_kept _ _ (setEvt_kept _ _ (setFld_kept _ _ hk))) hs)
  | xtalResume => exact kept_of_next h (onlyIf_kept _ _ (fun _ _ hk => lineEdge_kept _ _ (setFld_kept _ _ (updPwr_kept _ hk))) hs)
  | alarmFire _ => exact kept_of_run h (onlyIf_kept _ _ (fun _ _ hk => setFld_kept _ _ hk) hs)
  | opMinuteTick => exact kept_of_next h (opTick_kept hs)
  | idleEntry => exact kept_of_next h (onlyIf_kept _ _ (fun _ _ hk => setPower_kept _ hk) hs)
  | nightEntry _ => exact kept_of_next h (onlyIf_kept _ _ (fun _ _ hk => pipesSleep_kept (freqStart_kept (setPower_kept _ hk))) hs)
  | nightExit _ => exact kept_of_next h (onlyIf_kept _ _ (fun _ _ hk => leaveNight_kept hk) hs)
  | nightReqWrite _ _ => exact kept_of_next h (guardWrite_kept _ _ _ (fun _ _ hk => seqIf_kept _ _ (setFld_kept _ _ hk)) hs)
  | standbyEntry => exact kept_of_next h (standbyStep_kept hs)
  | standbyExit => exact kept_of_next h (onlyIf_kept _ _ (fun _ _ hk => wake_kept hk) hs)
  | pwrClrMin _ _ =>
    exact kept_of_next h (guardWrite_kept _ _ _ (fun _ _ hk => .ite (setFld_kept _ _ (setFld_kept _ _ (setFld_kept _ _ hk))) hk) hs)
  | sessionIdleTimeout _ => exact kept_of_run h (sessionEnd_kept _ _ hs)
  | nonceLapse _ => exact kept_of_run h (dropNonce_kept _ hs)
  | lockoutEnd _ => exact kept_of_run h (.ite (setFld_kept _ _ (setFld_kept _ _ hs)) hs)
  | keyProgram _ _ _ =>
    exact kept_of_next h (guardWrite_kept _ _ _ (fun _ _ hk => .ite (writeRwi_kept _ _ _ hk) (keyProgram_kept _ _ (setFld_kept _ _ (setFld_kept _
      _ (writeRwi_kept _ _ _ hk))))) hs)
  | sketchbookWindowEnd _ =>
    exact kept_of_next h (.ite (updEvr_kept _ hs) (.ite (releaseHeld_kept _ (updEvr_kept _ hs)) (setEvt_kept _ _ (updEvr_kept _ hs))))
  | sketchbookToken =>
    refine kept_of_next h (.ite (setFld_kept _ _ hs) ?_)
    split
    · exact releaseHeld_kept _ (setFld_kept _ _ hs)
    · exact setFld_kept _ _ hs
  | sketchbookRecordWrite _ => exact kept_of_next h (.ite (writeDue_kept _ hs) hs)
  | sketchbookSnapshotTimer => exact kept_of_next h (snapshotRecs_kept hs)
  | snapshot _ => exact kept_of_next h (evrCmd_kept _ _ _ (fun _ _ hk => snapshotCmd_kept hk) hs)
  | eraseAll _ => exact kept_of_next h (evrCmd_kept _ _ _ (fun _ _ hk => eraseAllCmd_kept hk) hs)
  | pgEnableWrite _ _ _ =>
    exact kept_of_run h (headWrite_kept _ _ _ (fun _ _ hk => .ite (enableSet_kept _ _ hk) (incFld_kept _ _ (enableSet_kept _ _ hk))) hs)
  | blockReset _ _ => exact kept_of_run h (ltrSync_kept _ (fun _ _ hk => headWrite_kept _ _ _ (fun _ _ hk => .ite (blockReset_kept _ hk) hk) hk) hs)
  | clkReq _ _ _ =>
    exact kept_of_run h (headWrite_kept _ _ _ (fun _ _ hk => .ite (wakeBlock_kept _ (writeRwi_kept _ _ _ hk)) (.ite (pipesSleep_kept
      (writeRwi_kept _ _ _ hk)) (writeRwi_kept _ _ _ hk))) hs)
  | registerWrite _ _ _ _ _ _ _ => exact kept_of_run h (ltrSync_kept _ (fun _ _ hk => busWrite_kept _ _ _ _ _ _ _ hk) hs)
  | registerRead _ _ _ _ => exact kept_of_run h (busRead_kept _ _ _ _ hs)
  | settingsRecordWrite => exact kept_of_next h (onlyIf_kept _ _ (fun _ _ hk => settingsWrite_kept hk) hs)
  | configRetryEnd _ => exact kept_of_run h (.ite hs (updHost_kept _ hs))
  | linkLayerError _ _ _ =>
    exact kept_of_run h (.ite (incFld_kept _ _ (aerLog_kept _ _ _ hs)) (.ite (report_kept _ _ _ (aerLog_kept _ _ _ hs)) (.ite (report_kept _ _ _
      (aerLog_kept _ _ _ hs)) (aerLog_kept _ _ _ hs))))
  | waitForInterrupt _ => exact kept_of_run h (onlyIf_kept _ _ (fun _ _ hk => setFld_kept _ _ hk) hs)
  | shutdownComplete _ => exact kept_of_run h (onlyIf_kept _ _ (fun _ _ hk => shutdownDone_kept _ hk) hs)
  | controllerFatalStatus _ => exact kept_of_run h (onlyIf_kept _ _ (fun _ _ hk => failDrive_kept _ _ hk) hs)

/-- Settles O3: a step with no command leaves the registers, and one with a command keeps their form. -/
theorem stepKeepsTheRegistersForm : Obligations.StepKeepsTheRegistersForm := by
  unfold Obligations.StepKeepsTheRegistersForm
  intro s t hs h
  unfold step at h
  split at h
  · have hidle : (idleTick s).regsOk := by
      unfold idleTick
      split <;> exact hs
    exact Host.Outcome.next.inj h ▸ hidle
  · obtain ⟨-, -, -, -, hregs, -⟩ := exec_kept _ h
    exact hregs hs

/-- Settles O4: each clause is one that every command's effect keeps. -/
theorem commandsKeepWhatLasts : Obligations.CommandsKeepWhatLasts := by
  unfold Obligations.CommandsKeepWhatLasts
  intro i s t h
  obtain ⟨hpending, htime, hout, -, -, hdsn, hfuses, hkeys⟩ := exec_kept i h
  exact ⟨hpending, htime, hout, hdsn, hfuses, hkeys⟩

/-- Refutes O2: a scrub read that names an eleventh device of a DIMM is not well formed, but `execScrubRead` asks for the channel alone and
answers a next state. -/
theorem not_wellFormedCommandsComplete : ¬ Obligations.WellFormedCommandsComplete := by
  unfold Obligations.WellFormedCommandsComplete
  intro h
  have hwf : (Instr.scrubRead 0 [{ dev := 10, lo := 0, hi := 0 }]).wf = false := by decide
  have hfault := (h (.scrubRead 0 [{ dev := 10, lo := 0, hi := 0 }]) State.reset).2 hwf
  simp [exec_scrubRead, execScrubRead] at hfault

end Sys2Proof.Machine
end

section
/-! The field of R16: every element but zero is a power of the generator, and a product is a power applied. -/

namespace Sys2Proof.Machine

/-! ### Powers of the generator -/

theorem xtime_xor (a b : Byte) : xtime (a ^^^ b) = xtime a ^^^ xtime b := by
  unfold xtime
  cases ha : a.msb <;> cases hb : b.msb <;> simp [BitVec.msb_xor, ha, hb, BitVec.shiftLeft_xor_distrib] <;> ac_nf; simp

@[simp] theorem gpow_zero_right (n : Nat) : gpow n 0 = 0 := by
  induction n with
  | zero => rfl
  | succ n ih => exact ih

theorem gpow_xor (n : Nat) (a b : Byte) : gpow n (a ^^^ b) = gpow n a ^^^ gpow n b := by
  induction n generalizing a b with
  | zero => rfl
  | succ n ih => rw [gpow, xtime_xor, ih]; rfl

theorem gpow_add (m n : Nat) (a : Byte) : gpow (m + n) a = gpow m (gpow n a) := by
  induction n generalizing a with
  | zero => rfl
  | succ n ih => exact ih (xtime a)

theorem gpow_comm (m n : Nat) (a : Byte) : gpow m (gpow n a) = gpow n (gpow m a) := by
  rw [← gpow_add, Nat.add_comm, gpow_add]

theorem eq_zero_of_xtime : ∀ a : Byte, xtime a = 0 → a = 0 := by decide +kernel

theorem eq_zero_of_gpow (n : Nat) {a : Byte} (h : gpow n a = 0) : a = 0 := by
  induction n generalizing a with
  | zero => exact h
  | succ n ih => exact eq_zero_of_xtime a (ih h)

theorem gpow_injective (n : Nat) : Function.Injective (gpow n) := by
  intro a b h
  have hzero : gpow n (a ^^^ b) = 0 := by rw [gpow_xor, h, BitVec.xor_self]; rfl
  exact BitVec.xor_eq_zero_iff.1 (eq_zero_of_gpow n hzero)

/-! ### Logarithms -/

/-- The search finds the first power that is the element, where one of those tried is. -/
theorem gpow_logFrom {k n : Nat} {x a : Byte} (h : ∃ m < k, gpow m x = a) :
    ∃ m < k, logFrom k n x a = n + m ∧ gpow m x = a := by
  induction k generalizing n x with
  | zero => obtain ⟨m, hm, -⟩ := h; omega
  | succ k ih =>
    unfold logFrom
    split
    · next hx => exact ⟨0, by omega, rfl, hx⟩
    · next hx =>
      obtain ⟨m, hm, hpow⟩ := h
      obtain _ | m := m
      · exact absurd hpow hx
      · obtain ⟨j, hj, hlog, hj'⟩ := ih (n := n + 1) ⟨m, by omega, hpow⟩
        exact ⟨j + 1, by omega, by omega, hj'⟩

/-- None of the first 254 powers after g^0 is 1: the generator's order is 255. -/
theorem gpow_one_ne {d : Nat} (h0 : 0 < d) (hd : d < 255) : gpow d 1 ≠ 1 := by
  intro h
  have hnone : logFrom 254 1 (xtime 1) 1 = 255 := by decide +kernel
  obtain ⟨d, rfl⟩ : ∃ e, d = e + 1 := ⟨d - 1, by omega⟩
  obtain ⟨m, hm, hlog, -⟩ := gpow_logFrom (n := 1) (k := 254) ⟨d, by omega, h⟩
  omega

theorem gpow_one_injOn : Set.InjOn (fun n => gpow n 1) (Set.Iio 255) := by
  have key (i j : Nat) (hj : j < 255) (hij : i < j) : gpow i 1 ≠ gpow j 1 := by
    intro h
    obtain ⟨d, rfl⟩ : ∃ d, j = i + d := ⟨j - i, by omega⟩
    rw [gpow_add] at h
    exact gpow_one_ne (by omega) (by omega) (gpow_injective i h).symm
  intro i hi j hj h
  rcases lt_trichotomy i j with hlt | heq | hgt
  · exact absurd h (key i j hj hlt)
  · exact heq
  · exact absurd h.symm (key j i hi hgt)

/-- Every element but zero is a power of the generator (R16): there are as many powers as such elements. -/
theorem exists_gpow {a : Byte} (ha : a ≠ 0) : ∃ n < 255, gpow n 1 = a := by
  have hsub : (Finset.range 255).image (fun n => gpow n 1) ⊆ Finset.univ.erase (0 : Byte) := by
    intro b hb
    obtain ⟨n, -, rfl⟩ := Finset.mem_image.1 hb
    exact Finset.mem_erase.2 ⟨fun h => absurd (eq_zero_of_gpow n h) (by decide), Finset.mem_univ _⟩
  have hcard : ((Finset.range 255).image (fun n => gpow n 1)).card = 255 := by
    rw [Finset.card_image_of_injOn (by simpa using gpow_one_injOn), Finset.card_range]
  have hall : (Finset.univ.erase (0 : Byte)).card = 255 := by
    rw [Finset.card_erase_of_mem (Finset.mem_univ _), Finset.card_univ, ← FinEnum.card_eq_fintypeCard, FinEnum.card_bitVec]; rfl
  have hmem := Finset.eq_of_subset_of_card_le hsub (by omega) ▸ Finset.mem_erase.2 ⟨ha, Finset.mem_univ a⟩
  obtain ⟨n, hn, h⟩ := Finset.mem_image.1 hmem
  exact ⟨n, Finset.mem_range.1 hn, h⟩

theorem logT_lt {a : Byte} (ha : a ≠ 0) : logT a < 255 := by
  obtain ⟨m, hm, hlog, -⟩ := gpow_logFrom (n := 0) (exists_gpow ha)
  rw [logT, hlog]
  omega

theorem gpow_logT {a : Byte} (ha : a ≠ 0) : gpow (logT a) 1 = a := by
  obtain ⟨m, -, hlog, hpow⟩ := gpow_logFrom (n := 0) (exists_gpow ha)
  rw [logT, hlog, Nat.zero_add, hpow]

theorem logT_gpow {n : Nat} (hn : n < 255) : logT (gpow n 1) = n := by
  have hne : gpow n 1 ≠ 0 := fun h => absurd (eq_zero_of_gpow n h) (by decide)
  exact gpow_one_injOn (logT_lt hne) hn (gpow_logT hne)

theorem gpow_255 (a : Byte) : gpow 255 a = a := by
  by_cases ha : a = 0
  · rw [ha, gpow_zero_right]
  · rw [← gpow_logT ha, gpow_comm, show gpow 255 1 = 1 by decide +kernel]

theorem gpow_mod (n : Nat) (a : Byte) : gpow (n % 255) a = gpow n a := by
  conv_rhs => rw [← Nat.mod_add_div n 255]
  rw [gpow_add]
  congr 1
  induction n / 255 with
  | zero => rfl
  | succ q ih => rw [Nat.mul_succ, gpow_add, gpow_255, ← ih]

/-! ### Products -/

@[simp] theorem gfMul_zero_left (b : Byte) : gfMul 0 b = 0 := if_pos (.inl rfl)

@[simp] theorem gfMul_zero_right (a : Byte) : gfMul a 0 = 0 := if_pos (.inr rfl)

/-- The product with an element is its power applied (R16). -/
theorem gfMul_eq_gpow {a : Byte} (ha : a ≠ 0) (b : Byte) : gfMul a b = gpow (logT a) b := by
  by_cases hb : b = 0
  · rw [hb, gfMul_zero_right, gpow_zero_right]
  · conv_rhs => rw [← gpow_logT hb]
    rw [gfMul, if_neg (by simp only [ha, hb, or_self, not_false_eq_true]), gpow_mod, gpow_add]

theorem gfMul_gpow_one (a : Byte) (n : Nat) : gfMul a (gpow n 1) = gpow n a := by
  by_cases ha : a = 0
  · rw [ha, gfMul_zero_left, gpow_zero_right]
  · rw [gfMul_eq_gpow ha, gpow_comm, gpow_logT ha]

theorem gfMul_xor_left (a b c : Byte) : gfMul (a ^^^ b) c = gfMul a c ^^^ gfMul b c := by
  by_cases hc : c = 0
  · rw [hc, gfMul_zero_right, gfMul_zero_right, gfMul_zero_right]; rfl
  · rw [← gpow_logT hc, gfMul_gpow_one, gfMul_gpow_one, gfMul_gpow_one, gpow_xor]

/-- To multiply by a power applied to an element, apply the power to the product. -/
theorem gfMul_gpow_left (n : Nat) (a b : Byte) : gfMul (gpow n a) b = gpow n (gfMul a b) := by
  by_cases hb : b = 0
  · rw [hb, gfMul_zero_right, gfMul_zero_right, gpow_zero_right]
  · rw [← gpow_logT hb, gfMul_gpow_one, gfMul_gpow_one, gpow_comm]

theorem gfMul_one_left (b : Byte) : gfMul 1 b = b := by
  by_cases hb : b = 0
  · rw [hb, gfMul_zero_right]
  · rw [← gpow_logT hb, gfMul_gpow_one]

/-- The product with a power of the generator is that power applied. -/
theorem gfMul_gpow_one_left (n : Nat) (b : Byte) : gfMul (gpow n 1) b = gpow n b := by
  rw [gfMul_gpow_left, gfMul_one_left]

theorem gfInv_mul_cancel {a : Byte} (ha : a ≠ 0) (b : Byte) : gfMul (gfInv a) (gfMul a b) = b := by
  have hlt := logT_lt ha
  rw [gfInv, gfMul_gpow_one_left, gpow_mod, gfMul_eq_gpow ha, ← gpow_add, Nat.sub_add_cancel hlt.le, gpow_255]

theorem gdiv_eq_gpow {x : Nat} (hx : x ≤ 255) (a : Byte) : gdiv x a = gpow (255 - x) a := by
  rw [gdiv, gpow_mod]
  obtain hlt | rfl := Nat.lt_or_eq_of_le hx
  · rw [Nat.mod_eq_of_lt hlt]
  · exact gpow_255 a

theorem gdiv_gpow {x : Nat} (hx : x ≤ 255) (a : Byte) : gdiv x (gpow x a) = a := by
  rw [gdiv_eq_gpow hx, ← gpow_add, Nat.sub_add_cancel hx, gpow_255]

theorem gfMul_gpow_right (n : Nat) (a b : Byte) : gfMul a (gpow n b) = gpow n (gfMul a b) := by
  by_cases ha : a = 0
  · rw [ha, gfMul_zero_left, gfMul_zero_left, gpow_zero_right]
  · rw [gfMul_eq_gpow ha, gfMul_eq_gpow ha, gpow_comm]

theorem gfMul_xor_right (a b c : Byte) : gfMul a (b ^^^ c) = gfMul a b ^^^ gfMul a c := by
  by_cases ha : a = 0
  · rw [ha, gfMul_zero_left, gfMul_zero_left, gfMul_zero_left]; rfl
  · rw [gfMul_eq_gpow ha, gfMul_eq_gpow ha, gfMul_eq_gpow ha, gpow_xor]

/-- Two missing data strips come back from what P and Q lack (R19, Table STRIPE-2). -/
theorem solveTwo_eq {x y : Nat} (hxy : x < y) (hy : y < 255) (a b : Byte) :
    solveTwo x y (a ^^^ b) (gpow x a ^^^ gpow y b) = (a, b) := by
  obtain ⟨d, rfl⟩ : ∃ d, y = x + d := ⟨y - x, by omega⟩
  have hne : gpow d 1 ^^^ 1 ≠ 0 := fun h => gpow_one_ne (by omega) (by omega) (BitVec.xor_eq_zero_iff.1 h)
  have hinv := gfInv_mul_cancel hne
  generalize hI : gfInv (gpow d 1 ^^^ 1) = inv at hinv
  have hfirst : gfMul (gfMul (gpow d 1) inv) (a ^^^ b) ^^^ gfMul (gfMul (gdiv x 1) inv) (gpow x a ^^^ gpow (x + d) b) = a := by
    calc _ = gfMul inv (gpow d (a ^^^ b) ^^^ gdiv x (gpow x a ^^^ gpow (x + d) b)) := by
          rw [gfMul_gpow_one_left, gfMul_gpow_left, gdiv_eq_gpow (by omega), gdiv_eq_gpow (by omega), gfMul_gpow_one_left, gfMul_gpow_left,
            gfMul_xor_right _ (gpow d _), gfMul_gpow_right d, gfMul_gpow_right (255 - x)]
      _ = gfMul inv (gfMul (gpow d 1 ^^^ 1) a) := by
          rw [gpow_add x d, ← gpow_xor x, gdiv_gpow (by omega), gpow_xor, gfMul_xor_left, gfMul_gpow_one_left, gfMul_one_left]
          congr 1
          ac_nf
          simp
      _ = a := hinv a
  simp only [solveTwo, Nat.add_sub_cancel_left, hI, hfirst]
  simp

end Sys2Proof.Machine
end

section
/-! The syndromes byte by byte, and the reconstruction of a column (R17 to R19, Table STRIPE-2). -/

namespace Sys2Proof.Machine

/-! ### Blocks byte by byte -/

/-- A byte of a block; zero past its end. -/
def blkByte (b : Block) (i : Nat) : Byte := (b[i]?).getD 0

@[simp] theorem blkByte_nil (i : Nat) : blkByte [] i = 0 := by simp [blkByte]

@[simp] theorem blkByte_cons_zero (a : Byte) (b : Block) : blkByte (a :: b) 0 = a := rfl

@[simp] theorem blkByte_cons_succ (a : Byte) (b : Block) (i : Nat) : blkByte (a :: b) (i + 1) = blkByte b i := rfl

theorem block_ext {a b : Block} (hlen : a.length = b.length) (h : ∀ i < b.length, blkByte a i = blkByte b i) : a = b := by
  refine List.ext_getElem hlen (fun i ha hb => ?_)
  simpa [blkByte, ha, hb] using h i hb

theorem xorBlk_cons (a : Byte) (as bs : Block) : xorBlk (a :: as) bs = (a ^^^ bs.headD 0) :: xorBlk as bs.tail := rfl

@[simp] theorem length_xorBlk (a b : Block) : (xorBlk a b).length = max a.length b.length := by
  induction a generalizing b with
  | nil => simp [xorBlk, zipBytes]
  | cons x xs ih => simp [xorBlk_cons, ih]; omega

@[simp] theorem blkByte_xorBlk (a b : Block) (i : Nat) : blkByte (xorBlk a b) i = blkByte a i ^^^ blkByte b i := by
  induction a generalizing b i with
  | nil => simp [xorBlk, zipBytes, blkByte]
  | cons x xs ih =>
    rw [xorBlk_cons]
    cases i with
    | zero => cases b <;> simp
    | succ i => cases b <;> simp [ih]

@[simp] theorem length_mulBlk (n : Nat) (a : Block) : (mulBlk n a).length = a.length := List.length_map _

@[simp] theorem blkByte_mulBlk (n : Nat) (a : Block) (i : Nat) : blkByte (mulBlk n a) i = gpow n (blkByte a i) := by
  simp only [blkByte, mulBlk, List.getElem?_map]
  cases a[i]? with
  | none => exact (gpow_zero_right n).symm
  | some b => rfl

/-! ### Syndromes of a changed block -/

theorem parityP_cons (d : Block) (ds : List Block) : parityP (d :: ds) = xorBlk d (parityP ds) := rfl

theorem parityQFrom_cons (i : Nat) (d : Block) (ds : List Block) : parityQFrom i (d :: ds) = xorBlk (mulBlk i d) (parityQFrom (i + 1) ds) := rfl

/-- P changes by the difference of a block that is replaced. -/
theorem blkByte_parityP_set {ds : List Block} {i : Nat} {old : Block} (h : ds[i]? = some old) (new : Block) (j : Nat) :
    blkByte (parityP (ds.set i new)) j = blkByte (parityP ds) j ^^^ (blkByte old j ^^^ blkByte new j) := by
  induction ds generalizing i with
  | nil => simp at h
  | cons d ds ih =>
    cases i with
    | zero =>
      obtain rfl : d = old := by simpa using h
      simp only [List.set_cons_zero, parityP_cons, blkByte_xorBlk]
      rw [BitVec.xor_comm (blkByte d j) (blkByte (parityP ds) j), BitVec.xor_assoc, ← BitVec.xor_assoc (blkByte d j), BitVec.xor_self,
        BitVec.zero_xor, BitVec.xor_comm]
    | succ i =>
      have h' : ds[i]? = some old := by simpa using h
      simp only [List.set_cons_succ, parityP_cons, blkByte_xorBlk, ih h', BitVec.xor_assoc]

/-- Q changes by the difference times the power of the block's index. -/
theorem blkByte_parityQFrom_set {ds : List Block} {i : Nat} {old : Block} (h : ds[i]? = some old) (new : Block) (j m : Nat) :
    blkByte (parityQFrom m (ds.set i new)) j = blkByte (parityQFrom m ds) j ^^^ gpow (m + i) (blkByte old j ^^^ blkByte new j) := by
  induction ds generalizing i m with
  | nil => simp at h
  | cons d ds ih =>
    cases i with
    | zero =>
      obtain rfl : d = old := by simpa using h
      simp only [List.set_cons_zero, parityQFrom_cons, blkByte_xorBlk, blkByte_mulBlk, Nat.add_zero, gpow_xor]
      rw [BitVec.xor_comm (gpow m (blkByte d j)) (blkByte (parityQFrom (m + 1) ds) j), BitVec.xor_assoc, ← BitVec.xor_assoc (gpow m (blkByte d j)),
        BitVec.xor_self, BitVec.zero_xor, BitVec.xor_comm]
    | succ i =>
      have h' : ds[i]? = some old := by simpa using h
      simp only [List.set_cons_succ, parityQFrom_cons, blkByte_xorBlk, ih h', BitVec.xor_assoc, Nat.add_assoc, Nat.add_comm 1 i]

theorem length_parityP_le {ds : List Block} {n : Nat} (h : ∀ d ∈ ds, d.length ≤ n) : (parityP ds).length ≤ n := by
  induction ds with
  | nil => exact Nat.zero_le n
  | cons d ds ih =>
    rw [parityP_cons, length_xorBlk]
    exact max_le (h d List.mem_cons_self) (ih (fun e he => h e (List.mem_cons_of_mem d he)))

theorem length_parityQFrom_le {ds : List Block} {n m : Nat} (h : ∀ d ∈ ds, d.length ≤ n) : (parityQFrom m ds).length ≤ n := by
  induction ds generalizing m with
  | nil => exact Nat.zero_le n
  | cons d ds ih =>
    rw [parityQFrom_cons, length_xorBlk, length_mulBlk]
    exact max_le (h d List.mem_cons_self) (ih (fun e he => h e (List.mem_cons_of_mem d he)))

theorem length_le_parityP {ds : List Block} {d : Block} (h : d ∈ ds) : d.length ≤ (parityP ds).length := by
  induction ds with
  | nil => simp at h
  | cons e ds ih =>
    rw [parityP_cons, length_xorBlk]
    rcases List.mem_cons.1 h with rfl | h
    · exact le_max_left ..
    · exact (ih h).trans (le_max_right ..)

theorem length_le_parityQFrom {ds : List Block} {d : Block} (h : d ∈ ds) (m : Nat) : d.length ≤ (parityQFrom m ds).length := by
  induction ds generalizing m with
  | nil => simp at h
  | cons e ds ih =>
    rw [parityQFrom_cons, length_xorBlk, length_mulBlk]
    rcases List.mem_cons.1 h with rfl | h
    · exact le_max_left ..
    · exact (ih h (m + 1)).trans (le_max_right ..)

section Lengths
variable {ds : List Block} {n : Nat} (hlen : ∀ d ∈ ds, d.length = n) {d : Block} (hd : d ∈ ds)
include hlen hd

theorem length_parityP : (parityP ds).length = n :=
  le_antisymm (length_parityP_le (fun e he => (hlen e he).le)) (hlen d hd ▸ length_le_parityP hd)

theorem length_parityQ : (parityQ ds).length = n :=
  le_antisymm (length_parityQFrom_le (fun e he => (hlen e he).le)) (hlen d hd ▸ length_le_parityQFrom hd 0)

end Lengths

/-- The syndromes that follow one changed block are those of read-modify-write (R64). -/
theorem parity_set {ds : List Block} {n i : Nat} {old new : Block} (hlen : ∀ d ∈ ds, d.length = n) (hi : ds[i]? = some old)
    (hnew : new.length = n) :
    parityP (ds.set i new) = deltaP (parityP ds) old new ∧ parityQ (ds.set i new) = deltaQ i (parityQ ds) old new := by
  have hold : old ∈ ds := List.mem_of_getElem? hi
  have hset : ∀ d ∈ ds.set i new, d.length = n := fun d hd => (List.mem_or_eq_of_mem_set hd).elim (hlen d) (fun e => e ▸ hnew)
  have hmem : new ∈ ds.set i new := List.mem_set (List.getElem?_eq_some_iff.1 hi).1 _
  constructor
  · refine block_ext ?_ (fun j _ => ?_)
    · simp [deltaP, length_parityP hset hmem, length_parityP hlen hold, hlen old hold, hnew]
    · simp [deltaP, blkByte_parityP_set hi]
  · refine block_ext ?_ (fun j _ => ?_)
    · simp [deltaQ, length_parityQ hset hmem, length_parityQ hlen hold, hlen old hold, hnew]
    · simp [deltaQ, parityQ, blkByte_parityQFrom_set hi]

/-! ### The locator -/

theorem logT_gpow_right (z : Nat) {e : Byte} (he : e ≠ 0) : logT (gpow z e) = (z + logT e) % 255 := by
  conv_lhs => rw [← gpow_logT he, ← gpow_add, ← gpow_mod]
  exact logT_gpow (Nat.mod_lt _ (by omega))

theorem locate_gpow {k z : Nat} {e : Byte} (he : e ≠ 0) (hz : z < 255) :
    locate k e (gpow z e) = if z < k then .dataMember z else .noSingle := by
  have hpow : gpow z e ≠ 0 := fun h => he (eq_zero_of_gpow z h)
  have hlt := logT_lt he
  have hdiff : (logT (gpow z e) + 255 - logT e) % 255 = z := by rw [logT_gpow_right z he]; omega
  simp only [locate, he, hpow, false_and, if_false, hdiff]

/-- The locator's verdicts (R20, Table STRIPE-3). -/
theorem locate_cases (k : Nat) {e : Byte} (he : e ≠ 0) :
    locate k 0 0 = .consistent ∧ locate k 0 e = .qMember ∧ locate k e 0 = .pMember := by
  refine ⟨rfl, ?_, ?_⟩
  · simp only [locate, he, and_false, if_false, if_true]
  · simp only [locate, he, false_and, if_false, if_true]

/-- Settles O11: the quotient of the syndromes' differences names the data index, and each syndrome is linear in each block. -/
theorem syndromesLocateAndFollow : Obligations.SyndromesLocateAndFollow := by
  unfold Obligations.SyndromesLocateAndFollow
  refine ⟨fun k z e hk he => ?locator, fun ds n i old new hlen hi hnew => parity_set hlen hi hnew⟩
  obtain ⟨hclean, hq, hp⟩ := locate_cases k he
  refine ⟨hclean, hq, hp, fun hz => ?data, fun hz hlt => ?beyond⟩
  case data => rw [locate_gpow he (by omega), if_pos hz]
  case beyond => rw [locate_gpow he hlt, if_neg (by omega)]

/-! ### Reconstruction -/

/-- A column with its strips at two positions missing. -/
def missingAt (x y : Nat) (ds : List Block) : Column :=
  (ds ++ [parityP ds, parityQ ds]).mapIdx (fun p d => if p = x ∨ p = y then none else some d)

/-- The positions below a bound among two given ones, in rising order. -/
theorem filter_range_pair {x y : Nat} (h : x < y) (m : Nat) :
    (List.range m).filter (fun p => decide (p = x ∨ p = y)) = (if x < m then [x] else []) ++ (if y < m then [y] else []) := by
  induction m with
  | zero => simp
  | succ m ih =>
    rw [List.range_succ, List.filter_append, ih]
    rcases Nat.lt_trichotomy m x with hm | rfl | hm
    · simp [show ¬ x < m by omega, show ¬ y < m by omega, show ¬ x < m + 1 by omega, show ¬ y < m + 1 by omega, show m ≠ x by omega, show m ≠ y by omega]
    · simp [show ¬ y < m by omega, show ¬ y < m + 1 by omega]
    · rcases Nat.lt_trichotomy m y with hm' | rfl | hm'
      · simp [hm, show x < m + 1 by omega, show ¬ y < m by omega, show ¬ y < m + 1 by omega, show m ≠ x by omega, show m ≠ y by omega]
      · simp [hm, show x < m + 1 by omega]
      · simp [hm, hm', show x < m + 1 by omega, show y < m + 1 by omega, show m ≠ x by omega, show m ≠ y by omega]

section Column
variable {ds : List Block} {x y : Nat}

theorem missingAt_join (p : Nat) :
    ((missingAt x y ds)[p]?).join = if p = x ∨ p = y then none else (ds ++ [parityP ds, parityQ ds])[p]? := by
  rw [missingAt, List.getElem?_mapIdx]
  cases (ds ++ [parityP ds, parityQ ds])[p]? with
  | none => simp
  | some d => by_cases h : p = x ∨ p = y <;> simp [h]

theorem colErased_missingAt (h : x < y) :
    colErased ds.length (missingAt x y ds) = (if x < ds.length + 2 then [x] else []) ++ (if y < ds.length + 2 then [y] else []) := by
  rw [← filter_range_pair h]
  refine List.filter_congr (fun p hp => ?_)
  have hlt : p < (ds ++ [parityP ds, parityQ ds]).length := by simpa using List.mem_range.1 hp
  rw [missingAt_join]
  by_cases hxy : p = x ∨ p = y
  · simp [hxy]
  · simp [hxy, List.getElem?_eq_getElem hlt]

theorem colData_missingAt : colData ds.length (missingAt x y ds) = (ds.set x []).set y [] := by
  refine List.ext_getElem (by simp [colData]) (fun p hp _ => ?_)
  have hlt : p < ds.length := by simpa [colData] using hp
  have hcol : (ds ++ [parityP ds, parityQ ds])[p]? = some ds[p] := by simp [List.getElem?_append_left hlt, hlt]
  simp only [colData, List.getElem_map, List.getElem_range, missingAt_join, hcol, List.getElem_set]
  by_cases hy : y = p
  · simp [hy]
  · by_cases hx : x = p
    · simp [hx]
    · simp [hx, hy, Ne.symm hx, Ne.symm hy]

theorem missingAt_P : ((missingAt x y ds)[ds.length]?).join = if ds.length = x ∨ ds.length = y then none else some (parityP ds) := by
  rw [missingAt_join]
  simp

theorem missingAt_Q : ((missingAt x y ds)[ds.length + 1]?).join = if ds.length + 1 = x ∨ ds.length + 1 = y then none else some (parityQ ds) := by
  rw [missingAt_join]
  simp

end Column

/-! One missing data strip comes back from P, and from Q; two come back from both. -/

section Strips
variable {ds : List Block} {n x y : Nat}

theorem length_set_nil_le (hlen : ∀ d ∈ ds, d.length = n) : ∀ d ∈ ds.set x [], d.length ≤ n := by
  intro d hd
  rcases List.mem_or_eq_of_mem_set hd with h | rfl
  · exact (hlen d h).le
  · exact Nat.zero_le n

theorem xorBlk_parityP_set_nil (hlen : ∀ d ∈ ds, d.length = n) (hx : x < ds.length) :
    xorBlk (parityP ds) (parityP (ds.set x [])) = ds[x] := by
  have hmem : ds[x] ∈ ds := List.getElem_mem hx
  have hle := length_parityP_le (length_set_nil_le (x := x) hlen)
  refine block_ext ?_ (fun j _ => ?_)
  · simp [length_parityP hlen hmem, hlen _ hmem, hle]
  · simp [blkByte_parityP_set (List.getElem?_eq_getElem hx)]

theorem xorBlk_parityQ_set_nil (hlen : ∀ d ∈ ds, d.length = n) (hx : x < ds.length) (h255 : x < 255) :
    (xorBlk (parityQ ds) (parityQ (ds.set x []))).map (gdiv x) = ds[x] := by
  have hmem : ds[x] ∈ ds := List.getElem_mem hx
  have hle : (parityQ (ds.set x [])).length ≤ n := length_parityQFrom_le (length_set_nil_le hlen)
  have hxor : xorBlk (parityQ ds) (parityQ (ds.set x [])) = mulBlk x ds[x] := by
    refine block_ext ?_ (fun j _ => ?_)
    · simp [length_parityQ hlen hmem, hlen _ hmem, hle]
    · simp [parityQ, blkByte_parityQFrom_set (List.getElem?_eq_getElem hx)]
  rw [hxor, mulBlk, List.map_map, show gdiv x ∘ gpow x = id from funext (gdiv_gpow (by omega)), List.map_id]

/-- Byte by byte the two missing strips are what `solveTwo` finds. -/
theorem solveTwo_strips (hxy : x < y) (hx : x < ds.length) (hy : y < ds.length) (h255 : y < 255) (j : Nat) :
    solveTwo x y (blkByte (xorBlk (parityP ds) (parityP ((ds.set x []).set y []))) j)
      (blkByte (xorBlk (parityQ ds) (parityQ ((ds.set x []).set y []))) j) = (blkByte ds[x] j, blkByte ds[y] j) := by
  have hyset : (ds.set x [])[y]? = some ds[y] := by rw [List.getElem?_set_ne (by omega), List.getElem?_eq_getElem hy]
  have hxget : ds[x]? = some ds[x] := List.getElem?_eq_getElem hx
  rw [← solveTwo_eq hxy h255 (blkByte ds[x] j) (blkByte ds[y] j)]
  simp [parityQ, blkByte_parityP_set hyset, blkByte_parityP_set hxget, blkByte_parityQFrom_set hyset, blkByte_parityQFrom_set hxget,
    ← BitVec.xor_assoc]

/-- A block is the list of its bytes. -/
theorem map_range_blkByte (b : Block) : (List.range b.length).map (blkByte b) = b :=
  block_ext (by simp) (fun i hi => by simp [blkByte, hi])

/-- The two missing strips are the two components of what `solveTwo` finds. -/
theorem map_solveTwo_strips (hlen : ∀ d ∈ ds, d.length = n) (hxy : x < y) (hx : x < ds.length) (hy : y < ds.length) (h255 : y < 255) :
    let a := xorBlk (parityP ds) (parityP ((ds.set x []).set y []))
    let b := xorBlk (parityQ ds) (parityQ ((ds.set x []).set y []))
    let r := (List.range (max a.length b.length)).map (fun o => solveTwo x y ((a[o]?).getD 0) ((b[o]?).getD 0))
    r.map Prod.fst = ds[x] ∧ r.map Prod.snd = ds[y] := by
  intro a b r
  have hxmem : ds[x] ∈ ds := List.getElem_mem hx
  have hymem : ds[y] ∈ ds := List.getElem_mem hy
  have hset : ∀ d ∈ (ds.set x []).set y [], d.length ≤ n := by
    intro d hd
    rcases List.mem_or_eq_of_mem_set hd with h | rfl
    · exact length_set_nil_le hlen d h
    · exact Nat.zero_le n
  have ha : a.length = n := by simp [a, length_parityP hlen hxmem, length_parityP_le hset]
  have hb : b.length = n := by
    have hle : (parityQ ((ds.set x []).set y [])).length ≤ n := length_parityQFrom_le hset
    simp [b, length_parityQ hlen hxmem, hle]
  have hr : r = (List.range n).map (fun j => (blkByte ds[x] j, blkByte ds[y] j)) := by
    simp only [r, ha, hb, max_self]
    exact List.map_congr_left (fun j _ => solveTwo_strips hxy hx hy h255 j)
  have hxall := map_range_blkByte ds[x]
  have hyall := map_range_blkByte ds[y]
  rw [hlen _ hxmem] at hxall
  rw [hlen _ hymem] at hyall
  rw [hr, List.map_map, List.map_map]
  exact ⟨hxall, hyall⟩

end Strips

theorem set_set_self {ds : List Block} {x : Nat} (hx : x < ds.length) : (ds.set x []).set x ds[x] = ds := by
  rw [List.set_set, List.set_getElem_self]

/-- Rebuilding the data of a column with two strips missing gives all the data (R19, Table STRIPE-2). -/
theorem recoverData_missingAt {ds : List Block} {n x y : Nat} (hk : ds.length ≤ 30) (hlen : ∀ d ∈ ds, d.length = n) (h : x < y) :
    recoverData ds.length (missingAt x y ds) = some ds := by
  have hfew : ¬ (colErased ds.length (missingAt x y ds)).length > 2 := by
    rw [colErased_missingAt h]
    split_ifs <;> simp
  have hdata : (colErased ds.length (missingAt x y ds)).filter (· < ds.length) =
      (if x < ds.length then [x] else []) ++ (if y < ds.length then [y] else []) := by
    have hone (z : Nat) : (if z < ds.length + 2 then [z] else []).filter (· < ds.length) = if z < ds.length then [z] else [] := by
      by_cases hz : z < ds.length
      · simp [hz, show z < ds.length + 2 by omega]
      · split <;> simp [hz]
    rw [colErased_missingAt h, List.filter_append, hone, hone]
  have hP := missingAt_P (ds := ds) (x := x) (y := y)
  have hQ := missingAt_Q (ds := ds) (x := x) (y := y)
  rw [recoverData]
  simp only [if_neg hfew, hdata, colData_missingAt]
  by_cases hx : x < ds.length
  · by_cases hy : y < ds.length
    · obtain ⟨hfst, hsnd⟩ := map_solveTwo_strips hlen h hx hy (by omega)
      rw [if_neg (by omega)] at hP hQ
      simp only [if_pos hx, if_pos hy, List.singleton_append, hP, hQ, hfst, hsnd]
      rw [List.set_comm _ _ h.ne, List.set_set, List.set_comm _ _ h.ne, List.set_getElem_self, set_set_self hx]
    · have hset : (ds.set x []).set y [] = ds.set x [] := List.set_eq_of_length_le (by simpa using hy)
      by_cases hPy : ds.length = y
      · rw [if_pos (.inr hPy)] at hP
        rw [if_neg (by omega)] at hQ
        simp only [if_pos hx, if_neg hy, List.append_nil, hP, hQ, hset, xorBlk_parityQ_set_nil hlen hx (by omega), set_set_self hx]
      · rw [if_neg (by omega)] at hP
        simp only [if_pos hx, if_neg hy, List.append_nil, hP, hset, xorBlk_parityP_set_nil hlen hx, set_set_self hx]
  · have hy : ¬ y < ds.length := by omega
    simp only [if_neg hx, if_neg hy, List.append_nil, List.set_eq_of_length_le (Nat.not_lt.1 hx), List.set_eq_of_length_le (Nat.not_lt.1 hy)]

/-- One missing strip is the case of two with the other past the column's end. -/
theorem missingAt_self {ds : List Block} (x : Nat) : missingAt x x ds = missingAt x (max (x + 1) (ds.length + 2)) ds := by
  refine List.ext_getElem (by simp [missingAt]) (fun p hp _ => ?_)
  have hlt : p < ds.length + 2 := by simpa [missingAt] using hp
  have hne : p ≠ max (x + 1) (ds.length + 2) := by omega
  simp only [missingAt, List.getElem_mapIdx, hne, or_self, or_false]

/-- Settles O10: one missing strip comes back from P or from Q, two data strips from the two equations that P and Q give. -/
theorem twoMissingStripsAreRebuilt : Obligations.TwoMissingStripsAreRebuilt := by
  unfold Obligations.TwoMissingStripsAreRebuilt
  intro ds n x y hk hlen
  change recoverCol ds.length (missingAt x y ds) = _
  have hdata : recoverData ds.length (missingAt x y ds) = some ds := by
    rcases Nat.lt_trichotomy x y with h | rfl | h
    · exact recoverData_missingAt hk hlen h
    · rw [missingAt_self]
      exact recoverData_missingAt hk hlen (by omega)
    · rw [show missingAt x y ds = missingAt y x ds by simp only [missingAt, Or.comm]]
      exact recoverData_missingAt hk hlen h
  rw [recoverCol, hdata, Option.map_some]

end Sys2Proof.Machine
end

section
/-! The Stipple layout: rows are permutations, and places in an extent slot are told back (R21, R22, R26, R27). -/

namespace Sys2Proof.Machine

/-! ### Row permutations -/

theorem swapAt_perm {l : List Nat} {i j : Nat} (hi : i < l.length) (hj : j < l.length) : (swapAt l i j).Perm l := by
  rw [swapAt, List.getElem?_eq_getElem hi, List.getElem?_eq_getElem hj]
  exact List.set_set_perm hi hj

/-- A step of the shuffle swaps with a place not beyond its own. -/
theorem shuffle_place_lt (x : U64) (i : Nat) : x.toNat * (i + 2) / 2 ^ 64 < i + 2 := by
  have hx := x.isLt
  exact Nat.div_lt_of_lt_mul (Nat.mul_lt_mul_of_pos_right hx (by omega))

theorem shuffle_succ (i : Nat) (s : U64) (l : List Nat) :
    shuffle (i + 1) s l = shuffle i (splitmix64 s).1 (swapAt l (i + 1) ((splitmix64 s).2.toNat * (i + 2) / 2 ^ 64)) := rfl

theorem shuffle_perm {i : Nat} {l : List Nat} (hi : i < l.length ∨ i = 0) (s : U64) : (shuffle i s l).Perm l := by
  induction i generalizing l s with
  | zero => exact .refl l
  | succ i ih =>
    have hlt : i + 1 < l.length := by omega
    have hj := shuffle_place_lt (splitmix64 s).2 i
    have hswap : (swapAt l (i + 1) ((splitmix64 s).2.toNat * (i + 2) / 2 ^ 64)).Perm l := swapAt_perm hlt (by omega)
    rw [shuffle_succ]
    exact (ih (.inl (by rw [hswap.length_eq]; omega)) _).trans hswap

theorem stippleRow_perm (seed r n : Nat) : (stippleRow seed r n).Perm (List.range n) :=
  shuffle_perm (by rw [List.length_range]; omega) _

/-! ### Members of a stripe -/

theorem Geom.ok_iff {g : Geom} : g.ok = true ↔ 4 ≤ g.w ∧ g.w ≤ 32 ∧ g.w ≤ g.n ∧ g.n ≤ 128 ∧ 14 ≤ g.shift ∧ g.shift ≤ 20 := by
  simp [Geom.ok]

/-- Every place of a stripe lies in its row. -/
theorem Geom.place_lt {g : Geom} (hok : g.ok = true) (sn : Nat) {p : Nat} (hp : p < g.w) : sn % g.g * g.w + p < g.n := by
  obtain ⟨h4, -, hwn, -⟩ := Geom.ok_iff.1 hok
  have hpos : 0 < g.g := Nat.div_pos hwn (by omega)
  calc sn % g.g * g.w + p < (sn % g.g + 1) * g.w := by rw [Nat.add_mul]; omega
    _ ≤ g.g * g.w := Nat.mul_le_mul_right _ (Nat.mod_lt _ hpos)
    _ ≤ g.n := Nat.div_mul_le_self _ _

/-- A stripe's strips lie on different members (R22). -/
theorem Geom.memberAt_injOn {g : Geom} (hok : g.ok = true) {sn p q : Nat} (hp : p < g.w) (hq : q < g.w)
    (h : g.memberAt sn p = g.memberAt sn q) : p = q := by
  have hperm := stippleRow_perm g.seed (g.rowOf sn) g.n
  have hlen : (stippleRow g.seed (g.rowOf sn) g.n).length = g.n := by rw [hperm.length_eq, List.length_range]
  have hnodup : (stippleRow g.seed (g.rowOf sn) g.n).Nodup := hperm.nodup_iff.2 List.nodup_range
  have hp' := hlen ▸ Geom.place_lt hok sn hp
  have hq' := hlen ▸ Geom.place_lt hok sn hq
  rw [memberAt, memberAt, List.getElem?_eq_getElem hp', List.getElem?_eq_getElem hq'] at h
  have := (hnodup.getElem_inj_iff (hi := hp') (hj := hq')).1 h
  omega

/-! ### Places in an extent slot -/

theorem Geom.s_eq {g : Geom} (hok : g.ok = true) : g.s = 4096 * g.bps := by
  obtain ⟨-, -, -, -, h14, -⟩ := Geom.ok_iff.1 hok
  rw [Geom.s, Geom.bps, show (4096 : Nat) = 2 ^ 12 from rfl, ← pow_add, Nat.add_sub_cancel' (by omega)]

theorem Geom.bps_pos (g : Geom) : 0 < g.bps := Nat.two_pow_pos _

theorem Geom.k_pos {g : Geom} (hok : g.ok = true) : 0 < g.k := by
  obtain ⟨h4, -⟩ := Geom.ok_iff.1 hok
  rw [Geom.k]
  omega

/-- A stripe holds k × bps blocks, and a slot's stripes hold an extent's 2^18 (R26). -/
theorem Geom.extent_le {g : Geom} (hok : g.ok = true) : 2 ^ 18 ≤ g.e * (g.k * g.bps) := by
  have hpos : 0 < g.k * g.s := Nat.mul_pos (g.k_pos hok) (Nat.two_pow_pos _)
  have hle : 2 ^ 30 ≤ g.e * (g.k * g.s) := by
    have hmod := Nat.div_add_mod (2 ^ 30 + g.k * g.s - 1) (g.k * g.s)
    have hlt := Nat.mod_lt (2 ^ 30 + g.k * g.s - 1) hpos
    rw [Geom.e, Nat.mul_comm]
    omega
  rw [g.s_eq hok, show g.e * (g.k * (4096 * g.bps)) = 4096 * (g.e * (g.k * g.bps)) by ring] at hle
  omega

/-- Where `resolve` places a block, in blocks (R27). -/
theorem Geom.resolve_eq {g : Geom} (hok : g.ok = true) (slot within : Nat) :
    g.resolve slot within = { sn := slot * g.e + within / (g.k * g.bps), pos := within % (g.k * g.bps) / g.bps, blk := within % g.bps } := by
  have hkb : 0 < g.k * g.bps := Nat.mul_pos (g.k_pos hok) g.bps_pos
  have ha : slot * g.e * g.k * g.s + within * 4096 = 4096 * (within + slot * g.e * (g.k * g.bps)) := by rw [g.s_eq hok]; ring
  have hks : g.k * g.s = 4096 * (g.k * g.bps) := by rw [g.s_eq hok]; ring
  have hblk : (within + slot * g.e * (g.k * g.bps)) % g.bps = within % g.bps := by
    rw [← Nat.mul_assoc, Nat.add_mul_mod_self_right]
  have hmod : 4096 * (within + slot * g.e * (g.k * g.bps)) % (4096 * g.bps) = 4096 * (within % g.bps) := by
    rw [Nat.mul_mod_mul_left, hblk]
  have hsn : (within + slot * g.e * (g.k * g.bps)) / (g.k * g.bps) = slot * g.e + within / (g.k * g.bps) := by
    rw [Nat.add_mul_div_right _ _ hkb, Nat.add_comm]
  have h4096 : 0 < 4096 := by omega
  simp only [resolve, ha, hks]
  rw [g.s_eq hok, hmod, Nat.mul_mod_mul_left, Nat.mul_div_mul_left _ _ h4096, Nat.mul_div_mul_left _ _ h4096, hsn,
    Nat.add_mul_mod_self_right, Nat.mul_div_cancel_left _ h4096]

/-- Settles O12: a row is shuffled by swaps alone, and a slot's stripes hold its blocks one after another. -/
theorem layoutPlacesEachBlockOnce : Obligations.LayoutPlacesEachBlockOnce := by
  unfold Obligations.LayoutPlacesEachBlockOnce
  refine ⟨stippleRow_perm, fun g sn p q hok hp hq => Geom.memberAt_injOn hok hp hq, fun g slot within hok hw => ?place⟩
  have hkb : 0 < g.k * g.bps := Nat.mul_pos (g.k_pos hok) g.bps_pos
  have hlt : within / (g.k * g.bps) < g.e := Nat.div_lt_of_lt_mul (by have := g.extent_le hok; rw [Nat.mul_comm]; omega)
  rw [g.resolve_eq hok]
  refine ⟨?block, ?extent, Nat.div_lt_of_lt_mul ((Nat.mod_lt _ hkb).trans_eq (Nat.mul_comm ..)), Nat.mod_lt _ g.bps_pos⟩
  case block =>
    have hinner := Nat.div_add_mod' (within % (g.k * g.bps)) g.bps
    have houter := Nat.div_add_mod' within (g.k * g.bps)
    rw [Nat.mod_mul_left_mod] at hinner
    have hsn : (slot * g.e + within / (g.k * g.bps)) % g.e = within / (g.k * g.bps) := by
      rw [Nat.add_comm, Nat.add_mul_mod_self_right, Nat.mod_eq_of_lt hlt]
    simp only [Geom.withinOf, hsn, Nat.mul_assoc]
    omega
  case extent =>
    have he : 0 < g.e := Nat.zero_lt_of_lt hlt
    rw [Geom.slotOf, Nat.add_comm, Nat.add_mul_div_right _ _ he, Nat.div_eq_of_lt hlt, Nat.zero_add]

end Sys2Proof.Machine
end

section
/-! Steps of the queue, the state after reset, and the spec's worked values. -/

namespace Sys2Proof.Machine
open Reg

/-- Settles O1: `step` is `exec` of the front command by definition, and `idleTick` else. -/
theorem stepRunsTheFrontCommand : Obligations.StepRunsTheFrontCommand := by
  unfold Obligations.StepRunsTheFrontCommand
  refine ⟨fun i rest s h => ?command, fun s h => ?idle⟩
  case command => rw [step, h]
  case idle =>
    refine ⟨idleTick s, by rw [step, h], ?frame, ?time⟩
    · unfold idleTick
      split <;> rfl
    · simp only [idleTick, Bool.and_eq_true, Bool.not_eq_true']
      split <;> rfl

/-- The fields that do not stand at their reset value after a cold reset are the two COLD flags (R401, R177). -/
theorem getFld_reset {f : FRef} (hchip : f.key ≠ CHIP_DEV_STAT_COLD.key) (hbem : f.key ≠ BEM_STAT_COLD.key) : getFld State.reset f = f.reset := by
  simp [getFld, smGetD, State.reset, smGet, hchip, hbem]

theorem ctxState_reset (c : Nat) : ctxState State.reset c = 0 :=
  getFld_reset (by simp only [FRef.key, CTX_STAT_STATE, CHIP_DEV_STAT_COLD]; omega) (by simp only [FRef.key, CTX_STAT_STATE, BEM_STAT_COLD]; omega)

theorem portState_reset (p : Nat) : portState State.reset p = 0 :=
  getFld_reset (by simp only [FRef.key, PG_STAT_STATE, CHIP_DEV_STAT_COLD]; omega) (by simp only [FRef.key, PG_STAT_STATE, BEM_STAT_COLD]; omega)

theorem fenced_reset (p : Nat) : fenced State.reset p = false := by
  have hfld : getFld State.reset (PG_STAT_FENCED p) = 0 :=
    getFld_reset (by simp only [FRef.key, PG_STAT_FENCED, CHIP_DEV_STAT_COLD]; omega)
      (by simp only [FRef.key, PG_STAT_FENCED, BEM_STAT_COLD]; omega)
  simp [fenced, isSet, hfld]

/-- Settles O5: single fields are read from the reset state, and the contexts' and ports' states and the fences are none of its two listed
fields. -/
theorem resetLeavesItsValues : Obligations.ResetLeavesItsValues := by
  unfold Obligations.ResetLeavesItsValues
  refine ⟨by unfold State.regsOk; decide, rfl, rfl, rfl, by decide, by decide, by decide, by decide, by decide, fun c _ => ctxState_reset c,
    fun p _ => ⟨portState_reset p, rfl⟩, rfl, rfl, rfl, rfl, fun p _ => fenced_reset p, by decide, by decide, by decide⟩

/-- Settles O13: each is a closed value that the model computes. -/
theorem workedValuesHold : Obligations.WorkedValuesHold := by
  unfold Obligations.WorkedValuesHold
  refine ⟨by decide, by decide, by decide, by decide, by decide, by decide⟩

end Sys2Proof.Machine
end

section
/-! The frame of a register write: every other part of the state, and every register field of another place, stands. -/

namespace Sys2Proof.Machine
open Reg

/-- `t` is `s` but for the register fields at the places `ks`. -/
def RegsOnly (ks : List Nat) (s t : State) : Prop :=
  { t with regs := s.regs } = s ∧ ∀ f : FRef, f.key ∉ ks → getFld t f = getFld s f

theorem RegsOnly.refl (ks : List Nat) (s : State) : RegsOnly ks s s := ⟨rfl, fun _ _ => rfl⟩

theorem RegsOnly.trans {ks : List Nat} {s t u : State} (hst : RegsOnly ks s t) (htu : RegsOnly ks t u) : RegsOnly ks s u := by
  obtain ⟨hframe, hflds⟩ := hst
  obtain ⟨hframe', hflds'⟩ := htu
  refine ⟨?frame, fun f hf => (hflds' f hf).trans (hflds f hf)⟩
  calc { u with regs := s.regs } = { ({ u with regs := t.regs } : State) with regs := s.regs } := rfl
    _ = s := by rw [hframe', hframe]

theorem RegsOnly.of_setFld {ks : List Nat} {f : FRef} (hf : f.key ∈ ks) (v : Nat) (s : State) : RegsOnly ks s (setFld f v s) :=
  ⟨rfl, fun _ hg => getFld_setFld_ne (ne_of_mem_of_not_mem hf hg).symm v s⟩

theorem RegsOnly.of_ite {ks : List Nat} {s t u : State} {P : Prop} [Decidable P] (ht : RegsOnly ks s t) (hu : RegsOnly ks s u) :
    RegsOnly ks s (if P then t else u) := by
  split
  · exact ht
  · exact hu

theorem RegsOnly.of_seqIf {ks : List Nat} {s t : State} {p : Nat} (hp : (PG_SEQ_COUNT p).key ∈ ks) (b : State) (h : RegsOnly ks s t) :
    RegsOnly ks s (seqIf p b t) :=
  .of_ite h (h.trans (.of_setFld hp _ t))

theorem RegsOnly.of_seqFlds {ks : List Nat} {s t : State} {p : Nat} (hp : (PG_SEQ_COUNT p).key ∈ ks) (l : List FRef) (b : State)
    (h : RegsOnly ks s t) : RegsOnly ks s (seqFlds p l b t) :=
  .of_ite h (h.trans (.of_setFld hp _ t))

/-- A core has every right: its write is done, or, at a fenced page 0 to 2, does nothing. -/
theorem RegsOnly.of_guardWrite_core {ks : List Nat} {s : State} {f : State → State} (h : RegsOnly ks s (f s)) (n p : Nat) :
    RegsOnly ks s (guardWrite (.core n) p f s) := by
  have hcore : guardWrite (.core n) p f s = if decide (p ≤ 2) && fenced s p then s else f s := rfl
  rw [hcore]
  exact .of_ite (.refl ks s) h

theorem RegsOnly.of_onlyIf {ks : List Nat} {s : State} {f : State → State} (b : Bool) (h : RegsOnly ks s (f s)) : RegsOnly ks s (onlyIf b f s) :=
  .of_ite h (.refl ks s)

theorem RegsOnly.of_run {ks : List Nat} {s t u : State} {b : Bool} (hrun : run b u = .next t) (h : RegsOnly ks s u) : RegsOnly ks s t := by
  unfold run at hrun
  split at hrun
  · obtain rfl := (Host.Outcome.next.inj hrun).symm
    exact h
  · cases hrun

theorem RegsOnly.of_writeRwi_core {ks : List Nat} {p : Nat} {f : FRef} (hp : (PG_SEQ_COUNT p).key ∈ ks) (hf : f.key ∈ ks) (n v : Nat) (s : State) :
    RegsOnly ks s (writeRwi (.core n) p [(f, v)] s) := by
  have hcore : writeRwi (.core n) p [(f, v)] s =
      if unchanged s [(f, v)] then s else incFld (PG_SEQ_COUNT p) 1 (setFld f v s) := rfl
  rw [hcore]
  exact .of_ite (.refl ks s) (.trans (.of_setFld hf v s) (.of_setFld hp _ _))

/-- Settles O9: each is a short chain of register writes, by a core's rights. -/
theorem registerCommandsKeepTheRest : Obligations.RegisterCommandsKeepTheRest := by
  unfold Obligations.RegisterCommandsKeepTheRest
  have hone : ∀ {k : Nat} {s t : State}, RegsOnly [k] s t → { t with regs := s.regs } = s ∧ ∀ f : FRef, f.key ≠ k → getFld t f = getFld s f :=
    fun ⟨hframe, hflds⟩ => ⟨hframe, fun f hf => hflds f (by simpa using hf)⟩
  refine fun n v s t => ⟨fun h => ?night, fun h => ?pwrMin, fun h => ?tscMax, fun h => ?admHwm, fun h => ?jnlHwm, fun h => ?rearm,
    fun h => ?alarm, fun h => ?mtrHead, fun h => ?pauseAll⟩
  case night =>
    rw [exec_nightReqWrite, execNightReqWrite] at h
    refine RegsOnly.of_run h (.of_guardWrite_core ?_ n 1)
    exact .of_seqIf (by simp) s (.of_setFld (by simp) _ s)
  case pwrMin =>
    rw [exec_pwrClrMin, execPwrClrMin] at h
    exact RegsOnly.of_run h (.of_guardWrite_core (.of_ite (.trans (.of_setFld (by simp) _ s) (.trans (.of_setFld (by simp) _ _)
      (.of_setFld (by simp) _ _))) (.refl _ s)) n 1)
  case tscMax =>
    rw [exec_tscClrMax, execTscClrMax] at h
    exact hone (RegsOnly.of_run h (.of_guardWrite_core (.of_onlyIf _ (.of_setFld (by simp) 0 s)) n 0x100))
  case admHwm =>
    rw [exec_admClrHwm, execAdmClrHwm] at h
    exact RegsOnly.of_run h (.of_guardWrite_core (.of_onlyIf _ (.trans (.of_setFld (by simp) _ s) (.of_setFld (by simp) _ _))) n 0x2B)
  case jnlHwm =>
    rw [exec_jnlClrHwm, execJnlClrHwm] at h
    exact hone (RegsOnly.of_run h (.of_guardWrite_core (.of_onlyIf _ (.of_setFld (by simp) _ s)) n 0x2A))
  case rearm =>
    rw [exec_faultRearm, execFaultRearm] at h
    exact hone (RegsOnly.of_run h (.of_guardWrite_core (.of_setFld (by simp) 0 s) n 4))
  case alarm =>
    rw [exec_alarmFire, execAlarmFire] at h
    exact hone (RegsOnly.of_run h (.of_onlyIf _ (.of_setFld (by simp) 1 s)))
  case mtrHead =>
    rw [exec_mtrHeadWrite, execMtrHeadWrite] at h
    refine RegsOnly.of_run h (.of_guardWrite_core ?_ n 0x101)
    exact .of_seqFlds (by simp) _ s (.of_ite (.refl _ s) (.of_setFld (by simp) v s))
  case pauseAll =>
    rw [exec_rbdPauseAll, execRbdPauseAll] at h
    refine RegsOnly.of_run h (.of_guardWrite_core ?_ n 0x39)
    exact .of_writeRwi_core (by simp) (by simp) n (v % 2) s

end Sys2Proof.Machine
end

section
/-! Doorbells (R195, R205, Table RING-4). -/

namespace Sys2Proof.Machine
open Reg

theorem ltrSync_congr {f g : State → State} {s : State} (h : f s = g s) : ltrSync f s = ltrSync g s := by
  rw [ltrSync, ltrSync, h]

/-- A doorbell that reaches its ring does `f` where it is 4 bytes wide and the ring takes doorbells, and is discarded else. -/
theorem doorbell_of_rings {w : Win} {c : Nat} {s : State} (h : Rings w c s) (size : Nat) (f : State → State) :
    doorbell w c size f s = if size ≠ 4 ∨ dbOpen s c = false then discardDb c s else f s := by
  obtain ⟨hopen, hoff, hreach⟩ := h
  simp [doorbell, hopen, hoff, hreach]

theorem doorbell_moves {w : Win} {c : Nat} {s : State} (h : Rings w c s) (hdb : dbOpen s c = true) (f : State → State) :
    doorbell w c 4 f s = f s := by
  simp [doorbell_of_rings h, hdb]

theorem doorbell_discards {w : Win} {c size : Nat} {s : State} (h : Rings w c s) (hdb : size ≠ 4 ∨ dbOpen s c = false) (f : State → State) :
    doorbell w c size f s = discardDb c s := by
  rw [doorbell_of_rings h, if_pos hdb]

theorem exec_sqTailDoorbell_eq {w : Win} {c size v : Nat} {s : State} {g : State → State} (hc : c < 4096)
    (h : doorbell w c size (sqTail c v) s = g s) : exec (.sqTailDoorbell w c size v) s = .next (ltrSync g s) := by
  rw [exec_sqTailDoorbell, execSqTailDoorbell, decide_eq_true hc, run_true, ltrSync_congr h]

theorem exec_cqHeadDoorbell_eq {w : Win} {c size v : Nat} {s : State} {g : State → State} (hc : c < 4096)
    (h : doorbell w c size (cqHead c v) s = g s) : exec (.cqHeadDoorbell w c size v) s = .next (ltrSync g s) := by
  rw [exec_cqHeadDoorbell, execCqHeadDoorbell, decide_eq_true hc, run_true, ltrSync_congr h]

/-- Settles O14: the branches of `sqTail` and `cqHead`, and the one in which the doorbell is discarded. -/
theorem doorbellsMoveOrAreRefused : Obligations.DoorbellsMoveOrAreRefused := by
  unfold Obligations.DoorbellsMoveOrAreRefused
  refine ⟨fun w c v s hc hr hdb hv => ?tail, fun w c v s hc hr hdb hv hbehind hne => ?head, fun w c s hc hr hdb hv => ?headAtTail,
    fun w c size v s hc hr hdb => ?discard, fun w c v s hc hr hdb hv => ?tailOut, fun w c v s hc hr hdb hv => ?headOut,
    fun w c v s hc hr hdb hv hbeyond => ?headBeyond⟩
  case tail =>
    refine exec_sqTailDoorbell_eq hc ?_
    rw [doorbell_moves hr hdb, sqTail, if_neg (Nat.not_le.mpr hv)]
  case head =>
    refine exec_cqHeadDoorbell_eq hc ?_
    simp only [doorbell_moves hr hdb, cqHead, if_neg (Nat.not_le.mpr hv), if_neg (Nat.not_lt.mpr hbehind), if_neg hne]
  case headAtTail =>
    refine exec_cqHeadDoorbell_eq hc ?_
    simp only [doorbell_moves hr hdb, cqHead, if_neg (Nat.not_le.mpr hv), if_neg (Nat.lt_irrefl _), if_true]
  case discard =>
    exact ⟨exec_sqTailDoorbell_eq hc (doorbell_discards hr hdb _), exec_cqHeadDoorbell_eq hc (doorbell_discards hr hdb _)⟩
  case tailOut =>
    refine exec_sqTailDoorbell_eq hc ?_
    rw [doorbell_moves hr hdb, sqTail, if_pos hv]
  case headOut =>
    refine exec_cqHeadDoorbell_eq hc ?_
    simp only [doorbell_moves hr hdb, cqHead, if_pos hv]
  case headBeyond =>
    refine exec_cqHeadDoorbell_eq hc ?_
    simp only [doorbell_moves hr hdb, cqHead, if_neg (Nat.not_le.mpr hv), if_pos hbeyond]

end Sys2Proof.Machine
end

section
/-! What a command's outcome shows of the state it ends in: a refutation compares one such value. -/

namespace Sys2Proof.Machine

/-- A value of the state that a command ends in. -/
def valueAfter {α : Type} (g : State → α) : Host.Outcome State Fault Refusal → Option α
  | .next t => some (g t)
  | _ => none

theorem valueAfter_eq {α : Type} {o : Host.Outcome State Fault Refusal} {t : State} (h : o = .next t) (g : State → α) :
    valueAfter g o = some (g t) := by
  rw [h, valueAfter]

end Sys2Proof.Machine
end

section
/-! A submission entry's read of which a request has not been issued yet (R264). -/

namespace Sys2Proof.Machine
open Reg

/-- A read of entry 1 of context 0, one request of which waits for room. -/
def splitEntryRead : HRead :=
  { port := 0, func := 0, runs := [(0, 64)], why := .entry 0 1, sent := true, late := false, rest := [(0, 64)] }

/-- A live function 0 of port 0, a running context 0 and the read. -/
def splitEntryState : State :=
  setFld (CTX_STAT_STATE 0) 2 { State.reset with
    host := { HostSt.reset with fns := [(fnKey 0 0, { HFn.reset with bme := true })], up := [0], perst := [], crs := [] }
    io := { Io.reset with hreads := [(1, splitEntryRead)] } }

/-- Refutes O15: `completion` first issues the requests of a read that have not gone out yet (`h.rest`), which the clause on arrived entries leaves
out: one request of the read of entry 1 is still to be sent. -/
theorem not_entriesAreFetchedAndConsumed : ¬ Obligations.EntriesAreFetchedAndConsumed := by
  unfold Obligations.EntriesAreFetchedAndConsumed
  rintro ⟨-, harrived, -⟩
  obtain ⟨-, hkept⟩ := harrived 0 1 0 1 [] splitEntryRead splitEntryState (by decide) (by decide) rfl rfl rfl rfl (by decide) rfl (by decide) rfl
  exact absurd (valueAfter_eq (hkept (by decide)) (·.out.length)) (by decide +kernel)

end Sys2Proof.Machine
end

section
/-! A context bound to a function that does not exist (R194). -/

namespace Sys2Proof.Machine
open Reg

/-- Context 0, disabled, is bound to virtual function 5, which is not enabled; the function masters the bus still. -/
def strayContext : State :=
  setFld (CTX_BIND_VALID 0) 1 (setFld (CTX_BIND_FUNC 0) 5 (setFld (CTX_STAT_STATE 0) 1 (setFld (CTX_RING_SIZE_SQ_M1 0) 63
    (setFld (CTX_RING_SIZE_CQ_M1 0) 63 { State.reset with
      host := { HostSt.reset with fns := [(fnKey 0 5, { HFn.reset with bme := true })], up := [0], perst := [], crs := [] } }))))

/-- Refutes O16: RUN of a context whose function does not exist leaves its state, and the clause on RUN does not ask for the function. -/
theorem not_ringControlsMoveStates : ¬ Obligations.RingControlsMoveStates := by
  unfold Obligations.RingControlsMoveStates
  rintro ⟨hrun, -⟩
  obtain ⟨t, hexec, hstate, -⟩ := hrun (.core 0) 0 strayContext (by decide) (by unfold Passes; decide) (by decide) (by decide) (by decide)
    (by decide) (by decide)
  have hstays : valueAfter (ctxState · 0) (exec (.runSet (.core 0) 0) strayContext) = some 1 := by decide +kernel
  exact absurd (hstate ▸ (valueAfter_eq hexec (ctxState · 0)).symm.trans hstays) (by decide)

end Sys2Proof.Machine
end

section
/-! The I/O commands of a ring start (Table RING-7, R211 to R215). -/

namespace Sys2Proof.Machine
open Reg

theorem startIo_of_due {n op : Nat} {x : Cmd} {s : State} (h : StartsIo n op x s) (f : Cmd → State → State) :
    startIo n op f s = f x (updCmd n (fun y => { y with phase := .running }) s) := by
  obtain ⟨hcmd, hphase, hop, hadmin, hready⟩ := h
  simp [startIo, hcmd, hphase, hop, hadmin, hready]

/-- What READ and VERIFY do once they are due. -/
theorem startRead_of_due {n op : Nat} {x : Cmd} {s : State} (h : StartsIo n op x s) (hop : op ≠ 6) :
    startRead n op s = partDone n (serveBlocks n (List.range (enBlocks x.raw)) (updCmd n (fun y => { y with todo := 0 })
      (addParts n 1 (updCmd n (fun y => { y with phase := .running }) s)))) := by
  rw [startRead, startIo_of_due h]
  simp only [if_neg hop]

theorem startCompare_of_due {n : Nat} {x : Cmd} {s : State} (h : StartsIo n 6 x s) :
    startRead n 6 s = partDone n (serveBlocks n (List.range (enBlocks x.raw)) (fromHost n 0 (4096 * enBlocks x.raw) (.cmp n)
      (addParts n 1 (updCmd n (fun y => { y with todo := 0 }) (addParts n 1 (updCmd n (fun y => { y with phase := .running }) s)))))) := by
  rw [startRead, startIo_of_due h]
  simp only [if_true]

theorem startWrite_of_due {n op : Nat} {x : Cmd} {s : State} (h : StartsIo n op x s) :
    startWrite n op s = present (cutSegs (updCmd n (fun y => { y with phase := .running }) s) .host n (enVol x.raw) (enLba x.raw)
        (enBlocks x.raw) (decide (op ≠ 2)) (decide (op = 5)) (fun _ => none)) n
      (updCmd n (fun y => { y with todo := 0 }) (updCmd n (fun y => { y with phase := .running }) s)) := by
  rw [startWrite, startIo_of_due h]

theorem startFlush_of_due {n : Nat} {x : Cmd} {s : State} (h : StartsIo n 3 x s) :
    startFlush n s =
      let t := addParts n 1 (updCmd n (fun y => { y with todo := 0 }) (updCmd n (fun y => { y with phase := .running }) s))
      if x.keys = [] then partDone n t else t := by
  rw [startFlush, startIo_of_due h]

/-- Settles O17: each command runs `startIo`, which a command that is due passes. -/
theorem ioCommandsStart : Obligations.IoCommandsStart := by
  unfold Obligations.IoCommandsStart
  refine ⟨fun n x s h => ?read, fun n x s h => ?verify, fun n x s h => ?compare, fun n x s h => ?write, fun n x s h => ?zeroes,
    fun n x s h => ?dealloc, fun n x s h hkeys => ?flush⟩
  case read => rw [exec_read, execRead, run_true, startRead_of_due h (by decide)]
  case verify => rw [exec_verify, execVerify, run_true, startRead_of_due h (by decide)]
  case compare => rw [exec_compare, execCompare, run_true, startCompare_of_due h]
  case write => exact congrArg Host.Outcome.next (startWrite_of_due h)
  case zeroes => exact congrArg Host.Outcome.next (startWrite_of_due h)
  case dealloc => exact congrArg Host.Outcome.next (startWrite_of_due h)
  case flush =>
    rw [exec_flush, execFlush, run_true, startFlush_of_due h]
    simp only [if_pos hkeys]

/-- Settles O18: the branch of each command's step that its hypotheses leave. -/
theorem flushFillAndCopyGoOn : Obligations.FlushFillAndCopyGoOn := by
  unfold Obligations.FlushFillAndCopyGoOn
  refine ⟨fun n x s h hkeys => ?flush, fun n x s h htodo hdue hfree => ?fill, fun n x s h htodo hwaits htries hsrc hdue hfree => ?copy,
    fun n x st d s h hwaits hsrc => ?copyBad⟩
  case flush =>
    rw [exec_flush, execFlush, run_true, startFlush_of_due h]
    simp only [if_neg hkeys]
  case fill =>
    obtain ⟨hcmd, hphase, hop, hadmin, hready⟩ := h
    rw [exec_fill, execFill, run_true]
    simp [fillStep, hcmd, hphase, hop, hadmin, hready, htodo, hdue, hfree]
  case copy =>
    obtain ⟨hcmd, hphase, hop, hadmin, hready⟩ := h
    rw [exec_copy, execCopy, run_true]
    simp [copyStep, hcmd, hphase, hop, hadmin, hready, htodo, hwaits, htries, hsrc, hdue, hfree]
  case copyBad =>
    obtain ⟨hcmd, hphase, hop, hadmin, hready⟩ := h
    rw [exec_copy, execCopy, run_true]
    simp [copyStep, hcmd, hphase, hop, hadmin, hready, hwaits, hsrc]

end Sys2Proof.Machine
end

section
/-! What counting an access that needed its session's role leaves (Table ROLE-5, R417). -/

namespace Sys2Proof.Machine

/-- An admitted access is counted in the Sketchbook's measures and in its session alone. -/
theorem admitted_frame (w : Win) (p : Nat) (s : State) : { admitted w p s with role := s.role, evr := s.evr } = s := by
  unfold admitted needRole roleAction sketchCount sketchExtreme
  dsimp only
  split
  · split
    · rfl
    · split <;> rfl
  · rfl

@[simp] theorem admitted_timeQ (w : Win) (p : Nat) (s : State) : (admitted w p s).timeQ = s.timeQ := (congrArg State.timeQ (admitted_frame w p s) :)
@[simp] theorem admitted_fresh (w : Win) (p : Nat) (s : State) : (admitted w p s).fresh = s.fresh := (congrArg State.fresh (admitted_frame w p s) :)
@[simp] theorem admitted_out (w : Win) (p : Nat) (s : State) : (admitted w p s).out = s.out := (congrArg State.out (admitted_frame w p s) :)
@[simp] theorem admitted_io (w : Win) (p : Nat) (s : State) : (admitted w p s).io = s.io := (congrArg State.io (admitted_frame w p s) :)
@[simp] theorem admitted_store (w : Win) (p : Nat) (s : State) : (admitted w p s).store = s.store := (congrArg State.store (admitted_frame w p s) :)
@[simp] theorem admitted_cache (w : Win) (p : Nat) (s : State) : (admitted w p s).cache = s.cache := (congrArg State.cache (admitted_frame w p s) :)
@[simp] theorem admitted_bem (w : Win) (p : Nat) (s : State) : (admitted w p s).bem = s.bem := (congrArg State.bem (admitted_frame w p s) :)
@[simp] theorem admitted_host (w : Win) (p : Nat) (s : State) : (admitted w p s).host = s.host := (congrArg State.host (admitted_frame w p s) :)
@[simp] theorem admitted_drive (w : Win) (p : Nat) (s : State) : (admitted w p s).drive = s.drive := (congrArg State.drive (admitted_frame w p s) :)
@[simp] theorem admitted_dram (w : Win) (p : Nat) (s : State) : (admitted w p s).dram = s.dram := (congrArg State.dram (admitted_frame w p s) :)
@[simp] theorem admitted_link (w : Win) (p : Nat) (s : State) : (admitted w p s).link = s.link := (congrArg State.link (admitted_frame w p s) :)
@[simp] theorem admitted_mover (w : Win) (p : Nat) (s : State) : (admitted w p s).mover = s.mover := (congrArg State.mover (admitted_frame w p s) :)
@[simp] theorem admitted_icu (w : Win) (p : Nat) (s : State) : (admitted w p s).icu = s.icu := (congrArg State.icu (admitted_frame w p s) :)
@[simp] theorem admitted_flt (w : Win) (p : Nat) (s : State) : (admitted w p s).flt = s.flt := (congrArg State.flt (admitted_frame w p s) :)
@[simp] theorem admitted_pwr (w : Win) (p : Nat) (s : State) : (admitted w p s).pwr = s.pwr := (congrArg State.pwr (admitted_frame w p s) :)
@[simp] theorem admitted_sched (w : Win) (p : Nat) (s : State) : (admitted w p s).sched = s.sched := (congrArg State.sched (admitted_frame w p s) :)
@[simp] theorem admitted_sum (w : Win) (p : Nat) (s : State) : (admitted w p s).sum = s.sum := (congrArg State.sum (admitted_frame w p s) :)
@[simp] theorem admitted_flash (w : Win) (p : Nat) (s : State) : (admitted w p s).flash = s.flash := (congrArg State.flash (admitted_frame w p s) :)

/-- What counts a configuration change leaves of every field but the page's counter. -/
theorem seqFlds_getFld {p : Nat} {f : FRef} (h : f.key ≠ (Reg.PG_SEQ_COUNT p).key) (l : List FRef) (b t : State) :
    getFld (seqFlds p l b t) f = getFld t f := by
  unfold seqFlds
  split
  · rfl
  · exact getFld_setFld_ne h _ t

theorem seqFlds_frame (p : Nat) (l : List FRef) (b t : State) : { seqFlds p l b t with regs := t.regs } = t := by
  unfold seqFlds
  split <;> rfl

@[simp] theorem seqFlds_io (p : Nat) (l : List FRef) (b t : State) : (seqFlds p l b t).io = t.io := (congrArg State.io (seqFlds_frame p l b t) :)
@[simp] theorem seqFlds_out (p : Nat) (l : List FRef) (b t : State) : (seqFlds p l b t).out = t.out := (congrArg State.out (seqFlds_frame p l b t) :)
@[simp] theorem seqFlds_flash (p : Nat) (l : List FRef) (b t : State) : (seqFlds p l b t).flash = t.flash :=
  (congrArg State.flash (seqFlds_frame p l b t) :)

end Sys2Proof.Machine
end

section
/-! Admission (R47, R52 to R54) and its probe and marks (R80, R81). -/

namespace Sys2Proof.Machine
open Reg

/-- The decision on the front segment where it is in no group (R52). -/
theorem decideSeg_of_front {g : Seg} {rest : List Seg} {s : State} (ue : Bool) (hqueue : s.io.queue = g :: rest)
    (hopen : isSet s ADM_STAT_FROZEN = false) (hon : enabled s 0x2B = true) (hgroup : g.group = 0) :
    decideSeg ue s =
      let t := add64 ADM_DECIDED_LO_COUNT ADM_DECIDED_HI_COUNT 1 (updIo (fun i => { i with queue := rest, admCount := s.io.admCount + 1 }) s)
      let g1 : Seg := { g with adm := s.io.admCount + 1 }
      match ((checkSet s g).filterMap (fun h => refusal s h ue)).head? with
      | some st => refuseSegs g st t
      | none => if segStale t g1 then t else if canGrant t t.io.waitl g1 then doGrant g1 t
          else enqueueWait (.seg g1) (incFld ADM_QUEUED_COUNT 1 (wakePipes (noteQueued g1 t))) := by
  simp only [decideSeg, hqueue, hopen, hon, hgroup, onlyIf, Bool.not_true, Bool.or_self, ne_eq, not_true, decide_false, Bool.false_and,
    Bool.and_false, Bool.false_eq_true, if_false] <;> (cases ((checkSet s g).filterMap (fun h => refusal s h ue)).head? <;> rfl)

theorem grantQueued_of_pick {before rest : List WaitItem} {i : WaitItem} {s : State} (hopen : isSet s ADM_STAT_FROZEN = false)
    (hpick : pickWaiting s [] (waitItems s) = some (before, i, rest)) :
    grantQueued s =
      let t := updIo (fun x => { x with waitl := x.waitl.eraseIdx before.length }) s
      match i with
      | .seg g => if segStale s g then tidyLocks t else doGrant g t
      | .sop id => match sopOf s id with
        | some o =>
          if o.phase ≠ .lock then sopLocked id t
          else if sopPipeFree s before then sopLocked id (takeLock o.plate o.sn .maint t)
          else wakePipes (takeLock o.plate o.sn .maint (updSop id (fun y => { y with phase := .pipe }) s))
        | none => t := by
  simp only [grantQueued, hopen, hpick, Bool.false_eq_true, if_false]
  cases i <;> rfl

/-- The 64-bit word that two 32-bit fields show. -/
theorem lo_add_hi_mod (w : Nat) : w % 2 ^ 32 + 2 ^ 32 * (w / 2 ^ 32 % 2 ^ 32) = w % 2 ^ 64 := by
  omega

theorem lockWord_of_io {s t : State} (h : t.io = s.io) (l : Lock) : lockWord t l = lockWord s l := by
  have hstripe : ∀ i, itemStripe t i = itemStripe s i := fun i => by cases i <;> simp only [itemStripe, h]
  simp only [lockWord, waitsOn, h, hstripe]

/-- What ADM_PROBE reads: the lock entry of the stripe that its operands name. -/
theorem admProbe_shows (v : Nat) (s : State) :
    getFld (admProbe v s) ADM_PROBE_RES_LO_ENTRY_LO + 2 ^ 32 * getFld (admProbe v s) ADM_PROBE_RES_HI_ENTRY_HI =
      ((lockOf s (bitsOf v 8 6) (getFld s ADM_PROBE_LO_SN_LO + 2 ^ 32 * bitsOf v 0 5)).map (lockWord s)).getD 0 % 2 ^ 64 := by
  have hsn : getFld (setFld ADM_PROBE_HI_PLATE (bitsOf v 8 6) (setFld ADM_PROBE_HI_SN_HI (bitsOf v 0 5) s)) ADM_PROBE_LO_SN_LO =
      getFld s ADM_PROBE_LO_SN_LO := by
    rw [getFld_setFld_ne (by decide), getFld_setFld_ne (by decide)]
  have hhi : getFld (setFld ADM_PROBE_HI_PLATE (bitsOf v 8 6) (setFld ADM_PROBE_HI_SN_HI (bitsOf v 0 5) s)) ADM_PROBE_HI_SN_HI =
      bitsOf v 0 5 := by
    rw [getFld_setFld_ne (by decide), getFld_setFld_self]
    exact Nat.mod_mod _ _
  simp only [admProbe, hsn, hhi]
  rw [getFld_setFld_ne (by decide), getFld_setFld_self, getFld_setFld_self]
  exact lo_add_hi_mod _

/-- Settles O19: the branches of the decision and of the grant, and the probe's and the marks' register writes. -/
theorem admissionDecidesAndGrants : Obligations.AdmissionDecidesAndGrants := by
  unfold Obligations.AdmissionDecidesAndGrants
  refine ⟨fun g rest ue s hqueue hopen hon hgroup => ⟨fun st hst => ?refused, fun hst hstale hcan => ?granted, fun hst hstale hcan => ?queued⟩,
    fun before rest g s hopen hpick hstale => ?segment, fun before rest id o s hopen hpick hsop => ⟨fun hlock hpipe => ?pipe,
      fun hlock hpipe => ?noPipe, fun hlock => ?locked⟩, fun w v s hpass => ?probe, fun w v s hpass hv => ?admMarks,
    fun w v s hpass hv => ?jnlMark⟩
  case refused =>
    rw [exec_admissionDecision, execAdmissionDecision, run_true, decideSeg_of_front ue hqueue hopen hon hgroup]
    simp only [hst]
  case granted =>
    rw [exec_admissionDecision, execAdmissionDecision, run_true, decideSeg_of_front ue hqueue hopen hon hgroup]
    simp only [hst, hstale, hcan, Bool.false_eq_true, if_false, if_true]
  case queued =>
    rw [exec_admissionDecision, execAdmissionDecision, run_true, decideSeg_of_front ue hqueue hopen hon hgroup]
    simp only [hst, hstale, hcan, Bool.false_eq_true, if_false]
  case segment =>
    rw [exec_grantQueuedSegment, execGrantQueuedSegment, run_true, grantQueued_of_pick hopen hpick]
    simp only [hstale, Bool.false_eq_true, if_false]
  case pipe =>
    rw [exec_grantQueuedSegment, execGrantQueuedSegment, run_true, grantQueued_of_pick hopen hpick]
    simp only [hsop, hlock, hpipe, ne_eq, not_true, if_false, if_true]
  case noPipe =>
    rw [exec_grantQueuedSegment, execGrantQueuedSegment, run_true, grantQueued_of_pick hopen hpick]
    simp only [hsop, hlock, hpipe, ne_eq, not_true, Bool.false_eq_true, if_false]
  case locked =>
    rw [exec_grantQueuedSegment, execGrantQueuedSegment, run_true, grantQueued_of_pick hopen hpick]
    simp only [hsop, if_pos hlock]
  case probe =>
    refine ⟨_, by rw [exec_admProbe, execAdmProbe, run_true, guardWrite_pass hpass], ?word, ?io, ?out, ?flash⟩
    case word =>
      rw [seqFlds_getFld (by decide), seqFlds_getFld (by decide), admProbe_shows, getFld_admitted]
      have hword : lockWord (admitted w 0x2B s) = lockWord s := funext (lockWord_of_io (admitted_io w 0x2B s))
      rw [hword]
      simp only [lockOf, admitted_io]
    case io => rw [seqFlds_io]; exact admitted_io w 0x2B s
    case out => rw [seqFlds_out]; exact admitted_out w 0x2B s
    case flash => rw [seqFlds_flash]; exact admitted_flash w 0x2B s
  case admMarks =>
    rw [exec_admClrHwm, execAdmClrHwm, run_true, guardWrite_pass hpass, onlyIf, if_pos (decide_eq_true hv)]
    simp only [waitItems, admitted_io]
  case jnlMark =>
    rw [exec_jnlClrHwm, execJnlClrHwm, run_true, guardWrite_pass hpass, onlyIf, if_pos (decide_eq_true hv)]
    simp only [admitted_io]

end Sys2Proof.Machine
end

section
/-! Events, counts and things sent leave the other parts of the state. -/

namespace Sys2Proof.Machine
open Reg

/-! ### Events (R440) -/

@[simp] theorem setEvt_timeQ (p b : Nat) (s : State) : (setEvt p b s).timeQ = s.timeQ := (congrArg State.timeQ (setEvtBits_frame p (2 ^ b) s) :)
@[simp] theorem setEvt_out (p b : Nat) (s : State) : (setEvt p b s).out = s.out := (congrArg State.out (setEvtBits_frame p (2 ^ b) s) :)
@[simp] theorem setEvt_io (p b : Nat) (s : State) : (setEvt p b s).io = s.io := (congrArg State.io (setEvtBits_frame p (2 ^ b) s) :)
@[simp] theorem setEvt_store (p b : Nat) (s : State) : (setEvt p b s).store = s.store := (congrArg State.store (setEvtBits_frame p (2 ^ b) s) :)
@[simp] theorem setEvt_cache (p b : Nat) (s : State) : (setEvt p b s).cache = s.cache := (congrArg State.cache (setEvtBits_frame p (2 ^ b) s) :)
@[simp] theorem setEvt_bem (p b : Nat) (s : State) : (setEvt p b s).bem = s.bem := (congrArg State.bem (setEvtBits_frame p (2 ^ b) s) :)
@[simp] theorem setEvt_host (p b : Nat) (s : State) : (setEvt p b s).host = s.host := (congrArg State.host (setEvtBits_frame p (2 ^ b) s) :)
@[simp] theorem setEvt_drive (p b : Nat) (s : State) : (setEvt p b s).drive = s.drive := (congrArg State.drive (setEvtBits_frame p (2 ^ b) s) :)
@[simp] theorem setEvt_dram (p b : Nat) (s : State) : (setEvt p b s).dram = s.dram := (congrArg State.dram (setEvtBits_frame p (2 ^ b) s) :)
@[simp] theorem setEvt_link (p b : Nat) (s : State) : (setEvt p b s).link = s.link := (congrArg State.link (setEvtBits_frame p (2 ^ b) s) :)
@[simp] theorem setEvt_icu (p b : Nat) (s : State) : (setEvt p b s).icu = s.icu := (congrArg State.icu (setEvtBits_frame p (2 ^ b) s) :)
@[simp] theorem setEvt_flt (p b : Nat) (s : State) : (setEvt p b s).flt = s.flt := (congrArg State.flt (setEvtBits_frame p (2 ^ b) s) :)
@[simp] theorem setEvt_pwr (p b : Nat) (s : State) : (setEvt p b s).pwr = s.pwr := (congrArg State.pwr (setEvtBits_frame p (2 ^ b) s) :)
@[simp] theorem setEvt_role (p b : Nat) (s : State) : (setEvt p b s).role = s.role := (congrArg State.role (setEvtBits_frame p (2 ^ b) s) :)
@[simp] theorem setEvt_evr (p b : Nat) (s : State) : (setEvt p b s).evr = s.evr := (congrArg State.evr (setEvtBits_frame p (2 ^ b) s) :)
@[simp] theorem setEvt_flash (p b : Nat) (s : State) : (setEvt p b s).flash = s.flash := (congrArg State.flash (setEvtBits_frame p (2 ^ b) s) :)

/-- Of a page's registers an event changes PG_EVT and PG_EVT_FIRST alone. -/
theorem getFld_setEvt_ne {p : Nat} {f : FRef} (hevt : f.key ≠ (PG_EVT_EVT p).key) (hbit : f.key ≠ (PG_EVT_FIRST_BIT p).key)
    (hvalid : f.key ≠ (PG_EVT_FIRST_VALID p).key) (bit : Nat) (s : State) : getFld (setEvt p bit s) f = getFld s f :=
  getFld_setEvtBits_ne hevt hbit hvalid _ s

/-- A field behind the event registers of every page, as all but the page headers are. -/
theorem getFld_setEvt_other {p : Nat} {f : FRef} (hoff : 0x20 ≤ f.off) (hroom : f.off * 32 + f.lo < 2 ^ 17)
    (bit : Nat) (s : State) : getFld (setEvt p bit s) f = getFld s f := by
  refine getFld_setEvt_ne ?evt ?bit ?valid bit s
  all_goals simp only [FRef.key, PG_EVT_EVT, PG_EVT_FIRST_BIT, PG_EVT_FIRST_VALID]; omega

/-! ### Counts -/

@[simp] theorem incFld_io (f : FRef) (n : Nat) (s : State) : (incFld f n s).io = s.io := rfl
@[simp] theorem add64_io (lo hi : FRef) (n : Nat) (s : State) : (add64 lo hi n s).io = s.io := rfl

/-! ### Sent work ends IDLE (R396) -/

@[simp] theorem leaveIdle_io (s : State) : (leaveIdle s).io = s.io := by
  unfold leaveIdle
  split
  · rw [setEvt_io, setFld_io]
  · rfl

@[simp] theorem emit_io (o : Out) (s : State) : (emit o s).io = s.io := by
  unfold emit
  dsimp only
  split
  · exact leaveIdle_io s
  · rfl

@[simp] theorem sendReqs_io (tag : Nat) (h : HRead) (reqs : List (Nat × Nat)) (s : State) : (sendReqs tag h reqs s).io = s.io := by
  unfold sendReqs
  generalize (fnOf s h.port h.func).cfg.relaxed = relaxed
  induction reqs generalizing s with
  | nil => rfl
  | cons r reqs ih => rw [List.foldl_cons, ih, emit_io]

/-! ### Errors of the host link (R289) -/

@[simp] theorem aerLog_io (port func : Nat) (e : Aer) (s : State) : (aerLog port func e s).io = s.io := by
  have hmsg : ∀ m t, (onlyIf (linkUp s port) (emit (.pcie port m func)) t).io = t.io := fun m t => by
    unfold onlyIf
    split
    · exact emit_io _ t
    · rfl
  unfold aerLog
  dsimp only
  cases errMsg (fnOf s port 0).cfg e with
  | none => split <;> simp [updFn]
  | some m => split <;> simp [updFn, hmsg]

theorem reportTimeout_hreads (port func tag : Nat) (s : State) : (reportTimeout port func tag s).io.hreads = s.io.hreads := by
  simp [reportTimeout]

end Sys2Proof.Machine
end

section
/-! Reads of host memory end (R209, R266 to R268). -/

namespace Sys2Proof.Machine
open Reg

/-- What a read's data does once its function is live and the read is not abandoned: its last requests are issued, its bytes counted. -/
theorem completion_data {port tag : Nat} {bytes : List Byte} {h : HRead} {s : State} (hread : smGet s.io.hreads tag = some h)
    (hport : h.port = port) (hsent : h.sent = true) (hlate : h.late = false) (hlive : fnLive s h.port h.func = true) (act : State → State) :
    completion port tag (.data bytes) act s = pumpReads (act (add64 (HEP_RD_LO_COUNT port) (HEP_RD_HI_COUNT port)
      ((h.runs.map Prod.snd).sum) (sendReqs tag h h.rest s))) := by
  subst hport
  simp [completion, hread, hsent, hlate, hlive, readEnded, rdError]

/-- What the end of a read does is decided by its purpose. -/
theorem hostReadDone_of_read {tag : Nat} {h : HRead} {s : State} (hread : smGet s.io.hreads tag = some h) (r : HostRd) :
    hostReadDone tag r s =
      let s1 := updIo (fun i => { i with hreads := smDel i.hreads tag }) s
      match h.why, r with
      | .entry _ _, _ => entryReceived tag r s
      | .sgl n, _ => sglArrived n r s1
      | .wdata j, .data bytes => hostData j bytes s1
      | .wdata j, _ => hostDataBad j s1
      | .cmp n, .data bytes => partDone n (updCmd n (fun y => { y with host := bytes }) s1)
      | .cmp n, _ => partDone n (updCmd n (fun y => { y with detail := 0xFFF2, fail := some (enLba y.raw, .invalidField) }) s1) := by
  rw [hostReadDone, hread] <;> rfl

theorem exec_hostReadCompletion_eq {port tag : Nat} {r : HostRd} {s : State} {g : State → State} (hport : port < 2)
    (h : completion port tag r (hostReadDone tag r) s = g s) : exec (.hostReadCompletion port tag r) s = .next (ltrSync g s) := by
  rw [exec_hostReadCompletion, execHostReadCompletion, decide_eq_true hport, run_true, ltrSync_congr h]

/-- A read that its data ends: what it does is decided by its purpose. -/
theorem exec_hostReadCompletion_data {port tag : Nat} {bytes : List Byte} {h : HRead} {s : State} {g : State → State} (hp : port < 2)
    (hread : smGet s.io.hreads tag = some h) (hport : h.port = port) (hsent : h.sent = true) (hlate : h.late = false)
    (hlive : fnLive s h.port h.func = true)
    (hdone : ∀ t, smGet t.io.hreads tag = some h → hostReadDone tag (.data bytes) t = g t) :
    exec (.hostReadCompletion port tag (.data bytes)) s = .next (ltrSync (fun t => pumpReads (g (add64 (HEP_RD_LO_COUNT port)
      (HEP_RD_HI_COUNT port) ((h.runs.map Prod.snd).sum) (sendReqs tag h h.rest t)))) s) := by
  refine exec_hostReadCompletion_eq hp ?_
  rw [completion_data hread hport hsent hlate hlive, hdone]
  rw [add64_io, sendReqs_io]
  exact hread

/-- Settles O20: the branches of `completion` and `timeout`, with what the read's purpose decides. -/
theorem hostReadsEnd : Obligations.HostReadsEnd := by
  unfold Obligations.HostReadsEnd
  refine ⟨fun port tag j bytes h s hp hread hport hsent hlate hlive hwhy => ?writeData,
    fun tag j h s hread hsent hlate hlive hout hwhy => ?timedOut, fun port tag r s hp hnone => ?unexpected,
    fun port tag n bytes h s hp hread hport hsent hlate hlive => ⟨fun hwhy => ?compareData, fun hwhy => ?scatterList⟩⟩
  case writeData =>
    exact exec_hostReadCompletion_data (g := fun t => hostData j bytes (updIo (fun i => { i with hreads := smDel i.hreads tag }) t))
      hp hread hport hsent hlate hlive (fun t ht => by rw [hostReadDone_of_read ht, hwhy])
  case timedOut =>
    rw [exec_completionTimeout, execCompletionTimeout, run_true]
    refine congrArg Host.Outcome.next (ltrSync_congr ?_)
    have htimeout : timeout tag (hostReadDone tag .abort) s = pumpReads (hostReadDone tag .abort (reportTimeout h.port h.func tag s)) := by
      simp [timeout, hread, hsent, hout, hlate, hlive]
    rw [htimeout, hostReadDone_of_read ((reportTimeout_hreads h.port h.func tag s).symm ▸ hread), hwhy]
    rfl
  case unexpected =>
    refine exec_hostReadCompletion_eq hp ?_
    rw [completion, hnone]
    rfl
  case compareData =>
    exact exec_hostReadCompletion_data
      (g := fun t => partDone n (updCmd n (fun y => { y with host := bytes }) (updIo (fun i => { i with hreads := smDel i.hreads tag }) t)))
      hp hread hport hsent hlate hlive (fun t ht => by rw [hostReadDone_of_read ht, hwhy])
  case scatterList =>
    exact exec_hostReadCompletion_data (g := fun t => sglArrived n (.data bytes) (updIo (fun i => { i with hreads := smDel i.hreads tag }) t))
      hp hread hport hsent hlate hlive (fun t ht => by rw [hostReadDone_of_read ht, hwhy])

end Sys2Proof.Machine
end

section
/-! What moves a journal entry on (R56, R57, Tables WRITE-5 and WRITE-6). -/

namespace Sys2Proof.Machine
open Reg

/-- DATA_STAGED of an entry that has all its data and whose old strips serve it. -/
theorem dataStagedCmd_of_ready {j : Nat} {e : JEntry} {x : Plate} {s : State} (hentry : entryOf s j = some e)
    (hplate : plateOf s e.seg.plate = some x) (hstate : e.state = .opened) (hpath : e.path ≠ .cache) (hstaged : e.staged = false)
    (hready : entryReady s j e = true) (hlink : e.seg.group = 0 → linkGate s e 1 = true)
    (holds : let er := if e.forced || !e.recon then applyGen x.geom.k e.old (blkRange e.blkFirst e.blkLast) e.erased else e.erased
      e.path = .stream ∨ (e.forced = true ∧ overErased x.geom (blkRange e.blkFirst e.blkLast) er = []) ∨ (e.forced = false ∧ er = [])) :
    dataStagedCmd j s =
      if e.seg.group ≠ 0 then mirrorEntry j (updEntry j (fun y => { y with staged := true }) s) else dataStaged j s := by
  have hopen : ¬ (e.state ≠ .opened ∨ e.path = .cache ∨ e.staged ∨ !entryReady s j e ∨ (e.seg.group = 0 ∧ !linkGate s e 1)) := by
    simp only [hstate, hpath, hstaged, hready]
    simpa using hlink
  simp only [dataStagedCmd, hentry, hplate, if_neg hopen]
  rcases holds with hstream | ⟨hforced, hover⟩ | ⟨hforced, herased⟩
  · simp only [hstream, ne_eq, not_true, false_and, if_false]
  · simp only [hforced, Bool.true_or, if_true] at hover
    simp only [hforced, Bool.true_or, if_true, hover, ne_eq, not_true, and_false, Bool.not_true, Bool.false_eq_true, false_and, if_false]
  · simp only [hforced, Bool.false_or] at herased
    simp only [hforced, Bool.false_or, herased, ne_eq, not_true, and_false, Bool.false_eq_true, false_and, if_false]

theorem logDone_of_written {j : Nat} {e : JEntry} {s : State} (hentry : entryOf s j = some e) (hlogged : e.logged = true)
    (hstate : 2 ≤ jstateCode e.state)
    (hdone : ∀ q ∈ s.io.nvme, ∀ i m, q.2.why = .log i m → ∀ r ∈ groupEntries s e.seg.group, r.2.seg.plate = e.seg.plate → r.1 ≠ i) :
    logDone j s = ((groupEntries s e.seg.group).filter (fun q => decide (q.2.seg.plate = e.seg.plate))).foldl
      (fun t q => updEntry q.1 (fun y => { y with logDone := true }) t) s := by
  simp only [logDone, hentry]
  refine if_neg ?_
  rintro (hbusy | hlog | hcode)
  · obtain ⟨q, hq, hwhy⟩ := List.any_eq_true.mp hbusy
    split at hwhy
    case h_1 i m hlog =>
      obtain ⟨r, hr, hri⟩ := List.any_eq_true.mp hwhy
      obtain ⟨hmate, hon⟩ := List.mem_filter.mp hr
      exact hdone q hq i m hlog r hmate (of_decide_eq_true hon) (of_decide_eq_true hri)
    case h_2 => exact Bool.false_ne_true hwhy
  · simp [hlogged] at hlog
  · exact Nat.not_lt.mpr hstate hcode

/-- A stripe operation whose survivors are through its pipe goes on by its kind. -/
theorem jobEnd_sop {id : Nat} {o : Sop} {s : State} (hsop : sopOf s id = some o) (hphase : o.phase = .reading) (hreads : sopReads s id = 0)
    (hpipe : onPipe s (.sop id) = true) (hheld : repairHeld s o = false) :
    jobEnd true id s =
      let u := dropJob (.sop id) (pipeBytes o.pipe (4096 * o.grid.length) (match o.kind with | .recon _ _ => false | _ => true) o.ctx s)
      match o.kind with
      | .recon cmd off => reconDone id cmd off u
      | .rebuild => rebuildDone id u
      | .proof => proofChecked id u
      | .loss => lossDone id u := by
  simp only [jobEnd, hsop, hphase, hreads, hpipe, hheld]
  rfl

theorem headersDone_of_written {p : Nat} {s : State} (hdone : ∀ q ∈ s.io.nvme, ∀ m, q.2.why ≠ .header p m) :
    headersDone p s = (((plateOf (refillRecords p (updJp p (fun y => { y with hdrWait := 0 }) s)) p).map (fun x => x.jp.dirty)).getD []).foldl
      (fun t b => writeRecords p b t) (refillRecords p (updJp p (fun y => { y with hdrWait := 0 }) s)) := by
  refine if_neg fun hbusy => ?_
  obtain ⟨q, hq, hwhy⟩ := List.any_eq_true.mp hbusy
  split at hwhy
  case h_1 r m hheader => exact hdone q hq m (of_decide_eq_true hwhy ▸ hheader)
  case h_2 => exact Bool.false_ne_true hwhy

theorem remirrorDone_of_written {p : Nat} {x : Plate} {s : State} (hplate : plateOf s p = some x) (hcopying : x.jp.copying = true)
    (hwait : x.jp.copyWait = 1) (hdone : ∀ q ∈ s.io.nvme, ∀ m, q.2.why ≠ .header p m ∧ q.2.why ≠ .remir p m) :
    remirrorDone p s = startLabel p (setEvt 0x2A JNL_EVT_REMIRROR_DONE
      (updJp p (fun y => { y with a := if y.a.isSome then y.a else some (x.jp.copyTo, x.jp.copyGen),
                                  b := if y.a.isSome then some (x.jp.copyTo, x.jp.copyGen) else y.b, copying := false, copyWait := 0 }) s)) := by
  simp only [remirrorDone, hplate]
  refine if_neg ?_
  rintro (hcopy | hone | hbusy)
  · simp [hcopying] at hcopy
  · exact hone hwait
  · obtain ⟨q, hq, hwhy⟩ := List.any_eq_true.mp hbusy
    split at hwhy
    case h_1 r m hheader => exact (hdone q hq m).1 (of_decide_eq_true hwhy ▸ hheader)
    case h_2 r m hremir => exact (hdone q hq m).2 (of_decide_eq_true hwhy ▸ hremir)
    case h_3 => exact Bool.false_ne_true hwhy

/-- Settles O21: each command's guard passes, and its effect is the clause's. -/
theorem journalEntriesMoveOn : Obligations.JournalEntriesMoveOn := by
  unfold Obligations.JournalEntriesMoveOn
  refine ⟨fun j e x s hj hentry hplate hstate hpath hstaged hready hgroup hlink => ?streamStaged,
    fun j e x s hj hentry hplate hstate hpath hstaged hready => fun holds => ⟨fun hgroup hlink => ?staged, fun hgroup => ?groupStaged⟩,
    fun j h s hj hentry hgroup hhead hstate hblocks hall => ?commitPoint, fun j e s hj hentry hlogged hstate hdone => ?log,
    fun id e x s hentry hplate hstate hgroup hlog hpipe => ?entryJob,
    fun id o s hsop hphase hreads hpipe hheld => ⟨fun hkind => ?rebuild, fun hkind => ?proof, fun hkind => ?loss, fun c off hkind => ?recon⟩,
    fun j e x s hj hentry hpath hplate hstate hwritten => ?committed, fun j e s hj hentry hpath hstate hgroup hstaged => ?cacheCommit,
    fun j e s hj hentry hfree hsrc => ?freed, fun p s hp hdone => ?headers, fun p blk x s hp hblk hplate hwriting hwait => ?records,
    fun p x s hp hplate hcopying hwait hdone => ?remirror⟩
  case streamStaged =>
    rw [exec_dataStaged, execDataStaged, decide_eq_true hj, run_true, dataStagedCmd_of_ready hentry hplate hstate (by simp [hpath]) hstaged
      hready (fun _ => hlink) (.inl hpath), if_neg (not_not.mpr hgroup)]
  case staged =>
    rw [exec_dataStaged, execDataStaged, decide_eq_true hj, run_true, dataStagedCmd_of_ready hentry hplate hstate hpath hstaged
      hready (fun _ => hlink) holds, if_neg (not_not.mpr hgroup)]
  case groupStaged =>
    rw [exec_dataStaged, execDataStaged, decide_eq_true hj, run_true, dataStagedCmd_of_ready hentry hplate hstate hpath hstaged
      hready (fun h => absurd h hgroup) holds, if_pos hgroup]
  case commitPoint =>
    have hopen : ¬ (h.seg.group = 0 ∨ h.headIdx ≠ j ∨ h.state ≠ .opened ∨
        ((groupEntries s h.seg.group).map (fun q => q.2.seg.wset.length)).sum ≠ h.seg.gBlks ∨
        !(groupEntries s h.seg.group).all (fun q => q.2.staged && linkGate s q.2 1)) := by
      rw [hhead, hstate, hblocks, hall]
      simp only [hgroup, ne_eq, not_true_eq_false, Bool.not_true, Bool.false_eq_true, or_self, not_false_eq_true]
    rw [exec_groupCommitPoint, execGroupCommitPoint, decide_eq_true hj, run_true, groupCommit]
    simp only [hentry]
    exact congrArg Host.Outcome.next (if_neg hopen)
  case log => rw [exec_atomicLogWriteDone, execAtomicLogWriteDone, decide_eq_true hj, run_true, logDone_of_written hentry hlogged hstate hdone]
  case entryJob =>
    have hgo : ¬ (e.state ≠ .dataStaged ∨ (e.seg.group ≠ 0 ∧ jstateCode (effState s e) < 2) ∨ !e.logDone ∨ !onPipe s (.entry id)) := by
      simp [hstate, hlog, hpipe]
      omega
    rw [exec_burinJobEnd, execBurinJobEnd, run_true]
    simp only [jobEnd, hentry, hplate, if_neg hgo, onlyIf, decide_eq_true_eq, Bool.false_eq_true, if_false]
  case rebuild => rw [exec_burinJobEnd, execBurinJobEnd, run_true, jobEnd_sop hsop hphase hreads hpipe hheld, hkind]
  case proof => rw [exec_burinJobEnd, execBurinJobEnd, run_true, jobEnd_sop hsop hphase hreads hpipe hheld, hkind]
  case loss => rw [exec_burinJobEnd, execBurinJobEnd, run_true, jobEnd_sop hsop hphase hreads hpipe hheld, hkind]
  case recon => rw [exec_burinJobEnd, execBurinJobEnd, run_true, jobEnd_sop hsop hphase hreads hpipe hheld, hkind]
  case committed =>
    rw [exec_committed, execCommitted, decide_eq_true hj, run_true]
    simp [commit, hentry, hpath, hplate, hstate, hwritten]
  case cacheCommit =>
    rw [exec_committed, execCommitted, decide_eq_true hj, run_true]
    simp [commit, hentry, hpath, hstate, hgroup, hstaged]
  case freed =>
    rw [exec_journalEntryFreed, execJournalEntryFreed, decide_eq_true hj, run_true]
    simp [entryFreed, hentry, hfree, hsrc, onlyIf]
  case headers => rw [exec_journalHeaderWriteDone, execJournalHeaderWriteDone, decide_eq_true hp, run_true, headersDone_of_written hdone]
  case records =>
    rw [exec_journalRecordWriteDone, execJournalRecordWriteDone, decide_eq_true hp, decide_eq_true hblk, Bool.true_and, run_true]
    simp [recordsDone, hplate, hwriting, hwait]
  case remirror =>
    rw [exec_remirrorCopyDone, execRemirrorCopyDone, decide_eq_true hp, run_true, remirrorDone_of_written hplate hcopying hwait hdone]

end Sys2Proof.Machine
end

section
/-! Burin pipes: the self-check, waking and the known-answer test (R71, R73, R74). -/

namespace Sys2Proof.Machine
open Reg

/-! ### Jobs go to pipes in the in-flight state alone -/

@[simp] theorem updEntry_regs (j : Nat) (f : JEntry → JEntry) (s : State) : (updEntry j f s).regs = s.regs := by
  unfold updEntry
  split <;> rfl

theorem updEntry_waking (j : Nat) (f : JEntry → JEntry) (s : State) : (updEntry j f s).io.waking = s.io.waking := by
  unfold updEntry
  split <;> rfl

theorem setJobPipe_regs (r : JobRef) (b avoid : Nat) (s : State) : (setJobPipe r b avoid s).regs = s.regs := by
  unfold setJobPipe
  dsimp only
  split
  · split
    · rw [updEntry_regs, updIo_regs]
    · rfl
  · rfl

theorem setJobPipe_waking (r : JobRef) (b avoid : Nat) (s : State) : (setJobPipe r b avoid s).io.waking = s.io.waking := by
  unfold setJobPipe
  dsimp only
  split
  · split
    · rw [updEntry_waking, updIo_io]
    · rfl
  · rfl

/-- What every placement of one job keeps, placing the jobs that wait keeps. -/
theorem placeJobs_keeps {α : Type} (g : State → α) (hg : ∀ r b avoid s, g (setJobPipe r b avoid s) = g s) (s : State) : g (placeJobs s) = g s := by
  unfold placeJobs
  generalize s.io.jobs = jobs
  induction jobs generalizing s with
  | nil => rfl
  | cons j jobs ih =>
    rw [List.foldl_cons, ih]
    split
    · rfl
    · split
      · exact hg _ _ _ _
      · rfl

theorem placeJobs_regs (s : State) : (placeJobs s).regs = s.regs := placeJobs_keeps State.regs setJobPipe_regs s

theorem placeJobs_waking (s : State) : (placeJobs s).io.waking = s.io.waking := placeJobs_keeps (fun t => t.io.waking) setJobPipe_waking s

/-! ### Pipes that settle -/

theorem pipeSleep_getFld {f : FRef} (hpow : ∀ b, f.key ≠ (BUR_STAT_POWERED b).key) (hasl : ∀ b, f.key ≠ (PG_STAT_ASLEEP (0x30 + b)).key) (b : Nat)
    (s : State) : getFld (pipeSleep b s) f = getFld s f := by
  unfold pipeSleep
  split
  · rw [getFld_setFld_ne (hpow b), getFld_setFld_ne (hasl b)]
  · rfl

theorem pipesSleep_getFld {f : FRef} (hpow : ∀ b, f.key ≠ (BUR_STAT_POWERED b).key) (hasl : ∀ b, f.key ≠ (PG_STAT_ASLEEP (0x30 + b)).key)
    (s : State) : getFld (pipesSleep s) f = getFld s f := by
  unfold pipesSleep
  generalize List.range 8 = bs
  induction bs generalizing s with
  | nil => rfl
  | cons b bs ih => rw [List.foldl_cons, ih, pipeSleep_getFld hpow hasl]

/-- A test that waits on a pipe starts by that pipe's KAT alone. -/
theorem katKick_getFld {b : Nat} {f : FRef} {s : State} (h : f.key ≠ (BUR_STAT_KAT b).key ∨ isSet s (BUR_KAT_START b) = false) :
    getFld (katKick b s) f = getFld s f := by
  unfold katKick
  split
  next hkick =>
    rcases h with hne | hoff
    · exact getFld_setFld_ne hne _ _
    · simp [hoff] at hkick
  next => rfl

/-- The fields of a pipe's test where no test of it waits: no other pipe's test, and no pipe's sleep, changes them. -/
theorem katKicks_getFld {b : Nat} {s : State} (hoff : getFld s (BUR_KAT_START b) = 0) (bs : List Nat) :
    getFld (bs.foldl (fun t c => katKick c t) s) (BUR_KAT_START b) = 0 ∧
      getFld (bs.foldl (fun t c => katKick c t) s) (BUR_STAT_KAT b) = getFld s (BUR_STAT_KAT b) := by
  induction bs generalizing s with
  | nil => exact ⟨hoff, rfl⟩
  | cons c bs ih =>
    have hstart : getFld (katKick c s) (BUR_KAT_START b) = 0 := by
      rw [katKick_getFld (.inl (by simp only [FRef.key, BUR_KAT_START, BUR_STAT_KAT]; omega)), hoff]
    have hkat : getFld (katKick c s) (BUR_STAT_KAT b) = getFld s (BUR_STAT_KAT b) := by
      by_cases hc : c = b
      · exact katKick_getFld (.inr (by rw [hc, isSet, hoff]; rfl))
      · exact katKick_getFld (.inl (by simp only [FRef.key, BUR_STAT_KAT]; omega))
    rw [List.foldl_cons]
    exact ⟨(ih hstart).1, (ih hstart).2.trans hkat⟩

theorem pipesSettle_kat {b : Nat} {s : State} (hoff : getFld s (BUR_KAT_START b) = 0) :
    getFld (pipesSettle s) (BUR_KAT_START b) = 0 ∧ getFld (pipesSettle s) (BUR_STAT_KAT b) = getFld s (BUR_STAT_KAT b) := by
  have hsettle : ∀ {f : FRef}, (∀ c, f.key ≠ (BUR_STAT_POWERED c).key) → (∀ c, f.key ≠ (PG_STAT_ASLEEP (0x30 + c)).key) →
      getFld (pipesSettle s) f = getFld ((List.range 8).foldl (fun t c => katKick c t) s) f := fun hpow hasl => by
    rw [pipesSettle, pipesSleep_getFld hpow hasl, getFld_of_regs (placeJobs_regs _)]
  obtain ⟨hstart, hkat⟩ := katKicks_getFld hoff (List.range 8)
  rw [hsettle, hsettle]
  · exact ⟨hstart, hkat⟩
  all_goals
    intro c
    simp only [FRef.key, BUR_STAT_KAT, BUR_KAT_START, BUR_STAT_POWERED, PG_STAT_ASLEEP]
    omega

/-! ### The obligation -/

theorem katDone_shows {b : Nat} {s : State} (lanes : List (Byte × Byte)) (hrun : getFld s (BUR_STAT_KAT b) = 3) :
    getFld (katDone b lanes s) (BUR_KAT_START b) = 0 ∧
      getFld (katDone b lanes s) (BUR_STAT_KAT b) =
        if decide (lanes.length = 32) && lanes.all (fun l => decide (l = (0xD5, 0x67))) then 1 else 2 := by
  have hne : (BUR_STAT_KAT b).key ≠ (BUR_KAT_START b).key := by simp only [FRef.key, BUR_STAT_KAT, BUR_KAT_START]; omega
  have hstart : ∀ t, getFld (setEvt (0x30 + b) BUR_EVT_KAT_DONE (setFld (BUR_KAT_START b) 0 t)) (BUR_KAT_START b) = 0 := fun t => by
    rw [getFld_setEvt_other (by simp [BUR_KAT_START]) (by simp [BUR_KAT_START]), getFld_setFld_self]
    rfl
  rw [katDone, if_pos hrun]
  obtain ⟨hoff, hkat⟩ := pipesSettle_kat (hstart (setFld (BUR_STAT_KAT b)
    (if decide (lanes.length = 32) && lanes.all (fun l => decide (l = (0xD5, 0x67))) then 1 else 2) s))
  refine ⟨hoff, hkat.trans ?_⟩
  rw [getFld_setEvt_other (by simp [BUR_STAT_KAT]) (by simp [BUR_STAT_KAT]), getFld_setFld_ne hne, getFld_setFld_self]
  split <;> rfl

theorem katKick_starts {b : Nat} {s : State} (hidle : pipeJobs s b = 0) (hset : isSet s (BUR_KAT_START b) = true) :
    getFld (katKick b s) (BUR_STAT_KAT b) = 3 := by
  unfold katKick
  split
  next => rw [getFld_setFld_self]; rfl
  next hstays =>
    by_contra hkat
    exact hstays ⟨hset, hidle, hkat⟩

/-- Settles O22: each command's effect, with the placing of jobs and the sleep of pipes that may follow it. -/
theorem burinPipesCheckThemselves : Obligations.BurinPipesCheckThemselves := by
  unfold Obligations.BurinPipesCheckThemselves
  refine ⟨fun b s hb => ?mismatch, fun b s hb hwaking => ?awake, fun w b s hb hpass hidle => ?start, fun b lanes s hb hrun => ?done⟩
  case mismatch =>
    have hexec : ∀ again, exec (.burinBeatMismatch b again) s = .next (beatMismatch b again s) := fun again => by
      rw [exec_burinBeatMismatch, execBurinBeatMismatch, decide_eq_true hb, run_true]
    exact ⟨hexec false, hexec true⟩
  case awake =>
    have hpowered : (BUR_STAT_POWERED b).key ≠ (PG_STAT_ASLEEP (0x30 + b)).key := by simp only [FRef.key, BUR_STAT_POWERED, PG_STAT_ASLEEP]; omega
    refine ⟨_, by rw [exec_burinPipeAwake, execBurinPipeAwake, decide_eq_true hb, run_true, pipeUp, if_pos hwaking], ?powered, ?asleep, ?waking⟩
    case powered =>
      rw [isSet, getFld_of_regs (placeJobs_regs _), getFld_setEvt_other (by simp [BUR_STAT_POWERED]) (by simp [BUR_STAT_POWERED]), getFld_setFld_self]
      rfl
    case asleep =>
      rw [isSet, getFld_of_regs (placeJobs_regs _), getFld_setEvt_ne, getFld_setFld_ne hpowered.symm, getFld_setFld_self]
      · rfl
      all_goals simp only [FRef.key, PG_STAT_ASLEEP, PG_EVT_EVT, PG_EVT_FIRST_BIT, PG_EVT_FIRST_VALID]; omega
    case waking => rw [placeJobs_waking, setEvt_io, setFld_io, setFld_io, updIo_io]
  case start =>
    have hset : ∀ t, isSet (setFld (BUR_KAT_START b) 1 t) (BUR_KAT_START b) = true := fun t => by rw [isSet, getFld_setFld_self]; rfl
    refine ⟨_, by rw [exec_katStart, execKatStart, decide_eq_true hb, run_true, guardWrite_pass hpass], ?kat, ?flag⟩
    case kat =>
      refine katKick_starts ?_ (hset _)
      rw [pipeJobs, setFld_io, admitted_io]
      exact hidle
    case flag =>
      rw [isSet, katKick_getFld (.inl (by simp only [FRef.key, BUR_KAT_START, BUR_STAT_KAT]; omega))]
      exact hset _
  case done =>
    obtain ⟨hstart, hkat⟩ := katDone_shows lanes hrun
    refine ⟨_, by rw [exec_katDone, execKatDone, decide_eq_true hb, run_true], by rw [isSet, hstart]; rfl, ?_⟩
    rw [hkat]
    simp

end Sys2Proof.Machine
end

section
/-! Members' answers, the lost-block table and the labels (R37, R68, R69, R77, R85, R92, R93). -/

namespace Sys2Proof.Machine
open Reg

/-- A write of this node's own that a member has ended, out of a fence. -/
theorem memberWrote_own {id : Nat} {c : NvCmd} {st : Nvme} {s : State} (hcmd : smGet s.io.nvme id = some c) (hissued : nvIssued s id = true)
    (hop : c.op ≠ .read) (hfence : devFenced s = false) (hremote : ∀ a b d, c.why ≠ .remote a b d) (hresv : ∀ a, c.why ≠ .resv a) :
    memberWrote id st s = if st = .ok then writeOk c (hostBytes c (portOk c (endNv id s))) else badStatus c st (endNv id s) := by
  simp only [memberWrote, hcmd, hop, hissued, hfence, Bool.not_true, Bool.false_eq_true, or_self, if_false]

/-- A good read of blocks goes on by its purpose. -/
theorem memberRead_ok {id : Nat} {c : NvCmd} {blks : List TBlk} {s : State} (hcmd : smGet s.io.nvme id = some c)
    (hissued : nvIssued s id = true) (hop : c.op = .read) (hfence : devFenced s = false) :
    let t := readTimed c (hostBytes c (portOk c (endNv id s)))
    (∀ n off, c.why = .cmdRd n off → memberRead id .ok blks s = memberAnswer c n off (checkTags c blks t).2 (checkTags c blks t).1) ∧
    (∀ i pos, c.why = .old i pos → memberRead id .ok blks s = oldAnswer c i pos (checkTags c blks t).2 (checkTags c blks t).1) ∧
    (∀ i pos, c.why = .sopRd i pos → memberRead id .ok blks s = sopAnswer c i pos (checkTags c blks t).2 (checkTags c blks t).1) := by
  refine ⟨fun n off hwhy => ?_, fun i pos hwhy => ?_, fun i pos hwhy => ?_⟩ <;>
    simp [memberRead, hcmd, hop, hissued, hfence, hwhy]

/-- Settles O23: each answer's guards pass, and the request's purpose picks the branch. -/
theorem memberAnswersAndLabelsGoOn : Obligations.MemberAnswersAndLabelsGoOn := by
  unfold Obligations.MemberAnswersAndLabelsGoOn
  refine ⟨fun id c j pos s hcmd hissued hop hwhy hfence => ?strip, fun id c st s hcmd hissued hop hfence hremote hresv =>
    ⟨fun hst => ?wrote, fun hst => ?badWrite⟩, fun id key c tags s hcmd hissued hwhy => ?tagPage,
    fun id key c b s hcmd hissued hwhy hbuf hdue hin => ?tagWritten, fun id n off c blks s hcmd hissued hop hwhy hfence => ?commandRead,
    fun id i pos c blks s hcmd hissued hop hfence => ⟨fun hwhy => ?oldRead, fun hwhy => ?sopRead⟩,
    fun id o x s hsop hplate hphase hdone => ?listed, fun p x s hp hplate hdirty => ?removed, fun p x s hp hplate hbusy hseq => ?rewritten,
    fun p x s hp hplate hseq => ?notYet, fun p s hp hheld => ?labels⟩
  case strip =>
    rw [exec_memberWriteComplete, execMemberWriteComplete, run_true, memberWrote_own hcmd hissued hop hfence (by simp [hwhy]) (by simp [hwhy]),
      if_pos rfl, writeOk, hwhy]
  case wrote => rw [exec_memberWriteComplete, execMemberWriteComplete, run_true, memberWrote_own hcmd hissued hop hfence hremote hresv, if_pos hst]
  case badWrite => rw [exec_memberWriteComplete, execMemberWriteComplete, run_true, memberWrote_own hcmd hissued hop hfence hremote hresv, if_neg hst]
  case tagPage =>
    rw [exec_tagPageReadComplete, execTagPageReadComplete, run_true]
    simp only [tagRead, hcmd, hwhy, hissued, Bool.not_true, Bool.false_eq_true, if_false]
  case tagWritten =>
    rw [exec_tagWriteComplete, execTagWriteComplete, run_true]
    simp [tagWrote, hcmd, hwhy, hissued, hbuf, hdue, hin]
  case commandRead =>
    rw [exec_memberReadComplete, execMemberReadComplete, run_true, (memberRead_ok hcmd hissued hop hfence).1 n off hwhy]
  case oldRead =>
    rw [exec_memberReadComplete, execMemberReadComplete, run_true, (memberRead_ok hcmd hissued hop hfence).2.1 i pos hwhy]
  case sopRead =>
    rw [exec_memberReadComplete, execMemberReadComplete, run_true, (memberRead_ok hcmd hissued hop hfence).2.2 i pos hwhy]
  case listed =>
    rw [exec_lbtWriteDone, execLbtWriteDone, run_true]
    simp only [lbtDone, hsop, hplate]
    refine congrArg Host.Outcome.next (if_neg ?_)
    rintro (hbusy | hwrong)
    · obtain ⟨q, hq, hwhy⟩ := List.any_eq_true.mp hbusy
      split at hwhy
      case h_1 r m hlbt => exact hdone q hq m (of_decide_eq_true hwhy ▸ hlbt)
      case h_2 => exact Bool.false_ne_true hwhy
    · exact hwrong hphase
  case removed => rw [exec_lbtRemovalWrite, execLbtRemovalWrite, decide_eq_true hp, run_true, hplate]; simp only [if_pos hdirty]
  case rewritten =>
    rw [exec_writeSeqLabelRewrite, execWriteSeqLabelRewrite, decide_eq_true hp, run_true, hplate]
    simp only [hbusy, hseq, Bool.false_eq_true, false_and, not_false_eq_true, and_self, if_true]
  case notYet =>
    rw [exec_writeSeqLabelRewrite, execWriteSeqLabelRewrite, decide_eq_true hp, run_true, hplate]
    simp only [Nat.not_le.mpr hseq, false_and, if_false]
  case labels =>
    rw [exec_labelUpdateComplete, execLabelUpdateComplete, decide_eq_true hp, run_true, labelEnd, hheld]
    rfl

end Sys2Proof.Machine
end

section
/-! What loading a page's command register leaves (R441, R467). -/

namespace Sys2Proof.Machine

theorem foldl_setFld_frame (l : List (FRef × Nat)) (s : State) : { l.foldl (fun t x => setFld x.1 x.2 t) s with regs := s.regs } = s := by
  induction l generalizing s with
  | nil => rfl
  | cons x l ih => exact (congrArg (fun t => { t with regs := s.regs }) (ih (setFld x.1 x.2 s)) :)

theorem needRole_frame (w : Win) (s : State) : { needRole w s with role := s.role } = s := by
  cases w <;> rfl

theorem writeRwi_frame (w : Win) (p : Nat) (l : List (FRef × Nat)) (s : State) :
    { writeRwi w p l s with regs := s.regs, role := s.role, evr := s.evr } = s := by
  unfold writeRwi
  split
  · rfl
  · split
    · have hset := foldl_setFld_frame l s
      have hneed := needRole_frame w (l.foldl (fun t x => setFld x.1 x.2 t) s)
      calc { incFld (Reg.PG_SEQ_COUNT p) 1 (needRole w (l.foldl (fun t x => setFld x.1 x.2 t) s)) with regs := s.regs, role := s.role, evr := s.evr }
          = { ({ needRole w (l.foldl (fun t x => setFld x.1 x.2 t) s) with role := (l.foldl (fun t x => setFld x.1 x.2 t) s).role } : State) with
              regs := s.regs, role := s.role, evr := s.evr } := rfl
        _ = { ({ l.foldl (fun t x => setFld x.1 x.2 t) s with regs := s.regs } : State) with role := s.role, evr := s.evr } := by rw [hneed]
        _ = s := by rw [hset]
    · exact (congrArg (fun t => { t with role := s.role }) (denied_frame w p s) :)

theorem loaded_frame (w : Win) (p : Nat) (opF : FRef) (op : Nat) (pars : List (FRef × Nat)) (go doneF : FRef) (s : State) :
    { loaded w p opF op pars go doneF s with regs := s.regs, role := s.role, evr := s.evr } = s := by
  have hwrite := writeRwi_frame w p ((opF, op) :: pars) (admitted w p s)
  calc { loaded w p opF op pars go doneF s with regs := s.regs, role := s.role, evr := s.evr }
      = { ({ writeRwi w p ((opF, op) :: pars) (admitted w p s) with
            regs := (admitted w p s).regs, role := (admitted w p s).role, evr := (admitted w p s).evr } : State) with
          regs := s.regs, role := s.role, evr := s.evr } := rfl
    _ = { ({ admitted w p s with role := s.role, evr := s.evr } : State) with regs := s.regs } := by rw [hwrite]
    _ = s := by rw [admitted_frame]

section
variable (w : Win) (p : Nat) (opF : FRef) (op : Nat) (pars : List (FRef × Nat)) (go doneF : FRef) (s : State)

@[simp] theorem loaded_timeQ : (loaded w p opF op pars go doneF s).timeQ = s.timeQ :=
  (congrArg State.timeQ (loaded_frame w p opF op pars go doneF s) :)
@[simp] theorem loaded_out : (loaded w p opF op pars go doneF s).out = s.out := (congrArg State.out (loaded_frame w p opF op pars go doneF s) :)
@[simp] theorem loaded_io : (loaded w p opF op pars go doneF s).io = s.io := (congrArg State.io (loaded_frame w p opF op pars go doneF s) :)
@[simp] theorem loaded_store : (loaded w p opF op pars go doneF s).store = s.store :=
  (congrArg State.store (loaded_frame w p opF op pars go doneF s) :)
@[simp] theorem loaded_cache : (loaded w p opF op pars go doneF s).cache = s.cache :=
  (congrArg State.cache (loaded_frame w p opF op pars go doneF s) :)
@[simp] theorem loaded_bem : (loaded w p opF op pars go doneF s).bem = s.bem := (congrArg State.bem (loaded_frame w p opF op pars go doneF s) :)
@[simp] theorem loaded_host : (loaded w p opF op pars go doneF s).host = s.host := (congrArg State.host (loaded_frame w p opF op pars go doneF s) :)
@[simp] theorem loaded_drive : (loaded w p opF op pars go doneF s).drive = s.drive :=
  (congrArg State.drive (loaded_frame w p opF op pars go doneF s) :)
@[simp] theorem loaded_dram : (loaded w p opF op pars go doneF s).dram = s.dram := (congrArg State.dram (loaded_frame w p opF op pars go doneF s) :)
@[simp] theorem loaded_link : (loaded w p opF op pars go doneF s).link = s.link := (congrArg State.link (loaded_frame w p opF op pars go doneF s) :)
@[simp] theorem loaded_mover : (loaded w p opF op pars go doneF s).mover = s.mover :=
  (congrArg State.mover (loaded_frame w p opF op pars go doneF s) :)
@[simp] theorem loaded_pwr : (loaded w p opF op pars go doneF s).pwr = s.pwr := (congrArg State.pwr (loaded_frame w p opF op pars go doneF s) :)
@[simp] theorem loaded_flt : (loaded w p opF op pars go doneF s).flt = s.flt := (congrArg State.flt (loaded_frame w p opF op pars go doneF s) :)
@[simp] theorem loaded_flash : (loaded w p opF op pars go doneF s).flash = s.flash :=
  (congrArg State.flash (loaded_frame w p opF op pars go doneF s) :)

@[simp] theorem plateOf_loaded (n : Nat) : plateOf (loaded w p opF op pars go doneF s) n = plateOf s n := by
  simp only [plateOf, loaded_store]

end

/-! ### The register fields of a command that may be installed -/

theorem getFld_foldl_setFld_ne {f : FRef} (l : List (FRef × Nat)) (h : ∀ x ∈ l, f.key ≠ x.1.key) (s : State) :
    getFld (l.foldl (fun t x => setFld x.1 x.2 t) s) f = getFld s f := by
  induction l generalizing s with
  | nil => rfl
  | cons x l ih =>
    rw [List.foldl_cons, ih (fun y hy => h y (List.mem_cons_of_mem _ hy)), getFld_setFld_ne (h x List.mem_cons_self)]

theorem getFld_writeRwi_ne {w : Win} {p : Nat} {l : List (FRef × Nat)} {s : State} {f : FRef} (hinst : mayInstall s w = true)
    (hseq : f.key ≠ (Reg.PG_SEQ_COUNT p).key) (h : ∀ x ∈ l, f.key ≠ x.1.key) : getFld (writeRwi w p l s) f = getFld s f := by
  unfold writeRwi
  split
  · rfl
  · rw [incFld, getFld_setFld_ne hseq, getFld_needRole, getFld_foldl_setFld_ne l h]

/-- A single field that may be installed takes the value written. -/
theorem getFld_writeRwi_one {w : Win} {p v : Nat} {s : State} {f : FRef} (hinst : mayInstall s w = true)
    (hseq : f.key ≠ (Reg.PG_SEQ_COUNT p).key) : getFld (writeRwi w p [(f, v)] s) f = v % 2 ^ f.width := by
  unfold writeRwi
  split
  next hsame => simpa [unchanged] using hsame
  next => rw [incFld, getFld_setFld_ne hseq, getFld_needRole, List.foldl_cons, List.foldl_nil, getFld_setFld_self]

theorem getFld_loaded_ne {w : Win} {p op : Nat} {pars : List (FRef × Nat)} {opF go doneF f : FRef} {s : State} (hinst : mayInstall s w = true)
    (hop : f.key ≠ opF.key) (hpars : ∀ x ∈ pars, f.key ≠ x.1.key) (hgo : f.key ≠ go.key) (hdone : f.key ≠ doneF.key)
    (hseq : f.key ≠ (Reg.PG_SEQ_COUNT p).key) : getFld (loaded w p opF op pars go doneF s) f = getFld s f := by
  unfold loaded
  rw [getFld_setFld_ne hdone, getFld_setFld_ne hgo, getFld_writeRwi_ne ((mayInstall_admitted ..).trans hinst) hseq, getFld_admitted]
  exact List.forall_mem_cons.mpr ⟨hop, hpars⟩

/-- The single parameter of a loaded command holds what was written. -/
theorem getFld_loaded_par {w : Win} {p op v : Nat} {opF go doneF f : FRef} {s : State} (hinst : mayInstall s w = true)
    (hgo : f.key ≠ go.key) (hdone : f.key ≠ doneF.key) (hseq : f.key ≠ (Reg.PG_SEQ_COUNT p).key) :
    getFld (loaded w p opF op [(f, v)] go doneF s) f = v % 2 ^ f.width := by
  unfold loaded
  rw [getFld_setFld_ne hdone, getFld_setFld_ne hgo]
  unfold writeRwi
  split
  next hsame =>
    simp only [unchanged, List.all_cons, Bool.and_eq_true, decide_eq_true_eq] at hsame
    exact hsame.2.1
  next =>
    rw [if_pos ((mayInstall_admitted ..).trans hinst), incFld, getFld_setFld_ne hseq, getFld_needRole, List.foldl_cons, List.foldl_cons,
      List.foldl_nil, getFld_setFld_self]

end Sys2Proof.Machine
end

section
/-! The operations of a plate's command register (R93, R98, R100, R107, R110, R111, R467). -/

namespace Sys2Proof.Machine
open Reg

/-- A command that its window may install acts on the state in which it is loaded. -/
theorem pltCmd_pass {w : Win} {p op : Nat} {pars : List (FRef × Nat)} {s : State} (hpass : Passes w (0x40 + p) s) (hinst : mayInstall s w = true)
    (hgo : isSet s (PLT_CMD_GO p) = false) (act : State → State) :
    pltCmd w p op pars act s = act (loaded w (0x40 + p) (PLT_CMD_OP p) op pars (PLT_CMD_GO p) (PLT_CMD_RES_DONE p) s) :=
  cmdWrite_pass hpass hinst hgo _ act

/-- The checks of R107 pass: a free namespace that is large enough, of a drive that no other member uses. -/
theorem replaceBad_of_good {s : State} {p slot port nsid : Nat} {x : Plate} {n : Ns} (hfree : unassigned s port nsid none = true)
    (hfail : x.failSeqOf slot ≠ 0) (hsize : x.used ≤ n.bytes) (hlba : n.lbaOk = true)
    (hdrive : ∀ i y, i ≠ slot → x.mem i = some y → some y.driveKey ≠ (dport s port).map DPort.key) :
    replaceBad s p slot port nsid x n false = none := by
  have hother : ((List.range x.members.length).any (fun i => decide (i ≠ slot) &&
      ((x.mem i).map (fun y => decide (some y.driveKey = (dport s port).map DPort.key))).getD false)) = false := by
    rw [List.any_eq_false]
    intro i _ hi
    obtain ⟨hne, hkey⟩ := Bool.and_eq_true_iff.mp hi
    cases hmem : x.mem i with
    | none => simp [hmem] at hkey
    | some y =>
      rw [hmem] at hkey
      exact hdrive i y (of_decide_eq_true hne) hmem (of_decide_eq_true hkey)
  simp only [replaceBad, Bool.false_eq_true, if_false, hfree, Bool.true_or, Bool.not_true, if_neg hfail, if_neg (Nat.not_lt.mpr hsize), hlba, hother]

theorem replaceCmd_of_good {s : State} {p slot : Nat} {x : Plate} {n : Ns} (hplate : plateOf s p = some x) (hslot : slot < x.geom.n)
    (hport : portState s (getFld s (PLT_CMD_PORT_PORT p)) = 4)
    (hns : nsOf s (getFld s (PLT_CMD_PORT_PORT p)) (getFld s (PLT_CMD_NSID_NSID p)) = some n)
    (hown : (x.mem slot).map (fun y => decide (y.failSeq ≠ 0 ∧ y.node = nodeId s ∧ y.port = getFld s (PLT_CMD_PORT_PORT p) ∧
      y.nsid = getFld s (PLT_CMD_NSID_NSID p))) = some false)
    (hgood : replaceBad s p slot (getFld s (PLT_CMD_PORT_PORT p)) (getFld s (PLT_CMD_NSID_NSID p)) x n false = none) :
    replaceCmd p slot s = replaceAccept p slot (getFld s (PLT_CMD_PORT_PORT p)) (getFld s (PLT_CMD_NSID_NSID p)) true s := by
  simp only [replaceCmd, hplate, if_neg (Nat.not_le.mpr hslot), hport, if_true, hns, hown, Option.getD_some, hgood]

theorem importCmd_of_good {s : State} {p : Nat} {md : PlateMedia} {f0 : Foreign} (hp : p < 64) (hplate : plateOf s p = none)
    (hforeign : s.store.foreigns.find? (fun g => decide (g.id = md.plateId)) = some f0)
    (hnew : s.store.plates.any (fun q => decide (q.2.id = (governed f0 (md.mems.filterMap mediaLabel)).id)) = false)
    (hlease : smGet s.link.leased (leAt (governed f0 (md.mems.filterMap mediaLabel)).label 0x38 2) = none)
    (hfails : assemblyFails (importSlots (governed f0 (md.mems.filterMap mediaLabel)) md s) = []) :
    importCmd p md s =
      let f := governed f0 (md.mems.filterMap mediaLabel)
      let slots := importSlots f md s
      resumeCycle p (sendClaims p (startLabel p (importStrays f slots (dropTagCache p (fun _ => true) (mediaRecords p (readableSlots slots) md
        (setFld (PG_STAT_READY (0x40 + p)) 1 (updStore (fun u => { u with
          plates := smSet u.plates p (importedPlate p f md s), foreigns := u.foreigns.filter (fun g => decide (g.id ≠ f.id)) }) s))))))) := by
  have hfree : p ∈ (List.range 64).filter (fun i => (plateOf s i).isNone) :=
    List.mem_filter.mpr ⟨List.mem_range.mpr hp, by rw [hplate]; rfl⟩
  simp only [importCmd, if_pos hfree, hforeign, hnew, hlease, Option.isSome_none, Bool.false_eq_true, or_self, if_false, hfails, if_true]

/-- Settles O24: each operation's checks pass on the state in which it is loaded, which has the plates and links of the state before. -/
theorem plateOperationsAct : Obligations.PlateOperationsAct := by
  unfold Obligations.PlateOperationsAct
  refine ⟨fun w p slot x s hp hpass hinst hgo hplate hslot hmember => ?fail,
    fun w p slot x n s hp hpass hinst hgo => fun hplate hslot hport hns hfree hown hfail hsize hlba hdrive => ?replace,
    fun w p x s hp hpass hinst hgo hplate hheld => ?start, fun w p x s hp hpass hinst hgo hplate => ?pause,
    fun w p x s hp hpass hinst hgo hplate hu hlatch => ?recover,
    fun w p s hp hpass hinst hgo => fun hport hforeign hvault => ?release,
    fun w p md f0 s hp hpass hinst hgo => fun hplate hforeign hnew hlease hfails => ?takeIn⟩
  case fail =>
    rw [exec_failMember, execFailMember, decide_eq_true hp, run_true, pltCmd_pass hpass hinst hgo]
    simp only [failMemberCmd, plateOf_loaded, hplate, if_neg (Nat.not_le.mpr hslot), if_neg hmember]
  case replace =>
    rw [exec_replace, execReplace, decide_eq_true hp, run_true, pltCmd_pass hpass hinst hgo]
    exact congrArg Host.Outcome.next (replaceCmd_of_good hplate hslot hport hns hown (replaceBad_of_good hfree hfail hsize hlba hdrive))
  case start =>
    rw [exec_startPass, execStartPass, decide_eq_true hp, run_true, pltCmd_pass hpass hinst hgo]
    simp only [startPassCmd, plateOf_loaded, hplate, hheld, List.foldl_nil, if_true]
  case pause =>
    rw [exec_pausePass, execPausePass, decide_eq_true hp, run_true, pltCmd_pass hpass hinst hgo]
    simp only [pausePassCmd, plateOf_loaded, hplate]
  case recover =>
    rw [exec_recover, execRecover, decide_eq_true hp, run_true, pltCmd_pass hpass hinst hgo]
    simp [recoverCmd, hplate, hlatch, Nat.not_le.mpr hu]
  case release =>
    rw [exec_release, execRelease, decide_eq_true hp, run_true, pltCmd_pass hpass hinst hgo, releaseCmd]
    refine congrArg Host.Outcome.next (if_neg ?_)
    rintro (hstate | hhome | hkept)
    · exact hstate hport
    · rw [hforeign] at hhome
      exact absurd hhome (by decide)
    · exact Bool.false_ne_true (hvault.symm.trans hkept)
  case takeIn =>
    rw [exec_importPlate, execImportPlate, decide_eq_true hp, run_true, pltCmd_pass hpass hinst hgo]
    exact congrArg Host.Outcome.next (importCmd_of_good hp ((plateOf_loaded ..).trans hplate) hforeign hnew hlease hfails)

end Sys2Proof.Machine
end

section
/-! One rule per operation on a plate: what it reads after an update, and what an update leaves. -/

namespace Sys2Proof.Machine
open Reg

theorem plateOf_updPlate_self {p : Nat} {x : Plate} {s : State} (h : plateOf s p = some x) (f : Plate → Plate) :
    plateOf (updPlate p f s) p = some (f x) := by
  rw [updPlate, h]
  exact smGet_smSet_self ..

theorem updPlate_of_plate {p : Nat} {x : Plate} {s : State} (h : plateOf s p = some x) (f : Plate → Plate) :
    updPlate p f s = updStore (fun t => { t with plates := smSet t.plates p (f x) }) s := by
  rw [updPlate, h]

theorem updPlate_frame (p : Nat) (f : Plate → Plate) (s : State) : { updPlate p f s with store := s.store } = s := by
  unfold updPlate
  split <;> rfl

@[simp] theorem updPlate_regs (p : Nat) (f : Plate → Plate) (s : State) : (updPlate p f s).regs = s.regs :=
  (congrArg State.regs (updPlate_frame p f s) :)
@[simp] theorem updPlate_io (p : Nat) (f : Plate → Plate) (s : State) : (updPlate p f s).io = s.io := (congrArg State.io (updPlate_frame p f s) :)
@[simp] theorem updPlate_timeQ (p : Nat) (f : Plate → Plate) (s : State) : (updPlate p f s).timeQ = s.timeQ :=
  (congrArg State.timeQ (updPlate_frame p f s) :)
@[simp] theorem updPlate_cache (p : Nat) (f : Plate → Plate) (s : State) : (updPlate p f s).cache = s.cache :=
  (congrArg State.cache (updPlate_frame p f s) :)
@[simp] theorem updPlate_link (p : Nat) (f : Plate → Plate) (s : State) : (updPlate p f s).link = s.link :=
  (congrArg State.link (updPlate_frame p f s) :)
@[simp] theorem getFld_updPlate (p : Nat) (f : Plate → Plate) (s : State) (g : FRef) : getFld (updPlate p f s) g = getFld s g :=
  getFld_of_regs (updPlate_regs p f s) g

@[simp] theorem plateOf_setFld (f : FRef) (v : Nat) (s : State) (p : Nat) : plateOf (setFld f v s) p = plateOf s p := rfl

/-! ### A Proof cycle follows its hold (R117) -/

@[simp] theorem cycleSync_regs (p : Nat) (s : State) : (cycleSync p s).regs = s.regs := by
  unfold cycleSync
  split
  · rfl
  · dsimp only
    split
    · rfl
    · split <;> exact updPlate_regs ..

@[simp] theorem cyclesSync_regs (s : State) : (cyclesSync s).regs = s.regs := by
  unfold cyclesSync
  generalize List.range 64 = ps
  induction ps generalizing s with
  | nil => rfl
  | cons p ps ih => rw [List.foldl_cons, ih, cycleSync_regs]

/-- A cycle that runs and is not suspended: its hold may suspend it, and its start, deadline and cursor stand. -/
theorem cycleSync_of_running {p : Nat} {x : Plate} {s : State} (hplate : plateOf s p = some x) (hrun : x.cycle.running = true)
    (hsusp : x.cycle.suspended = false) :
    ∃ y, plateOf (cycleSync p s) p = some y ∧ y.cycle.running = true ∧ y.cycle.startAt = x.cycle.startAt ∧
      y.cycle.deadline = x.cycle.deadline ∧ y.cycle.cursor = x.cycle.cursor := by
  simp only [cycleSync, hplate, hrun, hsusp, Bool.not_true, Bool.false_eq_true, false_or]
  split
  · exact ⟨x, hplate, hrun, rfl, rfl, rfl⟩
  next hheld =>
    rw [if_pos (Bool.not_eq_false _ ▸ hheld)]
    exact ⟨_, plateOf_updPlate_self hplate _, rfl, rfl, rfl, rfl⟩

end Sys2Proof.Machine
end

section
/-! The rebuild pass (R100 to R106). -/

namespace Sys2Proof.Machine
open Reg

/-- The step of a stripe before it starts. -/
def stepOf (p sn : Nat) (y : Plate) : Sop :=
  { kind := .rebuild, plate := p, sn := sn, first := 0, last := y.geom.bps - 1, phase := .lock, grid := [], erased := [], tagBad := [],
    lost := [], waits := 0, pipe := 8, tagWaits := 0, charge := 0, mark := false, fix := [], located := [], full := false }

/-- A step starts where the walk finds a stripe to rebuild, the budget covers it and a place is free. -/
theorem stepStart_of_next {p sn : Nat} {x y : Plate} {s : State} (hplate : plateOf s p = some x) (htgt : x.pass.tgt = x.target)
    (hrun : x.pass.running = true) (hheld : passHeld s p x = false) (hwalk : walkPast ((stepsOf s p).map (fun q => q.2.sn)) x.stripes x = y)
    (hwalked : y.pass.tgt = y.target)
    (hnext : nextStep y ((stepsOf s p).map (fun q => q.2.sn)) y.stripes y.pass.cursor = some sn)
    (hbudget : stepCharge y (stepOf p sn y) ≤ y.pass.budget)
    (hplace : (s.io.sops.filter (fun q => decide (q.2.kind = .rebuild))).length < getFld s RBD_CFG_STEPS_MAX) :
    stepStart p s = newSop .rebuild p sn 0 (y.geom.bps - 1) (stepCharge y (stepOf p sn y))
      (updPlate p (fun z => { z with pass := { z.pass with budget := z.pass.budget - stepCharge y (stepOf p sn y) } })
        (updPlate p (fun _ => y) s)) := by
  simp only [stepStart, hplate, htgt, ne_eq, not_true, false_and, if_false, hwalk, hrun, hheld, Bool.not_true, Bool.false_eq_true, or_self,
    hnext, hwalked, decide_false, Bool.false_and, false_or]
  refine if_neg ?_
  rintro (hshort | hfull)
  · exact Nat.not_lt.mpr hbudget hshort
  · exact Nat.not_le.mpr hplace hfull

theorem sliceEnd_of_running {p lenUs : Nat} {x : Plate} {s : State} (hplate : plateOf s p = some x) (hrun : x.pass.running = true)
    (hsteps : stepsOf s p = []) (hlen : x.pass.len ≤ lenUs) :
    sliceEnd p lenUs s =
      let pos := x.pass.pos + lenUs
      let len := nextSlice (getFld s RBD_CFG_SLICE_US) pos
      let b := passBase s p x len (if lenUs = 0 then 0 else x.pass.hostBw * 1000000 / lenUs) + min x.pass.budget (x.geom.w * x.geom.s)
      onlyIf (decide (x.pass.len < lenUs)) (fun t => setEvt 0x39 RBD_EVT_SLICE_LATE (incFld RBD_LATE_COUNT 1 t))
        (setFld (PLT_BUDGET_BYTES p) (min b (2 ^ 32 - 1))
          (updPlate p (fun y => { y with pass := { y.pass with pos := pos, len := len, budget := b, hostBw := 0 } }) s)) := by
  simp [sliceEnd, hplate, hrun, hsteps, Nat.not_lt.mpr hlen, showBudget]

/-- Settles O25: the guards of each step of the pass hold, and its effect is the clause's. -/
theorem passesWalkTheirStripes : Obligations.PassesWalkTheirStripes := by
  unfold Obligations.PassesWalkTheirStripes
  refine ⟨fun p x s hp hplate hauto hheld => ?start, fun p sn x s hp hplate htgt hrun hheld => fun hwalked hnext hbudget hplace => ?stepStart,
    fun id o x s hsop hplate hkind hphase hbusy hloss hcursor => ?stepDone, fun p x s hp hplate hdue hatt => ?record,
    fun p x s hp hplate hrun hsteps hlen => ?slice, fun p lenUs x s hp hplate hrun hsteps hlen => ?late,
    fun p x s hp hplate hdue => ?recordFails, fun p ok x s hp hplate hdue => ?noRecord, fun w v s hpass hinst => ?rebuildPause,
    fun w v s hpass hinst => ?proofPause⟩
  case start =>
    rw [exec_passStart, execPassStart, decide_eq_true hp, run_true, hplate]
    simp [hauto, hheld]
  case stepStart =>
    rw [exec_rebuildStepStart, execRebuildStepStart, decide_eq_true hp, run_true]
    exact congrArg Host.Outcome.next (stepStart_of_next hplate htgt hrun hheld rfl hwalked hnext hbudget hplace)
  case stepDone =>
    rw [exec_rebuildStepDone, execRebuildStepDone, run_true]
    simp [stepDone, hsop, hplate, hkind, hphase, hbusy, hloss, hcursor]
  case record =>
    rw [exec_progressRecord, execProgressRecord, decide_eq_true hp, run_true]
    simp [progressRecord, hplate, hdue, hatt]
  case slice =>
    rw [exec_rebuildSliceEnd, execRebuildSliceEnd, decide_eq_true hp, run_true, sliceEnd_of_running hplate hrun hsteps (Nat.le_refl _)]
    simp only [Nat.lt_irrefl, decide_false, onlyIf, Bool.false_eq_true, if_false, if_neg (Nat.ne_of_gt hlen)]
  case late =>
    refine ⟨_, by rw [exec_rebuildSliceEnd, execRebuildSliceEnd, decide_eq_true hp, run_true], ?_⟩
    rw [sliceEnd_of_running hplate hrun hsteps hlen.le]
    simp only [onlyIf, decide_eq_true hlen, if_true]
    rw [getFld_setEvt_other (by decide) (by decide), incFld, getFld_setFld_self,
      getFld_setFld_ne (by simp only [FRef.key, RBD_LATE_COUNT, PLT_BUDGET_BYTES]; omega), getFld_updPlate]
  case recordFails =>
    rw [exec_progressRecord, execProgressRecord, decide_eq_true hp, run_true]
    simp [progressRecord, hplate, hdue]
  case noRecord =>
    rw [exec_progressRecord, execProgressRecord, decide_eq_true hp, run_true]
    simp [progressRecord, hplate, hdue]
  case rebuildPause =>
    have hframe := writeRwi_frame w 0x39 [(RBD_CTL_PAUSE_ALL, v % 2)] (admitted w 0x39 s)
    refine ⟨_, by rw [exec_rbdPauseAll, execRbdPauseAll, run_true, guardWrite_pass hpass], ?_, ?_, ?_, ?_, ?_⟩
    · rw [getFld_writeRwi_one ((mayInstall_admitted ..).trans hinst) (by decide)]
      exact Nat.mod_mod v 2
    · exact (congrArg State.io hframe : _).trans (admitted_io w 0x39 s)
    · exact (congrArg State.store hframe : _).trans (admitted_store w 0x39 s)
    · exact (congrArg State.out hframe : _).trans (admitted_out w 0x39 s)
    · exact (congrArg State.flash hframe : _).trans (admitted_flash w 0x39 s)
  case proofPause =>
    refine ⟨_, by rw [exec_prfPauseAll, execPrfPauseAll, run_true, guardWrite_pass hpass], ?_⟩
    rw [getFld_of_regs (cyclesSync_regs _), getFld_writeRwi_one ((mayInstall_admitted ..).trans hinst) (by decide)]
    exact Nat.mod_mod v 2

end Sys2Proof.Machine
end

section
/-! The Proof pass: its cycles and units, and the suspect list (R116 to R134). -/

namespace Sys2Proof.Machine
open Reg

theorem prfCmd_pass {w : Win} {op : Nat} {pars : List (FRef × Nat)} {s : State} (hpass : Passes w 0x38 s) (hinst : mayInstall s w = true)
    (hgo : isSet s PRF_CMD_GO = false) (act : State → State) :
    prfCmd w op pars act s = act (loaded w 0x38 PRF_CMD_OP op pars PRF_CMD_GO PRF_CMD_RES_DONE s) :=
  cmdWrite_pass hpass hinst hgo _ act

/-- A cycle that starts runs from now on, its deadline a period away and its cursor kept; its hold may suspend it at once. -/
theorem cycleStart_shows {p : Nat} {x : Plate} {s : State} (hplate : plateOf s p = some x) :
    ∃ y, plateOf (cycleStart p s) p = some y ∧ y.cycle.running = true ∧ y.cycle.startAt = (nowS s : Int) ∧
      y.cycle.deadline = nowS s + getFld s PRF_CFG_PERIOD_DAYS * 86400 ∧ y.cycle.cursor = x.cycle.cursor := by
  simp only [cycleStart, hplate]
  exact cycleSync_of_running (plateOf_updPlate_self hplate _) rfl rfl

/-- Settles O26: the guards of each command of a cycle hold, and its effect is the clause's. -/
theorem proofCyclesRun : Obligations.ProofCyclesRun := by
  unfold Obligations.ProofCyclesRun
  refine ⟨fun p x s hp hplate hauto hdue => ?start, fun w p x s hp hpass hinst hgo hplate hrun => ?startCommand,
    fun w p x s hp hpass hinst hgo hplate => ⟨?pause, ?resume⟩, fun p x s hp hplate hrun hunits hlen => ?slice,
    fun p x s hp hplate hrun hsusp hover hpast => ?deadline, fun p x s hp hplate hdue hsusp hatt => ?record, fun p x s hp hplate hdue => ?noRecord⟩
  case start =>
    obtain ⟨y, hy⟩ := cycleStart_shows hplate
    refine ⟨_, y, ?_, hy⟩
    rw [exec_proofCycleStart, execProofCycleStart, decide_eq_true hp, run_true, hplate]
    simp only [hauto, hdue, and_self, if_true]
  case startCommand =>
    rw [exec_startCycle, execStartCycle, decide_eq_true hp, run_true, prfCmd_pass hpass hinst hgo]
    simp only [startCycleCmd, plateOf_loaded, hplate, hrun, Bool.false_eq_true, if_false]
  case pause =>
    rw [exec_proofPause, execProofPause, decide_eq_true hp, run_true, prfCmd_pass hpass hinst hgo]
    simp only [pauseCycleCmd, plateOf_loaded, hplate]
  case resume =>
    rw [exec_proofResume, execProofResume, decide_eq_true hp, run_true, prfCmd_pass hpass hinst hgo]
    simp only [pauseCycleCmd, plateOf_loaded, hplate]
  case slice =>
    rw [exec_proofSliceEnd, execProofSliceEnd, decide_eq_true hp, run_true]
    simp only [cycleSlice, hplate, hrun, hunits, Nat.lt_irrefl, if_neg (Nat.ne_of_gt hlen), onlyIf, decide_false, Bool.not_true,
      Bool.false_eq_true, or_self, if_false]
  case deadline =>
    rw [exec_proofDeadlinePassed, execProofDeadlinePassed, decide_eq_true hp, run_true]
    simp [deadlinePassed, hplate, hrun, hsusp, hover, Nat.not_lt.mpr hpast]
  case record =>
    rw [exec_proofProgressRecord, execProofProgressRecord, decide_eq_true hp, run_true]
    simp [proofRecord, hplate, hdue, hsusp, hatt]
  case noRecord =>
    rw [exec_proofProgressRecord, execProofProgressRecord, decide_eq_true hp, run_true]
    simp [proofRecord, hplate, hdue]

/-! ### Units -/

/-- A unit whose tags are consistent and whose blocks are all clean goes on to its syndromes. -/
theorem unitDone_of_clean {id : Nat} {o : Sop} {x : Plate} {s : State} (hsop : sopOf s id = some o) (hplate : plateOf s o.plate = some x)
    (hkind : o.kind = .proof) (hphase : o.phase = .burin)
    (hclean : ∀ b ∈ blkRange o.first o.last, proofTagBad x.geom.k o.grid o.erased b = [] ∧
      proofVerdict x o.grid (applyGen x.geom.k o.grid (blkRange o.first o.last) o.erased) b = .clean) :
    unitDone id s = sopCheck id (loseBlocks id (sopWrite id [] (x.homeOf o.sn) (unitClears o.plate o.sn (blkRange o.first o.last)
      (updSop id (fun y => { y with phase := .writing, fix := [], located := [], lost := [],
                                    erased := applyGen x.geom.k o.grid (blkRange o.first o.last) o.erased,
                                    grid := fixGrid x.geom.k o.grid (applyGen x.geom.k o.grid (blkRange o.first o.last) o.erased) [] }) s)))) := by
  have htags : (blkRange o.first o.last).flatMap (proofTagBad x.geom.k o.grid o.erased) = [] :=
    List.flatMap_eq_nil_iff.mpr (fun b hb => (hclean b hb).1)
  have hverdicts : (blkRange o.first o.last).map (fun b => (b, proofVerdict x o.grid (applyGen x.geom.k o.grid (blkRange o.first o.last) o.erased) b)) =
      (blkRange o.first o.last).map (fun b => (b, ProofV.clean)) :=
    List.map_congr_left (fun b hb => by rw [(hclean b hb).2])
  simp only [unitDone, hsop, hplate, hkind, hphase, ne_eq, not_true, or_self, if_false, htags, List.nil_append, hverdicts]
  simp [onlyIf, List.filterMap_map, List.filter_map, Function.comp_def]

/-- Settles O27: a clean unit has nothing to repair, and the other commands' guards hold. -/
theorem proofUnitsRun : Obligations.ProofUnitsRun := by
  unfold Obligations.ProofUnitsRun
  refine ⟨fun p sn u x s hp hplate hrun hheld => fun hplace hbudget hnext => ?unit, fun id o x s hsop hplate hkind hphase hclean => ?clean,
    fun s hdirty => ?list, fun w e s hpass hinst hgo hentry => ?clear⟩
  case unit =>
    rw [exec_proofUnitStart, execProofUnitStart, decide_eq_true hp, run_true]
    simp only [unitStart, hplate, hrun, hheld, Bool.not_true, Bool.false_eq_true, Nat.not_le.mpr hplace, Nat.not_lt.mpr hbudget, or_self, if_false, hnext]
  case clean => rw [exec_proofUnitDone, execProofUnitDone, run_true, unitDone_of_clean hsop hplate hkind hphase hclean]
  case list => rw [exec_suspectListWrite, execSuspectListWrite, run_true, if_pos hdirty]
  case clear =>
    have hindex : getFld (loaded w 0x38 PRF_CMD_OP 4 [] PRF_CMD_GO PRF_CMD_RES_DONE s) PRF_SSEL_INDEX = getFld s PRF_SSEL_INDEX :=
      getFld_loaded_ne hinst (by decide) (by simp) (by decide) (by decide) (by decide)
    rw [exec_clearSuspect, execClearSuspect, run_true, prfCmd_pass hpass hinst hgo]
    simp only [clearSuspectCmd, hindex, loaded_store, hentry]

end Sys2Proof.Machine
end

section
/-! Small parts of a state from which the counterexamples are built. -/

namespace Sys2Proof.Machine
open Reg

/-- A plate of five healthy members with one spare, PLATE_ID 7. -/
def samplePlate : Plate where
  id := 7
  geom := { n := 5, w := 4, shift := 17, seed := 7, rows := 100 }
  building := false
  importing := false
  impPage := none
  gone := false
  owner := 0
  standby := 0xFFFF
  attached := false
  members := (List.range 5).map (fun m =>
    { node := 0, port := m, nsid := 1, state := .online, failSeq := 0, driveKey := m + 1, errs := [], genA := none, genB := none })
  labelGen := 0
  labelBusy := false
  labelWait := []
  labelMore := false
  labelSeq := 0
  pendFail := []
  failNext := 1
  createdOp := 0
  catGen := 1
  cat := []
  catBad := []
  latch := false
  ranges := [{ start := 0, set := [] }]
  pass := emptyPass
  cycle := emptyCycle
  seqNo := 0
  seqBase := 0
  lastRow := 0
  lbt := []
  lbtGen := 0
  lbtFull := false
  lbtDirty := false
  jp := emptyPair 0
  state := .optimal
  repl := []
  mirrorOn := false

/-- A dirty cache slot of plate 0. -/
def sampleSlot : Slot :=
  { state := .dirty, plate := 0, sn := 0, lin := 0, vol := 0, zero := false, seq := 1, since := 0, ctx := 0, data := [] }

end Sys2Proof.Machine
end

section
/-! A cache slot whose two copies differ is sent to the partner from the copy that the memory can give (R135, R142). -/

namespace Sys2Proof.Machine
open Reg

/-- The slot's copy on the higher channel of its pair differs from that on the lower one. -/
def splitSlot : Slot := { sampleSlot with high := some [1] }

/-- Plate 0 has standby 5, whose link retrains; channel 0, the lower one of the slot's pair, is down as after reset. -/
def splitSlotState : State :=
  setFld CCH_CFG_PARTNER_EN 1 (setFld (PG_STAT_STATE 0xC8) 4 (setFld (TRT_ENTRY_VALID 5) 1 { State.reset with
    store := { Store.reset with plates := [(0, { samplePlate with standby := 5, attached := true })] }
    cache := { Cache.reset with slots := [(0, splitSlot)] }
    link := { LinkSt.reset with tlk := [(0, { Tlk.reset with nb := some 5 })] } }))

/-- The bytes that wait on link 0 in a state. -/
def waitingBytes (s : State) : List (List Byte) := (tlkOf s 0).queue.map (fun q => q.m.body)

/-- Refutes O28: `pmirSend` takes the data of a slot by `slotData`, which reads the higher channel where the lower one is down; the clause on
PMIR_RESUME names the lower channel's copy. -/
theorem not_cacheFollowsItsBounds : ¬ Obligations.CacheFollowsItsBounds := by
  unfold Obligations.CacheFollowsItsBounds
  rintro ⟨-, -, -, hresume, -⟩
  obtain ⟨t, hexec, rfl⟩ := hresume 5 (0, splitSlot) splitSlotState (by decide) (by decide) (by decide) (by decide)
  exact absurd (valueAfter_eq hexec waitingBytes) (by decide +kernel)

end Sys2Proof.Machine
end

section
/-! The lost-write list and the cache's flush (R163 to R165). -/

namespace Sys2Proof.Machine
open Reg

theorem cchCmd_pass {w : Win} {op : Nat} {pars : List (FRef × Nat)} {s : State} (hpass : Passes w 0x28 s) (hinst : mayInstall s w = true)
    (hgo : isSet s CCH_CMD_GO = false) (act : State → State) :
    cchCmd w op pars act s = act (loaded w 0x28 CCH_CMD_OP op pars CCH_CMD_GO CCH_CMD_RES_DONE s) :=
  cmdWrite_pass hpass hinst hgo _ act

/-- CLEAR_LOST of a volume with entries beside those of others. -/
theorem clearLost_of_both {vol : Nat} {s : State} (hmine : s.store.lostw.any (fun e => decide (e.vol = vol)) = true)
    (hothers : s.store.lostw.any (fun e => decide (e.vol ≠ vol)) = true) :
    clearLost vol s = cchEnd .ok (updStore (fun t => { t with lostw := s.store.lostw.filter (fun e => decide (e.vol ≠ vol)), lostwDirty := true }) s) := by
  obtain ⟨e, he, hvol⟩ := List.any_eq_true.mp hmine
  obtain ⟨e', he', hvol'⟩ := List.any_eq_true.mp hothers
  have hchanged : s.store.lostw.filter (fun e => decide (e.vol ≠ vol)) ≠ s.store.lostw := fun hsame => by
    have hkept := List.filter_eq_self.mp hsame e he
    exact of_decide_eq_true hkept (of_decide_eq_true hvol)
  have hleft : s.store.lostw.filter (fun e => decide (e.vol ≠ vol)) ≠ [] := List.ne_nil_of_mem (List.mem_filter.mpr ⟨he', hvol'⟩)
  simp only [clearLost, if_neg hchanged, if_neg hleft]

/-- Settles O29: the list's write, and each command on the state in which it is loaded. -/
theorem lostWritesAndFlush : Obligations.LostWritesAndFlush := by
  unfold Obligations.LostWritesAndFlush
  refine ⟨fun s hdirty => ?list, fun w vol s hpass hinst hgo hvol hmine hothers => ?clear, fun w s hpass hinst hgo => ?flush⟩
  case list =>
    rw [exec_lostWriteListWrite, execLostWriteListWrite, run_true, if_pos hdirty]
    rfl
  case clear =>
    have hpar : getFld (loaded w 0x28 CCH_CMD_OP 2 [(CCH_CMD_VOLUME, vol)] CCH_CMD_GO CCH_CMD_RES_DONE s) CCH_CMD_VOLUME = vol := by
      rw [getFld_loaded_par hinst (by decide) (by decide) (by decide), Nat.mod_eq_of_lt hvol]
    rw [exec_clearLost, execClearLost, run_true, cchCmd_pass hpass hinst hgo, hpar, clearLost_of_both, loaded_store]
    · rw [loaded_store]; exact hmine
    · rw [loaded_store]; exact hothers
  case flush =>
    rw [exec_cacheFlush, execCacheFlush, run_true, cchCmd_pass hpass hinst hgo]
    rfl

end Sys2Proof.Machine
end

section
/-! What the power states' steps leave of the register fields: those of other pages, and those that the steps do not name. -/

namespace Sys2Proof.Machine
open Reg

/-- The bank and page of a field, from its key. -/
def FRef.pageKey (f : FRef) : Nat := f.key / 2 ^ 17

theorem key_ne_of_pageKey {f g : FRef} (h : f.pageKey ≠ g.pageKey) : f.key ≠ g.key := fun hkey => h (congrArg (· / 2 ^ 17) hkey)

/-- A field of another page stands. -/
theorem getFld_setFld_page {f g : FRef} (h : f.pageKey ≠ g.pageKey) (v : Nat) (s : State) : getFld (setFld g v s) f = getFld s f :=
  getFld_setFld_ne (key_ne_of_pageKey h) v s

theorem getFld_setEvt_page {p : Nat} {f : FRef} (h : f.pageKey ≠ p) (bit : Nat) (s : State) : getFld (setEvt p bit s) f = getFld s f := by
  refine getFld_setEvt_ne ?evt ?bit ?valid bit s
  all_goals
    simp only [FRef.pageKey] at h
    simp only [FRef.key, PG_EVT_EVT, PG_EVT_FIRST_BIT, PG_EVT_FIRST_VALID] at h ⊢
    omega

/-! ### The pack's page (R167 to R192) -/

theorem getFld_setFld_pack {f g : FRef} (h : f.pageKey ≠ 7) (hg : g.pageKey = 7) (v : Nat) (s : State) : getFld (setFld g v s) f = getFld s f :=
  getFld_setFld_page (by rw [hg]; exact h) v s

theorem getFld_bemFollow {f : FRef} (h : f.pageKey ≠ 7) (s : State) : getFld (bemFollow s) f = getFld s f := by
  have hshown : ∀ new asleep, getFld (setFlag (PG_STAT_ASLEEP 7) asleep (setFld BEM_STAT_STATE new s)) f = getFld s f := fun new asleep => by
    rw [setFlag, getFld_setFld_pack h (by decide), getFld_setFld_pack h (by decide)]
  unfold bemFollow
  dsimp only
  generalize (if getFld s PWR_STAT_STATE = 4 then 1 else if getFld s PWR_STAT_STATE = 3 ∨ getFld s PWR_STAT_STATE = 5 then 2 else 0) = new
  split
  · exact hshown _ _
  · split
    · exact hshown _ _
    · split
      · rw [getFld_updBem, getFld_setFld_pack h (by decide), hshown]
      · exact hshown _ _

theorem getFld_learnDq {f : FRef} (h : f.pageKey ≠ 7) (cause : Nat) (s : State) : getFld (learnDq cause s) f = getFld s f := by
  unfold learnDq
  split
  · rfl
  · rw [getFld_setEvt_page h, getFld_setFld_pack h (by decide), getFld_setFld_pack h (by decide), getFld_setFld_pack h (by decide), setFlag,
      getFld_setFld_pack h (by decide), getFld_updBem]

/-! ### Power states (R390 to R397) -/

/-- A change of the power state shows in PWR_STAT.STATE, as an event of its page, and on the pack's page. -/
theorem getFld_setPower {f : FRef} (hpack : f.pageKey ≠ 7) (hstate : f.key ≠ PWR_STAT_STATE.key) (hevt : f.key ≠ (PG_EVT_EVT 1).key)
    (hbit : f.key ≠ (PG_EVT_FIRST_BIT 1).key) (hvalid : f.key ≠ (PG_EVT_FIRST_VALID 1).key) (st : Nat) (s : State) :
    getFld (setPower st s) f = getFld s f := by
  unfold setPower
  split
  · rfl
  · rw [getFld_setEvt_ne hevt hbit hvalid, getFld_bemFollow hpack, getFld_setFld_ne hstate]

/-- A speed change begins in the channels' states alone. -/
theorem getFld_freqStart {f : FRef} (h : ∀ c, f.key ≠ (PG_STAT_STATE (0x20 + c)).key) (s : State) : getFld (freqStart s) f = getFld s f := by
  unfold freqStart
  generalize channels = cs
  induction cs generalizing s with
  | nil => rfl
  | cons c cs ih =>
    rw [List.foldl_cons, ih]
    split
    · exact getFld_setFld_ne (h c) 4 _
    · rfl

theorem wakeBlock_pipe_regs {p : Nat} (hp : 0x30 ≤ p ∧ p ≤ 0x37) (s : State) : (wakeBlock p s).regs = s.regs := by
  rw [wakeBlock, if_pos hp]
  split <;> rfl

theorem getFld_leaveNight {f : FRef} (hpack : f.pageKey ≠ 7) (hstate : f.key ≠ PWR_STAT_STATE.key) (hevt : f.key ≠ (PG_EVT_EVT 1).key)
    (hbit : f.key ≠ (PG_EVT_FIRST_BIT 1).key) (hvalid : f.key ≠ (PG_EVT_FIRST_VALID 1).key)
    (hdram : ∀ c, f.key ≠ (PG_STAT_STATE (0x20 + c)).key) (s : State) : getFld (leaveNight s) f = getFld s f := by
  have hwake : ∀ bs : List Nat, (∀ b ∈ bs, b < 8) → ∀ t, (bs.foldl (fun t b => wakeBlock (0x30 + b) t) t).regs = t.regs := fun bs => by
    induction bs with
    | nil => exact fun _ _ => rfl
    | cons b bs ih =>
      intro hbs t
      have hb := hbs b List.mem_cons_self
      rw [List.foldl_cons, ih (fun c hc => hbs c (List.mem_cons_of_mem _ hc)), wakeBlock_pipe_regs (by omega)]
  unfold leaveNight
  split
  · rfl
  · rw [getFld_of_regs (hwake _ (fun b hb => List.mem_range.mp hb) _), getFld_freqStart hdram, getFld_setPower hpack hstate hevt hbit hvalid]

end Sys2Proof.Machine
end

section
/-! The vault: its test, the brace, the dump and the replay (R153 to R160, R166, Sequences CACHE-1 and CACHE-2). -/

namespace Sys2Proof.Machine
open Reg

/-! ### Commands of members end without touching the cache -/

@[simp] theorem leaveIdle_cache (s : State) : (leaveIdle s).cache = s.cache := by
  unfold leaveIdle
  split
  · rw [setEvt_cache, setFld_cache]
  · rfl

@[simp] theorem emit_cache (o : Out) (s : State) : (emit o s).cache = s.cache := by
  unfold emit
  dsimp only
  split
  · exact leaveIdle_cache s
  · rfl

@[simp] theorem updDport_cache (p : Nat) (f : DPort → DPort) (s : State) : (updDport p f s).cache = s.cache := by
  unfold updDport
  split <;> rfl

@[simp] theorem leaveDriveL1_cache (p : Nat) (s : State) : (leaveDriveL1 p s).cache = s.cache := by
  unfold leaveDriveL1
  split <;> rfl

theorem issueNv_cache (id : Nat) (c : NvCmd) (s : State) : (issueNv id c s).cache = s.cache := by
  unfold issueNv
  split
  · rfl
  · rw [emit_cache, leaveDriveL1_cache, updDport_cache, updIo_cache]

theorem pumpNv_cache (p : Nat) (s : State) : (pumpNv p s).cache = s.cache := by
  unfold pumpNv
  generalize s.io.nvme.filter (fun q => decide (q.2.node = nodeId s ∧ q.2.port = p ∧ q.2.pair = none)) = due
  induction due generalizing s with
  | nil => rfl
  | cons q due ih => rw [List.foldl_cons, ih, issueNv_cache]

theorem endNv_cache (id : Nat) (s : State) : (endNv id s).cache = s.cache := by
  have hpump : ∀ (ps : List Nat) t, (ps.foldl (fun t p => pumpNv p t) t).cache = t.cache := fun ps => by
    induction ps with
    | nil => exact fun _ => rfl
    | cons p ps ih => exact fun t => by rw [List.foldl_cons, ih, pumpNv_cache]
  rw [endNv, endNvs, hpump, updIo_cache]

/-! ### The brace (R154) -/

theorem getFld_showMv {f : FRef} (hnow : f.key ≠ PWR_VIN_MV.key) (hlow : f.key ≠ PWR_VIN_MIN_MV.key) (mv : Nat) (s : State) :
    getFld (showMv 2 mv s) f = getFld s f := by
  have hext : ∀ v t, getFld (sketchExtreme 0xC012 v t) f = getFld t f := fun v t => rfl
  simp only [showMv, Nat.reduceEqDiff, if_false]
  rw [hext, getFld_setFld_ne hlow, getFld_setFld_ne hnow]

theorem brace_shows {s : State} (h : isSet s PWR_STAT_BRACED = false) :
    getFld (brace s) PWR_STAT_BRACED = 1 ∧ getFld (brace s) CCH_MODE_BRACED = 1 := by
  rw [brace, if_neg (by simp [h])]
  constructor
  · rw [getFld_setEvt_other (by decide) (by decide), getFld_setEvt_other (by decide) (by decide), getFld_setFld_self]
    rfl
  · rw [getFld_setEvt_other (by decide) (by decide), getFld_setEvt_other (by decide) (by decide), getFld_setFld_ne (by decide),
      getFld_setFld_ne (by decide), getFld_setFld_self]
    rfl

theorem braceEnd_shows {s : State} (h : isSet s PWR_STAT_BRACED = true) :
    getFld (braceEnd s) PWR_STAT_BRACED = 0 ∧ getFld (braceEnd s) CCH_MODE_BRACED = 0 := by
  rw [braceEnd, if_pos h]
  constructor
  · rw [getFld_setFld_self]
    rfl
  · rw [getFld_setFld_ne (by decide), getFld_setFld_ne (by decide), getFld_setFld_self]
    rfl

/-- What follows a brace, the end of a learning cycle and of NIGHT, leaves the two flags. -/
theorem getFld_afterBrace {f : FRef} (hf : f = PWR_STAT_BRACED ∨ f = CCH_MODE_BRACED) (s : State) :
    getFld (leaveNight (learnDq 5 s)) f = getFld s f := by
  have hdram : ∀ c, f.key ≠ (PG_STAT_STATE (0x20 + c)).key := fun c => by
    rcases hf with rfl | rfl <;> simp only [FRef.key, PWR_STAT_BRACED, CCH_MODE_BRACED, PG_STAT_STATE] <;> omega
  rcases hf with rfl | rfl
  · rw [getFld_leaveNight (by decide) (by decide) (by decide) (by decide) (by decide) hdram, getFld_learnDq (by decide)]
  · rw [getFld_leaveNight (by decide) (by decide) (by decide) (by decide) (by decide) hdram, getFld_learnDq (by decide)]

theorem vinWatched_of_supervised {s : State} (h : supervised s = true) : vinWatched s = true := by
  rw [vinWatched, h, Bool.true_or]

/-! ### The dump -/

theorem backupEntry_dumps {pf good : Bool} {s : State} (hstate : getFld s PWR_STAT_STATE = 0)
    (hok : dumpOk (setFlag PWR_STAT_PWRFAIL pf (learnDq 5 s)) = true)
    (hwin : isSet (setFlag PWR_STAT_PWRFAIL pf (learnDq 5 s)) BEM_STAT_RESTWIN = false)
    (hdump : (setFlag PWR_STAT_PWRFAIL pf (learnDq 5 s)).cache.dumping = false) :
    backupEntry pf good s = setPower 4 (dropLinks (startDump (if pf then 0 else 1) 16 (setFlag PWR_STAT_PWRFAIL pf (learnDq 5 s)))) := by
  simp only [backupEntry, hstate, hwin, hdump, hok, Bool.false_eq_true, if_false, if_true]
  rfl

/-- Settles O30: the guards of each step hold, and what the brace sets stands after what follows it. -/
theorem vaultDumpsAndReplays : Obligations.VaultDumpsAndReplays := by
  unfold Obligations.VaultDumpsAndReplays
  refine ⟨fun w ok1 ok2 rate s hpass hinst hgo => ?check, fun mv s hsup hbraced hlow => ?brace, fun mv s hsup hbraced hhigh => ?braceEnd,
    fun pf good s hstate hdue => fun hok hwin hdump => ?backup, fun id c good q s hcmd hissued hwhy hdump => ?chunk,
    fun found media v s hphase hready hreplay => ?assembly, fun s hwait => ?expiry⟩
  case check => rw [exec_check, execCheck, run_true, cmdWrite_pass hpass hinst hgo]
  case brace =>
    have hkept : isSet (showMv 2 mv s) PWR_STAT_BRACED = false := by rw [isSet, getFld_showMv (by decide) (by decide)]; exact hbraced
    obtain ⟨hpwr, hcch⟩ := brace_shows hkept
    refine ⟨leaveNight (learnDq 5 (brace (showMv 2 mv s))), ?_, ?_, ?_⟩
    · rw [exec_brace, execBrace, run_true, vinWatched_of_supervised hsup]
      simp only [onlyIf, if_true, hbraced, Nat.not_le.mpr hlow, Bool.false_eq_true, or_self, if_false]
    · rw [isSet, getFld_afterBrace (.inl rfl), hpwr]
      rfl
    · rw [isSet, getFld_afterBrace (.inr rfl), hcch]
      rfl
  case braceEnd =>
    have hkept : isSet (showMv 2 mv s) PWR_STAT_BRACED = true := by rw [isSet, getFld_showMv (by decide) (by decide)]; exact hbraced
    obtain ⟨hpwr, hcch⟩ := braceEnd_shows hkept
    refine ⟨braceEnd (showMv 2 mv s), ?_, by rw [isSet, hpwr]; rfl, by rw [isSet, hcch]; rfl⟩
    rw [exec_braceEnd, execBraceEnd, run_true, vinWatched_of_supervised hsup]
    simp only [onlyIf, if_true, hhigh]
  case backup =>
    have hgo : ¬ (getFld s PWR_STAT_STATE ≠ 3 ∧ s.pwr.due.isSome) := by simp [hdue]
    have hday : ¬ getFld s PWR_STAT_STATE = 2 := by simp [hstate]
    have hactive : getFld (updPwr (fun p => { p with stby := 0, exit := false }) s) PWR_STAT_STATE = 0 := hstate
    rw [exec_backupEntry, execBackupEntry, run_true, if_neg hgo, if_neg hday]
    exact congrArg Host.Outcome.next (backupEntry_dumps hactive hok hwin hdump)
  case chunk =>
    have hdumps : (endNv id s).cache.dumping = true := by rw [endNv_cache]; exact hdump
    rw [exec_vaultChunkDone, execVaultChunkDone, run_true, hcmd]
    obtain ⟨⟩ := q
    simp only at hwhy
    subst hwhy
    by_cases hc : c ∈ chunksOut (endNv id s) <;>
      simp [onlyIf, hissued, chunkEnd, hdumps, hc]
  case assembly =>
    have hgo : ¬ (getFld s CHIP_DEV_STAT_PHASE ≠ 7 ∨ devReady s ∨ 2 ≤ s.cache.replay) := by simp [hphase, hready, hreplay]
    rw [exec_assembly, execAssembly, run_true, if_neg hgo]
  case expiry => rw [exec_replayAsmWaitExpiry, execReplayAsmWaitExpiry, run_true, if_pos hwait]

end Sys2Proof.Machine
end

section
/-! Settles O31: what a sample, a rest reading and a load step leave (R171 to R176, R183). -/

namespace Sys2Proof.Machine
open Reg

/-! ### What the estimates leave of the other fields -/

theorem getFld_setConf {f : FRef} (h : f.key ≠ BEM_CONF_CONF_PCT.key) (v : Nat) (s : State) : getFld (setConf v s) f = getFld s f := by
  unfold setConf
  dsimp only
  generalize (if s.bem.cap80 then min v 80 else v) = x
  split
  · rfl
  · rw [getFld_updBem, getFld_setFld_ne h]

theorem getFld_setSoc {f : FRef} (hvalid : f.key ≠ BEM_SOC_VALID.key) (hsrc : f.key ≠ BEM_SOC_SRC.key) (hppm : f.key ≠ BEM_SOC_PPM.key)
    (ppm src : Nat) (s : State) : getFld (setSoc ppm src s) f = getFld s f := by
  rw [setSoc, getFld_setFld_ne hvalid, getFld_setFld_ne hsrc, getFld_setFld_ne hppm, getFld_updBem]

/-- A rest reading where no state of charge stands: no rest window and no learning cycle wait for it, and it raises no jump. -/
theorem restReading_first {s : State} (hpres : isSet s BEM_STAT_PRESENT = true) (hhi : s.bem.ma ≤ getFld s BEM_REST_REST_MA)
    (hlo : -(getFld s BEM_REST_REST_MA : Int) ≤ s.bem.ma) (htable : tableBad s = false) (hsoc : isSet s BEM_SOC_VALID = false)
    (hwin : isSet s BEM_STAT_RESTWIN = false) (hlearn : getFld s BEM_LEARN_PHASE = 0) :
    restReading s = boundUpdate (setEvt 7 BEM_EVT_REST_READ (setFld BEM_CONF_DAYS_NO_REST 0 (setConf 100
      (setSoc (ocvLookup s (getFld s BEM_MEAS_V_PACK_MV / max 1 (getFld s BEM_CFG_CELLS) : Nat)) 1 (setFld BEM_STAT_COLD 0 (setFld BEM_STAT_REST 1
        (updBem (fun b => { b with cap80 := false, estDue := false, restOp := opMin s }) s))))))) := by
  have hkept : ∀ f ∈ [BEM_STAT_RESTWIN, BEM_LEARN_PHASE], ∀ ppm,
      getFld (setEvt 7 BEM_EVT_REST_READ (setFld BEM_CONF_DAYS_NO_REST 0 (setConf 100 (setSoc ppm 1 (setFld BEM_STAT_COLD 0 (setFld BEM_STAT_REST 1
        (updBem (fun b => { b with cap80 := false, estDue := false, restOp := opMin s }) s))))))) f = getFld s f := by
    intro f hf ppm
    simp only [List.mem_cons, List.not_mem_nil, or_false] at hf
    obtain rfl | rfl := hf
    all_goals
      rw [getFld_setEvt_other (by decide) (by decide), getFld_setFld_ne (by decide), getFld_setConf (by decide),
        getFld_setSoc (by decide) (by decide) (by decide), getFld_setFld_ne (by decide), getFld_setFld_ne (by decide), getFld_updBem]
  have hguard : ¬ ((!isSet s BEM_STAT_PRESENT) = true ∨ (getFld s BEM_REST_REST_MA : Int) < s.bem.ma ∨ s.bem.ma < -(getFld s BEM_REST_REST_MA : Int)) := by
    rw [hpres]
    simp only [Bool.not_true, Bool.false_eq_true, false_or]
    omega
  unfold restReading
  simp only [if_neg hguard, htable, hsoc, Bool.false_and, Bool.false_eq_true, if_false]
  have hnowin : ∀ ppm, isSet (setEvt 7 BEM_EVT_REST_READ (setFld BEM_CONF_DAYS_NO_REST 0 (setConf 100 (setSoc ppm 1 (setFld BEM_STAT_COLD 0
      (setFld BEM_STAT_REST 1 (updBem (fun b => { b with cap80 := false, estDue := false, restOp := opMin s }) s))))))) BEM_STAT_RESTWIN = false := by
    intro ppm
    rw [isSet, hkept _ (by simp)]
    exact hwin
  simp only [hnowin, Bool.false_eq_true, if_false, hkept BEM_LEARN_PHASE (by simp), hlearn]

/-- Settles O31: each case takes the branch that its hypotheses name. -/
theorem bemReadsThePack : Obligations.BemReadsThePack := by
  unfold Obligations.BemReadsThePack
  refine ⟨?sample, ?wake, ?rest, ?rint⟩
  case sample =>
    intro us i v t s h
    rw [exec_bemSample, execBemSample, run_true, if_neg h]
  case wake =>
    intro us i v t s h
    rw [exec_bemHibernateWake, execBemHibernateWake, run_true, if_pos h]
  case rest =>
    intro s hpres hhi hlo htable hsoc hwin hlearn
    rw [exec_restReading, execRestReading, run_true, restReading_first hpres hhi hlo htable hsoc hwin hlearn]
  case rint =>
    intro mv band ma s hstep hdi hlearn hdv
    have hguard : ¬ (ma - s.bem.ma ≤ 0 ∨ (ma - s.bem.ma) * 20 < getFld s BEM_Q_LEARN_MAH ∨ (mv : Int) - getFld s BEM_MEAS_V_PACK_MV < 0) := by omega
    rw [exec_rintMeasure, execRintMeasure, run_true, hstep]
    exact congrArg Host.Outcome.next (if_neg hguard)

end Sys2Proof.Machine
end

section
/-! The slot-seconds of a context that holds no slot (R241). -/

namespace Sys2Proof.Machine
open Reg

/-- Context 0's slot-seconds stand beyond their 64 bits: the low word holds 2^64. -/
def overfullSlotSeconds : State := { State.reset with regs := [((CTX_SLOT_LO_COUNT 0).key, 2 ^ 64)] }

/-- Refutes O33: a context without a slot keeps its count as it stands, while the clause on SLOT_SECONDS_TICK takes every count modulo 2^64. -/
theorem not_metersAndRounds : ¬ Obligations.MetersAndRounds := by
  unfold Obligations.MetersAndRounds
  rintro ⟨-, -, -, hseconds, -⟩
  obtain ⟨t, hexec, hcounts⟩ := hseconds overfullSlotSeconds (by decide)
  have hstays : valueAfter (fun t => get64 t (CTX_SLOT_LO_COUNT 0) (CTX_SLOT_HI_COUNT 0)) (exec .slotSecondsTick overfullSlotSeconds) = some (2 ^ 64) := by
    decide +kernel
  have hwrapped := (hcounts 0 (by decide)).symm.trans (Option.some.inj ((valueAfter_eq hexec _).symm.trans hstays))
  exact absurd hwrapped (by decide)

end Sys2Proof.Machine
end

section
/-! An admin command that is due runs (R216); settles O34 on the tenant admin commands (R247, R248). -/

namespace Sys2Proof.Machine
open Reg

/-- An admin command that is due runs with what its entry holds. -/
theorem adminDo_due {n op : Nat} {x : Cmd} {s : State} (h : AdminDue n op x s) (f : Cmd → State → State) : adminDo n op f s = f x s := by
  obtain ⟨hcmd, hturn⟩ := h
  unfold adminDo
  rw [hcmd, hturn]
  rfl

/-- Settles O34: each command is due, and its own checks hold. -/
theorem tenantAdminCommandsAct : Obligations.TenantAdminCommandsAct := by
  unfold Obligations.TenantAdminCommandsAct
  refine ⟨?info, ?sched, ?cls, ?time⟩
  case info =>
    intro n x s hdue hbound
    rw [exec_tenantInfo, execTenantInfo, run_true, adminDo_due hdue, tenantInfo]
    simp only [hbound, Bool.not_true, Bool.false_eq_true, if_false]
  case sched =>
    intro n x s hdue hbound
    have hmay : ¬ ((isSet s (CTX_BIND_VALID (enCdw x.raw)) = true ∧ ctxPort s (enCdw x.raw) ≠ ctxPort s x.ctx) ∨
        (isSet s (CTX_BIND_VALID (enCdw x.raw)) = true ∧
          getFld s TSC_CFG_CAP_UNITS < minSum s (enCdw x.raw) + bitsOf (enAux x.raw) 16 16)) := by
      rintro (⟨hvalid, hport⟩ | ⟨hvalid, hcap⟩)
      · exact hport (hbound hvalid).1
      · exact absurd (hbound hvalid).2 (by omega)
    rw [exec_setSched, execSetSched, run_true, adminDo_due hdue, setSched]
    exact congrArg Host.Outcome.next (if_neg hmay)
  case cls =>
    intro n x s hdue
    rw [exec_setClass, execSetClass, run_true, adminDo_due hdue, setClass]
  case time =>
    intro n x s hdue hsource hport
    have hmay : ¬ (isSet s MTR_CFG_TSRC = true ∨ ctxPort s x.ctx = 1) := by rw [hsource, hport]; decide
    rw [exec_timeAdj, execTimeAdj, run_true, adminDo_due hdue, timeAdj]
    exact congrArg Host.Outcome.next (if_neg hmay)

end Sys2Proof.Machine
end

section
/-! A read of host memory that an admin command makes at once (R269): what it leaves of the register fields. -/

namespace Sys2Proof.Machine
open Reg

theorem getFld_leaveIdle {f : FRef} (h : f.pageKey ≠ 1) (s : State) : getFld (leaveIdle s) f = getFld s f := by
  unfold leaveIdle
  split
  · rw [getFld_setEvt_page h, getFld_setFld_page (by rw [show PWR_STAT_STATE.pageKey = 1 from by decide]; exact h)]
  · rfl

theorem getFld_emit {f : FRef} (h : f.pageKey ≠ 1) (o : Out) (s : State) : getFld (emit o s) f = getFld s f := by
  have hout : getFld (emit o s) f = getFld (if o.isWork then leaveIdle s else s) f := rfl
  rw [hout]
  split
  · exact getFld_leaveIdle h s
  · rfl

theorem getFld_sendReqs {f : FRef} (h : f.pageKey ≠ 1) (tag : Nat) (r : HRead) (reqs : List (Nat × Nat)) (s : State) :
    getFld (sendReqs tag r reqs s) f = getFld s f := by
  unfold sendReqs
  generalize (fnOf s r.port r.func).cfg.relaxed = relaxed
  induction reqs generalizing s with
  | nil => rfl
  | cons q reqs ih => rw [List.foldl_cons, ih, getFld_emit h]

theorem getFld_leaveL1 {f : FRef} (port : Nat) (h1 : f.key ≠ (HEP_LINK_IN_L1 port).key) (h12 : f.key ≠ (HEP_LINK_IN_L12 port).key) (s : State) :
    getFld (leaveL1 port s) f = getFld s f := by
  unfold leaveL1
  split
  · rw [getFld_setFld_ne h1, getFld_setFld_ne h12, getFld_updHost]
  · rfl

@[simp] theorem leaveIdle_role (s : State) : (leaveIdle s).role = s.role := by
  unfold leaveIdle
  split
  · rw [setEvt_role, setFld_role]
  · rfl

@[simp] theorem emit_role (o : Out) (s : State) : (emit o s).role = s.role := by
  have hout : (emit o s).role = (if o.isWork then leaveIdle s else s).role := rfl
  rw [hout]
  split
  · exact leaveIdle_role s
  · rfl

@[simp] theorem sendReqs_role (tag : Nat) (r : HRead) (reqs : List (Nat × Nat)) (s : State) : (sendReqs tag r reqs s).role = s.role := by
  unfold sendReqs
  generalize (fnOf s r.port r.func).cfg.relaxed = relaxed
  induction reqs generalizing s with
  | nil => rfl
  | cons q reqs ih => rw [List.foldl_cons, ih, emit_role]

@[simp] theorem leaveL1_role (port : Nat) (s : State) : (leaveL1 port s).role = s.role := by
  unfold leaveL1
  split <;> rfl

theorem readDone_role (port func addr n : Nat) (b : List Byte) (s : State) : (readDone port func addr n (.data b) s).role = s.role := by
  unfold readDone readEnded add64 set64
  simp only [rdError, setFld_role, sendReqs_role]
  exact leaveL1_role port s

/-- The registers of a port that a read of its host's memory changes. -/
def readFlds (port : Nat) : List FRef := [HEP_RD_LO_COUNT port, HEP_RD_HI_COUNT port, HEP_LINK_IN_L1 port, HEP_LINK_IN_L12 port]

theorem getFld_readDone {f : FRef} {port : Nat} (hpwr : f.pageKey ≠ 1) (hkeys : ∀ g ∈ readFlds port, f.key ≠ g.key)
    (func addr n : Nat) (b : List Byte) (s : State) : getFld (readDone port func addr n (.data b) s) f = getFld s f := by
  simp only [readFlds, List.forall_mem_cons] at hkeys
  obtain ⟨hlo, hhi, h1, h12, -⟩ := hkeys
  unfold readDone readEnded add64 set64
  simp only [rdError]
  rw [getFld_setFld_ne hhi, getFld_setFld_ne hlo, getFld_sendReqs hpwr]
  exact getFld_leaveL1 port h1 h12 s

theorem readDone_ctxPort (port func addr n c : Nat) (b : List Byte) (s : State) :
    ctxPort (readDone port func addr n (.data b) s) c = ctxPort s c := by
  refine getFld_readDone (by simp only [FRef.pageKey, FRef.key, CTX_BIND_PORT]; omega) ?_ func addr n b s
  simp only [readFlds, List.forall_mem_cons, FRef.key, CTX_BIND_PORT, HEP_RD_LO_COUNT, HEP_RD_HI_COUNT, HEP_LINK_IN_L1, HEP_LINK_IN_L12]
  refine ⟨?_, ?_, ?_, ?_, nofun⟩ <;> omega

/-- A field of a page below the host ports' pages. -/
theorem getFld_readDone_low {f : FRef} {port : Nat} (hpwr : f.pageKey ≠ 1) (hlow : f.pageKey < 0x10) (func addr n : Nat) (b : List Byte) (s : State) :
    getFld (readDone port func addr n (.data b) s) f = getFld s f := by
  refine getFld_readDone hpwr ?_ func addr n b s
  simp only [FRef.pageKey] at hlow
  simp only [readFlds, List.forall_mem_cons]
  refine ⟨?_, ?_, ?_, ?_, nofun⟩ <;>
    (simp only [FRef.key, HEP_RD_LO_COUNT, HEP_RD_HI_COUNT, HEP_LINK_IN_L1, HEP_LINK_IN_L12] at hlow ⊢; omega)

end Sys2Proof.Machine
end

section
/-! Sessions of a port (R417, R419, R420); settles O35. -/

namespace Sys2Proof.Machine
open Reg

/-! ### The answer to a challenge -/

section
variable {n : Nat} {x : Cmd} {v : Nonce} {key bytes : List Byte} {s : State}

/-- The answer is checked on the state in which the read of host memory has ended. -/
theorem exec_roleResponse_of_due (hdue : AdminDue n 0x91 x s)
    (hready : readReady s (ctxPort s x.ctx) (ctxFunc s x.ctx) (enDptr x.raw) 32 = true) (page : HostRd) :
    exec (.roleResponse n page) s = .next (response n page x (readDone (ctxPort s x.ctx) (ctxFunc s x.ctx) (enDptr x.raw) 32 page s)) := by
  rw [exec_roleResponse, execRoleResponse, run_true, adminDo_due hdue, adminPage, readNow, if_pos hready]

theorem response_of_right (hnonce : smGet s.role.nonces (ctxPort s x.ctx) = some v) (hrole : v.role = enCdw x.raw) (hkey : roleKey s v.role = some key)
    (hright : slice bytes 0 32 = elevationMac s (ctxPort s x.ctx) v key) :
    response n (.data bytes) x s = adminOk n x 1 (needRole (.pf (ctxPort s x.ctx)) (showSessions (setFld (sessFails (ctxPort s x.ctx)) 0
      (setFld (sessFld (ctxPort s x.ctx)) v.role (roleAction (getFld s (sessFld (ctxPort s x.ctx))) 0 0x91
        (setEvt 3 ROLE_EVT_ELEVATED (dropNonce (ctxPort s x.ctx) s))))))) := by
  rw [hrole] at hkey ⊢
  simp only [response, hnonce, hrole, ne_eq, not_true, if_false, hkey, hright, if_true]

theorem response_of_wrong (hnonce : smGet s.role.nonces (ctxPort s x.ctx) = some v) (hrole : v.role = enCdw x.raw) (hkey : roleKey s v.role = some key)
    (hwrong : slice bytes 0 32 ≠ elevationMac s (ctxPort s x.ctx) v key) :
    response n (.data bytes) x s =
      let f := getFld s (sessFails (ctxPort s x.ctx)) + 1
      let t := roleAction (getFld s (sessFld (ctxPort s x.ctx))) 1 0x91
        (setEvt 3 ROLE_EVT_REFUSED (setFld (sessFails (ctxPort s x.ctx)) (min f 3) (dropNonce (ctxPort s x.ctx) s)))
      adminOk n x 0 (if 3 ≤ f then setEvt 3 ROLE_EVT_LOCKOUT (setFld (sessLocked (ctxPort s x.ctx)) 1 t) else t) := by
  rw [hrole] at hkey
  simp only [response, hnonce, hrole, ne_eq, not_true, if_false, hkey, hwrong]

end

/-! ### What a read of host memory leaves of the sessions -/

theorem getFld_readDone_session {port : Nat} {f : FRef} (hf : f ∈ [sessFld port, sessFails port]) (func addr n : Nat) (b : List Byte) (s : State) :
    getFld (readDone port func addr n (.data b) s) f = getFld s f := by
  simp only [List.mem_cons, List.not_mem_nil, or_false] at hf
  refine getFld_readDone ?page ?keys func addr n b s
  case page =>
    obtain rfl | rfl := hf
    all_goals simp only [FRef.pageKey, FRef.key, sessFld, sessFails]; omega
  case keys =>
    simp only [readFlds, List.forall_mem_cons, FRef.key, HEP_RD_LO_COUNT, HEP_RD_HI_COUNT, HEP_LINK_IN_L1, HEP_LINK_IN_L12]
    obtain rfl | rfl := hf
    all_goals
      simp only [sessFld, sessFails]
      refine ⟨?_, ?_, ?_, ?_, nofun⟩ <;> omega

/-! ### The end of a session -/

theorem getFld_showSessions_session {port : Nat} (hport : port < 2) (s : State) : getFld (showSessions s) (sessFld port) = getFld s (sessFld port) := by
  simp only [showSessions, List.foldl_cons, List.foldl_nil, setFlag]
  obtain rfl | rfl : port = 0 ∨ port = 1 := by omega
  all_goals
    rw [getFld_setFld_ne (by decide), getFld_setFld_ne (by decide), getFld_setFld_ne (by decide), getFld_setFld_ne (by decide)]

theorem baseRole_lt (s : State) : baseRole s < 4 := by
  unfold baseRole
  split <;> decide

theorem getFld_sessionEnd {port : Nat} (hport : port < 2) {s : State} (helevated : baseRole s < getFld s (sessFld port)) (act : Nat) :
    getFld (sessionEnd port act s) (sessFld port) = baseRole s := by
  simp only [sessionEnd, if_neg (Nat.not_le.mpr helevated)]
  rw [getFld_showSessions_session hport, getFld_setFld_self]
  exact Nat.mod_eq_of_lt (baseRole_lt s)

/-- Settles O35: the answer is checked where its read has ended, which leaves the sessions as they stand. -/
theorem sessionsElevateAndEnd : Obligations.SessionsElevateAndEnd := by
  unfold Obligations.SessionsElevateAndEnd
  refine ⟨?challenge, ?response, ?drop, ?idle, ?lapse, ?lockout⟩
  case challenge =>
    intro n nonce x s hdue hkey hopen
    have hmay : ¬ ((roleKey s (enCdw x.raw)).isNone = true ∨ isSet s (sessLocked (ctxPort s x.ctx)) = true) := by
      rw [hopen, Option.isNone_iff_eq_none]
      rintro (hnone | hlocked)
      · rw [hnone] at hkey; exact absurd hkey (by decide)
      · exact absurd hlocked (by decide)
    rw [exec_roleChallenge, execRoleChallenge, run_true, adminDo_due hdue, challenge]
    exact congrArg Host.Outcome.next (if_neg hmay)
  case response =>
    intro n x v key bytes s hdue hnonce hrole hkey hready port u t
    have hport : ctxPort u x.ctx = port := readDone_ctxPort ..
    have hnonce' : smGet u.role.nonces (ctxPort u x.ctx) = some v := by rw [hport, readDone_role]; exact hnonce
    have hkey' : roleKey u v.role = some key := by rw [roleKey, readDone_role]; exact hkey
    have hsess : getFld u (sessFld port) = getFld s (sessFld port) := getFld_readDone_session (by simp) ..
    have hfails : getFld u (sessFails port) = getFld s (sessFails port) := getFld_readDone_session (by simp) ..
    rw [exec_roleResponse_of_due hdue hready]
    refine ⟨?right, ?third, ?early⟩
    case right =>
      intro hright
      rw [response_of_right hnonce' hrole hkey' (by rw [hport]; exact hright), hport, hsess]
    case third =>
      intro hwrong htwo
      rw [response_of_wrong hnonce' hrole hkey' (by rw [hport]; exact hwrong), hport, hsess, hfails, htwo]
      rfl
    case early =>
      intro hwrong hfew
      have hbelow : ¬ 3 ≤ getFld s (sessFails port) + 1 := by omega
      rw [response_of_wrong hnonce' hrole hkey' (by rw [hport]; exact hwrong), hport, hsess, hfails]
      simp only [if_neg hbelow]
      rw [Nat.min_eq_left (by omega)]
  case drop =>
    intro n x s hdue
    rw [exec_roleDrop, execRoleDrop, run_true, adminDo_due hdue]
  case idle =>
    intro port s hport helevated
    refine ⟨_, by rw [exec_sessionIdleTimeout, execSessionIdleTimeout, decide_eq_true hport, run_true], getFld_sessionEnd hport helevated 3⟩
  case lapse =>
    intro port s hport
    rw [exec_nonceLapse, execNonceLapse, decide_eq_true hport, run_true, dropNonce]
  case lockout =>
    intro port s hport hlocked
    rw [exec_lockoutEnd, execLockoutEnd, decide_eq_true hport, run_true, if_pos hlocked]

end Sys2Proof.Machine
end

section
/-! A window of a port beyond the two that the device has (R252): its role is read from the key register. -/

namespace Sys2Proof.Machine
open Reg

/-- The link of port 4 is up, and the key register selects key 1; the session of port 4 would stand where ROLE_KEY_CTL stands. -/
def farPortWindow : State :=
  setFld ROLE_KEY_CTL_KEY 1 (setFld ROLE_STAT_INSTALL_STRAP 1 { State.reset with
    host := { HostSt.reset with fns := [(fnKey 4 0, { HFn.reset with cfg := { HFn.reset.cfg with mse := true } })], up := [4] } })

/-- Refutes O36: through port 4's window selecting key 0 takes away the role that programs it; the clause on KEY_PROGRAM takes every port. -/
theorem not_keysAndFirmwareAreWritten : ¬ Obligations.KeysAndFirmwareAreWritten := by
  unfold Obligations.KeysAndFirmwareAreWritten
  rintro ⟨hprogram, -⟩
  obtain ⟨t, hexec, hkey, -⟩ := hprogram (.pf 4) 0 farPortWindow (by unfold Passes; decide) (by decide) (by decide) (by decide) (by decide) (by decide)
  have hblank : valueAfter (fun t => smGet t.role.keys 0) (exec (.keyProgram (.pf 4) 0 true) farPortWindow) = some none := by decide +kernel
  exact absurd (hkey.symm.trans (Option.some.inj ((valueAfter_eq hexec _).symm.trans hblank))) (by simp)

end Sys2Proof.Machine
end

section
/-! The Sketchbook's records (R429 to R435); settles O37. -/

namespace Sys2Proof.Machine
open Reg

theorem evrCmd_pass {w : Win} {op : Nat} {s : State} (hpass : Passes w 6 s) (hinst : mayInstall s w = true) (hgo : isSet s EVR_CMD_GO = false)
    (act : State → State) : evrCmd w op act s = act (loaded w 6 EVR_CMD_OP op [] EVR_CMD_GO EVR_CMD_RES_DONE s) :=
  cmdWrite_pass hpass hinst hgo _ act

@[simp] theorem showStore_flash (s : State) : (showStore s).flash = s.flash := rfl

/-- What stands after ERASE_ALL stood before, outside the record pages or on a page that is retired. -/
theorem mem_slots_eraseAll {s : State} {q : Nat × List Byte} (h : q ∈ (eraseAll s).flash.slots) :
    q ∈ s.flash.slots ∧ (q.1 < 0x02000000 ∨ 0x02800000 ≤ q.1 ∨ (q.1 - 0x02000000) / 256 ∈ s.flash.retired) := by
  have hkept : q ∈ s.flash.slots.filter (fun q =>
      !(decide (0x02000000 ≤ q.1 ∧ q.1 < 0x02800000) && decide ((q.1 - 0x02000000) / 256 ∉ s.flash.retired))) := h
  rw [List.mem_filter] at hkept
  obtain ⟨hmem, hout⟩ := hkept
  refine ⟨hmem, ?_⟩
  simp only [Bool.not_eq_true', Bool.and_eq_false_iff, decide_eq_false_iff_not, not_not] at hout
  obtain hplace | hretired := hout
  · omega
  · exact .inr (.inr hretired)

/-- Settles O37: each command takes the branch that its hypotheses name. -/
theorem sketchbookWritesItsRecords : Obligations.SketchbookWritesItsRecords := by
  unfold Obligations.SketchbookWritesItsRecords
  refine ⟨?record, ?window, ?token, ?release, ?timer, ?snapshot, ?erase⟩
  case record =>
    intro ok s hwrites
    rw [exec_sketchbookRecordWrite, execSketchbookRecordWrite, run_true, if_pos hwrites]
  case window =>
    intro code o s hwrites htoken hheld
    have hany : s.evr.held.any (fun h => decide (h.code = code)) = true :=
      List.any_eq_true.mpr ⟨o, List.mem_of_find?_eq_some hheld, by simpa using List.find?_some hheld⟩
    have hgoes : ¬ ((!evrWrites (updEvr (fun e => { e with window := e.window.filter (· ≠ code) }) s)) = true ∨
        (!(updEvr (fun e => { e with window := e.window.filter (· ≠ code) }) s).evr.held.any (fun h => decide (h.code = code))) = true) := by
      rw [hwrites, show (updEvr (fun e => { e with window := e.window.filter (· ≠ code) }) s).evr.held = s.evr.held from rfl, hany]
      decide
    have hfind : (updEvr (fun e => { e with window := e.window.filter (· ≠ code) }) s).evr.held.find? (fun h => decide (h.code = code)) = some o := hheld
    simp only [exec_sketchbookWindowEnd, execSketchbookWindowEnd, run_true, if_neg hgoes, if_pos htoken, releaseHeld, hfind]
    rfl
  case token =>
    intro s hheld hroom
    have hnone : heldOrder (setFld EVR_BUDGET_TOKENS (getFld s EVR_BUDGET_TOKENS + 1) s) = [] := by simp [heldOrder, hheld]
    have hmin : min 3600 (getFld s EVR_BUDGET_TOKENS + 1) = getFld s EVR_BUDGET_TOKENS + 1 := by omega
    simp only [exec_sketchbookToken, execSketchbookToken, run_true, hmin, hnone, List.find?_nil, ite_self]
  case release =>
    intro o s t hwrites htoken hfirst
    have hgoes : ¬ ((!evrWrites t) = true ∨ (!tokenLeft t) = true) := by rw [hwrites, htoken]; decide
    simp only [exec_sketchbookToken, execSketchbookToken, run_true]
    rw [if_neg hgoes, hfirst]
  case timer =>
    intro s
    rw [exec_sketchbookSnapshotTimer, execSketchbookSnapshotTimer, run_true]
  case snapshot =>
    intro w s hpass hinst hgo
    rw [exec_snapshot, execSnapshot, run_true, evrCmd_pass hpass hinst hgo, snapshotCmd]
  case erase =>
    intro w s hpass hinst hgo hftest
    have herase : exec (.eraseAll w) s = .next (evrEnd .ok (eraseAll (loaded w 6 EVR_CMD_OP 2 [] EVR_CMD_GO EVR_CMD_RES_DONE s))) := by
      rw [exec_eraseAll, execEraseAll, run_true, evrCmd_pass hpass hinst hgo, eraseAllCmd, if_pos hftest]
    refine ⟨_, herase, ?status, ?done, ?slots⟩
    case status =>
      rw [evrEnd, cmdEnd, getFld_setFld_ne (by decide), getFld_setFld_ne (by decide), getFld_setFld_self]
      rfl
    case done =>
      rw [isSet, evrEnd, cmdEnd, getFld_setFld_ne (by decide), getFld_setFld_self]
      rfl
    case slots =>
      intro q hq
      have hkept := mem_slots_eraseAll (s := loaded w 6 EVR_CMD_OP 2 [] EVR_CMD_GO EVR_CMD_RES_DONE s) hq
      rwa [loaded_flash] at hkept

end Sys2Proof.Machine
end

section
/-! Host links and resets (R253, R256, R271 to R274, R279, R403); settles O38. -/

namespace Sys2Proof.Machine
open Reg

@[simp] theorem leaveIdle_host (s : State) : (leaveIdle s).host = s.host := by
  unfold leaveIdle
  split
  · rw [setEvt_host, setFld_host]
  · rfl

@[simp] theorem emit_host (o : Out) (s : State) : (emit o s).host = s.host := by
  have hout : (emit o s).host = (if o.isWork then leaveIdle s else s).host := rfl
  rw [hout]
  split
  · exact leaveIdle_host s
  · rfl

@[simp] theorem leaveIdle_out (s : State) : (leaveIdle s).out = s.out := by
  unfold leaveIdle
  split
  · rw [setEvt_out, setFld_out]
  · rfl

/-- What is sent goes out last. -/
@[simp] theorem emit_out (o : Out) (s : State) : (emit o s).out = o :: s.out := by
  have hout : (emit o s).out = o :: (if o.isWork then leaveIdle s else s).out := rfl
  rw [hout]
  split
  · rw [leaveIdle_out]
  · rfl

/-- A configuration write to a function that does not answer with retry status. -/
theorem cfgWrite_of_ready {port func off : Nat} {s : State} (h : cfgRetry s port func = false) (f : State → State) : cfgWrite port func off f s = f s := by
  rw [cfgWrite, h]
  rfl

theorem cfgWrite_of_retry {port func off : Nat} {s : State} (h : cfgRetry s port func = true) (f : State → State) :
    cfgWrite port func off f s = emit (.cfgRetry (if func = 0 then .pf port else .vf port func) off) s := by
  rw [cfgWrite, if_pos h]

theorem isFunction_zero (s : State) (port : Nat) : isFunction s port 0 = true := rfl

/-- PME_Turn_Off takes the port's link out of service, into L2. -/
def linkToL2 (port : Nat) (s : State) : State :=
  setFld (HEP_LINK_SPEED port) 0 (setFld (HEP_LINK_WIDTH port) 0 (setFld (HEP_LINK_IN_L1 port) 0 (setFld (HEP_LINK_IN_L12 port) 0
    (updHost (fun h => { h with up := h.up.filter (· ≠ port), l2 := h.l2 ++ [port], l11 := h.l11.filter (· ≠ port) })
      (emit (.pcie port .pmeToAck 0) s)))))

theorem linkToL2_out (port : Nat) (s : State) : (linkToL2 port s).out = .pcie port .pmeToAck 0 :: s.out := emit_out _ s

theorem linkToL2_up (port : Nat) (s : State) : port ∉ (linkToL2 port s).host.up := by
  have hup : (linkToL2 port s).host.up = (emit (.pcie port .pmeToAck 0) s).host.up.filter (· ≠ port) := rfl
  simp [hup]

theorem linkToL2_l2 (port : Nat) (s : State) : port ∈ (linkToL2 port s).host.l2 := by
  have hl2 : (linkToL2 port s).host.l2 = (emit (.pcie port .pmeToAck 0) s).host.l2 ++ [port] := rfl
  simp [hl2]

theorem getFld_linkToL2 {port : Nat} (hport : port < 2) {f : FRef} (hf : f ∈ [HEP_LINK_SPEED port, HEP_LINK_WIDTH port]) (s : State) :
    getFld (linkToL2 port s) f = 0 := by
  simp only [List.mem_cons, List.not_mem_nil, or_false] at hf
  obtain rfl | rfl : port = 0 ∨ port = 1 := by omega
  all_goals
    obtain rfl | rfl := hf
    all_goals simp (disch := decide) only [linkToL2, getFld_setFld_self, getFld_setFld_ne, Nat.zero_mod]

theorem exec_pmeTurnOff_eq {port : Nat} (hport : port < 2) {s : State} (hup : linkUp s port = true) :
    exec (.pmeTurnOff port) s = .next (if getFld s (HEP_FUNCS_PF_DSTATE port) = 3 then
      onlyIf (fnOf s port 0).pme (emit (.pcie port .wake 0)) (setEvt (0x10 + port) HEP_EVT_D_STATE (setFld (HEP_FUNCS_PF_DSTATE port) 2 (linkToL2 port s)))
      else linkToL2 port s) := by
  rw [exec_pmeTurnOff, execPmeTurnOff, decide_eq_true hport, run_true, onlyIf, if_pos hup]
  rfl

/-- Where the function was in D3hot it is in D3cold then, and wakes the host where PME_Status is set. -/
theorem pmeTurnOff_shows {port : Nat} (hport : port < 2) {s : State} (hup : linkUp s port = true) :
    ∃ t, exec (.pmeTurnOff port) s = .next t ∧
      t.out = (if getFld s (HEP_FUNCS_PF_DSTATE port) = 3 ∧ (fnOf s port 0).pme then [.pcie port .wake 0] else []) ++ .pcie port .pmeToAck 0 :: s.out ∧
      port ∉ t.host.up ∧ port ∈ t.host.l2 ∧ getFld t (HEP_LINK_SPEED port) = 0 ∧ getFld t (HEP_LINK_WIDTH port) = 0 ∧
      (getFld s (HEP_FUNCS_PF_DSTATE port) = 3 → getFld t (HEP_FUNCS_PF_DSTATE port) = 2) := by
  refine ⟨_, exec_pmeTurnOff_eq hport hup, ?_⟩
  by_cases hd3 : getFld s (HEP_FUNCS_PF_DSTATE port) = 3
  case neg =>
    rw [if_neg hd3, if_neg (fun h => hd3 h.1)]
    exact ⟨linkToL2_out port s, linkToL2_up port s, linkToL2_l2 port s, getFld_linkToL2 hport (by simp) s, getFld_linkToL2 hport (by simp) s,
      fun h => absurd h hd3⟩
  case pos =>
    rw [if_pos hd3]
    generalize hu : setEvt (0x10 + port) HEP_EVT_D_STATE (setFld (HEP_FUNCS_PF_DSTATE port) 2 (linkToL2 port s)) = u
    have hout : u.out = .pcie port .pmeToAck 0 :: s.out := by rw [← hu, setEvt_out]; exact linkToL2_out port s
    have hhost : u.host = (linkToL2 port s).host := by rw [← hu, setEvt_host, setFld_host]
    have hlink : ∀ f ∈ [HEP_LINK_SPEED port, HEP_LINK_WIDTH port], getFld u f = 0 := by
      intro f hf
      rw [← getFld_linkToL2 hport hf s, ← hu]
      simp only [List.mem_cons, List.not_mem_nil, or_false] at hf
      obtain rfl | rfl : port = 0 ∨ port = 1 := by omega
      all_goals
        obtain rfl | rfl := hf
        all_goals rw [getFld_setEvt_other (by decide) (by decide), getFld_setFld_ne (by decide)]
    have hstate : getFld u (HEP_FUNCS_PF_DSTATE port) = 2 := by
      rw [← hu]
      obtain rfl | rfl : port = 0 ∨ port = 1 := by omega
      all_goals rw [getFld_setEvt_other (by decide) (by decide), getFld_setFld_self]; rfl
    have hemit : ∀ f ∈ [HEP_LINK_SPEED port, HEP_LINK_WIDTH port, HEP_FUNCS_PF_DSTATE port],
        getFld (emit (.pcie port .wake 0) u) f = getFld u f := by
      intro f hf
      simp only [List.mem_cons, List.not_mem_nil, or_false] at hf
      obtain rfl | rfl : port = 0 ∨ port = 1 := by omega
      all_goals
        obtain rfl | rfl | rfl := hf
        all_goals exact getFld_emit (by decide) _ _
    cases hpme : (fnOf s port 0).pme
    case false =>
      exact ⟨by simp [onlyIf, hout], by rw [onlyIf, if_neg Bool.false_ne_true, hhost]; exact linkToL2_up port s,
        by rw [onlyIf, if_neg Bool.false_ne_true, hhost]; exact linkToL2_l2 port s, hlink _ (by simp), hlink _ (by simp), fun _ => hstate⟩
    case true =>
      simp only [onlyIf, if_true]
      exact ⟨by rw [emit_out, hout, if_pos ⟨hd3, trivial⟩]; rfl, by rw [emit_host, hhost]; exact linkToL2_up port s,
        by rw [emit_host, hhost]; exact linkToL2_l2 port s, (hemit _ (by simp)).trans (hlink _ (by simp)), (hemit _ (by simp)).trans (hlink _ (by simp)),
        fun _ => (hemit _ (by simp)).trans hstate⟩

/-- An entry to L1 asks the partner for it, with the substate where it is enabled. -/
theorem hostL1Entry_shows {port : Nat} (hport : port < 2) (sub : L1Sub) {s : State} (hup : linkUp s port = true)
    (haspm : (fnOf s port 0).cfg.aspmL1 = true) (hawake : isSet s (HEP_LINK_IN_L1 port) = false) :
    ∃ t, exec (.hostL1Entry port sub) s = .next t ∧ t.out = .pcie port .l1Request 0 :: s.out ∧ isSet t (HEP_LINK_IN_L1 port) = true ∧
      isSet t (HEP_LINK_IN_L12 port) = (decide (sub = .l12) && (fnOf s port 0).cfg.l12) ∧
      (port ∈ t.host.l11 ↔ sub = .l11 ∧ (fnOf s port 0).cfg.l11 = true) := by
  refine ⟨_, by rw [exec_hostL1Entry, execHostL1Entry, decide_eq_true hport, run_true, onlyIf, hup, haspm, hawake, Bool.and_self, Bool.not_false, Bool.and_true, if_pos rfl], ?out, ?l1, ?l12, ?l11⟩
  case out => exact emit_out _ _
  case l1 =>
    obtain rfl | rfl : port = 0 ∨ port = 1 := by omega
    all_goals
      rw [isSet, getFld_emit (by decide), setFlag, getFld_setFld_ne (by decide), getFld_setFld_self]
      rfl
  case l12 =>
    obtain rfl | rfl : port = 0 ∨ port = 1 := by omega
    all_goals
      rw [isSet, getFld_emit (by decide), setFlag, getFld_setFld_self]
      cases decide (sub = L1Sub.l12) && _ <;> rfl
  case l11 =>
    rw [emit_host]
    simp only [setFlag, setFld_host, updHost]
    split
    next h => simp [h]
    next h => simp [h]

/-- Settles O38: each command takes the branch that its hypotheses name. -/
theorem hostLinksAndResetsAct : Obligations.HostLinksAndResetsAct := by
  unfold Obligations.HostLinksAndResetsAct
  refine ⟨?linkUp, ?linkDown, fun port s hport hup => pmeTurnOff_shows hport hup,
    fun port sub s hport hup haspm hawake => hostL1Entry_shows hport sub hup haspm hawake, ?perst, ?release, ?hot, ?flr, ?retry, ?flrEnd, ?vfs, ?crs⟩
  case linkUp =>
    intro port speed width rev s hport hlo hhi hwidth hdown hperst hdead hphase
    have hstays : (decide (port ∈ s.host.perst) || decide (0x10 + port ∈ s.pwr.dead) || decide (getFld s CHIP_DEV_STAT_PHASE < 5)) = false := by
      simp [hperst, hdead, Nat.not_lt.mpr hphase]
    rw [exec_hostLinkUp, execHostLinkUp, decide_eq_true ⟨hport, hlo, hhi, hwidth⟩, run_true]
    simp only [hdown, hstays, Bool.false_and, Bool.false_eq_true, if_false]
  case linkDown =>
    intro port s hport hup
    rw [exec_hostLinkDown, execHostLinkDown, decide_eq_true hport, run_true, hostDown]
    simp only [hup, Bool.true_or, if_true, List.foldl_cons, List.foldl_nil]
  case perst =>
    intro port s hport
    rw [exec_perstAssert, execPerstAssert, decide_eq_true hport, run_true]
  case release =>
    intro port s hport hlow
    rw [exec_perstDeassert, execPerstDeassert, decide_eq_true hport, run_true, onlyIf, decide_eq_true hlow, if_pos rfl]
  case hot =>
    intro port s hport hup
    rw [exec_hotReset, execHotReset, decide_eq_true hport, run_true, onlyIf, if_pos hup]
  case flr =>
    intro port func s hport hfunc hready u
    refine ⟨?pf, ?vf⟩
    case pf =>
      rintro rfl
      rw [exec_functionLevelReset, execFunctionLevelReset, decide_eq_true ⟨hport, hfunc⟩, run_true, onlyIf, if_pos (isFunction_zero s port),
        cfgWrite_of_ready hready]
      rfl
    case vf =>
      intro hvf hfn
      refine ⟨?_, by rw [flrStart, if_neg hvf, if_pos hfn]⟩
      rw [exec_functionLevelReset, execFunctionLevelReset, decide_eq_true ⟨hport, hfunc⟩, run_true, onlyIf, if_pos hfn, cfgWrite_of_ready hready]
  case retry =>
    intro port func s hport hfunc hfn hretry
    rw [exec_functionLevelReset, execFunctionLevelReset, decide_eq_true ⟨hport, hfunc⟩, run_true, onlyIf, if_pos hfn, cfgWrite_of_retry hretry]
  case flrEnd =>
    intro port func s hport hfunc hvf hflr hpf
    have hgoes : ¬ ((!(fnOf s port func).flr) = true ∨ (func ≠ 0 ∧ (fnOf s port 0).flr = true)) := by
      rw [hflr, hpf]
      simp
    rw [exec_flrEnd, execFlrEnd, decide_eq_true ⟨hport, hfunc⟩, run_true]
    simp only [flrEnd, if_neg hgoes, if_neg hvf, List.foldl_cons, List.foldl_nil]
  case vfs =>
    intro port s hport hon hready
    rw [exec_vfEnableClear, execVfEnableClear, decide_eq_true hport, run_true, onlyIf, if_pos hon, cfgWrite_of_ready hready]
  case crs =>
    intro port s hport hperst hphase
    have hgoes : ¬ (port ∈ s.host.perst ∨ getFld s CHIP_DEV_STAT_PHASE < 6) := by
      rintro (h | h)
      · exact hperst h
      · omega
    rw [exec_configRetryEnd, execConfigRetryEnd, decide_eq_true hport, run_true, if_neg hgoes]

end Sys2Proof.Machine
end

section
/-! Settles O39: the functions of a host port (R225, R255, R261, R269, R277, R281). -/

namespace Sys2Proof.Machine
open Reg

/-- Virtual functions are enabled with what the write gives. -/
theorem vfEnableSet_shows {port n : Nat} (hport : port < 2) (ctl : VfCtl) {s : State} (hoff : isSet s (HEP_FUNCS_VF_EN port) = false)
    (hready : cfgRetry s port 0 = false) (hn : n ≤ 1023) :
    ∃ t, exec (.vfEnableSet port n ctl) s = .next t ∧ isSet t (HEP_FUNCS_VF_EN port) = true ∧ getFld t (HEP_FUNCS_NUMVFS port) = n ∧
      isSet t (HEP_FUNCS_ARI port) = ctl.ari ∧ (fnOf t port 0).cfg.vfMse = ctl.mse := by
  have hnot : ¬ isSet s (HEP_FUNCS_VF_EN port) = true := by rw [hoff]; exact Bool.false_ne_true
  have hexec : exec (.vfEnableSet port n ctl) s = .next (setFld (HEP_FUNCS_VF_EN port) 1 (setFlag (HEP_FUNCS_ARI port) ctl.ari
      (updFn port 0 (fun y => { y with cfg := { y.cfg with vfMse := ctl.mse } }) (setFld (HEP_FUNCS_NUMVFS port) n s)))) := by
    rw [exec_vfEnableSet, execVfEnableSet, decide_eq_true hport, run_true, cfgWrite_of_ready hready, if_neg hnot, if_pos hn]
  refine ⟨_, hexec, ?en, ?num, ?ari, ?mse⟩
  case en => rw [isSet, getFld_setFld_self]; rfl
  case num =>
    obtain rfl | rfl : port = 0 ∨ port = 1 := by omega
    all_goals
      rw [getFld_setFld_ne (by decide), setFlag, getFld_setFld_ne (by decide), updFn, getFld_updHost, getFld_setFld_self]
      exact Nat.mod_eq_of_lt (Nat.lt_of_le_of_lt hn (by decide))
  case ari =>
    obtain rfl | rfl : port = 0 ∨ port = 1 := by omega
    all_goals
      rw [isSet, getFld_setFld_ne (by decide), setFlag, getFld_setFld_self]
      cases ctl.ari <;> rfl
  case mse =>
    simp only [fnOf, setFlag, setFld_host, updFn, updHost, smGetD, smGet_smSet_self, Option.getD_some]

/-- Settles O39: each command takes the branch that its hypotheses name. -/
theorem hostFunctionsAreControlled : Obligations.HostFunctionsAreControlled := by
  unfold Obligations.HostFunctionsAreControlled
  refine ⟨?clear, ?set, ?retry, fun port n ctl s hport hoff hready hn => vfEnableSet_shows hport ctl hoff hready hn, ?d3, ?d0, ?unmask, ?errors⟩
  case clear =>
    intro port func s hport hfunc hfn hready
    rw [exec_busMasterEnableClear, execBusMasterEnableClear, decide_eq_true ⟨hport, hfunc⟩, run_true, onlyIf, if_pos hfn, cfgWrite_of_ready hready]
  case set =>
    intro port func cfg s hport hfunc hfn hready
    rw [exec_busMasterEnableSet, execBusMasterEnableSet, decide_eq_true ⟨hport, hfunc⟩, run_true, onlyIf, if_pos hfn, cfgWrite_of_ready hready]
  case retry =>
    intro port func cfg s hport hfunc hfn hretry u
    constructor
    · rw [exec_busMasterEnableClear, execBusMasterEnableClear, decide_eq_true ⟨hport, hfunc⟩, run_true, onlyIf, if_pos hfn, cfgWrite_of_retry hretry]
    · rw [exec_busMasterEnableSet, execBusMasterEnableSet, decide_eq_true ⟨hport, hfunc⟩, run_true, onlyIf, if_pos hfn, cfgWrite_of_retry hretry]
  case d3 =>
    intro port s hport hawake hready
    rw [exec_d3hotEntry, execD3hotEntry, decide_eq_true hport, run_true, onlyIf, hawake, Bool.not_false, if_pos rfl, cfgWrite_of_ready hready]
  case d0 =>
    intro port s hport hd3 hup hready
    rw [exec_d0Return, execD0Return, decide_eq_true hport, run_true, onlyIf, hd3, hup, Bool.and_self, if_pos rfl, cfgWrite_of_ready hready]
  case unmask =>
    intro port func v s hport hfunc hfn hflr
    constructor
    all_goals
      rw [exec_msixUnmask, execMsixUnmask, decide_eq_true ⟨hport, hfunc⟩, run_true, onlyIf, hfn, hflr, Bool.not_false, Bool.and_self, if_pos rfl]
  case errors =>
    intro port func s hport hfunc
    refine ⟨?ecrc, ?corrected, ?uncorrectable⟩
    all_goals
      rw [exec_linkLayerError, execLinkLayerError, decide_eq_true ⟨hport, hfunc⟩, run_true]
      rfl

end Sys2Proof.Machine
end

section
/-! Fields of one page, told apart by their places; a drive slot's state, indicator and inputs (R284 to R299). -/

namespace Sys2Proof.Machine
open Reg

/-! ### Fields of one page -/

/-- Two fields stand at different bits of a page's registers. -/
def FRef.apart (f g : FRef) : Bool := !(Nat.beq f.off g.off && Nat.beq f.lo g.lo) && Nat.blt f.lo 32 && Nat.blt g.lo 32

/-- A field is none of PG_EVT and PG_EVT_FIRST. -/
def FRef.eventless (f : FRef) : Bool := !(Nat.beq f.off 0x10 || Nat.beq f.off 0x1c) && Nat.blt f.lo 32

theorem key_ne_of_apart {f g : FRef} (hbank : f.bank = g.bank) (hpage : f.page = g.page) (h : f.apart g = true) : f.key ≠ g.key := by
  simp only [FRef.apart, Bool.and_eq_true, Bool.not_eq_true', ← Bool.not_eq_true, Nat.blt_eq, Nat.beq_eq] at h
  obtain ⟨⟨hne, hf⟩, hg⟩ := h
  exact key_ne_of_place hbank hpage (by omega)

/-- A field of the same page at another place stands. The conditions hold by `rfl` for the fields of an indexed page. -/
theorem getFld_setFld_same {f g : FRef} (hbank : f.bank = g.bank) (hpage : f.page = g.page) (h : f.apart g = true)
    (v : Nat) (s : State) : getFld (setFld g v s) f = getFld s f :=
  getFld_setFld_ne (key_ne_of_apart hbank hpage h) v s

/-- An event leaves the page's other fields. -/
theorem getFld_setEvt_same {f : FRef} {p : Nat} (hbank : f.bank = 0) (hpage : f.page = p) (h : f.eventless = true)
    (bit : Nat) (s : State) : getFld (setEvt p bit s) f = getFld s f := by
  simp only [FRef.eventless, Bool.and_eq_true, Bool.not_eq_true', ← Bool.not_eq_true, Bool.or_eq_true, Nat.blt_eq, Nat.beq_eq] at h
  obtain ⟨hevt, hlo⟩ := h
  have hplace : f.off * 32 + f.lo ≠ 0x10 * 32 ∧ f.off * 32 + f.lo ≠ 0x1c * 32 ∧ f.off * 32 + f.lo ≠ 0x1c * 32 + 7 := by omega
  obtain ⟨hne, hbit, hvalid⟩ := hplace
  exact getFld_setEvt_ne (key_ne_of_place hbank hpage hne) (key_ne_of_place hbank hpage hbit) (key_ne_of_place hbank hpage hvalid) bit s

theorem getFld_dptEvt {f : FRef} {p : Nat} (hbank : f.bank = 0) (hpage : f.page = 0x80 + p) (h : f.eventless = true)
    (bit : Nat) (s : State) : getFld (dptEvt p bit s) f = getFld s f :=
  getFld_setEvt_same hbank hpage h bit s

/-! ### The slot's state and indicator -/

theorem portState_setPort (p : Nat) {st : Nat} (hst : st < 256) (s : State) : portState (setPort p st s) p = st :=
  (getFld_setFld_self ..).trans (Nat.mod_eq_of_lt hst)

theorem getFld_setPort {f : FRef} {p : Nat} (hbank : f.bank = 0) (hpage : f.page = 0x80 + p) (h : f.apart (PG_STAT_STATE (0x80 + p)) = true)
    (st : Nat) (s : State) : getFld (setPort p st s) f = getFld s f :=
  getFld_setFld_same hbank hpage h st s

theorem getFld_showPic {f : FRef} {p : Nat} (hbank : f.bank = 0) (hpage : f.page = 0x80 + p) (h : f.apart (DPT_SLOT_CTL_PIC p) = true)
    (s : State) : getFld (showPic p s) f = getFld s f :=
  getFld_setFld_same hbank hpage h _ s

theorem portState_showPic (p : Nat) (s : State) : portState (showPic p s) p = portState s p := getFld_showPic rfl rfl rfl s

theorem portState_dptEvt (p bit : Nat) (s : State) : portState (dptEvt p bit s) p = portState s p := getFld_dptEvt rfl rfl rfl bit s

theorem portState_setFld {f : FRef} {p : Nat} (hbank : 0 = f.bank) (hpage : 0x80 + p = f.page) (h : (PG_STAT_STATE (0x80 + p)).apart f = true)
    (v : Nat) (s : State) : portState (setFld f v s) p = portState s p :=
  getFld_setFld_same (f := PG_STAT_STATE (0x80 + p)) hbank hpage h v s

@[simp] theorem getFld_updBay (p : Nat) (f : Bay → Bay) (s : State) (g : FRef) : getFld (updBay p f s) g = getFld s g := rfl

@[simp] theorem portState_updBay (p q : Nat) (f : Bay → Bay) (s : State) : portState (updBay p f s) q = portState s q := rfl

/-! ### The slot's bay -/

theorem bayOf_congr {s t : State} (h : t.drive = s.drive) (p : Nat) : bayOf t p = bayOf s p := by rw [bayOf, bayOf, h]

@[simp] theorem bayOf_setFld (f : FRef) (v : Nat) (s : State) (p : Nat) : bayOf (setFld f v s) p = bayOf s p := rfl
@[simp] theorem bayOf_setPort (q st : Nat) (s : State) (p : Nat) : bayOf (setPort q st s) p = bayOf s p := rfl
@[simp] theorem bayOf_showPic (q : Nat) (s : State) (p : Nat) : bayOf (showPic q s) p = bayOf s p := rfl
@[simp] theorem bayOf_dptEvt (q bit : Nat) (s : State) (p : Nat) : bayOf (dptEvt q bit s) p = bayOf s p := bayOf_congr (setEvt_drive ..) p
@[simp] theorem bayOf_updBay_self (p : Nat) (f : Bay → Bay) (s : State) : bayOf (updBay p f s) p = f (bayOf s p) := by
  simp only [bayOf, updBay, updDrive, smGetD, smGet_smSet_self, Option.getD_some]

end Sys2Proof.Machine
end

section
/-! Settles O40: a drive slot comes into service (R284, R287, R288, R295, R298). -/

namespace Sys2Proof.Machine
open Reg

/-- A slot that is powered up waits for power good, with its indicator blinking. -/
theorem powerUp_shows (p : Nat) (s : State) :
    portState (powerUp p s) p = 1 ∧ powered (powerUp p s) p = true ∧ getFld (powerUp p s) (DPT_SLOT_CTL_PIC p) = 2 := by
  have hstate : portState (setPort p 1 (setFld (DPT_SLOT_CTL_PCC p) 0 (updBay p (fun b => { b with hold := false }) s))) p = 1 :=
    portState_setPort p (by decide) _
  refine ⟨?state, ?power, ?pic⟩
  case state => rw [powerUp, portState_showPic, hstate]
  case power =>
    rw [powered, isSet, powerUp, getFld_showPic rfl rfl rfl, getFld_setPort rfl rfl rfl, getFld_setFld_self]
    rfl
  case pic =>
    simp only [powerUp, showPic, getFld_setFld_self, hstate]
    cases (bayOf (setPort p 1 (setFld (DPT_SLOT_CTL_PCC p) 0 (updBay p (fun b => { b with hold := false }) s))) p).window <;> rfl

/-- A slot that fails to come up shows why. -/
theorem initFail_shows (p why : Nat) (s : State) (hwhy : why < 16) :
    portState (dptEvt p DPT_EVT_INIT_FAIL (setFld (DPT_DRIVE_WHY p) why (showPic p (setPort p 8 s)))) p = 8 ∧
    getFld (dptEvt p DPT_EVT_INIT_FAIL (setFld (DPT_DRIVE_WHY p) why (showPic p (setPort p 8 s)))) (DPT_DRIVE_WHY p) = why := by
  constructor
  · rw [portState_dptEvt, portState_setFld rfl rfl rfl, portState_showPic, portState_setPort p (by decide)]
  · rw [getFld_dptEvt rfl rfl rfl, getFld_setFld_self]
    exact Nat.mod_eq_of_lt hwhy

/-- Settles O40: each command takes the branch that its hypotheses name. -/
theorem driveSlotsComeIntoService : Obligations.DriveSlotsComeIntoService := by
  unfold Obligations.DriveSlotsComeIntoService
  refine ⟨?presence, ?noPower, ?clock, ?train, ?noLink, ?bringUp⟩
  case presence =>
    intro p s hp hempty hpresent hauto hon
    have hcomes : ¬ (portState s p ≠ 0 ∨ (!isSet s (DPT_SLOT_STS_PDS p)) = true) := by rw [hempty, hpresent]; decide
    refine ⟨_, ?_, powerUp_shows p (dptEvt p DPT_EVT_PDC (setFld (PG_STAT_ASLEEP (0x80 + p)) 0 s))⟩
    rw [exec_slotPresenceDetected, execSlotPresenceDetected, decide_eq_true hp, run_true, if_neg hcomes]
    exact congrArg Host.Outcome.next (if_pos ⟨hauto, hon⟩)
  case noPower =>
    intro p s hp hstate hgood
    have hfails : ¬ (portState s p ≠ 1 ∨ isSet s (DPT_SLOT_STS_PWR_GOOD p) = true) := by rw [hstate, hgood]; decide
    obtain ⟨hfail, hwhy⟩ := initFail_shows p 6 (slotOff p s) (by decide)
    refine ⟨_, by rw [exec_pwrGoodTimeout, execPwrGoodTimeout, decide_eq_true hp, run_true, if_neg hfails], hfail, ?power, hwhy⟩
    rw [powered, isSet, getFld_dptEvt rfl rfl rfl, getFld_setFld_same (by rfl) (by rfl) (by rfl), getFld_showPic rfl rfl rfl,
      getFld_setPort rfl rfl rfl, slotOff, getFld_setFld_self]
    rfl
  case clock =>
    intro p s hp hstate hgood
    have hgoes : ¬ (portState s p ≠ 1 ∨ (!isSet s (DPT_SLOT_STS_PWR_GOOD p)) = true) := by rw [hstate, hgood]; decide
    refine ⟨_, by rw [exec_perstReleaseTimer, execPerstReleaseTimer, decide_eq_true hp, run_true, if_neg hgoes], ?state, ?perst, ?clk⟩
    case state => rw [portState_showPic, portState_setPort p (by decide)]
    all_goals rw [bayOf_showPic, bayOf_setPort, bayOf_updBay_self]
  case train =>
    intro p speed width s hp hlo hmax hhi hwidth hstate hhold hlive hfence
    have hx1 : width ≠ 4 ∧ width < 8 ∧ width ∈ [1, 2, 4] := by
      simp only [List.mem_cons, List.not_mem_nil, or_false] at hwidth ⊢
      omega
    obtain ⟨hnot4, hfits, hmem⟩ := hx1
    have hgoes : ¬ (portState s p ≠ 2 ∨ (bayOf s p).hold = true ∨ (0x80 + p) ∈ s.pwr.dead ∨ getFld s (DPT_CFG_MAX_SPEED p) < speed ∨
        (width = 4 ∧ (!isSet s (DPT_CFG_X4 p)) = true) ∨ fenced s (0x80 + p) = true) := by
      rw [hstate, hhold, hfence]
      simp [hlive, hnot4, hmax]
    have hpage : ∀ f : FRef, f.bank = 0 → f.page = 0x80 + p → f.off * 32 + f.lo < 2 ^ 17 → f.pageKey ≠ 1 := by
      intro f hbank hpage hroom
      simp only [FRef.pageKey, FRef.key, hbank, hpage]
      omega
    refine ⟨_, by rw [exec_driveLinkUp, execDriveLinkUp, decide_eq_true ⟨hp, hlo, hhi, hmem⟩, run_true, if_neg hgoes], ?state, ?speed, ?width⟩
    case state =>
      rw [portState_dptEvt, portState, getFld_emit (hpage _ rfl rfl (by simp [PG_STAT_STATE])), ← portState, portState_showPic,
        portState_setPort p (by decide)]
    case speed =>
      rw [getFld_dptEvt rfl rfl rfl, getFld_emit (hpage _ rfl rfl (by simp [DPT_LINK_SPEED])), getFld_showPic rfl rfl rfl, getFld_setPort rfl rfl rfl,
        getFld_setFld_self]
      exact Nat.mod_eq_of_lt (Nat.lt_of_le_of_lt hhi (show 5 < 2 ^ 3 by decide))
    case width =>
      rw [getFld_dptEvt rfl rfl rfl, getFld_emit (hpage _ rfl rfl (by simp [DPT_LINK_WIDTH])), getFld_showPic rfl rfl rfl, getFld_setPort rfl rfl rfl,
        getFld_setFld_same (by rfl) (by rfl) (by rfl), getFld_setFld_self]
      exact Nat.mod_eq_of_lt hfits
  case noLink =>
    intro p s hp hstate
    have hfails : ¬ portState s p ≠ 2 := by rw [hstate]; decide
    refine ⟨_, by rw [exec_driveLinkTimeout, execDriveLinkTimeout, decide_eq_true hp, run_true, if_neg hfails], initFail_shows p 7 s (by decide)⟩
  case bringUp =>
    intro p d found media s hp hstate t
    have hexec : exec (.nvmeBringUpDone p d found media) s = .next (bringUp p d (found.filter (fun f => decide (f.port = p))) media s) := by
      rw [exec_nvmeBringUpDone, execNvmeBringUpDone, decide_eq_true hp, run_true, onlyIf, decide_eq_true hstate, if_pos rfl]
    refine ⟨fun hpass => ?pass, fun hfail => ?fail⟩
    case pass =>
      have hok : ¬ driveWhy s p d ≠ 0 := not_not_intro hpass
      rw [hexec]
      exact congrArg Host.Outcome.next (if_neg hok)
    case fail =>
      rw [hexec]
      exact congrArg Host.Outcome.next (if_pos hfail)

end Sys2Proof.Machine
end

section
/-! A port whose drive has gone has none again until its controller is identified: the end of its vault chunks brings none back (R293). -/

namespace Sys2Proof.Machine
open Reg

/-! ### What leaves the drives -/

theorem dport_congr {s t : State} (h : t.drive = s.drive) (p : Nat) : dport t p = dport s p := by rw [dport, dport, h]

@[simp] theorem leaveIdle_drive (s : State) : (leaveIdle s).drive = s.drive := by
  unfold leaveIdle
  split
  · rw [setEvt_drive, setFld_drive]
  · rfl

@[simp] theorem emit_drive (o : Out) (s : State) : (emit o s).drive = s.drive := by
  have hout : (emit o s).drive = (if o.isWork then leaveIdle s else s).drive := rfl
  rw [hout]
  split
  · exact leaveIdle_drive s
  · rfl

@[simp] theorem leaveDriveL1_drive (p : Nat) (s : State) : (leaveDriveL1 p s).drive = s.drive := by
  unfold leaveDriveL1
  split <;> rfl

@[simp] theorem bemFollow_drive (s : State) : (bemFollow s).drive = s.drive := by
  simp only [bemFollow]
  generalize (if getFld s PWR_STAT_STATE = 4 then 1 else if getFld s PWR_STAT_STATE = 3 ∨ getFld s PWR_STAT_STATE = 5 then 2 else 0) = new
  split
  · rfl
  · split
    · rfl
    · split <;> rfl

@[simp] theorem setPower_drive (st : Nat) (s : State) : (setPower st s).drive = s.drive := by
  unfold setPower
  split
  · rfl
  · rw [setEvt_drive, bemFollow_drive, setFld_drive]

theorem foldl_drive {α : Type} {f : State → α → State} (hf : ∀ t x, (f t x).drive = t.drive) (l : List α) (s : State) :
    (l.foldl f s).drive = s.drive := by
  induction l generalizing s with
  | nil => rfl
  | cons x l ih => rw [List.foldl_cons, ih, hf]

/-! ### A reset leaves no drive -/

theorem dport_resetState (code : Nat) (s : State) (p : Nat) : dport (resetState code s) p = none := rfl

@[simp] theorem counterLoad_drive (s : State) : (counterLoad s).drive = s.drive := by
  unfold counterLoad
  split <;> rfl

@[simp] theorem startP1_drive (s : State) : (startP1 s).drive = s.drive := by
  unfold startP1
  dsimp only
  rw [setFld_drive, setFld_drive, incFld, setFld_drive, setPower_drive, foldl_drive (fun _ _ => setFld_drive ..)]

theorem showStore_drive (s : State) : (showStore s).drive = s.drive := rfl

theorem resumeMeasures_drive (s : State) : (resumeMeasures s).drive = s.drive := by
  unfold resumeMeasures
  dsimp only
  rw [showStore_drive, setFld_drive, updEvr_drive]

theorem showKeys_drive (s : State) : (showKeys s).drive = s.drive := rfl

theorem deviceReset_drive (code : Nat) (s : State) : (deviceReset code s).drive = State.reset.drive := by
  have hload : ∀ t : State, (if code = 0 then counterLoad t else t).drive = t.drive := fun t => by
    split
    · exact counterLoad_drive t
    · rfl
  have hshow : ∀ (n : Nat) (t : State), (if code ≤ 2 then resumeMeasures t else showStore (setFld EVR_NEXT_SEQ_SEQ n t)).drive = t.drive := fun n t => by
    split
    · exact resumeMeasures_drive t
    · rw [showStore_drive, setFld_drive]
  have hend : ∀ t : State, (if code ≤ 2 then bemFollow { t with pwr := { t.pwr with due := some code } } else startP1 (bemFollow t)).drive = t.drive :=
    fun t => by
      split
      · rw [bemFollow_drive]
      · rw [startP1_drive, bemFollow_drive]
  unfold deviceReset
  dsimp only
  rw [hend, showKeys_drive, setFlag, setFld_drive, setFld_drive, hshow, hload]
  rfl

theorem dport_deviceReset (code : Nat) (s : State) (p : Nat) : dport (deviceReset code s) p = none := by
  rw [dport, deviceReset_drive]
  rfl

theorem dport_mainOff (st : Nat) (s : State) (p : Nat) : dport (mainOff st s) p = none := by
  have hdrive : (mainOff st s).drive = State.reset.drive := by
    unfold mainOff
    dsimp only
    rw [setPower_drive, setFld_drive, foldl_drive (fun _ _ => setFld_drive ..)]
    rfl
  rw [dport, hdrive]
  rfl

/-! ### Commands to the drives -/

theorem dport_none_updDport {s : State} {p : Nat} (h : dport s p = none) (q : Nat) (f : DPort → DPort) : dport (updDport q f s) p = none := by
  unfold updDport
  split
  case h_1 d hd =>
    have hne : p ≠ q := by
      rintro rfl
      rw [h] at hd
      cases hd
    exact (smGet_smSet_ne _ hne _).trans h
  case h_2 => exact h

theorem dport_none_issueNv {s : State} {p : Nat} (h : dport s p = none) (id : Nat) (c : NvCmd) : dport (issueNv id c s) p = none := by
  unfold issueNv
  split
  · exact h
  · rw [dport_congr (emit_drive _ _), dport_congr (leaveDriveL1_drive _ _)]
    exact dport_none_updDport (s := updIo _ s) h _ _

theorem dport_none_foldl {α : Type} {f : State → α → State} {p : Nat} (hf : ∀ t x, dport t p = none → dport (f t x) p = none) (l : List α) {s : State}
    (h : dport s p = none) : dport (l.foldl f s) p = none := by
  induction l generalizing s with
  | nil => exact h
  | cons x l ih => exact ih (hf s x h)

theorem dport_none_pumpNv {s : State} {p : Nat} (h : dport s p = none) (q : Nat) : dport (pumpNv q s) p = none :=
  dport_none_foldl (fun _ r ht => dport_none_issueNv ht r.1 r.2) _ h

theorem dport_none_endNv {s : State} {p : Nat} (h : dport s p = none) (id : Nat) : dport (endNv id s) p = none :=
  dport_none_foldl (fun _ q ht => dport_none_pumpNv ht q) _ (s := updIo _ s) h

/-- A command to a drive of this node. -/
theorem dport_none_sendNv {s : State} {p : Nat} (h : dport s p = none) {c : NvCmd} (hnode : c.node = nodeId s) : dport (sendNv c s) p = none := by
  simp only [sendNv, hnode, if_true]
  generalize (!match c.why with | .vault _ => true | .resv _ => true | _ => false) = held
  split
  · exact h
  · exact dport_none_pumpNv (s := updIo _ s) h c.port

/-! ### The vault's chunks -/

theorem dport_none_chunkWrite {s : State} {p : Nat} (h : dport s p = none) (im : Image) (c : Nat) : dport (chunkWrite im c s) p = none :=
  dport_none_foldl (fun _ _ ht => dport_none_foldl (fun _ _ hu => dport_none_sendNv hu rfl) _ ht) _ h

theorem dport_none_chunkIssue (fuel : Nat) {s : State} {p : Nat} (h : dport s p = none) : dport (chunkIssue fuel s) p = none := by
  induction fuel generalizing s with
  | zero => exact h
  | succ fuel ih =>
    unfold chunkIssue
    split
    · exact h
    · split
      · exact h
      · exact ih (s := updCache _ _) (dport_none_chunkWrite h _ _)

theorem dport_none_dumpEnd {s : State} {p : Nat} (h : dport s p = none) (good : Bool) : dport (dumpEnd good s) p = none := by
  unfold dumpEnd backupEnd
  dsimp only
  split
  · split
    · exact dport_deviceReset 5 _ p
    · exact dport_mainOff 5 _ p
  · split
    · exact h
    · exact dport_deviceReset _ _ p

theorem dport_none_chunkEnd {s : State} {p : Nat} (h : dport s p = none) (id c : Nat) (good : Bool) : dport (chunkEnd id c good s) p = none := by
  have hend := dport_none_endNv h id
  have hleft : dport (onlyIf (decide (c ∉ chunksOut (endNv id s))) (updCache (fun t => { t with dumpLeft := t.dumpLeft - 1 })) (endNv id s)) p = none := by
    unfold onlyIf
    split <;> exact hend
  unfold chunkEnd
  dsimp only
  split
  · exact hend
  · split
    · exact dport_none_dumpEnd (dport_none_chunkIssue 64 hleft) good
    · exact dport_none_chunkIssue 64 hleft

theorem dport_none_endChunks {s : State} {p : Nat} (h : dport s p = none) (q : Nat) : dport (endChunks q s) p = none := by
  refine dport_none_foldl (fun t r ht => ?_) _ h
  split
  · exact dport_none_chunkEnd ht _ _ _
  · exact ht

/-! ### A drive that has gone -/

theorem linkRegsOff_drive (p : Nat) (s : State) : (linkRegsOff p s).drive = s.drive := by
  have hevt : ∀ b t, (onlyIf b (dptEvt p DPT_EVT_DLLSC) t).drive = t.drive := fun b t => by
    unfold onlyIf
    split
    · exact setEvt_drive ..
    · rfl
  rw [linkRegsOff, hevt, foldl_drive (fun _ _ => setFld_drive ..)]

theorem cutCmd_drive (p : Nat) (s : State) : (cutCmd p s).drive = s.drive := by
  unfold cutCmd onlyIf
  split <;> rfl

theorem dport_driveGone (p : Nat) (s : State) : dport (driveGone p s) p = none := by
  refine dport_none_endChunks ?_ p
  rw [dport_congr (cutCmd_drive p _), dport_congr (linkRegsOff_drive p _)]
  exact smGet_smDel_self ..

end Sys2Proof.Machine
end

section
/-! Settles O41: a drive slot leaves service (R286, R291, R293, Table DRIVE-3). -/

namespace Sys2Proof.Machine
open Reg

/-! ### The button -/

theorem attentionButton_opens {p : Nat} {s : State} (hp : p < 64) (hpressed : (bayOf s p).pressed = true) (hstate : portState s p = 4)
    (hwindow : (bayOf s p).window = false) :
    ∃ t, exec (.attentionButton p) s = .next t ∧ (bayOf t p).window = true ∧ (bayOf t p).pressed = false ∧ portState t p = 4 := by
  have hmem : ¬ portState s p ∉ [4, 6] := by rw [hstate]; decide
  refine ⟨showPic p (updBay p (fun b => { b with window := true }) (dptEvt p DPT_EVT_ABP (updBay p (fun b => { b with pressed := false }) s))),
    ?exec, ?window, ?pressed, ?state⟩
  case exec =>
    rw [exec_attentionButton, execAttentionButton, decide_eq_true hp, run_true]
    simp only [hpressed, Bool.not_true, Bool.false_eq_true, if_false, if_neg hmem, hwindow]
  case window => rw [bayOf_showPic, bayOf_updBay_self]
  case pressed => rw [bayOf_showPic, bayOf_updBay_self, bayOf_dptEvt, bayOf_updBay_self]
  case state => rw [portState_showPic, portState_updBay, portState_dptEvt, portState_updBay, hstate]

theorem attentionWindowEnd_refuses {p : Nat} {s : State} (hp : p < 64) (hwindow : (bayOf s p).window = true) (hstate : portState s p = 4)
    (hstays : removable s p = false) :
    ∃ t, exec (.attentionWindowEnd p) s = .next t ∧ portState t p = 4 ∧ (bayOf t p).window = false ∧ (bayOf t p).refused = devTime s + 1 := by
  refine ⟨dptEvt p DPT_EVT_REMOVE_REFUSED (showPic p (updBay p (fun b => { b with refused := devTime s + 1 })
    (updBay p (fun b => { b with window := false }) s))), ?exec, ?state, ?window, ?refused⟩
  case exec =>
    rw [exec_attentionWindowEnd, execAttentionWindowEnd, decide_eq_true hp, run_true]
    simp only [hwindow, hstays, Bool.not_true, Bool.not_false, Bool.false_eq_true, if_false, if_true]
  case state => rw [portState_dptEvt, portState_showPic, portState_updBay, portState_updBay, hstate]
  case window => rw [bayOf_dptEvt, bayOf_showPic, bayOf_updBay_self, bayOf_updBay_self]
  case refused => rw [bayOf_dptEvt, bayOf_showPic, bayOf_updBay_self]

/-! ### The end of a drive -/

theorem portState_slotDown (p : Nat) (s : State) : portState (slotDown p s) p = 6 := by
  rw [slotDown, portState_showPic, portState_setPort p (by decide)]

theorem portState_cmdEnd (p : Nat) (st : Status) (s : State) :
    portState (cmdEnd (DPT_CMD_GO p) (DPT_CMD_RES_STATUS p) (DPT_CMD_RES_DONE p) st s) p = portState s p := by
  rw [cmdEnd, portState_setFld rfl rfl rfl, portState_setFld rfl rfl rfl, portState_setFld rfl rfl rfl]

theorem presenceLost_empties {p : Nat} {s : State} (hp : p < 64) (hstate : portState s p = 4) (hgone : isSet s (DPT_SLOT_STS_PDS p) = false) :
    ∃ t, exec (.presenceLost p) s = .next t ∧ portState t p = 0 ∧ isSet t (PG_STAT_ASLEEP (0x80 + p)) = true ∧ smGet t.drive.ports p = none := by
  have hgoes : ¬ (portState s p ∈ [0, 7] ∨ isSet s (DPT_SLOT_STS_PDS p) = true) := by rw [hstate, hgone]; decide
  refine ⟨_, by rw [exec_presenceLost, execPresenceLost, decide_eq_true hp, run_true, if_neg hgoes], ?state, ?asleep, ?port⟩
  case state => rw [portState_setFld rfl rfl rfl, portState_showPic, portState_setPort p (by decide)]
  case asleep => rw [isSet, getFld_setFld_self]; rfl
  case port =>
    have hnone := dport_driveGone p (dptEvt p DPT_EVT_PDC s)
    generalize driveGone p (dptEvt p DPT_EVT_PDC s) = u at hnone
    exact hnone

theorem powerFault_shows {p : Nat} {s : State} (hp : p < 64) (hon : powered s p = true) (hfault : input s p 2 = true) :
    ∃ t, exec (.powerFault p) s = .next t ∧ portState t p = 6 ∧ (bayOf t p).pfault = true ∧ powered t p = false := by
  have hgoes : ¬ ((!powered s p) = true ∨ (!input s p 2) = true) := by rw [hon, hfault]; decide
  refine ⟨_, by rw [exec_powerFault, execPowerFault, decide_eq_true hp, run_true, if_neg hgoes], ?state, ?fault, ?power⟩
  case state => rw [portState_showPic, portState_setPort p (by decide)]
  case fault => rw [bayOf_showPic, bayOf_setPort, bayOf_updBay_self]
  case power =>
    rw [powered, isSet, getFld_showPic rfl rfl rfl, getFld_setPort rfl rfl rfl, getFld_updBay, slotOff, getFld_setFld_self]
    rfl

/-! ### The controller -/

theorem updDport_of_dport {p : Nat} {d : DPort} {s : State} (h : dport s p = some d) (f : DPort → DPort) : dport (updDport p f s) p = some (f d) := by
  rw [updDport, h]
  exact smGet_smSet_self ..

theorem controllerResetDone_ends {p : Nat} {d : DPort} {s : State} (hp : p < 64) (hport : dport s p = some d) (hreset : d.resetting = true)
    (hidle : portCmds s p = []) : ∃ t, exec (.controllerResetDone p) s = .next t ∧ (dport t p).map DPort.resetting = some false := by
  have hrun : ((dport s p).map DPort.resetting).getD false = true := by rw [hport]; exact hreset
  refine ⟨_, by rw [exec_controllerResetDone, execControllerResetDone, decide_eq_true hp, run_true, onlyIf, if_pos hrun], ?_⟩
  have hsent : dport (emit (.nvmeAdmin p [.createQueues (queuePairs s p)]) s) p = some d := (dport_congr (emit_drive _ _) p).trans hport
  simp only [resetDone, hidle, List.foldl_nil]
  exact congrArg (Option.map DPort.resetting) (updDport_of_dport hsent (fun d => { d with resetting := false, turn := 0 }))

/-- Settles O41: each command takes the branch that its hypotheses name. -/
theorem driveSlotsLeaveService : Obligations.DriveSlotsLeaveService := by
  unfold Obligations.DriveSlotsLeaveService
  refine ⟨fun p s hp hpressed hstate hwindow => attentionButton_opens hp hpressed hstate hwindow, ?cancel, ?windowEnd, ?shutdown,
    fun p s hp hstate hgone => presenceLost_empties hp hstate hgone, fun p s hp hon hfault => powerFault_shows hp hon hfault,
    ?linkDown, ?fatal, ?timeout, fun p d s hp hport hreset hidle => controllerResetDone_ends hp hport hreset hidle, ?rest⟩
  case cancel =>
    intro p s hp hpressed hstate hwindow
    have hmem : ¬ portState s p ∉ [4, 6] := by rw [hstate]; decide
    rw [exec_attentionButton, execAttentionButton, decide_eq_true hp, run_true]
    simp only [hpressed, Bool.not_true, Bool.false_eq_true, if_false, if_neg hmem, hwindow, if_true]
  case windowEnd =>
    intro p s hp hwindow hstate
    refine ⟨fun hgoes => ?_, fun hstays => attentionWindowEnd_refuses hp hwindow hstate hstays⟩
    rw [exec_attentionWindowEnd, execAttentionWindowEnd, decide_eq_true hp, run_true]
    simp only [hwindow, hgoes, hstate, Bool.not_true, Bool.false_eq_true, if_false, if_true]
  case shutdown =>
    intro p s hp hstate
    refine ⟨shutdownDone p s, by rw [exec_shutdownComplete, execShutdownComplete, decide_eq_true hp, run_true, onlyIf, decide_eq_true hstate, if_pos rfl],
      ?_⟩
    unfold shutdownDone
    dsimp only
    split
    · exact ⟨.inr rfl, (portState_cmdEnd ..).trans (portState_slotDown p s)⟩
    · exact ⟨.inl rfl, portState_slotDown p s⟩
  case linkDown =>
    intro p s hp hstate
    have hgoes : ¬ portState s p ∉ [3, 4, 5] := by rw [hstate]; decide
    rw [exec_driveLinkDown, execDriveLinkDown, decide_eq_true hp, run_true, if_neg hgoes]
  case fatal =>
    intro p s hp hport
    rw [exec_controllerFatalStatus, execControllerFatalStatus, decide_eq_true hp, run_true, onlyIf, if_pos hport]
  case timeout =>
    intro p s hp hissued
    rw [exec_nvmeCommandTimeout, execNvmeCommandTimeout, decide_eq_true hp, run_true, onlyIf, if_pos hissued]
  case rest =>
    intro p s hp hstate hidle hclk haspm hoffers
    have hgoes : ¬ (portState s p ≠ 4 ∨ ((dport s p).map DPort.aspm).getD false = false ∨ portCmds s p ≠ [] ∨ isSet s (PG_CTL_CLK_REQ (0x80 + p)) = true ∨
        ((!isSet s (DPT_CFG_ASPM_L1 p)) = true ∧ getFld s PWR_STAT_STATE ≠ 2)) := by
      rw [hstate, hoffers, hidle, hclk, haspm]
      simp
    rw [exec_driveL1Entry, execDriveL1Entry, decide_eq_true hp, run_true, if_neg hgoes]

end Sys2Proof.Machine
end

section
/-! Settles O42: the drive sideband bus and the commands of a drive slot (R290, R296 to R299). -/

namespace Sys2Proof.Machine
open Reg

/-! ### Frames whose inputs are not taken -/

theorem bayOf_updBay_ne {p q : Nat} (h : p ≠ q) (f : Bay → Bay) (s : State) : bayOf (updBay q f s) p = bayOf s p := by
  simp only [bayOf, updBay, updDrive, smGetD, smGet_smSet_ne _ h]

/-- What was seen changing at some slots of a chain is forgotten. -/
def forgetChanges (n : Nat) (slots : List Nat) (s : State) : State :=
  slots.foldl (fun u i => updBay (16 * n + i) (fun b => { b with cand := [] }) u) s

theorem forgetChanges_good (n : Nat) (slots : List Nat) (s : State) (p : Nat) : (bayOf (forgetChanges n slots s) p).good = (bayOf s p).good := by
  unfold forgetChanges
  induction slots generalizing s with
  | nil => rfl
  | cons i slots ih =>
    rw [List.foldl_cons, ih]
    by_cases hp : p = 16 * n + i
    · rw [hp, bayOf_updBay_self]
    · rw [bayOf_updBay_ne hp]

theorem forgetChanges_keeps_none {n : Nat} (slots : List Nat) {s : State} {p : Nat} (h : (bayOf s p).cand = []) :
    (bayOf (forgetChanges n slots s) p).cand = [] := by
  unfold forgetChanges
  induction slots generalizing s with
  | nil => exact h
  | cons i slots ih =>
    refine ih ?_
    by_cases hp : p = 16 * n + i
    · rw [hp, bayOf_updBay_self]
    · rw [bayOf_updBay_ne hp, h]

theorem forgetChanges_cand {n i : Nat} {slots : List Nat} (hi : i ∈ slots) (s : State) : (bayOf (forgetChanges n slots s) (16 * n + i)).cand = [] := by
  induction slots generalizing s with
  | nil => cases hi
  | cons j slots ih =>
    obtain rfl | hi := List.mem_cons.mp hi
    · exact forgetChanges_keeps_none slots (s := updBay _ _ s) (by rw [bayOf_updBay_self])
    · exact ih hi _

/-- A frame with a framing bit counts as bad, and its inputs are not taken. -/
theorem frame_of_bad {n : Nat} {ins : List Nat} {s : State}
    (hbad : (List.range (min (getFld s (SSB_CFG_SLOTS n)) 16)).any (fun i => ((ins[i]?).getD 0 % 256).testBit 7) = true) :
    ∃ t, frame n ins s = forgetChanges n (List.range (min (getFld s (SSB_CFG_SLOTS n)) 16)) t ∧ t.drive.bays = s.drive.bays := by
  simp only [frame, hbad, if_true]
  refine ⟨_, rfl, ?_⟩
  have hraw : ∀ (l : List Nat) (v : Nat → Nat) (t : State), (l.foldl (fun t i => setFld (SSB_RAW_IN n i) (v i) t) t).drive = t.drive := fun l v => by
    induction l with
    | nil => exact fun _ => rfl
    | cons i l ih => exact fun t => by rw [List.foldl_cons, ih, setFld_drive]
  split
  · rw [setEvt_drive, setFld_drive, updDrive_drive, incFld, setFld_drive, hraw, incFld, setFld_drive]
  · rw [updDrive_drive, incFld, setFld_drive, hraw, incFld, setFld_drive]

theorem ssbFrame_bad {n : Nat} {ins : List Nat} {s : State}
    (hbad : (List.range (min (getFld s (SSB_CFG_SLOTS n)) 16)).any (fun i => ((ins[i]?).getD 0 % 256).testBit 7) = true) :
    (∀ p bit, input (frame n ins s) p bit = input s p bit) ∧
    ∀ i < min (getFld s (SSB_CFG_SLOTS n)) 16, (bayOf (frame n ins s) (16 * n + i)).cand = [] := by
  obtain ⟨t, hframe, hbays⟩ := frame_of_bad hbad
  have hbay : ∀ p, bayOf t p = bayOf s p := fun p => by rw [bayOf, bayOf, hbays]
  rw [hframe]
  exact ⟨fun p bit => by rw [input, input, forgetChanges_good, hbay], fun i hi => forgetChanges_cand (List.mem_range.mpr hi) t⟩

/-! ### The commands of a slot -/

section
variable {w : Win} {p op : Nat} {s : State}

theorem dptCmd_pass (hpass : Passes w (0x80 + p) s) (hinst : mayInstall s w = true) (hgo : isSet s (DPT_CMD_GO p) = false) (act : State → State) :
    dptCmd w p op act s = act (loaded w (0x80 + p) (DPT_CMD_OP p) op [] (DPT_CMD_GO p) (DPT_CMD_RES_DONE p) s) :=
  cmdWrite_pass hpass hinst hgo _ act

/-- Loading a slot's command leaves the registers that say whether it may go. -/
theorem getFld_loaded_slot (hinst : mayInstall s w = true) {f : FRef}
    (hf : f ∈ [PG_STAT_STATE (0x80 + p), DPT_SLOT_STS_PDS p, PG_CTL_ENABLE (0x80 + p)]) :
    getFld (loaded w (0x80 + p) (DPT_CMD_OP p) op [] (DPT_CMD_GO p) (DPT_CMD_RES_DONE p) s) f = getFld s f := by
  simp only [List.mem_cons, List.not_mem_nil, or_false] at hf
  obtain rfl | rfl | rfl := hf
  all_goals
    exact getFld_loaded_ne hinst (key_ne_of_apart rfl rfl rfl) nofun (key_ne_of_apart rfl rfl rfl) (key_ne_of_apart rfl rfl rfl)
      (key_ne_of_apart rfl rfl rfl)

end

/-- Settles O42: a frame with a framing bit forgets what was changing, and each command takes the branch that its hypotheses name. -/
theorem driveSidebandAndCommands : Obligations.DriveSidebandAndCommands := by
  unfold Obligations.DriveSidebandAndCommands
  refine ⟨?frame, ?blink, ?smart, ?commands⟩
  case frame =>
    intro n ins s hn hon
    refine ⟨frame n ins s, ?_, rfl, ssbFrame_bad⟩
    rw [exec_ssbFrame, execSsbFrame, decide_eq_true hn, run_true, onlyIf, if_pos hon]
  case blink =>
    intro s
    rw [exec_indicatorBlinkToggle, execIndicatorBlinkToggle, run_true]
  case smart =>
    intro p warn temp s hp hstate hwarn h2 h3
    rw [exec_smartPoll, execSmartPoll, decide_eq_true hp, run_true, onlyIf, decide_eq_true hstate, if_pos rfl]
    simp only [smartPoll, hwarn, h2, h3, ne_eq, not_true, Bool.or_self, Bool.false_eq_true, if_false]
  case commands =>
    intro w p s hp hpass hinst hgo off on
    have hstate : ∀ op, portState (loaded w (0x80 + p) (DPT_CMD_OP p) op [] (DPT_CMD_GO p) (DPT_CMD_RES_DONE p) s) p = portState s p :=
      fun op => getFld_loaded_slot hinst (by simp)
    refine ⟨?off, ?on, ?rescan⟩
    case off =>
      intro h4 hfree
      have hmay : ¬ ((!removable off p) = true ∨ portState off p = 7) := by rw [hfree, hstate, h4]; decide
      rw [exec_powerOff, execPowerOff, decide_eq_true hp, run_true, dptCmd_pass hpass hinst hgo, powerOffCmd, if_neg hmay, if_pos ((hstate 1).trans h4)]
    case on =>
      intro h6 hpresent henabled
      have hpds : isSet on (DPT_SLOT_STS_PDS p) = true := by rw [isSet, getFld_loaded_slot hinst (by simp)]; exact hpresent
      have hon : enabled on (0x80 + p) = true := by rw [enabled, isSet, getFld_loaded_slot hinst (by simp)]; exact henabled
      have hmay : ¬ ((!isSet on (DPT_SLOT_STS_PDS p)) = true ∨ portState on p = 7 ∨ (!enabled on (0x80 + p)) = true) := by
        rw [hpds, hon, hstate, h6]; decide
      have hoff : ¬ portState on p ∈ [1, 2, 3, 4, 5] := by rw [hstate, h6]; decide
      rw [exec_powerOn, execPowerOn, decide_eq_true hp, run_true, dptCmd_pass hpass hinst hgo, powerOnCmd, if_neg hmay, if_neg hoff]
    case rescan =>
      intro d found h4 t fs
      have hserves : ¬ portState t p ≠ 4 := by rw [hstate, h4]; decide
      rw [exec_rescan, execRescan, decide_eq_true hp, run_true, dptCmd_pass hpass hinst hgo, if_neg hserves]

end Sys2Proof.Machine
end

section
/-! A window of a port far beyond the two that the device has (R252): its role is read from a channel's count of writes. -/

namespace Sys2Proof.Machine
open Reg

/-- Channel 0 is frozen, the link of port 29,692 is up, and PG_SEQ of channel 0, where that port's session would stand, is at its end. -/
def distantPortWindow : State :=
  setFld (PG_SEQ_COUNT 0x20) (2 ^ 32 - 1) (setDmc 0 5 { State.reset with
    host := { HostSt.reset with fns := [(fnKey 29692 0, { HFn.reset with cfg := { HFn.reset.cfg with mse := true } })], up := [29692] } })

/-- Refutes O43: the write that loads RELEASE wraps PG_SEQ, and with it the role of port 29,692's window; the clause on RELEASE takes every port. -/
theorem not_dramChannelsTrainAndInitialise : ¬ Obligations.DramChannelsTrainAndInitialise := by
  unfold Obligations.DramChannelsTrainAndInitialise
  rintro ⟨-, -, -, hrelease⟩
  obtain ⟨t, hexec, htrains, -⟩ := hrelease (.pf 29692) 0 distantPortWindow (by decide) (by unfold Passes; decide) (by decide) (by decide) (by decide)
  have hfrozen : valueAfter (dmcState · 0) (exec (.dramRelease (.pf 29692) 0) distantPortWindow) = some 5 := by decide +kernel
  exact absurd (htrains.symm.trans (Option.some.inj ((valueAfter_eq hexec _).symm.trans hfrozen))) (by decide)

end Sys2Proof.Machine
end

section
/-! Settles O44: errors, scrubbing, diagnosis, speed and rows of the DRAM channels (R305, R307 to R310, R312, R314, R317). -/

namespace Sys2Proof.Machine
open Reg

/-! ### The code's verdicts (R308) -/

section
variable {x8 : Bool} {d e lo hi lo2 hi2 : Nat}

theorem eccUnits_x4 (hd : d < 10) (hlo : lo % 256 ≠ 0) : eccUnits false [⟨d, lo, hi⟩] = [(d, lo)] := by
  simp [eccUnits, hd, hlo]

theorem eccUnits_x4_two (hd : d < 10) (he : e < 10) (hlo : lo % 256 ≠ 0) (hlo2 : lo2 % 256 ≠ 0) :
    eccUnits false [⟨d, lo, hi⟩, ⟨e, lo2, hi2⟩] = [(d, lo), (e, lo2)] := by
  simp [eccUnits, hd, he, hlo, hlo2]

theorem eccUnits_x8_half (hd : d < 5) (hlo : lo % 256 ≠ 0) (hhi : hi % 256 = 0) : eccUnits true [⟨d, lo, hi⟩] = [(2 * d, lo)] := by
  have hroom : 2 * d < 10 := by omega
  simp [eccUnits, hroom, hlo, hhi]

theorem eccUnits_x8_both (hd : d < 5) (hlo : lo % 256 ≠ 0) (hhi : hi % 256 ≠ 0) :
    eccUnits true [⟨d, lo, hi⟩] = [(2 * d, lo), (2 * d + 1, hi)] := by
  have hroom : 2 * d < 10 ∧ 2 * d + 1 < 10 := by omega
  simp [eccUnits, hroom.1, hroom.2, hlo, hhi]

theorem eccResult_of_one {errs : List DevErr} (h : eccUnits x8 errs = [(d, lo)]) : eccResult x8 errs = .corrected d lo := by
  simp [eccResult, h]

theorem eccResult_of_two {errs : List DevErr} (h : eccUnits x8 errs = [(d, lo), (e, lo2)]) (hne : d ≠ e) : eccResult x8 errs = .uncorrected d lo := by
  simp [eccResult, h, hne.symm]

end

/-! ### What an access leaves of a channel's registers -/

theorem getFld_access {f : FRef} {c : Nat} (hbank : f.bank = 0) (hpage : f.page = 0x20 + c) (hlo : f.apart (DMC_BYTES_LO_COUNT c) = true)
    (hhi : f.apart (DMC_BYTES_HI_COUNT c) = true) (a : Nat) (s : State) : getFld (access c a s) f = getFld s f := by
  have hadd : ∀ t, getFld (add64 (DMC_BYTES_LO_COUNT c) (DMC_BYTES_HI_COUNT c) 64 t) f = getFld t f := fun t => by
    rw [add64, set64, getFld_setFld_same hbank hpage hhi, getFld_setFld_same hbank hpage hlo]
  unfold access
  dsimp only
  rw [hadd, getFld_updDram]

theorem eccOf_access (c a : Nat) (errs : List DevErr) (s : State) : eccOf (access c a s) c errs = eccOf s c errs := by
  rw [eccOf, eccOf, isSet, isSet, getFld_access rfl rfl rfl rfl]

/-! ### Diagnosis (R314) -/

theorem channelWord_congr {s t : State} (hmover : t.mover = s.mover) (hcache : t.cache = s.cache) (hlink : t.link = s.link)
    (hslots : getFld t CCH_GEOM_CACHE_GIB = getFld s CCH_GEOM_CACHE_GIB) (hpool : getFld t CCH_GEOM_PPOOL_GIB = getFld s CCH_GEOM_PPOOL_GIB)
    (c a : Nat) : channelWord t c a = channelWord s c a := by
  simp only [channelWord, regionByte, regionAt, hmover, hcache, hlink, hslots, hpool]

section
variable {w : Win} {c hi : Nat} {s : State}

/-- The state in which a diagnosis reads: the address is written. -/
def diagAddressed (w : Win) (c hi : Nat) (s : State) : State := writeRwi w (0x20 + c) [(DMC_DIAG_ADDR_HI_ADDR c, hi)] (admitted w (0x20 + c) s)

theorem getFld_diagAddressed {f : FRef} (hinst : mayInstall s w = true) (hhi : f.key ≠ (DMC_DIAG_ADDR_HI_ADDR c).key)
    (hseq : f.key ≠ (PG_SEQ_COUNT (0x20 + c)).key) : getFld (diagAddressed w c hi s) f = getFld s f := by
  rw [diagAddressed, getFld_writeRwi_ne ((mayInstall_admitted ..).trans hinst) hseq (by simpa using hhi), getFld_admitted]

theorem getFld_diagAddressed_own {f : FRef} (hinst : mayInstall s w = true) (hbank : f.bank = 0) (hpage : f.page = 0x20 + c)
    (hhi : f.apart (DMC_DIAG_ADDR_HI_ADDR c) = true) (hseq : f.apart (PG_SEQ_COUNT (0x20 + c)) = true) :
    getFld (diagAddressed w c hi s) f = getFld s f :=
  getFld_diagAddressed hinst (key_ne_of_apart hbank hpage hhi) (key_ne_of_apart hbank hpage hseq)

theorem getFld_diagAddressed_hi (hinst : mayInstall s w = true) (hroom : hi < 2 ^ (DMC_DIAG_ADDR_HI_ADDR c).width) :
    getFld (diagAddressed w c hi s) (DMC_DIAG_ADDR_HI_ADDR c) = hi := by
  rw [diagAddressed, getFld_writeRwi_one ((mayInstall_admitted ..).trans hinst) (by exact key_ne_of_apart rfl rfl rfl), Nat.mod_eq_of_lt hroom]

theorem channelWord_diagAddressed (hc : c < 4) (hinst : mayInstall s w = true) (a : Nat) : channelWord (diagAddressed w c hi s) c a = channelWord s c a := by
  have hframe := writeRwi_frame w (0x20 + c) [(DMC_DIAG_ADDR_HI_ADDR c, hi)] (admitted w (0x20 + c) s)
  have hgeom : ∀ f ∈ [CCH_GEOM_CACHE_GIB, CCH_GEOM_PPOOL_GIB], getFld (diagAddressed w c hi s) f = getFld s f := by
    intro f hf
    simp only [List.mem_cons, List.not_mem_nil, or_false] at hf
    refine getFld_diagAddressed hinst ?_ ?_
    all_goals
      obtain rfl | rfl := hf
      all_goals
        simp only [FRef.key, CCH_GEOM_CACHE_GIB, CCH_GEOM_PPOOL_GIB, DMC_DIAG_ADDR_HI_ADDR, PG_SEQ_COUNT]
        omega
  have hmover : (diagAddressed w c hi s).mover = s.mover := (congrArg State.mover hframe :).trans (admitted_mover ..)
  have hcache : (diagAddressed w c hi s).cache = s.cache := (congrArg State.cache hframe :).trans (admitted_cache ..)
  have hlink : (diagAddressed w c hi s).link = s.link := (congrArg State.link hframe :).trans (admitted_link ..)
  exact channelWord_congr hmover hcache hlink (hgeom _ (by simp)) (hgeom _ (by simp)) c a

end

/-- What a diagnosis shows: the bytes read, and how they check. -/
def diagShown (c data : Nat) (ecc : Ecc) (s : State) : State :=
  setFld (DMC_DIAG_DATA_DATA c) data (setFld (DMC_DIAG_STAT_VALID c) 1 (setFlag (DMC_DIAG_STAT_CE c) (eccCorrected ecc)
    (setFlag (DMC_DIAG_STAT_UE c) (eccUncorrected ecc) s)))

theorem diagShown_shows (c data : Nat) (ecc : Ecc) (s : State) :
    isSet (diagShown c data ecc s) (DMC_DIAG_STAT_VALID c) = true ∧ isSet (diagShown c data ecc s) (DMC_DIAG_STAT_CE c) = eccCorrected ecc ∧
    isSet (diagShown c data ecc s) (DMC_DIAG_STAT_UE c) = eccUncorrected ecc ∧ dmcState (diagShown c data ecc s) c = dmcState s c := by
  refine ⟨?valid, ?ce, ?ue, ?state⟩
  case valid =>
    rw [isSet, diagShown, getFld_setFld_same (by rfl) (by rfl) (by rfl), getFld_setFld_self]
    rfl
  case ce =>
    rw [isSet, diagShown, getFld_setFld_same (by rfl) (by rfl) (by rfl), getFld_setFld_same (by rfl) (by rfl) (by rfl), setFlag, getFld_setFld_self]
    cases eccCorrected ecc <;> rfl
  case ue =>
    rw [isSet, diagShown, getFld_setFld_same (by rfl) (by rfl) (by rfl), getFld_setFld_same (by rfl) (by rfl) (by rfl), setFlag,
      getFld_setFld_same (by rfl) (by rfl) (by rfl), setFlag, getFld_setFld_self]
    cases eccUncorrected ecc <;> rfl
  case state =>
    rw [dmcState, diagShown, getFld_setFld_same (by rfl) (by rfl) (by rfl), getFld_setFld_same (by rfl) (by rfl) (by rfl), setFlag,
      getFld_setFld_same (by rfl) (by rfl) (by rfl), setFlag, getFld_setFld_same (by rfl) (by rfl) (by rfl), dmcState]

theorem exec_diagRead_frozen {w : Win} {c hi data : Nat} {devs : List Nat} {syms : List (Nat × Nat)} {s : State} (hc : c < 4)
    (hpass : Passes w (0x20 + c) s) (hinst : mayInstall s w = true) (hfrozen : dmcState s c = 5) (hroom : hi < 2 ^ (DMC_DIAG_ADDR_HI_ADDR c).width) :
    exec (.diagRead w c hi data devs syms) s = .next (diagShown c
      ((if devErrs devs syms = [] then channelWord s c (4 * getFld s (DMC_DIAG_ADDR_LO_ADDR c) + 2 ^ 32 * hi) else none).getD data)
      (eccOf s c (devErrs devs syms)) (diagAddressed w c hi s)) := by
  have hlo : getFld (diagAddressed w c hi s) (DMC_DIAG_ADDR_LO_ADDR c) = getFld s (DMC_DIAG_ADDR_LO_ADDR c) :=
    getFld_diagAddressed_own hinst rfl rfl rfl rfl
  have hecc : eccOf (diagAddressed w c hi s) c (devErrs devs syms) = eccOf s c (devErrs devs syms) := by
    rw [eccOf, eccOf, isSet, isSet, getFld_diagAddressed_own hinst rfl rfl rfl rfl]
  have hstate : ¬ dmcState (diagAddressed w c hi s) c ≠ 5 := by
    rw [dmcState, getFld_diagAddressed_own hinst rfl rfl rfl rfl]
    exact not_not_intro hfrozen
  have hword := channelWord_diagAddressed (hi := hi) hc hinst (4 * getFld s (DMC_DIAG_ADDR_LO_ADDR c) + 2 ^ 32 * hi)
  have hloaded : writeRwi w (0x20 + c) [(DMC_DIAG_ADDR_HI_ADDR c, hi)] (admitted w (0x20 + c) s) = diagAddressed w c hi s := rfl
  rw [exec_diagRead, execDiagRead, decide_eq_true hc, run_true, guardWrite_pass hpass]
  simp only [hloaded, mayInstall_admitted, hinst, Bool.not_true, Bool.false_and, Bool.false_eq_true, if_false, if_neg hstate, hlo, hecc,
    getFld_diagAddressed_hi hinst hroom, hword]
  rfl

/-! ### Speed (R307) -/

theorem runSpeed_le (s : State) : runSpeed s ≤ 2 := by
  unfold runSpeed
  generalize s.dram.dimms.filter (fun q => decide (getFld s (DMC_STAT_WHY q.1) = 0)) = l
  have hfold : ∀ a ≤ 2, l.foldl (fun a q => min a (min q.2.speed (getFld s (DMC_SPEED_RUN q.1)))) a ≤ 2 := by
    induction l with
    | nil => exact fun a ha => ha
    | cons q l ih => exact fun a ha => ih _ ((Nat.min_le_left ..).trans ha)
  exact hfold 2 (Nat.le_refl 2)

theorem showSpeed_shows (c : Nat) (s : State) :
    isSet (showSpeed c s) (DMC_SPEED_SET c) = decide (getFld s PWR_STAT_STATE = 2) ∧
    getFld (showSpeed c s) (DMC_SPEED_CUR c) = if getFld s PWR_STAT_STATE = 2 then 3 else runSpeed s := by
  constructor
  · rw [isSet, showSpeed, setFlag, getFld_setFld_self]
    cases decide (getFld s PWR_STAT_STATE = 2) <;> rfl
  · have hrun := runSpeed_le s
    rw [showSpeed, setFlag, getFld_setFld_same (by rfl) (by rfl) (by rfl), getFld_setFld_self]
    simp only [decide_eq_true_eq]
    split
    · rfl
    · exact Nat.mod_eq_of_lt (Nat.lt_of_le_of_lt hrun (show 2 < 2 ^ 2 by decide))

theorem freqChange_none {s : State} (h : channels.all (fun c => decide (dmcState s c ≠ 4)) = true) :
    channels.foldl (fun t c => if dmcState t c ≠ 4 then t
      else dmcEvt c DMC_EVT_FREQ_DONE (setDmc c (if c ∈ t.dram.back then 2 else 3) (showSpeed c t))) s = s := by
  rw [List.all_eq_true] at h
  revert h
  generalize channels = cs
  intro h
  induction cs with
  | nil => rfl
  | cons c cs ih =>
    rw [List.foldl_cons, if_pos (of_decide_eq_true (h c List.mem_cons_self))]
    exact ih (fun d hd => h d (List.mem_cons_of_mem _ hd))

/-- Settles O44: the code's verdicts, and each command in the branch that its hypotheses name. -/
theorem dramErrorsAndRowsAreHandled : Obligations.DramErrorsAndRowsAreHandled := by
  unfold Obligations.DramErrorsAndRowsAreHandled
  refine ⟨?code, ?burst, ?scrub, ?diag, ?noChange, ?change, fun c s _ => showSpeed_shows c s, ?refresh, ?row⟩
  case code =>
    intro x8 d e lo hi lo2 hi2 hd he hne hlo hlo2
    exact ⟨rfl, eccResult_of_one (eccUnits_x4 hd hlo), eccResult_of_two (eccUnits_x4_two hd he hlo hlo2) hne,
      fun hd5 hhi => eccResult_of_one (eccUnits_x8_half hd5 hlo hhi),
      fun hd5 hhi => eccResult_of_two (eccUnits_x8_both hd5 hlo hhi) (Nat.succ_ne_self _).symm⟩
  case burst =>
    intro c u m req devs lo hi s hc hserves _
    have hecc := eccOf_access c req.addr (devErrs devs (lo.zip hi)) s
    constructor
    · intro hcorrected
      rw [exec_dramCorrectedBurst, execDramCorrectedBurst, decide_eq_true hc, run_true, onlyIf, if_pos hserves]
      simp only [burstRead, hecc, hcorrected]
    · intro huncorrected
      rw [exec_dramUncorrectedBurst, execDramUncorrectedBurst, decide_eq_true hc, run_true, onlyIf, if_pos hserves]
      simp only [burstRead, hecc, huncorrected]
  case scrub =>
    intro c s hc hactive hdone hbackup hroom
    have hgoes : ¬ (dmcState s c ≠ 3 ∨ (!isSet s (DMC_INIT_WM_DONE c)) = true ∨ getFld s PWR_STAT_STATE = 4) := by
      rw [hactive, hdone]
      simp [hbackup]
    have hclean : ∀ q wb t, burstRead c q wb [] t = t := fun q wb t => by
      have hnone : eccOf t c [] = .clean := by cases hx : isSet t (DMC_DIMM_X8 c) <;> rw [eccOf, hx] <;> rfl
      rw [burstRead, hnone]
    rw [exec_scrubRead, execScrubRead, decide_eq_true hc, run_true]
    simp only [scrubRead, if_neg hgoes, if_neg (Nat.not_le.mpr hroom), hclean, Nat.add_eq_zero_iff, OfNat.ofNat_ne_zero, and_false, if_false]
  case diag =>
    intro w c hi data devs syms s hc hpass hinst hfrozen hdata hroom _
    refine ⟨_, exec_diagRead_frozen hc hpass hinst hfrozen hroom, ?wrong, ?sound, ?shown⟩
    case wrong =>
      intro herrs
      rw [if_neg herrs, diagShown, getFld_setFld_self]
      exact Nat.mod_eq_of_lt hdata
    case sound =>
      intro hnone
      rw [if_pos hnone, diagShown, getFld_setFld_self]
    case shown =>
      obtain ⟨hvalid, hce, hue, hstate⟩ := diagShown_shows c
        ((if devErrs devs syms = [] then channelWord s c (4 * getFld s (DMC_DIAG_ADDR_LO_ADDR c) + 2 ^ 32 * hi) else none).getD data)
        (eccOf s c (devErrs devs syms)) (diagAddressed w c hi s)
      exact ⟨hvalid, hce, hue, hstate.trans ((getFld_diagAddressed_own hinst rfl rfl rfl rfl).trans hfrozen)⟩
  case noChange =>
    intro s hnone
    rw [exec_freqChangeDone, execFreqChangeDone, run_true, freqChange_none hnone]
  case change =>
    intro s
    rw [exec_freqChangeDone, execFreqChangeDone, run_true]
  case refresh =>
    intro c s hc hactive
    have hserves : ¬ dmcState s c ∉ [2, 3, 5] := by rw [hactive]; decide
    refine ⟨?issued, ?postponed, ?urgent⟩
    case issued =>
      have hdue : ¬ (false = true ∧ smGetD s.dram.post c 0 < 4 ∧ dmcState s c ≠ 5) := fun h => Bool.false_ne_true h.1
      rw [exec_dramRefresh, execDramRefresh, decide_eq_true hc, run_true, if_neg hserves, if_neg hdue]
    case postponed =>
      intro hfew
      have hwaits : true = true ∧ smGetD s.dram.post c 0 < 4 ∧ dmcState s c ≠ 5 := ⟨rfl, hfew, by rw [hactive]; decide⟩
      rw [exec_dramRefresh, execDramRefresh, decide_eq_true hc, run_true, if_neg hserves, if_pos hwaits]
    case urgent =>
      intro port hport
      rw [exec_requestUrgent, execRequestUrgent, decide_eq_true ⟨hc, hport⟩, run_true, if_pos (.inr hactive)]
  case row =>
    intro c sub rank group bank b s hc hsub hrank hgroup hbank hopen
    rw [exec_rowIdleClose, execRowIdleClose, decide_eq_true ⟨hc, hsub, hrank, hgroup, hbank⟩, run_true]
    simp only [hopen]

end Sys2Proof.Machine
end

section
/-! Settles O45: training, flits, forwarding and pings of the Tashaop links (R320 to R325, R329 to R331, R341, R342, R344). -/

namespace Sys2Proof.Machine
open Reg

/-! ### What a flit sent leaves of the link's status -/

/-- The registers of a link that show what it trained to. -/
def trainedFlds (x : Nat) : List FRef := [TLK_STAT_SPEED x, TLK_STAT_WIDTH x, TLK_STAT_NEIGH_NODE x]

theorem getFld_sendFlit_trained {x : Nat} {f : FRef} (hf : f ∈ trainedFlds x) (seq kind : Nat) (crd : Nat × Nat) (payload : List Byte) (s : State) :
    getFld (sendFlit x seq kind crd payload s) f = getFld s f := by
  simp only [trainedFlds, List.mem_cons, List.not_mem_nil, or_false] at hf
  have hwake : ∀ t : State, f.key ≠ (PG_STAT_ASLEEP (0xC8 + x)).key →
      getFld (if isSet t (PG_STAT_ASLEEP (0xC8 + x)) then setFld (PG_STAT_ASLEEP (0xC8 + x)) 0 t else t) f = getFld t f := fun t hne => by
    split
    · exact getFld_setFld_ne hne 0 t
    · rfl
  have hpage : f.pageKey ≠ 1 := by
    obtain rfl | rfl | rfl := hf
    all_goals simp only [FRef.pageKey, FRef.key, TLK_STAT_SPEED, TLK_STAT_WIDTH, TLK_STAT_NEIGH_NODE]; omega
  unfold sendFlit
  dsimp only
  rw [getFld_emit hpage, add64, set64]
  obtain rfl | rfl | rfl := hf
  all_goals
    rw [getFld_setFld_same (by rfl) (by rfl) (by rfl), getFld_setFld_same (by rfl) (by rfl) (by rfl), updTlk, getFld_updLink,
      hwake s (key_ne_of_apart rfl rfl rfl)]

theorem getFld_sendCtrl_trained {x : Nat} {f : FRef} (hf : f ∈ trainedFlds x) (payload : List Byte) (s : State) :
    getFld (sendCtrl x payload s) f = getFld s f := by
  unfold sendCtrl sendSeq
  dsimp only
  rw [getFld_sendFlit_trained hf, updTlk, getFld_updLink]

theorem getFld_freshLink_trained {x : Nat} {f : FRef} (hf : f ∈ trainedFlds x) (node : Nat) (s : State) : getFld (freshLink x node s) f = getFld s f := by
  have hcrd : ∀ c, f.key ≠ (TLK_CRD_TX x c).key ∧ f.key ≠ (TLK_CRD_ADV x c).key := fun c => by
    simp only [trainedFlds, List.mem_cons, List.not_mem_nil, or_false] at hf
    obtain rfl | rfl | rfl := hf
    all_goals
      simp only [FRef.key, TLK_STAT_SPEED, TLK_STAT_WIDTH, TLK_STAT_NEIGH_NODE, TLK_CRD_TX, TLK_CRD_ADV]
      omega
  unfold freshLink
  generalize [0, 1, 2, 3, 4, 5] = cs
  have hfold : ∀ t, getFld (cs.foldl (fun t c => setFld (TLK_CRD_TX x c) (classCredits c) (setFld (TLK_CRD_ADV x c) (classCredits c) t)) t) f = getFld t f := by
    induction cs with
    | nil => exact fun _ => rfl
    | cons c cs ih => exact fun t => by rw [List.foldl_cons, ih, getFld_setFld_ne (hcrd c).1, getFld_setFld_ne (hcrd c).2]
  rw [hfold, updTlk, getFld_updLink]

/-! ### Training (R320, R321, R329) -/

section
variable {x node link : Nat} {rev : Bool} {s : State}

/-- What the link shows once it has trained to 32 GT/s and four lanes. -/
def trainedFull (x : Nat) (rev : Bool) (node link : Nat) (s : State) : State :=
  setFld (TLK_STAT_SPEED x) 2 (setFld (TLK_STAT_WIDTH x) 4 (setFlag (TLK_STAT_REVERSED x) rev
    (setFld (TLK_STAT_NEIGH_NODE x) node (setFld (TLK_STAT_NEIGH_LINK x) link s))))

/-- A link that was out of service trains at full speed and width. -/
theorem trained_of_full (hstate : tlkState s x ≤ 1) (hon : enabled s (0xC8 + x) = true) (hfence : fenced s (0xC8 + x) = false)
    (hlive : (0xC8 + x) ∉ s.pwr.dead) (hmax : isSet s (TLK_CFG_MAX_32 x) = true) :
    trained x 2 4 rev node link s =
      if node = nodeId s then tlkEvt x TLK_EVT_ID_CONFLICT (setFld (PG_STAT_STATE (0xC8 + x)) 3
        (sendCtrl x (leBytes (nodeId s) 2 ++ leBytes x 1) (freshLink x node (trainedFull x rev node link s))))
      else pump x (sendCtrlSoon x (leBytes (nodeId s) 2 ++ leBytes x 1)
        (tlkEvt x TLK_EVT_UP (setFld (PG_STAT_STATE (0xC8 + x)) 2 (learn x node (freshLink x node (trainedFull x rev node link s)))))) := by
  have hgoes : ¬ (tlkState s x = 2 ∨ tlkState s x = 3 ∨ (!enabled s (0xC8 + x)) = true ∨ fenced s (0xC8 + x) = true ∨ (0xC8 + x) ∈ s.pwr.dead) := by
    rw [hon, hfence]
    simp only [Bool.not_true, Bool.false_eq_true, hlive, or_false]
    omega
  have hfirst : decide (tlkState s x = 4) = false := decide_eq_false (by omega)
  simp only [trained, if_neg hgoes, hmax, if_true, hfirst, Bool.false_and, onlyIf, Bool.false_eq_true, if_false, Nat.lt_irrefl, decide_false, Bool.or_self,
    false_and]
  rfl

theorem trainedFull_shows (x : Nat) {node : Nat} (hnode : node < 512) (link : Nat) (rev : Bool) (s : State) :
    getFld (trainedFull x rev node link s) (TLK_STAT_SPEED x) = 2 ∧ getFld (trainedFull x rev node link s) (TLK_STAT_WIDTH x) = 4 ∧
    getFld (trainedFull x rev node link s) (TLK_STAT_NEIGH_NODE x) = node := by
  refine ⟨?speed, ?width, ?node⟩
  case speed => rw [trainedFull, getFld_setFld_self]; rfl
  case width => rw [trainedFull, getFld_setFld_same (by rfl) (by rfl) (by rfl), getFld_setFld_self]; rfl
  case node =>
    rw [trainedFull, getFld_setFld_same (by rfl) (by rfl) (by rfl), getFld_setFld_same (by rfl) (by rfl) (by rfl), setFlag,
      getFld_setFld_same (by rfl) (by rfl) (by rfl), getFld_setFld_self]
    exact Nat.mod_eq_of_lt hnode

end

/-- A link that trains to this node itself shows what it trained to, and stays out of service. -/
theorem tlkTrainingDone_self {x node link : Nat} {rev : Bool} {s : State} (hx : x < 8) (hnode : node < 512) (hlink : link < 8)
    (hstate : tlkState s x ≤ 1) (hon : enabled s (0xC8 + x) = true) (hfence : fenced s (0xC8 + x) = false)
    (hlive : (0xC8 + x) ∉ s.pwr.dead) (hmax : isSet s (TLK_CFG_MAX_32 x) = true) (hself : node = nodeId s) :
    ∃ t, exec (.tlkTrainingDone x 2 4 rev node link) s = .next t ∧ tlkState t x = 3 ∧ getFld t (TLK_STAT_SPEED x) = 2 ∧
      getFld t (TLK_STAT_WIDTH x) = 4 ∧ getFld t (TLK_STAT_NEIGH_NODE x) = node := by
  have hrun : decide (x < 8 ∧ node < 512 ∧ link < 8 ∧ 2 ∈ [1, 2] ∧ 4 ∈ [1, 2, 4]) = true := decide_eq_true ⟨hx, hnode, hlink, by decide, by decide⟩
  refine ⟨_, by rw [exec_tlkTrainingDone, execTlkTrainingDone, hrun, run_true, trained_of_full hstate hon hfence hlive hmax, if_pos hself], ?_⟩
  obtain ⟨hspeed, hwidth, hneigh⟩ := trainedFull_shows x hnode link rev s
  generalize hu : sendCtrl x (leBytes (nodeId s) 2 ++ leBytes x 1) (freshLink x node (trainedFull x rev node link s)) = u
  have hkept : ∀ f ∈ trainedFlds x, getFld u f = getFld (trainedFull x rev node link s) f := fun f hf => by
    rw [← hu, getFld_sendCtrl_trained hf, getFld_freshLink_trained hf]
  refine ⟨?state, ?_, ?_, ?_⟩
  case state =>
    rw [tlkState, tlkEvt, getFld_setEvt_same (by rfl) (by rfl) (by rfl), getFld_setFld_self]
    rfl
  · rw [tlkEvt, getFld_setEvt_same (by rfl) (by rfl) (by rfl), getFld_setFld_same (by rfl) (by rfl) (by rfl), hkept _ (by simp [trainedFlds]), hspeed]
  · rw [tlkEvt, getFld_setEvt_same (by rfl) (by rfl) (by rfl), getFld_setFld_same (by rfl) (by rfl) (by rfl), hkept _ (by simp [trainedFlds]), hwidth]
  · rw [tlkEvt, getFld_setEvt_same (by rfl) (by rfl) (by rfl), getFld_setFld_same (by rfl) (by rfl) (by rfl), hkept _ (by simp [trainedFlds]), hneigh]

/-! ### Flits (R322 to R325) -/

theorem flitReceived_of_bad {x : Nat} {b : List Byte} {s : State} (hup : tlkState s x = 2)
    (hbad : b.length ≠ 32 ∨ leAt b 28 4 ≠ crc32 (slice b 0 28)) : flitReceived x b s = sendNak x (incFld (TLK_CRC_COUNT x) 1 s) := by
  have hcheck : (decide (b.length ≠ 32) || decide (leAt b 28 4 ≠ crc32 (slice b 0 28))) = true := by
    rw [Bool.or_eq_true, decide_eq_true_eq, decide_eq_true_eq]
    exact hbad
  simp only [flitReceived, if_neg (not_not_intro hup), hcheck, Bool.true_or, if_true]

theorem flitReceived_of_good {x : Nat} {b : List Byte} {s : State} (hup : tlkState s x = 2) (hlen : b.length = 32)
    (hcrc : leAt b 28 4 = crc32 (slice b 0 28)) (hlo : 2 ≤ bitsOf (leAt b 0 4) 10 3) (hhi : bitsOf (leAt b 0 4) 10 3 < 5)
    (hack : (leAt b 0 4).testBit 24 = false) (hturn : leAt b 0 4 % 1024 = (tlkOf s x).expect) :
    flitReceived x b s =
      let t := returnCredits 128 x (pump x (acceptFlit x (bitsOf (leAt b 0 4) 10 3) b s))
      if 32 ≤ (tlkOf t x).due then sendIdle x t else t := by
  simp only [flitReceived, if_neg (not_not_intro hup), hlen, hcrc, ne_eq, not_true, decide_false, Bool.or_self, Bool.false_or,
    decide_eq_true_eq, if_neg (Nat.not_le.mpr hhi), if_neg (Nat.not_lt.mpr hlo), hturn, if_false, hack, Bool.false_eq_true]

/-- Settles O45: each command takes the branch that its hypotheses name. -/
theorem tashaopLinksCarryFlits : Obligations.TashaopLinksCarryFlits := by
  unfold Obligations.TashaopLinksCarryFlits
  refine ⟨?self, ?other, ?retrain, ?flit, ?nak, ?replay, fun x fs s _ => rfl, ?ack, ?forward, ?latency, ?ping, ?rest⟩
  case self =>
    intro x speed width rev node link s hx hnode hlink hspeed hwidth hstate hon hfence hlive hmax hself
    subst hspeed hwidth
    exact tlkTrainingDone_self hx hnode hlink hstate hon hfence hlive hmax hself
  case other =>
    intro x node link rev s hx hnode hlink hstate hon hfence hlive hmax hother t
    have hrun : decide (x < 8 ∧ node < 512 ∧ link < 8 ∧ 2 ∈ [1, 2] ∧ 4 ∈ [1, 2, 4]) = true := decide_eq_true ⟨hx, hnode, hlink, by decide, by decide⟩
    rw [exec_tlkTrainingDone, execTlkTrainingDone, hrun, run_true, trained_of_full hstate hon hfence hlive hmax, if_neg hother]
    rfl
  case retrain =>
    intro x s hx hstate
    rw [exec_retrainTimeout, execRetrainTimeout, decide_eq_true hx, run_true, if_pos hstate]
  case flit =>
    intro x b s hx hup
    rw [exec_flitReceived, execFlitReceived, decide_eq_true hx, run_true]
    exact ⟨fun hbad => congrArg _ (flitReceived_of_bad hup hbad),
      fun hlen hcrc hlo hhi hack hturn => congrArg _ (flitReceived_of_good hup hlen hcrc hlo hhi hack hturn)⟩
  case nak =>
    intro x seq s hx hseq hup hkept
    rw [exec_nakReceived, execNakReceived, decide_eq_true ⟨hx, hseq⟩, run_true, if_pos ⟨hup, hkept⟩]
  case replay =>
    intro x s hx hup hkept
    have hgoes : ¬ (tlkState s x ≠ 2 ∨ (tlkOf s x).retry = []) := by simp [hup, hkept]
    rw [exec_replayTimer, execReplayTimer, decide_eq_true hx, run_true, if_neg hgoes]
  case ack =>
    intro x s hx hup hdue
    rw [exec_ackTimer, execAckTimer, decide_eq_true hx, run_true, if_pos ⟨hup, hdue⟩]
  case forward =>
    intro x m s hx hdst hsrc hother hup
    have hpasses : ¬ (m.dst = nodeId s ∨ tlkState s x ≠ 2) := by simp [hother, hup]
    rw [exec_messageForward, execMessageForward, decide_eq_true ⟨hx, hdst, hsrc⟩, run_true, forward, if_neg hpasses]
    refine ⟨fun hnone => ?_, fun hhops hroute hforeign => ?_⟩
    · rw [if_pos (.inl hnone)]
      rfl
    · have hgoes : ¬ (m.hops = 0 ∨ (!isSet s (TRT_ENTRY_VALID m.dst)) = true ∨ m.src = nodeId s) := by simp [hhops, hroute, hforeign]
      rw [if_neg hgoes]
      rfl
  case latency =>
    intro x nb s hx hup hnb
    rw [exec_latencyPingTimer, execLatencyPingTimer, decide_eq_true hx, run_true]
    simp only [hnb, if_neg (not_not_intro hup)]
  case ping =>
    intro x m s hx hsrc hup hhere
    have hmine : ¬ (tlkState s x ≠ 2 ∨ m.dst ≠ nodeId s) := by simp [hup, hhere]
    constructor
    · rw [exec_ping, execPing, decide_eq_true ⟨hx, hsrc⟩, run_true, if_neg hmine]
    · rw [exec_pong, execPong, decide_eq_true ⟨hx, hsrc⟩, run_true, if_neg hmine]
  case rest =>
    intro x s hx hup hnight hclk hqueue hcur hresend hretry hpartner
    have hgoes : tlkState s x = 2 ∧ getFld s PWR_STAT_STATE = 2 ∧ (!isSet s (PG_CTL_CLK_REQ (0xC8 + x))) = true ∧ (tlkOf s x).queue = [] ∧
        (tlkOf s x).cur = [] ∧ (tlkOf s x).resend = [] ∧ (tlkOf s x).retry = [] ∧ (!partnerLink s x) = true :=
      ⟨hup, hnight, by rw [hclk]; rfl, hqueue, hcur, hresend, hretry, by rw [hpartner]; rfl⟩
    rw [exec_tlkL1Entry, execTlkL1Entry, decide_eq_true hx, run_true]
    exact congrArg Host.Outcome.next (if_pos hgoes)

end Sys2Proof.Machine
end

section
/-! Settles O46: leases, takeovers and the federation's time (R336 to R341). -/

namespace Sys2Proof.Machine
open Reg

/-! ### A message that arrived -/

theorem arrived_here {m : Msg} {s : State} (hdst : m.dst = nodeId s) (hmute : mute s = false) (f : State → State) : arrived m f s = f s := by
  rw [arrived, hmute, if_pos ⟨hdst, rfl⟩]

/-! ### The lease, at the owner (R336, R338) -/

section
variable {s : State}

theorem leaseRenewTimer_renews (hmute : mute s = false) :
    let t := updLink (fun l => { l with renews := (l.renews + 1) % 2 ^ 32 }) s
    exec .leaseRenewTimer s = .next ((standbys s).foldl (fun u n =>
      sendMsg n .renew 0 (maskOf (((platesWith s n).filter (fun q => q.2.attached)).map Prod.fst)) t.link.renews [] u) t) := by
  intro t
  rw [exec_leaseRenewTimer, execLeaseRenewTimer, run_true, hmute, if_neg Bool.false_ne_true]

/-- Plates that are all attached are offered again by no renewal. -/
theorem foldl_offer_attached (ps : List (Nat × Plate)) (hps : ∀ q ∈ ps, q.2.attached = true) (t : State) :
    ps.foldl (fun u q => if q.2.attached ∨ (smGet u.link.offers q.1).isSome ∨ !q.2.served then u else offer q.1 q.2 false u) t = t := by
  induction ps with
  | nil => rfl
  | cons q ps ih => rw [List.foldl_cons, if_pos (.inl (hps q List.mem_cons_self)), ih fun r hr => hps r (List.mem_cons_of_mem _ hr)]

theorem renewAck_keeps {m : Msg} (hsrc : m.src < 512) (hdst : m.dst = nodeId s) (hmute : mute s = false) (hstandby : m.src ∈ standbys s)
    (hack : m.src ∈ s.link.acked) (hatt : ∀ q ∈ platesWith s m.src, q.2.attached = true) :
    exec (.renewAck m) s = .next (updLink (fun l => { l with seen := smSet l.seen m.src (devTime s), acked := l.acked }) s) := by
  have hlink : (if m.src ∈ s.link.acked then s.link.acked else s.link.acked ++ [m.src]) = s.link.acked := if_pos hack
  rw [exec_renewAck, execRenewAck, decide_eq_true hsrc, run_true, arrived_here hdst hmute, if_neg (not_not_intro hstandby)]
  refine congrArg Host.Outcome.next ((foldl_offer_attached _ (fun q hq => hatt q hq) _).trans ?_)
  simp only [updLink, hlink]

theorem leaseDrop_reports {node : Nat} (hn : node < 512) (hstandby : node ∈ standbys s) (hfence : devFenced s = false) (hoff : s.link.offers = []) :
    let t := updLink (fun l => { l with acked := l.acked.filter (· ≠ node) }) s
    exec (.leaseDrop node) s = .next (((platesWith t node).filter (fun q => q.2.attached)).foldl (fun u q =>
      (dualMembers u q.2).foldl (fun v m => resvSend q.1 m 3 (resvKey q.2.resvGen (nodeId v)) 0 v) u) t) := by
  intro t
  have hnone : t.link.offers = [] := hoff
  rw [exec_leaseDrop, execLeaseDrop, decide_eq_true hn, run_true, if_neg (by simp [hstandby, hfence])]
  simp only [show (updLink (fun l => { l with acked := l.acked.filter (· ≠ node) }) s).link.offers = [] from hnone, List.filter_nil, List.foldl_nil]
  rfl

theorem reservationReportComplete_detaches {p : Nat} {x : Plate} (hp : p < 64) (hx : plateOf s p = some x) (hatt : x.attached = true)
    (hack : x.standby ∉ s.link.acked) :
    exec (.reservationReportComplete p true) s = .next (trtEvt TRT_EVT_STANDBY_LOST (incFld TRT_DROPS_COUNT 1 (detach p s))) := by
  have hlost : standbyLost p true s = trtEvt TRT_EVT_STANDBY_LOST (incFld TRT_DROPS_COUNT 1 (detach p s)) := by
    rw [standbyLost, hx, Option.map_some, Option.getD_some, if_pos hatt, onlyIf, if_pos rfl]
  rw [exec_reservationReportComplete, execReservationReportComplete, decide_eq_true hp, run_true, hx]
  simp only [hatt, hack, Bool.not_true, Bool.false_eq_true, or_self, if_false, if_true, hlost]

end

/-! ### The lease, at the standby (R336, R337, R339) -/

section
variable {s : State}

theorem renew_answers {m : Msg} (hsrc : m.src < 512) (hdst : m.dst = nodeId s) (hmute : mute s = false) :
    exec (.renew m) s = .next (sendMsg m.src .renewAck m.tag m.arg m.arg2 [] ((heldOf s m.src).foldl
      (fun u q => if q.2.index ∉ ofMask m.arg then dropHeld q.1 u else u)
      (updLink (fun l => { l with leased := smSet l.leased m.src m.arg, seen := smSet l.seen m.src (devTime s) }) s))) := by
  rw [exec_renew, execRenew, decide_eq_true hsrc, run_true, arrived_here hdst hmute]

theorem leaseExpired_starts {owner mask : Nat} (hown : owner < 512) (hleased : smGet s.link.leased owner = some mask) (hmute : mute s = false) :
    let t := trtEvt TRT_EVT_LEASE_EXPIRED (updLink (fun l => { l with leased := smDel l.leased owner }) s)
    exec (.leaseExpired owner) s = .next (((heldOf t owner).filter (fun q => decide (q.2.index ∈ ofMask mask))).foldl (fun u q => takeStart q.1 u) t) := by
  intro t
  rw [exec_leaseExpired, execLeaseExpired, decide_eq_true hown, run_true, hleased, hmute]
  rfl

theorem fenceNotice_acts {m : Msg} (hsrc : m.src < 512) (hdst : m.dst = nodeId s) (hmute : mute s = false) :
    let t := trtEvt TRT_EVT_FENCE_RCVD s
    let u := ((heldOf t m.src).filter (fun q => decide (q.2.index ∈ ofMask (leAt m.body 0 8)))).foldl (fun u q => takeStart q.1 u) t
    exec (.fenceNotice m) s = .next (((platesWith u m.src).filter (fun q => decide (q.1 ∈ ofMask (leAt m.body 8 8)))).foldl
      (fun u q => standbyLost q.1 false u) u) := by
  intro t u
  rw [exec_fenceNotice, execFenceNotice, decide_eq_true hsrc, run_true, arrived_here hdst hmute]

end

/-! ### Takeover (R340) -/

section
variable {id : Nat} {h : HeldPlate} {s : State}

theorem preemptComplete_takes {md : PlateMedia} (hheld : smGet s.link.held id = some h) (htak : h.taking = 1) (hmd : md.plateId = id)
    (hmute : mute s = false) (hix : h.index < 64) (hfree : plateOf s h.index = none) :
    let r := takenPlate s h md
    let on := r.1.membersIn [.online]
    let t := mediaRecords h.index on md (dropTagCache h.index (fun _ => true) (setFld (PG_STAT_READY (0x40 + h.index)) 1
      (updStore (fun u => { u with plates := smSet u.plates h.index r.1 })
        (updHeld id (fun y => { y with taking := 2, here := h.index })
          (updCache (fun t => { t with jrec := smSet t.jrec h.index (mediaJournal id (readMems on md)) }) s)))))
    assemblyFails r.2 = [] →
    exec (.preemptComplete id md) s = .next (resumeCycle h.index (cycleSync h.index (startLabel h.index (claimAs h.index (r.1.labelGen + 1)
      ((dualMembers t r.1).foldl (fun u m => setFld (DPT_RESV_ROLE m.2.port) 1 u) t))))) := by
  intro r on t hfails
  have hmem : h.index ∈ (List.range 64).filter (fun i => (plateOf s i).isNone) :=
    List.mem_filter.mpr ⟨List.mem_range.mpr hix, by rw [hfree, Option.isNone_none]⟩
  have hno : ¬ (h.taking ≠ 1 ∨ md.plateId ≠ id ∨ mute s = true) := by simp [htak, hmd, hmute]
  rw [exec_preemptComplete, execPreemptComplete, run_true, hheld]
  dsimp only
  rw [if_pos hmem]
  dsimp only
  rw [if_neg hno, if_pos hfails]

theorem preemptTimeout_fails (hheld : smGet s.link.held id = some h) (htak : h.taking = 1) :
    exec (.preemptTimeout id) s =
      .next (trtEvt TRT_EVT_TAKEOVER_FAIL (releaseResv 64 h.plate (updHeld id (fun y => { y with taking := 4 }) s))) := by
  rw [exec_preemptTimeout, execPreemptTimeout, run_true, hheld]
  exact congrArg Host.Outcome.next (if_neg (not_not_intro htak))

theorem takeoverDone_ends (hheld : smGet s.link.held id = some h) (htak : h.taking = 3) (hquiet : plateQuiet s h.here = true) :
    exec (.takeoverDone id) s = .next (resumePass h.here (joinPair h.here (refreshPlate h.here (trtEvt TRT_EVT_TAKEOVER_DONE
      (incFld TRT_TAKEOVERS_COUNT 1 (updPlate h.here (fun x => { x with gone := false }) (dropHeld id s))))))) := by
  rw [exec_takeoverDone, execTakeoverDone, run_true, hheld]
  exact congrArg Host.Outcome.next (if_neg (by simp [htak, hquiet]))

end

/-! ### The federation's time (R341) -/

section
variable {s : State}

theorem timeSyncTimer_sends {followers : List Nat} (hall : followers.all (fun n => decide (n < 512)) = true)
    (hmaster : getFld s TRT_TIME_MASTER = nodeId s) (hmute : mute s = false) :
    exec (.timeSyncTimer followers) s = .next (followers.foldl (fun t n => sendMsg n .sync 0 (toU64 (mtrTime t)) 0 [] t) s) := by
  rw [exec_timeSyncTimer, execTimeSyncTimer, hall, run_true, if_neg (by simp [hmaster, hmute])]

theorem sync_follows {m : Msg} (hsrc : m.src < 512) (hdst : m.dst = nodeId s) (hmute : mute s = false) (htsrc : isSet s MTR_CFG_TSRC = true)
    (hmaster : m.src = getFld s TRT_TIME_MASTER) (hother : m.src ≠ nodeId s) :
    let e := signed64 m.arg + (m.arg2 : Int) - mtrTime s
    let t := setFld TRT_TERR_NS (sat32 e) s
    exec (.sync m) s = .next (if e ≤ 1000000000 ∧ -1000000000 ≤ e then mtrSlew e t else mtrStep e t) := by
  intro e t
  have hno : ¬ ((!isSet s MTR_CFG_TSRC) = true ∨ m.src ≠ getFld s TRT_TIME_MASTER ∨ m.src = nodeId s) := by
    simp [htsrc, ← hmaster, hother]
  rw [exec_sync, execSync, decide_eq_true hsrc, run_true, arrived_here hdst hmute, if_neg hno]

end

/-- Settles O46: each clause is the branch its hypotheses select. A renewal's answer offers no plate again where all are attached, and a lease that drops
without offers ends none. -/
theorem leasesAndTakeovers : Obligations.LeasesAndTakeovers := by
  unfold Obligations.LeasesAndTakeovers
  refine ⟨?renewTimer, ?renew, ?renewAck, ?expired, ?drop, ?report, ?preempt, ?timeout, ?done, ?fence, ?timeSync, ?sync⟩
  case renewTimer => exact fun s hmute => leaseRenewTimer_renews hmute
  case renew => exact fun m s hsrc hdst hmute => renew_answers hsrc hdst hmute
  case renewAck => exact fun m s hsrc hdst hmute hstandby hack hatt => renewAck_keeps hsrc hdst hmute hstandby hack hatt
  case expired => exact fun owner mask s hown hleased hmute => leaseExpired_starts hown hleased hmute
  case drop => exact fun node s hn hstandby hfence hoff => leaseDrop_reports hn hstandby hfence hoff
  case report => exact fun p x s hp hx hatt hack => reservationReportComplete_detaches hp hx hatt hack
  case preempt => exact fun id md h s hheld htak hmd hmute hix hfree => preemptComplete_takes hheld htak hmd hmute hix hfree
  case timeout => exact fun id h s hheld htak => preemptTimeout_fails hheld htak
  case done => exact fun id h s hheld htak hquiet => takeoverDone_ends hheld htak hquiet
  case fence => exact fun m s hsrc hdst hmute => fenceNotice_acts hsrc hdst hmute
  case timeSync => exact fun followers s hall hmaster hmute => timeSyncTimer_sends hall hmaster hmute
  case sync => exact fun m s hsrc hdst hmute htsrc hmaster hother => sync_follows hsrc hdst hmute htsrc hmaster hother

end Sys2Proof.Machine
end

section
/-! Settles O47: attachments of standbys (R332, R343, R345). -/

namespace Sys2Proof.Machine
open Reg

/-! ### TRT_CMD -/

section
variable {w : Win} {s : State}

/-- The parameters of a loaded command hold what was written. -/
theorem getFld_loaded_two {p op v v' : Nat} {opF go doneF f f' : FRef} (hinst : mayInstall s w = true)
    (hgo : f.key ≠ go.key) (hdone : f.key ≠ doneF.key) (hseq : f.key ≠ (Reg.PG_SEQ_COUNT p).key)
    (hgo' : f'.key ≠ go.key) (hdone' : f'.key ≠ doneF.key) (hseq' : f'.key ≠ (Reg.PG_SEQ_COUNT p).key) (hne : f.key ≠ f'.key) :
    getFld (loaded w p opF op [(f, v), (f', v')] go doneF s) f = v % 2 ^ f.width ∧
    getFld (loaded w p opF op [(f, v), (f', v')] go doneF s) f' = v' % 2 ^ f'.width := by
  unfold loaded
  rw [getFld_setFld_ne hdone, getFld_setFld_ne hgo, getFld_setFld_ne hdone', getFld_setFld_ne hgo']
  unfold writeRwi
  split
  next hsame =>
    simp only [unchanged, List.all_cons, Bool.and_eq_true, decide_eq_true_eq] at hsame
    obtain ⟨-, hf, hf', -⟩ := hsame
    exact ⟨hf, hf'⟩
  next =>
    rw [if_pos ((mayInstall_admitted ..).trans hinst), incFld, getFld_setFld_ne hseq, getFld_setFld_ne hseq', getFld_needRole, getFld_needRole,
      List.foldl_cons, List.foldl_cons, List.foldl_cons, List.foldl_nil, getFld_setFld_self, getFld_setFld_ne hne, getFld_setFld_self]
    exact ⟨rfl, rfl⟩

theorem trtCmd_pass {op : Nat} {pars : List (FRef × Nat)} (hpass : Passes w 0xD0 s) (hinst : mayInstall s w = true)
    (hgo : isSet s TRT_CMD_GO = false) (act : State → State) :
    trtCmd w op pars act s = act (loaded w 0xD0 TRT_CMD_OP op pars TRT_CMD_GO TRT_CMD_RES_DONE s) :=
  cmdWrite_pass hpass hinst hgo _ act

theorem trtAttach_offers {p node : Nat} {x : Plate} (hpass : Passes w 0xD0 s) (hinst : mayInstall s w = true) (hgo : isSet s TRT_CMD_GO = false)
    (hp : p < 64) (hnode : node < 512) (hx : plateOf s p = some x) (hserved : x.served = true) (hstandby : x.standby = 0xFFFF) :
    let t := loaded w 0xD0 TRT_CMD_OP 1 [(TRT_CMD_PLATE, p), (TRT_CMD_NODE, node)] TRT_CMD_GO TRT_CMD_RES_DONE s
    reachable t node = true →
    let t1 := startLabel p (updPlate p (fun y => { y with standby := node }) t)
    ∀ y, plateOf t1 p = some y → exec (.trtAttach w p node) s = .next (offer p y true t1) := by
  intro t hreach t1 y hy
  obtain ⟨hplate, hnd⟩ : getFld t TRT_CMD_PLATE = p % 2 ^ 6 ∧ getFld t TRT_CMD_NODE = node % 2 ^ 9 :=
    getFld_loaded_two hinst (by decide) (by decide) (by decide) (by decide) (by decide) (by decide) (by decide)
  rw [show p % 2 ^ 6 = p from Nat.mod_eq_of_lt hp] at hplate
  rw [show node % 2 ^ 9 = node from Nat.mod_eq_of_lt hnode] at hnd
  have hpt : plateOf t p = some x := (plateOf_loaded ..).trans hx
  have hact : attachCmd t = offer p y true t1 := by
    simp only [attachCmd, hplate, hnd, hpt, hserved, hstandby, hreach, ne_eq, not_true_eq_false,
      Bool.not_true, Bool.false_eq_true, or_self, if_false]
    rw [show plateOf (startLabel p (updPlate p (fun y => { y with standby := node }) t)) p = some y from hy]
  rw [exec_trtAttach, execTrtAttach, run_true, trtCmd_pass hpass hinst hgo]
  exact congrArg Host.Outcome.next hact

theorem trtDetach_releases {p : Nat} {x : Plate} (hpass : Passes w 0xD0 s) (hinst : mayInstall s w = true) (hgo : isSet s TRT_CMD_GO = false)
    (hp : p < 64) (hx : plateOf s p = some x) (hstandby : x.standby ≠ 0xFFFF) :
    exec (.trtDetach w p) s = .next (trtEnd .ok (releaseResv p x (startLabel p (updPlate p (fun y => { y with standby := 0xFFFF })
      (detach p (offerEnd p .stateConflict (loaded w 0xD0 TRT_CMD_OP 2 [(TRT_CMD_PLATE, p)] TRT_CMD_GO TRT_CMD_RES_DONE s))))))) := by
  have hplate : getFld (loaded w 0xD0 TRT_CMD_OP 2 [(TRT_CMD_PLATE, p)] TRT_CMD_GO TRT_CMD_RES_DONE s) TRT_CMD_PLATE = p :=
    (getFld_loaded_par hinst (by decide) (by decide) (by decide)).trans (Nat.mod_eq_of_lt hp)
  rw [exec_trtDetach, execTrtDetach, run_true, trtCmd_pass hpass hinst hgo, detachCmd]
  simp only [hplate, plateOf_loaded, hx, if_neg hstandby]

end

/-! ### What a reservation's command leaves of the link -/

theorem leaveIdle_link (s : State) : (leaveIdle s).link = s.link := by
  unfold leaveIdle
  split
  · rw [setEvt_link, setFld_link]
  · rfl

theorem emit_link (o : Out) (s : State) : (emit o s).link = s.link := by
  have hout : (emit o s).link = (if o.isWork then leaveIdle s else s).link := rfl
  rw [hout]
  split
  · exact leaveIdle_link s
  · rfl

theorem leaveDriveL1_link (p : Nat) (s : State) : (leaveDriveL1 p s).link = s.link := by
  unfold leaveDriveL1
  split <;> rfl

theorem updDport_link (p : Nat) (f : DPort → DPort) (s : State) : (updDport p f s).link = s.link := by
  unfold updDport
  split <;> rfl

theorem foldl_link {α : Type} {f : State → α → State} (hf : ∀ t x, (f t x).link = t.link) (l : List α) (s : State) : (l.foldl f s).link = s.link := by
  induction l generalizing s with
  | nil => rfl
  | cons x l ih => rw [List.foldl_cons, ih, hf]

theorem issueNv_link (id : Nat) (c : NvCmd) (s : State) : (issueNv id c s).link = s.link := by
  unfold issueNv
  split
  · rfl
  · rw [emit_link, leaveDriveL1_link, updDport_link, updIo_link]

theorem pumpNv_link (p : Nat) (s : State) : (pumpNv p s).link = s.link := foldl_link (fun _ _ => issueNv_link ..) _ s

/-- A reservation's command goes to a drive of this node. -/
theorem resvSend_link (p : Nat) (m : Nat × Member) (action key other : Nat) (s : State) : (resvSend p m action key other s).link = s.link := by
  unfold resvSend sendNv
  dsimp only
  simp only [Bool.not_true, Bool.and_false, Bool.false_eq_true, if_false, if_true, pumpNv_link, updIo_link]

/-! ### Offers (R332) -/

section
variable {m : Msg} {s : State}

theorem attachOffer_accepts {reach resvOk : Bool} {found : List FoundNs} {media : List PlateMedia} (hsrc : m.src < 512) (hdst : m.dst = nodeId s)
    (hmute : mute s = false) {gov : List Byte} (hheld : smGet s.link.held m.arg = none)
    (hgov : governing (labelsOf found (mediaOf media m.arg)) m.arg = some gov) (hreach : reach = true) (hresv : resvOk = true)
    (hmembers : (buildPlate s gov ((List.range (leAt gov 0x22 1)).map (slotMember s found (mediaOf media m.arg) gov)) (mediaOf media m.arg)).members.all
      (reachesMember s) = true)
    (hroom : ((s.link.held.filter (fun q => decide (q.2.plate.owner = m.src))).map (fun q => (smGetD s.link.mirror q.1 []).length)).sum < 49152) :
    ∃ h t, exec (.attachOffer m reach resvOk found media) s = .next (sendMsg m.src .attachAccept m.tag m.arg 0 [] t) ∧
      smGet t.link.held m.arg = some h ∧ h.attached = true ∧ h.plate.owner = m.src ∧ h.taking = 0 ∧ h.plate.resvGen = leAt m.body 0 8 := by
  generalize hx0 : buildPlate s gov ((List.range (leAt gov 0x22 1)).map (slotMember s found (mediaOf media m.arg) gov)) (mediaOf media m.arg) = x0
    at hmembers
  refine ⟨{ index := m.arg2 % 64, attached := true, taking := 0, here := 0,
            plate := { x0 with owner := m.src, members := x0.members.map (localise s), resvGen := leAt m.body 0 8 } }, ?_, ?_, ?_, rfl, rfl, rfl, rfl⟩
  rotate_left
  · rw [exec_attachOffer, execAttachOffer, decide_eq_true hsrc, run_true, arrived_here hdst hmute, attachOffer]
    simp only [hheld, Option.map_none, Option.getD_none, Bool.false_eq_true, if_false, hgov, hx0, hreach, hmembers, Bool.not_true,
      Bool.or_false, Nat.not_le.mpr hroom, hresv]
    rfl
  · rw [foldl_link fun t q => by rw [setFld_link, resvSend_link]]
    exact smGet_smSet_self ..

theorem attachOffer_refuses {reach resvOk : Bool} {found : List FoundNs} {media : List PlateMedia} (hsrc : m.src < 512) (hdst : m.dst = nodeId s)
    (hmute : mute s = false) {h : HeldPlate} (hheld : smGet s.link.held m.arg = some h) (hatt : h.attached = true) :
    exec (.attachOffer m reach resvOk found media) s = .next (sendMsg m.src .attachRefuse m.tag m.arg 4 [] s) := by
  rw [exec_attachOffer, execAttachOffer, decide_eq_true hsrc, run_true, arrived_here hdst hmute, attachOffer]
  simp only [hheld, Option.map_some, Option.getD_some, hatt, if_true]

end

/-! ### Answers to an offer -/

theorem offerEnd_store (p : Nat) (st : Status) (s : State) : (offerEnd p st s).store = s.store := by
  unfold offerEnd
  split
  · rfl
  · dsimp only
    split <;> rfl

theorem offerEnd_offers (p : Nat) (st : Status) (s : State) : smGet (offerEnd p st s).link.offers p = none := by
  unfold offerEnd
  split
  case h_1 hnone => exact hnone
  case h_2 =>
    dsimp only
    split <;> exact smGet_smDel_self ..

/-- With no partner enabled there is no slot to mirror again. -/
theorem pmirResume_disabled {s : State} (hen : isSet s CCH_CFG_PARTNER_EN = false) (node : Nat) : pmirResume node s = s := by
  have hplates : pmirPlates s node = [] := by simp only [pmirPlates, hen, Bool.false_and, List.filter_false, List.map_nil]
  have hslots : pmirSlots s node = [] := by simp only [pmirSlots, hplates, List.not_mem_nil, decide_false, Bool.and_false, List.filter_false]
  rw [pmirResume, pmirSend, hslots, List.foldl_nil, pmirReady, if_pos (.inl hplates)]

theorem smGet_of_mem {α : Type} {m : SMap α} {k : Nat} {v : α} (h : (k, v) ∈ m) : ∃ u, smGet m k = some u := by
  induction m with
  | nil => cases h
  | cons q m ih =>
    rw [smGet]
    split
    · exact ⟨_, rfl⟩
    next hne => exact ih ((List.mem_cons.mp h).resolve_left fun heq => hne (congrArg Prod.fst heq))

/-- An offer under way is of a plate of this node. -/
theorem plateOf_of_offered {s : State} {id node p : Nat} {x : Plate} (hoff : offered s id node = some (p, x)) : ∃ y, plateOf s p = some y :=
  smGet_of_mem (List.mem_of_find?_eq_some hoff)

section
variable {m : Msg} {s : State} {p : Nat} {x : Plate}

theorem attachAccept_attaches {pool : Nat} (hsrc : m.src < 512) (hdst : m.dst = nodeId s) (hmute : mute s = false)
    (hoff : offered s m.arg m.src = some (p, x)) (hnone : plateEntries s p = []) (hen : isSet s CCH_CFG_PARTNER_EN = false) :
    ∃ t, exec (.attachAccept m pool) s = .next t ∧ (plateOf t p).map Plate.attached = some true ∧ smGet t.link.offers p = none := by
  obtain ⟨y, hy⟩ := plateOf_of_offered hoff
  refine ⟨_, by
    rw [exec_attachAccept, execAttachAccept, decide_eq_true hsrc, run_true, arrived_here hdst hmute]
    simp only [hoff]
    rfl, ?_, offerEnd_offers ..⟩
  generalize hs0 : updLink _ s = s0
  have hy0 : plateOf s0 p = some y := by rw [← hs0]; exact hy
  have hnone0 : plateEntries s0 p = [] := by rw [← hs0]; exact hnone
  have hen0 : isSet s0 CCH_CFG_PARTNER_EN = false := by rw [← hs0]; exact hen
  have hentries : plateEntries (updPlate p (fun x => { x with attached := true, mirrorOn := false }) s0) p = [] := by
    rw [plateEntries, updPlate_io]
    exact hnone0
  rw [hentries, List.foldl_nil, pmirResume_disabled]
  · rw [plateOf, offerEnd_store, trtEvt, setEvt_store, pmirShow, setFlag, setFld_store, updCache_store]
    exact congrArg (Option.map Plate.attached) (plateOf_updPlate_self hy0 _)
  · rw [isSet, getFld_updCache, getFld_updPlate]
    exact hen0

theorem attachRefuse_ends (hsrc : m.src < 512) (hdst : m.dst = nodeId s) (hmute : mute s = false) (hoff : offered s m.arg m.src = some (p, x))
    (hcmd : (smGet s.link.offers p).map (fun o => o.2) = some false) :
    exec (.attachRefuse m) s = .next (updLink (fun l => { l with offers := smDel l.offers p }) s) := by
  obtain ⟨o, ho, hno⟩ := Option.map_eq_some_iff.mp hcmd
  rw [exec_attachRefuse, execAttachRefuse, decide_eq_true hsrc, run_true, arrived_here hdst hmute]
  simp only [hoff, ho, Option.map_some, Option.getD_some, hno, Bool.false_eq_true, if_false, offerEnd]

end

theorem claim_kept {m : Msg} {s : State} (hsrc : m.src < 512) (hdst : m.dst = nodeId s) (hmute : mute s = false)
    (hfirst : smGet s.link.claims m.arg = none) :
    exec (.claim m) s = .next (updLink (fun l => { l with claims := smSet l.claims m.arg (m.src, leAt m.body 0 8) }) s) := by
  rw [exec_claim, execClaim, decide_eq_true hsrc, run_true, arrived_here hdst hmute]
  simp only [hfirst]

/-- Settles O47: a command reads back the plate and the node it was written with, a held plate stands through the reservations acquired for it, and an
acceptance with no partner enabled and no entry of the plate only marks it attached. -/
theorem standbysAreAttached : Obligations.StandbysAreAttached := by
  unfold Obligations.StandbysAreAttached
  refine ⟨?attach, ?detach, fun m reach resvOk found media s hsrc hdst hmute => ⟨?accepts, ?refuses⟩, ?accept, ?refuse, ?claim⟩
  case attach =>
    exact fun w p node x s hpass hinst hgo hp hnode hx hserved hstandby => trtAttach_offers hpass hinst hgo hp hnode hx hserved hstandby
  case detach => exact fun w p x s hpass hinst hgo hp hx hstandby => trtDetach_releases hpass hinst hgo hp hx hstandby
  case accepts =>
    exact fun gov hheld hgov hreach hresv hmembers hroom => attachOffer_accepts hsrc hdst hmute hheld hgov hreach hresv hmembers hroom
  case refuses => exact fun h hheld hatt => attachOffer_refuses hsrc hdst hmute hheld hatt
  case accept => exact fun m pool p x s hsrc hdst hmute hoff hnone _ hen => attachAccept_attaches hsrc hdst hmute hoff hnone hen
  case refuse => exact fun m p x s hsrc hdst hmute hoff hcmd => attachRefuse_ends hsrc hdst hmute hoff hcmd
  case claim => exact fun m s hsrc hdst hmute hfirst => claim_kept hsrc hdst hmute hfirst

end Sys2Proof.Machine
end

section
/-! Settles O48: what a partner keeps and serves (R142, R333 to R335, R345). -/

namespace Sys2Proof.Machine
open Reg

/-! ### What a plate's owner sends (R58, R102, R118, R125) -/

section
variable {m : Msg} {h : HeldPlate} {s : State}

theorem journalEntryMessage_keeps (hsrc : m.src < 512) (hdst : m.dst = nodeId s) (hmute : mute s = false) (hheld : smGet s.link.held m.arg = some h)
    (hown : h.plate.owner = m.src) (hatt : h.attached = true) :
    exec (.journalEntryMessage m) s = .next (updLink (fun l => { l with
      mirror := smSet l.mirror m.arg
        (if recState (slice m.body 0 128) = 0 then smDel (smGetD s.link.mirror m.arg []) (m.arg2 % 2 ^ 16)
         else smSet (smGetD s.link.mirror m.arg []) (m.arg2 % 2 ^ 16) (slice m.body 0 128)) }) s) := by
  rw [exec_journalEntryMessage, execJournalEntryMessage, decide_eq_true hsrc, run_true, arrived_here hdst hmute]
  simp only [hheld]
  exact congrArg Host.Outcome.next (if_neg (by simp [hown, hatt]))

theorem keepRecord_appends {kind : Nat} (hdst : m.dst = nodeId s) (hmute : mute s = false) (hheld : smGet s.link.held m.arg = some h)
    (hown : h.plate.owner = m.src) (hatt : h.attached = true) (hvalid : progValid (slice m.body 0 256) = true)
    (hid : leAt (slice m.body 0 256) 0x10 8 = m.arg) (hkind : leAt (slice m.body 0 256) 9 1 = kind) :
    keepRecord m kind s = progAppend (slice m.body 0 256) s := by
  rw [keepRecord, arrived_here hdst hmute]
  simp only [hheld]
  exact if_pos ⟨hown, hatt, hvalid, hid, hkind⟩

theorem suspect_removed (hsrc : m.src < 512) (hdst : m.dst = nodeId s) (hmute : mute s = false) (hheld : smGet s.link.held m.arg = some h)
    (hown : h.plate.owner = m.src) (hatt : h.attached = true) (heven : m.arg2 % 2 = 0) :
    let rest := s.store.suspects.filter (fun y => !decide (y.plateId = (readSuspect m.arg m.body).plateId ∧ y.sn = (readSuspect m.arg m.body).sn))
    let t := updStore (fun u => { u with suspDirty := true, suspects := rest }) s
    exec (.suspect m) s = .next (if rest.length < 4096 then setFld PRF_SUSP_FULL 0 t else t) := by
  intro rest t
  have hodd : ¬ m.arg2 % 2 = 1 := by omega
  have hno : ¬ (h.plate.owner ≠ m.src ∨ (!h.attached) = true) := by simp [hown, hatt]
  rw [exec_suspect, execSuspect, decide_eq_true hsrc, run_true, arrived_here hdst hmute]
  simp only [hheld, if_neg hno, if_neg hodd, onlyIf, decide_eq_true_eq]
  rfl

end

/-! ### Members served for other nodes (R333, R335) -/

section
variable {m : Msg} {s : State}

theorem serve_sends (hport : portState s (bitsOf m.arg 48 6) = 4) (op : NvOp) :
    serve m op s = sendNv { plate := 64, mem := 0, node := nodeId s, port := bitsOf m.arg 48 6, nsid := m.arg2, sn := 0, pos := 0, op := op,
                            lba := m.arg % 2 ^ 48, n := 1, data := if op = .write then slice m.body 0 4096 else [],
                            why := .remote m.src m.tag m.arg, tries := 0 } s := if_neg (not_not_intro hport)

theorem memberIoRead_serves (hsrc : m.src < 512) (hdst : m.dst = nodeId s) (hmute : mute s = false) :
    exec (.memberIoRead m) s = .next (serve m .read s) := by
  rw [exec_memberIoRead, execMemberIoRead, decide_eq_true hsrc, run_true, arrived_here hdst hmute]

theorem memberIoWrite_serves (hsrc : m.src < 512) (hdst : m.dst = nodeId s) (hmute : mute s = false) (hmay : mayWrite s m = true) :
    exec (.memberIoWrite m) s = .next (serve m .write (if m.arg % 2 ^ 48 = 0 ∨ m.arg % 2 ^ 48 = 128 then
      updNs (bitsOf m.arg 48 6) m.arg2 (noteLabel (m.arg % 2 ^ 48) m.body) s else s)) := by
  rw [exec_memberIoWrite, execMemberIoWrite, decide_eq_true hsrc, run_true, arrived_here hdst hmute]
  exact congrArg Host.Outcome.next (if_neg (by simp [hmay]))

theorem memberIoCompletion_conflict {tag : Nat} {c : NvCmd} (hsrc : m.src < 512) (hdst : m.dst = nodeId s) (hmute : mute s = false)
    (hcmd : smGet s.io.nvme m.tag = some c) (hnode : c.node = m.src) (hfence : devFenced s = false) (hconf : m.arg2.testBit 16 = true) :
    exec (.memberIoCompletion m tag) s = .next (conflictAt c (endNv m.tag s)) := by
  rw [exec_memberIoCompletion, execMemberIoCompletion, decide_eq_true hsrc, run_true, arrived_here hdst hmute]
  simp only [hcmd, hnode, hfence, hconf, ne_eq, not_true_eq_false, Bool.false_eq_true, or_self, if_false, if_true]

theorem memberIoCompletion_tagRead {tag key : Nat} {c : NvCmd} (hsrc : m.src < 512) (hdst : m.dst = nodeId s) (hmute : mute s = false)
    (hcmd : smGet s.io.nvme m.tag = some c) (hnode : c.node = m.src) (hfence : devFenced s = false) (hconf : m.arg2.testBit 16 = false)
    (hwhy : c.why = .tagRd key) :
    exec (.memberIoCompletion m tag) s = .next (tagRead m.tag (nvmeOf (m.arg2 % 2 ^ 16)) (words m.body) s) := by
  rw [exec_memberIoCompletion, execMemberIoCompletion, decide_eq_true hsrc, run_true, arrived_here hdst hmute]
  simp only [hcmd, hnode, hfence, hconf, hwhy, ne_eq, not_true_eq_false, Bool.false_eq_true, or_self, if_false]

theorem memberIoTimeout_fails {id : Nat} {c : NvCmd} (hcmd : smGet s.io.nvme id = some c) (hnode : c.node ≠ nodeId s) :
    exec (.memberIoTimeout id) s = .next (failMember c.plate c.mem .failed (if c.op = .read then readLost c (endNv id s) else endNv id s)) := by
  rw [exec_memberIoTimeout, execMemberIoTimeout, run_true]
  simp only [hcmd, if_neg hnode]

theorem remoteRouteTimeout_fails {node : Nat} (hn : node < 512) (hother : node ≠ nodeId s) (hroute : routeLinks s node = []) :
    exec (.remoteRouteTimeout node) s = .next (failAll (s.store.plates.flatMap (fun q => ((List.range q.2.members.length).filter (fun i =>
      decide ((q.2.mem i).map Member.node = some node))).map (fun i => (q.1, i)))) .missing s) := by
  rw [exec_remoteRouteTimeout, execRemoteRouteTimeout, decide_eq_true hn, run_true, if_neg (by simp [hother, hroute])]

end

/-! ### Mirrored slots (R142, R334) -/

section
variable {m : Msg} {s : State}

theorem mirrorWrite_takes {id q : Nat} {h : HeldPlate} (hsrc : m.src < 512) (hdst : m.dst = nodeId s) (hmute : mute s = false)
    (hheld : (heldOf s m.src).find? (fun r => decide (r.2.index = bitsOf m.arg 32 6)) = some (id, h))
    (hnew : s.link.pool.find? (fun r => decide (r.2.owner = m.src ∧ r.2.num = m.arg % 2 ^ 32)) = none) (hfree : poolFree s = some q) :
    ∃ (x : Slot) (t : State), exec (.mirrorWrite m) s = .next (sendMsg m.src .mirrorAck m.tag m.arg 0 [] t) ∧ x.state = .dirty ∧
      x.data = trimBlock (slice m.body 16 4096) ∧
      t = updLink (fun l => { l with pool := smSet l.pool q { owner := m.src, num := m.arg % 2 ^ 32, plateId := id, slot := x } }) s := by
  refine ⟨_, _, by
    rw [exec_mirrorWrite, execMirrorWrite, decide_eq_true hsrc, run_true, arrived_here hdst hmute]
    simp only [hheld, hnew, hfree]
    rfl, rfl, rfl, rfl⟩

theorem mirrorAck_goesOn {j : Nat} (hsrc : m.src < 512) (hdst : m.dst = nodeId s) (hmute : mute s = false)
    (hwait : smGet s.cache.pmirWait m.tag = some (m.src, j)) :
    exec (.mirrorAck m) s = .next (cacheStaged j (updEntry j (fun e => { e with mirWait := e.mirWait - 1 })
      (updCache (fun c => { c with pmirWait := smDel c.pmirWait m.tag }) s))) := by
  rw [exec_mirrorAck, execMirrorAck, decide_eq_true hsrc, run_true, arrived_here hdst hmute]
  simp only [hwait, ne_eq, not_true_eq_false, if_false]

theorem mirrorRelease_frees (hsrc : m.src < 512) (hdst : m.dst = nodeId s) (hmute : mute s = false)
    (hheld : (heldOf s m.src).any (fun q => decide (q.2.index = bitsOf m.arg 32 6)) = true) :
    exec (.mirrorRelease m) s =
      .next (updLink (fun l => { l with pool := l.pool.filter (fun q => !decide (q.2.owner = m.src ∧ q.2.num = m.arg % 2 ^ 32)) }) s) := by
  rw [exec_mirrorRelease, execMirrorRelease, decide_eq_true hsrc, run_true, arrived_here hdst hmute, if_pos hheld]

theorem mirrorLost_suspends (hsrc : m.src < 512) (hdst : m.dst = nodeId s) (hmute : mute s = false) (hstandby : m.src ∈ standbys s) :
    exec (.mirrorLost m) s = .next (pmirSuspend m.src s) := by
  rw [exec_mirrorLost, execMirrorLost, decide_eq_true hsrc, run_true, arrived_here hdst hmute, if_pos hstandby]

end

/-- Settles O48: each clause is the branch its hypotheses select, for a message that arrived at a node that is not mute. -/
theorem partnersKeepAndServe : Obligations.PartnersKeepAndServe := by
  unfold Obligations.PartnersKeepAndServe
  refine ⟨fun m h s hsrc hdst hmute hheld hown hatt => ⟨?journal, fun hvalid hid => ⟨?progress, ?proof⟩, ?suspect⟩,
    fun m s hsrc hdst hmute hport => ⟨?read, ?write, ?serve⟩, fun m tag key c s hsrc hdst hmute hcmd hnode hfence => ⟨?conflict, ?tagRead⟩,
    ?timeout, ?noRoute, ?mirrorWrite, ?mirrorAck, ?mirrorRelease, ?mirrorLost⟩
  case journal => exact journalEntryMessage_keeps hsrc hdst hmute hheld hown hatt
  case progress =>
    intro hkind
    rw [exec_progress, execProgress, decide_eq_true hsrc, run_true, keepRecord_appends hdst hmute hheld hown hatt hvalid hid hkind]
  case proof =>
    intro hkind
    rw [exec_proof, execProof, decide_eq_true hsrc, run_true, keepRecord_appends hdst hmute hheld hown hatt hvalid hid hkind]
  case suspect => exact fun heven => suspect_removed hsrc hdst hmute hheld hown hatt heven
  case read => exact memberIoRead_serves hsrc hdst hmute
  case write => exact fun hmay => memberIoWrite_serves hsrc hdst hmute hmay
  case serve => exact fun op => serve_sends hport op
  case conflict => exact fun hconf => memberIoCompletion_conflict hsrc hdst hmute hcmd hnode hfence hconf
  case tagRead => exact fun hconf hwhy => memberIoCompletion_tagRead hsrc hdst hmute hcmd hnode hfence hconf hwhy
  case timeout => exact fun id c s hcmd hnode => memberIoTimeout_fails hcmd hnode
  case noRoute => exact fun node s hn hother hroute => remoteRouteTimeout_fails hn hother hroute
  case mirrorWrite => exact fun m id q h s hsrc hdst hmute hheld hnew hfree => mirrorWrite_takes hsrc hdst hmute hheld hnew hfree
  case mirrorAck => exact fun m j s hsrc hdst hmute hwait => mirrorAck_goesOn hsrc hdst hmute hwait
  case mirrorRelease => exact fun m s hsrc hdst hmute hheld => mirrorRelease_frees hsrc hdst hmute hheld
  case mirrorLost => exact fun m s hsrc hdst hmute hstandby => mirrorLost_suspends hsrc hdst hmute hstandby

end Sys2Proof.Machine
end

section
/-! Settles O49: GO, STOP, descriptors, bursts and ends of the Graver's units (R347 to R359). -/

namespace Sys2Proof.Machine
open Reg

/-! ### What choosing the next unit leaves -/

theorem pageKey_chState (c : Nat) : (MCH_CH_STAT_STATE c).pageKey = 0xE0 + c := by
  simp only [FRef.pageKey, FRef.key, MCH_CH_STAT_STATE]
  omega

theorem chState_setFld_other {c d : Nat} (h : d ≠ c) (v : Nat) (s : State) : chState (setFld (MCH_CH_STAT_STATE d) v s) c = chState s c :=
  getFld_setFld_page (by rw [pageKey_chState, pageKey_chState]; omega) v s

theorem chState_setFld_self {c v : Nat} (hv : v < 4) (s : State) : chState (setFld (MCH_CH_STAT_STATE c) v s) c = v :=
  (getFld_setFld_self ..).trans (Nat.mod_eq_of_lt hv)

/-- An idle channel neither waits for a request nor stops waiting. -/
theorem chState_settleCh_idle {c : Nat} {s : State} (hidle : chState s c = 0) (d : Nat) : chState (settleCh d s) c = 0 := by
  unfold settleCh
  split
  next hd => exact (chState_setFld_other (by rintro rfl; omega) _ _).trans hidle
  next =>
    split
    next hd => exact (chState_setFld_other (by rintro rfl; omega) _ _).trans hidle
    next => exact hidle

theorem chState_settled_idle {c : Nat} (l : List Nat) {s : State} (hidle : chState s c = 0) : chState (l.foldl (fun t d => settleCh d t) s) c = 0 := by
  induction l generalizing s with
  | nil => exact hidle
  | cons d l ih => exact ih (chState_settleCh_idle hidle d)

theorem getFld_settleCh {f : FRef} (hf : ∀ d, f.key ≠ (MCH_CH_STAT_STATE d).key) (d : Nat) (s : State) : getFld (settleCh d s) f = getFld s f := by
  unfold settleCh
  split
  · exact getFld_setFld_ne (hf d) _ _
  · split
    · exact getFld_setFld_ne (hf d) _ _
    · rfl

theorem getFld_settled {f : FRef} (hf : ∀ d, f.key ≠ (MCH_CH_STAT_STATE d).key) (l : List Nat) (s : State) :
    getFld (l.foldl (fun t d => settleCh d t) s) f = getFld s f := by
  induction l generalizing s with
  | nil => rfl
  | cons d l ih => rw [List.foldl_cons, ih, getFld_settleCh hf]

theorem getFld_showMover {f : FRef} (hpage : f.pageKey ≠ 0xDF) (s : State) : getFld (showMover s) f = getFld s f := by
  have hbusy : MOV_STAT_BUSY.pageKey = 0xDF ∧ MOV_STAT_CHANNEL.pageKey = 0xDF := by decide
  unfold showMover
  split
  · rw [getFld_setFld_page (by rwa [hbusy.2]), getFld_setFld_page (by rwa [hbusy.1])]
  · rw [getFld_setFld_page (by rwa [hbusy.1])]

@[simp] theorem getFld_updMch (c : Nat) (g : MCh → MCh) (s : State) (f : FRef) : getFld (updMch c g s) f = getFld s f := rfl

@[simp] theorem getFld_startUnit (c : Nat) (s : State) (f : FRef) : getFld (startUnit c s) f = getFld s f := rfl

@[simp] theorem getFld_releaseMover (c : Nat) (s : State) (f : FRef) : getFld (releaseMover c s) f = getFld s f := by
  unfold releaseMover
  split <;> rfl

/-- A channel's registers other than its state stand while the next unit is chosen. -/
theorem getFld_chooseUnit {f : FRef} (hpwr : f.pageKey ≠ 1) (hmov : f.pageKey ≠ 0xDF) (hf : ∀ d, f.key ≠ (MCH_CH_STAT_STATE d).key) (s : State) :
    getFld (chooseUnit s) f = getFld s f := by
  unfold chooseUnit
  dsimp only
  rw [getFld_showMover hmov]
  split
  · exact getFld_settled hf _ s
  · split
    · exact getFld_settled hf _ s
    · split
      · split
        · rw [getFld_startUnit, getFld_setFld_ne (hf _), getFld_updMover, getFld_leaveIdle hpwr, getFld_settled hf]
        · rw [getFld_setFld_ne (hf _), getFld_updMover, getFld_leaveIdle hpwr, getFld_settled hf]
      · exact getFld_settled hf _ s

/-- An idle channel is not chosen. -/
theorem chState_chooseUnit_idle {c : Nat} (hc : c < 16) {s : State} (hidle : chState s c = 0) : chState (chooseUnit s) c = 0 := by
  have hsettled := chState_settled_idle (List.range 16) hidle
  have hpage : (MCH_CH_STAT_STATE c).pageKey ≠ 1 ∧ (MCH_CH_STAT_STATE c).pageKey ≠ 0xDF := by rw [pageKey_chState]; omega
  unfold chooseUnit
  dsimp only
  rw [chState, getFld_showMover hpage.2]
  generalize (List.range 16).foldl (fun t d => settleCh d t) s = s1 at hsettled ⊢
  split
  · exact hsettled
  · split
    · exact hsettled
    · split
      next d hd =>
        have hready : chState s1 d = 1 := by
          have hok := List.find?_some hd
          simp only [Bool.and_eq_true, decide_eq_true_eq] at hok
          exact hok.1.1
        have hne : d ≠ c := by rintro rfl; omega
        have hother : (MCH_CH_STAT_STATE c).pageKey ≠ (MCH_CH_STAT_STATE d).pageKey := by rw [pageKey_chState, pageKey_chState]; omega
        split
        · rw [getFld_startUnit, getFld_setFld_page hother, getFld_updMover, getFld_leaveIdle hpage.1]
          exact hsettled
        · rw [getFld_setFld_page hother, getFld_updMover, getFld_leaveIdle hpage.1]
          exact hsettled
      next => exact hsettled

/-! ### A channel that goes idle -/

theorem chState_idleCh (c : Nat) (s : State) : chState (idleCh c s) c = 0 := chState_setFld_self (by omega) _

theorem go_idleCh (c : Nat) (s : State) : getFld (idleCh c s) (MCH_CH_CTL_GO c) = 0 := by
  rw [idleCh, getFld_setFld_same (by rfl) (by rfl) (by rfl), getFld_setFld_self]
  rfl

/-- The other registers of the channel stand. -/
theorem getFld_idleCh {c : Nat} {f : FRef} (hbank : f.bank = 0) (hpage : f.page = 0xE0 + c) (hstate : f.apart (MCH_CH_STAT_STATE c) = true)
    (hgo : f.apart (MCH_CH_CTL_GO c) = true) (s : State) : getFld (idleCh c s) f = getFld s f := by
  rw [idleCh, getFld_setFld_same hbank hpage hstate, getFld_setFld_same hbank hpage hgo, getFld_updMch]

/-- A register of a channel, away from the state's place, is no channel's state. -/
theorem key_ne_chState {c : Nat} {f : FRef} (hbank : f.bank = 0) (hpage : f.page = 0xE0 + c) (hin : f.pageKey = 0xE0 + c)
    (hstate : f.apart (MCH_CH_STAT_STATE c) = true) (d : Nat) : f.key ≠ (MCH_CH_STAT_STATE d).key := by
  by_cases hd : d = c
  · rw [hd]
    exact key_ne_of_apart hbank hpage hstate
  · exact key_ne_of_pageKey (by rw [hin, pageKey_chState]; omega)

/-! ### GO and STOP -/

section
variable {w : Win} {c : Nat} {s : State}

theorem chState_admitted (p d : Nat) : chState (admitted w p s) d = chState s d := getFld_admitted ..

theorem graverGo_starts {chain : Bool} (hc : c < 16) (hpass : Passes w (0xE0 + c) s) (hidle : chState s c = 0) (hmov : fenced s 0xDF = false)
    (hfence : fenced s (0xE0 + c) = false) :
    let t := setFld (MCH_CH_CTL_GO c) 1 (setFld (MCH_CH_STAT_STATE c) 1 (setFld (PG_STAT_ASLEEP (0xE0 + c)) 0 (setFld (PG_STAT_ASLEEP 0xDF) 0
        (seqIf (0xE0 + c) (admitted w (0xE0 + c) s) (setFlag (MCH_CH_CTL_CHAIN c) chain (admitted w (0xE0 + c) s))))))
    exec (.graverGo w c chain) s = .next (chooseUnit (updMch c (fun _ => { loaded := !chain, off := 0, ended := none })
      (if chain then setFld (MCH_CH_CUR_LO_ADDR c) (getFld t (MCH_CH_HEAD_LO_SPACE c) + 128 * getFld t (MCH_CH_HEAD_LO_ADDR c))
        (setFld (MCH_CH_CUR_HI_ADDR c) (getFld t (MCH_CH_HEAD_HI_ADDR c)) t) else t))) := by
  intro t
  rw [exec_graverGo, execGraverGo, decide_eq_true hc, run_true, guardWrite_pass hpass,
    if_neg (by simp [chState_admitted, fenced_admitted, hidle, hmov, hfence])]

theorem graverStop_stops (hc : c < 16) (hpass : Passes w (0xE0 + c) s) : exec (.graverStop w c) s = .next (stopCh c (admitted w (0xE0 + c) s)) := by
  rw [exec_graverStop, execGraverStop, decide_eq_true hc, run_true, guardWrite_pass hpass]

theorem graverStop_pending (hc : c < 16) (hpass : Passes w (0xE0 + c) s) (hpending : chState s c = 1) :
    ∃ t, exec (.graverStop w c) s = .next t ∧ chState t c = 0 ∧ isSet t (MCH_CH_CTL_GO c) = false := by
  have hmov : (MCH_CH_STAT_STATE c).pageKey ≠ 0xDF ∧ (MCH_CH_CTL_GO c).pageKey ≠ 0xDF := by
    simp only [FRef.pageKey, FRef.key, MCH_CH_STAT_STATE, MCH_CH_CTL_GO]
    omega
  have hstop : stopCh c (admitted w (0xE0 + c) s) = showMover (idleCh c (admitted w (0xE0 + c) s)) := by
    rw [stopCh, chState_admitted, hpending, if_neg (by omega), if_neg (by omega)]
  refine ⟨_, graverStop_stops hc hpass, ?_, ?_⟩
  · rw [hstop, chState, getFld_showMover hmov.1]
    exact chState_idleCh ..
  · rw [hstop, isSet, getFld_showMover hmov.2, go_idleCh]
    rfl

theorem stopCh_idle (hidle : chState s c = 0) : stopCh c s = s := by rw [stopCh, hidle, if_neg (by omega), if_pos rfl]

theorem stopCh_running (hrun : chState s c = 2) (hloaded : (mchOf s c).loaded = true) : stopCh c s = cutUnit c 8 s := by
  rw [stopCh, if_pos hrun, if_pos hloaded]

theorem stopCh_waiting (hwait : chState s c = 3) : stopCh c s = showMover (idleCh c s) := by
  rw [stopCh, hwait, if_neg (by omega), if_neg (by omega)]

end

/-! ### Descriptors of a list -/

section
variable {c : Nat} {s : State}

/-- A line is held only where its bytes can be read. -/
theorem lineHeld_of_byteFail {a : Nat} {wr : Bool} (hfail : byteFail s 1 a ≠ 0) : lineHeld s a wr = false := by
  rw [lineHeld, decide_eq_false hfail, Bool.false_and]

/-- Nothing is read where the bytes cannot be. -/
theorem descRead_of_byteFail {space a : Nat} (hfail : byteFail s space a ≠ 0) : descRead space a s = s :=
  if_neg fun h => hfail h.2

/-- Nor in the SRAM, whose lines the DRAM does not hold. -/
theorem descRead_sram (a : Nat) : descRead 0 a s = s := if_neg fun h => absurd h.1 (by omega)

/-- A channel whose descriptor cannot be read ends. -/
def fetchFailed (c : Nat) (u : State) : State :=
  chooseUnit (releaseMover c (idleCh c (setEvt (0xE0 + c) MCH_EVT_END (setEvt (0xE0 + c) MCH_EVT_FETCH_ERR u))))

theorem descriptorFetch_takes (hc : c < 16) (hchain : isSet s (MCH_CH_CTL_CHAIN c) = true) (hstate : chState s c = 1)
    (hloaded : (mchOf s c).loaded = false) :
    let v := getFld s (MCH_CH_CUR_LO_ADDR c) + 2 ^ 32 * getFld s (MCH_CH_CUR_HI_ADDR c)
    let b := (List.range 128).map (fun i => BitVec.ofNat 8 (readByte s (v % 2) (v / 128 * 128 + i) i))
    let t := updMch c (fun _ => { loaded := true, off := 0, ended := none }) (setDesc c b (useFresh 128 (descRead (v % 2) (v / 128 * 128) s)))
    byteFail s (v % 2) (v / 128 * 128) = 0 → (v % 2 = 1 → lineHeld s (v / 128 * 128) false = false) → chState t c = 1 →
    exec (.descriptorFetch c none) s = .next (chooseUnit t) := by
  intro v b t hok hheld hpending
  have hno : ¬ (v % 2 = 1 ∧ lineHeld s (v / 128 * 128) false = true) := fun h => by simp [hheld h.1] at h
  have hgo : ¬ ((!isSet s (MCH_CH_CTL_CHAIN c)) = true ∨ chState s c = 0 ∨ (mchOf s c).loaded = true) := by simp [hchain, hstate, hloaded]
  rw [exec_descriptorFetch, execDescriptorFetch, decide_eq_true hc, run_true, fetchDesc, if_neg hgo]
  refine congrArg Host.Outcome.next ((if_neg hno).trans ((if_neg (not_or.mpr ⟨Bool.false_ne_true, not_not_intro hok⟩)).trans (if_pos ?_)))
  exact fun h => absurd (hpending.symm.trans h) (by omega)

theorem descriptorFetch_outside (hc : c < 16) (hchain : isSet s (MCH_CH_CTL_CHAIN c) = true) (hstate : chState s c = 1)
    (hloaded : (mchOf s c).loaded = false) :
    let v := getFld s (MCH_CH_CUR_LO_ADDR c) + 2 ^ 32 * getFld s (MCH_CH_CUR_HI_ADDR c)
    byteFail s (v % 2) (v / 128 * 128) ≠ 0 → ∀ ue, exec (.descriptorFetch c ue) s = .next (fetchFailed c s) := by
  intro v hfail ue
  have hno : ¬ (v % 2 = 1 ∧ lineHeld s (v / 128 * 128) false = true) := by
    rintro ⟨hspace, hheld⟩
    rw [lineHeld_of_byteFail (hspace ▸ hfail)] at hheld
    cases hheld
  have hgo : ¬ ((!isSet s (MCH_CH_CTL_CHAIN c)) = true ∨ chState s c = 0 ∨ (mchOf s c).loaded = true) := by simp [hchain, hstate, hloaded]
  rw [exec_descriptorFetch, execDescriptorFetch, decide_eq_true hc, run_true, fetchDesc, if_neg hgo]
  refine congrArg Host.Outcome.next ((if_neg hno).trans ((if_pos (.inr hfail)).trans (congrArg (fetchFailed c) ?_)))
  cases ue with
  | none => exact descRead_of_byteFail hfail
  | some e => exact if_pos hfail

theorem descriptorFetch_sramError (hc : c < 16) (hchain : isSet s (MCH_CH_CTL_CHAIN c) = true) (hstate : chState s c = 1)
    (hloaded : (mchOf s c).loaded = false) :
    let v := getFld s (MCH_CH_CUR_LO_ADDR c) + 2 ^ 32 * getFld s (MCH_CH_CUR_HI_ADDR c)
    byteFail s (v % 2) (v / 128 * 128) = 0 → v % 2 = 0 → ∀ e : MoveErr, exec (.descriptorFetch c (some e)) s =
      .next (fetchFailed c (report 0x02 0xDF (v / 128 * 128 + e.off % 128) s)) := by
  intro v hok hspace e
  have hgo : ¬ ((!isSet s (MCH_CH_CTL_CHAIN c)) = true ∨ chState s c = 0 ∨ (mchOf s c).loaded = true) := by simp [hchain, hstate, hloaded]
  have hread : descRead (v % 2) (v / 128 * 128) s = s := by rw [hspace]; exact descRead_sram _
  have herr : memErr (v % 2) (v / 128 * 128 + e.off % 128) c e.errs s = report 0x02 0xDF (v / 128 * 128 + e.off % 128) s := if_pos hspace
  have hkind : ∀ a t, memErrKind (v % 2) a e.errs s t = some 2 := fun a t => if_pos hspace
  rw [exec_descriptorFetch, execDescriptorFetch, decide_eq_true hc, run_true, fetchDesc, if_neg hgo]
  refine congrArg Host.Outcome.next ((if_neg fun h => absurd h.1 (by omega)).trans ((if_pos (.inl ?_)).trans (congrArg (fetchFailed c) ?_)))
  · exact (if_neg (not_not_intro hok)).trans ((congrArg _ hread).trans herr)
  · exact congrArg Option.isSome (hkind _ _)

end

/-! ### Requests, bursts and hold -/

section
variable {c : Nat} {s : State}

theorem graverRequestPulse_counts {src : Nat} (hsrc : src < 72) :
    exec (.graverRequestPulse src) s = .next (chooseUnit ((List.range 16).foldl (fun t c =>
      if chState t c = 0 ∨ (mchOf t c).loaded = false ∨ dPace (descBytes t c) ≠ 2 ∨ dReq (descBytes t c) ≠ src then t
      else if getFld t (MCH_CH_REQ_HELD c) < 15 then incFld (MCH_CH_REQ_HELD c) 1 t else satFld (MCH_CH_REQ_CH_REQ_LOST c) 1 t) s)) := by
  rw [exec_graverRequestPulse, execGraverRequestPulse, decide_eq_true hsrc, run_true]
  simp only [Bool.not_eq_true']

theorem graverBurst_fills {h1 h2 : HostRd} (hrun : s.mover.run = some c) (hloaded : (mchOf s c).loaded = true) (hended : (mchOf s c).ended = none) :
    let b := descBytes s c
    let p := (mchOf s c).off
    p < dTotal b → dPace b ≠ 2 → (dPace b = 1 → 4 * burstLen b p ≤ allowance s c (dRate b)) → dOp b = 1 → (dstSide b).space ≠ 2 →
    dramHeld s b (dstSide b) true p (burstLen b p) = false →
    sideFail s b (dstSide b) p (burstLen b p) = none →
    exec (.graverBurst h1 h2 none) s = .next (moved c (burstLen b p) (sideWrite b (dstSide b) p
      ((List.range (burstLen b p)).map (fun i => bitsOf (srcSide b).base (8 * (byteAddr b (dstSide b) (p + i) % 8)) 8))
      (useFresh 512 (spendAllow c b (burstLen b p) s)))) := by
  intro b p hlen hpace hallow hop hspace hdram hfail
  have hgone : hostGone s (dstSide b) = false := by rw [hostGone, decide_eq_false hspace, Bool.false_and]
  have hheld : hostHeld s (dstSide b) = false := by rw [hostHeld, decide_eq_false hspace, Bool.false_and]
  have hlate : (decide (dPace b = 1) && decide (allowance s c (dRate b) < 4 * burstLen b p)) = false := by
    by_cases h1 : dPace b = 1
    · simp [h1, hallow h1]
    · simp [h1]
  rw [exec_graverBurst, execGraverBurst, run_true, burst]
  simp only [hrun, hloaded, hended]
  rw [if_neg (by simp [hpace, hlen, b, p])]
  simp only [hop, hgone, hheld, hlate, hdram, hfail, hpace, decide_true, decide_false, Bool.not_true, Bool.not_false, Bool.false_and,
    Bool.or_false, Bool.false_eq_true, if_false, if_true, (by decide : (1 : Nat) ≠ 2), b, p]
  rfl

theorem graverHoldTimeout_cuts (hrun : s.mover.run = some c) (hloaded : (mchOf s c).loaded = true)
    (hheld : hostHeld s (dstSide (descBytes s c)) = true) : exec .graverHoldTimeout s = .next (cutUnit c 5 s) := by
  rw [exec_graverHoldTimeout, execGraverHoldTimeout, run_true]
  simp only [hrun]
  rw [if_pos ⟨hloaded, .inr hheld⟩]

end

/-! ### The end of a unit in register mode (R357) -/

section
variable {c : Nat} {s : State}

/-- What a unit that ended well leaves at its channel. -/
def unitShown (c : Nat) (s : State) : State :=
  setEvt (0xE0 + c) MCH_EVT_END (incFld (MCH_CH_DONE_COUNT c) 1 (setFld (CH_DESC c 1) 1 (setFld (CH_DESC c 18) 0 (setFld (CH_DESC c 19) 0 s))))

theorem unitEnd_register (hrun : s.mover.run = some c) (hloaded : (mchOf s c).loaded = true) (hchain : isSet s (MCH_CH_CTL_CHAIN c) = false)
    (hended : (mchOf s c).ended = none) (hdone : dTotal (descBytes s c) ≤ (mchOf s c).off) :
    unitEnd s = chooseUnit (releaseMover c (idleCh c (unitShown c s))) := by
  rw [unitEnd]
  simp only [hrun, hloaded, hchain, hended]
  rw [if_neg (by simp), if_neg (by simpa using hdone), if_neg (by simp)]
  simp [unitShown]

theorem getFld_unitShown_done (c : Nat) (s : State) : getFld (unitShown c s) (MCH_CH_DONE_COUNT c) = (getFld s (MCH_CH_DONE_COUNT c) + 1) % 2 ^ 32 := by
  rw [unitShown, getFld_setEvt_same (by rfl) (by rfl) (by rfl), incFld, getFld_setFld_self, getFld_setFld_same (by rfl) (by rfl) (by rfl),
    getFld_setFld_same (by rfl) (by rfl) (by rfl), getFld_setFld_same (by rfl) (by rfl) (by rfl)]
  rfl

theorem getFld_unitShown_status (c : Nat) (s : State) : getFld (unitShown c s) (CH_DESC c 1) = 1 := by
  rw [unitShown, getFld_setEvt_same (by rfl) (by rfl) (by rfl), incFld, getFld_setFld_same (by rfl) (by rfl) (by rfl), getFld_setFld_self]
  rfl

/-- A register of the channel, away from its state and GO, stands from the end of the unit on. -/
theorem getFld_ended (hc : c < 16) {f : FRef} (hbank : f.bank = 0) (hpage : f.page = 0xE0 + c) (hin : f.pageKey = 0xE0 + c)
    (hstate : f.apart (MCH_CH_STAT_STATE c) = true) (hgo : f.apart (MCH_CH_CTL_GO c) = true) :
    getFld (chooseUnit (releaseMover c (idleCh c s))) f = getFld s f := by
  rw [getFld_chooseUnit (by omega) (by omega) (key_ne_chState hbank hpage hin hstate), getFld_releaseMover, getFld_idleCh hbank hpage hstate hgo]

theorem graverUnitEnd_shows (hc : c < 16) (hrun : s.mover.run = some c) (hloaded : (mchOf s c).loaded = true)
    (hchain : isSet s (MCH_CH_CTL_CHAIN c) = false) (hended : (mchOf s c).ended = none) (hdone : dTotal (descBytes s c) ≤ (mchOf s c).off) :
    ∃ t, exec .graverUnitEnd s = .next t ∧ chState t c = 0 ∧ isSet t (MCH_CH_CTL_GO c) = false ∧ getFld t (CH_DESC c 1) = 1 ∧
      (getFld t (PG_EVT_EVT (0xE0 + c))).testBit MCH_EVT_END = true ∧ getFld t (MCH_CH_DONE_COUNT c) = (getFld s (MCH_CH_DONE_COUNT c) + 1) % 2 ^ 32 := by
  have hin : (MCH_CH_CTL_GO c).pageKey = 0xE0 + c ∧ (CH_DESC c 1).pageKey = 0xE0 + c ∧ (PG_EVT_EVT (0xE0 + c)).pageKey = 0xE0 + c ∧
      (MCH_CH_DONE_COUNT c).pageKey = 0xE0 + c := by
    simp only [FRef.pageKey, FRef.key, MCH_CH_CTL_GO, CH_DESC, PG_EVT_EVT, MCH_CH_DONE_COUNT]
    omega
  obtain ⟨hgo, hdesc, hevt, hcount⟩ := hin
  refine ⟨_, by rw [exec_graverUnitEnd, execGraverUnitEnd, run_true, unitEnd_register hrun hloaded hchain hended hdone], ?_, ?_, ?_, ?_, ?_⟩
  · refine chState_chooseUnit_idle hc ?_
    rw [chState, getFld_releaseMover]
    exact chState_idleCh ..
  · rw [isSet, getFld_chooseUnit (by omega) (by omega) (key_ne_chState rfl rfl hgo rfl), getFld_releaseMover, go_idleCh]
    rfl
  · rw [getFld_ended hc rfl rfl hdesc rfl rfl, getFld_unitShown_status]
  · rw [getFld_ended hc rfl rfl hevt rfl rfl]
    exact testBit_setEvt _ (by decide) _
  · rw [getFld_ended hc rfl rfl hcount rfl rfl, getFld_unitShown_done]

end

/-- Settles O49: GO and STOP act on the state of an admitted write, which has the channel's registers; what cannot be read ends the channel whatever
error the fetch carries; and the registers a unit's end shows stand while the next unit is chosen. -/
theorem graverRunsItsUnits : Obligations.GraverRunsItsUnits := by
  unfold Obligations.GraverRunsItsUnits
  refine ⟨?go, ?goList, ?stopPending, ?stop, ?stopCases, fun c s hc hchain hstate hloaded => ⟨?fetch, ?outside, ?sramError⟩, ?pulse, ?fill, ?hold, ?unitEnd, ?shown⟩
  case go => exact fun w c s hc hpass hidle hmov hfence => graverGo_starts (chain := false) hc hpass hidle hmov hfence
  case goList => exact fun w c s hc hpass hidle hmov hfence => graverGo_starts (chain := true) hc hpass hidle hmov hfence
  case stopPending => exact fun w c s hc hpass hpending => graverStop_pending hc hpass hpending
  case stop => exact fun w c s hc hpass => graverStop_stops hc hpass
  case stopCases => exact fun c s hc => ⟨stopCh_idle, stopCh_running, stopCh_waiting⟩
  case fetch => exact descriptorFetch_takes hc hchain hstate hloaded
  case outside => exact descriptorFetch_outside hc hchain hstate hloaded
  case sramError => exact descriptorFetch_sramError hc hchain hstate hloaded
  case pulse => exact fun src s hsrc => graverRequestPulse_counts hsrc
  case fill => exact fun c h1 h2 s hrun hloaded hended => graverBurst_fills hrun hloaded hended
  case hold => exact fun c s hrun hloaded hheld => graverHoldTimeout_cuts hrun hloaded hheld
  case unitEnd => exact fun c s hrun hc hloaded hdone => by rw [exec_graverUnitEnd, execGraverUnitEnd, run_true]
  case shown => exact fun c s hrun hc hloaded hchain hended hdone => graverUnitEnd_shows hc hrun hloaded hchain hended hdone

end Sys2Proof.Machine
end

section
/-! Settles O50: latches, claims and their ends at the interrupt controller (R363 to R371). -/

namespace Sys2Proof.Machine
open Reg

section
variable {s : State}

theorem mem_latches_setLatch {src : Nat} (hhigh : ¬ src < 32) (s : State) : src ∈ (setLatch src s).icu.latches := by
  rw [setLatch, if_neg hhigh]
  show src ∈ if src ∈ s.icu.latches then s.icu.latches else s.icu.latches ++ [src]
  by_cases hin : src ∈ s.icu.latches
  · rwa [if_pos hin]
  · rw [if_neg hin]
    exact List.mem_append_right _ (List.mem_singleton_self src)

theorem setLatch_lines (src : Nat) (s : State) : (setLatch src s).icu.lines = s.icu.lines := by
  unfold setLatch
  split <;> rfl

theorem interruptSourceEdge_latches {src : Nat} (hlo : 32 ≤ src) (hhi : src < 240) (hline : drivenLine s src = some true) (hnew : src ∉ s.icu.lines)
    (hsense : sense s src = 2) :
    ∃ t, exec (.interruptSourceEdge src false) s = .next (if cclkOn s then icuHost t else t) ∧ src ∈ t.icu.lines ∧ latched t src = true := by
  have hrange : 1 ≤ src ∧ src < 256 := by omega
  have hhigh : ¬ src < 32 := by omega
  refine ⟨_, by
    rw [exec_interruptSourceEdge, execInterruptSourceEdge, decide_eq_true hrange, run_true, lineEdge]
    simp only [hline, hnew, hsense, Option.getD_some, decide_true, decide_false, hhi, Bool.true_and, Bool.true_or, if_true, icuClocked,
      (by decide : (false == true) = false), Bool.false_eq_true, if_false]
    rfl, ?_, ?_⟩
  · rw [updIcu, setLatch_lines]
    exact List.mem_append_right _ (List.mem_singleton_self src)
  · rw [latched, if_neg hhigh]
    exact decide_eq_true (mem_latches_setLatch hhigh _)

/-- The moderation interval of a source stands while its latch clears. -/
theorem getFld_clearLatch_mod (src d : Nat) (s : State) : getFld (clearLatch src s) (ICU_SRC_CFG_MOD d) = getFld s (ICU_SRC_CFG_MOD d) := by
  have hne : (ICU_SRC_CFG_MOD d).key ≠ ICU_AON_LATCH_LATCH.key := by
    simp only [FRef.key, ICU_SRC_CFG_MOD, ICU_AON_LATCH_LATCH]
    omega
  unfold clearLatch
  split
  · split
    · exact getFld_setFld_ne hne _ _
    · rfl
  · rfl

theorem interruptClaim_enters {n src : Nat} (hn : n < 4) (hoffer : offerOf s n = some src) (hedge : isEdge s src = true)
    (hmod : getFld s (ICU_SRC_CFG_MOD src) = 0) :
    exec (.interruptClaim n false) s = .next (emit (.core n (vecAddr s src)) (setFld (MGC_STAT_WFI n) 0 (setFld (ICU_CORE_LAST n) src
      (incFld ICU_DELIVERED_COUNT 1 (showPrio (clearLatch src
        (updIcu (fun t => { t with claims := smSet t.claims src (n, getFld s (ICU_SRC_CFG_PRIO src)), moved := smDel t.moved src }) s))))))) := by
  have hfree : ∀ u : State, getFld u (ICU_SRC_CFG_MOD src) = 0 → moderate src (clearLatch src u) = clearLatch src u := fun u hu =>
    if_pos ((getFld_clearLatch_mod ..).trans hu)
  rw [exec_interruptClaim, execInterruptClaim, decide_eq_true hn, run_true, claimIrq, hoffer]
  simp only [hedge, Bool.not_true, Bool.false_and, Bool.false_eq_true, if_false, if_true]
  rw [hfree _ (by exact hmod)]

theorem eoi_ends {w : Win} {n src : Nat} (hn : n < 4) (hsrc : src < 256) (hpass : Passes w 5 s) (hnz : src ≠ 0)
    (hclaim : (smGet s.icu.claims src).map Prod.fst = some n) :
    exec (.eoi w n src) s = .next (showPrio (updIcu (fun t => { t with claims := smDel t.claims src }) (admitted w 5 s))) := by
  rw [exec_eoi, execEoi, decide_eq_true hn, run_true, guardWrite_pass hpass, Nat.mod_eq_of_lt hsrc, eoi, admitted_icu, if_pos ⟨hnz, hclaim⟩, endClaim]

theorem eoi_bad {w : Win} {n : Nat} (hn : n < 4) (hpass : Passes w 5 s) :
    exec (.eoi w n 0) s = .next (setEvt 5 ICU_EVT_EOI_BAD (admitted w 5 s)) := by
  rw [exec_eoi, execEoi, decide_eq_true hn, run_true, guardWrite_pass hpass, eoi, if_neg fun h => h.1 (Nat.zero_mod 256)]

theorem softwareInterrupt_latches {w : Win} {v : Nat} (hpass : Passes w 5 s) :
    exec (.softwareInterrupt w v) s = .next (icuHost ((List.range 16).foldl
      (fun t i => if v.testBit i = true then setLatch (240 + i) t else t) (admitted w 5 s))) := by
  rw [exec_softwareInterrupt, execSoftwareInterrupt, run_true, guardWrite_pass hpass]

theorem icuPendClear_clears {w : Win} {v : Nat} (hpass : Passes w 5 s) :
    let u := admitted w 5 s
    exec (.icuPendClear w v) s = .next ((List.range 32).foldl (fun t i =>
      if v.testBit i && isEdge u (32 * getFld u ICU_PEND_SEL_WORD + i) then clearLatch (32 * getFld u ICU_PEND_SEL_WORD + i) t else t) u) := by
  intro u
  rw [exec_icuPendClear, execIcuPendClear, run_true, guardWrite_pass hpass]

theorem moderationExpiry_frees {src : Nat} (hsrc : src < 256) :
    exec (.moderationExpiry src) s = .next (icuHost (updIcu (fun t => { t with held := t.held.filter (· ≠ src) }) s)) := by
  rw [exec_moderationExpiry, execModerationExpiry, decide_eq_true hsrc, run_true]

theorem fallbackTimeout_moves {src : Nat} (hsrc : src < 256) (hfb : corePowered s (getFld s ICU_CFG_FALLBACK) = true)
    (hdel : deliverable s src = true) (hdown : corePowered s (targetOf s src) = false) :
    exec (.fallbackTimeout src) s = .next (setEvt 5 ICU_EVT_FALLBACK (incFld ICU_FALLBACKS_COUNT 1
      (updIcu (fun t => { t with moved := smSet t.moved src (getFld s ICU_CFG_FALLBACK) }) s))) := by
  rw [exec_fallbackTimeout, execFallbackTimeout, decide_eq_true hsrc, run_true]
  simp only [fallback, hfb, hdel, hdown, if_true, Bool.not_false, Bool.and_self]

theorem waitForInterrupt_shows {n : Nat} (hn : n < 4) (hon : corePowered s n = true) :
    exec (.waitForInterrupt n) s = .next (setFld (MGC_STAT_WFI n) 1 s) := by
  rw [exec_waitForInterrupt, execWaitForInterrupt, decide_eq_true hn, run_true, onlyIf, if_pos hon]

end

/-- Settles O50: a source's moderation stands while its latch clears, and each other clause is the branch its hypotheses select. -/
theorem interruptsAreClaimedAndEnded : Obligations.InterruptsAreClaimedAndEnded := by
  unfold Obligations.InterruptsAreClaimedAndEnded
  refine ⟨?edge, ?claim, fun w n src s hn hsrc hpass => ⟨?eoi, ?eoiBad⟩, ?software, ?pend, ?moderation, ?fallback, ?wait⟩
  case edge => exact fun src s hlo hhi hline hnew hsense => interruptSourceEdge_latches hlo hhi hline hnew hsense
  case claim => exact fun n src s hn hoffer hedge hmod => interruptClaim_enters hn hoffer hedge hmod
  case eoi => exact fun hnz hclaim => eoi_ends hn hsrc hpass hnz hclaim
  case eoiBad =>
    rintro rfl
    exact eoi_bad hn hpass
  case software => exact fun w v s hpass => softwareInterrupt_latches hpass
  case pend => exact fun w v s hpass => icuPendClear_clears hpass
  case moderation => exact fun src s hsrc => moderationExpiry_frees hsrc
  case fallback => exact fun src s hsrc hfb hdel hdown => fallbackTimeout_moves hsrc hfb hdel hdown
  case wait => exact fun n s hn hon => waitForInterrupt_shows hn hon

end Sys2Proof.Machine
end

section
/-! Settles O51: fault messages, fences and the watchdog (R374 to R378, R383 to R386). -/

namespace Sys2Proof.Machine
open Reg

@[simp] theorem ftest_admitted (w : Win) (p : Nat) (s : State) : ftest (admitted w p s) = ftest s := by
  simp only [ftest, isSet_admitted, getFld_admitted]

section
variable {w : Win} {s : State}

theorem headWrite_pass {p : Nat} (hreach : reaches s w p = true) (hpass : Passes w p s) (f : State → State) :
    headWrite w p f s = f (admitted w p s) := by
  rw [headWrite, if_pos hreach, guardWrite_pass hpass]

theorem isMaker_admitted {p : Nat} (hmaker : winRole s w = 2) : isMaker (admitted w p s) w = true := by
  rw [isMaker, winRole_admitted]
  exact decide_eq_true hmaker

theorem fenceReq_enqueues {p : Nat} (hp : p < 0x1000) (hreach : reaches s w p = true) (hpass : Passes w p s) (hmaker : winRole s w = 2) :
    exec (.fenceReq w p) s =
      .next (enqueue { unit := p, kind := 0x19, sev := 2, cls := 6, addr := 0, access := 1, master := p } (admitted w p s)) := by
  have hlow : ¬ 0x1000 ≤ p := by omega
  rw [exec_fenceReq, execFenceReq, decide_eq_true (by omega), run_true, headWrite_pass hreach hpass, if_pos (isMaker_admitted hmaker)]
  simp only [Machine.fenceReq, if_neg hlow]

theorem faultInject_injects (hpass : Passes w 4 s) (hft : ftest s = true) : exec (.faultInject w) s = .next (inject (admitted w 4 s)) := by
  rw [exec_faultInject, execFaultInject, run_true, guardWrite_pass hpass, ftest_admitted, if_pos hft]

theorem pgEvtSet_sets {p v : Nat} (hp : p < 0x2000) (hreach : reaches s w p = true) (hpass : Passes w p s) (hmaker : winRole s w = 2)
    (hft : ftest s = true) : exec (.pgEvtSet w p v) s = .next (setEvtBits p (v % 2 ^ 32 &&& evtMask p) (admitted w p s)) := by
  rw [exec_pgEvtSet, execPgEvtSet, decide_eq_true hp, run_true, headWrite_pass hreach hpass, isMaker_admitted hmaker, ftest_admitted, hft,
    if_pos (by rfl)]

theorem faultRearm_clears (hpass : Passes w 4 s) : exec (.faultRearm w) s = .next (setFld FLT_STAT_CAPTURED 0 (admitted w 4 s)) := by
  rw [exec_faultRearm, execFaultRearm, run_true, guardWrite_pass hpass]

/-- A page's fence is none of the fields of FLT_CMD. -/
theorem fenced_loaded_flt {op p q : Nat} (hinst : mayInstall s w = true) :
    fenced (loaded w 4 FLT_CMD_OP op [(FLT_CMD_PAGE, p)] FLT_CMD_GO FLT_CMD_RES_DONE s) q = fenced s q := by
  have hne : (PG_STAT_FENCED q).key ≠ FLT_CMD_OP.key ∧ (PG_STAT_FENCED q).key ≠ FLT_CMD_PAGE.key ∧ (PG_STAT_FENCED q).key ≠ FLT_CMD_GO.key ∧
      (PG_STAT_FENCED q).key ≠ FLT_CMD_RES_DONE.key ∧ (PG_STAT_FENCED q).key ≠ (PG_SEQ_COUNT 4).key := by
    simp only [FRef.key, PG_STAT_FENCED, FLT_CMD_OP, FLT_CMD_PAGE, FLT_CMD_GO, FLT_CMD_RES_DONE, PG_SEQ_COUNT]
    omega
  obtain ⟨hop, hpage, hgo, hdone, hseq⟩ := hne
  rw [fenced, isSet, getFld_loaded_ne hinst hop (by simpa using hpage) hgo hdone hseq]
  rfl

theorem unfence_releases {p : Nat} {found : List FoundNs} {media : List PlateMedia} (hpass : Passes w 4 s) (hinst : mayInstall s w = true)
    (hgo : isSet s FLT_CMD_GO = false) (hp : p < 2 ^ FLT_CMD_PAGE.width) (hfence : fenced s p = true) (hok : unfenceOk p = true) :
    exec (.unfence w p found media) s = .next (cmdEnd FLT_CMD_GO FLT_CMD_RES_STATUS FLT_CMD_RES_DONE .ok
      (unfenceUnit p found media (loaded w 4 FLT_CMD_OP 1 [(FLT_CMD_PAGE, p)] FLT_CMD_GO FLT_CMD_RES_DONE s))) := by
  have hpage : getFld (loaded w 4 FLT_CMD_OP 1 [(FLT_CMD_PAGE, p)] FLT_CMD_GO FLT_CMD_RES_DONE s) FLT_CMD_PAGE = p :=
    (getFld_loaded_par hinst (by decide) (by decide) (by decide)).trans (Nat.mod_eq_of_lt hp)
  rw [exec_unfence, execUnfence, run_true, cmdWrite_pass hpass hinst hgo, unfenceCmd]
  simp only [hpage, fenced_loaded_flt hinst, hfence, hok, Bool.not_true, Bool.false_eq_true, or_self, if_false]

end

/-! ### The watchdog (R386) -/

section
variable {s : State}

theorem watchdogKick_restarts {n : Nat} (hpass : Passes (.core n) 4 s) (hadmin : getFld s FLT_WDOG_ADMIN_CORE = n) :
    exec (.watchdogKick (.core n)) s = .next (wdogStart s) := by
  rw [exec_watchdogKick, execWatchdogKick, run_true, guardWrite_pass hpass]
  exact congrArg Host.Outcome.next (if_pos hadmin)

theorem watchdogTimeout_halts (hon : isSet s (MGC_STAT_POWERED (getFld s FLT_WDOG_ADMIN_CORE)) = true) (hphase : 2 ≤ getFld s CHIP_DEV_STAT_PHASE)
    (hover : s.flt.kick + getFld s FLT_WDOG_TIMEOUT_MS * 1000000 ≤ devTime s) (hfence : devFenced s = false) (hstate : getFld s PWR_STAT_STATE ≠ 4) :
    exec .watchdogTimeout s = .next (haltCore (getFld s FLT_WDOG_ADMIN_CORE) (fltEvt FLT_EVT_WDOG (enqueue
      { unit := 4, kind := 0x11, sev := kindSev 0x11, cls := kindClass 0x11, addr := 0, access := 0,
        master := 0x110 + getFld s FLT_WDOG_ADMIN_CORE } s))) := by
  have hno : ¬ ((!isSet s (MGC_STAT_POWERED (getFld s FLT_WDOG_ADMIN_CORE))) = true ∨ getFld s CHIP_DEV_STAT_PHASE < 2 ∨
      devTime s < s.flt.kick + getFld s FLT_WDOG_TIMEOUT_MS * 1000000) := by
    simp only [hon, Bool.not_true, Bool.false_eq_true, false_or]
    omega
  have hrun : ¬ (devFenced s = true ∨ getFld s PWR_STAT_STATE = 4) := by simp [hfence, hstate]
  rw [exec_watchdogTimeout, execWatchdogTimeout, run_true, watchdog]
  exact congrArg Host.Outcome.next ((if_neg hno).trans (if_neg hrun))

end

/-- Settles O51: a maker's window stands through its admission, a page's fence is no field of FLT_CMD, and each clause is then the branch its hypotheses
select. -/
theorem faultsAreLoggedAndFenced : Obligations.FaultsAreLoggedAndFenced := by
  unfold Obligations.FaultsAreLoggedAndFenced
  refine ⟨fun m rest s hqueue => ⟨?message, ?handled⟩, ?fenceReq, ?inject, ?evtSet, ?rearm, ?unfence, ?kick, ?timeout⟩
  case message => rw [exec_faultMessage, execFaultMessage, run_true]
  case handled => rw [handleFault, hqueue]
  case fenceReq => exact fun w p s hp hreach hpass hmaker => fenceReq_enqueues hp hreach hpass hmaker
  case inject => exact fun w s hpass hft => faultInject_injects hpass hft
  case evtSet => exact fun w p v s hp hreach hpass hmaker hft => pgEvtSet_sets hp hreach hpass hmaker hft
  case rearm => exact fun w s hpass => faultRearm_clears hpass
  case unfence => exact fun w p found media s hpass hinst hgo hp hfence hok => unfence_releases hpass hinst hgo hp hfence hok
  case kick => exact fun n s hpass hadmin => watchdogKick_restarts hpass hadmin
  case timeout => exact fun s hon hphase hover hfence hstate => watchdogTimeout_halts hon hphase hover hfence hstate

end Sys2Proof.Machine
end

section
/-! The end of P5 takes the subsystem IDs into the configuration spaces of port 0's and port 1's functions (R404). -/

namespace Sys2Proof.Machine
open Reg

/-- What a start-up phase of a device that is well ends with. -/
def healthyFacts : PhaseFacts :=
  { inst := true, ft := true, node := 0, hclk0 := true, hclk1 := true, xtal := true, wakeNs := 0, serdes := [], sensors := true, sram := true }

/-- The end of P5, with port 0's subsystem vendor ID programmed to 1. -/
def vendorProgrammed : State := setFld (HEP_SUBSYS_SVID 0) 1 (setFld CHIP_DEV_STAT_PHASE 5 State.reset)

/-- Refutes O52: the clause on P5's end leaves out that it takes the IDs of HEP_SUBSYS over, so that a programmed one shows in the model alone. -/
theorem not_startUpGoesThroughItsPhases : ¬ Obligations.StartUpGoesThroughItsPhases := by
  unfold Obligations.StartUpGoesThroughItsPhases
  rintro ⟨-, -, -, -, hends, -⟩
  obtain ⟨-, -, -, hend, -⟩ := hends healthyFacts vendorProgrammed (by decide) (by decide) (by decide)
  have htaken : valueAfter (·.host.ids) (exec (.startupPhaseEnd healthyFacts) vendorProgrammed) = some [1, 8045] := by decide +kernel
  have hkept : valueAfter (·.host.ids) (exec (.startupPhaseEnd healthyFacts) vendorProgrammed) = some [8045, 8045] := by
    rw [hend (by decide)]
    decide +kernel
  exact absurd (htaken.symm.trans hkept) (by decide)

end Sys2Proof.Machine
end

section
/-! Settles O53: what the resets leave (R158, R397, R401, R406, R431). -/

namespace Sys2Proof.Machine
open Reg

/-! ### What stands while a reset is completed -/

/-- The in-flight state, device time and the flash stand. -/
def Stands (s t : State) : Prop := t.io = s.io ∧ t.timeQ = s.timeQ ∧ t.flash = s.flash

theorem Stands.refl (s : State) : Stands s s := ⟨rfl, rfl, rfl⟩

theorem Stands.trans {s t u : State} (h : Stands s t) (h' : Stands t u) : Stands s u := by
  obtain ⟨hio, htime, hflash⟩ := h
  obtain ⟨hio', htime', hflash'⟩ := h'
  exact ⟨hio'.trans hio, htime'.trans htime, hflash'.trans hflash⟩

theorem stands_setFld (f : FRef) (v : Nat) (s : State) : Stands s (setFld f v s) := ⟨rfl, rfl, rfl⟩

theorem stands_setEvt (p bit : Nat) (s : State) : Stands s (setEvt p bit s) := ⟨setEvt_io .., setEvt_timeQ .., setEvt_flash ..⟩

theorem stands_foldl {α : Type} {f : State → α → State} (hf : ∀ t x, Stands t (f t x)) (l : List α) (s : State) : Stands s (l.foldl f s) := by
  induction l generalizing s with
  | nil => exact .refl s
  | cons x l ih => exact (hf s x).trans (ih _)

theorem stands_bemFollow (s : State) : Stands s (bemFollow s) := by
  simp only [bemFollow]
  generalize (if getFld s PWR_STAT_STATE = 4 then 1 else if getFld s PWR_STAT_STATE = 3 ∨ getFld s PWR_STAT_STATE = 5 then 2 else 0) = new
  split
  · exact ⟨rfl, rfl, rfl⟩
  · split
    · exact ⟨rfl, rfl, rfl⟩
    · split <;> exact ⟨rfl, rfl, rfl⟩

theorem stands_setPower (st : Nat) (s : State) : Stands s (setPower st s) := by
  unfold setPower
  split
  · exact .refl s
  · exact (stands_setFld _ _ s).trans ((stands_bemFollow _).trans (stands_setEvt _ _ _))

theorem stands_startP1 (s : State) : Stands s (startP1 s) := by
  unfold startP1
  dsimp only
  generalize ht : { s with pwr := { s.pwr with due := none, good := false }, sched := { s.sched with epoch := epochAt s } } = t
  have hst : Stands s t := by
    rw [← ht]
    exact ⟨rfl, rfl, rfl⟩
  have hwake : Stands t (wakeFlds.foldl (fun t f => setFld f 0 t) t) := stands_foldl (fun _ _ => stands_setFld ..) wakeFlds t
  generalize wakeFlds.foldl (fun t f => setFld f 0 t) t = u at hwake ⊢
  have hpower := stands_setPower 0 u
  generalize setPower 0 u = v at hpower ⊢
  exact hst.trans (hwake.trans (hpower.trans ((stands_setFld ..).trans ((stands_setFld ..).trans (stands_setFld ..)))))

theorem stands_counterLoad (s : State) : Stands s (counterLoad s) := by
  unfold counterLoad
  split <;> exact ⟨rfl, rfl, rfl⟩

theorem stands_resumeMeasures (s : State) : Stands s (resumeMeasures s) := ⟨rfl, rfl, rfl⟩

theorem stands_deviceReset (code : Nat) (s : State) :
    Stands (resetState code (slewStop (onlyIf (decide (code = 3 ∨ code = 4)) flushHeld s))) (deviceReset code s) := by
  unfold deviceReset
  dsimp only
  generalize resetState code (slewStop (onlyIf (decide (code = 3 ∨ code = 4)) flushHeld s)) = s1
  have hload : Stands s1 (if code = 0 then counterLoad s1 else s1) := by
    split
    · exact stands_counterLoad s1
    · exact .refl s1
  generalize (if code = 0 then counterLoad s1 else s1) = s2 at hload ⊢
  refine hload.trans ?_
  generalize hs3 : (if code ≤ 2 then resumeMeasures s2
    else showStore (setFld EVR_NEXT_SEQ_SEQ (((newestRec (storedRecs s2)).map (fun r => r.seq + 1)).getD 0) s2)) = s3
  have hshow : Stands s2 s3 := by
    rw [← hs3]
    split
    · exact stands_resumeMeasures s2
    · exact ⟨rfl, rfl, rfl⟩
  refine hshow.trans ?_
  generalize hs4 : showKeys (setFlag CHIP_DEV_STAT_COLD (decide (code = 0)) (setFld PWR_STAT_LAST_RESET code s3)) = s4
  have hkeys : Stands s3 s4 := by
    rw [← hs4]
    exact ⟨rfl, rfl, rfl⟩
  refine hkeys.trans ?_
  split
  · exact Stands.trans (t := { s4 with pwr := { s4.pwr with due := some code } }) ⟨rfl, rfl, rfl⟩ (stands_bemFollow _)
  · exact (stands_bemFollow s4).trans (stands_startP1 _)

/-! ### The held records are written before a reset that keeps device time -/

theorem recPut_timeQ {again : State → State} (hagain : ∀ t, (again t).timeQ = t.timeQ) (o : Occ) (ok : Bool) (s : State) :
    (recPut o ok again s).timeQ = s.timeQ := by
  have hlost : ∀ lost : Bool, (if lost then setEvt 6 EVR_EVT_OVERWRITE (incFld EVR_OVERWR_COUNT 1 s) else s).timeQ = s.timeQ := fun lost => by
    split
    · rw [setEvt_timeQ, incFld, setFld_timeQ]
    · rfl
  have hretire : ∀ (p : Nat) (t : State), (retirePage p t).timeQ = t.timeQ := fun p t => by
    have hstore : ∀ u : State, (showStore u).timeQ = u.timeQ := fun _ => rfl
    rw [retirePage, hstore, setEvt_timeQ, updFlash_timeQ]
  unfold recPut
  split
  · rw [setEvt_timeQ, incFld, setFld_timeQ]
  · dsimp only
    split
    · rw [hagain, hretire]
    · split
      · rw [setEvt_timeQ, hretire, flashErase, updFlash_timeQ]
      · exact hlost _

theorem recWrite_timeQ (n : Nat) (o : Occ) (ok : Bool) (s : State) : (recWrite n o ok s).timeQ = s.timeQ := by
  induction n generalizing s with
  | zero => rfl
  | succ n ih => exact recPut_timeQ ih o ok s

theorem writeDue_timeQ (ok : Bool) (s : State) : (writeDue ok s).timeQ = s.timeQ := by
  unfold writeDue
  split
  · rfl
  · dsimp only
    generalize (32768 : Nat) = n
    split
    · exact recWrite_timeQ ..
    · rw [updEvr_timeQ, recWrite_timeQ]

theorem releaseHeld_timeQ (code : Nat) (s : State) : (releaseHeld code s).timeQ = s.timeQ := by
  unfold releaseHeld
  split <;> rfl

theorem foldl_timeQ {α : Type} {f : State → α → State} (hf : ∀ t x, (f t x).timeQ = t.timeQ) (l : List α) (s : State) :
    (l.foldl f s).timeQ = s.timeQ := by
  induction l generalizing s with
  | nil => rfl
  | cons x l ih => rw [List.foldl_cons, ih, hf]

theorem flushHeld_timeQ (s : State) : (flushHeld s).timeQ = s.timeQ := by
  unfold flushHeld
  split
  · rfl
  · exact (foldl_timeQ (fun _ _ => writeDue_timeQ ..) _ _).trans (foldl_timeQ (fun _ _ => releaseHeld_timeQ ..) _ _)

/-! ### The registers after a reset -/

theorem smGet_filter_not {α : Type} {m : SMap α} {p : Nat → Bool} {k : Nat} (hk : p k = false) : smGet (m.filter (fun q => p q.1)) k = none := by
  induction m with
  | nil => rfl
  | cons q m ih =>
    rw [List.filter_cons]
    split
    next hq =>
      rw [smGet, if_neg (by rintro rfl; rw [hq] at hk; cases hk)]
      exact ih
    next => exact ih

/-- A field of no always-on register has its reset value. -/
theorem getFld_resetState {f : FRef} (haon : aonField f.key = false) (hchip : f.key ≠ CHIP_DEV_STAT_COLD.key) (hbem : f.key ≠ BEM_STAT_COLD.key)
    (code : Nat) (s : State) : getFld (resetState code s) f = f.reset := by
  by_cases hcode : code = 0
  · have hregs : (resetState code s).regs = State.reset.regs := by
      unfold resetState
      exact if_pos (decide_eq_true hcode)
    rw [getFld, hregs]
    exact getFld_reset hchip hbem
  · have hregs : (resetState code s).regs = s.regs.filter (fun q => aonField q.1) := by
      unfold resetState
      exact if_neg (by simpa using hcode)
    rw [getFld, hregs, smGetD, smGet_filter_not haon]
    rfl

/-- The registers outside the pack's page that the start of P1 writes. -/
def p1Flds : List FRef :=
  wakeFlds ++ [PWR_STAT_STATE, PG_EVT_EVT 1, PG_EVT_FIRST_BIT 1, PG_EVT_FIRST_VALID 1, CHIP_PWR_CYCLES_COUNT, PWR_RAIL_SEQ, CHIP_DEV_STAT_PHASE]

theorem getFld_startP1 {f : FRef} (hpack : f.pageKey ≠ 7) (h : ∀ g ∈ p1Flds, f.key ≠ g.key) (s : State) : getFld (startP1 s) f = getFld s f := by
  obtain ⟨hwake, hrest⟩ := List.forall_mem_append.mp h
  simp only [List.forall_mem_cons] at hrest
  obtain ⟨hstate, hevt, hbit, hvalid, hcycles, hseq, hphase, -⟩ := hrest
  have hfold : ∀ (l : List FRef) (t : State), (∀ g ∈ l, f.key ≠ g.key) → getFld (l.foldl (fun t g => setFld g 0 t) t) f = getFld t f := fun l t hl => by
    induction l generalizing t with
    | nil => rfl
    | cons g l ih =>
      rw [List.foldl_cons, ih _ fun k hk => hl k (List.mem_cons_of_mem _ hk), getFld_setFld_ne (hl g List.mem_cons_self)]
  unfold startP1
  dsimp only
  rw [getFld_setFld_ne hphase, getFld_setFld_ne hseq, incFld, getFld_setFld_ne hcycles, getFld_setPower hpack hstate hevt hbit hvalid, hfold _ _ hwake]
  rfl

theorem phase_startP1 (s : State) : phase (startP1 s) = 1 := getFld_setFld_self ..

theorem lastReset_deviceReset {code : Nat} (hcode : code < 8) (s : State) : getFld (deviceReset code s) PWR_STAT_LAST_RESET = code := by
  unfold deviceReset
  dsimp only
  generalize (if code ≤ 2 then resumeMeasures _ else showStore _) = s3
  have hset : ∀ cold, getFld (showKeys (setFlag CHIP_DEV_STAT_COLD cold (setFld PWR_STAT_LAST_RESET code s3))) PWR_STAT_LAST_RESET = code := fun cold => by
    rw [showKeys]
    simp (disch := decide) only [setFlag, getFld_setFld_ne, getFld_setFld_self]
    exact Nat.mod_eq_of_lt hcode
  split
  · rw [getFld_bemFollow (by decide)]
    exact hset _
  · rw [getFld_startP1 (by decide) (by decide), getFld_bemFollow (by decide), hset]

/-- A reset that begins with P0 leaves PHASE as it is after reset. -/
theorem phase_deviceReset_p0 {code : Nat} (hcode : code ≤ 2) (s : State) : phase (deviceReset code s) = 0 := by
  unfold deviceReset
  dsimp only
  rw [if_pos hcode, if_pos hcode, phase, getFld_bemFollow (by decide)]
  have hreset : ∀ t, getFld (resetState code t) CHIP_DEV_STAT_PHASE = 0 := fun t => getFld_resetState (by decide) (by decide) (by decide) code t
  have hload : ∀ t, getFld (counterLoad t) CHIP_DEV_STAT_PHASE = getFld t CHIP_DEV_STAT_PHASE := fun t => by
    unfold counterLoad
    split
    · rw [getFld_setFld_ne (by decide), getFld_setFld_ne (by decide)]
      rfl
    · rfl
  have hshow : ∀ t, getFld (resumeMeasures t) CHIP_DEV_STAT_PHASE = getFld t CHIP_DEV_STAT_PHASE := fun t => by
    unfold resumeMeasures showStore
    simp (disch := decide) only [getFld_setFld_ne, getFld_updEvr]
  have hkeys : ∀ (u : State) (pwr : PwrSt), getFld { u with pwr := pwr } CHIP_DEV_STAT_PHASE = getFld u CHIP_DEV_STAT_PHASE := fun u pwr => rfl
  rw [hkeys, showKeys]
  simp (disch := decide) only [setFlag, getFld_setFld_ne]
  rw [hshow]
  split
  · rw [hload, hreset]
  · exact hreset _

theorem phase_deviceReset_p1 {code : Nat} (hcode : 2 < code) (s : State) : phase (deviceReset code s) = 1 := by
  unfold deviceReset
  dsimp only
  rw [if_neg (by omega), if_neg (by omega), phase_startP1]

theorem cold_deviceReset (s : State) : isSet (deviceReset 0 s) CHIP_DEV_STAT_COLD = true := by
  unfold deviceReset
  dsimp only
  generalize (if 0 ≤ 2 then resumeMeasures _ else showStore _) = s3
  have hset : getFld (showKeys (setFlag CHIP_DEV_STAT_COLD true (setFld PWR_STAT_LAST_RESET 0 s3))) CHIP_DEV_STAT_COLD = 1 := by
    rw [showKeys]
    simp (disch := decide) only [setFlag, getFld_setFld_ne, getFld_setFld_self]
    rfl
  have hkeys : ∀ (u : State) (pwr : PwrSt), getFld { u with pwr := pwr } CHIP_DEV_STAT_COLD = getFld u CHIP_DEV_STAT_COLD := fun u pwr => rfl
  rw [isSet, if_pos (by omega), getFld_bemFollow (by decide), hkeys, decide_eq_true rfl, hset]
  rfl

/-! ### The resets -/

section
variable {s : State}

/-- A reset's in-flight state is that of reset; device time and the flash stand over all but the cold one. -/
theorem deviceReset_early {code : Nat} (hcode : code ≤ 2) (s : State) : (deviceReset code s).io = State.reset.io ∧
    (deviceReset code s).timeQ = (if code = 0 then 0 else s.timeQ) ∧ (deviceReset code s).flash = s.flash := by
  obtain ⟨hio, htime, hflash⟩ := stands_deviceReset code s
  rw [hio, htime, hflash, onlyIf, if_neg (by simp; omega)]
  refine ⟨rfl, ?_, rfl⟩
  simp only [resetState, decide_eq_true_eq]
  rfl

theorem deviceReset_late {code : Nat} (hcode : code = 3 ∨ code = 4) (s : State) : (deviceReset code s).io = State.reset.io ∧
    (deviceReset code s).timeQ = s.timeQ ∧ (deviceReset code s).flash = (flushHeld s).flash := by
  obtain ⟨hio, htime, hflash⟩ := stands_deviceReset code s
  have hcold : ¬ decide (code = 0) = true := by simp; omega
  rw [hio, htime, hflash, onlyIf, if_pos (decide_eq_true hcode)]
  refine ⟨rfl, ?_, rfl⟩
  simp only [resetState, if_neg hcold]
  exact flushHeld_timeQ s

theorem requestReset_resets {code : Nat} (hstate : getFld s PWR_STAT_STATE ≠ 4) (hdue : s.pwr.due = none) (hdump : s.cache.dumping = false)
    (hclean : dumpOk s = false) : requestReset code s = deviceReset code s := by
  rw [requestReset, if_neg (by simp [hstate, hdue]), hdump, hclean, if_neg Bool.false_ne_true, if_neg Bool.false_ne_true]

theorem requestReset_dumps {code : Nat} (hstate : getFld s PWR_STAT_STATE ≠ 4) (hdue : s.pwr.due = none) (hdump : s.cache.dumping = false)
    (hdirty : dumpOk s = true) : requestReset code s = startDump 3 code s := by
  rw [requestReset, if_neg (by simp [hstate, hdue]), hdump, if_neg Bool.false_ne_true, if_pos hdirty]

theorem flushHeld_idle (hoff : evrWrites s = false) : flushHeld s = s := by rw [flushHeld, hoff]; rfl

/-- An admitted software reset changes the session and its measures alone. -/
theorem softwareReset_frame (w : Win) (s : State) : { needRole w (admitted w 1 s) with role := s.role, evr := s.evr } = s := by
  cases w with
  | pf n => exact admitted_frame (.pf n) 1 s
  | vf port func => rfl
  | core n => rfl

theorem softwareReset_requests {w : Win} (hpass : Passes w 1 s) (hinst : mayInstall s w = true) :
    exec (.softwareReset w) s = .next (requestReset 4 (needRole w (admitted w 1 s))) := by
  rw [exec_softwareReset, execSoftwareReset, run_true, guardWrite_pass hpass, mayInstall_admitted, if_pos hinst]

end

/-- Settles O53: the registers of the resets' fields are set after the state is taken back to that of reset, and nothing a reset does after that writes
the in-flight state, device time or the flash. -/
theorem resetsLeaveTheirState : Obligations.ResetsLeaveTheirState := by
  unfold Obligations.ResetsLeaveTheirState
  refine ⟨fun s => ?cold, fun io s hclk => ?supply, fun s hstate hdue hdump => ⟨fun hclean => ?pin, fun hdirty => ?dump⟩,
    fun w s hpass hinst hstate hdue hdump hclean => ?software⟩
  case cold =>
    obtain ⟨hio, htime, hflash⟩ := deviceReset_early (code := 0) (by omega) s
    exact ⟨by rw [exec_coldReset, execColdReset, run_true], lastReset_deviceReset (by omega) s, phase_deviceReset_p0 (by omega) s, cold_deviceReset s,
      hio, htime, hflash⟩
  case supply =>
    have hcode : (if io then 2 else 1) ≤ 2 ∧ (if io then 2 else 1) ≠ 0 := by cases io <;> decide
    obtain ⟨hio, htime, hflash⟩ := deviceReset_early hcode.1 s
    rw [if_neg hcode.2] at htime
    refine ⟨_, by rw [exec_supplyReset, execSupplyReset, run_true, supervised, if_pos hclk], lastReset_deviceReset (by omega) s,
      phase_deviceReset_p0 hcode.1 s, hio, htime, hflash⟩
  case pin =>
    obtain ⟨hio, htime, hflash⟩ := deviceReset_late (code := 3) (.inl rfl) s
    exact ⟨_, by rw [exec_pinReset, execPinReset, run_true, requestReset_resets hstate hdue hdump hclean], lastReset_deviceReset (by omega) s,
      phase_deviceReset_p1 (by omega) s, hio, htime, hflash, fun hoff => hflash.trans (congrArg State.flash (flushHeld_idle hoff))⟩
  case dump => rw [exec_pinReset, execPinReset, run_true, requestReset_dumps hstate hdue hdump hdirty]
  case software =>
    have hframe := softwareReset_frame w s
    have hexec := softwareReset_requests hpass hinst
    generalize needRole w (admitted w 1 s) = t at hframe hexec ⊢
    have hregs : getFld t PWR_STAT_STATE = getFld s PWR_STAT_STATE := (congrArg (getFld · PWR_STAT_STATE) hframe :)
    have hdirty : dumpOk t = dumpOk s := (congrArg dumpOk hframe :)
    have hpwr : t.pwr = s.pwr := (congrArg State.pwr hframe :)
    have hcache : t.cache = s.cache := (congrArg State.cache hframe :)
    obtain ⟨hio, htime, hflash⟩ := deviceReset_late (code := 4) (.inr rfl) t
    refine ⟨_, hexec.trans (congrArg Host.Outcome.next (requestReset_resets (hregs ▸ hstate) (hpwr ▸ hdue) (hcache ▸ hdump) (hdirty.trans hclean))),
      lastReset_deviceReset (by omega) t, phase_deviceReset_p1 (by omega) t, hio, htime.trans (congrArg State.timeQ hframe :), hflash⟩

end Sys2Proof.Machine
end

section
/-! Settles O54: the supervisor's watch over the supplies, the clocks, the temperature and the counters (R391 to R396). -/

namespace Sys2Proof.Machine
open Reg

section
variable {s : State}

/-! ### Supplies -/

@[simp] theorem getFld_sketchExtreme (code : Nat) (v : Int) (s : State) (f : FRef) : getFld (sketchExtreme code v s) f = getFld s f := rfl

theorem supplyWarning_warns {io : Bool} {mv : Nat} (hclk : cclkOn s = true) (hlow : mv < (if io then 1710 else 855))
    (hflag : isSet s (if io then PWR_STAT_VDDIO_WARN else PWR_STAT_VDD_WARN) = false) :
    exec (.supplyWarning io mv) s = .next (setEvt 1 (if io then PWR_EVT_VDDIO_WARN else PWR_EVT_VDD_WARN)
      (setFld (if io then PWR_STAT_VDDIO_WARN else PWR_STAT_VDD_WARN) 1 (showMv (if io then 1 else 0) mv s))) := by
  have hno : ¬ ((if io then 1710 else 855) ≤ mv ∨ isSet s (if io then PWR_STAT_VDDIO_WARN else PWR_STAT_VDD_WARN) = true) := by
    rw [hflag]
    simpa using hlow
  rw [exec_supplyWarning, execSupplyWarning, run_true, onlyIf, supervised, if_pos hclk, supplyWarn]
  exact congrArg Host.Outcome.next (if_neg hno)

theorem supplyWarningClear_clears {io : Bool} {mv : Nat} (hclk : cclkOn s = true) (hhigh : (if io then 1740 else 870) < mv) :
    exec (.supplyWarningClear io mv) s =
      .next (setFld (if io then PWR_STAT_VDDIO_WARN else PWR_STAT_VDD_WARN) 0 (showMv (if io then 1 else 0) mv s)) := by
  rw [exec_supplyWarningClear, execSupplyWarningClear, run_true, onlyIf, supervised, if_pos hclk, supplyClear]
  exact congrArg Host.Outcome.next (if_pos hhigh)

/-- The core supply's voltage is shown, and the lowest kept. -/
theorem getFld_showMv_vdd {mv : Nat} (hmv : mv < 65536) (s : State) :
    getFld (showMv 0 mv s) PWR_VDD_MV = mv ∧ getFld (showMv 0 mv s) PWR_VDD_MIN_MV = min (getFld s PWR_VDD_MIN_MV) mv := by
  have hcap : min mv 65535 = mv := by omega
  have hmin : min (getFld s PWR_VDD_MIN_MV) mv < 65536 := by omega
  rw [showMv, if_pos rfl]
  dsimp only
  rw [hcap, getFld_sketchExtreme, getFld_sketchExtreme, getFld_setFld_ne (by decide), getFld_setFld_self, getFld_setFld_self]
  exact ⟨Nat.mod_eq_of_lt hmv, Nat.mod_eq_of_lt hmin⟩

theorem getFld_showMv_vddio {mv : Nat} (hmv : mv < 65536) (s : State) : getFld (showMv 1 mv s) PWR_VDDIO_MV = mv := by
  have hcap : min mv 65535 = mv := by omega
  rw [showMv, if_neg (by omega), if_pos rfl]
  dsimp only
  rw [hcap, getFld_setFld_ne (by decide), getFld_setFld_self]
  exact Nat.mod_eq_of_lt hmv

theorem supplyWarning_vdd {mv : Nat} (hclk : cclkOn s = true) (hlow : mv < 855) (hflag : isSet s PWR_STAT_VDD_WARN = false) :
    ∃ t, exec (.supplyWarning false mv) s = .next t ∧ isSet t PWR_STAT_VDD_WARN = true ∧ getFld t PWR_VDD_MV = mv ∧
      getFld t PWR_VDD_MIN_MV = min (getFld s PWR_VDD_MIN_MV) mv := by
  obtain ⟨hnow, hmin⟩ := getFld_showMv_vdd (mv := mv) (by omega) s
  have hexec : exec (.supplyWarning false mv) s = .next (setEvt 1 PWR_EVT_VDD_WARN (setFld PWR_STAT_VDD_WARN 1 (showMv 0 mv s))) :=
    supplyWarning_warns (io := false) hclk hlow hflag
  refine ⟨_, hexec, ?_, ?_, ?_⟩
  · rw [isSet, getFld_setEvt_other (by decide) (by decide)]
    exact congrArg (fun v => decide (v = 1)) (getFld_setFld_self PWR_STAT_VDD_WARN 1 _)
  · exact (getFld_setEvt_other (by decide) (by decide) _ _).trans ((getFld_setFld_ne (by decide) _ _).trans hnow)
  · exact (getFld_setEvt_other (by decide) (by decide) _ _).trans ((getFld_setFld_ne (by decide) _ _).trans hmin)

theorem supplyWarningClear_vddio {mv : Nat} (hclk : cclkOn s = true) (hhigh : 1740 < mv) (hmv : mv < 65536) :
    ∃ t, exec (.supplyWarningClear true mv) s = .next t ∧ isSet t PWR_STAT_VDDIO_WARN = false ∧ getFld t PWR_VDDIO_MV = mv := by
  have hexec : exec (.supplyWarningClear true mv) s = .next (setFld PWR_STAT_VDDIO_WARN 0 (showMv 1 mv s)) :=
    supplyWarningClear_clears (io := true) hclk hhigh
  refine ⟨_, hexec, ?_, ?_⟩
  · exact congrArg (fun v => decide (v = 1)) (getFld_setFld_self PWR_STAT_VDDIO_WARN 0 _)
  · exact (getFld_setFld_ne (by decide) _ _).trans (getFld_showMv_vddio hmv s)

/-! ### Temperature -/

theorem tempWarning_warns {x : Int} (hsense : sensing s = true) (hwarm : 10 * (getFld s PWR_TEMP_THR_WARN_C : Int) ≤ x) (hnew : 13 ∉ s.icu.lines) :
    exec (.tempWarning x) s = .next (lineEdge 13 true (setEvt 1 PWR_EVT_TEMP_WARN (showTemp x s))) := by
  rw [exec_tempWarning, execTempWarning, run_true, onlyIf, if_pos hsense, tempWarn]
  exact congrArg Host.Outcome.next ((if_pos hwarm).trans (if_neg hnew))

theorem tempCritical_fences {x : Int} (hsense : sensing s = true) (hhot : 10 * (getFld s PWR_TEMP_THR_CRIT_C : Int) ≤ x) :
    exec (.tempCritical x) s = .next (supervisorFence (lineEdge 14 true (showTemp x s))) := by
  rw [exec_tempCritical, execTempCritical, run_true, onlyIf, if_pos hsense, Machine.tempCritical]
  exact congrArg Host.Outcome.next (if_pos hhot)

/-! ### Clocks -/

theorem hclkLost_used {n : Nat} (hn : n < 2) (hclk : cclkOn s = true) (hsrc : getFld s CLK_STAT_PLL_SRC = n) :
    exec (.hclkLost n false) s = .next (supervisorFence (setEvt 2 CLK_EVT_HCLK_LOST
      (setFld (if n = 0 then CLK_STAT_HCLK0_OK else CLK_STAT_HCLK1_OK) 0 s))) := by
  rw [exec_hclkLost, execHclkLost, decide_eq_true hn, run_true, onlyIf, supervised, if_pos hclk, Machine.hclkLost]
  exact congrArg Host.Outcome.next (if_pos hsrc)

theorem hclkLost_other {n : Nat} (hn : n < 2) (hclk : cclkOn s = true) (hsrc : getFld s CLK_STAT_PLL_SRC ≠ n) :
    exec (.hclkLost n false) s = .next (setFld (if n = 0 then CLK_STAT_HCLK0_OK else CLK_STAT_HCLK1_OK) 0 s) := by
  rw [exec_hclkLost, execHclkLost, decide_eq_true hn, run_true, onlyIf, supervised, if_pos hclk, Machine.hclkLost]
  exact congrArg Host.Outcome.next (if_neg hsrc)

theorem xtalStop_reports (hclk : cclkOn s = true) (hxtal : isSet s CLK_STAT_XTAL_OK = true) :
    exec .xtalStop s = .next (lineEdge 12 true (setEvt 2 CLK_EVT_XTAL_STOP (setFld CLK_STAT_XTAL_OK 0 s))) := by
  rw [exec_xtalStop, execXtalStop, run_true, hclk, hxtal]
  rfl

/-- A running core clock opens no gap. -/
theorem xtalResume_shows (hxtal : isSet s CLK_STAT_XTAL_OK = false) (hp0 : s.pwr.p0 = true) (hclk : cclkOn s = true) :
    exec .xtalResume s = .next (lineEdge 12 false (setFld CLK_STAT_XTAL_OK 1 s)) := by
  have hpwr : updPwr (fun p => { p with gap := p.gap || !cclkOn s }) s = s := by rw [hclk, Bool.not_true, updPwr, Bool.or_false]
  rw [exec_xtalResume, execXtalResume, run_true, hxtal, hp0]
  exact congrArg (fun u => Host.Outcome.next (lineEdge 12 false (setFld CLK_STAT_XTAL_OK 1 u))) hpwr

/-! ### Alarms, minutes and the lowest voltages -/

theorem alarmFire_zero (hen : isSet s CLK_ALARM_CTL_EN0 = true) (hdue : alarmAt s 0 ≤ devTime s) :
    exec (.alarmFire 0) s = .next (setFld CLK_ALARM_CTL_FIRED0 1 s) := by
  rw [exec_alarmFire, execAlarmFire, decide_eq_true (by decide), run_true, onlyIf]
  exact congrArg Host.Outcome.next (if_pos (Bool.and_eq_true_iff.mpr ⟨hen, decide_eq_true hdue⟩))

theorem alarmFire_one (hen : isSet s CLK_ALARM_CTL_EN1 = true) (hdue : alarmAt s 1 ≤ devTime s) :
    exec (.alarmFire 1) s = .next (setFld CLK_ALARM_CTL_FIRED1 1 s) := by
  rw [exec_alarmFire, execAlarmFire, decide_eq_true (by decide), run_true, onlyIf]
  exact congrArg Host.Outcome.next (if_pos (Bool.and_eq_true_iff.mpr ⟨hen, decide_eq_true hdue⟩))

theorem opMin_counterWrite (s : State) : opMin (counterWrite s) = opMin s := rfl

theorem opMinuteTick_counts (hdue : s.pwr.due = none) (hstandby : getFld s PWR_STAT_STATE ≠ 3) (hoff : getFld s PWR_STAT_STATE ≠ 5) :
    ∃ t, exec .opMinuteTick s = .next t ∧ opMin t = (opMin s + 1) % 2 ^ 32 := by
  refine ⟨_, by rw [exec_opMinuteTick, execOpMinuteTick, run_true], ?_⟩
  have hcount : opMin (incFld CHIP_OP_MINUTES_COUNT 1 s) = (opMin s + 1) % 2 ^ 32 := getFld_setFld_self ..
  rw [opTick, if_neg (by simp [hdue, hstandby, hoff])]
  dsimp only
  split
  · rw [opMin_counterWrite, hcount]
  · exact hcount

theorem pwrClrMin_clears {w : Win} {v : Nat} (hpass : Passes w 1 s) (hv : v % 2 = 1) :
    ∃ t, exec (.pwrClrMin w v) s = .next t ∧ getFld t PWR_VDD_MIN_MV = 0xFFFF ∧ getFld t PWR_VDDIO_MIN_MV = 0xFFFF ∧
      getFld t PWR_VIN_MIN_MV = 0xFFFF := by
  refine ⟨_, by rw [exec_pwrClrMin, execPwrClrMin, run_true, guardWrite_pass hpass, if_pos hv], ?_, ?_, ?_⟩
  · rw [getFld_setFld_self]
    rfl
  · rw [getFld_setFld_ne (by decide), getFld_setFld_self]
    rfl
  · rw [getFld_setFld_ne (by decide), getFld_setFld_ne (by decide), getFld_setFld_self]
    rfl

end

/-- Settles O54: a voltage in the register's range is shown as it is, a resumed crystal with a running core clock opens no gap, and each other clause is
the branch its hypotheses select. -/
theorem supplyClockAndHeatAreWatched : Obligations.SupplyClockAndHeatAreWatched := by
  unfold Obligations.SupplyClockAndHeatAreWatched
  refine ⟨?vdd, fun io mv s hclk => ⟨?warn, ?clear⟩, ?vddio, ?warm, ?hot, fun s hclk => ⟨?hclk0, ?hclk1, ?other⟩, ?stop, ?resume,
    fun s => ⟨?alarm0, ?alarm1⟩, ?minute, ?clrMin⟩
  case vdd => exact fun mv s hclk hlow hflag => supplyWarning_vdd hclk hlow hflag
  case warn => exact fun hlow hflag => supplyWarning_warns hclk hlow hflag
  case clear => exact fun hhigh => supplyWarningClear_clears hclk hhigh
  case vddio => exact fun mv s hclk hhigh hmv => supplyWarningClear_vddio hclk hhigh hmv
  case warm => exact fun x s hsense hwarm hnew => tempWarning_warns hsense hwarm hnew
  case hot => exact fun x s hsense hhot => tempCritical_fences hsense hhot
  case hclk0 => exact fun hsrc => hclkLost_used (by omega) hclk hsrc
  case hclk1 => exact fun hsrc => hclkLost_used (by omega) hclk hsrc
  case other => exact fun hsrc => hclkLost_other (by omega) hclk (by omega)
  case stop => exact fun s hclk hxtal => xtalStop_reports hclk hxtal
  case resume => exact fun s hxtal hp0 hclk _ => xtalResume_shows hxtal hp0 hclk
  case alarm0 => exact fun hen hdue => alarmFire_zero hen hdue
  case alarm1 => exact fun hen hdue => alarmFire_one hen hdue
  case minute => exact fun s hdue hstandby hoff => opMinuteTick_counts hdue hstandby hoff
  case clrMin => exact fun w v s hpass hv => pwrClrMin_clears hpass hv

end Sys2Proof.Machine
end

section
/-! Settles O55: IDLE, NIGHT and STANDBY (R398 to R400, Table POWER-3). -/

namespace Sys2Proof.Machine
open Reg

/-! ### The power state -/

theorem powerState_setPower {st : Nat} (hst : st < 8) (s : State) : getFld (setPower st s) PWR_STAT_STATE = st := by
  unfold setPower
  split
  next heq => exact heq
  next =>
    rw [getFld_setEvt_other (by decide) (by decide), getFld_bemFollow (by decide), getFld_setFld_self]
    exact Nat.mod_eq_of_lt hst

theorem bemFollow_pwr (s : State) : (bemFollow s).pwr = s.pwr := by
  simp only [bemFollow]
  generalize (if getFld s PWR_STAT_STATE = 4 then 1 else if getFld s PWR_STAT_STATE = 3 ∨ getFld s PWR_STAT_STATE = 5 then 2 else 0) = new
  split
  · rfl
  · split
    · rfl
    · split <;> rfl

theorem setPower_pwr (st : Nat) (s : State) : (setPower st s).pwr = s.pwr := by
  unfold setPower
  split
  · rfl
  · rw [setEvt_pwr, bemFollow_pwr, setFld_pwr]

/-! ### Speed changes and sleeping pipes -/

theorem pageKey_dmcState (c : Nat) : (PG_STAT_STATE (0x20 + c)).pageKey = 0x20 + c := by
  simp only [FRef.pageKey, FRef.key, PG_STAT_STATE]
  omega

theorem dmcState_setDmc_ne {c d : Nat} (h : c ≠ d) (st : Nat) (s : State) : dmcState (setDmc d st s) c = dmcState s c :=
  getFld_setFld_page (by rw [pageKey_dmcState, pageKey_dmcState]; omega) st s

/-- Every channel named that is in INIT or ACTIVE goes to its speed change, and stays there. -/
theorem dmcState_changing {c : Nat} (l : List Nat) {s : State} (h : dmcState s c = 4 ∨ (c ∈ l ∧ (dmcState s c = 2 ∨ dmcState s c = 3))) :
    dmcState (l.foldl (fun t c =>
      if dmcState t c = 2 ∨ dmcState t c = 3 then
        precharge c (setDmc c 4 (updDram (fun d => { d with back := if dmcState t c = 2 then c :: d.back.filter (· ≠ c) else d.back.filter (· ≠ c) }) t))
      else t) s) c = 4 := by
  induction l generalizing s with
  | nil =>
    obtain h4 | ⟨hmem, -⟩ := h
    · exact h4
    · cases hmem
  | cons d l ih =>
    rw [List.foldl_cons]
    apply ih
    by_cases hd : c = d
    · subst hd
      left
      split
      · exact (getFld_setFld_self (PG_STAT_STATE (0x20 + c)) 4 _).trans (by rfl)
      next hnot => exact h.resolve_right fun hr => hnot hr.2
    · have hkeep : dmcState (if dmcState s d = 2 ∨ dmcState s d = 3 then
          precharge d (setDmc d 4 (updDram (fun e => { e with back := if dmcState s d = 2 then d :: e.back.filter (· ≠ d) else e.back.filter (· ≠ d) }) s))
          else s) c = dmcState s c := by
        split
        · exact dmcState_setDmc_ne hd 4 (updDram _ s)
        · rfl
      rw [hkeep]
      exact h.imp id fun ⟨hmem, hstate⟩ => ⟨(List.mem_cons.mp hmem).resolve_left hd, hstate⟩

theorem dmcState_freqStart {c : Nat} {s : State} (hc : c < 4) (h : dmcState s c = 2 ∨ dmcState s c = 3) : dmcState (freqStart s) c = 4 :=
  dmcState_changing channels (.inr ⟨by rw [channels]; simp; omega, h⟩)

theorem getFld_pipesSleep {f : FRef} (h : ∀ b < 8, f.pageKey ≠ 0x30 + b) (s : State) : getFld (pipesSleep s) f = getFld s f := by
  have hpage : ∀ b, (BUR_STAT_POWERED b).pageKey = 0x30 + b ∧ (PG_STAT_ASLEEP (0x30 + b)).pageKey = 0x30 + b := fun b => by
    simp only [FRef.pageKey, FRef.key, BUR_STAT_POWERED, PG_STAT_ASLEEP]
    omega
  have hfold : ∀ (l : List Nat) (t : State), (∀ b ∈ l, b < 8) → getFld (l.foldl (fun t b => pipeSleep b t) t) f = getFld t f := fun l t hl => by
    induction l generalizing t with
    | nil => rfl
    | cons b l ih =>
      have hb := h b (hl b List.mem_cons_self)
      rw [List.foldl_cons, ih _ fun k hk => hl k (List.mem_cons_of_mem _ hk), pipeSleep]
      split
      · rw [getFld_setFld_page (by rwa [(hpage b).1]), getFld_setFld_page (by rwa [(hpage b).2])]
      · rfl
  exact hfold _ s fun b hb => List.mem_range.mp hb

theorem powerState_freqStart (s : State) : getFld (freqStart s) PWR_STAT_STATE = getFld s PWR_STAT_STATE :=
  getFld_freqStart (fun c => by simp only [FRef.key, PWR_STAT_STATE, PG_STAT_STATE]; omega) s

theorem dmcState_setPower (st : Nat) (s : State) {c : Nat} (hc : c < 4) : dmcState (setPower st s) c = dmcState s c := by
  have hkeys : (PG_STAT_STATE (0x20 + c)).pageKey ≠ 7 ∧ (PG_STAT_STATE (0x20 + c)).key ≠ PWR_STAT_STATE.key ∧
      (PG_STAT_STATE (0x20 + c)).key ≠ (PG_EVT_EVT 1).key ∧ (PG_STAT_STATE (0x20 + c)).key ≠ (PG_EVT_FIRST_BIT 1).key ∧
      (PG_STAT_STATE (0x20 + c)).key ≠ (PG_EVT_FIRST_VALID 1).key := by
    rw [pageKey_dmcState]
    simp only [FRef.key, PG_STAT_STATE, PWR_STAT_STATE, PG_EVT_EVT, PG_EVT_FIRST_BIT, PG_EVT_FIRST_VALID]
    omega
  obtain ⟨hpack, hstate, hevt, hbit, hvalid⟩ := hkeys
  exact getFld_setPower hpack hstate hevt hbit hvalid st s

/-! ### IDLE and NIGHT -/

section
variable {s : State}

theorem idleEntry_idles (hactive : getFld s PWR_STAT_STATE = 0) (hphase : phase s = 8) (hdump : s.cache.dumping = false) (hwork : noWork s = true) :
    ∃ t, exec .idleEntry s = .next t ∧ getFld t PWR_STAT_STATE = 1 := by
  refine ⟨_, ?_, powerState_setPower (st := 1) (by omega) s⟩
  rw [exec_idleEntry, execIdleEntry, run_true, decide_eq_true ⟨hactive, hphase⟩, hdump, hwork]
  rfl

theorem nightEntry_enters {quiet : Bool} (hmay : nightMay s quiet = true) :
    ∃ t, exec (.nightEntry quiet) s = .next t ∧ getFld t PWR_STAT_STATE = 2 ∧
      ∀ c < 4, dmcState s c = 2 ∨ dmcState s c = 3 → dmcState t c = 4 := by
  refine ⟨_, by rw [exec_nightEntry, execNightEntry, run_true, onlyIf, if_pos hmay], ?_, fun c hc hstate => ?_⟩
  · rw [getFld_pipesSleep (fun b hb => by rw [show PWR_STAT_STATE.pageKey = 1 from by decide]; omega), powerState_freqStart, powerState_setPower (by omega)]
  · rw [dmcState, getFld_pipesSleep (fun b hb => by rw [pageKey_dmcState]; omega)]
    exact dmcState_freqStart hc (by rwa [dmcState_setPower 2 s hc])

theorem powerState_leaveNight (hnight : getFld s PWR_STAT_STATE = 2) : getFld (leaveNight s) PWR_STAT_STATE = 0 := by
  have hwake : ∀ bs : List Nat, (∀ b ∈ bs, b < 8) → ∀ t, (bs.foldl (fun t b => wakeBlock (0x30 + b) t) t).regs = t.regs := fun bs => by
    induction bs with
    | nil => exact fun _ _ => rfl
    | cons b bs ih =>
      intro hbs t
      have hb := hbs b List.mem_cons_self
      rw [List.foldl_cons, ih (fun c hc => hbs c (List.mem_cons_of_mem _ hc)), wakeBlock_pipe_regs (by omega)]
  rw [leaveNight, if_neg (not_not_intro hnight), getFld_of_regs (hwake _ (fun b hb => List.mem_range.mp hb) _), powerState_freqStart,
    powerState_setPower (by omega)]

theorem nightExit_leaves {busy : Bool} (hnight : getFld s PWR_STAT_STATE = 2) (hmode : getFld s PWR_CFG_NIGHT_MODE = 1)
    (hreq : isSet s PWR_CTL_NIGHT_REQ = false) : ∃ t, exec (.nightExit busy) s = .next t ∧ getFld t PWR_STAT_STATE = 0 := by
  refine ⟨_, ?_, powerState_leaveNight hnight⟩
  rw [exec_nightExit, execNightExit, run_true, hmode, hreq]
  rfl

theorem nightReqWrite_takes {w : Win} {v : Nat} (hpass : Passes w 1 s) :
    ∃ t, exec (.nightReqWrite w v) s = .next t ∧ getFld t PWR_CTL_NIGHT_REQ = v % 2 := by
  have htaken : ∀ u, getFld (setFld PWR_CTL_NIGHT_REQ (v % 2) u) PWR_CTL_NIGHT_REQ = v % 2 := fun u =>
    (getFld_setFld_self ..).trans (Nat.mod_eq_of_lt (Nat.mod_lt v (by omega)))
  refine ⟨_, by rw [exec_nightReqWrite, execNightReqWrite, run_true, guardWrite_pass hpass], ?_⟩
  unfold seqIf
  split
  · exact htaken _
  · rw [incFld, getFld_setFld_ne (by decide)]
    exact htaken _

end

/-! ### STANDBY -/

section
variable {s : State}

theorem cycleSync_pwr (p : Nat) (s : State) : (cycleSync p s).pwr = s.pwr := by
  have hupd : ∀ f, (updPlate p f s).pwr = s.pwr := fun f => (congrArg State.pwr (updPlate_frame p f s) :)
  unfold cycleSync
  split
  · rfl
  · dsimp only
    split
    · rfl
    · split <;> exact hupd _

theorem cyclesSync_pwr (s : State) : (cyclesSync s).pwr = s.pwr := by
  unfold cyclesSync
  generalize List.range 64 = ps
  induction ps generalizing s with
  | nil => rfl
  | cons p ps ih => rw [List.foldl_cons, ih, cycleSync_pwr]

theorem standbyEntry_begins (hidle : s.pwr.stby = 0) (hmay : standbyMay s = true) :
    ∃ t, exec .standbyEntry s = .next t ∧ t.pwr.stby = 1 := by
  refine ⟨setStby 1 s, ?_, by rw [setStby, cyclesSync_pwr]; rfl⟩
  rw [exec_standbyEntry, execStandbyEntry, run_true, standbyStep, hidle, hmay]
  rfl

/-- The main domain off: the in-flight state is that of reset, and device time stands. -/
theorem mainOff_leaves {st : Nat} (hst : st < 8) (s : State) :
    getFld (mainOff st s) PWR_STAT_STATE = st ∧ (mainOff st s).io = State.reset.io ∧ (mainOff st s).timeQ = s.timeQ ∧ (mainOff st s).pwr.due = some 6 := by
  unfold mainOff
  dsimp only
  generalize hs0 : (if st = 3 then updHost (fun h => { h with l2 := h.l2 ++ h.up.filter (fun p => decide (p ∉ h.l2)) }) s else s) = s0
  have htime0 : s0.timeQ = s.timeQ := by
    rw [← hs0]
    split <;> rfl
  have hfold := stands_foldl (f := fun t f => setFld f (getFld s f) t) (fun _ _ => stands_setFld ..) wakeFlds (resetState 6 (slewStop (counterWrite s0)))
  generalize wakeFlds.foldl (fun t f => setFld f (getFld s f) t) (resetState 6 (slewStop (counterWrite s0))) = s2 at hfold ⊢
  generalize hs3 : setFld PWR_STAT_STATE (getFld s PWR_STAT_STATE) { s2 with pwr := { s2.pwr with due := some 6 } } = s3
  have hlast : Stands s2 s3 ∧ s3.pwr.due = some 6 := by
    rw [← hs3]
    exact ⟨⟨rfl, rfl, rfl⟩, rfl⟩
  obtain ⟨hio, htime, -⟩ := hfold.trans (hlast.1.trans (stands_setPower st s3))
  exact ⟨powerState_setPower hst s3, hio, htime.trans htime0, by rw [setPower_pwr, hlast.2]⟩

theorem standbyEntry_ends (hlast : s.pwr.stby = 4) (hexit : s.pwr.exit = false) (hports : ∀ p < 64, portState s p ≠ 4 ∧ portState s p ≠ 5) :
    ∃ t, exec .standbyEntry s = .next t ∧ getFld t PWR_STAT_STATE = 3 ∧ t.io = State.reset.io ∧ t.timeQ = s.timeQ ∧ t.pwr.due = some 6 := by
  have hnone : ((List.range 64).any (fun p => decide (portState s p = 4 ∨ portState s p = 5))) = false := by
    refine List.any_eq_false.mpr fun p hp => ?_
    have hport := hports p (List.mem_range.mp hp)
    simpa using hport
  obtain ⟨hstate, hio, htime, hdue⟩ := mainOff_leaves (st := 3) (by omega) (setFld PWR_RAIL_SEQ 0 (flushHeld s))
  refine ⟨_, ?_, hstate, hio, htime.trans (flushHeld_timeQ s), hdue⟩
  rw [exec_standbyEntry, execStandbyEntry, run_true, standbyStep]
  simp only [hlast, hexit, hnone, Nat.lt_irrefl, false_and, if_false, Bool.false_eq_true, (by decide : (4 : Nat) ≠ 0), (by decide : (4 : Nat) ≠ 1),
    (by decide : (4 : Nat) ≠ 2), (by decide : (4 : Nat) ≠ 3)]

theorem powerState_startP1 (s : State) : getFld (startP1 s) PWR_STAT_STATE = 0 := by
  unfold startP1
  dsimp only
  rw [getFld_setFld_ne (by decide), getFld_setFld_ne (by decide), incFld, getFld_setFld_ne (by decide), powerState_setPower (by omega)]

theorem standbyExit_wakes (hstandby : getFld s PWR_STAT_STATE = 3) (hdue : wakeDue s = true) :
    ∃ t, exec .standbyExit s = .next t ∧ getFld t PWR_STAT_STATE = 0 ∧ phase t = 1 ∧ getFld t PWR_STAT_LAST_RESET = 6 := by
  refine ⟨_, by rw [exec_standbyExit, execStandbyExit, run_true, onlyIf, if_pos hdue, wake, if_pos hstandby], powerState_startP1 _, phase_startP1 _, ?_⟩
  rw [getFld_startP1 (by decide) (by decide), getFld_setFld_self]
  rfl

end

/-- Settles O55: each state entered or left is set through `setPower`, and nothing after it in the same command writes PWR_STAT. -/
theorem powerStatesAreEnteredAndLeft : Obligations.PowerStatesAreEnteredAndLeft := by
  unfold Obligations.PowerStatesAreEnteredAndLeft
  refine ⟨?idle, ?nightIn, ?nightOut, ?nightReq, ?standbyIn, ?standbyEnd, ?wake⟩
  case idle => exact fun s hactive hphase hdump hwork => idleEntry_idles hactive hphase hdump hwork
  case nightIn => exact fun quiet s hmay => nightEntry_enters hmay
  case nightOut => exact fun busy s hnight hmode hreq => nightExit_leaves hnight hmode hreq
  case nightReq => exact fun w v s hpass => nightReqWrite_takes hpass
  case standbyIn => exact fun s hidle hmay => standbyEntry_begins hidle hmay
  case standbyEnd => exact fun s hlast hexit hports => standbyEntry_ends hlast hexit hports
  case wake => exact fun s hstandby hdue => standbyExit_wakes hstandby hdue

end Sys2Proof.Machine
end

section
/-! Settles O56: ENABLE, CLK_REQ and BLOCK_RESET of the page headers (R437, R439, R441). -/

namespace Sys2Proof.Machine
open Reg

/-! ### Pipes that settle change the in-flight state and the pipes' registers alone -/

theorem setJobPipe_rest (r : JobRef) (b avoid : Nat) (s : State) : { setJobPipe r b avoid s with io := s.io } = s := by
  have hentry : ∀ (j : Nat) (f : JEntry → JEntry) (t : State), { updEntry j f t with io := s.io } = { t with io := s.io } := fun j f t => by
    unfold updEntry
    split <;> rfl
  unfold setJobPipe
  dsimp only
  split
  · split
    · exact hentry _ _ _
    · rfl
  · rfl

theorem pipesSettle_keeps {α : Type} (g : State → α) (hreg : ∀ f v s, g (setFld f v s) = g s) (hjob : ∀ r b avoid s, g (setJobPipe r b avoid s) = g s)
    (s : State) : g (pipesSettle s) = g s := by
  have hfold : ∀ {k : Nat → State → State}, (∀ b t, g (k b t) = g t) → ∀ (l : List Nat) (t : State), g (l.foldl (fun t b => k b t) t) = g t :=
    fun hk l t => by
      induction l generalizing t with
      | nil => rfl
      | cons b l ih => rw [List.foldl_cons, ih, hk]
  have hsleep : ∀ b t, g (pipeSleep b t) = g t := fun b t => by
    unfold pipeSleep
    split
    · rw [hreg, hreg]
    · rfl
  have hkick : ∀ b t, g (katKick b t) = g t := fun b t => by
    unfold katKick
    split
    · exact hreg _ _ _
    · rfl
  rw [pipesSettle, pipesSleep, hfold hsleep, placeJobs_keeps g hjob, hfold hkick]

theorem pipesSettle_store (s : State) : (pipesSettle s).store = s.store :=
  pipesSettle_keeps State.store (fun _ _ _ => rfl) (fun r b avoid s => (congrArg State.store (setJobPipe_rest r b avoid s) :)) s

theorem pipesSettle_cache (s : State) : (pipesSettle s).cache = s.cache :=
  pipesSettle_keeps State.cache (fun _ _ _ => rfl) (fun r b avoid s => (congrArg State.cache (setJobPipe_rest r b avoid s) :)) s

theorem pipesSettle_out (s : State) : (pipesSettle s).out = s.out :=
  pipesSettle_keeps State.out (fun _ _ _ => rfl) (fun r b avoid s => (congrArg State.out (setJobPipe_rest r b avoid s) :)) s

/-- A register that holds no pipe's test, power or sleep stands. -/
theorem getFld_pipesSettle {f : FRef} (hkat : ∀ b, f.key ≠ (BUR_STAT_KAT b).key) (hpow : ∀ b, f.key ≠ (BUR_STAT_POWERED b).key)
    (hasl : ∀ b, f.key ≠ (PG_STAT_ASLEEP (0x30 + b)).key) (s : State) : getFld (pipesSettle s) f = getFld s f := by
  have hkicks : ∀ (l : List Nat) (t : State), getFld (l.foldl (fun t b => katKick b t) t) f = getFld t f := fun l t => by
    induction l generalizing t with
    | nil => rfl
    | cons b l ih => rw [List.foldl_cons, ih, katKick_getFld (.inl (hkat b))]
  rw [pipesSettle, pipesSleep_getFld hpow hasl, getFld_of_regs (placeJobs_regs _), hkicks]

/-- ENABLE and the count of a page's writes are no pipe's. -/
theorem getFld_pipesSettle_header {f : FRef} {p : Nat} (hf : f = PG_CTL_ENABLE p ∨ f = PG_SEQ_COUNT p) (s : State) :
    getFld (pipesSettle s) f = getFld s f := by
  obtain rfl | rfl := hf
  all_goals
    apply getFld_pipesSettle
    all_goals
      intro b
      simp only [FRef.key, PG_CTL_ENABLE, PG_SEQ_COUNT, BUR_STAT_KAT, BUR_STAT_POWERED, PG_STAT_ASLEEP]
      omega

/-! ### ENABLE -/

section
variable {w : Win} {s : State}

/-- ENABLE of a pipe takes what is written; the count of writes stands, as do the state beyond the pipes. -/
theorem enableSet_pipe {b : Nat} (hb : b < 8) (v : Bool) (s : State) :
    isSet (enableSet (0x30 + b) v s) (PG_CTL_ENABLE (0x30 + b)) = v ∧
      getFld (enableSet (0x30 + b) v s) (PG_SEQ_COUNT (0x30 + b)) = getFld s (PG_SEQ_COUNT (0x30 + b)) ∧
      (enableSet (0x30 + b) v s).store = s.store ∧ (enableSet (0x30 + b) v s).cache = s.cache ∧ (enableSet (0x30 + b) v s).out = s.out := by
  have htakes : enableTakes s (0x30 + b) v = true := by
    unfold enableTakes
    rw [if_neg (by simp; omega), if_neg (by omega), if_neg (by omega), if_neg (by omega), if_neg (by omega)]
  have heffect : ∀ t, enableEffect (0x30 + b) v t = pipesSettle t := fun t => by
    unfold enableEffect
    rw [if_neg (by omega), if_neg (by omega), if_pos (by omega)]
  by_cases hsame : isSet s (PG_CTL_ENABLE (0x30 + b)) = v
  · have hstay : enableSet (0x30 + b) v s = s := by rw [enableSet, hsame, if_neg (by simp)]
    rw [hstay]
    exact ⟨hsame, rfl, rfl, rfl, rfl⟩
  · have hset : enableSet (0x30 + b) v s = pipesSettle (setFlag (PG_CTL_ENABLE (0x30 + b)) v s) := by
      rw [enableSet, htakes, if_pos (by simpa using hsame), heffect]
    have hflag : getFld (setFlag (PG_CTL_ENABLE (0x30 + b)) v s) (PG_CTL_ENABLE (0x30 + b)) = if v then 1 else 0 := by
      rw [setFlag, getFld_setFld_self]
      split <;> rfl
    rw [hset, isSet, getFld_pipesSettle_header (.inl rfl), getFld_pipesSettle_header (.inr rfl), pipesSettle_store, pipesSettle_cache, pipesSettle_out, hflag,
      setFlag, getFld_setFld_same (by rfl) (by rfl) (by rfl)]
    refine ⟨?_, rfl, rfl, rfl, rfl⟩
    cases v <;> rfl

theorem pgEnableWrite_pipe {b v : Nat} (hb : b < 8) (hpass : Passes w (0x30 + b) s) (hreach : reaches s w (0x30 + b) = true) :
    ∃ t, exec (.pgEnableWrite w (0x30 + b) v) s = .next t ∧ isSet t (PG_CTL_ENABLE (0x30 + b)) = decide (v % 2 = 1) ∧ t.store = s.store ∧
      t.cache = s.cache ∧ t.out = s.out ∧
      getFld t (PG_SEQ_COUNT (0x30 + b)) = (if isSet s (PG_CTL_ENABLE (0x30 + b)) = decide (v % 2 = 1) then getFld s (PG_SEQ_COUNT (0x30 + b))
        else (getFld s (PG_SEQ_COUNT (0x30 + b)) + 1) % 2 ^ (PG_SEQ_COUNT (0x30 + b)).width) := by
  obtain ⟨hset, hseq, hstore, hcache, hout⟩ := enableSet_pipe hb (decide (v % 2 = 1)) (admitted w (0x30 + b) s)
  refine ⟨_, by rw [exec_pgEnableWrite, execPgEnableWrite, decide_eq_true (by omega), run_true, headWrite_pass hreach hpass], ?_⟩
  dsimp only
  rw [hset, isSet_admitted]
  rw [admitted_store] at hstore
  rw [admitted_cache] at hcache
  rw [admitted_out] at hout
  rw [getFld_admitted] at hseq
  generalize enableSet (0x30 + b) (decide (v % 2 = 1)) (admitted w (0x30 + b) s) = t at hset hseq hstore hcache hout ⊢
  split
  · exact ⟨hset, hstore, hcache, hout, hseq⟩
  · refine ⟨?_, hstore, hcache, hout, ?_⟩
    · rw [isSet, incFld, getFld_setFld_same (by rfl) (by rfl) (by rfl)]
      exact hset
    · rw [incFld, getFld_setFld_self, hseq]

theorem pgEnableWrite_fixed {p v : Nat} (hp : p ∈ [0, 1, 2, 3, 4, 8]) (hpass : Passes w p s) (hreach : reaches s w p = true) (hv : v % 2 = 0) :
    exec (.pgEnableWrite w p v) s = .next (admitted w p s) := by
  have hbound : p < 0x2000 := by
    simp only [List.mem_cons, List.not_mem_nil, or_false] at hp
    omega
  have hoff : decide (v % 2 = 1) = false := decide_eq_false (by omega)
  have hstay : ∀ t, enableSet p false t = t := fun t => by
    have hno : enableTakes t p false = false := if_pos (.inl hp)
    rw [enableSet, hno, Bool.false_and, if_neg Bool.false_ne_true]
  rw [exec_pgEnableWrite, execPgEnableWrite, decide_eq_true hbound, run_true, headWrite_pass hreach hpass, hoff, hstay]
  exact congrArg Host.Outcome.next (if_pos rfl)

/-! ### CLK_REQ -/

theorem clkReq_wakes {b : Nat} (hb : b < 8) (hpass : Passes w (0x30 + b) s) (hreach : reaches s w (0x30 + b) = true) (hinst : mayInstall s w = true)
    (hoff : isSet s (PG_CTL_CLK_REQ (0x30 + b)) = false) (hasleep : pipeAwake s b = false) :
    ∃ t, exec (.clkReq w (0x30 + b) 1) s = .next t ∧ isSet t (PG_CTL_CLK_REQ (0x30 + b)) = true ∧ b ∈ t.io.waking := by
  have hkeys : (PG_CTL_CLK_REQ (0x30 + b)).key ≠ (PG_SEQ_COUNT (0x30 + b)).key ∧ (BUR_STAT_POWERED b).key ≠ (PG_SEQ_COUNT (0x30 + b)).key ∧
      (BUR_STAT_POWERED b).key ≠ (PG_CTL_CLK_REQ (0x30 + b)).key := by
    simp only [FRef.key, PG_CTL_CLK_REQ, PG_SEQ_COUNT, BUR_STAT_POWERED]
    omega
  obtain ⟨hreq, hpower, hpower'⟩ := hkeys
  have hinst' : mayInstall (admitted w (0x30 + b) s) w = true := (mayInstall_admitted ..).trans hinst
  have hset : getFld (writeRwi w (0x30 + b) [(PG_CTL_CLK_REQ (0x30 + b), 1 % 2)] (admitted w (0x30 + b) s)) (PG_CTL_CLK_REQ (0x30 + b)) = 1 :=
    getFld_writeRwi_one hinst' hreq
  have hpow : getFld (writeRwi w (0x30 + b) [(PG_CTL_CLK_REQ (0x30 + b), 1 % 2)] (admitted w (0x30 + b) s)) (BUR_STAT_POWERED b) =
      getFld s (BUR_STAT_POWERED b) := by
    rw [getFld_writeRwi_ne hinst' hpower (by simpa using hpower'), getFld_admitted]
  have hio : (writeRwi w (0x30 + b) [(PG_CTL_CLK_REQ (0x30 + b), 1 % 2)] (admitted w (0x30 + b) s)).io = (admitted w (0x30 + b) s).io :=
    (congrArg State.io (writeRwi_frame ..) :)
  refine ⟨_, by rw [exec_clkReq, execClkReq, decide_eq_true (by omega), run_true, headWrite_pass hreach hpass], ?_⟩
  dsimp only
  generalize writeRwi w (0x30 + b) [(PG_CTL_CLK_REQ (0x30 + b), 1 % 2)] (admitted w (0x30 + b) s) = t at hset hpow hio ⊢
  have hawake : pipeAwake t b = false := by
    rw [pipeAwake, isSet, hpow]
    exact hasleep
  have hon : isSet t (PG_CTL_CLK_REQ (0x30 + b)) = true := by
    rw [isSet, hset]
    rfl
  rw [hon, isSet_admitted, hoff, if_pos (by rfl), wakeBlock, if_pos (by omega), Nat.add_sub_cancel_left, hawake, Bool.false_or]
  split
  next hwaking => exact ⟨hon, by simpa using hwaking⟩
  next => exact ⟨hon, List.mem_cons_self⟩

/-! ### BLOCK_RESET -/

theorem getFld_ltrPort {f : FRef} (hpage : f.pageKey ≠ 1) (before : State) (port : Nat) (s : State) : getFld (ltrPort before port s) f = getFld s f := by
  unfold ltrPort
  split
  · dsimp only
    split
    · exact getFld_emit hpage _ _
    · split
      · exact getFld_emit hpage _ _
      · rfl
  · rfl

theorem getFld_ltrSync {f : FRef} (hpage : f.pageKey ≠ 1) (g : State → State) (s : State) : getFld (ltrSync g s) f = getFld (g s) f := by
  rw [ltrSync, getFld_ltrPort hpage, getFld_ltrPort hpage]

theorem blockReset_pipe {b : Nat} (hb : b < 8) (s : State) : getFld (blockReset (0x30 + b) s) (BUR_STAT_KAT b) = 0 ∧
    getFld (blockReset (0x30 + b) s) (BUR_KAT_START b) = 0 ∧ getFld (blockReset (0x30 + b) s) (BUR_SELFCHK_COUNT b) = 0 := by
  have heffect : blockEffect (0x30 + b) s = pipesSettle (setFld (BUR_STAT_KAT b) 0 (setFld (BUR_KAT_START b) 0 (restartJobs b s))) := by
    unfold blockEffect
    repeat rw [if_neg (by omega)]
    rw [if_pos (by omega), Nat.add_sub_cancel_left]
  have hcounters : pageCounters (0x30 + b) =
      [BUR_BYTES_LO_COUNT b, BUR_BYTES_HI_COUNT b, BUR_MAINT_LO_COUNT b, BUR_MAINT_HI_COUNT b, BUR_SELFCHK_COUNT b] := by
    unfold pageCounters
    repeat rw [if_neg (by omega)]
    rw [if_pos (by omega), Nat.add_sub_cancel_left]
  have hoff : getFld (setFld (BUR_STAT_KAT b) 0 (setFld (BUR_KAT_START b) 0 (restartJobs b s))) (BUR_KAT_START b) = 0 := by
    rw [getFld_setFld_same (by rfl) (by rfl) (by rfl), getFld_setFld_self]
    rfl
  obtain ⟨hstart, hkat⟩ := pipesSettle_kat hoff
  rw [getFld_setFld_self] at hkat
  rw [blockReset, heffect, hcounters]
  generalize pipesSettle (setFld (BUR_STAT_KAT b) 0 (setFld (BUR_KAT_START b) 0 (restartJobs b s))) = t at hstart hkat ⊢
  simp only [zeroFlds, List.foldl_cons, List.foldl_nil]
  refine ⟨?_, ?_, ?_⟩
  · rw [getFld_setFld_same (by rfl) (by rfl) (by rfl), getFld_setFld_same (by rfl) (by rfl) (by rfl), getFld_setFld_same (by rfl) (by rfl) (by rfl),
      getFld_setFld_same (by rfl) (by rfl) (by rfl), getFld_setFld_same (by rfl) (by rfl) (by rfl), hkat]
    rfl
  · rw [getFld_setFld_same (by rfl) (by rfl) (by rfl), getFld_setFld_same (by rfl) (by rfl) (by rfl), getFld_setFld_same (by rfl) (by rfl) (by rfl),
      getFld_setFld_same (by rfl) (by rfl) (by rfl), getFld_setFld_same (by rfl) (by rfl) (by rfl), hstart]
  · rw [getFld_setFld_self]
    rfl

theorem blockReset_resets {b : Nat} (hb : b < 8) (hpass : Passes w (0x30 + b) s) (hreach : reaches s w (0x30 + b) = true) :
    ∃ t, exec (.blockReset w (0x30 + b)) s = .next t ∧ getFld t (BUR_STAT_KAT b) = 0 ∧ isSet t (BUR_KAT_START b) = false ∧
      getFld t (BUR_SELFCHK_COUNT b) = 0 := by
  have hpages : (BUR_STAT_KAT b).pageKey ≠ 1 ∧ (BUR_KAT_START b).pageKey ≠ 1 ∧ (BUR_SELFCHK_COUNT b).pageKey ≠ 1 := by
    simp only [FRef.pageKey, FRef.key, BUR_STAT_KAT, BUR_KAT_START, BUR_SELFCHK_COUNT]
    omega
  obtain ⟨hkatPage, hstartPage, hcountPage⟩ := hpages
  obtain ⟨hkat, hstart, hcount⟩ := blockReset_pipe hb (admitted w (0x30 + b) s)
  have hacts : resetActs (admitted w (0x30 + b) s) (0x30 + b) = true := if_pos (by omega)
  have hwrite : headWrite w (0x30 + b) (fun t => if resetActs t (0x30 + b) then blockReset (0x30 + b) t else t) s =
      blockReset (0x30 + b) (admitted w (0x30 + b) s) := by
    rw [headWrite_pass hreach hpass, if_pos hacts]
  refine ⟨_, by rw [exec_blockReset, execBlockReset, decide_eq_true (by omega), run_true], ?_, ?_, ?_⟩
  · rw [getFld_ltrSync hkatPage, hwrite, hkat]
  · rw [isSet, getFld_ltrSync hstartPage, hwrite, hstart]
    rfl
  · rw [getFld_ltrSync hcountPage, hwrite, hcount]

theorem blockReset_refused {p : Nat} (hp : p < 0x1000) (hpipe : p < 0x30 ∨ 0x37 < p) (hpass : Passes w p s) (hreach : reaches s w p = true)
    (hft : ftest s = false) : exec (.blockReset w p) s = .next (ltrSync (admitted w p) s) := by
  have hacts : resetActs (admitted w p s) p = false := by
    rw [resetActs, if_neg (by omega), ftest_admitted, hft, ite_self]
  have hwrite : headWrite w p (fun t => if resetActs t p then blockReset p t else t) s = admitted w p s := by
    rw [headWrite_pass hreach hpass, hacts, if_neg Bool.false_ne_true]
  rw [exec_blockReset, execBlockReset, decide_eq_true (by omega), run_true, ltrSync, hwrite, ltrSync]

end

/-- Settles O56: the settling of pipes leaves the headers' registers and the state beyond the in-flight one, and BLOCK_RESET clears a pipe's counters
after its effect. -/
theorem pageHeadersControlTheirBlocks : Obligations.PageHeadersControlTheirBlocks := by
  unfold Obligations.PageHeadersControlTheirBlocks
  refine ⟨?enable, ?fixed, ?clkReq, ?reset, ?refused⟩
  case enable => exact fun w b v s hb hpass hreach => pgEnableWrite_pipe hb hpass hreach
  case fixed => exact fun w p v s hp hpass hreach _ hv => pgEnableWrite_fixed hp hpass hreach hv
  case clkReq => exact fun w b s hb hpass hreach hinst hoff hasleep => clkReq_wakes hb hpass hreach hinst hoff hasleep
  case reset => exact fun w b s hb hpass hreach => blockReset_resets hb hpass hreach
  case refused => exact fun w p s hp hpipe hpass hreach hft => blockReset_refused hp hpipe hpass hreach hft

end Sys2Proof.Machine
end

section
/-! Settles O57: words written to and read from the registers, and the settings record (R4, R5, R260, R443, R444). -/

namespace Sys2Proof.Machine
open Reg

/-! ### A word that reaches its register -/

/-- A page of the chip whose registers' writes have no rule and no effect of their own. -/
def plainPage (p : Nat) : Prop := p = 1 ∨ p = 2 ∨ p = 0x39

section
variable {w : Win} {p off v : Nat} {vr : VaultRead} {s : State}

theorem reaches_plain (hp : plainPage p) (hpass : Passes w p s) : reaches s w p = true := by
  obtain ⟨-, -, -, -, hhas⟩ := hpass
  cases w with
  | vf port func =>
    have hpage : 0x1000 ≤ p := of_decide_eq_true hhas
    unfold plainPage at hp
    omega
  | pf n => obtain rfl | rfl | rfl := hp <;> rfl
  | core n => obtain rfl | rfl | rfl := hp <;> rfl

theorem pageOffset_plain (hp : plainPage p) (hpass : Passes w p s) : pageOffset w p off = true := by
  obtain ⟨-, -, -, -, hhas⟩ := hpass
  cases w with
  | vf port func =>
    have hpage : 0x1000 ≤ p := of_decide_eq_true hhas
    unfold plainPage at hp
    omega
  | pf n =>
    unfold plainPage at hp
    exact pageOffset_pf.2 (.inl (by omega))
  | core n => rfl

/-- Where it starts nothing, a word takes the fields that may be written and clears the events written 1. -/
theorem regWrite_plain (hp : plainPage p) (hoff : off ≠ 0x30) (hstart : startsAction (rowsAt s p off) v = false) :
    regWrite w p off v vr s = clearFields p off v (putFields w p off v s) := by
  have hgate : gate w p off v s = none := by
    unfold plainPage at hp
    unfold gate
    rw [if_neg fun h => hoff h.1, if_neg (by omega), if_neg (by omega), if_neg (by omega), if_neg (by omega)]
  have hcmd : allCmdRegs p = none := by obtain rfl | rfl | rfl := hp <;> rfl
  have hafter : ∀ a b, afterWrite w p off v vr a b = b := fun a b => by
    unfold plainPage at hp
    unfold afterWrite
    simp (disch := omega) only [if_neg]
  have hkey : ∀ t, putKeyData p off v t = t := fun t => by
    unfold plainPage at hp
    exact if_neg (by omega)
  simp only [regWrite, hgate, hcmd, hstart, Bool.false_eq_true, if_false, hafter, hkey]

/-- What an aligned word written to a page's register does. -/
theorem registerWrite_plain (hp : plainPage p) (hpass : Passes w p s) (hlt : off < 4096) (ha : off % 4 = 0) (hvf : isVf w = false)
    (hrows : rowsAt s p off ≠ []) :
    exec (.registerWrite w p off 4 v false vr) s = .next (ltrSync (fun t => regWrite w p off (v % 2 ^ 32) vr (admitted w p t)) s) := by
  have hreach := reaches_plain hp hpass
  have hpage : p < 0x2000 := by
    unfold plainPage at hp
    omega
  have hreg : isRegister s w p off = true := by
    have hfld : (rowsAt s p off).isEmpty = false := by simpa using hrows
    simp [isRegister, hvf, hfld]
  have hword : busWrite w p off 4 v false vr s = regWrite w p off (v % 2 ^ 32) vr (admitted w p s) := by
    rw [busWrite_word hpass.1 hpass.2.1 hreach hpage ha, wordWrite_register hreach (pageOffset_plain hp hpass) hreg hrows, guardWrite_pass hpass]
  rw [exec_registerWrite, execRegisterWrite, decide_eq_true ⟨by omega, hlt⟩, run_true, ltrSync, hword, ltrSync]

theorem isVf_plain (hp : plainPage p) (hpass : Passes w p s) : isVf w = false := by
  obtain ⟨-, -, -, -, hhas⟩ := hpass
  cases w with
  | vf port func =>
    have hpage : 0x1000 ≤ p := of_decide_eq_true hhas
    unfold plainPage at hp
    omega
  | pf n => rfl
  | core n => rfl

/-- On these pages a value is legal where it is inside its field's bounds. -/
theorem legalFld_plain (hp : plainPage p) {r : RegRow} (hkey : r.f.key ∉ [PWR_TEMP_THR_CRIT_C.key, TSC_CFG_CAP_UNITS.key, EVR_MSEL_CODE.key]) :
    legalFld s p v r = (decide (r.min ≤ wordFld r v) && decide (wordFld r v ≤ r.max)) := by
  simp only [List.mem_cons, List.not_mem_nil, or_false, not_or] at hkey
  obtain ⟨hcrit, hcap, hcode⟩ := hkey
  unfold plainPage at hp
  unfold legalFld
  dsimp only
  rw [if_neg (by omega), if_neg hcrit, if_neg (by omega), if_neg (by omega), if_neg (by omega), if_neg (by omega), if_neg (by omega), if_neg hcap,
    if_neg hcode, Bool.and_true]

theorem wholeOk_plain (hp : plainPage p) : wholeOk s p off v = true := by
  unfold plainPage at hp
  unfold wholeOk
  rw [if_neg (by omega), if_neg (by omega)]

end

/-! ### Fields that take the word -/

section
variable {w : Win} {p off v : Nat} {s : State}

theorem putRows_regs {t : State} (h : t.regs = s.regs) (rows : List RegRow) : (putRows rows v t).regs = (putRows rows v s).regs := by
  induction rows generalizing s t with
  | nil => exact h
  | cons r rows ih =>
    rw [putRows_cons, putRows_cons]
    refine ih ?_
    simp only [setFld, h]

/-- The rows of a register that a write takes. -/
def takenRows (w : Win) (p off v : Nat) (s : State) : List RegRow :=
  (taken (mayInstall s w) (rwlLocked s) s p off v).filter (fun r => !ownField p r.f)

/-- The count of writes aside, a register's fields stand after an accepted write as the write put them. -/
theorem getFld_putFields_taken {f : FRef} (hseq : f.key ≠ (PG_SEQ_COUNT p).key) (hok : (!mayInstall s w && refusedRwi s p off v) = false) :
    getFld (putFields w p off v s) f = getFld (putRows (takenRows w p off v s) v s) f := by
  have hput : ∀ c : Bool, getFld (putRows (takenRows w p off v s) v (if c then needRole w s else s)) f =
      getFld (putRows (takenRows w p off v s) v s) f := fun c => by
    split
    · exact getFld_of_regs (putRows_regs (needRole_regs w s) _) f
    · rfl
  rw [putFields]
  rw [hok, if_neg Bool.false_ne_true]
  split
  · rw [seqIf_getFld _ _ _ hseq]
    exact hput _
  · exact hput _

/-- A write that takes no field is denied where an installer's field would have changed, and does nothing else. -/
theorem putFields_none (hnone : takenRows w p off v s = []) :
    putFields w p off v s = if !mayInstall s w && refusedRwi s p off v then denied w p s else s := by
  have hseq : ∀ c : Bool, (if c then seqIf p s s else s) = s := fun c => by
    split
    · exact if_pos rfl
    · rfl
  rw [putFields]
  rw [takenRows] at hnone
  rw [hnone]
  exact congrArg (fun t => if !mayInstall s w && refusedRwi s p off v then denied w p t else t) (hseq _)

/-- A word clears nothing in a register that holds no event. -/
theorem clearFields_none (hoff : off ≠ 0x10) (hrows : ∀ r ∈ rowsAt s p off, r.acc ≠ .rw1c) : clearFields p off v s = s := by
  have hfold : ∀ (l : List RegRow) (t : State), (∀ r ∈ l, r.acc ≠ .rw1c) → l.foldl (fun t r =>
      if r.acc ≠ .rw1c ∨ ownField p r.f then t
      else if 0x80 ≤ p ∧ p ≤ 0xBF then clearEvt p (wordFld r v) t
      else clearBits r.f (wordFld r v) t) t = t := fun l t hl => by
    induction l with
    | nil => rfl
    | cons r l ih =>
      rw [List.foldl_cons, if_pos (.inl (hl r List.mem_cons_self))]
      exact ih fun q hq => hl q (List.mem_cons_of_mem _ hq)
  rw [clearFields, if_neg hoff]
  exact hfold _ s hrows

end

/-! ### The alarm's word -/

section
variable {w : Win} {v : Nat} {vr : VaultRead} {s : State}

/-- The row of CLK_ALARM0's low word. -/
def alarmRow : RegRow := ⟨CLK_ALARM0_LO_NS, .rw, 0, 4294967295⟩

theorem rowsAt_alarm (s : State) : rowsAt s 2 0x48 = [alarmRow] := rfl

theorem takenRows_alarm (w : Win) (v : Nat) (s : State) : takenRows w 2 0x48 v s = [alarmRow] := by
  have hmax : wordFld alarmRow v ≤ alarmRow.max := Nat.le_of_lt_succ (Nat.mod_lt _ (by decide))
  have hlegal : legalFld s 2 v alarmRow = true := by
    rw [legalFld_plain (.inr (.inl rfl)) (by decide), decide_eq_true hmax]
    rfl
  rw [takenRows, taken, wholeOk_plain (.inr (.inl rfl)), if_pos rfl, rowsAt_alarm, List.filter_singleton, hlegal]
  rfl

theorem registerWrite_alarm (hpass : Passes w 2 s) :
    ∃ t, exec (.registerWrite w 2 0x48 4 v false vr) s = .next t ∧ getFld t CLK_ALARM0_LO_NS = v % 2 ^ 32 := by
  have hp : plainPage 2 := .inr (.inl rfl)
  refine ⟨_, registerWrite_plain hp hpass (by decide) (by decide) (isVf_plain hp hpass) (by rw [rowsAt_alarm]; exact List.cons_ne_nil _ _), ?_⟩
  rw [getFld_ltrSync (by decide), regWrite_plain hp (by decide) (by rw [rowsAt_alarm]; rfl),
    clearFields_none (by decide) (by rw [rowsAt_alarm]; simp [alarmRow]), getFld_putFields_taken (by decide) (by
      rw [refusedRwi, rowsAt_alarm]
      simp [alarmRow]), takenRows_alarm]
  exact (getFld_setFld_self ..).trans (by simp [wordFld, alarmRow, bitsOf, CLK_ALARM0_LO_NS])

end

/-! ### The rebuild page's installer fields -/

section
variable {w : Win} {slice steps : Nat} {vr : VaultRead} {s : State}

/-- The rows of RBD_CFG. -/
def sliceRow : RegRow := ⟨RBD_CFG_SLICE_US, .rwi, 100, 10000⟩
def stepsRow : RegRow := ⟨RBD_CFG_STEPS_MAX, .rwi, 1, 255⟩

theorem rowsAt_rbdCfg (s : State) : rowsAt s 0x39 0x40 = [sliceRow, stepsRow] := rfl

/-- The parts of RBD_CFG's word. -/
theorem wordFld_rbdCfg (hslice : slice ≤ 10000) (hsteps : steps < 256) :
    wordFld sliceRow (slice + 2 ^ 16 * steps) = slice ∧ wordFld stepsRow (slice + 2 ^ 16 * steps) = steps := by
  simp only [wordFld, sliceRow, stepsRow, bitsOf, RBD_CFG_SLICE_US, RBD_CFG_STEPS_MAX]
  omega

theorem legalFld_rbdCfg (hlo : 100 ≤ slice) (hslice : slice ≤ 10000) (hone : 1 ≤ steps) (hsteps : steps < 256) (s : State) :
    legalFld s 0x39 (slice + 2 ^ 16 * steps) sliceRow = true ∧ legalFld s 0x39 (slice + 2 ^ 16 * steps) stepsRow = true := by
  obtain ⟨hs, ht⟩ := wordFld_rbdCfg hslice hsteps
  rw [legalFld_plain (.inr (.inr rfl)) (by decide), legalFld_plain (.inr (.inr rfl)) (by decide), hs, ht]
  exact ⟨Bool.and_eq_true_iff.mpr ⟨decide_eq_true hlo, decide_eq_true hslice⟩,
    Bool.and_eq_true_iff.mpr ⟨decide_eq_true hone, decide_eq_true (Nat.le_of_lt_succ hsteps)⟩⟩

theorem takenRows_rbdCfg (hlo : 100 ≤ slice) (hslice : slice ≤ 10000) (hone : 1 ≤ steps) (hsteps : steps < 256) (w : Win) (s : State) :
    takenRows w 0x39 0x40 (slice + 2 ^ 16 * steps) s = if mayInstall s w then [sliceRow, stepsRow] else [] := by
  obtain ⟨hs, ht⟩ := legalFld_rbdCfg hlo hslice hone hsteps s
  rw [takenRows, taken, wholeOk_plain (.inr (.inr rfl)), if_pos rfl, rowsAt_rbdCfg]
  simp only [List.filter_cons, List.filter_nil, hs, ht]
  cases mayInstall s w <;> cases rwlLocked s <;> rfl

theorem registerWrite_rbdCfg (hpass : Passes w 0x39 s) (hsmall : slice ≤ 10000) (hsteps : steps < 256) :
    exec (.registerWrite w 0x39 0x40 4 (slice + 2 ^ 16 * steps) false vr) s =
      .next (ltrSync (fun t => putFields w 0x39 0x40 (slice + 2 ^ 16 * steps) (admitted w 0x39 t)) s) := by
  have hp : plainPage 0x39 := .inr (.inr rfl)
  have hword : (slice + 2 ^ 16 * steps) % 2 ^ 32 = slice + 2 ^ 16 * steps := by omega
  have hreg : ∀ u, regWrite w 0x39 0x40 (slice + 2 ^ 16 * steps) vr u = putFields w 0x39 0x40 (slice + 2 ^ 16 * steps) u := fun u => by
    rw [regWrite_plain hp (by decide) (by rw [rowsAt_rbdCfg]; rfl), clearFields_none (by decide) (by rw [rowsAt_rbdCfg]; simp [sliceRow, stepsRow])]
  rw [registerWrite_plain hp hpass (by decide) (by decide) (isVf_plain hp hpass) (by rw [rowsAt_rbdCfg]; exact List.cons_ne_nil _ _), hword]
  simp only [hreg]

theorem registerWrite_rbdCfg_installed (hpass : Passes w 0x39 s) (hinst : mayInstall s w = true) (hlo : 100 ≤ slice) (hslice : slice ≤ 10000)
    (hone : 1 ≤ steps) (hsteps : steps < 256) :
    ∃ t, exec (.registerWrite w 0x39 0x40 4 (slice + 2 ^ 16 * steps) false vr) s = .next t ∧ getFld t RBD_CFG_SLICE_US = slice ∧
      getFld t RBD_CFG_STEPS_MAX = steps := by
  obtain ⟨hs, ht⟩ := wordFld_rbdCfg hslice hsteps
  have hok : (!mayInstall (admitted w 0x39 s) w && refusedRwi (admitted w 0x39 s) 0x39 0x40 (slice + 2 ^ 16 * steps)) = false := by
    rw [mayInstall_admitted, hinst]
    rfl
  have hrows : takenRows w 0x39 0x40 (slice + 2 ^ 16 * steps) (admitted w 0x39 s) = [sliceRow, stepsRow] := by
    rw [takenRows_rbdCfg hlo hslice hone hsteps, mayInstall_admitted, if_pos hinst]
  refine ⟨_, registerWrite_rbdCfg hpass hslice hsteps, ?_, ?_⟩
  · rw [getFld_ltrSync (by decide), getFld_putFields_taken (by decide) hok, hrows, putRows_cons, putRows_cons, hs, ht]
    exact (getFld_setFld_ne (by decide) _ _).trans ((getFld_setFld_self ..).trans (Nat.mod_eq_of_lt (by simp only [sliceRow, RBD_CFG_SLICE_US]; omega)))
  · rw [getFld_ltrSync (by decide), getFld_putFields_taken (by decide) hok, hrows, putRows_cons, putRows_cons, hs, ht]
    exact (getFld_setFld_self ..).trans (Nat.mod_eq_of_lt hsteps)

theorem registerWrite_rbdCfg_denied (hpass : Passes w 0x39 s) (hinst : mayInstall s w = false) (hlo : 100 ≤ slice) (hslice : slice ≤ 10000)
    (hone : 1 ≤ steps) (hsteps : steps < 256) (hne : slice ≠ getFld s RBD_CFG_SLICE_US) :
    ∃ t, exec (.registerWrite w 0x39 0x40 4 (slice + 2 ^ 16 * steps) false vr) s = .next t ∧
      getFld t RBD_CFG_SLICE_US = getFld s RBD_CFG_SLICE_US ∧ getFld t RBD_CFG_STEPS_MAX = getFld s RBD_CFG_STEPS_MAX ∧
      getFld t ROLE_DENY_COUNT = (getFld s ROLE_DENY_COUNT + 1) % 2 ^ ROLE_DENY_COUNT.width := by
  obtain ⟨hs, -⟩ := wordFld_rbdCfg hslice hsteps
  obtain ⟨hlegal, -⟩ := legalFld_rbdCfg hlo hslice hone hsteps (admitted w 0x39 s)
  have hrows : takenRows w 0x39 0x40 (slice + 2 ^ 16 * steps) (admitted w 0x39 s) = [] := by
    rw [takenRows_rbdCfg hlo hslice hone hsteps, mayInstall_admitted, hinst]
    rfl
  have hrefused : refusedRwi (admitted w 0x39 s) 0x39 0x40 (slice + 2 ^ 16 * steps) = true := by
    have hdiffers : getFld (admitted w 0x39 s) sliceRow.f ≠ slice := by
      rw [getFld_admitted]
      exact Ne.symm hne
    rw [refusedRwi, wholeOk_plain (.inr (.inr rfl)), rowsAt_rbdCfg, List.any_cons, hlegal, hs, decide_eq_true hdiffers]
    rfl
  have hput : putFields w 0x39 0x40 (slice + 2 ^ 16 * steps) (admitted w 0x39 s) = denied w 0x39 (admitted w 0x39 s) := by
    rw [putFields_none hrows, mayInstall_admitted, hinst, hrefused]
    rfl
  refine ⟨_, registerWrite_rbdCfg hpass hslice hsteps, ?_, ?_, ?_⟩
  · rw [getFld_ltrSync (by decide), hput, getFld_denied_ne (by decide), getFld_admitted]
  · rw [getFld_ltrSync (by decide), hput, getFld_denied_ne (by decide), getFld_admitted]
  · rw [getFld_ltrSync (by decide), hput, getFld_denied_count, getFld_admitted]

end

/-! ### Read-only fields and events -/

section
variable {w : Win} {v : Nat} {vr : VaultRead} {s : State}

theorem rowsAt_vdd (s : State) : rowsAt s 1 0x4C = [⟨PWR_VDD_MV, .ro, 0, 65535⟩, ⟨PWR_VDD_MIN_MV, .ro, 0, 65535⟩] := rfl

theorem registerWrite_vdd (hpass : Passes w 1 s) :
    ∃ t, exec (.registerWrite w 1 0x4C 4 v false vr) s = .next t ∧ getFld t PWR_VDD_MV = getFld s PWR_VDD_MV ∧
      getFld t PWR_VDD_MIN_MV = getFld s PWR_VDD_MIN_MV := by
  have hp : plainPage 1 := .inl rfl
  have hreg : regWrite w 1 0x4C (v % 2 ^ 32) vr (admitted w 1 s) = admitted w 1 s := by
    have hput : putFields w 1 0x4C (v % 2 ^ 32) (admitted w 1 s) = admitted w 1 s := by
      rw [putFields_none (by rw [takenRows, taken, wholeOk_plain hp, if_pos rfl, rowsAt_vdd]; simp), refusedRwi, rowsAt_vdd]
      simp
    rw [regWrite_plain hp (by decide) (by rw [rowsAt_vdd]; rfl), hput, clearFields_none (by decide) (by rw [rowsAt_vdd]; simp)]
  have hrun : ∀ port, running (regWrite w 1 0x4C (v % 2 ^ 32) vr (admitted w 1 s)) port = running s port := fun port => by
    rw [hreg]
    exact running_congr (admitted_io ..) (fun f _ => getFld_admitted ..) port
  refine ⟨_, registerWrite_plain hp hpass (by decide) (by decide) (isVf_plain hp hpass) (by rw [rowsAt_vdd]; exact List.cons_ne_nil _ _), ?_, ?_⟩
  · rw [ltrSync_of_running_eq hrun, hreg, getFld_admitted]
  · rw [ltrSync_of_running_eq hrun, hreg, getFld_admitted]

/-- Bits summed from the lowest: the sum is below the next, and holds those that were taken. -/
theorem testBit_sumBits (c : Nat → Bool) (n : Nat) :
    (List.range n).foldl (fun a b => if c b then a + 2 ^ b else a) 0 < 2 ^ n ∧
      ∀ b < n, ((List.range n).foldl (fun a b => if c b then a + 2 ^ b else a) 0).testBit b = c b := by
  induction n with
  | zero => exact ⟨Nat.one_pos, fun b hb => absurd hb (Nat.not_lt_zero b)⟩
  | succ n ih =>
    obtain ⟨hlt, hbits⟩ := ih
    rw [List.range_succ, List.foldl_append, List.foldl_cons, List.foldl_nil]
    generalize (List.range n).foldl (fun a b => if c b then a + 2 ^ b else a) 0 = a at hlt hbits ⊢
    have hpow : 2 ^ (n + 1) = 2 ^ n + 2 ^ n := by omega
    split
    next hc =>
      have hor : a + 2 ^ n = 2 ^ n ||| a := by simpa [Nat.add_comm] using Nat.two_pow_add_eq_or_of_lt hlt 1
      refine ⟨by omega, fun b hb => ?_⟩
      rw [hor, Nat.testBit_or]
      by_cases hbn : b = n
      · rw [hbn, Nat.testBit_two_pow_self, Bool.true_or, hc]
      · rw [Nat.testBit_two_pow_of_ne (Ne.symm hbn), Bool.false_or, hbits b (by omega)]
    next hc =>
      refine ⟨by omega, fun b hb => ?_⟩
      by_cases hbn : b = n
      · rw [hbn, Nat.testBit_lt_two_pow hlt, Bool.eq_false_iff.mpr hc]
      · exact hbits b (by omega)

theorem testBit_clearEvt {p bits b : Nat} (hb : b < 32) (s : State) :
    (getFld (clearEvt p bits s) (PG_EVT_EVT p)).testBit b = ((getFld s (PG_EVT_EVT p)).testBit b && !bits.testBit b) := by
  obtain ⟨hlt, hbits⟩ := testBit_sumBits (fun b => (getFld s (PG_EVT_EVT p)).testBit b && !bits.testBit b) 32
  rw [clearEvt]
  generalize (List.range 32).foldl (fun a b => if (getFld s (PG_EVT_EVT p)).testBit b && !bits.testBit b then a + 2 ^ b else a) 0 = new at hlt hbits ⊢
  have hset : getFld (setFld (PG_EVT_EVT p) new s) (PG_EVT_EVT p) = new := (getFld_setFld_self ..).trans (Nat.mod_eq_of_lt hlt)
  rw [← hbits b hb]
  split
  · rw [getFld_setFld_same (by rfl) (by rfl) (by rfl), getFld_setFld_same (by rfl) (by rfl) (by rfl), hset]
  · rw [hset]

theorem rowsAt_rbdEvt (s : State) : rowsAt s 0x39 0x10 = [⟨PG_EVT_EVT 0x39, .rw1c, 0, 4294967295⟩] := rfl

theorem registerWrite_rbdEvt (hpass : Passes w 0x39 s) :
    ∃ t, exec (.registerWrite w 0x39 0x10 4 v false vr) s = .next t ∧
      ∀ b < 32, (getFld t (PG_EVT_EVT 0x39)).testBit b = ((getFld s (PG_EVT_EVT 0x39)).testBit b && !v.testBit b) := by
  have hp : plainPage 0x39 := .inr (.inr rfl)
  have hput : putFields w 0x39 0x10 (v % 2 ^ 32) (admitted w 0x39 s) = admitted w 0x39 s := by
    rw [putFields_none (by rw [takenRows, taken, wholeOk_plain hp, if_pos rfl, rowsAt_rbdEvt]; simp), refusedRwi, rowsAt_rbdEvt]
    simp
  refine ⟨_, registerWrite_plain hp hpass (by decide) (by decide) (isVf_plain hp hpass) (by rw [rowsAt_rbdEvt]; exact List.cons_ne_nil _ _),
    fun b hb => ?_⟩
  rw [getFld_ltrSync (by decide), regWrite_plain hp (by decide) (by rw [rowsAt_rbdEvt]; rfl), hput, clearFields, if_pos rfl, testBit_clearEvt hb,
    getFld_admitted, Nat.testBit_mod_two_pow, decide_eq_true hb, Bool.true_and]

theorem registerWrite_reserved {n off : Nat} (hlt : off < 4096) (ha : off % 4 = 0) (hrows : rowsAt s 0x39 off = []) :
    exec (.registerWrite (.core n) 0x39 off 4 v false vr) s = .next (ltrSync id s) := by
  have hword : busWrite (.core n) 0x39 off 4 v false vr s = s := by
    rw [busWrite_word rfl rfl rfl (by decide) ha, wordWrite, hrows]
    rfl
  rw [exec_registerWrite, execRegisterWrite, decide_eq_true ⟨by decide, hlt⟩, run_true, ltrSync, hword, ltrSync]
  rfl

end

/-! ### Reads and the settings record -/

theorem registerRead_core {n p off : Nat} (hp : p < 0x2000) (hlt : off < 4096) (ha : off % 4 = 0) (s : State) :
    ∃ t, exec (.registerRead (.core n) p off 4) s = .next t ∧
      t.out = .read (.core n) p off (pageRead (.core n) p off s).1 :: (pageRead (.core n) p off s).2.out := by
  have hbus : busRead (.core n) p off 4 s = bumpFresh (emit (.read (.core n) p off (pageRead (.core n) p off s).1) (pageRead (.core n) p off s).2) := by
    have hcfg : p ≠ 0x3000 := by omega
    simp [busRead, winOpen, winOff, hcfg, isBell, shapeOk_word ha, winPage, wordRead]
  refine ⟨_, by rw [exec_registerRead, execRegisterRead, decide_eq_true ⟨by omega, hlt⟩, run_true, hbus], ?_⟩
  exact emit_out ..

theorem settingsRecordWrite_writes {s : State} (hphase : 5 ≤ phase s) :
    exec .settingsRecordWrite s = .next (flashPut (slotFor s setA setB 0x0C setValid).1 (setBytes (slotFor s setA setB 0x0C setValid).2 (setEntries s)) s) := by
  rw [exec_settingsRecordWrite, execSettingsRecordWrite, run_true, onlyIf]
  exact congrArg Host.Outcome.next (if_pos (decide_eq_true hphase))

/-- Settles O57: a word reaches its register on these pages as a write of the fields its access codes take, and a write that takes none is only denied
where an installer's field would change. -/
theorem registersAreWrittenAndRead : Obligations.RegistersAreWrittenAndRead := by
  unfold Obligations.RegistersAreWrittenAndRead
  refine ⟨?alarm, ?installed, ?denied, ?readOnly, ?event, ?reserved, ?read, ?settings⟩
  case alarm => exact fun w v vr s hpass => registerWrite_alarm hpass
  case installed =>
    exact fun w slice steps vr s hpass hinst hlo hslice hone hsteps => registerWrite_rbdCfg_installed hpass hinst hlo hslice hone hsteps
  case denied =>
    exact fun w slice steps vr s hpass hinst hlo hslice hone hsteps hne => registerWrite_rbdCfg_denied hpass hinst hlo hslice hone hsteps hne
  case readOnly => exact fun w v vr s hpass => registerWrite_vdd hpass
  case event => exact fun w v vr s hpass => registerWrite_rbdEvt hpass
  case reserved => exact fun n off v vr s hlt ha hrows => registerWrite_reserved hlt ha hrows
  case read => exact fun n p off s hp hlt ha => registerRead_core hp hlt ha s
  case settings => exact fun s hphase => settingsRecordWrite_writes hphase

end Sys2Proof.Machine
end

section
/-! A RESIZE_VOLUME that has grown its volume, while a later command has made the volume larger still (R220). -/

namespace Sys2Proof.Machine
open Reg

/-- The submission entry of a RESIZE_VOLUME of volume 0 to 5 extents. -/
def resizeEntry : List Byte := ((List.replicate 64 0).set 0x00 0x83).set 0x14 5

/-- The command has added 3 extents, as its result says, and waits for the catalogue writes. -/
def grownResize : Cmd :=
  { ctx := 0, role := 1, raw := resizeEntry, since := 0, phase := .presented, bufs := [], fail := none, detail := 0, result := 3, todo := 0,
    waits := 0, rdBlks := 0, wrBlks := 0, got := [], host := [], fixed := 0, keys := [], defer := [], tries := 1 }

/-- Volume 0 now has 8 extents, none of which is placed on a plate of this node. -/
def largerVolume : Vol := { extents := 8, plates := [], attach := [none, none, none, none], deleting := false, seq := 0 }

/-- The grown resize is command 1. -/
def grownResizeState : State :=
  { State.reset with
    store := { Store.reset with vols := [(0, largerVolume)] }
    io := { State.reset.io with cmds := [(1, grownResize)] } }

/-- Refutes O58: the last clause takes every RESIZE_VOLUME under way to a size below the volume's for a shrink; one that has grown the volume,
as its result other than 0 says, ends with that result and leaves the volume's size alone. -/
theorem not_volumeCommandsAct : ¬ Obligations.VolumeCommandsAct := by
  unfold Obligations.VolumeCommandsAct
  rintro ⟨-, -, -, -, -, -, -, -, hshrink⟩
  have hexec := hshrink 1 grownResize largerVolume grownResizeState ⟨by decide +kernel, by decide +kernel⟩ (by decide +kernel) (by decide) (by decide)
    (by decide +kernel) (by decide +kernel) (by decide +kernel)
  exact absurd (valueAfter_eq hexec (fun t => (volOf t 0).map Vol.extents)) (by decide +kernel)

end Sys2Proof.Machine
end

section
/-! Settles O59 on the admin commands for plates, pages and the summary (R221, R222, R228). -/

namespace Sys2Proof.Machine
open Reg

/-! ### Snapshots of the summary (R228, R448) -/

theorem setEvt_sum (p b : Nat) (s : State) : (setEvt p b s).sum = s.sum := (congrArg State.sum (setEvtBits_frame p (2 ^ b) s) :)

theorem setTries_sum (n k : Nat) (s : State) : (setTries n k s).sum = s.sum := by
  unfold setTries updCmd
  split
  · rfl
  · rfl

/-- A snapshot has the next number, and its bytes are those of the moment the freeze holds. -/
theorem takeSnap_sum (cs : List Nat) (s : State) : (takeSnap cs s).sum = { s.sum with
    seq := (s.sum.seq + 1) % 2 ^ 32, cur := some (sumBytes (setFld ADM_STAT_FROZEN 1 s) ((s.sum.seq + 1) % 2 ^ 32)), curFor := cs } := by
  unfold takeSnap
  dsimp only
  split
  · rw [setFld_sum, updSum_sum, setFld_sum]
  · rw [setEvt_sum, setFld_sum, setFld_sum, updSum_sum, setFld_sum]

/-- A taken snapshot is shown as pending. -/
theorem takeSnap_pending (cs : List Nat) (s : State) : isSet (takeSnap cs s) SUM_STAT_PENDING = true := by
  unfold takeSnap
  dsimp only
  split
  · rw [isSet, getFld_setFld_self]; rfl
  · rw [isSet, getFld_setEvt_other (by decide) (by decide), getFld_setFld_ne (by decide), getFld_setFld_self]; rfl

theorem leAt_lt (d : List Byte) (o w : Nat) : leAt d o w < 2 ^ (8 * w) := by
  have hfold : ∀ l : List Nat, l.foldr (fun i acc => byteAt d (o + i) + 256 * acc) 0 < 2 ^ (8 * l.length) := fun l => by
    induction l with
    | nil => exact Nat.one_pos
    | cons i l ih =>
      have hbyte : byteAt d (o + i) < 256 := BitVec.isLt _
      rw [List.foldr_cons, List.length_cons, Nat.mul_succ, pow_add]
      omega
  have h := hfold (List.range w)
  rwa [List.length_range] at h

theorem fenced_updSum (f : SumSt → SumSt) (s : State) (p : Nat) : fenced (updSum f s) p = fenced s p := rfl

/-- A snapshot that only CHIP_RESYNC asked for is published and ends it. -/
theorem publish_for_chip {b : List Byte} {s : State} (hcur : s.sum.cur = some b) (hfor : s.sum.curFor = [0]) (hcmd : cmdOf s 0 = none)
    (hagain : s.sum.again = false) (hfence : fenced s 8 = false) :
    publish s = setFld SUM_STAT_PENDING 0 (setFld CHIP_RESYNC_GO 0 (setFld SUM_STAT_VALID 1 (setFld SUM_SEQ_SNAP_SEQ (leAt b 0xC 4)
      (updSum (fun t => { t with pub := b }) (updSum (fun t => { t with cur := none, curFor := [], again := false, nextFor := [] }) s))))) := by
  unfold publish
  simp only [hcur, hfor, List.foldl_cons, List.foldl_nil, hcmd, List.mem_singleton, if_true, hagain, fenced_updSum, hfence, Bool.false_eq_true, if_false]

/-! ### CHIP_RESYNC -/

/-- CHIP_RESYNC written 1 while it is 0 asks for a snapshot as command 0. -/
theorem chipResync_asks {w : Win} {v : Nat} {s : State} (hpass : Passes w 0 s) (hv : v % 2 = 1) (hgo : isSet s CHIP_RESYNC_GO = false) :
    exec (.chipResync w v) s = .next (askSnap [0] (setFld CHIP_RESYNC_GO 1 (admitted w 0 s))) := by
  obtain ⟨hopen, hon, hmay, -, hhas⟩ := hpass
  rw [exec_chipResync, execChipResync, run_true, guardAccess_pass hopen hon hmay hhas, onlyIf, decide_eq_true hv, if_pos rfl, isSet_admitted, hgo,
    if_neg Bool.false_ne_true]

/-! ### Plates made and deleted -/

/-- CREATE_PLATE that has begun goes on with its next step, whatever its page. -/
theorem createPlate_begun {n : Nat} {x : Cmd} {s : State} (hdue : AdminDue n 0x86 x s) (hbegun : x.tries ≠ 0) (page : HostRd) (f : PlateFacts) :
    exec (.createPlate n page f) s = .next (buildStep n x x.result s) := by
  rw [exec_createPlate, execCreatePlate, run_true, adminDo_due hdue, if_pos hbegun]
  exact congrArg Host.Outcome.next (if_pos hbegun)

theorem plateOf_deleted (p : Nat) (f : Store → Store) (s : State) (hf : (f s.store).plates = smDel s.store.plates p) :
    plateOf (updStore f s) p = none := by
  rw [plateOf, updStore_store, hf, smGet_smDel_self]

/-! ### BLOCK_CMD (R222) -/

/-- How BLOCK_CMD leaves the page's operation: ended with its status, or under way. -/
def blockCmdDone (n : Nat) (x : Cmd) (st done : FRef) (t : State) : State :=
  if isSet t done then
    endCmd n (statusOf (getFld t st)) 0 (getFld t st + 2 ^ 8) (if getFld t st = 0 then roleAction x.role 5 0x88 t else t)
  else setTries n 1 t

/-- BLOCK_CMD loads the value, sets GO and runs the operation that the page then names. -/
theorem blockCmd_runs {n off rate nonce : Nat} {x : Cmd} {md : PlateMedia} {ok1 ok2 : Bool} {op go st done : FRef} {act : State → State} {s : State}
    (hfirst : x.tries = 0) (hregs : cmdRegs (enCdw x.raw) = some (off, op, go, st, done)) (hgo : isSet s go = false)
    (hcodes : ∀ r ∈ pageRows s (enCdw x.raw), r.f.key = op.key → codeOk r (enAux x.raw) = true) :
    let t0 := needRole (.pf (ctxPort s x.ctx)) (loadCmd s (enCdw x.raw) off (enAux x.raw) go)
    let t := seqIf (enCdw x.raw) s (if 0x40 ≤ enCdw x.raw ∧ enCdw x.raw ≤ 0x7F then
      setFld (PLT_CMD_PORT_PORT (enCdw x.raw - 0x40)) (bitsOf (enAux2 x.raw) 0 32) (setFld (PLT_CMD_NSID_NSID (enCdw x.raw - 0x40)) (bitsOf (enAux2 x.raw) 32 32) t0)
      else t0)
    pageOp (enCdw x.raw) (getFld t op) md ok1 ok2 rate nonce = some act →
    blockCmd n md ok1 ok2 rate nonce x s = blockCmdDone n x st done (act (setFld done 0 (setFld go 1 t))) := by
  intro t0 t hact
  have hlegal : (pageRows s (enCdw x.raw)).any (fun r => decide (r.f.key = op.key) && !codeOk r (enAux x.raw)) = false := by
    rw [List.any_eq_false]
    intro r hr hbad
    obtain ⟨hkey, hcode⟩ := Bool.and_eq_true_iff.mp hbad
    rw [hcodes r hr (of_decide_eq_true hkey)] at hcode
    exact Bool.false_ne_true hcode
  unfold blockCmd
  simp only [hregs, hfirst, zero_ne_one, if_false, hgo, Bool.false_eq_true, hlegal]
  rw [show pageOp _ _ md ok1 ok2 rate nonce = some act from hact]
  rfl

/-- Settles O59: each command is due and its own checks hold; the snapshots by what `takeSnap` leaves. -/
theorem plateAndPageCommandsAct : Obligations.PlateAndPageCommandsAct := by
  unfold Obligations.PlateAndPageCommandsAct
  refine ⟨?create, ?answer, ?build, ?wipe, ?mark, ?wiped, ?block, ?lost, ?resync, ?chip, ?chipWaits, ?shown, ?ended⟩
  case create =>
    intro n x b f s hdue hfirst hready u hpage hmay p
    rw [exec_createPlate, execCreatePlate, run_true, adminDo_due hdue, if_neg (not_not.mpr hfirst), adminPage, readNow, if_pos hready]
    simp only [createPlate, hfirst, ne_eq, not_true_eq_false, if_false,
      show pageBad (readDone (ctxPort s x.ctx) (ctxFunc s x.ctx) (enDptr x.raw) 4096 (.data b) s) f.far (slice b 0 4096) = none from hpage,
      show createBad (readDone (ctxPort s x.ctx) (ctxFunc s x.ctx) (enDptr x.raw) 4096 (.data b) s) f (slice b 0 4096) = none from hmay]
    rfl
  case answer =>
    intro n x y page f s hdue htwo hplate hlabel hinit u
    rw [createPlate_begun hdue (by rw [htwo]; decide), buildStep]
    simp only [hplate, hlabel, hinit, htwo]
    rfl
  case build =>
    intro n x y page f s hdue hone hplate hlabel hinit
    rw [createPlate_begun hdue (by rw [hone]; decide), buildStep]
    simp only [hplate, hlabel, hinit, hone]
    rfl
  case wipe =>
    intro n x y s hdue hone hplate hquiet hlabel hinit hcache p t
    refine ⟨?_, plateOf_deleted _ _ _ rfl, fun e he => of_decide_eq_true (List.mem_filter.mp he).2⟩
    rw [exec_deletePlate, execDeletePlate, run_true, adminDo_due hdue, deletePlate]
    simp only [hone, hplate, hquiet, hlabel, hinit, hcache, OfNat.one_ne_ofNat, one_ne_zero, false_and, if_false, Bool.not_true, Bool.false_eq_true,
      or_false]
    rfl
  case mark =>
    intro n x y s hdue hfirst hplate hserved u hbusy
    rw [exec_deletePlate, execDeletePlate, run_true, adminDo_due hdue, deletePlate]
    simp only [hfirst, hplate, hserved, OfNat.zero_ne_ofNat, Bool.not_true, Bool.false_eq_true, and_false, if_false, if_true,
      show plateQuiet (setTries n 1 (abandonUnits (enCdw x.raw) (updPlate (enCdw x.raw) (fun z => { z with gone := true }) s))) (enCdw x.raw) = false
        from hbusy, Bool.not_false, true_or]
    rfl
  case wiped =>
    intro n x s hdue htwo hwritten
    rw [exec_deletePlate, execDeletePlate, run_true, adminDo_due hdue, deletePlate]
    simp only [htwo, hwritten]
    rfl
  case block =>
    intro n x md ok1 ok2 rate nonce off op go st done act s hdue hfirst hregs _ _ hgo hcodes t0 t hact u
    have hrun : exec (.blockCmd n md ok1 ok2 rate nonce) s = .next (blockCmdDone n x st done u) := by
      rw [exec_blockCmd, execBlockCmd, run_true, adminDo_due hdue, blockCmd_runs hfirst hregs hgo hcodes hact]
    refine ⟨fun hdone hok => ?_, fun hopen => ?_⟩
    · rw [hrun, blockCmdDone, if_pos hdone, if_pos hok, hok]
      rfl
    · rw [hrun, blockCmdDone, hopen, if_neg Bool.false_ne_true]
  case lost =>
    intro n x s hdue
    rw [exec_getLostWrites, execGetLostWrites, run_true, adminDo_due hdue, getLostWrites]
  case resync =>
    intro n x s hdue hfirst hnone
    have hsum := takeSnap_sum [n] (setTries n 1 s)
    rw [setTries_sum] at hsum
    refine ⟨takeSnap [n] (setTries n 1 s), ?_, by rw [hsum], by rw [hsum], by rw [hsum], takeSnap_pending _ _⟩
    rw [exec_resync, execResync, run_true, adminDo_due hdue, if_pos hfirst, askSnap, setTries_sum, hnone]
    rfl
  case chip =>
    intro w v s hpass hv hgo hnone
    refine ⟨?_, by rw [takeSnap_sum, setFld_sum, admitted_sum]⟩
    rw [chipResync_asks hpass hv hgo, askSnap, setFld_sum, admitted_sum, hnone]
    rfl
  case chipWaits =>
    intro w v s hpass hv hgo hsome
    refine ⟨_, by rw [chipResync_asks hpass hv hgo, askSnap, setFld_sum, admitted_sum, if_pos hsome], ?_, rfl, ?_, ?_⟩
    · rw [isSet, getFld_updSum, getFld_setFld_self]; rfl
    · rw [updSum_sum, setFld_sum, admitted_sum]
    · rw [updSum_sum, setFld_sum, admitted_sum]
  case shown =>
    intro b s hcur hfor hcmd hagain hfence
    refine ⟨_, by rw [exec_snapshotPublish, execSnapshotPublish, run_true, publish_for_chip hcur hfor hcmd hagain hfence], rfl, rfl, ?valid, ?seq, ?pending, ?go⟩
    case valid => rw [isSet, getFld_setFld_ne (by decide), getFld_setFld_ne (by decide), getFld_setFld_self]; rfl
    case seq =>
      rw [getFld_setFld_ne (by decide), getFld_setFld_ne (by decide), getFld_setFld_ne (by decide), getFld_setFld_self]
      exact Nat.mod_eq_of_lt (leAt_lt b 0xC 4)
    case pending => rw [isSet, getFld_setFld_self]; rfl
    case go => rw [isSet, getFld_setFld_ne (by decide), getFld_setFld_self]; rfl
  case ended =>
    intro n b x s hcur hfor hn hcmd u hagain hfence
    have hzero : ¬ 0 ∈ s.sum.curFor := by rw [hfor, List.mem_singleton]; exact fun h => hn h.symm
    rw [exec_snapshotPublish, execSnapshotPublish, run_true, publish]
    simp only [hcur, if_neg hzero]
    simp only [hfor, List.foldl_cons, List.foldl_nil, hcmd]
    rw [if_neg (by rw [show (adminOk n x (leAt b 0xC 4) (adminOut x b s)).sum.again = false from hagain]; decide), if_neg (by rw [fenced_updSum]; exact Bool.eq_false_iff.mp hfence)]

end Sys2Proof.Machine
end

section
/-! Settles O60 on the balls of the package and their pins (R452 to R457, R463). -/

namespace Sys2Proof.Machine
open Reg

/-! ### Balls of the SerDes lanes (R453) -/

/-- Two numbers 1 or 2 over multiples of 3 are told apart. -/
theorem leg_injective {m n : Nat} {a b : Bool} (h : (3 * m + if a then 1 else 2) = 3 * n + if b then 1 else 2) : m = n ∧ a = b := by
  cases a <;> cases b
  · exact ⟨by simp only [Bool.false_eq_true, if_false] at h; omega, rfl⟩
  · simp only [Bool.false_eq_true, if_false, if_true] at h; omega
  · simp only [Bool.false_eq_true, if_false, if_true] at h; omega
  · exact ⟨by simp only [if_true] at h; omega, rfl⟩

theorem serdesBall_injective {x y : Nat} {tx neg tx' neg' : Bool} (h : serdesBall x tx neg = serdesBall y tx' neg') : x = y ∧ tx = tx' ∧ neg = neg' := by
  obtain ⟨hrow, hcol⟩ := Ball.mk.inj h
  have hswap : ∀ b : Bool, (if b then 2 else 1) = if !b then 1 else 2 := by decide
  rw [hswap, hswap] at hcol
  obtain ⟨hdiv, htx⟩ := leg_injective hrow
  obtain ⟨hmod, hneg⟩ := leg_injective hcol
  exact ⟨by omega, htx, Bool.not_inj hneg⟩

/-- The rows of the lanes end at 30; every third row among them is left to the supplies. -/
theorem serdesBall_row {x : Nat} (hx : x < 192) (tx neg : Bool) : (serdesBall x tx neg).row ≤ 30 ∧ (serdesBall x tx neg).row % 3 ≠ 0 := by
  unfold serdesBall
  cases tx
  · simp only [Bool.false_eq_true, if_false]; omega
  · simp only [if_true]; omega

/-! ### Balls of the DDR signals (R454) -/

/-- The signal that lies in a column of a data row, counted from 0. -/
def dataSigAt (i : Nat) : DdrSig :=
  if i % 6 = 4 then .dqsT (i / 6) else if i % 6 = 5 then .dqsC (i / 6)
  else if i / 6 < 8 then .dq (4 * (i / 6) + i % 6) else .cb (4 * (i / 6 - 8) + i % 6)

/-- The signal that lies in a column of a channel's command row, counted from 0. -/
def cmdSigAt (i : Nat) : DdrSig :=
  if i = 24 then .alert else if i = 25 then .reset
  else if i % 12 < 7 then .ca (i % 12) else if i % 12 = 7 then .par
  else if i % 12 < 10 then .cs (i % 12 - 8) else if i % 12 = 10 then .ckT else .ckC

/-- The signal at a ball of the DDR rows. -/
def ddrSigAt (b : Ball) : DdrSig := if b.row % 3 = 0 then cmdSigAt (b.col - 1) else dataSigAt (b.col - 1)

/-- Bit j of a nibble's six columns. -/
theorem dataSigAt_nibble {j : Nat} (hj : j < 6) (n : Nat) : dataSigAt (6 * n + 1 + j - 1) =
    if j = 4 then .dqsT n else if j = 5 then .dqsC n else if n < 8 then .dq (4 * n + j) else .cb (4 * (n - 8) + j) := by
  have hbit : (6 * n + 1 + j - 1) % 6 = j := by omega
  have hnibble : (6 * n + 1 + j - 1) / 6 = n := by omega
  rw [dataSigAt, hbit, hnibble]

/-- Column i of a subchannel's twelve. -/
theorem cmdSigAt_sub {u i : Nat} (hu : u < 2) (hlow : 1 ≤ i) (hhigh : i ≤ 12) : cmdSigAt (12 * u + i - 1) =
    if i ≤ 7 then .ca (i - 1) else if i = 8 then .par else if i ≤ 10 then .cs (i - 9) else if i = 11 then .ckT else .ckC := by
  have hcol : (12 * u + i - 1) % 12 = i - 1 := by omega
  have hca : i - 1 < 7 ↔ i ≤ 7 := by omega
  have hpar : i - 1 = 7 ↔ i = 8 := by omega
  have hcs : i - 1 < 10 ↔ i ≤ 10 := by omega
  have hck : i - 1 = 10 ↔ i = 11 := by omega
  rw [cmdSigAt, hcol, if_neg (by omega), if_neg (by omega)]
  simp only [hca, hpar, hcs, hck, Nat.sub_sub]

theorem ddrSigAt_ddrBall {u : Nat} (hu : u < 2) {g : DdrSig} (hg : g.valid = true) (c : Nat) : ddrSigAt (ddrBall c u g) = g := by
  have hdata : ∀ col, ddrSigAt ⟨31 + 3 * c + u, col⟩ = dataSigAt (col - 1) := fun col => if_neg (by dsimp only; omega)
  have hcmd : ∀ col, ddrSigAt ⟨33 + 3 * c, col⟩ = cmdSigAt (col - 1) := fun col => if_pos (by dsimp only; omega)
  cases g with
  | dq i =>
    have hi : i < 32 := of_decide_eq_true hg
    rw [ddrBall, hdata, dataSigAt_nibble (by omega), if_neg (by omega), if_neg (by omega), if_pos (by omega), Nat.div_add_mod]
  | cb i =>
    have hi : i < 8 := of_decide_eq_true hg
    rw [ddrBall, hdata, dataSigAt_nibble (by omega), if_neg (by omega), if_neg (by omega), if_neg (by omega), Nat.add_sub_cancel_left, Nat.div_add_mod]
  | dqsT k => rw [ddrBall, hdata, dataSigAt_nibble (by decide)]; rfl
  | dqsC k => rw [ddrBall, hdata, dataSigAt_nibble (by decide)]; rfl
  | ca i =>
    have hi : i < 7 := of_decide_eq_true hg
    rw [ddrBall, hcmd, cmdSigAt_sub hu (by omega) (by omega), if_pos (by omega), Nat.add_sub_cancel_left]
  | cs i =>
    have hi : i < 2 := of_decide_eq_true hg
    rw [ddrBall, hcmd, cmdSigAt_sub hu (by omega) (by omega), if_neg (by omega), if_neg (by omega), if_pos (by omega), Nat.add_sub_cancel_left]
  | par => rw [ddrBall, hcmd, cmdSigAt_sub hu (by decide) (by decide)]; rfl
  | ckT => rw [ddrBall, hcmd, cmdSigAt_sub hu (by decide) (by decide)]; rfl
  | ckC => rw [ddrBall, hcmd, cmdSigAt_sub hu (by decide) (by decide)]; rfl
  | alert => rw [ddrBall, hcmd]; rfl
  | reset => rw [ddrBall, hcmd]; rfl

/-- A signal lies in a data row of its subchannel, or in its channel's command row left of column 27, with a column of its subchannel's where the
signal is not the channel's own. -/
theorem ddrBall_place {u : Nat} (hu : u < 2) {g : DdrSig} (hg : g.valid = true) (c : Nat) :
    (ddrBall c u g).row = 31 + 3 * c + u ∨
      (ddrBall c u g).row = 33 + 3 * c ∧ (ddrBall c u g).col < 27 ∧ (((ddrBall c u g).col - 1) / 12 = u ∨ g = .alert ∨ g = .reset) := by
  cases g with
  | dq i => exact .inl rfl
  | cb i => exact .inl rfl
  | dqsT k => exact .inl rfl
  | dqsC k => exact .inl rfl
  | ca i =>
    have hi : i < 7 := of_decide_eq_true hg
    exact .inr ⟨rfl, by dsimp only [ddrBall]; omega, .inl (by dsimp only [ddrBall]; omega)⟩
  | cs i =>
    have hi : i < 2 := of_decide_eq_true hg
    exact .inr ⟨rfl, by dsimp only [ddrBall]; omega, .inl (by dsimp only [ddrBall]; omega)⟩
  | par => exact .inr ⟨rfl, by dsimp only [ddrBall]; omega, .inl (by dsimp only [ddrBall]; omega)⟩
  | ckT => exact .inr ⟨rfl, by dsimp only [ddrBall]; omega, .inl (by dsimp only [ddrBall]; omega)⟩
  | ckC => exact .inr ⟨rfl, by dsimp only [ddrBall]; omega, .inl (by dsimp only [ddrBall]; omega)⟩
  | alert => exact .inr ⟨rfl, (by decide : 25 < 27), .inr (.inl rfl)⟩
  | reset => exact .inr ⟨rfl, (by decide : 26 < 27), .inr (.inr rfl)⟩

theorem ddrBall_injective {c c' u u' : Nat} {g g' : DdrSig} (hu : u < 2) (hu' : u' < 2) (hg : g.valid = true) (hg' : g'.valid = true)
    (h : ddrBall c u g = ddrBall c' u' g') : c = c' ∧ g = g' ∧ (u = u' ∨ g = .alert ∨ g = .reset) := by
  have hsig : g = g' := by rw [← ddrSigAt_ddrBall hu hg c, h, ddrSigAt_ddrBall hu' hg' c']
  have hp := ddrBall_place hu hg c
  have hp' := ddrBall_place hu' hg' c'
  rw [← h, ← hsig] at hp'
  rcases hp with hrow | ⟨hrow, -, hsub⟩ <;> rcases hp' with hrow' | ⟨hrow', -, hsub'⟩
  · exact ⟨by omega, hsig, .inl (by omega)⟩
  · omega
  · omega
  · refine ⟨by omega, hsig, ?_⟩
    rcases hsub with hsub | hown
    · rcases hsub' with hsub' | hown
      · exact .inl (hsub.symm.trans hsub')
      · exact .inr hown
    · exact .inr hown

theorem ballRail_ddrBall {c u : Nat} (hc : c < 4) (hu : u < 2) {g : DdrSig} (hg : g.valid = true) :
    30 < (ddrBall c u g).row ∧ ballRail (ddrBall c u g) = none := by
  have hrow : 30 < (ddrBall c u g).row ∧ (ddrBall c u g).row ≤ 42 ∧ ¬ ((ddrBall c u g).row % 3 = 0 ∧ 27 ≤ (ddrBall c u g).col ∧ (ddrBall c u g).col % 2 = 1) := by
    rcases ddrBall_place hu hg c with hrow | ⟨hrow, hcol, -⟩
    · omega
    · omega
  obtain ⟨hlow, hhigh, hsupply⟩ := hrow
  exact ⟨hlow, by rw [ballRail, if_neg (by omega), if_pos hhigh, if_neg hsupply]⟩

/-! ### Pins and rails -/

theorem pinNow_reset (g : Pin) : pinNow State.reset g = if ioOutput g then some .highZ else pinReset g := by
  have hoff : ioPowered State.reset = false := by decide
  cases g with
  | pwrSeq i =>
    rw [pinNow, hoff, show getFld State.reset PWR_RAIL_SEQ = 0 by decide, Nat.zero_div]
    rfl
  | _ => rfl

theorem pinNow_unpowered {g : Pin} {s : State} (hout : ioOutput g = true) (hoff : ioPowered s = false) : pinNow s g = some .highZ := by
  unfold pinNow
  rw [hout, hoff]
  rfl

theorem pinNow_pwrSeq (i : Nat) (s : State) : pinNow s (.pwrSeq i) = some (if (getFld s PWR_RAIL_SEQ).testBit (i - 1) then .high else .low) := by
  rw [Nat.testBit_eq_decide_div_mod_eq]
  rfl

theorem currentMax_le_regulator {st : Nat} (hst : st ≤ 5) (g : Rail) : currentMax st g ≤ regulator g := by
  have hstates : ∀ st < 6, currentMax st g ≤ regulator g := by cases g <;> decide
  exact hstates st (by omega)

/-- Settles O60: a signal is read back from its ball; the supplies take the rows and columns that signals leave. -/
theorem everyBallCarriesOneSignal : Obligations.EveryBallCarriesOneSignal := by
  unfold Obligations.EveryBallCarriesOneSignal
  refine ⟨?lanes, ?signals, ?laneRows, ?signalRows, pinNow_reset, ?unpowered, ?seq, ?counts, ?currents, by decide⟩
  case lanes => exact fun x y a b c d _ _ h => serdesBall_injective h
  case signals => exact fun c c' u u' g g' _ _ hu hu' hg hg' h => ddrBall_injective hu hu' hg hg' h
  case laneRows =>
    intro x a b hx
    obtain ⟨hrow, hthird⟩ := serdesBall_row hx a b
    exact ⟨hrow, by rw [ballRail, if_pos hrow, if_neg (fun h => hthird h.1)]⟩
  case signalRows => exact fun c u g hc hu hg => ballRail_ddrBall hc hu hg
  case unpowered => exact fun g s => pinNow_unpowered
  case seq => exact fun i s _ _ => pinNow_pwrSeq i s
  case counts => decide +kernel
  case currents => exact fun st g hst => currentMax_le_regulator hst g

end Sys2Proof.Machine
end

section
/-! The event of a rest window that runs out, where the page's event word stands beyond its 32 bits (R178, R440). -/

namespace Sys2Proof.Machine
open Reg

/-- The rest window is open, and the BEM page's event word holds 2^32. -/
def overfullEvents : State := setFld BEM_STAT_RESTWIN 1 { State.reset with regs := [((PG_EVT_EVT 7).key, 2 ^ 32)] }

/-- Refutes O32: raising RESTWIN_FAIL stores the event word in its 32 bits, while the clause on REST_WINDOW_TIMEOUT keeps every bit that stood in
the register. -/
theorem not_bemLearnsAndKnowsItsPack : ¬ Obligations.BemLearnsAndKnowsItsPack := by
  unfold Obligations.BemLearnsAndKnowsItsPack
  rintro ⟨-, htimeout, -⟩
  obtain ⟨t, hexec, -, -, hevents⟩ := htimeout overfullEvents (by decide)
  have hcut : valueAfter (fun t => getFld t (PG_EVT_EVT 7)) (exec .restWindowTimeout overfullEvents) = some (2 ^ BEM_EVT_RESTWIN_FAIL) := by
    decide +kernel
  have hkept := hevents.symm.trans (Option.some.inj ((valueAfter_eq hexec _).symm.trans hcut))
  exact absurd hkept (by decide +kernel)

end Sys2Proof.Machine
end
